-- ==== Sys2Proof/Word.lean ====
section
/-! DEFINITION. The word types of the MRN7216 and their plainest arithmetic (R7, R8, R9, R10). -/

namespace Sys2Proof

/-- A 32-bit register or memory word (R10). -/
abbrev Word := BitVec 32
/-- A byte of a memory or of a frame. -/
abbrev Byte := BitVec 8

/-- One field of one register: the register's address and the bit range `[hi:lo]`. -/
structure Fld where
  addr : Nat
  hi : Nat
  lo : Nat
deriving DecidableEq, Repr

/-- A word of a natural number, modulo 2^32. -/
abbrev w32 (n : Nat) : Word := BitVec.ofNat 32 n
/-- A byte of a natural number, modulo 2^8. -/
abbrev b8 (n : Nat) : Byte := BitVec.ofNat 8 n
/-- The number a Boolean stands for in a one-bit field. -/
def bit (b : Bool) : Nat := if b then 1 else 0

/-- Bits `[hi:lo]` of a word as a number. -/
def bits (w : Word) (hi lo : Nat) : Nat := (w.toNat >>> lo) % 2 ^ (hi + 1 - lo)
/-- The ones of bits `[hi:lo]`. -/
def maskW (hi lo : Nat) : Word := w32 ((2 ^ (hi + 1 - lo) - 1) <<< lo)
/-- A word with bits `[hi:lo]` replaced by the low bits of `n`. -/
def setBits (w : Word) (hi lo n : Nat) : Word :=
  (w &&& ~~~ maskW hi lo) ||| w32 ((n % 2 ^ (hi + 1 - lo)) <<< lo)
/-- Bit `i` of a number. -/
def tb (n i : Nat) : Bool := n.testBit i

/-- The signed value of the low `k` bits of `n`. -/
def sgn (k n : Nat) : Int :=
  let m := n % 2 ^ k
  if m < 2 ^ (k - 1) then (m : Int) else (m : Int) - (2 ^ k : Nat)
/-- The `k`-bit two's complement of an integer. -/
def uns (k : Nat) (z : Int) : Nat := (z % ((2 ^ k : Nat) : Int)).toNat
/-- `z` limited to `[lo, hi]`. -/
def clampI (lo hi z : Int) : Int := if z < lo then lo else if hi < z then hi else z
/-- Round half away from zero of `a / b`, `b > 0`. -/
def rdiv (a : Int) (b : Nat) : Int :=
  if a < 0 then -(((-a).toNat * 2 + b) / (2 * b) : Nat) else ((a.toNat * 2 + b) / (2 * b) : Nat)
/-- A count that saturates at `top`. -/
def satAdd (top a b : Nat) : Nat := if top < a + b then top else a + b

/-- The bytes of `n`, least significant first (R7). -/
def leBytes : Nat → Nat → List Byte
  | 0, _ => []
  | k + 1, n => b8 n :: leBytes k (n / 256)
/-- The number little-endian bytes spell (R7). -/
def ofLe : List Byte → Nat
  | [] => 0
  | b :: t => b.toNat + 256 * ofLe t
/-- The bytes of `n` in network byte order, most significant first (R7). -/
def beBytes (k n : Nat) : List Byte := (leBytes k n).reverse
/-- The number bytes in network byte order spell (R7). -/
def ofBe (l : List Byte) : Nat := ofLe l.reverse
/-- `n` elements of a list from position `i`, short where the list ends. -/
def slice {α : Type} (l : List α) (i n : Nat) : List α := (l.drop i).take n

end Sys2Proof
end

