-- ==== Sys2Proof/Syntax.lean ====
section
/-! DEFINITION. The commands the block takes, whole: one constructor for each row of the opcode table, with the operands
that name the instance and carry what comes from outside. -/

namespace Sys2Proof

/-- Who makes a bus access: the host, the JTAG debug path, a Huafegal core, a thread of a Bluset engine, Cardamom (R11, R13). -/
inductive Master where
  | host
  | jtag
  | core (c : Fin 4)
  | thread (e : Fin 16) (t : Fin 4)
  | cardamom
deriving DecidableEq, Repr

/-- How a piece of a received frame ends: it goes on; the frame ends, reassembled from `frags` fragments (0: it was not
fragmented); it ends after `frags` fragments with a symbol error or a reassembly error inside; an SMD error or a symbol error
between frames. -/
inductive RxKind where
  | more | endOk (frags : Nat) | symbol (frags : Nat) | assembly (frags : Nat) | smd | idle
deriving DecidableEq, Repr

/-- A piece of a received frame: whether it belongs to a fragmented frame (R80), and how it ends. -/
structure RxEnd where
  frag : Bool
  kind : RxKind
deriving DecidableEq, Repr

/-- An error in a CAN frame: its code in ERRLOG.LEC (1 stuff, 2 form, 3 acknowledge, 4 and 5 bit, 6 CRC), whether it fell in the
data phase, and the ISO 11898-1 case that counts otherwise: for a receiver a dominant bit after its error flag (8 in place of
1), for a transmitter an exempt error (0 in place of 8). -/
structure CanErr where
  code : Nat
  dph : Bool
  alt : Bool
deriving DecidableEq, Repr

/-- A CAN frame on the bus: the words of MO ID and FMT and its data words. -/
structure CanFrm where
  id : BitVec 32
  fmt : BitVec 32
  data : List (BitVec 32)
deriving DecidableEq, Repr

/-- How a transmit attempt ends: sent, arbitration lost, an error, with arbitration `won` before it or not. -/
inductive CanEnd where
  | sent | lost | err (e : CanErr) (won : Bool)
deriving DecidableEq, Repr

/-- What a safety cycle adds to the channels' own records (R249): nothing, a fault of one channel that makes its record differ, no new record
of one for 300 µs. -/
inductive SafRec where
  | same | differ | silent
deriving DecidableEq, Repr

/-- Where an instruction meets an uncorrectable error of its engine's memories: nowhere, at its fetch, at its data access. -/
inductive EccAt where
  | none_ | fetch | data
deriving DecidableEq, Repr

/-- What the configuration of a protocol instance holds, stored or in a buffer (R165, R174): the image; fabric ports, CAN controller,
first Nutmeg cell and number of cells; cycle in ns (0 none; of PROFINET the IRT one), PROFINET's RT cycle (0 none), peers (of a PROFINET
device its IRT ARs) and the second
kind of them R165 limits (RT ARs, motion axes, readers, potential masters); LOSSCNT (0 where none is given), whether a CAN instance has SYNC;
the retry budget and the upper-level timeout in ns; per flow context its register words by index; EtherTypes; the entries of its cluster by source kind;
the bytes of the image where MRAM holds the one shipped with the part. -/
structure InstCfg where
  image : Nat
  ports : Nat
  can : Option Nat
  cell : Nat
  cells : Nat
  cycle : Nat
  rt : Nat
  peers : Nat
  peers2 : Nat
  loss : Nat
  sync : Bool
  retry : Nat
  upper : Nat
  fcs : List (List (Nat × BitVec 32))
  etypes : List Nat
  entries : List (Nat × BitVec 32)
  code : List (BitVec 8)
deriving DecidableEq, Repr

/-- What the configuration area of MRAM holds: register settings in the order they are written, instance configurations with their
numbers and domains in stored order, and the software units it reserves (R170, R317); static entries of the forwarding database (VID,
address, fabric port), entries of the VLAN table, and Cardamom's tables by their addresses (R361, R364, R366). (log 35, DESIGN CHOICE) -/
structure CfgImg where
  regs : List (Nat × BitVec 32)
  insts : List (Nat × Nat × InstCfg)
  units : Nat
  fdb : List (Nat × List (BitVec 8) × Nat)
  vlan : List (Nat × Nat × Nat)
  tabs : List (Nat × List (BitVec 8))
deriving DecidableEq, Repr

/-- What a start finds (R300, R306, R317): a valid image in MRAM; a Saffron self-test that failed; the rows Hamper's built-in test
repaired; the rows it retired; a record of Saffron that fails its read-back (R275); the configuration area of MRAM fails its CRC (R317 step 3). -/
structure BootRes where
  image : Bool
  selfTest : Option Nat
  repaired : Nat
  retired : List Nat
  badRec : Bool
  cfgBad : Bool
deriving DecidableEq, Repr

/-- The commands of the block, one constructor per row of the opcode table. -/
inductive Instr where
  /-- REGISTER_WRITE, R13: A write to a register or table word that has no row of its own takes effect per its field access codes, R10, R12, R14 and R23. -/
  | registerWrite (m : Master) (a : Word) (n : Fin 9) (v : BitVec 64)
  /-- READ_CLEAR, R13: A read of an RC register or field returns the value and clears it, keeping an event that arrives in the clearing cycle. -/
  | readClear (m : Master) (a : Word) (n : Fin 9)
  /-- PAIR_LO_READ, R11: A read of a _LO register captures its _HI partner into the reading master's snapshot. -/
  | pairLoRead (m : Master) (a : Word)
  /-- PAIR_LO_WRITE, R11: A write of a _LO register is held per master until that master writes the _HI partner. -/
  | pairLoWrite (m : Master) (a : Word) (v : Word)
  /-- PAIR_HI_WRITE, R11: A write of a _HI register commits it together with the low word held by the same master in one cycle. -/
  | pairHiWrite (m : Master) (a : Word) (v : Word)
  /-- RWT_WRITE, R359: An RWT write goes to the open transaction's log, or to the unit's shadow, or is ignored when the unit is armed. -/
  | rwtWrite (m : Master) (a : Word) (v : Word)
  /-- PORESET, R315: PORESET_N low resets every domain, and its release latches the straps and starts transition 1 or 2. -/
  | poreset (test spi hold : Bool) (fuses : List (Fin 48 × Fin 4096))
  /-- START_UP, R317: From the first ROM instruction, the image is checked, firmware starts, domains power, instances start and the Saffron start check decides PREOP or SAFESTOP. -/
  | startUp (r : BootRes)
  /-- SYS_WDOG_EXPIRY, R315: The Huafegal watchdog expires, raising SYS_WDOG and starting the warm reset of transition 21. -/
  | sysWdogExpiry
  /-- HOST_PORT_RESET, R315: A PCIe fundamental or hot reset or an SPI reset frame resets the host port, or acts as a warm reset when HOSTRST = 1. -/
  | hostPortReset
  /-- NETWORK_CYCLE_BOUNDARY, R27: A boundary of the pacing instance's cycle, or of the 1 ms domain-0 cycle, completes a waiting transition 8 to 11 or fixes the OPERATIONAL apply point. -/
  | networkCycleBoundary (i : Option (Fin 4))
  /-- MODE_TRANSITION_COMPLETE, R28: The block actions of a transition end, firmware re-asserts its settings, CUR, PREV and CAUSE update, BUSY clears and the MODE notice is sent. -/
  | modeTransitionComplete
  /-- REFCLK_LOSS, R18: REFCLK stops for more than 400 ns, setting REFLOSS and raising CLK_REFLOSS. -/
  | refclkLoss
  /-- PLL_LOSS_OF_LOCK, R18: A PLL loses lock while in use, setting its sticky bit and raising the matching FCU source. -/
  | pllLossOfLock (k : Fin 6)
  /-- SUPPLY_OUT_OF_RANGE, R380: A rail leaves its operating range, clearing its PIN_IOSTAT bit and raising PWR_SUPPLY for a core rail. -/
  | supplyOutOfRange (r : Fin 10)
  /-- TEMP_UPDATE, R399: Every 1 ms SYS_TEMP takes the highest sensor reading and SYS_TEMPHI or SYS_TEMPCRIT rise when it crosses their limits. -/
  | tempUpdate (t : BitVec 16)
  /-- TIME_STEP, R33: CTRL.STEP adds the step offset to a domain in ACQ and enters TRACK, or is refused with STEPST set. -/
  | timeStep (m : Master) (d : Fin 4)
  /-- TIME_FREE, R33: CTRL.FREE returns a domain to FREE, raising TIME_REARM when it was in TRACK. -/
  | timeFree (m : Master) (d : Fin 4)
  /-- TIME_ACQ, R33: CTRL.ACQ moves a domain from FREE to ACQ to wait for its acquisition step. -/
  | timeAcq (m : Master) (d : Fin 4)
  /-- TIME_ADJ_WRITE, R32: A write of ADJ is clamped to ±1,000 ppm, setting ADJCLAMP, and takes effect at the next TIME_CLK cycle. -/
  | timeAdjWrite (m : Master) (d : Fin 4) (v : Word)
  /-- TIME_NS_READ, R35: A read of TIME_DOM NS captures seconds, FRAC and CYC of the same cycle into the reader's snapshot. -/
  | timeNsRead (m : Master) (d : Fin 4)
  /-- PPS_EDGE, R37: A rising PPS_IN edge captures all four domains and is accepted or rejected by its interval. -/
  | ppsEdge (e8 : Fin 8)
  /-- PPS_LOST, R39: 2.5 s without an accepted edge sets LOST and raises TIME_PPSLOST, leaving the domain in holdover. -/
  | ppsLost
  /-- NET_TS, R45: A write of LAU NET_TS submits the network angle measurement, or counts a rejection. -/
  | netTs (m : Master) (u : Fin 2) (ts : Word)
  /-- LAU_ENABLE, R47: A write of LAU CTRL.EN starts or stops the LAU, its silence count and its estimate. -/
  | lauEnable (m : Master) (u : Fin 2) (en : Bool)
  /-- REACQ, R45: CTRL.REACQ discards the estimate so the next accepted measurement re-initialises it. -/
  | reacq (m : Master) (u : Fin 2)
  /-- SETANG, R48: CTRL.SETANG moves θ̂ to the set angle through OFFSET, or is refused with SETREF when an armed angle slot references the LAU. -/
  | setang (m : Master) (u : Fin 2)
  /-- SRCLOST, R47: MAXAGE µs of silence sets SRCLOST, raises LAU_SRCLOST, zeroes α̂ and may hold the LAU's angle slots. -/
  | srclost (u : Fin 2)
  /-- LAU_APPLY_BOUNDARY, R49: At an LAU's apply boundary its RWT shadow is checked and becomes active. -/
  | lauApplyBoundary (u : Fin 2)
  /-- ITIN_SLOT_ARM, R50: A CTRL write with ARM = 1 to an idle slot checks its configuration, argument, LAU and target and arms it or sets RESULT. -/
  | itinSlotArm (m : Master) (n : Fin 512) (v : Word)
  /-- ITIN_SLOT_DISARM, R52: A CTRL write with ARM = 0 disarms the slot and cancels any action not yet issued. -/
  | itinSlotDisarm (m : Master) (n : Fin 512) (v : Word)
  /-- ITIN_SLOT_DUE, R41: A time slot's due count is reached by the signed-difference rule and its action is queued for issue. -/
  | itinSlotDue (n : Fin 512)
  /-- ANGLE_PREDICT, R53: At each schedule count that is a multiple of 32, every angle slot re-predicts, waits, commits or fires on a crossing. -/
  | anglePredict
  /-- ITIN_ISSUE, R53: Up to four due actions per cycle issue in order of due cycle and slot number, and periodic slots re-arm. -/
  | itinIssue
  /-- ITIN_POST_QUEUE_DRAIN, R54: A post action held in the post queue is posted when its Dispatcher level has room. -/
  | itinPostQueueDrain
  /-- MISSCLR, R57: Writing STAT.MISSCLR clears the slot's MISS count. -/
  | missclr (m : Master) (n : Fin 512)
  /-- EDGE_HANDOVER, R55: 16 ns before its due time, or at a late issue, an edge action is handed to its placer or discarded. -/
  | edgeHandover (n : Fin 512)
  /-- EDGE_PLACE, R59: A pending edge reaches the ball at its time, changing the placer's level and LAST. -/
  | edgePlace (n : Fin 16)
  /-- MAC_MODE_WRITE, R62: A write to MAC MODE takes the link down and restarts link setup, or disables the port with BADMODE. -/
  | macModeWrite (m : Master) (p : Fin 12) (v : Word)
  /-- ANRESTART, R64: CTRL.ANRESTART restarts autonegotiation on the port. -/
  | anrestart (m : Master) (p : Fin 12)
  /-- MAC_CNTCLR, R82: CTRL.CNTCLR clears every counter of the port. -/
  | macCntclr (m : Master) (p : Fin 12)
  /-- MAC_RXEN, R66: Setting or clearing RXEN takes the staging ring from the free pool or returns it. -/
  | macRxen (m : Master) (p : Fin 12) (on : Bool)
  /-- FRAME_RECEIVE, R65: A frame arriving at a port passes the MAC checks and the ingress stages and is charged to every admitting output, or is discarded. -/
  | frameReceive (p : Fin 12) (e8 : Fin 8) (b : List Byte) (fin : RxEnd)
  /-- PAUSE_RECEIVE, R74: A received PAUSE frame holds or releases the transmitter for its quanta. -/
  | pauseReceive (p : Fin 12) (q : BitVec 16)
  /-- PFC_RECEIVE, R75: A received 802.1Qbb frame pauses traffic classes at this port's output for their quanta. -/
  | pfcReceive (p : Fin 12) (vec : BitVec 16) (qs : List (BitVec 16))
  /-- PAUSE_HOLD_EXPIRY, R74: The quanta of a PAUSE or PFC hold run out and the port or class resumes. -/
  | pauseHoldExpiry (p : Fin 12) (k : Fin 9)
  /-- FLOW_CONTROL_REPEAT, R76: Every TXQUANTA / 2 quanta while staging stays at XON or above, the generated PAUSE or PFC is sent again. -/
  | flowControlRepeat (p : Fin 12)
  /-- FCTX, R76: A write to FCTX sends one flow control frame after the frame in flight. -/
  | fctx (m : Master) (p : Fin 12) (v : Word)
  /-- TSF_HDR_READ, R73: A read of TSF_HDR moves the oldest egress timestamp into the reader's snapshot. -/
  | tsfHdrRead (m : Master) (p : Fin 12)
  /-- TRANSMISSION_SELECT, R100: An idle output with its link up picks the highest candidate class, discarding aged or late heads, and starts its head copy. -/
  | transmissionSelect (p : Fin 32)
  /-- LAUNCH_TIME_DUE, R104: A launch time or angle of a queued copy is reached and the class becomes a candidate. -/
  | launchTimeDue (p : Fin 32) (c : Fin 8)
  /-- TRANSMISSION_END, R72: A frame finishes at an egress MAC, with its one-step or two-step timestamp action and the release of its copy. -/
  | transmissionEnd (p : Fin 12) (e8 : Fin 8)
  /-- LINK_DOWN, R81: At link down the MAC discards frames in flight, ends holds, and the queues freeze or flush. -/
  | linkDown (p : Fin 12)
  /-- LINK_UP, R107: At link up the queues drain, passed launches are discarded and preemption verification restarts. -/
  | linkUp (p : Fin 12) (lp : Word) (v : Fin 8) (ms : Bool)
  /-- AUTOSPEED_IDLE, R78: The idle time of a 1000 Mb/s port reaches IDLE ms and it renegotiates at 100 Mb/s. -/
  | autospeedIdle (p : Fin 12)
  /-- AUTOSPEED_RESTORE, R78: A lowered port whose queue occupancy exceeds HITHR renegotiates with the full ANADV. -/
  | autospeedRestore (p : Fin 12)
  /-- AUTOSPEED_FAIL, R78: A lowered link that has not come up within 5 s renegotiates fully, clears EN and sets FAIL. -/
  | autospeedFail (p : Fin 12)
  /-- LPI_ENTRY, R79: A transmit side idle for TXIDLE µs enters low-power idle. -/
  | lpiEntry (p : Fin 12)
  /-- PREEMPT_VERIFY, R80: Each VTIME interval a verify frame is sent, and after three unanswered the verification fails. -/
  | preemptVerify (p : Fin 12)
  /-- BUF_SWCELLS_WRITE, R84: A write of BUF_SWCELLS sets the software region when all receivers are off and queues empty, or is ignored. -/
  | bufSwcellsWrite (m : Master) (v : Word)
  /-- STAGING_REFILL, R85: A waiting staging refill is made from the free pool when cells return. -/
  | stagingRefill
  /-- GATE_ENTRY_END, R102: The interval of a gate-list entry ends and the next entry, a restart or the last gates take effect. -/
  | gateEntryEnd (p : Fin 12)
  /-- CB_RECOVERY_RESET, R109: RESETMS ms without an accepted frame resets the recovery history and sets CBRESET. -/
  | cbRecoveryReset (f : Fin 256)
  /-- FDB_AGE_OUT, R92: A learned forwarding entry older than AGE seconds is removed. -/
  | fdbAgeOut
  /-- SWX_CNTCLR, R111: SWX_PORTCFG.CNTCLR clears the output's counters. -/
  | swxCntclr (m : Master) (p : Fin 32)
  /-- SWITCH_APPLY_BOUNDARY, R110: At each domain-0 schedule count that is a multiple of 1,024 the switch shadow set is checked and becomes active. -/
  | switchApplyBoundary
  /-- ENG_MEMDATA_WRITE, R114: A write of MEMDATA stores a word at MEMADDR, or is ignored for I, microcode or table space while RUN = 1. -/
  | engMemdataWrite (m : Master) (n : Fin 16) (v : Word)
  /-- ENG_MEMDATA_READ, R114: A read of MEMDATA returns the word at MEMADDR and advances ADDR by 4. -/
  | engMemdataRead (m : Master) (n : Fin 16)
  /-- ENG_RUN, R115: A write of ENG CTRL.RUN starts or stops the enabled threads, with INIT starting thread 0 at instruction 0. -/
  | engRun (m : Master) (n : Fin 16) (v : Word)
  /-- ENG_RESET, R134: ENG CTRL.RST = 1 halts the threads, frees bound copies and stops frames in progress. -/
  | engReset (m : Master) (n : Fin 16)
  /-- ENG_RESET_RELEASE, R134: RST returning to 0 restarts the engine as when RUN goes from 0 to 1. -/
  | engResetRelease (m : Master) (n : Fin 16)
  /-- ENGINE_COPY_SEND, R118: The output of an engine's fabric port sends a copy when OUTST and the kind-0 level allow, posting its item. -/
  | engineCopySend (n : Fin 16)
  /-- DISPATCH_ITEM, R128: The Dispatcher hands the oldest eligible item of the highest level to the first eligible idle thread of a cluster. -/
  | dispatchItem (k : Fin 16)
  /-- HELD_POST_RELEASE, R132: A source's held item is posted when its level has room. -/
  | heldPostRelease (kind : Fin 8) (i : Fin 4608)
  /-- THREAD_STALL_END, R151: A stalled thread's instruction completes in its first slot after the awaited byte, room or bridge completion. -/
  | threadStallEnd (e : Fin 16) (t : Fin 4) (um : Option (Fin 16 × Bool))
  /-- BEAT_RELEASE, R121: A beat of a forwarded frame is released into staging once the leading edge is 96 bytes ahead or the frame has ended. -/
  | beatRelease (e : Fin 16)
  /-- DISP_CLCFG_WRITE, R127: A write of DISP_CLCFG joins engines into clusters or is ignored with CLREF. -/
  | dispClcfgWrite (m : Master) (v : Word)
  /-- DISP_TIMER_EXPIRY, R132: A Dispatcher timer expires and posts a kind-4 item, or counts the expiry while its post is held. -/
  | dispTimerExpiry (i : Fin 16)
  /-- DISP_SWPOST, R132: A write of DISP_SWPOST[3] posts a kind-7 item or records level full in DISP_SWRES. -/
  | dispSwpost (m : Master) (v : Word)
  /-- NODE_FIRE, R131: A ready graph node whose level has room takes a token from each input and posts its kind-6 item. -/
  | nodeFire (k : Fin 16)
  /-- DISP_APPLY_BOUNDARY, R133: At each schedule count that is a multiple of 1,024 the Dispatcher shadow is checked and becomes active. -/
  | dispApplyBoundary
  /-- RXBASE, R119: A write of ENG_PS_RXBASE moves the receive window upward, stalling until the bytes are fetched. -/
  | rxbase (e : Fin 16) (t : Fin 4) (v : Word)
  /-- FWD, R121: A write of RXCMD.FWD forwards the bound copy on the fly as a new frame from the engine's port. -/
  | fwd (e : Fin 16) (t : Fin 4)
  /-- TXCMD, R123: A write of ENG_PS_TXCMD sends an originated frame from the header and D space, or sets BADLEN. -/
  | txcmd (e : Fin 16) (t : Fin 4) (v : Word)
  /-- DONE, R128: A write of ENG_PS_DONE ends the thread's item, emitting tokens for a kind-6 item. -/
  | done (e : Fin 16) (t : Fin 4)
  /-- POSTGO, R132: A write of ENG_PS_POSTGO posts the staged item, stalling while its level is full. -/
  | postgo (e : Fin 16) (t : Fin 4)
  /-- TRYGO, R132: A write of ENG_PS_TRYGO posts the staged item if its level has room, never stalling. -/
  | trygo (e : Fin 16) (t : Fin 4)
  /-- TOKEN, R131: A write of ENG_PS_TOKEN adds one token to a node input or is refused. -/
  | token (e : Fin 16) (t : Fin 4) (v : Word)
  /-- BRDATA_ACCESS, R117: An access to BRDATA moves 32 bits at BRADDR through the bridge under the permission masks. -/
  | brdataAccess (e : Fin 16) (t : Fin 4) (w : Option Word)
  /-- MBSEND, R339: A write of ENG_PS_MBSEND sends a 64-byte message from D space on a send slot. -/
  | mbsend (e : Fin 16) (t : Fin 4) (i : Fin 3) (v : Word)
  /-- MBRECV, R339: A write of ENG_PS_MBRECV copies the oldest message of a receive slot to D space and pops it. -/
  | mbrecv (e : Fin 16) (t : Fin 4) (i : Fin 3) (v : Word)
  /-- DBRING, R341: A write of ENG_PS_DBRING or MBX_DBRING rings a receiver's doorbell. -/
  | dbring (m : Master) (v : Word)
  /-- ADD, R142: rd = ra + rb. -/
  | addC (e : Fin 16) (t : Fin 4) (ecc : EccAt)
  /-- SUB, R142: rd = ra − rb. -/
  | subC (e : Fin 16) (t : Fin 4) (ecc : EccAt)
  /-- AND, R142: rd = ra & rb. -/
  | andC (e : Fin 16) (t : Fin 4) (ecc : EccAt)
  /-- OR, R142: rd = ra | rb. -/
  | orC (e : Fin 16) (t : Fin 4) (ecc : EccAt)
  /-- XOR, R142: rd = ra ^ rb. -/
  | xorC (e : Fin 16) (t : Fin 4) (ecc : EccAt)
  /-- ANDN, R142: rd = ra & ~rb. -/
  | andn (e : Fin 16) (t : Fin 4) (ecc : EccAt)
  /-- SLL, R142: rd = ra shifted left by rb [4:0]. -/
  | sll (e : Fin 16) (t : Fin 4) (ecc : EccAt)
  /-- SRL, R142: rd = ra shifted right by rb [4:0] with zero fill. -/
  | srl (e : Fin 16) (t : Fin 4) (ecc : EccAt)
  /-- SRA, R142: rd = ra shifted right by rb [4:0] with sign fill. -/
  | sra (e : Fin 16) (t : Fin 4) (ecc : EccAt)
  /-- ROR, R142: rd = ra rotated right by rb [4:0]. -/
  | ror (e : Fin 16) (t : Fin 4) (ecc : EccAt)
  /-- SLLI, R142: rd = ra shifted left by fn [10:6]. -/
  | slli (e : Fin 16) (t : Fin 4) (ecc : EccAt)
  /-- SRLI, R142: rd = ra shifted right by fn [10:6] with zero fill. -/
  | srli (e : Fin 16) (t : Fin 4) (ecc : EccAt)
  /-- SRAI, R142: rd = ra shifted right by fn [10:6] with sign fill. -/
  | srai (e : Fin 16) (t : Fin 4) (ecc : EccAt)
  /-- RORI, R142: rd = ra rotated right by fn [10:6]. -/
  | rori (e : Fin 16) (t : Fin 4) (ecc : EccAt)
  /-- MIN, R142: rd = signed minimum of ra and rb. -/
  | min (e : Fin 16) (t : Fin 4) (ecc : EccAt)
  /-- MAX, R142: rd = signed maximum of ra and rb. -/
  | max (e : Fin 16) (t : Fin 4) (ecc : EccAt)
  /-- MINU, R142: rd = unsigned minimum of ra and rb. -/
  | minu (e : Fin 16) (t : Fin 4) (ecc : EccAt)
  /-- MAXU, R142: rd = unsigned maximum of ra and rb. -/
  | maxu (e : Fin 16) (t : Fin 4) (ecc : EccAt)
  /-- SEL, R142: rd = ra if the old rd is nonzero, otherwise rb. -/
  | sel (e : Fin 16) (t : Fin 4) (ecc : EccAt)
  /-- CEQ, R142: rd = 1 if ra equals rb, else 0. -/
  | ceq (e : Fin 16) (t : Fin 4) (ecc : EccAt)
  /-- CNE, R142: rd = 1 if ra differs from rb, else 0. -/
  | cne (e : Fin 16) (t : Fin 4) (ecc : EccAt)
  /-- CLT, R142: rd = 1 if ra < rb signed, else 0. -/
  | clt (e : Fin 16) (t : Fin 4) (ecc : EccAt)
  /-- CLTU, R142: rd = 1 if ra < rb unsigned, else 0. -/
  | cltu (e : Fin 16) (t : Fin 4) (ecc : EccAt)
  /-- CLE, R142: rd = 1 if ra ≤ rb signed, else 0. -/
  | cle (e : Fin 16) (t : Fin 4) (ecc : EccAt)
  /-- CLEU, R142: rd = 1 if ra ≤ rb unsigned, else 0. -/
  | cleu (e : Fin 16) (t : Fin 4) (ecc : EccAt)
  /-- MUL, R143: rd = low 32 bits of ra × rb. -/
  | mulC (e : Fin 16) (t : Fin 4) (ecc : EccAt)
  /-- MULH, R143: rd = high 32 bits of signed ra × signed rb. -/
  | mulh (e : Fin 16) (t : Fin 4) (ecc : EccAt)
  /-- MULHU, R143: rd = high 32 bits of unsigned ra × unsigned rb. -/
  | mulhu (e : Fin 16) (t : Fin 4) (ecc : EccAt)
  /-- MULHSU, R143: rd = high 32 bits of signed ra × unsigned rb. -/
  | mulhsu (e : Fin 16) (t : Fin 4) (ecc : EccAt)
  /-- DIV, R143: rd = signed ra / rb in 8 slots, with defined results for zero and overflow. -/
  | divC (e : Fin 16) (t : Fin 4) (ecc : EccAt)
  /-- DIVU, R143: rd = unsigned ra / rb in 8 slots. -/
  | divu (e : Fin 16) (t : Fin 4) (ecc : EccAt)
  /-- REM, R143: rd = signed remainder of ra / rb in 8 slots. -/
  | rem (e : Fin 16) (t : Fin 4) (ecc : EccAt)
  /-- REMU, R143: rd = unsigned remainder of ra / rb in 8 slots. -/
  | remu (e : Fin 16) (t : Fin 4) (ecc : EccAt)
  /-- BSWAP, R144: rd = ra with its four bytes reversed. -/
  | bswap (e : Fin 16) (t : Fin 4) (ecc : EccAt)
  /-- BSWAPH, R144: rd = ra with the bytes of each half-word exchanged. -/
  | bswaph (e : Fin 16) (t : Fin 4) (ecc : EccAt)
  /-- CLZ, R144: rd = number of leading zero bits of ra. -/
  | clz (e : Fin 16) (t : Fin 4) (ecc : EccAt)
  /-- POPC, R144: rd = number of one bits of ra. -/
  | popc (e : Fin 16) (t : Fin 4) (ecc : EccAt)
  /-- EXTU, R144: rd = w bits of ra from pos, zero-extended. -/
  | extu (e : Fin 16) (t : Fin 4) (ecc : EccAt)
  /-- EXTS, R144: rd = w bits of ra from pos, sign-extended. -/
  | exts (e : Fin 16) (t : Fin 4) (ecc : EccAt)
  /-- INS, R144: Inserts the low w bits of ra into rd at pos. -/
  | ins (e : Fin 16) (t : Fin 4) (ecc : EccAt)
  /-- CRCB, R144: Advances a reflected CRC in rd by one byte of ra with polynomial rb. -/
  | crcb (e : Fin 16) (t : Fin 4) (ecc : EccAt)
  /-- XCHG, R145: Atomically exchanges D[ra] with rb, returning the old word in rd. -/
  | xchg (e : Fin 16) (t : Fin 4) (ecc : EccAt)
  /-- FADD, R145: Atomically adds rb to D[ra], returning the old word in rd. -/
  | fadd (e : Fin 16) (t : Fin 4) (ecc : EccAt)
  /-- FAND, R145: Atomically ANDs rb into D[ra], returning the old word in rd. -/
  | fand (e : Fin 16) (t : Fin 4) (ecc : EccAt)
  /-- FOR, R145: Atomically ORs rb into D[ra], returning the old word in rd. -/
  | forC (e : Fin 16) (t : Fin 4) (ecc : EccAt)
  /-- MFS, R146: rd = the named special register. -/
  | mfs (e : Fin 16) (t : Fin 4) (ecc : EccAt)
  /-- MTS, R146: Writes ra to the named special register. -/
  | mts (e : Fin 16) (t : Fin 4) (ecc : EccAt)
  /-- SNAP, R146: Latches ts and tsf from domain 0. -/
  | snap (e : Fin 16) (t : Fin 4) (ecc : EccAt)
  /-- TRAP, R146: Raises trap SWTRAP with the 5-bit code in eval. -/
  | trap (e : Fin 16) (t : Fin 4) (ecc : EccAt)
  /-- RETT, R157: Returns from a trap, resuming at epc with any pending repetitions or micro-ops. -/
  | rett (e : Fin 16) (t : Fin 4) (ecc : EccAt)
  /-- ILLEGAL_INSTRUCTION, R155: A reserved encoding traps ILLEGAL. -/
  | illegalInstruction (e : Fin 16) (t : Fin 4) (ecc : EccAt)
  /-- ADDI, R147: rd = ra + sx(imm16). -/
  | addi (e : Fin 16) (t : Fin 4) (ecc : EccAt)
  /-- ANDI, R147: rd = ra & zx(imm16). -/
  | andi (e : Fin 16) (t : Fin 4) (ecc : EccAt)
  /-- ORI, R147: rd = ra | zx(imm16). -/
  | ori (e : Fin 16) (t : Fin 4) (ecc : EccAt)
  /-- XORI, R147: rd = ra ^ zx(imm16). -/
  | xori (e : Fin 16) (t : Fin 4) (ecc : EccAt)
  /-- CEQI, R147: rd = 1 if ra equals sx(imm16), else 0. -/
  | ceqi (e : Fin 16) (t : Fin 4) (ecc : EccAt)
  /-- CLTI, R147: rd = 1 if ra < sx(imm16) signed, else 0. -/
  | clti (e : Fin 16) (t : Fin 4) (ecc : EccAt)
  /-- CLTUI, R147: rd = 1 if ra < sx(imm16) unsigned, else 0. -/
  | cltui (e : Fin 16) (t : Fin 4) (ecc : EccAt)
  /-- LUI, R147: rd = imm16 << 16. -/
  | lui (e : Fin 16) (t : Fin 4) (ecc : EccAt)
  /-- LDB, R147: Loads a sign-extended byte from D space. -/
  | ldb (e : Fin 16) (t : Fin 4) (ecc : EccAt)
  /-- LDBU, R147: Loads a zero-extended byte from D space. -/
  | ldbu (e : Fin 16) (t : Fin 4) (ecc : EccAt)
  /-- LDH, R147: Loads a sign-extended half-word from D space. -/
  | ldh (e : Fin 16) (t : Fin 4) (ecc : EccAt)
  /-- LDHU, R147: Loads a zero-extended half-word from D space. -/
  | ldhu (e : Fin 16) (t : Fin 4) (ecc : EccAt)
  /-- LD, R147: Loads a word from D space. -/
  | ld (e : Fin 16) (t : Fin 4) (ecc : EccAt)
  /-- STB, R147: Stores the low byte of rd to D space. -/
  | stb (e : Fin 16) (t : Fin 4) (ecc : EccAt)
  /-- STH, R147: Stores the low half-word of rd to D space. -/
  | sth (e : Fin 16) (t : Fin 4) (ecc : EccAt)
  /-- ST, R147: Stores rd to D space. -/
  | st (e : Fin 16) (t : Fin 4) (ecc : EccAt)
  /-- LDI, R147: Loads an instruction word into rd. -/
  | ldi (e : Fin 16) (t : Fin 4) (ecc : EccAt)
  /-- STI, R152: Stores rd into instruction memory, seen by later fetches. -/
  | sti (e : Fin 16) (t : Fin 4) (ecc : EccAt)
  /-- INB, R147: Reads a byte from port space, stalling in the receive window as R119 gives. -/
  | inb (e : Fin 16) (t : Fin 4) (ecc : EccAt)
  /-- INH, R139: Reads a half-word from port space. -/
  | inh (e : Fin 16) (t : Fin 4) (ecc : EccAt)
  /-- IN, R139: Reads a word from port space. -/
  | inC (e : Fin 16) (t : Fin 4) (ecc : EccAt)
  /-- OUTB, R147: Writes a byte to port space, subject to R120 in the receive window. -/
  | outb (e : Fin 16) (t : Fin 4) (ecc : EccAt)
  /-- OUTH, R139: Writes a half-word to port space. -/
  | outh (e : Fin 16) (t : Fin 4) (ecc : EccAt)
  /-- OUT, R139: Writes a word to port space. -/
  | out (e : Fin 16) (t : Fin 4) (ecc : EccAt)
  /-- LDP, R147: Loads D[ra] into rd, then advances ra. -/
  | ldp (e : Fin 16) (t : Fin 4) (ecc : EccAt)
  /-- STP, R147: Stores rd to D[ra], then advances ra. -/
  | stp (e : Fin 16) (t : Fin 4) (ecc : EccAt)
  /-- INP, R147: Reads P[ra] into rd, then advances ra. -/
  | inp (e : Fin 16) (t : Fin 4) (ecc : EccAt)
  /-- OUTP, R147: Writes rd to P[ra], then advances ra. -/
  | outp (e : Fin 16) (t : Fin 4) (ecc : EccAt)
  /-- BZ, R148: Branches when ra is zero. -/
  | bz (e : Fin 16) (t : Fin 4) (ecc : EccAt)
  /-- BNZ, R148: Branches when ra is nonzero. -/
  | bnz (e : Fin 16) (t : Fin 4) (ecc : EccAt)
  /-- J, R148: Jumps to imm26 [13:0]. -/
  | j (e : Fin 16) (t : Fin 4) (ecc : EccAt)
  /-- CALL, R159: Pushes PC + 1 and jumps, trapping RSOVF at depth 32. -/
  | call (e : Fin 16) (t : Fin 4) (ecc : EccAt)
  /-- JR, R148: Jumps to ra [13:0]. -/
  | jr (e : Fin 16) (t : Fin 4) (ecc : EccAt)
  /-- CALLR, R159: Pushes PC + 1 and jumps to ra [13:0]. -/
  | callr (e : Fin 16) (t : Fin 4) (ecc : EccAt)
  /-- RET, R159: Pops the return stack into PC, trapping RSUNF at depth 0. -/
  | ret (e : Fin 16) (t : Fin 4) (ecc : EccAt)
  /-- DBNZ, R148: Decrements rd and branches if it is nonzero. -/
  | dbnz (e : Fin 16) (t : Fin 4) (ecc : EccAt)
  /-- REP_IMM, R153: Repeats the next instruction imm16 times. -/
  | repImm (e : Fin 16) (t : Fin 4) (ecc : EccAt)
  /-- REP_RC, R153: Repeats the next instruction rc times. -/
  | repRc (e : Fin 16) (t : Fin 4) (ecc : EccAt)
  /-- CUSTOM_INSTRUCTION, R163: Runs the micro-op sequence named by a decode-table entry. -/
  | customInstruction (e : Fin 16) (t : Fin 4) (fe : Bool) (um : Option (Fin 16 × Bool))
  /-- PROT_LOSS, R177: LOSSCNT consecutive cycles without valid data make an instance leave cyclic exchange, causing transition 10 in OPERATIONAL. -/
  | protLoss (i : Fin 4)
  /-- PROT_TIMEOUT, R176: An upper-level timeout of an image expires, cancelling retries and raising PROT_TIMEOUT. -/
  | protTimeout (i : Fin 4) (tries late : BitVec 16)
  /-- CAN_INIT_SET, R179: A write of CAN CTRL.INIT = 1 requests INIT, taking effect at the end of the frame or at once. -/
  | canInitSet (m : Master) (n : Fin 4)
  /-- CAN_INIT_ACK, R179: The frame in progress ends and the controller enters INIT with INITACK = 1. -/
  | canInitAck (n : Fin 4)
  /-- CAN_INIT_LEAVE, R179: A write of INIT = 0 leaves INIT unless BADTIM, clearing TEC and REC. -/
  | canInitLeave (m : Master) (n : Fin 4)
  /-- CAN_INTEGRATION, R179: 11 consecutive recessive bits complete integration and the controller takes part in frames. -/
  | canIntegration (n : Fin 4)
  /-- CAN_FRAME_RECEIVE, R182: A valid frame on the bus is stored in the receive ring at NEXT. With neither operand it is the start of frame of another node, at the sample point; `f` the frame, where it has ended valid; `err` an error in it. -/
  | canFrameReceive (n : Fin 4) (f : Option CanFrm) (err : Option CanErr)
  /-- CAN_TX_START, R185: Before a start of frame the controller picks the pending object with the lowest arbitration field. -/
  | canTxStart (n : Fin 4)
  /-- CAN_TX_END, R186: A transmit attempt ends in success, arbitration loss or error, updating the request and counters. -/
  | canTxEnd (n : Fin 4) (e : CanEnd)
  /-- BOREC, R187: A write of CTRL.BOREC starts bus-off recovery. -/
  | borec (m : Master) (n : Fin 4)
  /-- BUS_OFF_RECOVERY_END, R187: 128 occurrences of 11 recessive bits end recovery and return to error active. -/
  | busOffRecoveryEnd (n : Fin 4)
  /-- TTRESTART, R193: A write of CTRL.TTRESTART moves the controller from STARTFAIL to LISTEN. -/
  | ttrestart (m : Master) (n : Fin 4)
  /-- LOCK, R183: MO CMD.LOCK locks a message object. -/
  | lock (m : Master) (n : Fin 4) (o : Fin 128)
  /-- UNLOCK, R183: MO CMD.UNLOCK unlocks an object, publishing a transmit object or moving in a shadow frame. -/
  | unlock (m : Master) (n : Fin 4) (o : Fin 128)
  /-- RELEASE, R183: MO CMD.RELEASE with UNLOCK clears FULL before the unlock. -/
  | release (m : Master) (n : Fin 4) (o : Fin 128)
  /-- TXREQ, R186: MO CMD.TXREQ requests transmission of the object. -/
  | txreq (m : Master) (n : Fin 4) (o : Fin 128)
  /-- TXABORT, R186: MO CMD.TXABORT ends a pending request or stops its retransmission. -/
  | txabort (m : Master) (n : Fin 4) (o : Fin 128)
  /-- STARTWAIT_EXPIRY, R193: STARTWAIT NTU without a reference makes a potential master send a reference. -/
  | startwaitExpiry (n : Fin 4)
  /-- REFERENCE_MISS, R193: No reference by the expected mark + 32 NTU counts REFMISS, and a second miss returns to LISTEN. -/
  | referenceMiss (n : Fin 4)
  /-- TAKEOVER, R195: A BACKUP of rank r sends its reference at mark + 2 × (r + 1) NTU. -/
  | takeover (n : Fin 4)
  /-- TT_WINDOW_START, R191: At a window mark + GUARD the node sends its exclusive frame or competes in an arbitrating window, or withholds. -/
  | ttWindowStart (n : Fin 4) (w : Fin 32)
  /-- TT_WINDOW_END, R192: An exclusive window ends without a start of frame and TT_EMPTY counts it. -/
  | ttWindowEnd (n : Fin 4) (w : Fin 32)
  /-- GUARDIAN_MEASURE, R198: At each basic cycle the guardian oscillator is measured against REFCLK and may close every opening. -/
  | guardianMeasure (n : Fin 4) (khz : Word)
  /-- GUARDIAN_CUT, R199: An opening closes during a transmission, cutting CANn_TXEN and raising CAN_GUARD. -/
  | guardianCut (n : Fin 4)
  /-- NUT_NOP, R207: Does nothing for one cycle. -/
  | nutNop (c : Fin 32)
  /-- NUT_HALT, R207: Clears CTRL.EN. -/
  | nutHalt (c : Fin 32)
  /-- WSTART, R212: Waits for a start, completing at once on a pending start. -/
  | wstart (c : Fin 32)
  /-- MARK, R207: Sets MARKTS to the time of the next bit-clock pulse. -/
  | mark (c : Fin 32)
  /-- CRCCLR, R215: Loads CRCST with INIT. -/
  | crcclr (c : Fin 32)
  /-- SRCLR, R207: Sets SR and SRN to 0. -/
  | srclr (c : Fin 32)
  /-- SHIN, R208: Shifts in n or X bits at sample ticks. -/
  | shin (c : Fin 32)
  /-- SHOUT, R208: Shifts out n or X bits at bit boundaries. -/
  | shout (c : Fin 32)
  /-- SHIFT_END, R208: A shift completes at its last tick or boundary. -/
  | shiftEnd (c : Fin 32) (samples : List (Fin 8))
  /-- PULL, R209: Moves the oldest TXQ word to a destination, stalling or setting TXUNF when empty. -/
  | pull (c : Fin 32)
  /-- PUSH, R209: Appends a source word to RXQ, stalling or setting RXOVF when full. -/
  | push (c : Fin 32)
  /-- NUT_QUEUE_STALL_END, R209: A blocked pull, push or shift resumes when its queue has a word or room. -/
  | nutQueueStallEnd (c : Fin 32)
  /-- SETP, R207: Sets the level registers of pins A and B. -/
  | setp (c : Fin 32)
  /-- WAITP, R204: Waits for a pin level or edge, optionally capturing and locking the sample phase. -/
  | waitp (c : Fin 32)
  /-- WAITP_MET, R204: The condition of a WAITP is met and it completes. -/
  | waitpMet (c : Fin 32) (pins : Fin 8)
  /-- WAITT, R207: Waits for n bit boundaries. -/
  | waitt (c : Fin 32)
  /-- WAITT_END, R207: The nth bit boundary after a WAITT completes it. -/
  | waittEnd (c : Fin 32)
  /-- WAITC, R207: Waits for the first compare match. -/
  | waitc (c : Fin 32)
  /-- LDX, R207: Loads X with an immediate. -/
  | ldx (c : Fin 32)
  /-- JMP, R207: Sets the cell's PC. -/
  | jmp (c : Fin 32)
  /-- DJNZ, R207: Decrements X and jumps if nonzero. -/
  | djnz (c : Fin 32)
  /-- JCOND, R207: Jumps on a pin or CRC condition. -/
  | jcond (c : Fin 32)
  /-- FLAG, R217: Posts a kind-3 Dispatcher item with the flag bits. -/
  | flag (c : Fin 32)
  /-- POS, R216: Copies SR or CNT into HOLD and publishes HOLD with its timestamp to POS and the LAU. -/
  | pos (c : Fin 32)
  /-- NUT_ILLEGAL, R218: An ILLEGAL encoding halts the cell and sets ILLEGAL. -/
  | nutIllegal (c : Fin 32)
  /-- NUT_COUNT_EDGE, R205: A filtered input edge changes CNT in an edge counting mode. -/
  | nutCountEdge (c : Fin 32) (pins : Fin 8)
  /-- NUT_MATCH, R205: CNT takes the value of CMP and the compare output takes its match action. -/
  | nutMatch (c : Fin 32)
  /-- NUT_WRAP, R205: CNT returns from PER − 1 to 0, applying the wrap action and the CMP and PER shadows. -/
  | nutWrap (c : Fin 32)
  /-- ZCAP, R205: A filtered rising edge of AUX copies CNT into CAPT with its time and sets ZEV. -/
  | zcap (c : Fin 32)
  /-- NUT_RELEASE, R212: A start takes effect in the release cycle, running, releasing or pending the cell. -/
  | nutRelease
  /-- SWSTART, R212: A write of CTRL.SWSTART starts the cell. -/
  | swstart (m : Master) (c : Fin 32)
  /-- NUT_ENABLE, R212: A write of CTRL.EN starts, arms or halts the cell. -/
  | nutEnable (m : Master) (c : Fin 32) (v : Word)
  /-- QCLR, R211: CTRL.QCLR empties both queues. -/
  | qclr (m : Master) (c : Fin 32)
  /-- INJ, R213: A write of INJ queues an instruction for injection, aborting the instruction in progress with FORCE. -/
  | inj (m : Master) (c : Fin 32) (v : Word)
  /-- INJECT_ISSUE, R213: The injected instruction issues at the next instruction boundary or cycle. -/
  | injectIssue (c : Fin 32)
  /-- NUT_WDOG_TIMEOUT, R214: A wait or stall lasting LIMIT bit boundaries is aborted, setting TIMEOUT and continuing at VEC. -/
  | nutWdogTimeout (c : Fin 32)
  /-- TXQ_WRITE, R209: A write of NUT TXQ appends a word or sets TXOVF. -/
  | txqWrite (m : Master) (c : Fin 32) (v : Word)
  /-- RXQ_READ, R209: A read of NUT RXQ returns and removes the oldest word or sets RXUNF. -/
  | rxqRead (m : Master) (c : Fin 32)
  /-- NUT_POS_READ, R216: A read of NUT POS captures POSTS into the reader's snapshot. -/
  | nutPosRead (m : Master) (c : Fin 32)
  /-- JOIN_WRITE, R210: A write changing CFG.JOIN joins the pair's queues and empties all four, or is ignored. -/
  | joinWrite (m : Master) (c : Fin 32) (v : Word)
  /-- LOOP_NV_WRITE, R223: A write to a network value triggers every enabled context bound to it. -/
  | loopNvWrite (m : Master) (i : Fin 4096) (v : Word)
  /-- SWTRIG, R223: A write of CTRL.SWTRIG triggers the context. -/
  | swtrig (m : Master) (k : Fin 256)
  /-- LOOP_EVAL_START, R224: Cardamom takes the next context from the high or low queue, skipping it past its deadline or performing a swap. -/
  | loopEvalStart
  /-- LOOP_EVAL_END, R237: An evaluation writes its output slots, capture record and status. -/
  | loopEvalEnd
  /-- LOOP_BANK_COPY_END, R240: The copy of the new active set into the other bank completes and SYNCING clears. -/
  | loopBankCopyEnd (k : Fin 256)
  /-- STCLR, R247: CTRL.STCLR sets all states and exponents of a disabled context to 0. -/
  | stclr (m : Master) (k : Fin 256)
  /-- LOOP_CTX_ENABLE, R223: A write of context CTRL.EN enables the context or discards its pending trigger. -/
  | loopCtxEnable (m : Master) (k : Fin 256) (v : Word)
  /-- LOOP_COEF_WRITE, R240: A LOOP_COEF write goes to the inactive set, subject to the lock. -/
  | loopCoefWrite (m : Master) (k i : Fin 256) (v : Word)
  /-- COEF_BANK_SRAM_WRITE, R243: An SRAM write to a coefficient bank acts as a LOOP_COEF write or is ignored for the active set. -/
  | coefBankSramWrite (m : Master) (a : Word) (n : Fin 9) (v : BitVec 64)
  /-- CAPTURE_START, R245: Setting LOOP_CAP_CTRL.EN starts capture or refuses it with BADBUF. -/
  | captureStart (m : Master) (v : Word)
  /-- BRAKE_TEST_TORQUE, R246: Saffron's request makes the named context deliver the test torque in manual. -/
  | brakeTestTorque
  /-- SAFETY_CYCLE, R249: At each 100 µs each Saffron channel exchanges and compares cycle records. -/
  | safetyCycle (r : SafRec)
  /-- SAF_CLOCK_FAULT, R250: A deviation above 8 % between the Saffron clocks gives reason 0x0C. -/
  | safClockFault
  /-- SAF_SUPPLY_FAULT, R250: The SAF supply outside its window for 2 µs gives reason 0x0D. -/
  | safSupplyFault (ch : Fin 2)
  /-- OUTPUT_DELAY_EXPIRY, R252: An output's DELAY after a decision or a non-reaction exit ends and it is de-energised. -/
  | outputDelayExpiry (o : Fin 4)
  /-- SAF_CONTACT_CHANGE, R258: A filtered contact level change moves its pair's state. `ix` is the pair with the channels that see the change: 0 both, 1 A alone, 2 B alone. -/
  | safContactChange (ix : Fin 8 × Fin 3) (c1 c2 : Bool)
  /-- DISCREPANCY_EXPIRY, R258: DISC expires with the contacts disagreeing and the pair enters FAULT. -/
  | discrepancyExpiry (i : Fin 8)
  /-- FAULT_OPEN_TIME, R258: Both contacts of a FAULT pair read open for DISC and it returns to OPEN. -/
  | faultOpenTime (i : Fin 8)
  /-- TEST_PULSE, R259: A test pulse runs and a contact not read open in its last 100 µs gives reason 0x03. -/
  | testPulse (i : Fin 8) (isOpen : Bool)
  /-- FEEDBACK_TIMEOUT, R260: A feedback input not matching its command within FBTIME, or losing it, latches FBFLT with reason 0x08. -/
  | feedbackTimeout (f : Fin 4) (lvl : Bool)
  /-- SWITCH_TEST, R261: A safe output or brake switch is test-pulsed and a failed test gives reason 0x09. -/
  | switchTest (o : Fin 4) (passed : Bool)
  /-- BRAKE_RELEASE, R257: RELDLY ms after the OPERATIONAL apply point each brake is released. -/
  | brakeRelease (b : Fin 2)
  /-- PRODUCER_SEND, R264: Each PERIOD or on a change of byte 0 a producer connection sends its PDU copies. `k` is the connection, and whether channel B agrees with the PDU. -/
  | producerSend (k : Fin 16 × Bool)
  /-- PDU_RECEIVE, R265: An arriving safety PDU copy is checked and delivered or handled by the consumer state machine. -/
  | pduReceive
  /-- COMPARE_WINDOW_EXPIRY, R266: A PAIR compare window expires, failing with reason 0x05 or falling back to SINGLE. -/
  | compareWindowExpiry (k : Fin 16)
  /-- CONNECTION_WATCHDOG, R266: A connection watchdog expires and it fails with reason 0x04. -/
  | connectionWatchdog (k : Fin 16)
  /-- BRAKE_TEST_TORQUE_REQUEST, R268: 10 ms after acceptance Saffron sends the torque request to Cardamom. -/
  | brakeTestTorqueRequest
  /-- BRAKE_TEST_END, R268: BTTIME ends the torque request, and 20 ms later BTSO is de-energised and the result recorded. -/
  | brakeTestEnd
  /-- BRAKE_HOUR, R269: Each powered hour increments a brake's hours and may set BTDUE or BTOVER. -/
  | brakeHour (b : Fin 2)
  /-- SAFE_PAIRING_TIMEOUT, R405: 100 ms pass without an identical copy in the other channel and the held command ends with SAFE_UNPAIRED. -/
  | safePairingTimeout (ch snd : Fin 2)
  /-- SAFFRON_RESTART, R276: After a warm reset reaction, with every output off, Saffron restarts as at power-on. -/
  | saffronRestart
  /-- FCU_RAISE, R278: A source pair changes to fault, and the FCU records it and starts its class's reaction or merges it. -/
  | fcuRaise (src : Fin 512) (fault : Bool) (info : Word)
  /-- WIRING_FAULT, R279: A pair reads equal for 4 cycles and is handled as a raise with WIRING = 1. -/
  | wiringFault (src : Fin 512)
  /-- BLOCK_RESET_END, R287: A block reset's duration ends and the block restarts. -/
  | blockResetEnd (k : Fin 34)
  /-- REACTION_WINDOW_END, R286: A reaction window closes and later raises take new records. -/
  | reactionWindowEnd (src : Fin 512)
  /-- FCU_ACK, R288: A write of FCU_ACK clears PENDING of a record or sets ACKREF. -/
  | fcuAck (m : Master) (r : Fin 32)
  /-- FCU_FORCE, R291: A write of FCU_FORCE drives source pairs into fault or wiring fault. -/
  | fcuForce (m : Master) (j : Fin 16) (v : Word)
  /-- FCU_SRCCFG_WRITE, R283: A write of FCU_SRCCFG sets a source's class and reaction in BOOT or COMMISSION, or is ignored. -/
  | fcuSrccfgWrite (m : Master) (i : Fin 512) (v : Word)
  /-- ARMED, R289: Setting FCU_CTRL.ARMED starts ALIVE toggling and releases FAULT_N where nothing pends. -/
  | armed (m : Master)
  /-- ALIVE_TOGGLE, R289: Every 500 µs ALIVE_A and ALIVE_B toggle together. -/
  | aliveToggle
  /-- COLLECTOR_SELF_FAULT, R293: A copy mismatch or parity error requests the safe state, stops ALIVE and sets SELF. -/
  | collectorSelfFault (off : BitVec 16) (mismatch parity : Bool)
  /-- SCRUB_READ, R297: Every SCRUBPER ns the scrubber reads one word of each powered bank. -/
  | scrubRead (found : List (Fin 48 × Bool))
  /-- ECC_WRITEBACK, R296: A corrected word is written back in the bank's next idle cycle. -/
  | eccWriteback (b : Fin 48)
  /-- SRAM_GROUP_READY, R301: A group powering on or waking completes and stalled requests proceed. -/
  | sramGroupReady (g : Fin 12)
  /-- VOTE_CAST, R309: A voting block quiesces and votes yes or refuses with a reason. -/
  | voteCast (v : Fin 12) (hostBusy : Bool)
  /-- VOTE_WINDOW_EXPIRY, R310: The vote window ends with a silent voter and the entry aborts. -/
  | voteWindowExpiry
  /-- LOW_POWER_COMMIT, R310: With every vote yes, domains save to retention, clocks stop and supplies fall. -/
  | lowPowerCommit
  /-- WAKE_EVENT, R312: A wake source sets its bit and starts transition 18, or aborts a vote in prepare. -/
  | wakeEvent (i : Fin 7)
  /-- WAKE_COMPLETE, R312: The wake sequence ends with firmware resumed, CUR restored and the WAKE notice sent. -/
  | wakeComplete
  /-- STROLL_SAMPLE, R313: Every PWR_SPER ms the sampler checks its conditions and wakes the device on a match. -/
  | strollSample (link : Byte) (balls : BitVec 64) (temp vin : BitVec 16)
  /-- WAKESEC_REACHED, R312: Domain-0 seconds reach PWR_WAKESEC and wake the device. -/
  | wakesecReached
  /-- VIN_TRIP, R318: VIN below TRIP for 2 µs starts HOLDUP: domains stop, Saffron reacts and the Flask record is captured and written. -/
  | vinTrip (vh0 vh1 : BitVec 16) (ns : Word)
  /-- HOLDUP_COMPLETE, R318: The closing word is written and every domain goes OFF. -/
  | holdupComplete (good : Bool)
  /-- VIN_RESTART, R320: VIN above TRIP + 400 mV for 10 ms after HOLDUP starts the device as at power-on with VINRST. -/
  | vinRestart
  /-- BAR2_WRITE, R325: A host write through BAR2 reaches the Hamper software region, or is ignored with B2WREF. -/
  | bar2Write (o : BitVec 28) (b : List Byte)
  /-- BAR2_READ, R325: A host read through BAR2 returns Hamper data, zero or a poisoned completion. -/
  | bar2Read (o : BitVec 28) (n : BitVec 13) (bad : Bool)
  /-- RWDATA_ACCESS, R326: A host access of HOST_RWDATA moves 32 bits at RWADDR and may advance it. -/
  | rwdataAccess (w : Option Word)
  /-- SPI_WRITE, R327: An SPI frame with command 0x02 writes words from an address. -/
  | spiWrite (a : Word) (l : List Word)
  /-- SPI_READ, R327: An SPI frame with command 0x0B reads words in blocks with status bytes. -/
  | spiRead (a : Word) (n : BitVec 16)
  /-- SPI_STATUS, R327: An SPI frame with command 0x05 returns HOST_ERR. -/
  | spiStatus
  /-- SPI_RESET, R327: An SPI frame with command 0x99 resets the host port. -/
  | spiReset
  /-- SPI_FRAME_ERROR, R328: A frame with a partial word, address or unknown command is discarded and raises HOST_LINK. -/
  | spiFrameError (k : Fin 3) (a : Word) (n : BitVec 16) (l : List Word)
  /-- HOST_LINK_LOSS, R344: A PCIe link-down or lost SPI framing raises HOST_LINK and changes no channel. -/
  | hostLinkLoss
  /-- FRAME_RING_ENABLE, R329: A write of HOST_FQ CFG.EN starts a ring or stops it and clears its indices. -/
  | frameRingEnable (m : Master) (q : Fin 2) (v : Word)
  /-- PROD_WRITE, R330: A host write of the transmit ring's PROD hands slots to the port. -/
  | prodWrite (m : Master) (v : Word)
  /-- TX_RING_SLOT_SEND, R330: The port sends the frame of the next owned transmit slot into the switch and advances CONS. -/
  | txRingSlotSend
  /-- CONS_WRITE, R331: A host write of the receive ring's CONS returns slots to the port. -/
  | consWrite (m : Master) (v : Word)
  /-- SEND, R336: MBX CMD.SEND appends the staging to the channel and stamps it, or is refused. -/
  | send (m : Master) (c : Fin 96)
  /-- POP, R336: MBX CMD.POP removes the oldest message, or sets POPEMPTY. -/
  | pop (m : Master) (c : Fin 96)
  /-- FLUSH, R336: MBX CMD.FLUSH empties the channel. -/
  | flush (m : Master) (c : Fin 96)
  /-- MSIX_MESSAGE, R342: A vector becoming active, or unmasked while pending, sends its MSI-X message. -/
  | msixMessage (v : Fin 32) (cfg : Fin 8)
  /-- MDIO_GO, R396: A write of PIN_MDIO.GO runs one clause 22 frame. -/
  | mdioGo (m : Master) (v : Word)
  /-- MDIO_FRAME_END, R396: An MDIO frame ends, storing read data and clearing GO. -/
  | mdioFrameEnd (d : BitVec 16)
  /-- RESPONSE_RETRY, R347: Every 100 µs a response refused at a full return channel is offered again. -/
  | responseRetry
  /-- TXN_CH_OPEN, R352: TXN CTRL.OPEN opens a transaction on the master's channel. -/
  | txnChOpen (m : Master) (c : Fin 21)
  /-- TXN_CH_COMMIT, R355: TXN CTRL.COMMIT starts the check of the open transaction. -/
  | txnChCommit (m : Master) (c : Fin 21)
  /-- TXN_CH_ROLLBACK, R358: TXN CTRL.ROLLBACK discards the open log or cancels the armed set. -/
  | txnChRollback (m : Master) (c : Fin 21)
  /-- TXN_CHECK_END, R355: The commit check ends, arming the units or leaving the transaction open with a failure. -/
  | txnCheckEnd (c : Fin 21)
  /-- TXN_APPLY_POINT, R356: An armed set's apply point is reached and its units become eligible. -/
  | txnApplyPoint (c : Fin 21)
  /-- ARMMAX_EXPIRY, R357: An angle or network-cycle apply point not reached within ARMMAX seconds cancels the armed set. -/
  | armmaxExpiry (c : Fin 21)
  /-- TXN_TIMEOUT, R358: An open transaction reaches TIMEOUT ms and rolls back, raising TXN_TIMEOUT. -/
  | txnTimeout (c : Fin 21)
  /-- INFO, R361: SYS INFO returns identity, release, mode, reset cause and counts. -/
  | info (c : Fin 96)
  /-- SYS_MODE, R361: SYS MODE requests transition 8 to 11 or 14. -/
  | sysMode (c : Fin 96)
  /-- RESET, R361: SYS RESET with the key starts a warm reset 1 ms after its response. -/
  | reset (c : Fin 96)
  /-- ENV, R361: SYS ENV returns temperature, VIN and VHOLD. -/
  | env (c : Fin 96)
  /-- CFG_SAVE, R361: SYS CFG_SAVE writes the working configuration to MRAM. -/
  | cfgSave (c : Fin 96)
  /-- CFG_LOAD, R361: SYS CFG_LOAD replaces the MRAM configuration area from a buffer. -/
  | cfgLoad (c : Fin 96) (img : CfgImg)
  /-- FW_LIST, R362: FW LIST returns the image IDs in MRAM. -/
  | fwList (c : Fin 96)
  /-- FW_LOAD, R362: FW LOAD stores an engine image in MRAM. -/
  | fwLoad (c : Fin 96) (room : Bool)
  /-- FW_DELETE, R362: FW DELETE removes an engine image not in use. -/
  | fwDelete (c : Fin 96)
  /-- FW_UPDATE, R362: FW UPDATE writes and verifies a new firmware image for the next warm reset. -/
  | fwUpdate (c : Fin 96) (room : Bool)
  /-- FW_BOOT, R362: FW BOOT makes the ROM check an image placed in Hamper and write it to MRAM. -/
  | fwBoot (c : Fin 96) (r : BootRes)
  /-- OPEN, R360: The OPEN command opens a transaction and returns its handle. -/
  | openC (c : Fin 96)
  /-- COMMIT, R360: The COMMIT command commits the handle's transaction with an apply point. -/
  | commit (c : Fin 96)
  /-- ROLLBACK, R360: The ROLLBACK command rolls back the handle's transaction. -/
  | rollback (c : Fin 96)
  /-- TXN_STATUS, R360: The STATUS command returns the sender's transaction channel state. -/
  | txnStatus (c : Fin 96)
  /-- WRITE, R360: The WRITE command logs 1 to 6 RWT register writes. -/
  | write (c : Fin 96)
  /-- INST_START, R364: NET INST_START places and starts a protocol instance or refuses it. -/
  | instStart (c : Fin 96) (cfg : InstCfg)
  /-- INST_STOP, R364: NET INST_STOP stops an instance and returns its resources. -/
  | instStop (c : Fin 96)
  /-- INST_STATUS, R364: NET INST_STATUS returns an instance's state and counts. -/
  | instStatus (c : Fin 96)
  /-- FDB_SET, R364: NET FDB_SET writes a forwarding database entry. -/
  | fdbSet (c : Fin 96)
  /-- FDB_DEL, R364: NET FDB_DEL removes a forwarding database entry. -/
  | fdbDel (c : Fin 96)
  /-- FDB_GET, R364: NET FDB_GET returns a forwarding database entry. -/
  | fdbGet (c : Fin 96)
  /-- FDB_FLUSH, R364: NET FDB_FLUSH removes entries of the named ports. -/
  | fdbFlush (c : Fin 96)
  /-- VLAN_SET, R364: NET VLAN_SET writes a VLAN's membership. -/
  | vlanSet (c : Fin 96)
  /-- VLAN_GET, R364: NET VLAN_GET returns a VLAN's membership. -/
  | vlanGet (c : Fin 96)
  /-- ACQUIRE, R365: ACQUIRE puts a domain in ACQ and steps it, or arms a PPS step. -/
  | acquire (c : Fin 96)
  /-- REARM, R365: REARM returns a domain to FREE. -/
  | rearm (c : Fin 96)
  /-- TIME_GET, R365: TIME_GET returns a domain's time, state and ADJ. -/
  | timeGet (c : Fin 96)
  /-- PPS, R365: The PPS command writes TIME_PPS_CTRL and the PPS step seconds. -/
  | pps (c : Fin 96)
  /-- ANGLE_SET, R365: ANGLE_SET sets an LAU's angle. -/
  | angleSet (c : Fin 96)
  /-- ANGLE_GET, R365: ANGLE_GET returns an LAU's estimates and status. -/
  | angleGet (c : Fin 96)
  /-- VM_SPEED, R365: VM_SPEED writes an LAU's virtual-master target speed. -/
  | vmSpeed (c : Fin 96)
  /-- CTX_WRITE, R366: CTX_WRITE writes coefficient words of a context. -/
  | ctxWrite (c : Fin 96)
  /-- CTX_READ, R366: CTX_READ returns coefficient words of the active or shadow set. -/
  | ctxRead (c : Fin 96)
  /-- CTX_CTRL, R366: CTX_CTRL writes a context's EN, AUTO, STCLR and MANOUT. -/
  | ctxCtrl (c : Fin 96)
  /-- CTX_CFG, R366: CTX_CFG writes a context's CFG, RATE and TIMING. -/
  | ctxCfg (c : Fin 96)
  /-- TABLE, R366: TABLE writes a cam, cogging, friction or gain table not in use. -/
  | table (c : Fin 96)
  /-- CAPTURE, R366: CAPTURE configures and starts Cardamom capture. -/
  | capture (c : Fin 96)
  /-- TESTSIG, R366: TESTSIG configures the test generator. -/
  | testsig (c : Fin 96)
  /-- CTX_STATUS, R366: CTX_STATUS returns a context's status and counters. -/
  | ctxStatus (c : Fin 96)
  /-- CAN_CFG, R367: CAN_CFG writes a controller's configuration through INIT. -/
  | canCfg (c : Fin 96)
  /-- TT_LOAD, R367: TT_LOAD writes a controller's time-triggered registers and matrix. -/
  | ttLoad (c : Fin 96)
  /-- CAN_STATUS, R367: CAN_STATUS returns a controller's status. -/
  | canStatus (c : Fin 96)
  /-- TT_RESTART, R367: The TT_RESTART command leaves STARTFAIL. -/
  | ttRestart (c : Fin 96)
  /-- CAN_BOREC, R367: The BOREC command starts bus-off recovery. -/
  | canBorec (c : Fin 96)
  /-- CELL_LOAD, R368: CELL_LOAD halts a cell and writes its registers and program. -/
  | cellLoad (c : Fin 96)
  /-- CELL_RUN, R368: CELL_RUN halts, enables, arms or starts the cells of a mask. -/
  | cellRun (c : Fin 96)
  /-- CELL_STATUS, R368: CELL_STATUS returns a cell's status, flags and position. -/
  | cellStatus (c : Fin 96)
  /-- CELL_INJECT, R368: CELL_INJECT injects an instruction into a cell. -/
  | cellInject (c : Fin 96)
  /-- SAFE_STATUS, R369: SAFE STATUS returns Saffron's status, reason, inputs, outputs and check values. -/
  | safeStatus (c : Fin 96)
  /-- COMMISSION, R274: SAFE COMMISSION with the stored CCV enters COMMISSION (transition 6). -/
  | commission (c : Fin 96)
  /-- SPB_WRITE, R369: SAFE SPB_WRITE writes bytes of the safety parameter block. -/
  | spbWrite (c : Fin 96)
  /-- SPB_READ, R369: SAFE SPB_READ returns bytes of the safety parameter block. -/
  | spbRead (c : Fin 96)
  /-- CCV, R274: SAFE CCV applies R271 and computes the check value in both channels. -/
  | ccv (c : Fin 96)
  /-- CONFIRM, R274: SAFE CONFIRM stores the SPB and CCV in MRAM and leaves COMMISSION by warm reset. `c` is the channel, and whether both records read back as written. -/
  | confirm (c : Fin 96 × Bool)
  /-- LEAVE, R274: SAFE LEAVE discards the written SPB and restarts Saffron on the stored set. -/
  | leave (c : Fin 96)
  /-- SAFE_ACK, R256: SAFE ACK leaves the safe state (transition 15) if every condition holds. -/
  | safeAck (c : Fin 96)
  /-- BRAKE_TEST, R268: SAFE BRAKE_TEST starts a brake test or refuses it. -/
  | brakeTest (c : Fin 96)
  /-- PATH, R266: SAFE PATH reports a path down or up to the consumer connections. -/
  | path (c : Fin 96)
  /-- CLEAR, R369: SAFE CLEAR clears the Saffron status counters. -/
  | clear (c : Fin 96)
  /-- LOG_READ, R370: LOG_READ returns fault records. -/
  | logRead (c : Fin 96)
  /-- DIAG_ACK, R370: DIAG ACK acknowledges a fault record. -/
  | diagAck (c : Fin 96)
  /-- SAVED_READ, R370: SAVED_READ returns fault records from the offered Flask record. -/
  | savedRead (c : Fin 96)
  /-- MAP, R370: MAP sets a source's class and reaction in COMMISSION. -/
  | mapC (c : Fin 96)
  /-- READ, R370: DIAG READ returns register words read by the serving core. -/
  | readC (c : Fin 96)
  /-- FORCE, R370: DIAG FORCE sets or clears a source's force bit. -/
  | force (c : Fin 96)
  /-- ENTER, R371: POWER ENTER starts transition 16 or 17 and answers at the vote's outcome. -/
  | enter (c : Fin 96)
  /-- DOMAINS, R371: POWER DOMAINS switches configured domains and SRAM groups. -/
  | domains (c : Fin 96)
  /-- STROLL_CFG, R371: STROLL_CFG writes the STROLL, wake and vote settings. -/
  | strollCfg (c : Fin 96)
  /-- FLASK_INFO, R371: FLASK_INFO returns the Flask record's state. -/
  | flaskInfo (c : Fin 96)
  /-- RESUME, R322: POWER RESUME restores the offered Flask record and marks it consumed. -/
  | resume (c : Fin 96)
  /-- DISCARD, R322: POWER DISCARD marks the offered Flask record consumed. -/
  | discard (c : Fin 96)
  /-- VIN, R371: POWER VIN writes the VIN thresholds. -/
  | vin (c : Fin 96)
  /-- LINE_CONFIG, R373: LINE_CONFIG loads the line-shaft master image and takes engines 8–15 and the LAU. -/
  | lineConfig (c : Fin 96)
  /-- LINE_START, R373: LINE_START starts the line-shaft master service. -/
  | lineStart (c : Fin 96)
  /-- LINE_STOP, R375: LINE_STOP stops the service at standstill and frees its engines. -/
  | lineStop (c : Fin 96)
  /-- LINE_SPEED, R375: LINE_SPEED sets the virtual master's target speed, or stores it in SAFESTOP. -/
  | lineSpeed (c : Fin 96)
  /-- LINE_ENGAGE, R374: LINE_ENGAGE engages or disengages an axis. -/
  | lineEngage (c : Fin 96)
  /-- LINE_PHASE, R374: LINE_PHASE adds to or sets an axis's target phase. -/
  | linePhase (c : Fin 96)
  /-- LINE_STATUS, R375: LINE_STATUS returns the line angle, speed and counts. -/
  | lineStatus (c : Fin 96)
  /-- LINE_AXIS, R375: LINE_AXIS returns an axis's set-point, phase and state. -/
  | lineAxis (c : Fin 96)
  /-- LINE_CYCLE, R373: At each cycle start of INST the service projects the angle and writes every axis set-point. -/
  | lineCycle (ns : Word)
  /-- LINE_OVERRUN, R373: A set-point not written by the frame deadline counts an overrun and sends a LINE notice. -/
  | lineOverrun
  /-- PLL_RELOCK, R18: A PLL that lost lock regains it, so its FCU source reads no fault again and TIME and other clients return to normal stepping. -/
  | pllRelock (k : Fin 6)
  /-- REFCLK_RESTORE, R385: REFCLK starts running again after a loss, so the ALIVE timing and REFCLK-clocked logic resume. -/
  | refclkRestore
  /-- SUPPLY_IN_RANGE, R380: A rail that had left its operating range returns to it, setting its PIN_IOSTAT bit and ending the PWR_SUPPLY fault state. -/
  | supplyInRange (r : Fin 10)
  /-- BASIC_CYCLE_START, R191: A time-triggered MASTER starts each basic cycle, CYCLEN NTU after its last reference, by sending its reference with the cycle count incremented. -/
  | basicCycleStart (n : Fin 4)
  /-- CYCLIC_EXCHANGE_START, R177: A protocol instance enters or regains cyclic exchange, which the INSTANCE notice, the permit for transition 9 and the SAFE path-up report follow. -/
  | cyclicExchangeStart (i : Fin 4)
  /-- DOMAIN_SWITCH_COMPLETE, R307: A power domain switched on by firmware finishes its 20 to 40 µs power-up and its registers become accessible at their reset values. -/
  | domainSwitchComplete (d : Fin 12)
  /-- WIRING_FAULT_CLEARED, R279: A pair that showed a wiring fault reads a valid no-fault or fault state for 4 consecutive cycles, and its indications are taken again. -/
  | wiringFaultCleared (src : Fin 512)
  /-- ORIGINATED_FRAME_STAGED, R123: The last byte of an originated frame enters staging and TXSTAT.BUSY clears. -/
  | originatedFrameStaged (e : Fin 16) (t : Fin 4)
  /-- PREEMPT_VERIFY_RESPONSE, R80: The link partner answers a verify frame, so verification succeeds and preemption becomes active. -/
  | preemptVerifyResponse (p : Fin 12)
  /-- RECEIVE_LPI, R79: The link partner enters or leaves low-power idle on the receive side, setting STAT.LPIRX and counting RX_LPIENTRY. -/
  | receiveLpi (p : Fin 12) (on : Bool)
deriving DecidableEq, Repr

end Sys2Proof
end

