-- ==== Sys2Proof/Decode.lean ====
section
/-! DEFINITION. The command a word of the opcode table spells. The table gives no row of this block any bits: its commands are register
accesses, bus and pin events and operations of its units, which no word of its own encodes. (The instruction words of the Bluset engines
and of the Nutmeg cells are data of the block; `Sys2Proof.Machine.insKey` and the Nutmeg meanings read them.) -/

namespace Sys2Proof

/-- The command that the low `nbits` bits of `w` spell by the table's bits: none, since no row has bits. (log 2, DESIGN CHOICE) -/
def decodeTableWord (_nbits _w : Nat) : Option Instr := none

end Sys2Proof
end

