-- ==== Sys2Proof/Config.lean ====
section
/-! DEFINITION. What an implementation fixes and the values the manual leaves open: constants without a body, so that
nothing proved rests on a number. -/

namespace Sys2Proof.Config

/-- A 32-bit value the manual leaves open, one for each draw. (log 5, DESIGN CHOICE) -/
opaque freeWord : Nat → Word
/-- A yes or no the manual leaves open, one for each draw. -/
opaque freeBool : Nat → Bool
/-- A byte the manual leaves open, one for each draw. -/
opaque freeByte : Nat → Byte
/-- The build number of the firmware release (R361 gives none). -/
opaque fwBuild : Nat → Word

/-- The device address that firmware hands to Saffron at BOOT (R264 gives none), by byte. -/
opaque deviceAddr : Nat → Byte

/-- The destination address of a frame with a profile PDU (R267 gives none), by byte. -/
opaque profileDa : Nat → Byte
/-- The PDU of a safety profile (R267: its layout stands in IEC 61784-3), one for each draw. -/
opaque profilePdu : Nat → List Byte

/-- The part is of grade XT (R6): what an ordering code fixes. -/
opaque gradeXt : Nat → Bool

/-- A port's fixed transmit latency in ns (R104 gives none). (log 124, DESIGN CHOICE) -/
opaque txLatency : Nat → Nat

/-- A byte of the boot ROM, whose contents the manual does not give, by address. -/
opaque romByte : Nat → Byte
/-- A byte of the mailbox store as a bus read sees it: the manual does not give its arrangement. -/
opaque storeByte : Nat → Nat → Byte
/-- A byte of what firmware keeps in MRAM as a bus read sees it (R303): the manual does not give its arrangement. -/
opaque mramByte : Nat → Nat → Byte

end Sys2Proof.Config
end

