-- ==== Sys2Proof/Machine/Regs.lean ====
section
/-! DEFINITION. The address of every register and the bit range of every field, from the field tables of the manual
(R10, R19, R400, R401). A register of several instances takes the instance numbers in the order of its name. -/

namespace Sys2Proof.Machine

/-! ### 00_scope.md -/

def SYS_ID : Nat := 0x40000000
def SYS_ID_PART : Fld := ⟨SYS_ID, 31, 16⟩
def SYS_ID_MAJOR : Fld := ⟨SYS_ID, 7, 4⟩
def SYS_ID_MINOR : Fld := ⟨SYS_ID, 3, 0⟩

/-! ### 01_architecture_modes.md -/

def SYS_CLKSTAT : Nat := 0x40000008
def SYS_CLKSTAT_REFLOSS : Fld := ⟨SYS_CLKSTAT, 12, 12⟩
def SYS_CLKSTAT_SPLL1UL : Fld := ⟨SYS_CLKSTAT, 11, 11⟩
def SYS_CLKSTAT_SPLL0UL : Fld := ⟨SYS_CLKSTAT, 10, 10⟩
def SYS_CLKSTAT_PLL2UL : Fld := ⟨SYS_CLKSTAT, 9, 9⟩
def SYS_CLKSTAT_PLL1UL : Fld := ⟨SYS_CLKSTAT, 8, 8⟩
def SYS_CLKSTAT_PLL0UL : Fld := ⟨SYS_CLKSTAT, 7, 7⟩
def SYS_CLKSTAT_PLLSALK : Fld := ⟨SYS_CLKSTAT, 6, 6⟩
def SYS_CLKSTAT_SPLL1LK : Fld := ⟨SYS_CLKSTAT, 5, 5⟩
def SYS_CLKSTAT_SPLL0LK : Fld := ⟨SYS_CLKSTAT, 4, 4⟩
def SYS_CLKSTAT_PHYLK : Fld := ⟨SYS_CLKSTAT, 3, 3⟩
def SYS_CLKSTAT_PLL2LK : Fld := ⟨SYS_CLKSTAT, 2, 2⟩
def SYS_CLKSTAT_PLL1LK : Fld := ⟨SYS_CLKSTAT, 1, 1⟩
def SYS_CLKSTAT_PLL0LK : Fld := ⟨SYS_CLKSTAT, 0, 0⟩

def SYS_MODE : Nat := 0x40000004
def SYS_MODE_BUSY : Fld := ⟨SYS_MODE, 24, 24⟩
def SYS_MODE_TARGET : Fld := ⟨SYS_MODE, 23, 20⟩
def SYS_MODE_CAUSE : Fld := ⟨SYS_MODE, 15, 8⟩
def SYS_MODE_PREV : Fld := ⟨SYS_MODE, 7, 4⟩
def SYS_MODE_CUR : Fld := ⟨SYS_MODE, 3, 0⟩

/-! ### 02_line_time_angle.md -/

def TIME_DOM_CTRL (d : Nat) : Nat := 0x40400000 + d * 0x100
def TIME_DOM_CTRL_STEP (d : Nat) : Fld := ⟨TIME_DOM_CTRL d, 3, 3⟩
def TIME_DOM_CTRL_FREE (d : Nat) : Fld := ⟨TIME_DOM_CTRL d, 2, 2⟩
def TIME_DOM_CTRL_ACQ (d : Nat) : Fld := ⟨TIME_DOM_CTRL d, 1, 1⟩
def TIME_DOM_CTRL_STEPSRC (d : Nat) : Fld := ⟨TIME_DOM_CTRL d, 0, 0⟩

def TIME_DOM_STAT (d : Nat) : Nat := 0x40400004 + d * 0x100
def TIME_DOM_STAT_STEPCLAMP (d : Nat) : Fld := ⟨TIME_DOM_STAT d, 5, 5⟩
def TIME_DOM_STAT_ADJCLAMP (d : Nat) : Fld := ⟨TIME_DOM_STAT d, 4, 4⟩
def TIME_DOM_STAT_STEPST (d : Nat) : Fld := ⟨TIME_DOM_STAT d, 3, 2⟩
def TIME_DOM_STAT_STATE (d : Nat) : Fld := ⟨TIME_DOM_STAT d, 1, 0⟩

def TIME_DOM_NS (d : Nat) : Nat := 0x40400008 + d * 0x100
def TIME_DOM_NS_NS (d : Nat) : Fld := ⟨TIME_DOM_NS d, 29, 0⟩

def TIME_DOM_FRAC (d : Nat) : Nat := 0x4040000C + d * 0x100
def TIME_DOM_FRAC_FRAC (d : Nat) : Fld := ⟨TIME_DOM_FRAC d, 15, 0⟩

def TIME_DOM_SEC_LO (d : Nat) : Nat := 0x40400010 + d * 0x100
def TIME_DOM_SEC_LO_SEC (d : Nat) : Fld := ⟨TIME_DOM_SEC_LO d, 31, 0⟩

def TIME_DOM_SEC_HI (d : Nat) : Nat := 0x40400014 + d * 0x100
def TIME_DOM_SEC_HI_SEC (d : Nat) : Fld := ⟨TIME_DOM_SEC_HI d, 31, 0⟩

def TIME_DOM_CYC (d : Nat) : Nat := 0x40400018 + d * 0x100
def TIME_DOM_CYC_CYC (d : Nat) : Fld := ⟨TIME_DOM_CYC d, 31, 0⟩

def TIME_DOM_ADJ (d : Nat) : Nat := 0x4040001C + d * 0x100
def TIME_DOM_ADJ_ADJ (d : Nat) : Fld := ⟨TIME_DOM_ADJ d, 31, 0⟩

def TIME_DOM_STEP_NS (d : Nat) : Nat := 0x40400020 + d * 0x100
def TIME_DOM_STEP_NS_NS (d : Nat) : Fld := ⟨TIME_DOM_STEP_NS d, 31, 0⟩

def TIME_DOM_STEP_SEC_LO (d : Nat) : Nat := 0x40400024 + d * 0x100
def TIME_DOM_STEP_SEC_LO_SEC (d : Nat) : Fld := ⟨TIME_DOM_STEP_SEC_LO d, 31, 0⟩

def TIME_DOM_STEP_SEC_HI (d : Nat) : Nat := 0x40400028 + d * 0x100
def TIME_DOM_STEP_SEC_HI_SEC (d : Nat) : Fld := ⟨TIME_DOM_STEP_SEC_HI d, 31, 0⟩

def TIME_PPS_CTRL : Nat := 0x40400400
def TIME_PPS_CTRL_TOL : Fld := ⟨TIME_PPS_CTRL, 31, 16⟩
def TIME_PPS_CTRL_PSHIFT : Fld := ⟨TIME_PPS_CTRL, 6, 4⟩
def TIME_PPS_CTRL_SERVO : Fld := ⟨TIME_PPS_CTRL, 3, 3⟩
def TIME_PPS_CTRL_DOM : Fld := ⟨TIME_PPS_CTRL, 2, 1⟩
def TIME_PPS_CTRL_EN : Fld := ⟨TIME_PPS_CTRL, 0, 0⟩

def TIME_PPS_STAT : Nat := 0x40400404
def TIME_PPS_STAT_REJ : Fld := ⟨TIME_PPS_STAT, 15, 8⟩
def TIME_PPS_STAT_RESYNC : Fld := ⟨TIME_PPS_STAT, 3, 3⟩
def TIME_PPS_STAT_LOST : Fld := ⟨TIME_PPS_STAT, 2, 2⟩
def TIME_PPS_STAT_EDGE : Fld := ⟨TIME_PPS_STAT, 1, 1⟩
def TIME_PPS_STAT_STEPPED : Fld := ⟨TIME_PPS_STAT, 0, 0⟩

def TIME_PPS_ERR : Nat := 0x40400408
def TIME_PPS_ERR_ERR : Fld := ⟨TIME_PPS_ERR, 31, 0⟩

def TIME_PPS_SEC_LO : Nat := 0x4040040C
def TIME_PPS_SEC_LO_SEC : Fld := ⟨TIME_PPS_SEC_LO, 31, 0⟩

def TIME_PPS_SEC_HI : Nat := 0x40400410
def TIME_PPS_SEC_HI_SEC : Fld := ⟨TIME_PPS_SEC_HI, 31, 0⟩

def TIME_PPS_CAPFRAC : Nat := 0x40400414
def TIME_PPS_CAPFRAC_FRAC : Fld := ⟨TIME_PPS_CAPFRAC, 11, 0⟩

def TIME_PPS_CAP_NS (d : Nat) : Nat := 0x40400420 + d * 0x10
def TIME_PPS_CAP_NS_NS (d : Nat) : Fld := ⟨TIME_PPS_CAP_NS d, 29, 0⟩

def TIME_PPS_CAP_SEC_LO (d : Nat) : Nat := 0x40400424 + d * 0x10
def TIME_PPS_CAP_SEC_LO_SEC (d : Nat) : Fld := ⟨TIME_PPS_CAP_SEC_LO d, 31, 0⟩

def TIME_PPS_CAP_SEC_HI (d : Nat) : Nat := 0x40400428 + d * 0x10
def TIME_PPS_CAP_SEC_HI_SEC (d : Nat) : Fld := ⟨TIME_PPS_CAP_SEC_HI d, 31, 0⟩

def LAU_CTRL (u : Nat) : Nat := 0x40500000 + u * 0x10000
def LAU_CTRL_REACQ (u : Nat) : Fld := ⟨LAU_CTRL u, 2, 2⟩
def LAU_CTRL_SETANG (u : Nat) : Fld := ⟨LAU_CTRL u, 1, 1⟩
def LAU_CTRL_EN (u : Nat) : Fld := ⟨LAU_CTRL u, 0, 0⟩

def LAU_CFG (u : Nat) : Nat := 0x40500004 + u * 0x10000
def LAU_CFG_WIDTH (u : Nat) : Fld := ⟨LAU_CFG u, 17, 12⟩
def LAU_CFG_LOSSACT (u : Nat) : Fld := ⟨LAU_CFG u, 11, 11⟩
def LAU_CFG_DOM (u : Nat) : Fld := ⟨LAU_CFG u, 9, 8⟩
def LAU_CFG_CELL (u : Nat) : Fld := ⟨LAU_CFG u, 7, 3⟩
def LAU_CFG_SRC (u : Nat) : Fld := ⟨LAU_CFG u, 1, 0⟩

def LAU_BW (u : Nat) : Nat := 0x40500008 + u * 0x10000
def LAU_BW_BW (u : Nat) : Fld := ⟨LAU_BW u, 15, 0⟩

def LAU_CPT_NUM (u : Nat) : Nat := 0x4050000C + u * 0x10000
def LAU_CPT_NUM_NUM (u : Nat) : Fld := ⟨LAU_CPT_NUM u, 31, 0⟩

def LAU_CPT_DEN (u : Nat) : Nat := 0x40500010 + u * 0x10000
def LAU_CPT_DEN_DEN (u : Nat) : Fld := ⟨LAU_CPT_DEN u, 15, 0⟩

def LAU_MAXAGE (u : Nat) : Nat := 0x40500014 + u * 0x10000
def LAU_MAXAGE_MAXAGE (u : Nat) : Fld := ⟨LAU_MAXAGE u, 15, 0⟩

def LAU_MINSPD (u : Nat) : Nat := 0x40500018 + u * 0x10000
def LAU_MINSPD_MINSPD (u : Nat) : Fld := ⟨LAU_MINSPD u, 31, 0⟩

def LAU_ANG_LO (u : Nat) : Nat := 0x40500020 + u * 0x10000
def LAU_ANG_LO_FRAC (u : Nat) : Fld := ⟨LAU_ANG_LO u, 31, 0⟩

def LAU_ANG_HI (u : Nat) : Nat := 0x40500024 + u * 0x10000
def LAU_ANG_HI_TURNS (u : Nat) : Fld := ⟨LAU_ANG_HI u, 31, 0⟩

def LAU_SPD (u : Nat) : Nat := 0x40500028 + u * 0x10000
def LAU_SPD_SPD (u : Nat) : Fld := ⟨LAU_SPD u, 31, 0⟩

def LAU_ACC (u : Nat) : Nat := 0x4050002C + u * 0x10000
def LAU_ACC_ACC (u : Nat) : Fld := ⟨LAU_ACC u, 31, 0⟩

def LAU_SET_LO (u : Nat) : Nat := 0x40500030 + u * 0x10000
def LAU_SET_LO_FRAC (u : Nat) : Fld := ⟨LAU_SET_LO u, 31, 0⟩

def LAU_SET_HI (u : Nat) : Nat := 0x40500034 + u * 0x10000
def LAU_SET_HI_TURNS (u : Nat) : Fld := ⟨LAU_SET_HI u, 31, 0⟩

def LAU_NET_ANG_LO (u : Nat) : Nat := 0x40500040 + u * 0x10000
def LAU_NET_ANG_LO_FRAC (u : Nat) : Fld := ⟨LAU_NET_ANG_LO u, 31, 0⟩

def LAU_NET_ANG_HI (u : Nat) : Nat := 0x40500044 + u * 0x10000
def LAU_NET_ANG_HI_TURNS (u : Nat) : Fld := ⟨LAU_NET_ANG_HI u, 31, 0⟩

def LAU_NET_TS (u : Nat) : Nat := 0x40500048 + u * 0x10000
def LAU_NET_TS_TS (u : Nat) : Fld := ⟨LAU_NET_TS u, 31, 0⟩

def LAU_VM_SPD (u : Nat) : Nat := 0x40500050 + u * 0x10000
def LAU_VM_SPD_SPD (u : Nat) : Fld := ⟨LAU_VM_SPD u, 31, 0⟩

def LAU_VM_ACC (u : Nat) : Nat := 0x40500054 + u * 0x10000
def LAU_VM_ACC_ACC (u : Nat) : Fld := ⟨LAU_VM_ACC u, 31, 0⟩

def LAU_VM_JERK (u : Nat) : Nat := 0x40500058 + u * 0x10000
def LAU_VM_JERK_JERK (u : Nat) : Fld := ⟨LAU_VM_JERK u, 31, 0⟩

def LAU_STAT (u : Nat) : Nat := 0x40500060 + u * 0x10000
def LAU_STAT_REJ (u : Nat) : Fld := ⟨LAU_STAT u, 31, 24⟩
def LAU_STAT_SETREF (u : Nat) : Fld := ⟨LAU_STAT u, 7, 7⟩
def LAU_STAT_TCLAMP (u : Nat) : Fld := ⟨LAU_STAT u, 6, 6⟩
def LAU_STAT_SETTLED (u : Nat) : Fld := ⟨LAU_STAT u, 5, 5⟩
def LAU_STAT_REACQ (u : Nat) : Fld := ⟨LAU_STAT u, 4, 4⟩
def LAU_STAT_SRCLOST (u : Nat) : Fld := ⟨LAU_STAT u, 3, 3⟩
def LAU_STAT_VMLIM (u : Nat) : Fld := ⟨LAU_STAT u, 2, 2⟩

def ITIN_SLOT_CTRL (n : Nat) : Nat := 0x40590000 + n * 0x20
def ITIN_SLOT_CTRL_ARM (n : Nat) : Fld := ⟨ITIN_SLOT_CTRL n, 31, 31⟩
def ITIN_SLOT_CTRL_PER (n : Nat) : Fld := ⟨ITIN_SLOT_CTRL n, 30, 30⟩
def ITIN_SLOT_CTRL_TRIG (n : Nat) : Fld := ⟨ITIN_SLOT_CTRL n, 29, 28⟩
def ITIN_SLOT_CTRL_SRC (n : Nat) : Fld := ⟨ITIN_SLOT_CTRL n, 27, 26⟩
def ITIN_SLOT_CTRL_DIR (n : Nat) : Fld := ⟨ITIN_SLOT_CTRL n, 25, 24⟩
def ITIN_SLOT_CTRL_ACT (n : Nat) : Fld := ⟨ITIN_SLOT_CTRL n, 23, 21⟩
def ITIN_SLOT_CTRL_SUBNS (n : Nat) : Fld := ⟨ITIN_SLOT_CTRL n, 2, 0⟩

def ITIN_SLOT_TRIG_LO (n : Nat) : Nat := 0x40590004 + n * 0x20
def ITIN_SLOT_TRIG_LO_LO (n : Nat) : Fld := ⟨ITIN_SLOT_TRIG_LO n, 31, 0⟩

def ITIN_SLOT_TRIG_HI (n : Nat) : Nat := 0x40590008 + n * 0x20
def ITIN_SLOT_TRIG_HI_HI (n : Nat) : Fld := ⟨ITIN_SLOT_TRIG_HI n, 31, 0⟩

def ITIN_SLOT_PER_LO (n : Nat) : Nat := 0x4059000C + n * 0x20
def ITIN_SLOT_PER_LO_LO (n : Nat) : Fld := ⟨ITIN_SLOT_PER_LO n, 31, 0⟩

def ITIN_SLOT_PER_HI (n : Nat) : Nat := 0x40590010 + n * 0x20
def ITIN_SLOT_PER_HI_HI (n : Nat) : Fld := ⟨ITIN_SLOT_PER_HI n, 31, 0⟩

def ITIN_SLOT_ARG (n : Nat) : Nat := 0x40590014 + n * 0x20
def ITIN_SLOT_ARG_ARG (n : Nat) : Fld := ⟨ITIN_SLOT_ARG n, 31, 0⟩

def ITIN_SLOT_STAT (n : Nat) : Nat := 0x40590018 + n * 0x20
def ITIN_SLOT_STAT_STATE (n : Nat) : Fld := ⟨ITIN_SLOT_STAT n, 31, 29⟩
def ITIN_SLOT_STAT_RESULT (n : Nat) : Fld := ⟨ITIN_SLOT_STAT n, 28, 26⟩
def ITIN_SLOT_STAT_LATE (n : Nat) : Fld := ⟨ITIN_SLOT_STAT n, 25, 25⟩
def ITIN_SLOT_STAT_WIGN (n : Nat) : Fld := ⟨ITIN_SLOT_STAT n, 24, 24⟩
def ITIN_SLOT_STAT_DUEFRAC (n : Nat) : Fld := ⟨ITIN_SLOT_STAT n, 19, 17⟩
def ITIN_SLOT_STAT_MISSCLR (n : Nat) : Fld := ⟨ITIN_SLOT_STAT n, 16, 16⟩
def ITIN_SLOT_STAT_MISS (n : Nat) : Fld := ⟨ITIN_SLOT_STAT n, 15, 0⟩

def ITIN_SLOT_DUE (n : Nat) : Nat := 0x4059001C + n * 0x20
def ITIN_SLOT_DUE_DUE (n : Nat) : Fld := ⟨ITIN_SLOT_DUE n, 31, 0⟩

def ITIN_CFG : Nat := 0x40580000
def ITIN_CFG_LATEWIN : Fld := ⟨ITIN_CFG, 15, 0⟩

def ITIN_STAT : Nat := 0x40580004
def ITIN_STAT_ARMED : Fld := ⟨ITIN_STAT, 25, 16⟩
def ITIN_STAT_POSTQ : Fld := ⟨ITIN_STAT, 12, 8⟩
def ITIN_STAT_MAXLAG : Fld := ⟨ITIN_STAT, 7, 0⟩

def ITIN_MISS (i : Nat) : Nat := 0x40580010 + i * 0x4
def ITIN_MISS_MISS (i : Nat) : Fld := ⟨ITIN_MISS i, 31, 0⟩

def ITIN_CAP_NS (k : Nat) : Nat := 0x40580400 + k * 0x20
def ITIN_CAP_NS_NS (k : Nat) : Fld := ⟨ITIN_CAP_NS k, 29, 0⟩

def ITIN_CAP_SEC_LO (k : Nat) : Nat := 0x40580404 + k * 0x20
def ITIN_CAP_SEC_LO_SEC (k : Nat) : Fld := ⟨ITIN_CAP_SEC_LO k, 31, 0⟩

def ITIN_CAP_SEC_HI (k : Nat) : Nat := 0x40580408 + k * 0x20
def ITIN_CAP_SEC_HI_SEC (k : Nat) : Fld := ⟨ITIN_CAP_SEC_HI k, 31, 0⟩

def ITIN_CAP_LAU0_LO (k : Nat) : Nat := 0x4058040C + k * 0x20
def ITIN_CAP_LAU0_LO_FRAC (k : Nat) : Fld := ⟨ITIN_CAP_LAU0_LO k, 31, 0⟩

def ITIN_CAP_LAU0_HI (k : Nat) : Nat := 0x40580410 + k * 0x20
def ITIN_CAP_LAU0_HI_TURNS (k : Nat) : Fld := ⟨ITIN_CAP_LAU0_HI k, 31, 0⟩

def ITIN_CAP_LAU1_LO (k : Nat) : Nat := 0x40580414 + k * 0x20
def ITIN_CAP_LAU1_LO_FRAC (k : Nat) : Fld := ⟨ITIN_CAP_LAU1_LO k, 31, 0⟩

def ITIN_CAP_LAU1_HI (k : Nat) : Nat := 0x40580418 + k * 0x20
def ITIN_CAP_LAU1_HI_TURNS (k : Nat) : Fld := ⟨ITIN_CAP_LAU1_HI k, 31, 0⟩

def ITIN_CAP_FLAGS (k : Nat) : Nat := 0x4058041C + k * 0x20
def ITIN_CAP_FLAGS_VALID (k : Nat) : Fld := ⟨ITIN_CAP_FLAGS k, 31, 31⟩
def ITIN_CAP_FLAGS_OVWR (k : Nat) : Fld := ⟨ITIN_CAP_FLAGS k, 30, 30⟩
def ITIN_CAP_FLAGS_SLOT (k : Nat) : Fld := ⟨ITIN_CAP_FLAGS k, 8, 0⟩

def EDGE_EP_CTRL (n : Nat) : Nat := 0x40600000 + n * 0x100
def EDGE_EP_CTRL_INV (n : Nat) : Fld := ⟨EDGE_EP_CTRL n, 2, 2⟩
def EDGE_EP_CTRL_SAFELVL (n : Nat) : Fld := ⟨EDGE_EP_CTRL n, 1, 1⟩
def EDGE_EP_CTRL_EN (n : Nat) : Fld := ⟨EDGE_EP_CTRL n, 0, 0⟩

def EDGE_EP_PW (n : Nat) : Nat := 0x40600004 + n * 0x100
def EDGE_EP_PW_PW (n : Nat) : Fld := ⟨EDGE_EP_PW n, 23, 0⟩

def EDGE_EP_STAT (n : Nat) : Nat := 0x40600008 + n * 0x100
def EDGE_EP_STAT_LASTFRAC (n : Nat) : Fld := ⟨EDGE_EP_STAT n, 26, 24⟩
def EDGE_EP_STAT_DROP (n : Nat) : Fld := ⟨EDGE_EP_STAT n, 23, 16⟩
def EDGE_EP_STAT_PEND (n : Nat) : Fld := ⟨EDGE_EP_STAT n, 3, 1⟩
def EDGE_EP_STAT_LEVEL (n : Nat) : Fld := ⟨EDGE_EP_STAT n, 0, 0⟩

def EDGE_EP_LAST (n : Nat) : Nat := 0x4060000C + n * 0x100
def EDGE_EP_LAST_LAST (n : Nat) : Fld := ⟨EDGE_EP_LAST n, 31, 0⟩

/-! ### 03_ports_mac.md -/

def MAC_CTRL (n : Nat) : Nat := 0x40800000 + n * 0x10000
def MAC_CTRL_ISOPROT (n : Nat) : Fld := ⟨MAC_CTRL n, 4, 4⟩
def MAC_CTRL_CNTCLR (n : Nat) : Fld := ⟨MAC_CTRL n, 3, 3⟩
def MAC_CTRL_ANRESTART (n : Nat) : Fld := ⟨MAC_CTRL n, 2, 2⟩
def MAC_CTRL_TXEN (n : Nat) : Fld := ⟨MAC_CTRL n, 1, 1⟩
def MAC_CTRL_RXEN (n : Nat) : Fld := ⟨MAC_CTRL n, 0, 0⟩

def MAC_MODE (n : Nat) : Nat := 0x40800004 + n * 0x10000
def MAC_MODE_RXINV (n : Nat) : Fld := ⟨MAC_MODE n, 10, 10⟩
def MAC_MODE_TXINV (n : Nat) : Fld := ⟨MAC_MODE n, 9, 9⟩
def MAC_MODE_ANX (n : Nat) : Fld := ⟨MAC_MODE n, 8, 8⟩
def MAC_MODE_MS (n : Nat) : Fld := ⟨MAC_MODE n, 5, 4⟩
def MAC_MODE_SEL (n : Nat) : Fld := ⟨MAC_MODE n, 2, 0⟩

def MAC_STAT (n : Nat) : Nat := 0x40800008 + n * 0x10000
def MAC_STAT_RXPAUSED (n : Nat) : Fld := ⟨MAC_STAT n, 12, 12⟩
def MAC_STAT_BADMODE (n : Nat) : Fld := ⟨MAC_STAT n, 11, 11⟩
def MAC_STAT_HDXREF (n : Nat) : Fld := ⟨MAC_STAT n, 10, 10⟩
def MAC_STAT_PEACT (n : Nat) : Fld := ⟨MAC_STAT n, 9, 9⟩
def MAC_STAT_LPIRX (n : Nat) : Fld := ⟨MAC_STAT n, 8, 8⟩
def MAC_STAT_LPITX (n : Nat) : Fld := ⟨MAC_STAT n, 7, 7⟩
def MAC_STAT_ASPDLOW (n : Nat) : Fld := ⟨MAC_STAT n, 6, 6⟩
def MAC_STAT_ISOCUSE (n : Nat) : Fld := ⟨MAC_STAT n, 5, 5⟩
def MAC_STAT_MSRES (n : Nat) : Fld := ⟨MAC_STAT n, 4, 4⟩
def MAC_STAT_SPEED (n : Nat) : Fld := ⟨MAC_STAT n, 3, 1⟩
def MAC_STAT_LINK (n : Nat) : Fld := ⟨MAC_STAT n, 0, 0⟩

def MAC_ANADV (n : Nat) : Nat := 0x4080000C + n * 0x10000
def MAC_ANADV_ASMDIR (n : Nat) : Fld := ⟨MAC_ANADV n, 4, 4⟩
def MAC_ANADV_PAUSE (n : Nat) : Fld := ⟨MAC_ANADV n, 3, 3⟩
def MAC_ANADV_FD1000 (n : Nat) : Fld := ⟨MAC_ANADV n, 2, 2⟩
def MAC_ANADV_FD100 (n : Nat) : Fld := ⟨MAC_ANADV n, 1, 1⟩
def MAC_ANADV_FD10 (n : Nat) : Fld := ⟨MAC_ANADV n, 0, 0⟩

def MAC_ANLP (n : Nat) : Nat := 0x40800010 + n * 0x10000
def MAC_ANLP_EEE (n : Nat) : Fld := ⟨MAC_ANLP n, 9, 8⟩
def MAC_ANLP_HD (n : Nat) : Fld := ⟨MAC_ANLP n, 7, 5⟩
def MAC_ANLP_ASMDIR (n : Nat) : Fld := ⟨MAC_ANLP n, 4, 4⟩
def MAC_ANLP_PAUSE (n : Nat) : Fld := ⟨MAC_ANLP n, 3, 3⟩
def MAC_ANLP_FD (n : Nat) : Fld := ⟨MAC_ANLP n, 2, 0⟩

def MAC_MAXLEN (n : Nat) : Nat := 0x40800014 + n * 0x10000
def MAC_MAXLEN_MAXLEN (n : Nat) : Fld := ⟨MAC_MAXLEN n, 13, 0⟩

def MAC_GFILT (n : Nat) : Nat := 0x40800070 + n * 0x10000
def MAC_GFILT_BCDROP (n : Nat) : Fld := ⟨MAC_GFILT n, 2, 2⟩
def MAC_GFILT_HASHEN (n : Nat) : Fld := ⟨MAC_GFILT n, 1, 1⟩
def MAC_GFILT_PROMGRP (n : Nat) : Fld := ⟨MAC_GFILT n, 0, 0⟩

def MAC_GHASH (n i : Nat) : Nat := 0x40800100 + n * 0x10000 + i * 0x4
def MAC_GHASH_BIN (n i : Nat) : Fld := ⟨MAC_GHASH n i, 31, 0⟩

def MAC_GEX_LO (n k : Nat) : Nat := 0x40800140 + n * 0x10000 + k * 0x8
def MAC_GEX_LO_ADDR (n k : Nat) : Fld := ⟨MAC_GEX_LO n k, 31, 0⟩

def MAC_GEX_HI (n k : Nat) : Nat := 0x40800144 + n * 0x10000 + k * 0x8
def MAC_GEX_HI_VALID (n k : Nat) : Fld := ⟨MAC_GEX_HI n k, 31, 31⟩
def MAC_GEX_HI_ADDR (n k : Nat) : Fld := ⟨MAC_GEX_HI n k, 15, 0⟩

def MAC_TSCFG (n : Nat) : Nat := 0x40800020 + n * 0x10000
def MAC_TSCFG_DOMEN (n : Nat) : Fld := ⟨MAC_TSCFG n, 15, 12⟩
def MAC_TSCFG_V6PAD (n : Nat) : Fld := ⟨MAC_TSCFG n, 7, 7⟩
def MAC_TSCFG_TCMODE (n : Nat) : Fld := ⟨MAC_TSCFG n, 6, 6⟩
def MAC_TSCFG_ONESTEP (n : Nat) : Fld := ⟨MAC_TSCFG n, 5, 5⟩
def MAC_TSCFG_UDP6 (n : Nat) : Fld := ⟨MAC_TSCFG n, 4, 4⟩
def MAC_TSCFG_UDP4 (n : Nat) : Fld := ⟨MAC_TSCFG n, 3, 3⟩
def MAC_TSCFG_L2 (n : Nat) : Fld := ⟨MAC_TSCFG n, 2, 2⟩
def MAC_TSCFG_EN (n : Nat) : Fld := ⟨MAC_TSCFG n, 0, 0⟩

def MAC_PTPDOM (n : Nat) : Nat := 0x40800024 + n * 0x10000
def MAC_PTPDOM_DOMNUM (n : Nat) : Fld := ⟨MAC_PTPDOM n, 31, 0⟩

def MAC_TSINLAT (n : Nat) : Nat := 0x40800028 + n * 0x10000
def MAC_TSINLAT_LAT (n : Nat) : Fld := ⟨MAC_TSINLAT n, 15, 0⟩

def MAC_TSEGLAT (n : Nat) : Nat := 0x4080002C + n * 0x10000
def MAC_TSEGLAT_LAT (n : Nat) : Fld := ⟨MAC_TSEGLAT n, 15, 0⟩

def MAC_TSF_HDR (n : Nat) : Nat := 0x40800030 + n * 0x10000
def MAC_TSF_HDR_VALID (n : Nat) : Fld := ⟨MAC_TSF_HDR n, 31, 31⟩
def MAC_TSF_HDR_LEFT (n : Nat) : Fld := ⟨MAC_TSF_HDR n, 30, 26⟩
def MAC_TSF_HDR_TDOM (n : Nat) : Fld := ⟨MAC_TSF_HDR n, 25, 24⟩
def MAC_TSF_HDR_MSGTYPE (n : Nat) : Fld := ⟨MAC_TSF_HDR n, 23, 20⟩
def MAC_TSF_HDR_FRAC (n : Nat) : Fld := ⟨MAC_TSF_HDR n, 19, 17⟩
def MAC_TSF_HDR_SEQID (n : Nat) : Fld := ⟨MAC_TSF_HDR n, 15, 0⟩

def MAC_TSF_SEC (n : Nat) : Nat := 0x40800034 + n * 0x10000
def MAC_TSF_SEC_SEC (n : Nat) : Fld := ⟨MAC_TSF_SEC n, 31, 0⟩

def MAC_TSF_NS (n : Nat) : Nat := 0x40800038 + n * 0x10000
def MAC_TSF_NS_NS (n : Nat) : Fld := ⟨MAC_TSF_NS n, 29, 0⟩

def MAC_FCCFG (n : Nat) : Nat := 0x40800040 + n * 0x10000
def MAC_FCCFG_TXQUANTA (n : Nat) : Fld := ⟨MAC_FCCFG n, 31, 16⟩
def MAC_FCCFG_PFCGEN (n : Nat) : Fld := ⟨MAC_FCCFG n, 15, 8⟩
def MAC_FCCFG_GEN (n : Nat) : Fld := ⟨MAC_FCCFG n, 3, 3⟩
def MAC_FCCFG_RXEN (n : Nat) : Fld := ⟨MAC_FCCFG n, 2, 2⟩
def MAC_FCCFG_MODE (n : Nat) : Fld := ⟨MAC_FCCFG n, 1, 0⟩

def MAC_FCTHR (n : Nat) : Nat := 0x40800044 + n * 0x10000
def MAC_FCTHR_XOFF (n : Nat) : Fld := ⟨MAC_FCTHR n, 31, 16⟩
def MAC_FCTHR_XON (n : Nat) : Fld := ⟨MAC_FCTHR n, 15, 0⟩

def MAC_FCTX (n : Nat) : Nat := 0x40800048 + n * 0x10000
def MAC_FCTX_QUANTA (n : Nat) : Fld := ⟨MAC_FCTX n, 31, 16⟩
def MAC_FCTX_CLASS (n : Nat) : Fld := ⟨MAC_FCTX n, 7, 0⟩

def MAC_FCSTAT (n : Nat) : Nat := 0x4080004C + n * 0x10000
def MAC_FCSTAT_XOFFSENT (n : Nat) : Fld := ⟨MAC_FCSTAT n, 9, 9⟩
def MAC_FCSTAT_PAUSED (n : Nat) : Fld := ⟨MAC_FCSTAT n, 8, 8⟩
def MAC_FCSTAT_CLASS (n : Nat) : Fld := ⟨MAC_FCSTAT n, 7, 0⟩

def MAC_ASPD (n : Nat) : Nat := 0x40800050 + n * 0x10000
def MAC_ASPD_IDLE (n : Nat) : Fld := ⟨MAC_ASPD n, 31, 16⟩
def MAC_ASPD_DWELL (n : Nat) : Fld := ⟨MAC_ASPD n, 15, 8⟩
def MAC_ASPD_FAIL (n : Nat) : Fld := ⟨MAC_ASPD n, 1, 1⟩
def MAC_ASPD_EN (n : Nat) : Fld := ⟨MAC_ASPD n, 0, 0⟩

def MAC_ASPD_THR (n : Nat) : Nat := 0x40800054 + n * 0x10000
def MAC_ASPD_THR_HITHR (n : Nat) : Fld := ⟨MAC_ASPD_THR n, 31, 16⟩
def MAC_ASPD_THR_LOTHR (n : Nat) : Fld := ⟨MAC_ASPD_THR n, 15, 0⟩

def MAC_EEE (n : Nat) : Nat := 0x40800058 + n * 0x10000
def MAC_EEE_TXIDLE (n : Nat) : Fld := ⟨MAC_EEE n, 31, 16⟩
def MAC_EEE_ADV1000 (n : Nat) : Fld := ⟨MAC_EEE n, 2, 2⟩
def MAC_EEE_ADV100 (n : Nat) : Fld := ⟨MAC_EEE n, 1, 1⟩
def MAC_EEE_EN (n : Nat) : Fld := ⟨MAC_EEE n, 0, 0⟩

def MAC_PREEMPT (n : Nat) : Nat := 0x4080005C + n * 0x10000
def MAC_PREEMPT_VTIME (n : Nat) : Fld := ⟨MAC_PREEMPT n, 23, 16⟩
def MAC_PREEMPT_PMASK (n : Nat) : Fld := ⟨MAC_PREEMPT n, 15, 8⟩
def MAC_PREEMPT_ADDFRAG (n : Nat) : Fld := ⟨MAC_PREEMPT n, 3, 2⟩
def MAC_PREEMPT_NOVERIFY (n : Nat) : Fld := ⟨MAC_PREEMPT n, 1, 1⟩
def MAC_PREEMPT_EN (n : Nat) : Fld := ⟨MAC_PREEMPT n, 0, 0⟩

def MAC_PREEMPT_STAT (n : Nat) : Nat := 0x40800060 + n * 0x10000
def MAC_PREEMPT_STAT_ACTIVE (n : Nat) : Fld := ⟨MAC_PREEMPT_STAT n, 3, 3⟩
def MAC_PREEMPT_STAT_VSTATE (n : Nat) : Fld := ⟨MAC_PREEMPT_STAT n, 2, 0⟩

def MAC_IRQ (n : Nat) : Nat := 0x40800018 + n * 0x10000
def MAC_IRQ_HDXREF (n : Nat) : Fld := ⟨MAC_IRQ n, 6, 6⟩
def MAC_IRQ_PEVFAIL (n : Nat) : Fld := ⟨MAC_IRQ n, 5, 5⟩
def MAC_IRQ_ASPD (n : Nat) : Fld := ⟨MAC_IRQ n, 4, 4⟩
def MAC_IRQ_TSOVF (n : Nat) : Fld := ⟨MAC_IRQ n, 3, 3⟩
def MAC_IRQ_TSAVAIL (n : Nat) : Fld := ⟨MAC_IRQ n, 2, 2⟩
def MAC_IRQ_CNT (n : Nat) : Fld := ⟨MAC_IRQ n, 1, 1⟩
def MAC_IRQ_LINKCHG (n : Nat) : Fld := ⟨MAC_IRQ n, 0, 0⟩

def MAC_IEN (n : Nat) : Nat := 0x4080001C + n * 0x10000
def MAC_IEN_EN (n : Nat) : Fld := ⟨MAC_IEN n, 6, 0⟩

def MAC_CNTHALF (n j : Nat) : Nat := 0x40800500 + n * 0x10000 + j * 0x4
def MAC_CNTHALF_HALF (n j : Nat) : Fld := ⟨MAC_CNTHALF n j, 31, 0⟩

def MAC_CNTIEN (n j : Nat) : Nat := 0x40800508 + n * 0x10000 + j * 0x4
def MAC_CNTIEN_EN (n j : Nat) : Fld := ⟨MAC_CNTIEN n j, 31, 0⟩

/-! ### 04_switch_hamper.md -/

def BUF_SWCELLS : Nat := 0x40C00000
def BUF_SWCELLS_UNITS : Fld := ⟨BUF_SWCELLS, 7, 0⟩

def BUF_FREE : Nat := 0x40C00004
def BUF_FREE_CELLS : Fld := ⟨BUF_FREE, 18, 0⟩

def BUF_PROT : Nat := 0x40C00008
def BUF_PROT_PROTFREE : Fld := ⟨BUF_PROT, 18, 0⟩

def BUF_LOW : Nat := 0x40C0000C
def BUF_LOW_CELLS : Fld := ⟨BUF_LOW, 18, 0⟩

def BUF_DESC : Nat := 0x40C00010
def BUF_DESC_FREE : Fld := ⟨BUF_DESC, 16, 0⟩

def BUF_STAT : Nat := 0x40C00014
def BUF_STAT_ECCUNC : Fld := ⟨BUF_STAT, 2, 2⟩
def BUF_STAT_DESCEMPTY : Fld := ⟨BUF_STAT, 1, 1⟩
def BUF_STAT_POOLLOW : Fld := ⟨BUF_STAT, 0, 0⟩

def BUF_ECCCELL : Nat := 0x40C00018
def BUF_ECCCELL_CELL : Fld := ⟨BUF_ECCCELL, 17, 0⟩

def SWX_FDBCFG : Nat := 0x40A00000
def SWX_FDBCFG_AGE : Fld := ⟨SWX_FDBCFG, 31, 16⟩
def SWX_FDBCFG_LEARNFAIL : Fld := ⟨SWX_FDBCFG, 15, 0⟩

def SWX_ETYPE_MATCH (k : Nat) : Nat := 0x40A00010 + k * 0x8
def SWX_ETYPE_MATCH_VALID (k : Nat) : Fld := ⟨SWX_ETYPE_MATCH k, 31, 31⟩
def SWX_ETYPE_MATCH_DEST (k : Nat) : Fld := ⟨SWX_ETYPE_MATCH k, 20, 16⟩
def SWX_ETYPE_MATCH_ETHERTYPE (k : Nat) : Fld := ⟨SWX_ETYPE_MATCH k, 15, 0⟩

def SWX_ETYPE_PORTS (k : Nat) : Nat := 0x40A00014 + k * 0x8
def SWX_ETYPE_PORTS_PORTS (k : Nat) : Fld := ⟨SWX_ETYPE_PORTS k, 11, 0⟩

def SWX_QTHR (p c : Nat) : Nat := 0x40A01040 + p * 0x400 + c * 0x4
def SWX_QTHR_SHMAX (p c : Nat) : Fld := ⟨SWX_QTHR p c, 31, 16⟩
def SWX_QTHR_MIN (p c : Nat) : Fld := ⟨SWX_QTHR p c, 15, 0⟩

def SWX_QSTAT (p c : Nat) : Nat := 0x40A010A0 + p * 0x400 + c * 0x4
def SWX_QSTAT_FRAMES (p c : Nat) : Fld := ⟨SWX_QSTAT p c, 31, 18⟩
def SWX_QSTAT_CELLS (p c : Nat) : Fld := ⟨SWX_QSTAT p c, 17, 0⟩

def SWX_PORTCFG (p : Nat) : Nat := 0x40A01000 + p * 0x400
def SWX_PORTCFG_LEARN (p : Nat) : Fld := ⟨SWX_PORTCFG p, 16, 16⟩
def SWX_PORTCFG_CBSEN (p : Nat) : Fld := ⟨SWX_PORTCFG p, 15, 8⟩
def SWX_PORTCFG_DEFPCP (p : Nat) : Fld := ⟨SWX_PORTCFG p, 5, 3⟩
def SWX_PORTCFG_CNTCLR (p : Nat) : Fld := ⟨SWX_PORTCFG p, 2, 2⟩
def SWX_PORTCFG_CTEN (p : Nat) : Fld := ⟨SWX_PORTCFG p, 1, 1⟩
def SWX_PORTCFG_FLUSHDOWN (p : Nat) : Fld := ⟨SWX_PORTCFG p, 0, 0⟩

def SWX_PCPMAP (p : Nat) : Nat := 0x40A01004 + p * 0x400
def SWX_PCPMAP_MAP (p : Nat) : Fld := ⟨SWX_PCPMAP p, 23, 0⟩

def SWX_CBS (p c : Nat) : Nat := 0x40A01080 + p * 0x400 + c * 0x4
def SWX_CBS_IDLE (p c : Nat) : Fld := ⟨SWX_CBS p c, 31, 0⟩

def SWX_GCLCFG (p : Nat) : Nat := 0x40A0100C + p * 0x400
def SWX_GCLCFG_AUTORESTART (p : Nat) : Fld := ⟨SWX_GCLCFG p, 17, 17⟩
def SWX_GCLCFG_EN (p : Nat) : Fld := ⟨SWX_GCLCFG p, 16, 16⟩
def SWX_GCLCFG_LEN (p : Nat) : Fld := ⟨SWX_GCLCFG p, 8, 0⟩

def SWX_GCLSTAT (p : Nat) : Nat := 0x40A01010 + p * 0x400
def SWX_GCLSTAT_TRUNC (p : Nat) : Fld := ⟨SWX_GCLSTAT p, 31, 24⟩
def SWX_GCLSTAT_HOLD (p : Nat) : Fld := ⟨SWX_GCLSTAT p, 16, 16⟩
def SWX_GCLSTAT_GATES (p : Nat) : Fld := ⟨SWX_GCLSTAT p, 15, 8⟩
def SWX_GCLSTAT_ENTRY (p : Nat) : Fld := ⟨SWX_GCLSTAT p, 7, 0⟩

def SWX_GCL_CTL (p e : Nat) : Nat := 0x40A10000 + p * 0x1000 + e * 0x8
def SWX_GCL_CTL_OP (p e : Nat) : Fld := ⟨SWX_GCL_CTL p e, 9, 8⟩
def SWX_GCL_CTL_GATES (p e : Nat) : Fld := ⟨SWX_GCL_CTL p e, 7, 0⟩

def SWX_GCL_INT (p e : Nat) : Nat := 0x40A10004 + p * 0x1000 + e * 0x8
def SWX_GCL_INT_INT (p e : Nat) : Fld := ⟨SWX_GCL_INT p e, 30, 0⟩

def SWX_AGE (p c : Nat) : Nat := 0x40A01060 + p * 0x400 + c * 0x4
def SWX_AGE_AGE (p c : Nat) : Fld := ⟨SWX_AGE p c, 19, 0⟩

def SWX_NETCYC (p : Nat) : Nat := 0x40A01008 + p * 0x400
def SWX_NETCYC_NS (p : Nat) : Fld := ⟨SWX_NETCYC p, 30, 0⟩

def SWX_FC_CFG (f : Nat) : Nat := 0x40A20000 + f * 0x40
def SWX_FC_CFG_VALID (f : Nat) : Fld := ⟨SWX_FC_CFG f, 31, 31⟩
def SWX_FC_CFG_CLASS (f : Nat) : Fld := ⟨SWX_FC_CFG f, 30, 28⟩
def SWX_FC_CFG_CTOK (f : Nat) : Fld := ⟨SWX_FC_CFG f, 27, 27⟩
def SWX_FC_CFG_LTRULE (f : Nat) : Fld := ⟨SWX_FC_CFG f, 26, 25⟩
def SWX_FC_CFG_TAKENOSEQ (f : Nat) : Fld := ⟨SWX_FC_CFG f, 24, 24⟩
def SWX_FC_CFG_CB (f : Nat) : Fld := ⟨SWX_FC_CFG f, 23, 22⟩
def SWX_FC_CFG_BLOCKOVS (f : Nat) : Fld := ⟨SWX_FC_CFG f, 21, 21⟩
def SWX_FC_CFG_MATCH (f : Nat) : Fld := ⟨SWX_FC_CFG f, 19, 18⟩
def SWX_FC_CFG_ALTV (f : Nat) : Fld := ⟨SWX_FC_CFG f, 17, 17⟩
def SWX_FC_CFG_ALTPORT (f : Nat) : Fld := ⟨SWX_FC_CFG f, 16, 12⟩
def SWX_FC_CFG_ANYPORT (f : Nat) : Fld := ⟨SWX_FC_CFG f, 11, 11⟩
def SWX_FC_CFG_INPORT (f : Nat) : Fld := ⟨SWX_FC_CFG f, 4, 0⟩

def SWX_FC_DA_LO (f : Nat) : Nat := 0x40A20004 + f * 0x40
def SWX_FC_DA_LO_ADDR (f : Nat) : Fld := ⟨SWX_FC_DA_LO f, 31, 0⟩

def SWX_FC_DA_HI (f : Nat) : Nat := 0x40A20008 + f * 0x40
def SWX_FC_DA_HI_VID (f : Nat) : Fld := ⟨SWX_FC_DA_HI f, 27, 16⟩
def SWX_FC_DA_HI_ADDR (f : Nat) : Fld := ⟨SWX_FC_DA_HI f, 15, 0⟩

def SWX_FC_EGMASK (f : Nat) : Nat := 0x40A2000C + f * 0x40
def SWX_FC_EGMASK_MASK (f : Nat) : Fld := ⟨SWX_FC_EGMASK f, 31, 0⟩

def SWX_FC_CIR (f : Nat) : Nat := 0x40A20010 + f * 0x40
def SWX_FC_CIR_CIR (f : Nat) : Fld := ⟨SWX_FC_CIR f, 31, 0⟩

def SWX_FC_SDU (f : Nat) : Nat := 0x40A20014 + f * 0x40
def SWX_FC_SDU_CBS (f : Nat) : Fld := ⟨SWX_FC_SDU f, 31, 16⟩
def SWX_FC_SDU_MAXSDU (f : Nat) : Fld := ⟨SWX_FC_SDU f, 13, 0⟩

def SWX_FC_RSV (f : Nat) : Nat := 0x40A20018 + f * 0x40
def SWX_FC_RSV_LATETOL (f : Nat) : Fld := ⟨SWX_FC_RSV f, 31, 16⟩
def SWX_FC_RSV_RSV (f : Nat) : Fld := ⟨SWX_FC_RSV f, 15, 0⟩

def SWX_FC_LTOFF (f : Nat) : Nat := 0x40A2001C + f * 0x40
def SWX_FC_LTOFF_LTOFF (f : Nat) : Fld := ⟨SWX_FC_LTOFF f, 30, 0⟩

def SWX_FC_CBCFG (f : Nat) : Nat := 0x40A20020 + f * 0x40
def SWX_FC_CBCFG_RESETMS (f : Nat) : Fld := ⟨SWX_FC_CBCFG f, 15, 0⟩

def SWX_FC_STAT (f : Nat) : Nat := 0x40A20024 + f * 0x40
def SWX_FC_STAT_BLOCKED (f : Nat) : Fld := ⟨SWX_FC_STAT f, 31, 31⟩
def SWX_FC_STAT_CBRESET (f : Nat) : Fld := ⟨SWX_FC_STAT f, 30, 30⟩
def SWX_FC_STAT_SEQ (f : Nat) : Fld := ⟨SWX_FC_STAT f, 15, 0⟩

/-! ### 05_bluset_engines_dispatcher.md -/

def ENG_CTRL (n : Nat) : Nat := 0x41000000 + n * 0x10000
def ENG_CTRL_THEN (n : Nat) : Fld := ⟨ENG_CTRL n, 7, 4⟩
def ENG_CTRL_INIT (n : Nat) : Fld := ⟨ENG_CTRL n, 2, 2⟩
def ENG_CTRL_RST (n : Nat) : Fld := ⟨ENG_CTRL n, 1, 1⟩
def ENG_CTRL_RUN (n : Nat) : Fld := ⟨ENG_CTRL n, 0, 0⟩

def ENG_STAT (n : Nat) : Nat := 0x41000004 + n * 0x10000
def ENG_STAT_OUTST (n : Nat) : Fld := ⟨ENG_STAT n, 30, 24⟩
def ENG_STAT_MEMREF (n : Nat) : Fld := ⟨ENG_STAT n, 18, 18⟩
def ENG_STAT_LATEWR (n : Nat) : Fld := ⟨ENG_STAT n, 17, 17⟩
def ENG_STAT_PERMDENY (n : Nat) : Fld := ⟨ENG_STAT n, 16, 16⟩
def ENG_STAT_WINBUSY (n : Nat) : Fld := ⟨ENG_STAT n, 15, 12⟩
def ENG_STAT_TST (n : Nat) : Fld := ⟨ENG_STAT n, 11, 0⟩

def ENG_MEMADDR (n : Nat) : Nat := 0x41000008 + n * 0x10000
def ENG_MEMADDR_SPACE (n : Nat) : Fld := ⟨ENG_MEMADDR n, 31, 30⟩
def ENG_MEMADDR_ADDR (n : Nat) : Fld := ⟨ENG_MEMADDR n, 16, 0⟩

def ENG_MEMDATA (n : Nat) : Nat := 0x4100000C + n * 0x10000
def ENG_MEMDATA_DATA (n : Nat) : Fld := ⟨ENG_MEMDATA n, 31, 0⟩

def ENG_PERMR (n : Nat) : Nat := 0x41000010 + n * 0x10000
def ENG_PERMR_MASK (n : Nat) : Fld := ⟨ENG_PERMR n, 21, 0⟩

def ENG_PERMW (n : Nat) : Nat := 0x41000014 + n * 0x10000
def ENG_PERMW_MASK (n : Nat) : Fld := ⟨ENG_PERMW n, 21, 0⟩

def DISP_CLCFG : Nat := 0x41100000
def DISP_CLCFG_J16 : Fld := ⟨DISP_CLCFG, 14, 14⟩
def DISP_CLCFG_J8 : Fld := ⟨DISP_CLCFG, 13, 12⟩
def DISP_CLCFG_J4 : Fld := ⟨DISP_CLCFG, 11, 8⟩
def DISP_CLCFG_J2 : Fld := ⟨DISP_CLCFG, 7, 0⟩

def DISP_STAT : Nat := 0x41100004
def DISP_STAT_TOKOVF : Fld := ⟨DISP_STAT, 18, 18⟩
def DISP_STAT_CLREF : Fld := ⟨DISP_STAT, 16, 16⟩
def DISP_STAT_OCC : Fld := ⟨DISP_STAT, 12, 0⟩

def DISP_CAP (k l : Nat) : Nat := 0x41100100 + k * 0x20 + l * 0x4
def DISP_CAP_OCC (k l : Nat) : Fld := ⟨DISP_CAP k l, 28, 16⟩
def DISP_CAP_CAP (k l : Nat) : Fld := ⟨DISP_CAP k l, 12, 0⟩

def DISP_ENTRY (k s : Nat) : Nat := 0x41100400 + k * 0x20 + s * 0x4
def DISP_ENTRY_INPUT (k s : Nat) : Fld := ⟨DISP_ENTRY k s, 29, 27⟩
def DISP_ENTRY_NODE (k s : Nat) : Fld := ⟨DISP_ENTRY k s, 26, 18⟩
def DISP_ENTRY_TOKEN (k s : Nat) : Fld := ⟨DISP_ENTRY k s, 17, 17⟩
def DISP_ENTRY_LEVEL (k s : Nat) : Fld := ⟨DISP_ENTRY k s, 16, 14⟩
def DISP_ENTRY_ENTRY (k s : Nat) : Fld := ⟨DISP_ENTRY k s, 13, 0⟩

def DISP_TMR_PER (i : Nat) : Nat := 0x41100800 + i * 0x8
def DISP_TMR_PER_NS (i : Nat) : Fld := ⟨DISP_TMR_PER i, 30, 0⟩

def DISP_TMR_CFG (i : Nat) : Nat := 0x41100804 + i * 0x8
def DISP_TMR_CFG_EN (i : Nat) : Fld := ⟨DISP_TMR_CFG i, 31, 31⟩
def DISP_TMR_CFG_CLUSTER (i : Nat) : Fld := ⟨DISP_TMR_CFG i, 27, 24⟩
def DISP_TMR_CFG_ARG (i : Nat) : Fld := ⟨DISP_TMR_CFG i, 15, 0⟩

def DISP_SWPOST (w : Nat) : Nat := 0x41100900 + w * 0x4
def DISP_SWPOST_WORD (w : Nat) : Fld := ⟨DISP_SWPOST w, 31, 0⟩

def DISP_SWRES : Nat := 0x41100910
def DISP_SWRES_RES : Fld := ⟨DISP_SWRES, 1, 0⟩

def DISP_HELD (s : Nat) : Nat := 0x41100C00 + s * 0x4
def DISP_HELD_CNT (s : Nat) : Fld := ⟨DISP_HELD s, 31, 0⟩

/-! ### 08_can_timetriggered.md -/

def CAN_NBT (n : Nat) : Nat := 0x41400008 + n * 0x10000
def CAN_NBT_SJWM1 (n : Nat) : Fld := ⟨CAN_NBT n, 30, 24⟩
def CAN_NBT_TSEG2M1 (n : Nat) : Fld := ⟨CAN_NBT n, 22, 16⟩
def CAN_NBT_TSEG1M1 (n : Nat) : Fld := ⟨CAN_NBT n, 15, 8⟩
def CAN_NBT_BRPM1 (n : Nat) : Fld := ⟨CAN_NBT n, 7, 0⟩

def CAN_DBT (n : Nat) : Nat := 0x4140000C + n * 0x10000
def CAN_DBT_SJWM1 (n : Nat) : Fld := ⟨CAN_DBT n, 27, 24⟩
def CAN_DBT_TSEG2M1 (n : Nat) : Fld := ⟨CAN_DBT n, 19, 16⟩
def CAN_DBT_TSEG1M1 (n : Nat) : Fld := ⟨CAN_DBT n, 12, 8⟩
def CAN_DBT_BRPM1 (n : Nat) : Fld := ⟨CAN_DBT n, 4, 0⟩

def CAN_TDC (n : Nat) : Nat := 0x41400028 + n * 0x10000
def CAN_TDC_TDCV (n : Nat) : Fld := ⟨CAN_TDC n, 22, 16⟩
def CAN_TDC_EN (n : Nat) : Fld := ⟨CAN_TDC n, 15, 15⟩
def CAN_TDC_TDCO (n : Nat) : Fld := ⟨CAN_TDC n, 6, 0⟩

def CAN_CTRL (n : Nat) : Nat := 0x41400000 + n * 0x10000
def CAN_CTRL_TTRESTART (n : Nat) : Fld := ⟨CAN_CTRL n, 8, 8⟩
def CAN_CTRL_TTEN (n : Nat) : Fld := ⟨CAN_CTRL n, 7, 7⟩
def CAN_CTRL_SELFRX (n : Nat) : Fld := ⟨CAN_CTRL n, 6, 6⟩
def CAN_CTRL_BOREC (n : Nat) : Fld := ⟨CAN_CTRL n, 5, 5⟩
def CAN_CTRL_ABOM (n : Nat) : Fld := ⟨CAN_CTRL n, 4, 4⟩
def CAN_CTRL_MON (n : Nat) : Fld := ⟨CAN_CTRL n, 3, 3⟩
def CAN_CTRL_FDEN (n : Nat) : Fld := ⟨CAN_CTRL n, 1, 1⟩
def CAN_CTRL_INIT (n : Nat) : Fld := ⟨CAN_CTRL n, 0, 0⟩

def CAN_STAT (n : Nat) : Nat := 0x41400004 + n * 0x10000
def CAN_STAT_TDCSAT (n : Nat) : Fld := ⟨CAN_STAT n, 9, 9⟩
def CAN_STAT_BORUN (n : Nat) : Fld := ⟨CAN_STAT n, 8, 8⟩
def CAN_STAT_INITACK (n : Nat) : Fld := ⟨CAN_STAT n, 7, 7⟩
def CAN_STAT_BADTIM (n : Nat) : Fld := ⟨CAN_STAT n, 6, 6⟩
def CAN_STAT_RXING (n : Nat) : Fld := ⟨CAN_STAT n, 5, 5⟩
def CAN_STAT_TXING (n : Nat) : Fld := ⟨CAN_STAT n, 4, 4⟩
def CAN_STAT_IDLE (n : Nat) : Fld := ⟨CAN_STAT n, 3, 3⟩
def CAN_STAT_EWARN (n : Nat) : Fld := ⟨CAN_STAT n, 2, 2⟩
def CAN_STAT_FCS (n : Nat) : Fld := ⟨CAN_STAT n, 1, 0⟩

def CAN_MO_CFG (n m : Nat) : Nat := 0x41404000 + n * 0x10000 + m * 0x80
def CAN_MO_CFG_RETRY (n m : Nat) : Fld := ⟨CAN_MO_CFG n m, 7, 4⟩
def CAN_MO_CFG_TTMODE (n m : Nat) : Fld := ⟨CAN_MO_CFG n m, 3, 2⟩
def CAN_MO_CFG_DIR (n m : Nat) : Fld := ⟨CAN_MO_CFG n m, 1, 1⟩
def CAN_MO_CFG_VALID (n m : Nat) : Fld := ⟨CAN_MO_CFG n m, 0, 0⟩

def CAN_MO_ID (n m : Nat) : Nat := 0x41404004 + n * 0x10000 + m * 0x80
def CAN_MO_ID_RTR (n m : Nat) : Fld := ⟨CAN_MO_ID n m, 30, 30⟩
def CAN_MO_ID_IDE (n m : Nat) : Fld := ⟨CAN_MO_ID n m, 29, 29⟩
def CAN_MO_ID_ID (n m : Nat) : Fld := ⟨CAN_MO_ID n m, 28, 0⟩

def CAN_MO_FMT (n m : Nat) : Nat := 0x41404008 + n * 0x10000 + m * 0x80
def CAN_MO_FMT_ESI (n m : Nat) : Fld := ⟨CAN_MO_FMT n m, 6, 6⟩
def CAN_MO_FMT_BRS (n m : Nat) : Fld := ⟨CAN_MO_FMT n m, 5, 5⟩
def CAN_MO_FMT_FDF (n m : Nat) : Fld := ⟨CAN_MO_FMT n m, 4, 4⟩
def CAN_MO_FMT_DLC (n m : Nat) : Fld := ⟨CAN_MO_FMT n m, 3, 0⟩

def CAN_MO_TS (n m : Nat) : Nat := 0x4140400C + n * 0x10000 + m * 0x80
def CAN_MO_TS_TS (n m : Nat) : Fld := ⟨CAN_MO_TS n m, 31, 0⟩

def CAN_MO_TTS (n m : Nat) : Nat := 0x41404010 + n * 0x10000 + m * 0x80
def CAN_MO_TTS_CYC (n m : Nat) : Fld := ⟨CAN_MO_TTS n m, 21, 16⟩
def CAN_MO_TTS_CT (n m : Nat) : Fld := ⟨CAN_MO_TTS n m, 15, 0⟩

def CAN_MO_STAT (n m : Nat) : Nat := 0x41404014 + n * 0x10000 + m * 0x80
def CAN_MO_STAT_WIGN (n m : Nat) : Fld := ⟨CAN_MO_STAT n m, 12, 12⟩
def CAN_MO_STAT_TRIES (n m : Nat) : Fld := ⟨CAN_MO_STAT n m, 11, 8⟩
def CAN_MO_STAT_TXRES (n m : Nat) : Fld := ⟨CAN_MO_STAT n m, 7, 5⟩
def CAN_MO_STAT_TXREQ (n m : Nat) : Fld := ⟨CAN_MO_STAT n m, 4, 4⟩
def CAN_MO_STAT_OVERRUN (n m : Nat) : Fld := ⟨CAN_MO_STAT n m, 3, 3⟩
def CAN_MO_STAT_SHADOW (n m : Nat) : Fld := ⟨CAN_MO_STAT n m, 2, 2⟩
def CAN_MO_STAT_FULL (n m : Nat) : Fld := ⟨CAN_MO_STAT n m, 1, 1⟩
def CAN_MO_STAT_LOCKED (n m : Nat) : Fld := ⟨CAN_MO_STAT n m, 0, 0⟩

def CAN_MO_CMD (n m : Nat) : Nat := 0x41404018 + n * 0x10000 + m * 0x80
def CAN_MO_CMD_TXABORT (n m : Nat) : Fld := ⟨CAN_MO_CMD n m, 4, 4⟩
def CAN_MO_CMD_TXREQ (n m : Nat) : Fld := ⟨CAN_MO_CMD n m, 3, 3⟩
def CAN_MO_CMD_RELEASE (n m : Nat) : Fld := ⟨CAN_MO_CMD n m, 2, 2⟩
def CAN_MO_CMD_UNLOCK (n m : Nat) : Fld := ⟨CAN_MO_CMD n m, 1, 1⟩
def CAN_MO_CMD_LOCK (n m : Nat) : Fld := ⟨CAN_MO_CMD n m, 0, 0⟩

def CAN_MO_DATA (n m k : Nat) : Nat := 0x41404040 + n * 0x10000 + m * 0x80 + k * 0x4
def CAN_MO_DATA_DATA (n m k : Nat) : Fld := ⟨CAN_MO_DATA n m k, 31, 0⟩

def CAN_RXRING (n : Nat) : Nat := 0x41400024 + n * 0x10000
def CAN_RXRING_COUNT (n : Nat) : Fld := ⟨CAN_RXRING n, 15, 8⟩
def CAN_RXRING_NEXT (n : Nat) : Fld := ⟨CAN_RXRING n, 6, 0⟩

def CAN_ERR (n : Nat) : Nat := 0x41400010 + n * 0x10000
def CAN_ERR_REC (n : Nat) : Fld := ⟨CAN_ERR n, 23, 16⟩
def CAN_ERR_TEC (n : Nat) : Fld := ⟨CAN_ERR n, 8, 0⟩

def CAN_ERRLOG (n : Nat) : Nat := 0x41400014 + n * 0x10000
def CAN_ERRLOG_DPH (n : Nat) : Fld := ⟨CAN_ERRLOG n, 3, 3⟩
def CAN_ERRLOG_LEC (n : Nat) : Fld := ⟨CAN_ERRLOG n, 2, 0⟩

def CAN_IRQ (n : Nat) : Nat := 0x41400018 + n * 0x10000
def CAN_IRQ_REFMISS (n : Nat) : Fld := ⟨CAN_IRQ n, 13, 13⟩
def CAN_IRQ_DRIFT (n : Nat) : Fld := ⟨CAN_IRQ n, 12, 12⟩
def CAN_IRQ_STARTFAIL (n : Nat) : Fld := ⟨CAN_IRQ n, 11, 11⟩
def CAN_IRQ_WITHHELD (n : Nat) : Fld := ⟨CAN_IRQ n, 10, 10⟩
def CAN_IRQ_GRDCUT (n : Nat) : Fld := ⟨CAN_IRQ n, 9, 9⟩
def CAN_IRQ_TTEMPTY (n : Nat) : Fld := ⟨CAN_IRQ n, 8, 8⟩
def CAN_IRQ_TTSTATE (n : Nat) : Fld := ⟨CAN_IRQ n, 7, 7⟩
def CAN_IRQ_OVERRUN (n : Nat) : Fld := ⟨CAN_IRQ n, 6, 6⟩
def CAN_IRQ_BOREC (n : Nat) : Fld := ⟨CAN_IRQ n, 5, 5⟩
def CAN_IRQ_BUSOFF (n : Nat) : Fld := ⟨CAN_IRQ n, 4, 4⟩
def CAN_IRQ_EPASS (n : Nat) : Fld := ⟨CAN_IRQ n, 3, 3⟩
def CAN_IRQ_EWARN (n : Nat) : Fld := ⟨CAN_IRQ n, 2, 2⟩
def CAN_IRQ_TXDONE (n : Nat) : Fld := ⟨CAN_IRQ n, 1, 1⟩
def CAN_IRQ_RXNEW (n : Nat) : Fld := ⟨CAN_IRQ n, 0, 0⟩

def CAN_IEN (n : Nat) : Nat := 0x4140001C + n * 0x10000
def CAN_IEN_EN (n : Nat) : Fld := ⟨CAN_IEN n, 13, 0⟩

def CAN_NOTIFY (n : Nat) : Nat := 0x41400020 + n * 0x10000
def CAN_NOTIFY_EN (n : Nat) : Fld := ⟨CAN_NOTIFY n, 31, 31⟩
def CAN_NOTIFY_DB (n : Nat) : Fld := ⟨CAN_NOTIFY n, 12, 8⟩
def CAN_NOTIFY_RCV (n : Nat) : Fld := ⟨CAN_NOTIFY n, 7, 0⟩

def CAN_TT_CFG (n : Nat) : Nat := 0x41400100 + n * 0x10000
def CAN_TT_CFG_CYCLOG (n : Nat) : Fld := ⟨CAN_TT_CFG n, 22, 20⟩
def CAN_TT_CFG_NODE (n : Nat) : Fld := ⟨CAN_TT_CFG n, 17, 12⟩
def CAN_TT_CFG_PM (n : Nat) : Fld := ⟨CAN_TT_CFG n, 11, 11⟩
def CAN_TT_CFG_REFID (n : Nat) : Fld := ⟨CAN_TT_CFG n, 10, 0⟩

def CAN_TT_TIME (n : Nat) : Nat := 0x41400104 + n * 0x10000
def CAN_TT_TIME_NWINM1 (n : Nat) : Fld := ⟨CAN_TT_TIME n, 28, 24⟩
def CAN_TT_TIME_GUARD (n : Nat) : Fld := ⟨CAN_TT_TIME n, 21, 16⟩
def CAN_TT_TIME_CYCLEN (n : Nat) : Fld := ⟨CAN_TT_TIME n, 15, 0⟩

def CAN_TT_START (n : Nat) : Nat := 0x41400108 + n * 0x10000
def CAN_TT_START_DRIFTLIM (n : Nat) : Fld := ⟨CAN_TT_START n, 31, 16⟩
def CAN_TT_START_STARTWAIT (n : Nat) : Fld := ⟨CAN_TT_START n, 15, 0⟩

def CAN_TT_STAT (n : Nat) : Nat := 0x4140010C + n * 0x10000
def CAN_TT_STAT_CT (n : Nat) : Fld := ⟨CAN_TT_STAT n, 31, 16⟩
def CAN_TT_STAT_COLL (n : Nat) : Fld := ⟨CAN_TT_STAT n, 15, 13⟩
def CAN_TT_STAT_MRANK (n : Nat) : Fld := ⟨CAN_TT_STAT n, 12, 10⟩
def CAN_TT_STAT_CYC (n : Nat) : Fld := ⟨CAN_TT_STAT n, 9, 4⟩
def CAN_TT_STAT_STATE (n : Nat) : Fld := ⟨CAN_TT_STAT n, 3, 0⟩

def CAN_TT_DRIFT (n : Nat) : Nat := 0x41400110 + n * 0x10000
def CAN_TT_DRIFT_D (n : Nat) : Fld := ⟨CAN_TT_DRIFT n, 31, 0⟩

def CAN_TT_WIN (n w : Nat) : Nat := 0x41400180 + n * 0x10000 + w * 0x4
def CAN_TT_WIN_MARK (n w : Nat) : Fld := ⟨CAN_TT_WIN n w, 15, 0⟩

def CAN_TT_EMPTY (n w : Nat) : Nat := 0x41400200 + n * 0x10000 + w * 0x4
def CAN_TT_EMPTY_CNT (n w : Nat) : Fld := ⟨CAN_TT_EMPTY n w, 15, 0⟩

def CAN_GT_MARK (n w : Nat) : Nat := 0x41400300 + n * 0x10000 + w * 0x10
def CAN_GT_MARK_MARK (n w : Nat) : Fld := ⟨CAN_GT_MARK n w, 15, 0⟩

def CAN_GT_MASK_LO (n w : Nat) : Nat := 0x41400304 + n * 0x10000 + w * 0x10
def CAN_GT_MASK_LO_MASK (n w : Nat) : Fld := ⟨CAN_GT_MASK_LO n w, 31, 0⟩

def CAN_GT_MASK_HI (n w : Nat) : Nat := 0x41400308 + n * 0x10000 + w * 0x10
def CAN_GT_MASK_HI_MASK (n w : Nat) : Fld := ⟨CAN_GT_MASK_HI n w, 31, 0⟩

def CAN_TT_CELL (n c v : Nat) : Nat := 0x41402000 + n * 0x10000 + c * 0x40 + v * 0x4
def CAN_TT_CELL_TYPE1 (n c v : Nat) : Fld := ⟨CAN_TT_CELL n c v, 31, 30⟩
def CAN_TT_CELL_OBJ1 (n c v : Nat) : Fld := ⟨CAN_TT_CELL n c v, 22, 16⟩
def CAN_TT_CELL_TYPE0 (n c v : Nat) : Fld := ⟨CAN_TT_CELL n c v, 15, 14⟩
def CAN_TT_CELL_OBJ0 (n c v : Nat) : Fld := ⟨CAN_TT_CELL n c v, 6, 0⟩

/-! ### 09_nutmeg_cells.md -/

def NUT_CTRL (c : Nat) : Nat := 0x41500000 + c * 0x1000
def NUT_CTRL_FIEN (c : Nat) : Fld := ⟨NUT_CTRL c, 27, 16⟩
def NUT_CTRL_QCLR (c : Nat) : Fld := ⟨NUT_CTRL c, 3, 3⟩
def NUT_CTRL_SWSTART (c : Nat) : Fld := ⟨NUT_CTRL c, 2, 2⟩
def NUT_CTRL_ARM (c : Nat) : Fld := ⟨NUT_CTRL c, 1, 1⟩
def NUT_CTRL_EN (c : Nat) : Fld := ⟨NUT_CTRL c, 0, 0⟩

def NUT_STAT (c : Nat) : Nat := 0x41500004 + c * 0x1000
def NUT_STAT_STATE (c : Nat) : Fld := ⟨NUT_STAT c, 31, 29⟩
def NUT_STAT_PC (c : Nat) : Fld := ⟨NUT_STAT c, 28, 24⟩
def NUT_STAT_SRN (c : Nat) : Fld := ⟨NUT_STAT c, 23, 18⟩
def NUT_STAT_TXN (c : Nat) : Fld := ⟨NUT_STAT c, 17, 13⟩
def NUT_STAT_RXN (c : Nat) : Fld := ⟨NUT_STAT c, 12, 8⟩
def NUT_STAT_INJPEND (c : Nat) : Fld := ⟨NUT_STAT c, 4, 4⟩
def NUT_STAT_STARTPEND (c : Nat) : Fld := ⟨NUT_STAT c, 3, 3⟩
def NUT_STAT_PINS (c : Nat) : Fld := ⟨NUT_STAT c, 2, 0⟩

def NUT_FLAGS (c : Nat) : Nat := 0x41500008 + c * 0x1000
def NUT_FLAGS_PROGREF (c : Nat) : Fld := ⟨NUT_FLAGS c, 11, 11⟩
def NUT_FLAGS_ZEV (c : Nat) : Fld := ⟨NUT_FLAGS c, 10, 10⟩
def NUT_FLAGS_QERR (c : Nat) : Fld := ⟨NUT_FLAGS c, 9, 9⟩
def NUT_FLAGS_INJLOST (c : Nat) : Fld := ⟨NUT_FLAGS c, 8, 8⟩
def NUT_FLAGS_STARTOVR (c : Nat) : Fld := ⟨NUT_FLAGS c, 7, 7⟩
def NUT_FLAGS_ILLEGAL (c : Nat) : Fld := ⟨NUT_FLAGS c, 6, 6⟩
def NUT_FLAGS_TIMEOUT (c : Nat) : Fld := ⟨NUT_FLAGS c, 5, 5⟩
def NUT_FLAGS_ABORTED (c : Nat) : Fld := ⟨NUT_FLAGS c, 4, 4⟩
def NUT_FLAGS_RXOVF (c : Nat) : Fld := ⟨NUT_FLAGS c, 3, 3⟩
def NUT_FLAGS_RXUNF (c : Nat) : Fld := ⟨NUT_FLAGS c, 2, 2⟩
def NUT_FLAGS_TXOVF (c : Nat) : Fld := ⟨NUT_FLAGS c, 1, 1⟩
def NUT_FLAGS_TXUNF (c : Nat) : Fld := ⟨NUT_FLAGS c, 0, 0⟩

def NUT_CFG (c : Nat) : Nat := 0x4150000C + c * 0x1000
def NUT_CFG_CLUSTER (c : Nat) : Fld := ⟨NUT_CFG c, 27, 24⟩
def NUT_CFG_JOIN (c : Nat) : Fld := ⟨NUT_CFG c, 17, 16⟩
def NUT_CFG_CMPW (c : Nat) : Fld := ⟨NUT_CFG c, 15, 14⟩
def NUT_CFG_CMPM (c : Nat) : Fld := ⟨NUT_CFG c, 13, 12⟩
def NUT_CFG_FILT (c : Nat) : Fld := ⟨NUT_CFG c, 11, 8⟩
def NUT_CFG_ZCAP (c : Nat) : Fld := ⟨NUT_CFG c, 7, 7⟩
def NUT_CFG_POSOUT (c : Nat) : Fld := ⟨NUT_CFG c, 6, 6⟩
def NUT_CFG_CNTRST (c : Nat) : Fld := ⟨NUT_CFG c, 5, 5⟩
def NUT_CFG_CMODE (c : Nat) : Fld := ⟨NUT_CFG c, 4, 2⟩
def NUT_CFG_CPOL (c : Nat) : Fld := ⟨NUT_CFG c, 1, 1⟩
def NUT_CFG_LSBF (c : Nat) : Fld := ⟨NUT_CFG c, 0, 0⟩

def NUT_CLK (c : Nat) : Nat := 0x41500010 + c * 0x1000
def NUT_CLK_SPH (c : Nat) : Fld := ⟨NUT_CLK c, 31, 16⟩
def NUT_CLK_DIVM1 (c : Nat) : Fld := ⟨NUT_CLK c, 15, 0⟩

def NUT_PINCFG (c : Nat) : Nat := 0x41500014 + c * 0x1000
def NUT_PINCFG_AUXSEL (c : Nat) : Fld := ⟨NUT_PINCFG c, 29, 24⟩
def NUT_PINCFG_ISEL (c : Nat) : Fld := ⟨NUT_PINCFG c, 17, 16⟩
def NUT_PINCFG_PINB (c : Nat) : Fld := ⟨NUT_PINCFG c, 15, 8⟩
def NUT_PINCFG_PINA (c : Nat) : Fld := ⟨NUT_PINCFG c, 7, 0⟩

def NUT_WDOG (c : Nat) : Nat := 0x41500018 + c * 0x1000
def NUT_WDOG_VEC (c : Nat) : Fld := ⟨NUT_WDOG c, 20, 16⟩
def NUT_WDOG_LIMIT (c : Nat) : Fld := ⟨NUT_WDOG c, 15, 0⟩

def NUT_CRCCFG (c : Nat) : Nat := 0x4150001C + c * 0x1000
def NUT_CRCCFG_LENM1 (c : Nat) : Fld := ⟨NUT_CRCCFG c, 31, 28⟩
def NUT_CRCCFG_POLY (c : Nat) : Fld := ⟨NUT_CRCCFG c, 15, 0⟩

def NUT_CRCVAL (c : Nat) : Nat := 0x41500020 + c * 0x1000
def NUT_CRCVAL_CHK (c : Nat) : Fld := ⟨NUT_CRCVAL c, 31, 16⟩
def NUT_CRCVAL_INIT (c : Nat) : Fld := ⟨NUT_CRCVAL c, 15, 0⟩

def NUT_CRCST (c : Nat) : Nat := 0x41500024 + c * 0x1000
def NUT_CRCST_CRCST (c : Nat) : Fld := ⟨NUT_CRCST c, 15, 0⟩

def NUT_SR (c : Nat) : Nat := 0x41500028 + c * 0x1000
def NUT_SR_SR (c : Nat) : Fld := ⟨NUT_SR c, 31, 0⟩

def NUT_CNT (c : Nat) : Nat := 0x4150002C + c * 0x1000
def NUT_CNT_CNT (c : Nat) : Fld := ⟨NUT_CNT c, 31, 0⟩

def NUT_CMP (c : Nat) : Nat := 0x41500030 + c * 0x1000
def NUT_CMP_CMP (c : Nat) : Fld := ⟨NUT_CMP c, 31, 0⟩

def NUT_PER (c : Nat) : Nat := 0x41500034 + c * 0x1000
def NUT_PER_PER (c : Nat) : Fld := ⟨NUT_PER c, 31, 0⟩

def NUT_X (c : Nat) : Nat := 0x41500038 + c * 0x1000
def NUT_X_X (c : Nat) : Fld := ⟨NUT_X c, 15, 0⟩

def NUT_BC (c : Nat) : Nat := 0x4150003C + c * 0x1000
def NUT_BC_BC (c : Nat) : Fld := ⟨NUT_BC c, 15, 0⟩

def NUT_TXQ (c : Nat) : Nat := 0x41500040 + c * 0x1000
def NUT_TXQ_TXQ (c : Nat) : Fld := ⟨NUT_TXQ c, 31, 0⟩

def NUT_RXQ (c : Nat) : Nat := 0x41500044 + c * 0x1000
def NUT_RXQ_RXQ (c : Nat) : Fld := ⟨NUT_RXQ c, 31, 0⟩

def NUT_INJ (c : Nat) : Nat := 0x41500048 + c * 0x1000
def NUT_INJ_PEND (c : Nat) : Fld := ⟨NUT_INJ c, 31, 31⟩
def NUT_INJ_FORCE (c : Nat) : Fld := ⟨NUT_INJ c, 16, 16⟩
def NUT_INJ_INSTR (c : Nat) : Fld := ⟨NUT_INJ c, 15, 0⟩

def NUT_POS (c : Nat) : Nat := 0x4150004C + c * 0x1000
def NUT_POS_POS (c : Nat) : Fld := ⟨NUT_POS c, 31, 0⟩

def NUT_POSTS (c : Nat) : Nat := 0x41500050 + c * 0x1000
def NUT_POSTS_POSTS (c : Nat) : Fld := ⟨NUT_POSTS c, 31, 0⟩

def NUT_CAPT (c : Nat) : Nat := 0x41500054 + c * 0x1000
def NUT_CAPT_CAPT (c : Nat) : Fld := ⟨NUT_CAPT c, 31, 0⟩

def NUT_CAPTTS (c : Nat) : Nat := 0x41500058 + c * 0x1000
def NUT_CAPTTS_CAPTTS (c : Nat) : Fld := ⟨NUT_CAPTTS c, 31, 0⟩

def NUT_STARTTS (c : Nat) : Nat := 0x4150005C + c * 0x1000
def NUT_STARTTS_STARTTS (c : Nat) : Fld := ⟨NUT_STARTTS c, 31, 0⟩

def NUT_MARKTS (c : Nat) : Nat := 0x41500060 + c * 0x1000
def NUT_MARKTS_MARKTS (c : Nat) : Fld := ⟨NUT_MARKTS c, 31, 0⟩

def NUT_PROG (c i : Nat) : Nat := 0x41500080 + c * 0x1000 + i * 0x4
def NUT_PROG_INSTR (c i : Nat) : Fld := ⟨NUT_PROG c i, 15, 0⟩

/-! ### 10_cardamom_loops.md -/

def LOOP_NVMAP (n : Nat) : Nat := 0x41200040 + n * 0x4
def LOOP_NVMAP_BASE (n : Nat) : Fld := ⟨LOOP_NVMAP n, 5, 0⟩

def LOOP_TSG_CTRL : Nat := 0x41200100
def LOOP_TSG_CTRL_HOLDM1 : Fld := ⟨LOOP_TSG_CTRL, 31, 20⟩
def LOOP_TSG_CTRL_ORD : Fld := ⟨LOOP_TSG_CTRL, 17, 15⟩
def LOOP_TSG_CTRL_POINT : Fld := ⟨LOOP_TSG_CTRL, 14, 12⟩
def LOOP_TSG_CTRL_CTX : Fld := ⟨LOOP_TSG_CTRL, 11, 4⟩
def LOOP_TSG_CTRL_REPEAT : Fld := ⟨LOOP_TSG_CTRL, 3, 3⟩
def LOOP_TSG_CTRL_MODE : Fld := ⟨LOOP_TSG_CTRL, 2, 1⟩
def LOOP_TSG_CTRL_EN : Fld := ⟨LOOP_TSG_CTRL, 0, 0⟩

def LOOP_TSG_AMP : Nat := 0x41200104
def LOOP_TSG_AMP_AMP : Fld := ⟨LOOP_TSG_AMP, 31, 0⟩

def LOOP_TSG_F0 : Nat := 0x41200108
def LOOP_TSG_F0_F0 : Fld := ⟨LOOP_TSG_F0, 31, 0⟩

def LOOP_TSG_F1 : Nat := 0x4120010C
def LOOP_TSG_F1_F1 : Fld := ⟨LOOP_TSG_F1, 31, 0⟩

def LOOP_TSG_N : Nat := 0x41200110
def LOOP_TSG_N_N : Fld := ⟨LOOP_TSG_N, 31, 0⟩

def LOOP_TSG_STAT : Nat := 0x41200114
def LOOP_TSG_STAT_SAMPLES : Fld := ⟨LOOP_TSG_STAT, 31, 8⟩
def LOOP_TSG_STAT_ACTIVE : Fld := ⟨LOOP_TSG_STAT, 0, 0⟩

def LOOP_CAP_CTRL : Nat := 0x41200200
def LOOP_CAP_CTRL_DECIMM1 : Fld := ⟨LOOP_CAP_CTRL, 18, 11⟩
def LOOP_CAP_CTRL_CTX : Fld := ⟨LOOP_CAP_CTRL, 10, 3⟩
def LOOP_CAP_CTRL_ONTSG : Fld := ⟨LOOP_CAP_CTRL, 2, 2⟩
def LOOP_CAP_CTRL_RING : Fld := ⟨LOOP_CAP_CTRL, 1, 1⟩
def LOOP_CAP_CTRL_EN : Fld := ⟨LOOP_CAP_CTRL, 0, 0⟩

def LOOP_CAP_SEL : Nat := 0x41200204
def LOOP_CAP_SEL_SEL2 : Fld := ⟨LOOP_CAP_SEL, 23, 16⟩
def LOOP_CAP_SEL_SEL1 : Fld := ⟨LOOP_CAP_SEL, 15, 8⟩
def LOOP_CAP_SEL_SEL0 : Fld := ⟨LOOP_CAP_SEL, 7, 0⟩

def LOOP_CAP_BASE : Nat := 0x41200208
def LOOP_CAP_BASE_BASE : Fld := ⟨LOOP_CAP_BASE, 17, 0⟩

def LOOP_CAP_LEN : Nat := 0x4120020C
def LOOP_CAP_LEN_LEN : Fld := ⟨LOOP_CAP_LEN, 16, 0⟩

def LOOP_CAP_STAT : Nat := 0x41200210
def LOOP_CAP_STAT_BADBUF : Fld := ⟨LOOP_CAP_STAT, 19, 19⟩
def LOOP_CAP_STAT_WRAP : Fld := ⟨LOOP_CAP_STAT, 18, 18⟩
def LOOP_CAP_STAT_DONE : Fld := ⟨LOOP_CAP_STAT, 17, 17⟩
def LOOP_CAP_STAT_RECS : Fld := ⟨LOOP_CAP_STAT, 16, 0⟩

def LOOP_CTX_CTRL (k : Nat) : Nat := 0x41210000 + k * 0x100
def LOOP_CTX_CTRL_STCLR (k : Nat) : Fld := ⟨LOOP_CTX_CTRL k, 3, 3⟩
def LOOP_CTX_CTRL_SWTRIG (k : Nat) : Fld := ⟨LOOP_CTX_CTRL k, 2, 2⟩
def LOOP_CTX_CTRL_AUTO (k : Nat) : Fld := ⟨LOOP_CTX_CTRL k, 1, 1⟩
def LOOP_CTX_CTRL_EN (k : Nat) : Fld := ⟨LOOP_CTX_CTRL k, 0, 0⟩

def LOOP_CTX_CFG (k : Nat) : Nat := 0x41210004 + k * 0x100
def LOOP_CTX_CFG_MANSTG (k : Nat) : Fld := ⟨LOOP_CTX_CFG k, 26, 24⟩
def LOOP_CTX_CFG_TRIGNV (k : Nat) : Fld := ⟨LOOP_CTX_CFG k, 23, 12⟩
def LOOP_CTX_CFG_GROUP (k : Nat) : Fld := ⟨LOOP_CTX_CFG k, 11, 6⟩
def LOOP_CTX_CFG_TRIG (k : Nat) : Fld := ⟨LOOP_CTX_CFG k, 5, 4⟩
def LOOP_CTX_CFG_PRIO (k : Nat) : Fld := ⟨LOOP_CTX_CFG k, 3, 3⟩
def LOOP_CTX_CFG_NSTG (k : Nat) : Fld := ⟨LOOP_CTX_CFG k, 2, 0⟩

def LOOP_CTX_RATE (k : Nat) : Nat := 0x41210008 + k * 0x100
def LOOP_CTX_RATE_RATE (k : Nat) : Fld := ⟨LOOP_CTX_RATE k, 16, 0⟩

def LOOP_CTX_TIMING (k : Nat) : Nat := 0x4121000C + k * 0x100
def LOOP_CTX_TIMING_SKIPLIM (k : Nat) : Fld := ⟨LOOP_CTX_TIMING k, 31, 24⟩
def LOOP_CTX_TIMING_DEADLINE (k : Nat) : Fld := ⟨LOOP_CTX_TIMING k, 23, 0⟩

def LOOP_CTX_STAT (k : Nat) : Nat := 0x41210010 + k * 0x100
def LOOP_CTX_STAT_SKIPSEQ (k : Nat) : Fld := ⟨LOOP_CTX_STAT k, 31, 24⟩
def LOOP_CTX_STAT_SATSTG (k : Nat) : Fld := ⟨LOOP_CTX_STAT k, 23, 20⟩
def LOOP_CTX_STAT_TESTING (k : Nat) : Fld := ⟨LOOP_CTX_STAT k, 12, 12⟩
def LOOP_CTX_STAT_MEMERR (k : Nat) : Fld := ⟨LOOP_CTX_STAT k, 11, 11⟩
def LOOP_CTX_STAT_SATS (k : Nat) : Fld := ⟨LOOP_CTX_STAT k, 10, 10⟩
def LOOP_CTX_STAT_RAMPLIMS (k : Nat) : Fld := ⟨LOOP_CTX_STAT k, 9, 9⟩
def LOOP_CTX_STAT_EXPOVF (k : Nat) : Fld := ⟨LOOP_CTX_STAT k, 8, 8⟩
def LOOP_CTX_STAT_SHDIRTY (k : Nat) : Fld := ⟨LOOP_CTX_STAT k, 7, 7⟩
def LOOP_CTX_STAT_SYNCING (k : Nat) : Fld := ⟨LOOP_CTX_STAT k, 6, 6⟩
def LOOP_CTX_STAT_BANK (k : Nat) : Fld := ⟨LOOP_CTX_STAT k, 5, 5⟩
def LOOP_CTX_STAT_OLIM (k : Nat) : Fld := ⟨LOOP_CTX_STAT k, 4, 4⟩
def LOOP_CTX_STAT_RAMPLIM (k : Nat) : Fld := ⟨LOOP_CTX_STAT k, 3, 3⟩
def LOOP_CTX_STAT_MANACT (k : Nat) : Fld := ⟨LOOP_CTX_STAT k, 2, 2⟩
def LOOP_CTX_STAT_RUN (k : Nat) : Fld := ⟨LOOP_CTX_STAT k, 1, 1⟩
def LOOP_CTX_STAT_PEND (k : Nat) : Fld := ⟨LOOP_CTX_STAT k, 0, 0⟩

def LOOP_CTX_MANOUT (k : Nat) : Nat := 0x41210014 + k * 0x100
def LOOP_CTX_MANOUT_MANOUT (k : Nat) : Fld := ⟨LOOP_CTX_MANOUT k, 31, 0⟩

def LOOP_CTX_LASTTS (k : Nat) : Nat := 0x41210018 + k * 0x100
def LOOP_CTX_LASTTS_LASTTS (k : Nat) : Fld := ⟨LOOP_CTX_LASTTS k, 31, 0⟩

def LOOP_CTX_LASTDUR (k : Nat) : Nat := 0x4121001C + k * 0x100
def LOOP_CTX_LASTDUR_WAIT (k : Nat) : Fld := ⟨LOOP_CTX_LASTDUR k, 31, 16⟩
def LOOP_CTX_LASTDUR_DUR (k : Nat) : Fld := ⟨LOOP_CTX_LASTDUR k, 15, 0⟩

/-! ### 11_saffron_safety.md -/

def SAF_STAT : Nat := 0x41600000
def SAF_STAT_STATE : Fld := ⟨SAF_STAT, 15, 12⟩
def SAF_STAT_LOWPWR : Fld := ⟨SAF_STAT, 7, 7⟩
def SAF_STAT_BTOVER : Fld := ⟨SAF_STAT, 6, 6⟩
def SAF_STAT_BTDUE : Fld := ⟨SAF_STAT, 5, 5⟩
def SAF_STAT_TESTING : Fld := ⟨SAF_STAT, 4, 4⟩
def SAF_STAT_CCVOK : Fld := ⟨SAF_STAT, 3, 3⟩
def SAF_STAT_CONFIRMED : Fld := ⟨SAF_STAT, 2, 2⟩
def SAF_STAT_ENERGISED : Fld := ⟨SAF_STAT, 1, 1⟩
def SAF_STAT_PERMIT : Fld := ⟨SAF_STAT, 0, 0⟩

def SAF_REASON : Nat := 0x41600004
def SAF_REASON_MERGED : Fld := ⟨SAF_REASON, 23, 16⟩
def SAF_REASON_INDEX : Fld := ⟨SAF_REASON, 15, 8⟩
def SAF_REASON_CODE : Fld := ⟨SAF_REASON, 7, 0⟩

def SAF_REASONTS : Nat := 0x41600008
def SAF_REASONTS_TS : Fld := ⟨SAF_REASONTS, 31, 0⟩

def SAF_STAT2 : Nat := 0x4160000C
def SAF_STAT2_FOREIGN : Fld := ⟨SAF_STAT2, 15, 0⟩

def SAF_INPUTS : Nat := 0x41600010
def SAF_INPUTS_CONTACTS : Fld := ⟨SAF_INPUTS, 31, 16⟩
def SAF_INPUTS_PAIR : Fld := ⟨SAF_INPUTS, 15, 0⟩

def SAF_OUTPUTS : Nat := 0x41600014
def SAF_OUTPUTS_FBFLT : Fld := ⟨SAF_OUTPUTS, 15, 12⟩
def SAF_OUTPUTS_FBLEVEL : Fld := ⟨SAF_OUTPUTS, 11, 8⟩
def SAF_OUTPUTS_DELAY : Fld := ⟨SAF_OUTPUTS, 7, 4⟩
def SAF_OUTPUTS_BRAKE : Fld := ⟨SAF_OUTPUTS, 3, 2⟩
def SAF_OUTPUTS_SO : Fld := ⟨SAF_OUTPUTS, 1, 0⟩

def SAF_CCV_A : Nat := 0x41600018
def SAF_CCV_A_CCV : Fld := ⟨SAF_CCV_A, 31, 0⟩

def SAF_CCV_B : Nat := 0x4160001C
def SAF_CCV_B_CCV : Fld := ⟨SAF_CCV_B, 31, 0⟩

def SAF_CCV_CONF : Nat := 0x41600020
def SAF_CCV_CONF_CCV : Fld := ⟨SAF_CCV_CONF, 31, 0⟩

def SAF_BTEST (b : Nat) : Nat := 0x41600024 + b * 0x4
def SAF_BTEST_HOURS (b : Nat) : Fld := ⟨SAF_BTEST b, 31, 16⟩
def SAF_BTEST_RESULT (b : Nat) : Fld := ⟨SAF_BTEST b, 3, 0⟩

def SAF_BTDEV (b : Nat) : Nat := 0x4160002C + b * 0x4
def SAF_BTDEV_DEV (b : Nat) : Fld := ⟨SAF_BTDEV b, 31, 0⟩

def SAF_CONN_STAT (k : Nat) : Nat := 0x41600100 + k * 0x10
def SAF_CONN_STAT_ENABLE (k : Nat) : Fld := ⟨SAF_CONN_STAT k, 6, 6⟩
def SAF_CONN_STAT_FAILSAFE (k : Nat) : Fld := ⟨SAF_CONN_STAT k, 5, 5⟩
def SAF_CONN_STAT_BDOWN (k : Nat) : Fld := ⟨SAF_CONN_STAT k, 4, 4⟩
def SAF_CONN_STAT_ADOWN (k : Nat) : Fld := ⟨SAF_CONN_STAT k, 3, 3⟩
def SAF_CONN_STAT_STATE (k : Nat) : Fld := ⟨SAF_CONN_STAT k, 2, 0⟩

def SAF_CONN_SEQ (k : Nat) : Nat := 0x41600104 + k * 0x10
def SAF_CONN_SEQ_SEQ (k : Nat) : Fld := ⟨SAF_CONN_SEQ k, 31, 0⟩

def SAF_CONN_ERR (k : Nat) : Nat := 0x41600108 + k * 0x10
def SAF_CONN_ERR_PATHERR (k : Nat) : Fld := ⟨SAF_CONN_ERR k, 23, 16⟩
def SAF_CONN_ERR_SEQERR (k : Nat) : Fld := ⟨SAF_CONN_ERR k, 15, 8⟩
def SAF_CONN_ERR_CRCERR (k : Nat) : Fld := ⟨SAF_CONN_ERR k, 7, 0⟩

def SAF_CONN_SKEW (k : Nat) : Nat := 0x4160010C + k * 0x10
def SAF_CONN_SKEW_SKEW (k : Nat) : Fld := ⟨SAF_CONN_SKEW k, 15, 0⟩

/-! ### 12_fault_collection.md -/

def FCU_CTRL : Nat := 0x40200000
def FCU_CTRL_FORCEWIR : Fld := ⟨FCU_CTRL, 8, 8⟩
def FCU_CTRL_FNMIN : Fld := ⟨FCU_CTRL, 6, 4⟩
def FCU_CTRL_ARMED : Fld := ⟨FCU_CTRL, 0, 0⟩

def FCU_STAT : Nat := 0x40200004
def FCU_STAT_SELF : Fld := ⟨FCU_STAT, 31, 31⟩
def FCU_STAT_LOGOVF : Fld := ⟨FCU_STAT, 30, 30⟩
def FCU_STAT_ACKREF : Fld := ⟨FCU_STAT, 29, 29⟩
def FCU_STAT_ALIVESTOP : Fld := ⟨FCU_STAT, 28, 28⟩
def FCU_STAT_FAULTN : Fld := ⟨FCU_STAT, 27, 27⟩
def FCU_STAT_WINDOW : Fld := ⟨FCU_STAT, 26, 26⟩
def FCU_STAT_IRQ : Fld := ⟨FCU_STAT, 25, 25⟩
def FCU_STAT_PENDING : Fld := ⟨FCU_STAT, 13, 8⟩
def FCU_STAT_NEXT : Fld := ⟨FCU_STAT, 4, 0⟩

def FCU_ACK : Nat := 0x40200008
def FCU_ACK_REC : Fld := ⟨FCU_ACK, 4, 0⟩

def FCU_SELFINFO : Nat := 0x4020000C
def FCU_SELFINFO_MISMATCH : Fld := ⟨FCU_SELFINFO, 17, 17⟩
def FCU_SELFINFO_PARITY : Fld := ⟨FCU_SELFINFO, 16, 16⟩
def FCU_SELFINFO_OFFSET : Fld := ⟨FCU_SELFINFO, 15, 0⟩

def FCU_ASSERT (j : Nat) : Nat := 0x40200100 + j * 0x4
def FCU_ASSERT_ASSERT (j : Nat) : Fld := ⟨FCU_ASSERT j, 31, 0⟩

def FCU_SEEN (j : Nat) : Nat := 0x40200140 + j * 0x4
def FCU_SEEN_SEEN (j : Nat) : Fld := ⟨FCU_SEEN j, 31, 0⟩

def FCU_WIRE (j : Nat) : Nat := 0x40200180 + j * 0x4
def FCU_WIRE_WIRE (j : Nat) : Fld := ⟨FCU_WIRE j, 31, 0⟩

def FCU_FORCE (j : Nat) : Nat := 0x402001C0 + j * 0x4
def FCU_FORCE_FORCE (j : Nat) : Fld := ⟨FCU_FORCE j, 31, 0⟩

def FCU_SRCCFG (i : Nat) : Nat := 0x40200400 + i * 0x4
def FCU_SRCCFG_FIXED (i : Nat) : Fld := ⟨FCU_SRCCFG i, 8, 8⟩
def FCU_SRCCFG_REACT (i : Nat) : Fld := ⟨FCU_SRCCFG i, 6, 4⟩
def FCU_SRCCFG_CLASS (i : Nat) : Fld := ⟨FCU_SRCCFG i, 2, 0⟩

def FCU_REC_W0 (r : Nat) : Nat := 0x40201000 + r * 0x10
def FCU_REC_W0_CONSEQ (r : Nat) : Fld := ⟨FCU_REC_W0 r, 31, 24⟩
def FCU_REC_W0_REPEAT (r : Nat) : Fld := ⟨FCU_REC_W0 r, 23, 16⟩
def FCU_REC_W0_WIRING (r : Nat) : Fld := ⟨FCU_REC_W0 r, 15, 15⟩
def FCU_REC_W0_REACT (r : Nat) : Fld := ⟨FCU_REC_W0 r, 14, 12⟩
def FCU_REC_W0_CLASS (r : Nat) : Fld := ⟨FCU_REC_W0 r, 11, 9⟩
def FCU_REC_W0_SRC (r : Nat) : Fld := ⟨FCU_REC_W0 r, 8, 0⟩

def FCU_REC_TS (r : Nat) : Nat := 0x40201004 + r * 0x10
def FCU_REC_TS_TS (r : Nat) : Fld := ⟨FCU_REC_TS r, 31, 0⟩

def FCU_REC_W2 (r : Nat) : Nat := 0x40201008 + r * 0x10
def FCU_REC_W2_VALID (r : Nat) : Fld := ⟨FCU_REC_W2 r, 31, 31⟩
def FCU_REC_W2_PENDING (r : Nat) : Fld := ⟨FCU_REC_W2 r, 30, 30⟩
def FCU_REC_W2_FORCED (r : Nat) : Fld := ⟨FCU_REC_W2 r, 29, 29⟩
def FCU_REC_W2_LASTCQ (r : Nat) : Fld := ⟨FCU_REC_W2 r, 24, 16⟩
def FCU_REC_W2_ESC (r : Nat) : Fld := ⟨FCU_REC_W2 r, 12, 12⟩
def FCU_REC_W2_ESCCLASS (r : Nat) : Fld := ⟨FCU_REC_W2 r, 11, 9⟩
def FCU_REC_W2_ESCSRC (r : Nat) : Fld := ⟨FCU_REC_W2 r, 8, 0⟩

def FCU_REC_INFO (r : Nat) : Nat := 0x4020100C + r * 0x10
def FCU_REC_INFO_INFO (r : Nat) : Fld := ⟨FCU_REC_INFO r, 31, 0⟩

/-! ### 13_memories.md -/

def MEM_CTRL : Nat := 0x41700000
def MEM_CTRL_SCRUBPER : Fld := ⟨MEM_CTRL, 31, 16⟩
def MEM_CTRL_SCRUBEN : Fld := ⟨MEM_CTRL, 0, 0⟩

def MEM_STAT : Nat := 0x41700004
def MEM_STAT_HAMPRET : Fld := ⟨MEM_STAT, 25, 25⟩
def MEM_STAT_REPAIRBAD : Fld := ⟨MEM_STAT, 24, 24⟩
def MEM_STAT_BUSY : Fld := ⟨MEM_STAT, 23, 12⟩
def MEM_STAT_AVAIL : Fld := ⟨MEM_STAT, 11, 0⟩

def MEM_ECCADDR : Nat := 0x41700008
def MEM_ECCADDR_MRAM : Fld := ⟨MEM_ECCADDR, 31, 31⟩
def MEM_ECCADDR_ADDR : Fld := ⟨MEM_ECCADDR, 23, 3⟩

def MEM_UNCADDR : Nat := 0x4170000C
def MEM_UNCADDR_MRAM : Fld := ⟨MEM_UNCADDR, 31, 31⟩
def MEM_UNCADDR_ADDR : Fld := ⟨MEM_UNCADDR, 23, 3⟩

def MEM_CONF (m : Nat) : Nat := 0x41700080 + m * 0x4
def MEM_CONF_CNT (m : Nat) : Fld := ⟨MEM_CONF m, 31, 0⟩

def MEM_REPSTAT (b : Nat) : Nat := 0x41700100 + b * 0x4
def MEM_REPSTAT_SUB (b : Nat) : Fld := ⟨MEM_REPSTAT b, 11, 0⟩

def MEM_REPSUM : Nat := 0x417001C0
def MEM_REPSUM_HAMPREP : Fld := ⟨MEM_REPSUM, 24, 16⟩
def MEM_REPSUM_SPARES : Fld := ⟨MEM_REPSUM, 8, 0⟩

def MEM_FLASK : Nat := 0x41700200
def MEM_FLASK_RETIRED : Fld := ⟨MEM_FLASK, 22, 16⟩
def MEM_FLASK_NEXT : Fld := ⟨MEM_FLASK, 13, 8⟩
def MEM_FLASK_VALID : Fld := ⟨MEM_FLASK, 6, 6⟩
def MEM_FLASK_LAST : Fld := ⟨MEM_FLASK, 5, 0⟩

def MEM_HAMPRET (i : Nat) : Nat := 0x41700310 + i * 0x4
def MEM_HAMPRET_VALID (i : Nat) : Fld := ⟨MEM_HAMPRET i, 31, 31⟩
def MEM_HAMPRET_CELL (i : Nat) : Fld := ⟨MEM_HAMPRET i, 17, 0⟩

/-! ### 14_power_reset_holdup.md -/

def PWR_DOMSTAT : Nat := 0x40100000
def PWR_DOMSTAT_DOM : Fld := ⟨PWR_DOMSTAT, 23, 0⟩

def PWR_VOTE : Nat := 0x40100004
def PWR_VOTE_WIN : Fld := ⟨PWR_VOTE, 31, 16⟩
def PWR_VOTE_BLK : Fld := ⟨PWR_VOTE, 11, 8⟩
def PWR_VOTE_RSN : Fld := ⟨PWR_VOTE, 7, 4⟩
def PWR_VOTE_LASTRES : Fld := ⟨PWR_VOTE, 3, 1⟩

def PWR_WAKE : Nat := 0x40100008
def PWR_WAKE_SRC : Fld := ⟨PWR_WAKE, 22, 16⟩
def PWR_WAKE_EN : Fld := ⟨PWR_WAKE, 6, 0⟩

def PWR_WAKESEC : Nat := 0x4010000C
def PWR_WAKESEC_SEC : Fld := ⟨PWR_WAKESEC, 31, 0⟩

def PWR_SPER : Nat := 0x40100010
def PWR_SPER_MS : Fld := ⟨PWR_SPER, 13, 0⟩

def PWR_SCFG : Nat := 0x40100014
def PWR_SCFG_VINCHK : Fld := ⟨PWR_SCFG, 24, 24⟩
def PWR_SCFG_TEMPLO : Fld := ⟨PWR_SCFG, 23, 16⟩
def PWR_SCFG_TEMPHI : Fld := ⟨PWR_SCFG, 15, 8⟩
def PWR_SCFG_LINK : Fld := ⟨PWR_SCFG, 7, 0⟩

def PWR_SNPMASK_LO : Nat := 0x40100018
def PWR_SNPMASK_LO_MASK : Fld := ⟨PWR_SNPMASK_LO, 31, 0⟩

def PWR_SNPMASK_HI : Nat := 0x4010001C
def PWR_SNPMASK_HI_MASK : Fld := ⟨PWR_SNPMASK_HI, 31, 0⟩

def PWR_SNPLVL_LO : Nat := 0x40100020
def PWR_SNPLVL_LO_LVL : Fld := ⟨PWR_SNPLVL_LO, 31, 0⟩

def PWR_SNPLVL_HI : Nat := 0x40100024
def PWR_SNPLVL_HI_LVL : Fld := ⟨PWR_SNPLVL_HI, 31, 0⟩

def PWR_SCELLS : Nat := 0x40100028
def PWR_SCELLS_CELLS : Fld := ⟨PWR_SCELLS, 31, 0⟩

def PWR_SCNTTHR : Nat := 0x4010002C
def PWR_SCNTTHR_THR : Fld := ⟨PWR_SCNTTHR, 15, 0⟩

def PWR_SSTAT : Nat := 0x40100030
def PWR_SSTAT_SAMPLES : Fld := ⟨PWR_SSTAT, 31, 16⟩
def PWR_SSTAT_MATCH : Fld := ⟨PWR_SSTAT, 4, 0⟩

def SYS_RSTCAUSE : Nat := 0x4000000C
def SYS_RSTCAUSE_BOOTHOLD : Fld := ⟨SYS_RSTCAUSE, 10, 10⟩
def SYS_RSTCAUSE_HOSTSEL : Fld := ⟨SYS_RSTCAUSE, 9, 9⟩
def SYS_RSTCAUSE_TESTMODE : Fld := ⟨SYS_RSTCAUSE, 8, 8⟩
def SYS_RSTCAUSE_HOST : Fld := ⟨SYS_RSTCAUSE, 4, 4⟩
def SYS_RSTCAUSE_CMD : Fld := ⟨SYS_RSTCAUSE, 3, 3⟩
def SYS_RSTCAUSE_WDOG : Fld := ⟨SYS_RSTCAUSE, 2, 2⟩
def SYS_RSTCAUSE_VINRST : Fld := ⟨SYS_RSTCAUSE, 1, 1⟩
def SYS_RSTCAUSE_POR : Fld := ⟨SYS_RSTCAUSE, 0, 0⟩

def PWR_RSTCFG : Nat := 0x40100048
def PWR_RSTCFG_HOSTRST : Fld := ⟨PWR_RSTCFG, 0, 0⟩

def PWR_VINCFG : Nat := 0x40100040
def PWR_VINCFG_WARN : Fld := ⟨PWR_VINCFG, 31, 16⟩
def PWR_VINCFG_TRIP : Fld := ⟨PWR_VINCFG, 15, 0⟩

def PWR_HOLDSTAT : Nat := 0x40100044
def PWR_HOLDSTAT_VIN : Fld := ⟨PWR_HOLDSTAT, 31, 16⟩
def PWR_HOLDSTAT_VHOLD : Fld := ⟨PWR_HOLDSTAT, 15, 0⟩

/-! ### 15_host_mailboxes.md -/

def HOST_FQ_BASE (q : Nat) : Nat := 0x41800400 + q * 0x20
def HOST_FQ_BASE_CELL (q : Nat) : Fld := ⟨HOST_FQ_BASE q, 17, 0⟩

def HOST_FQ_CFG (q : Nat) : Nat := 0x41800404 + q * 0x20
def HOST_FQ_CFG_EN (q : Nat) : Fld := ⟨HOST_FQ_CFG q, 31, 31⟩
def HOST_FQ_CFG_IEN (q : Nat) : Fld := ⟨HOST_FQ_CFG q, 30, 30⟩
def HOST_FQ_CFG_SLOTCELLS (q : Nat) : Fld := ⟨HOST_FQ_CFG q, 21, 16⟩
def HOST_FQ_CFG_SLOTSM1 (q : Nat) : Fld := ⟨HOST_FQ_CFG q, 11, 0⟩

def HOST_FQ_PROD (q : Nat) : Nat := 0x41800408 + q * 0x20
def HOST_FQ_PROD_PROD (q : Nat) : Fld := ⟨HOST_FQ_PROD q, 11, 0⟩

def HOST_FQ_CONS (q : Nat) : Nat := 0x4180040C + q * 0x20
def HOST_FQ_CONS_CONS (q : Nat) : Fld := ⟨HOST_FQ_CONS q, 11, 0⟩

def HOST_FQ_STAT (q : Nat) : Nat := 0x41800410 + q * 0x20
def HOST_FQ_STAT_BADRING (q : Nat) : Fld := ⟨HOST_FQ_STAT q, 31, 31⟩
def HOST_FQ_STAT_BADSLOT (q : Nat) : Fld := ⟨HOST_FQ_STAT q, 30, 30⟩
def HOST_FQ_STAT_EVENT (q : Nat) : Fld := ⟨HOST_FQ_STAT q, 29, 29⟩
def HOST_FQ_STAT_DROPS (q : Nat) : Fld := ⟨HOST_FQ_STAT q, 23, 16⟩
def HOST_FQ_STAT_FRAMES (q : Nat) : Fld := ⟨HOST_FQ_STAT q, 15, 0⟩

def MBX_CH_SEND (c w : Nat) : Nat := 0x40300000 + c * 0x100 + w * 0x4
def MBX_CH_SEND_WORD (c w : Nat) : Fld := ⟨MBX_CH_SEND c w, 31, 0⟩

def MBX_CH_CMD (c : Nat) : Nat := 0x40300040 + c * 0x100
def MBX_CH_CMD_FLUSH (c : Nat) : Fld := ⟨MBX_CH_CMD c, 2, 2⟩
def MBX_CH_CMD_POP (c : Nat) : Fld := ⟨MBX_CH_CMD c, 1, 1⟩
def MBX_CH_CMD_SEND (c : Nat) : Fld := ⟨MBX_CH_CMD c, 0, 0⟩

def MBX_CH_HEAD (c w : Nat) : Nat := 0x40300080 + c * 0x100 + w * 0x4
def MBX_CH_HEAD_WORD (c w : Nat) : Fld := ⟨MBX_CH_HEAD c w, 31, 0⟩

def MBX_CH_STAT (c : Nat) : Nat := 0x403000C0 + c * 0x100
def MBX_CH_STAT_POPEMPTY (c : Nat) : Fld := ⟨MBX_CH_STAT c, 9, 9⟩
def MBX_CH_STAT_SNDREF (c : Nat) : Fld := ⟨MBX_CH_STAT c, 8, 8⟩
def MBX_CH_STAT_COUNT (c : Nat) : Fld := ⟨MBX_CH_STAT c, 4, 0⟩

def MBX_CH_SENT (c : Nat) : Nat := 0x403000C4 + c * 0x100
def MBX_CH_SENT_SENT (c : Nat) : Fld := ⟨MBX_CH_SENT c, 31, 0⟩

def MBX_CH_REFUSED (c : Nat) : Nat := 0x403000C8 + c * 0x100
def MBX_CH_REFUSED_REFUSED (c : Nat) : Fld := ⟨MBX_CH_REFUSED c, 31, 0⟩

def MBX_CH_CFG (c : Nat) : Nat := 0x403000CC + c * 0x100
def MBX_CH_CFG_EN (c : Nat) : Fld := ⟨MBX_CH_CFG c, 0, 0⟩

def MBX_DBRING : Nat := 0x40306000
def MBX_DBRING_DB : Fld := ⟨MBX_DBRING, 12, 8⟩
def MBX_DBRING_RCV : Fld := ⟨MBX_DBRING, 7, 0⟩

def MBX_DB (r : Nat) : Nat := 0x40306100 + r * 0x4
def MBX_DB_DB (r : Nat) : Fld := ⟨MBX_DB r, 31, 0⟩

def HOST_STAT : Nat := 0x41800000
def HOST_STAT_SPI : Fld := ⟨HOST_STAT, 31, 31⟩
def HOST_STAT_MSIXEN : Fld := ⟨HOST_STAT, 8, 8⟩
def HOST_STAT_BME : Fld := ⟨HOST_STAT, 7, 7⟩
def HOST_STAT_L1 : Fld := ⟨HOST_STAT, 6, 6⟩
def HOST_STAT_WIDTH : Fld := ⟨HOST_STAT, 5, 4⟩
def HOST_STAT_SPEED : Fld := ⟨HOST_STAT, 3, 1⟩
def HOST_STAT_LINKUP : Fld := ⟨HOST_STAT, 0, 0⟩

def HOST_LINKCFG : Nat := 0x41800004
def HOST_LINKCFG_MAXW : Fld := ⟨HOST_LINKCFG, 3, 3⟩
def HOST_LINKCFG_L1EN : Fld := ⟨HOST_LINKCFG, 2, 2⟩
def HOST_LINKCFG_MAXSPD : Fld := ⟨HOST_LINKCFG, 1, 0⟩

def HOST_ERR : Nat := 0x41800008
def HOST_ERR_SNDREF : Fld := ⟨HOST_ERR, 8, 8⟩
def HOST_ERR_AERUNC : Fld := ⟨HOST_ERR, 7, 7⟩
def HOST_ERR_RWDENY : Fld := ⟨HOST_ERR, 6, 6⟩
def HOST_ERR_SPICMD : Fld := ⟨HOST_ERR, 5, 5⟩
def HOST_ERR_SPIFRAME : Fld := ⟨HOST_ERR, 4, 4⟩
def HOST_ERR_B2WREF : Fld := ⟨HOST_ERR, 3, 3⟩
def HOST_ERR_PARTIAL : Fld := ⟨HOST_ERR, 2, 2⟩
def HOST_ERR_HOLE : Fld := ⟨HOST_ERR, 1, 1⟩
def HOST_ERR_POISON : Fld := ⟨HOST_ERR, 0, 0⟩

def HOST_ERRIEN : Nat := 0x4180000C
def HOST_ERRIEN_EN : Fld := ⟨HOST_ERRIEN, 8, 0⟩

def HOST_B2CTRL : Nat := 0x41800010
def HOST_B2CTRL_FRAMERD : Fld := ⟨HOST_B2CTRL, 0, 0⟩

def HOST_RWADDR : Nat := 0x41800014
def HOST_RWADDR_ADDR : Fld := ⟨HOST_RWADDR, 31, 2⟩
def HOST_RWADDR_AUTOINC : Fld := ⟨HOST_RWADDR, 0, 0⟩

def HOST_RWDATA : Nat := 0x41800018
def HOST_RWDATA_DATA : Fld := ⟨HOST_RWDATA, 31, 0⟩

def HOST_DBEN : Nat := 0x41800020
def HOST_DBEN_EN : Fld := ⟨HOST_DBEN, 31, 0⟩

def HOST_MBPEND (j : Nat) : Nat := 0x41800030 + j * 0x4
def HOST_MBPEND_PEND (j : Nat) : Fld := ⟨HOST_MBPEND j, 31, 0⟩

def HOST_MBEN (j : Nat) : Nat := 0x41800040 + j * 0x4
def HOST_MBEN_EN (j : Nat) : Fld := ⟨HOST_MBEN j, 31, 0⟩

def HOST_VSTATE : Nat := 0x41800050
def HOST_VSTATE_ACTIVE : Fld := ⟨HOST_VSTATE, 31, 0⟩

def HOST_SPIVEN : Nat := 0x41800054
def HOST_SPIVEN_EN : Fld := ⟨HOST_SPIVEN, 31, 0⟩

def HOST_ROUTE (l : Nat) : Nat := 0x41800100 + l * 0x4
def HOST_ROUTE_EN (l : Nat) : Fld := ⟨HOST_ROUTE l, 8, 8⟩
def HOST_ROUTE_VEC (l : Nat) : Fld := ⟨HOST_ROUTE l, 4, 0⟩

/-! ### 16_firmware_commands_transactions.md -/

def TXN_CFG : Nat := 0x41900000
def TXN_CFG_ARMMAX : Fld := ⟨TXN_CFG, 31, 24⟩
def TXN_CFG_TIMEOUT : Fld := ⟨TXN_CFG, 15, 0⟩

def TXN_STAT : Nat := 0x41900004
def TXN_STAT_INCONS : Fld := ⟨TXN_STAT, 31, 24⟩
def TXN_STAT_RULE : Fld := ⟨TXN_STAT, 23, 16⟩
def TXN_STAT_BLOCK : Fld := ⟨TXN_STAT, 15, 8⟩
def TXN_STAT_ARMREF : Fld := ⟨TXN_STAT, 0, 0⟩

def TXN_INCADDR : Nat := 0x41900008
def TXN_INCADDR_ADDR : Fld := ⟨TXN_INCADDR, 31, 0⟩

def TXN_CH_CTRL (m : Nat) : Nat := 0x41900100 + m * 0x20
def TXN_CH_CTRL_ROLLBACK (m : Nat) : Fld := ⟨TXN_CH_CTRL m, 2, 2⟩
def TXN_CH_CTRL_COMMIT (m : Nat) : Fld := ⟨TXN_CH_CTRL m, 1, 1⟩
def TXN_CH_CTRL_OPEN (m : Nat) : Fld := ⟨TXN_CH_CTRL m, 0, 0⟩

def TXN_CH_APPLY (m : Nat) : Nat := 0x41900104 + m * 0x20
def TXN_CH_APPLY_INDEX (m : Nat) : Fld := ⟨TXN_CH_APPLY m, 5, 4⟩
def TXN_CH_APPLY_KIND (m : Nat) : Fld := ⟨TXN_CH_APPLY m, 1, 0⟩

def TXN_CH_APPLY_LO (m : Nat) : Nat := 0x41900108 + m * 0x20
def TXN_CH_APPLY_LO_LO (m : Nat) : Fld := ⟨TXN_CH_APPLY_LO m, 31, 0⟩

def TXN_CH_APPLY_HI (m : Nat) : Nat := 0x4190010C + m * 0x20
def TXN_CH_APPLY_HI_HI (m : Nat) : Fld := ⟨TXN_CH_APPLY_HI m, 31, 0⟩

def TXN_CH_STAT (m : Nat) : Nat := 0x41900110 + m * 0x20
def TXN_CH_STAT_RESULT (m : Nat) : Fld := ⟨TXN_CH_STAT m, 31, 16⟩
def TXN_CH_STAT_LOGN (m : Nat) : Fld := ⟨TXN_CH_STAT m, 14, 4⟩
def TXN_CH_STAT_LOGFULL (m : Nat) : Fld := ⟨TXN_CH_STAT m, 3, 3⟩
def TXN_CH_STAT_CHECKING (m : Nat) : Fld := ⟨TXN_CH_STAT m, 2, 2⟩
def TXN_CH_STAT_ARMED (m : Nat) : Fld := ⟨TXN_CH_STAT m, 1, 1⟩
def TXN_CH_STAT_OPEN (m : Nat) : Fld := ⟨TXN_CH_STAT m, 0, 0⟩

def TXN_CH_HANDLE (m : Nat) : Nat := 0x41900114 + m * 0x20
def TXN_CH_HANDLE_HANDLE (m : Nat) : Fld := ⟨TXN_CH_HANDLE m, 31, 0⟩

def TXN_CH_FAIL (m : Nat) : Nat := 0x41900118 + m * 0x20
def TXN_CH_FAIL_FAIL (m : Nat) : Fld := ⟨TXN_CH_FAIL m, 31, 0⟩

def TXN_CH_DETAIL (m : Nat) : Nat := 0x4190011C + m * 0x20
def TXN_CH_DETAIL_DB (m : Nat) : Fld := ⟨TXN_CH_DETAIL m, 15, 8⟩
def TXN_CH_DETAIL_DA (m : Nat) : Fld := ⟨TXN_CH_DETAIL m, 7, 0⟩

/-! ### 17_pins_electrical.md -/

def PIN_NP (k : Nat) : Nat := 0x41A00000 + k * 0x4
def PIN_NP_PULL (k : Nat) : Fld := ⟨PIN_NP k, 4, 3⟩
def PIN_NP_SLEW (k : Nat) : Fld := ⟨PIN_NP k, 2, 2⟩
def PIN_NP_DRIVE (k : Nat) : Fld := ⟨PIN_NP k, 1, 0⟩

def PIN_EP (n : Nat) : Nat := 0x41A00100 + n * 0x4
def PIN_EP_PULLDIS (n : Nat) : Fld := ⟨PIN_EP n, 2, 2⟩
def PIN_EP_DRIVE (n : Nat) : Fld := ⟨PIN_EP n, 1, 0⟩

def PIN_MDIO : Nat := 0x41A00140
def PIN_MDIO_GO : Fld := ⟨PIN_MDIO, 31, 31⟩
def PIN_MDIO_OP : Fld := ⟨PIN_MDIO, 30, 30⟩
def PIN_MDIO_PHYAD : Fld := ⟨PIN_MDIO, 28, 24⟩
def PIN_MDIO_REGAD : Fld := ⟨PIN_MDIO, 20, 16⟩
def PIN_MDIO_DATA : Fld := ⟨PIN_MDIO, 15, 0⟩

def PIN_IOSTAT : Nat := 0x41A00150
def PIN_IOSTAT_SAF : Fld := ⟨PIN_IOSTAT, 7, 7⟩
def PIN_IOSTAT_HAMP : Fld := ⟨PIN_IOSTAT, 6, 6⟩
def PIN_IOSTAT_PLL : Fld := ⟨PIN_IOSTAT, 5, 5⟩
def PIN_IOSTAT_ASDS : Fld := ⟨PIN_IOSTAT, 4, 4⟩
def PIN_IOSTAT_SDS : Fld := ⟨PIN_IOSTAT, 3, 3⟩
def PIN_IOSTAT_PHY : Fld := ⟨PIN_IOSTAT, 2, 2⟩
def PIN_IOSTAT_IO18 : Fld := ⟨PIN_IOSTAT, 1, 1⟩
def PIN_IOSTAT_IO33 : Fld := ⟨PIN_IOSTAT, 0, 0⟩

/-! ### 18_register_index.md -/

def SYS_TEMP : Nat := 0x40000010
def SYS_TEMP_VALID : Fld := ⟨SYS_TEMP, 16, 16⟩
def SYS_TEMP_TEMP : Fld := ⟨SYS_TEMP, 15, 0⟩

/-! ### 03_ports_mac.md -/

def MAC_CNT (n i : Nat) : Nat := 0x40800400 + n * 0x10000 + i * 0x4
def MAC_CNT_CNT (n i : Nat) : Fld := ⟨MAC_CNT n i, 31, 0⟩

def MAC_CNTX (n i : Nat) : Nat := 0x40800480 + n * 0x10000 + i * 0x4
def MAC_CNTX_CNT (n i : Nat) : Fld := ⟨MAC_CNTX n i, 31, 0⟩

/-! ### 04_switch_hamper.md -/

def SWX_FC_CNT (f i : Nat) : Nat := 0x40A20028 + f * 0x40 + i * 0x4
def SWX_FC_CNT_CNT (f i : Nat) : Fld := ⟨SWX_FC_CNT f i, 31, 0⟩

/-! ### 05_bluset_engines_dispatcher.md -/

def ENG_CNT (n i : Nat) : Nat := 0x41000020 + n * 0x10000 + i * 0x4
def ENG_CNT_CNT (n i : Nat) : Fld := ⟨ENG_CNT n i, 31, 0⟩

/-! ### 08_can_timetriggered.md -/

def CAN_CNT (n i : Nat) : Nat := 0x41400080 + n * 0x10000 + i * 0x4
def CAN_CNT_CNT (n i : Nat) : Fld := ⟨CAN_CNT n i, 31, 0⟩

/-! ### 10_cardamom_loops.md -/

def LOOP_CTRL : Nat := 0x41200000
def LOOP_CTRL_EN : Fld := ⟨LOOP_CTRL, 0, 0⟩

def LOOP_STAT : Nat := 0x41200004
def LOOP_STAT_BUSY : Fld := ⟨LOOP_STAT, 16, 16⟩
def LOOP_STAT_QLEN : Fld := ⟨LOOP_STAT, 8, 0⟩

def LOOP_LOAD : Nat := 0x41200008
def LOOP_LOAD_LOAD : Fld := ⟨LOOP_LOAD, 31, 0⟩

def LOOP_LOADMAX : Nat := 0x4120000C
def LOOP_LOADMAX_MAX : Fld := ⟨LOOP_LOADMAX, 31, 0⟩

def LOOP_BUDGET : Nat := 0x41200010
def LOOP_BUDGET_CYC : Fld := ⟨LOOP_BUDGET, 31, 0⟩

/-! ### 04_switch_hamper.md -/

def SWX_CNT (p i : Nat) : Nat := 0x40A01100 + p * 0x400 + i * 0x4
def SWX_CNT_CNT (p i : Nat) : Fld := ⟨SWX_CNT p i, 31, 0⟩

/-! ### 13_memories.md -/

def MEM_CNT (i : Nat) : Nat := 0x41700010 + i * 0x4
def MEM_CNT_CNT (i : Nat) : Fld := ⟨MEM_CNT i, 31, 0⟩

/-! ### 10_cardamom_loops.md -/

def LOOP_CTX_CNT (k j : Nat) : Nat := 0x41210020 + k * 0x100 + j * 0x4
def LOOP_CTX_CNT_CNT (k j : Nat) : Fld := ⟨LOOP_CTX_CNT k j, 31, 0⟩

def LOOP_NV (i : Nat) : Nat := 0x41204000 + i * 0x4
def LOOP_NV_NV (i : Nat) : Fld := ⟨LOOP_NV i, 31, 0⟩

def LOOP_STATE (k i : Nat) : Nat := 0x41280000 + k * 0x200 + i * 0x4
def LOOP_STATE_STATE (k i : Nat) : Fld := ⟨LOOP_STATE k i, 31, 0⟩

def LOOP_COEF (k i : Nat) : Nat := 0x41300000 + k * 0x400 + i * 0x4
def LOOP_COEF_COEF (k i : Nat) : Fld := ⟨LOOP_COEF k i, 31, 0⟩

/-! ### 05_bluset_engines_dispatcher.md -/

def DISP_NODE_W0 (n : Nat) : Nat := 0x41110000 + n * 0x10
def DISP_NODE_W0_CLUSTER (n : Nat) : Fld := ⟨DISP_NODE_W0 n, 27, 24⟩
def DISP_NODE_W0_VALID (n : Nat) : Fld := ⟨DISP_NODE_W0 n, 21, 21⟩
def DISP_NODE_W0_AUTOEMIT (n : Nat) : Fld := ⟨DISP_NODE_W0 n, 20, 20⟩
def DISP_NODE_W0_NIN (n : Nat) : Fld := ⟨DISP_NODE_W0 n, 19, 17⟩
def DISP_NODE_W0_LEVEL (n : Nat) : Fld := ⟨DISP_NODE_W0 n, 16, 14⟩
def DISP_NODE_W0_ENTRY (n : Nat) : Fld := ⟨DISP_NODE_W0 n, 13, 0⟩

def DISP_NODE_W1 (n : Nat) : Nat := 0x41110004 + n * 0x10
def DISP_NODE_W1_ARG (n : Nat) : Fld := ⟨DISP_NODE_W1 n, 31, 0⟩

def DISP_NODE_W2 (n : Nat) : Nat := 0x41110008 + n * 0x10
def DISP_NODE_W2_SUCC1 (n : Nat) : Fld := ⟨DISP_NODE_W2 n, 28, 16⟩
def DISP_NODE_W2_SUCC0 (n : Nat) : Fld := ⟨DISP_NODE_W2 n, 12, 0⟩

def DISP_NODE_W3 (n : Nat) : Nat := 0x4111000C + n * 0x10
def DISP_NODE_W3_SUCC3 (n : Nat) : Fld := ⟨DISP_NODE_W3 n, 28, 16⟩
def DISP_NODE_W3_SUCC2 (n : Nat) : Fld := ⟨DISP_NODE_W3 n, 12, 0⟩

def DISP_TOK (n : Nat) : Nat := 0x41112000 + n * 0x4
def DISP_TOK_TOK (n : Nat) : Fld := ⟨DISP_TOK n, 31, 0⟩

end Sys2Proof.Machine
end

