-- ==== Sys2Proof/Machine/RegMap.lean ====
section
/-! DEFINITION. The register map: for every register and table word its instances, its fields with their access
codes (R13) and the reset value of each field, from the field tables of the manual (R400, R401). -/

namespace Sys2Proof.Machine

/-- The access codes of R13. -/
inductive Acc where
  | rw | ro | wo | w1c | w1s | rc | rwt | rwl
deriving DecidableEq, Repr

/-- One field of a register's table. -/
structure FieldSpec where
  hi : Nat
  lo : Nat
  acc : Acc
  reset : Nat
deriving DecidableEq, Repr

/-- One register of the map: the address of its first instance, the count and stride of each index, its fields, and which half of a _LO and _HI pair it is (R11): 0 none, 1 low, 2 high. -/
structure RegSpec where
  name : String
  addr : Nat
  dims : List (Nat × Nat)
  fields : List FieldSpec
  half : Nat
deriving DecidableEq, Repr

/-- The registers of SYS. -/
def regsSYS : List RegSpec :=
  [ ⟨"SYS_ID", 0x40000000, [], [⟨31, 16, .ro, 0x7216⟩, ⟨7, 4, .ro, 0xB⟩, ⟨3, 0, .ro, 1⟩], 0⟩,
    ⟨"SYS_CLKSTAT", 0x40000008, [], [⟨12, 12, .w1c, 0⟩, ⟨11, 11, .w1c, 0⟩, ⟨10, 10, .w1c, 0⟩, ⟨9, 9, .w1c, 0⟩, ⟨8, 8, .w1c, 0⟩, ⟨7, 7, .w1c, 0⟩, ⟨6, 6, .ro, 0⟩, ⟨5, 5, .ro, 0⟩, ⟨4, 4, .ro, 0⟩, ⟨3, 3, .ro, 0⟩, ⟨2, 2, .ro, 0⟩, ⟨1, 1, .ro, 0⟩, ⟨0, 0, .ro, 0⟩], 0⟩,
    ⟨"SYS_MODE", 0x40000004, [], [⟨24, 24, .ro, 1⟩, ⟨23, 20, .ro, 1⟩, ⟨15, 8, .ro, 0⟩, ⟨7, 4, .ro, 0⟩, ⟨3, 0, .ro, 1⟩], 0⟩,
    ⟨"SYS_RSTCAUSE", 0x4000000C, [], [⟨10, 10, .ro, 0⟩, ⟨9, 9, .ro, 0⟩, ⟨8, 8, .ro, 0⟩, ⟨4, 4, .ro, 0⟩, ⟨3, 3, .ro, 0⟩, ⟨2, 2, .ro, 0⟩, ⟨1, 1, .ro, 0⟩, ⟨0, 0, .ro, 1⟩], 0⟩,
    ⟨"SYS_TEMP", 0x40000010, [], [⟨16, 16, .ro, 0⟩, ⟨15, 0, .ro, 0⟩], 0⟩ ]

/-- The registers of TIME. -/
def regsTIME : List RegSpec :=
  [ ⟨"TIME_DOM_CTRL", 0x40400000, [(4, 0x100)], [⟨3, 3, .wo, 0⟩, ⟨2, 2, .wo, 0⟩, ⟨1, 1, .wo, 0⟩, ⟨0, 0, .rw, 0⟩], 0⟩,
    ⟨"TIME_DOM_STAT", 0x40400004, [(4, 0x100)], [⟨5, 5, .w1c, 0⟩, ⟨4, 4, .w1c, 0⟩, ⟨3, 2, .ro, 0⟩, ⟨1, 0, .ro, 0⟩], 0⟩,
    ⟨"TIME_DOM_NS", 0x40400008, [(4, 0x100)], [⟨29, 0, .ro, 0⟩], 0⟩,
    ⟨"TIME_DOM_FRAC", 0x4040000C, [(4, 0x100)], [⟨15, 0, .ro, 0⟩], 0⟩,
    ⟨"TIME_DOM_SEC_LO", 0x40400010, [(4, 0x100)], [⟨31, 0, .ro, 0⟩], 1⟩,
    ⟨"TIME_DOM_SEC_HI", 0x40400014, [(4, 0x100)], [⟨31, 0, .ro, 0⟩], 2⟩,
    ⟨"TIME_DOM_CYC", 0x40400018, [(4, 0x100)], [⟨31, 0, .ro, 0⟩], 0⟩,
    ⟨"TIME_DOM_ADJ", 0x4040001C, [(4, 0x100)], [⟨31, 0, .rw, 0⟩], 0⟩,
    ⟨"TIME_DOM_STEP_NS", 0x40400020, [(4, 0x100)], [⟨31, 0, .rw, 0⟩], 0⟩,
    ⟨"TIME_DOM_STEP_SEC_LO", 0x40400024, [(4, 0x100)], [⟨31, 0, .rw, 0⟩], 1⟩,
    ⟨"TIME_DOM_STEP_SEC_HI", 0x40400028, [(4, 0x100)], [⟨31, 0, .rw, 0⟩], 2⟩,
    ⟨"TIME_PPS_CTRL", 0x40400400, [], [⟨31, 16, .rw, 0xC8⟩, ⟨6, 4, .rw, 3⟩, ⟨3, 3, .rw, 0⟩, ⟨2, 1, .rw, 0⟩, ⟨0, 0, .rw, 0⟩], 0⟩ ] ++
  [ ⟨"TIME_PPS_STAT", 0x40400404, [], [⟨15, 8, .rc, 0⟩, ⟨3, 3, .w1c, 0⟩, ⟨2, 2, .ro, 0⟩, ⟨1, 1, .w1c, 0⟩, ⟨0, 0, .w1c, 0⟩], 0⟩,
    ⟨"TIME_PPS_ERR", 0x40400408, [], [⟨31, 0, .ro, 0⟩], 0⟩,
    ⟨"TIME_PPS_SEC_LO", 0x4040040C, [], [⟨31, 0, .rw, 0⟩], 1⟩,
    ⟨"TIME_PPS_SEC_HI", 0x40400410, [], [⟨31, 0, .rw, 0⟩], 2⟩,
    ⟨"TIME_PPS_CAPFRAC", 0x40400414, [], [⟨11, 0, .ro, 0⟩], 0⟩,
    ⟨"TIME_PPS_CAP_NS", 0x40400420, [(4, 0x10)], [⟨29, 0, .ro, 0⟩], 0⟩,
    ⟨"TIME_PPS_CAP_SEC_LO", 0x40400424, [(4, 0x10)], [⟨31, 0, .ro, 0⟩], 1⟩,
    ⟨"TIME_PPS_CAP_SEC_HI", 0x40400428, [(4, 0x10)], [⟨31, 0, .ro, 0⟩], 2⟩ ]

/-- The registers of LAU. -/
def regsLAU : List RegSpec :=
  [ ⟨"LAU_CTRL", 0x40500000, [(2, 0x10000)], [⟨2, 2, .wo, 0⟩, ⟨1, 1, .wo, 0⟩, ⟨0, 0, .rw, 0⟩], 0⟩,
    ⟨"LAU_CFG", 0x40500004, [(2, 0x10000)], [⟨17, 12, .rwt, 0⟩, ⟨11, 11, .rwt, 0⟩, ⟨9, 8, .rwt, 0⟩, ⟨7, 3, .rwt, 0⟩, ⟨1, 0, .rwt, 0⟩], 0⟩,
    ⟨"LAU_BW", 0x40500008, [(2, 0x10000)], [⟨15, 0, .rwt, 0x64⟩], 0⟩,
    ⟨"LAU_CPT_NUM", 0x4050000C, [(2, 0x10000)], [⟨31, 0, .rwt, 0x10000⟩], 0⟩,
    ⟨"LAU_CPT_DEN", 0x40500010, [(2, 0x10000)], [⟨15, 0, .rwt, 1⟩], 0⟩,
    ⟨"LAU_MAXAGE", 0x40500014, [(2, 0x10000)], [⟨15, 0, .rwt, 0x3E8⟩], 0⟩,
    ⟨"LAU_MINSPD", 0x40500018, [(2, 0x10000)], [⟨31, 0, .rwt, 0x100⟩], 0⟩,
    ⟨"LAU_ANG_LO", 0x40500020, [(2, 0x10000)], [⟨31, 0, .ro, 0⟩], 1⟩,
    ⟨"LAU_ANG_HI", 0x40500024, [(2, 0x10000)], [⟨31, 0, .ro, 0⟩], 2⟩,
    ⟨"LAU_SPD", 0x40500028, [(2, 0x10000)], [⟨31, 0, .ro, 0⟩], 0⟩,
    ⟨"LAU_ACC", 0x4050002C, [(2, 0x10000)], [⟨31, 0, .ro, 0⟩], 0⟩,
    ⟨"LAU_SET_LO", 0x40500030, [(2, 0x10000)], [⟨31, 0, .rw, 0⟩], 1⟩ ] ++
  [ ⟨"LAU_SET_HI", 0x40500034, [(2, 0x10000)], [⟨31, 0, .rw, 0⟩], 2⟩,
    ⟨"LAU_NET_ANG_LO", 0x40500040, [(2, 0x10000)], [⟨31, 0, .rw, 0⟩], 1⟩,
    ⟨"LAU_NET_ANG_HI", 0x40500044, [(2, 0x10000)], [⟨31, 0, .rw, 0⟩], 2⟩,
    ⟨"LAU_NET_TS", 0x40500048, [(2, 0x10000)], [⟨31, 0, .wo, 0⟩], 0⟩,
    ⟨"LAU_VM_SPD", 0x40500050, [(2, 0x10000)], [⟨31, 0, .rw, 0⟩], 0⟩,
    ⟨"LAU_VM_ACC", 0x40500054, [(2, 0x10000)], [⟨31, 0, .rwt, 0x10000⟩], 0⟩,
    ⟨"LAU_VM_JERK", 0x40500058, [(2, 0x10000)], [⟨31, 0, .rwt, 0x10000⟩], 0⟩,
    ⟨"LAU_STAT", 0x40500060, [(2, 0x10000)], [⟨31, 24, .rc, 0⟩, ⟨7, 7, .w1c, 0⟩, ⟨6, 6, .w1c, 0⟩, ⟨5, 5, .ro, 0⟩, ⟨4, 4, .w1c, 0⟩, ⟨3, 3, .ro, 0⟩, ⟨2, 2, .ro, 0⟩], 0⟩ ]

/-- The registers of ITIN. -/
def regsITIN : List RegSpec :=
  [ ⟨"ITIN_SLOT_CTRL", 0x40590000, [(512, 0x20)], [⟨31, 31, .rw, 0⟩, ⟨30, 30, .rw, 0⟩, ⟨29, 28, .rw, 0⟩, ⟨27, 26, .rw, 0⟩, ⟨25, 24, .rw, 0⟩, ⟨23, 21, .rw, 0⟩, ⟨2, 0, .rw, 0⟩], 0⟩,
    ⟨"ITIN_SLOT_TRIG_LO", 0x40590004, [(512, 0x20)], [⟨31, 0, .rw, 0⟩], 1⟩,
    ⟨"ITIN_SLOT_TRIG_HI", 0x40590008, [(512, 0x20)], [⟨31, 0, .rw, 0⟩], 2⟩,
    ⟨"ITIN_SLOT_PER_LO", 0x4059000C, [(512, 0x20)], [⟨31, 0, .rw, 0⟩], 1⟩,
    ⟨"ITIN_SLOT_PER_HI", 0x40590010, [(512, 0x20)], [⟨31, 0, .rw, 0⟩], 2⟩,
    ⟨"ITIN_SLOT_ARG", 0x40590014, [(512, 0x20)], [⟨31, 0, .rw, 0⟩], 0⟩,
    ⟨"ITIN_SLOT_STAT", 0x40590018, [(512, 0x20)], [⟨31, 29, .ro, 0⟩, ⟨28, 26, .ro, 0⟩, ⟨25, 25, .w1c, 0⟩, ⟨24, 24, .w1c, 0⟩, ⟨19, 17, .ro, 0⟩, ⟨16, 16, .wo, 0⟩, ⟨15, 0, .ro, 0⟩], 0⟩,
    ⟨"ITIN_SLOT_DUE", 0x4059001C, [(512, 0x20)], [⟨31, 0, .ro, 0⟩], 0⟩,
    ⟨"ITIN_CFG", 0x40580000, [], [⟨15, 0, .rw, 0⟩], 0⟩,
    ⟨"ITIN_STAT", 0x40580004, [], [⟨25, 16, .ro, 0⟩, ⟨12, 8, .ro, 0⟩, ⟨7, 0, .rc, 0⟩], 0⟩,
    ⟨"ITIN_MISS", 0x40580010, [(16, 0x4)], [⟨31, 0, .w1c, 0⟩], 0⟩,
    ⟨"ITIN_CAP_NS", 0x40580400, [(16, 0x20)], [⟨29, 0, .ro, 0⟩], 0⟩ ] ++
  [ ⟨"ITIN_CAP_SEC_LO", 0x40580404, [(16, 0x20)], [⟨31, 0, .ro, 0⟩], 1⟩,
    ⟨"ITIN_CAP_SEC_HI", 0x40580408, [(16, 0x20)], [⟨31, 0, .ro, 0⟩], 2⟩,
    ⟨"ITIN_CAP_LAU0_LO", 0x4058040C, [(16, 0x20)], [⟨31, 0, .ro, 0⟩], 1⟩,
    ⟨"ITIN_CAP_LAU0_HI", 0x40580410, [(16, 0x20)], [⟨31, 0, .ro, 0⟩], 2⟩,
    ⟨"ITIN_CAP_LAU1_LO", 0x40580414, [(16, 0x20)], [⟨31, 0, .ro, 0⟩], 1⟩,
    ⟨"ITIN_CAP_LAU1_HI", 0x40580418, [(16, 0x20)], [⟨31, 0, .ro, 0⟩], 2⟩,
    ⟨"ITIN_CAP_FLAGS", 0x4058041C, [(16, 0x20)], [⟨31, 31, .w1c, 0⟩, ⟨30, 30, .w1c, 0⟩, ⟨8, 0, .ro, 0⟩], 0⟩ ]

/-- The registers of EDGE. -/
def regsEDGE : List RegSpec :=
  [ ⟨"EDGE_EP_CTRL", 0x40600000, [(16, 0x100)], [⟨2, 2, .rwl, 0⟩, ⟨1, 1, .rwl, 0⟩, ⟨0, 0, .rw, 0⟩], 0⟩,
    ⟨"EDGE_EP_PW", 0x40600004, [(16, 0x100)], [⟨23, 0, .rw, 8⟩], 0⟩,
    ⟨"EDGE_EP_STAT", 0x40600008, [(16, 0x100)], [⟨26, 24, .ro, 0⟩, ⟨23, 16, .rc, 0⟩, ⟨3, 1, .ro, 0⟩, ⟨0, 0, .ro, 0⟩], 0⟩,
    ⟨"EDGE_EP_LAST", 0x4060000C, [(16, 0x100)], [⟨31, 0, .ro, 0⟩], 0⟩ ]

/-- The registers of MAC. -/
def regsMAC : List RegSpec :=
  [ ⟨"MAC_CTRL", 0x40800000, [(12, 0x10000)], [⟨4, 4, .rw, 0⟩, ⟨3, 3, .wo, 0⟩, ⟨2, 2, .wo, 0⟩, ⟨1, 1, .rw, 0⟩, ⟨0, 0, .rw, 0⟩], 0⟩,
    ⟨"MAC_MODE", 0x40800004, [(12, 0x10000)], [⟨10, 10, .rw, 0⟩, ⟨9, 9, .rw, 0⟩, ⟨8, 8, .rw, 1⟩, ⟨5, 4, .rw, 0⟩, ⟨2, 0, .rw, 0⟩], 0⟩,
    ⟨"MAC_STAT", 0x40800008, [(12, 0x10000)], [⟨12, 12, .ro, 0⟩, ⟨11, 11, .ro, 0⟩, ⟨10, 10, .ro, 0⟩, ⟨9, 9, .ro, 0⟩, ⟨8, 8, .ro, 0⟩, ⟨7, 7, .ro, 0⟩, ⟨6, 6, .ro, 0⟩, ⟨5, 5, .ro, 0⟩, ⟨4, 4, .ro, 0⟩, ⟨3, 1, .ro, 0⟩, ⟨0, 0, .ro, 0⟩], 0⟩,
    ⟨"MAC_ANADV", 0x4080000C, [(12, 0x10000)], [⟨4, 4, .rw, 0⟩, ⟨3, 3, .rw, 0⟩, ⟨2, 2, .rw, 1⟩, ⟨1, 1, .rw, 1⟩, ⟨0, 0, .rw, 1⟩], 0⟩,
    ⟨"MAC_ANLP", 0x40800010, [(12, 0x10000)], [⟨9, 8, .ro, 0⟩, ⟨7, 5, .ro, 0⟩, ⟨4, 4, .ro, 0⟩, ⟨3, 3, .ro, 0⟩, ⟨2, 0, .ro, 0⟩], 0⟩,
    ⟨"MAC_MAXLEN", 0x40800014, [(12, 0x10000)], [⟨13, 0, .rw, 0x5F2⟩], 0⟩,
    ⟨"MAC_GFILT", 0x40800070, [(12, 0x10000)], [⟨2, 2, .rw, 0⟩, ⟨1, 1, .rw, 0⟩, ⟨0, 0, .rw, 1⟩], 0⟩,
    ⟨"MAC_GHASH", 0x40800100, [(12, 0x10000), (16, 0x4)], [⟨31, 0, .rw, 0⟩], 0⟩,
    ⟨"MAC_GEX_LO", 0x40800140, [(12, 0x10000), (16, 0x8)], [⟨31, 0, .rw, 0⟩], 1⟩,
    ⟨"MAC_GEX_HI", 0x40800144, [(12, 0x10000), (16, 0x8)], [⟨31, 31, .rw, 0⟩, ⟨15, 0, .rw, 0⟩], 2⟩,
    ⟨"MAC_TSCFG", 0x40800020, [(12, 0x10000)], [⟨15, 12, .rw, 0⟩, ⟨7, 7, .rw, 0⟩, ⟨6, 6, .rw, 0⟩, ⟨5, 5, .rw, 0⟩, ⟨4, 4, .rw, 1⟩, ⟨3, 3, .rw, 1⟩, ⟨2, 2, .rw, 1⟩, ⟨0, 0, .rw, 0⟩], 0⟩,
    ⟨"MAC_PTPDOM", 0x40800024, [(12, 0x10000)], [⟨31, 0, .rw, 0⟩], 0⟩ ] ++
  [ ⟨"MAC_TSINLAT", 0x40800028, [(12, 0x10000)], [⟨15, 0, .rw, 0⟩], 0⟩,
    ⟨"MAC_TSEGLAT", 0x4080002C, [(12, 0x10000)], [⟨15, 0, .rw, 0⟩], 0⟩,
    ⟨"MAC_TSF_HDR", 0x40800030, [(12, 0x10000)], [⟨31, 31, .ro, 0⟩, ⟨30, 26, .ro, 0⟩, ⟨25, 24, .ro, 0⟩, ⟨23, 20, .ro, 0⟩, ⟨19, 17, .ro, 0⟩, ⟨15, 0, .ro, 0⟩], 0⟩,
    ⟨"MAC_TSF_SEC", 0x40800034, [(12, 0x10000)], [⟨31, 0, .ro, 0⟩], 0⟩,
    ⟨"MAC_TSF_NS", 0x40800038, [(12, 0x10000)], [⟨29, 0, .ro, 0⟩], 0⟩,
    ⟨"MAC_FCCFG", 0x40800040, [(12, 0x10000)], [⟨31, 16, .rw, 0xFFFF⟩, ⟨15, 8, .rw, 0⟩, ⟨3, 3, .rw, 0⟩, ⟨2, 2, .rw, 0⟩, ⟨1, 0, .rw, 0⟩], 0⟩,
    ⟨"MAC_FCTHR", 0x40800044, [(12, 0x10000)], [⟨31, 16, .rw, 0x30⟩, ⟨15, 0, .rw, 0x10⟩], 0⟩,
    ⟨"MAC_FCTX", 0x40800048, [(12, 0x10000)], [⟨31, 16, .wo, 0⟩, ⟨7, 0, .wo, 0⟩], 0⟩,
    ⟨"MAC_FCSTAT", 0x4080004C, [(12, 0x10000)], [⟨9, 9, .ro, 0⟩, ⟨8, 8, .ro, 0⟩, ⟨7, 0, .ro, 0⟩], 0⟩,
    ⟨"MAC_ASPD", 0x40800050, [(12, 0x10000)], [⟨31, 16, .rw, 0x7530⟩, ⟨15, 8, .rw, 0xA⟩, ⟨1, 1, .w1c, 0⟩, ⟨0, 0, .rw, 0⟩], 0⟩,
    ⟨"MAC_ASPD_THR", 0x40800054, [(12, 0x10000)], [⟨31, 16, .rw, 0x100⟩, ⟨15, 0, .rw, 4⟩], 0⟩,
    ⟨"MAC_EEE", 0x40800058, [(12, 0x10000)], [⟨31, 16, .rw, 0x64⟩, ⟨2, 2, .rw, 1⟩, ⟨1, 1, .rw, 1⟩, ⟨0, 0, .rw, 0⟩], 0⟩ ] ++
  [ ⟨"MAC_PREEMPT", 0x4080005C, [(12, 0x10000)], [⟨23, 16, .rw, 0xA⟩, ⟨15, 8, .rw, 0x3F⟩, ⟨3, 2, .rw, 0⟩, ⟨1, 1, .rw, 0⟩, ⟨0, 0, .rw, 0⟩], 0⟩,
    ⟨"MAC_PREEMPT_STAT", 0x40800060, [(12, 0x10000)], [⟨3, 3, .ro, 0⟩, ⟨2, 0, .ro, 0⟩], 0⟩,
    ⟨"MAC_IRQ", 0x40800018, [(12, 0x10000)], [⟨6, 6, .w1c, 0⟩, ⟨5, 5, .w1c, 0⟩, ⟨4, 4, .w1c, 0⟩, ⟨3, 3, .w1c, 0⟩, ⟨2, 2, .ro, 0⟩, ⟨1, 1, .ro, 0⟩, ⟨0, 0, .w1c, 0⟩], 0⟩,
    ⟨"MAC_IEN", 0x4080001C, [(12, 0x10000)], [⟨6, 0, .rw, 0⟩], 0⟩,
    ⟨"MAC_CNTHALF", 0x40800500, [(12, 0x10000), (2, 0x4)], [⟨31, 0, .w1c, 0⟩], 0⟩,
    ⟨"MAC_CNTIEN", 0x40800508, [(12, 0x10000), (2, 0x4)], [⟨31, 0, .rw, 0⟩], 0⟩,
    ⟨"MAC_CNT", 0x40800400, [(12, 0x10000), (25, 0x4)], [⟨31, 0, .ro, 0⟩], 0⟩,
    ⟨"MAC_CNTX", 0x40800480, [(12, 0x10000), (32, 0x4)], [⟨31, 0, .ro, 0⟩], 0⟩ ]

/-- The registers of BUF. -/
def regsBUF : List RegSpec :=
  [ ⟨"BUF_SWCELLS", 0x40C00000, [], [⟨7, 0, .rw, 0⟩], 0⟩,
    ⟨"BUF_FREE", 0x40C00004, [], [⟨18, 0, .ro, 0⟩], 0⟩,
    ⟨"BUF_PROT", 0x40C00008, [], [⟨18, 0, .ro, 0⟩], 0⟩,
    ⟨"BUF_LOW", 0x40C0000C, [], [⟨18, 0, .rc, 0x7FFFF⟩], 0⟩,
    ⟨"BUF_DESC", 0x40C00010, [], [⟨16, 0, .ro, 0x10000⟩], 0⟩,
    ⟨"BUF_STAT", 0x40C00014, [], [⟨2, 2, .w1c, 0⟩, ⟨1, 1, .w1c, 0⟩, ⟨0, 0, .w1c, 0⟩], 0⟩,
    ⟨"BUF_ECCCELL", 0x40C00018, [], [⟨17, 0, .ro, 0⟩], 0⟩ ]

/-- The registers of SWX. -/
def regsSWX : List RegSpec :=
  [ ⟨"SWX_FDBCFG", 0x40A00000, [], [⟨31, 16, .rw, 0x12C⟩, ⟨15, 0, .rc, 0⟩], 0⟩,
    ⟨"SWX_ETYPE_MATCH", 0x40A00010, [(16, 0x8)], [⟨31, 31, .rw, 0⟩, ⟨20, 16, .rw, 0⟩, ⟨15, 0, .rw, 0⟩], 0⟩,
    ⟨"SWX_ETYPE_PORTS", 0x40A00014, [(16, 0x8)], [⟨11, 0, .rw, 0⟩], 0⟩,
    ⟨"SWX_QTHR", 0x40A01040, [(32, 0x400), (8, 0x4)], [⟨31, 16, .rwt, 0x800⟩, ⟨15, 0, .rwt, 0x10⟩], 0⟩,
    ⟨"SWX_QSTAT", 0x40A010A0, [(32, 0x400), (8, 0x4)], [⟨31, 18, .ro, 0⟩, ⟨17, 0, .ro, 0⟩], 0⟩,
    ⟨"SWX_PORTCFG", 0x40A01000, [(32, 0x400)], [⟨16, 16, .rw, 1⟩, ⟨15, 8, .rwt, 0⟩, ⟨5, 3, .rw, 0⟩, ⟨2, 2, .wo, 0⟩, ⟨1, 1, .rw, 0⟩, ⟨0, 0, .rw, 0⟩], 0⟩,
    ⟨"SWX_PCPMAP", 0x40A01004, [(32, 0x400)], [⟨23, 0, .rwt, 0xFAC688⟩], 0⟩,
    ⟨"SWX_CBS", 0x40A01080, [(12, 0x400), (8, 0x4)], [⟨31, 0, .rwt, 0⟩], 0⟩,
    ⟨"SWX_GCLCFG", 0x40A0100C, [(32, 0x400)], [⟨17, 17, .rwt, 1⟩, ⟨16, 16, .rwt, 0⟩, ⟨8, 0, .rwt, 0⟩], 0⟩,
    ⟨"SWX_GCLSTAT", 0x40A01010, [(12, 0x400)], [⟨31, 24, .rc, 0⟩, ⟨16, 16, .ro, 0⟩, ⟨15, 8, .ro, 0xFF⟩, ⟨7, 0, .ro, 0⟩], 0⟩,
    ⟨"SWX_GCL_CTL", 0x40A10000, [(12, 0x1000), (256, 0x8)], [⟨9, 8, .rwt, 0⟩, ⟨7, 0, .rwt, 0xFF⟩], 0⟩,
    ⟨"SWX_GCL_INT", 0x40A10004, [(12, 0x1000), (256, 0x8)], [⟨30, 0, .rwt, 0⟩], 0⟩ ] ++
  [ ⟨"SWX_AGE", 0x40A01060, [(32, 0x400), (8, 0x4)], [⟨19, 0, .rwt, 0x3E80⟩], 0⟩,
    ⟨"SWX_NETCYC", 0x40A01008, [(32, 0x400)], [⟨30, 0, .rwt, 0xF4240⟩], 0⟩,
    ⟨"SWX_FC_CFG", 0x40A20000, [(256, 0x40)], [⟨31, 31, .rwt, 0⟩, ⟨30, 28, .rwt, 0⟩, ⟨27, 27, .rwt, 1⟩, ⟨26, 25, .rwt, 0⟩, ⟨24, 24, .rwt, 0⟩, ⟨23, 22, .rwt, 0⟩, ⟨21, 21, .rwt, 0⟩, ⟨19, 18, .rwt, 0⟩, ⟨17, 17, .rwt, 0⟩, ⟨16, 12, .rwt, 0⟩, ⟨11, 11, .rwt, 0⟩, ⟨4, 0, .rwt, 0⟩], 0⟩,
    ⟨"SWX_FC_DA_LO", 0x40A20004, [(256, 0x40)], [⟨31, 0, .rwt, 0⟩], 1⟩,
    ⟨"SWX_FC_DA_HI", 0x40A20008, [(256, 0x40)], [⟨27, 16, .rwt, 0⟩, ⟨15, 0, .rwt, 0⟩], 2⟩,
    ⟨"SWX_FC_EGMASK", 0x40A2000C, [(256, 0x40)], [⟨31, 0, .rwt, 0⟩], 0⟩,
    ⟨"SWX_FC_CIR", 0x40A20010, [(256, 0x40)], [⟨31, 0, .rwt, 0⟩], 0⟩,
    ⟨"SWX_FC_SDU", 0x40A20014, [(256, 0x40)], [⟨31, 16, .rwt, 0⟩, ⟨13, 0, .rwt, 0⟩], 0⟩,
    ⟨"SWX_FC_RSV", 0x40A20018, [(256, 0x40)], [⟨31, 16, .rwt, 0⟩, ⟨15, 0, .rwt, 0⟩], 0⟩,
    ⟨"SWX_FC_LTOFF", 0x40A2001C, [(256, 0x40)], [⟨30, 0, .rwt, 0⟩], 0⟩,
    ⟨"SWX_FC_CBCFG", 0x40A20020, [(256, 0x40)], [⟨15, 0, .rwt, 0x64⟩], 0⟩,
    ⟨"SWX_FC_STAT", 0x40A20024, [(256, 0x40)], [⟨31, 31, .w1c, 0⟩, ⟨30, 30, .w1c, 0⟩, ⟨15, 0, .ro, 0⟩], 0⟩ ] ++
  [ ⟨"SWX_FC_CNT", 0x40A20028, [(256, 0x40), (6, 0x4)], [⟨31, 0, .rc, 0⟩], 0⟩,
    ⟨"SWX_CNT", 0x40A01100, [(32, 0x400), (8, 0x4)], [⟨31, 0, .ro, 0⟩], 0⟩ ]

/-- The registers of ENG. -/
def regsENG : List RegSpec :=
  [ ⟨"ENG_CTRL", 0x41000000, [(16, 0x10000)], [⟨7, 4, .rw, 0xF⟩, ⟨2, 2, .rw, 0⟩, ⟨1, 1, .rw, 0⟩, ⟨0, 0, .rw, 0⟩], 0⟩,
    ⟨"ENG_STAT", 0x41000004, [(16, 0x10000)], [⟨30, 24, .ro, 0⟩, ⟨18, 18, .w1c, 0⟩, ⟨17, 17, .w1c, 0⟩, ⟨16, 16, .w1c, 0⟩, ⟨15, 12, .ro, 0⟩, ⟨11, 0, .ro, 0⟩], 0⟩,
    ⟨"ENG_MEMADDR", 0x41000008, [(16, 0x10000)], [⟨31, 30, .rw, 0⟩, ⟨16, 0, .rw, 0⟩], 0⟩,
    ⟨"ENG_MEMDATA", 0x4100000C, [(16, 0x10000)], [⟨31, 0, .rw, 0⟩], 0⟩,
    ⟨"ENG_PERMR", 0x41000010, [(16, 0x10000)], [⟨21, 0, .rw, 0x3FFFFF⟩], 0⟩,
    ⟨"ENG_PERMW", 0x41000014, [(16, 0x10000)], [⟨21, 0, .rw, 0⟩], 0⟩,
    ⟨"ENG_CNT", 0x41000020, [(16, 0x10000), (4, 0x4)], [⟨31, 0, .rc, 0⟩], 0⟩ ]

/-- The registers of DISP. -/
def regsDISP : List RegSpec :=
  [ ⟨"DISP_CLCFG", 0x41100000, [], [⟨14, 14, .rw, 0⟩, ⟨13, 12, .rw, 0⟩, ⟨11, 8, .rw, 0⟩, ⟨7, 0, .rw, 0⟩], 0⟩,
    ⟨"DISP_STAT", 0x41100004, [], [⟨18, 18, .w1c, 0⟩, ⟨16, 16, .w1c, 0⟩, ⟨12, 0, .ro, 0⟩], 0⟩,
    ⟨"DISP_CAP", 0x41100100, [(16, 0x20), (8, 0x4)], [⟨28, 16, .ro, 0⟩, ⟨12, 0, .rwt, 0x20⟩], 0⟩,
    ⟨"DISP_ENTRY", 0x41100400, [(16, 0x20), (5, 0x4)], [⟨29, 27, .rwt, 0⟩, ⟨26, 18, .rwt, 0⟩, ⟨17, 17, .rwt, 0⟩, ⟨16, 14, .rwt, 0⟩, ⟨13, 0, .rwt, 0⟩], 0⟩,
    ⟨"DISP_TMR_PER", 0x41100800, [(16, 0x8)], [⟨30, 0, .rw, 0xF4240⟩], 0⟩,
    ⟨"DISP_TMR_CFG", 0x41100804, [(16, 0x8)], [⟨31, 31, .rw, 0⟩, ⟨27, 24, .rw, 0⟩, ⟨15, 0, .rw, 0⟩], 0⟩,
    ⟨"DISP_SWPOST", 0x41100900, [(4, 0x4)], [⟨31, 0, .rw, 0⟩], 0⟩,
    ⟨"DISP_SWRES", 0x41100910, [], [⟨1, 0, .ro, 0⟩], 0⟩,
    ⟨"DISP_HELD", 0x41100C00, [(8, 0x4)], [⟨31, 0, .rc, 0⟩], 0⟩,
    ⟨"DISP_NODE_W0", 0x41110000, [(512, 0x10)], [⟨27, 24, .rwt, 0⟩, ⟨21, 21, .rwt, 0⟩, ⟨20, 20, .rwt, 0⟩, ⟨19, 17, .rwt, 0⟩, ⟨16, 14, .rwt, 0⟩, ⟨13, 0, .rwt, 0⟩], 0⟩,
    ⟨"DISP_NODE_W1", 0x41110004, [(512, 0x10)], [⟨31, 0, .rwt, 0⟩], 0⟩,
    ⟨"DISP_NODE_W2", 0x41110008, [(512, 0x10)], [⟨28, 16, .rwt, 0⟩, ⟨12, 0, .rwt, 0⟩], 0⟩ ] ++
  [ ⟨"DISP_NODE_W3", 0x4111000C, [(512, 0x10)], [⟨28, 16, .rwt, 0⟩, ⟨12, 0, .rwt, 0⟩], 0⟩,
    ⟨"DISP_TOK", 0x41112000, [(512, 0x4)], [⟨31, 0, .rw, 0⟩], 0⟩ ]

/-- The registers of CAN. -/
def regsCAN : List RegSpec :=
  [ ⟨"CAN_NBT", 0x41400008, [(4, 0x10000)], [⟨30, 24, .rw, 3⟩, ⟨22, 16, .rw, 3⟩, ⟨15, 8, .rw, 0xE⟩, ⟨7, 0, .rw, 7⟩], 0⟩,
    ⟨"CAN_DBT", 0x4140000C, [(4, 0x10000)], [⟨27, 24, .rw, 3⟩, ⟨19, 16, .rw, 3⟩, ⟨12, 8, .rw, 0xE⟩, ⟨4, 0, .rw, 1⟩], 0⟩,
    ⟨"CAN_TDC", 0x41400028, [(4, 0x10000)], [⟨22, 16, .ro, 0⟩, ⟨15, 15, .rw, 0⟩, ⟨6, 0, .rw, 0⟩], 0⟩,
    ⟨"CAN_CTRL", 0x41400000, [(4, 0x10000)], [⟨8, 8, .wo, 0⟩, ⟨7, 7, .rw, 0⟩, ⟨6, 6, .rw, 0⟩, ⟨5, 5, .wo, 0⟩, ⟨4, 4, .rw, 0⟩, ⟨3, 3, .rw, 0⟩, ⟨1, 1, .rw, 0⟩, ⟨0, 0, .rw, 1⟩], 0⟩,
    ⟨"CAN_STAT", 0x41400004, [(4, 0x10000)], [⟨9, 9, .w1c, 0⟩, ⟨8, 8, .ro, 0⟩, ⟨7, 7, .ro, 1⟩, ⟨6, 6, .ro, 0⟩, ⟨5, 5, .ro, 0⟩, ⟨4, 4, .ro, 0⟩, ⟨3, 3, .ro, 0⟩, ⟨2, 2, .ro, 0⟩, ⟨1, 0, .ro, 0⟩], 0⟩,
    ⟨"CAN_MO_CFG", 0x41404000, [(4, 0x10000), (128, 0x80)], [⟨7, 4, .rw, 0⟩, ⟨3, 2, .rw, 0⟩, ⟨1, 1, .rw, 0⟩, ⟨0, 0, .rw, 0⟩], 0⟩,
    ⟨"CAN_MO_ID", 0x41404004, [(4, 0x10000), (128, 0x80)], [⟨30, 30, .rw, 0⟩, ⟨29, 29, .rw, 0⟩, ⟨28, 0, .rw, 0⟩], 0⟩,
    ⟨"CAN_MO_FMT", 0x41404008, [(4, 0x10000), (128, 0x80)], [⟨6, 6, .rw, 0⟩, ⟨5, 5, .rw, 0⟩, ⟨4, 4, .rw, 0⟩, ⟨3, 0, .rw, 0⟩], 0⟩,
    ⟨"CAN_MO_TS", 0x4140400C, [(4, 0x10000), (128, 0x80)], [⟨31, 0, .ro, 0⟩], 0⟩,
    ⟨"CAN_MO_TTS", 0x41404010, [(4, 0x10000), (128, 0x80)], [⟨21, 16, .ro, 0⟩, ⟨15, 0, .ro, 0⟩], 0⟩,
    ⟨"CAN_MO_STAT", 0x41404014, [(4, 0x10000), (128, 0x80)], [⟨12, 12, .w1c, 0⟩, ⟨11, 8, .ro, 0⟩, ⟨7, 5, .ro, 0⟩, ⟨4, 4, .ro, 0⟩, ⟨3, 3, .w1c, 0⟩, ⟨2, 2, .ro, 0⟩, ⟨1, 1, .ro, 0⟩, ⟨0, 0, .ro, 0⟩], 0⟩,
    ⟨"CAN_MO_CMD", 0x41404018, [(4, 0x10000), (128, 0x80)], [⟨4, 4, .wo, 0⟩, ⟨3, 3, .wo, 0⟩, ⟨2, 2, .wo, 0⟩, ⟨1, 1, .wo, 0⟩, ⟨0, 0, .wo, 0⟩], 0⟩ ] ++
  [ ⟨"CAN_MO_DATA", 0x41404040, [(4, 0x10000), (128, 0x80), (16, 0x4)], [⟨31, 0, .rw, 0⟩], 0⟩,
    ⟨"CAN_RXRING", 0x41400024, [(4, 0x10000)], [⟨15, 8, .ro, 0⟩, ⟨6, 0, .ro, 0⟩], 0⟩,
    ⟨"CAN_ERR", 0x41400010, [(4, 0x10000)], [⟨23, 16, .ro, 0⟩, ⟨8, 0, .ro, 0⟩], 0⟩,
    ⟨"CAN_ERRLOG", 0x41400014, [(4, 0x10000)], [⟨3, 3, .ro, 0⟩, ⟨2, 0, .rc, 0⟩], 0⟩,
    ⟨"CAN_IRQ", 0x41400018, [(4, 0x10000)], [⟨13, 13, .w1c, 0⟩, ⟨12, 12, .w1c, 0⟩, ⟨11, 11, .w1c, 0⟩, ⟨10, 10, .w1c, 0⟩, ⟨9, 9, .w1c, 0⟩, ⟨8, 8, .w1c, 0⟩, ⟨7, 7, .w1c, 0⟩, ⟨6, 6, .w1c, 0⟩, ⟨5, 5, .w1c, 0⟩, ⟨4, 4, .w1c, 0⟩, ⟨3, 3, .w1c, 0⟩, ⟨2, 2, .w1c, 0⟩, ⟨1, 1, .w1c, 0⟩, ⟨0, 0, .w1c, 0⟩], 0⟩,
    ⟨"CAN_IEN", 0x4140001C, [(4, 0x10000)], [⟨13, 0, .rw, 0⟩], 0⟩,
    ⟨"CAN_NOTIFY", 0x41400020, [(4, 0x10000)], [⟨31, 31, .rw, 0⟩, ⟨12, 8, .rw, 0⟩, ⟨7, 0, .rw, 0⟩], 0⟩,
    ⟨"CAN_TT_CFG", 0x41400100, [(4, 0x10000)], [⟨22, 20, .rwt, 0⟩, ⟨17, 12, .rwt, 0⟩, ⟨11, 11, .rwt, 0⟩, ⟨10, 0, .rwt, 0⟩], 0⟩,
    ⟨"CAN_TT_TIME", 0x41400104, [(4, 0x10000)], [⟨28, 24, .rwt, 0⟩, ⟨21, 16, .rwt, 2⟩, ⟨15, 0, .rwt, 0x3E8⟩], 0⟩,
    ⟨"CAN_TT_START", 0x41400108, [(4, 0x10000)], [⟨31, 16, .rwt, 0x28⟩, ⟨15, 0, .rwt, 0x7D0⟩], 0⟩,
    ⟨"CAN_TT_STAT", 0x4140010C, [(4, 0x10000)], [⟨31, 16, .ro, 0⟩, ⟨15, 13, .ro, 0⟩, ⟨12, 10, .ro, 0⟩, ⟨9, 4, .ro, 0⟩, ⟨3, 0, .ro, 0⟩], 0⟩,
    ⟨"CAN_TT_DRIFT", 0x41400110, [(4, 0x10000)], [⟨31, 0, .ro, 0⟩], 0⟩ ] ++
  [ ⟨"CAN_TT_WIN", 0x41400180, [(4, 0x10000), (32, 0x4)], [⟨15, 0, .rwt, 0⟩], 0⟩,
    ⟨"CAN_TT_EMPTY", 0x41400200, [(4, 0x10000), (32, 0x4)], [⟨15, 0, .rc, 0⟩], 0⟩,
    ⟨"CAN_GT_MARK", 0x41400300, [(4, 0x10000), (32, 0x10)], [⟨15, 0, .rwt, 0⟩], 0⟩,
    ⟨"CAN_GT_MASK_LO", 0x41400304, [(4, 0x10000), (32, 0x10)], [⟨31, 0, .rwt, 0⟩], 1⟩,
    ⟨"CAN_GT_MASK_HI", 0x41400308, [(4, 0x10000), (32, 0x10)], [⟨31, 0, .rwt, 0⟩], 2⟩,
    ⟨"CAN_TT_CELL", 0x41402000, [(4, 0x10000), (64, 0x40), (16, 0x4)], [⟨31, 30, .rwt, 0⟩, ⟨22, 16, .rwt, 0⟩, ⟨15, 14, .rwt, 0⟩, ⟨6, 0, .rwt, 0⟩], 0⟩,
    ⟨"CAN_CNT", 0x41400080, [(4, 0x10000), (17, 0x4)], [⟨31, 0, .rc, 0⟩], 0⟩ ]

/-- The registers of NUT. -/
def regsNUT : List RegSpec :=
  [ ⟨"NUT_CTRL", 0x41500000, [(32, 0x1000)], [⟨27, 16, .rw, 0⟩, ⟨3, 3, .wo, 0⟩, ⟨2, 2, .wo, 0⟩, ⟨1, 1, .rw, 0⟩, ⟨0, 0, .rw, 0⟩], 0⟩,
    ⟨"NUT_STAT", 0x41500004, [(32, 0x1000)], [⟨31, 29, .ro, 0⟩, ⟨28, 24, .ro, 0⟩, ⟨23, 18, .ro, 0⟩, ⟨17, 13, .ro, 0⟩, ⟨12, 8, .ro, 0⟩, ⟨4, 4, .ro, 0⟩, ⟨3, 3, .ro, 0⟩, ⟨2, 0, .ro, 0⟩], 0⟩,
    ⟨"NUT_FLAGS", 0x41500008, [(32, 0x1000)], [⟨11, 11, .w1c, 0⟩, ⟨10, 10, .w1c, 0⟩, ⟨9, 9, .w1c, 0⟩, ⟨8, 8, .w1c, 0⟩, ⟨7, 7, .w1c, 0⟩, ⟨6, 6, .w1c, 0⟩, ⟨5, 5, .w1c, 0⟩, ⟨4, 4, .w1c, 0⟩, ⟨3, 3, .w1c, 0⟩, ⟨2, 2, .w1c, 0⟩, ⟨1, 1, .w1c, 0⟩, ⟨0, 0, .w1c, 0⟩], 0⟩,
    ⟨"NUT_CFG", 0x4150000C, [(32, 0x1000)], [⟨27, 24, .rw, 0⟩, ⟨17, 16, .rw, 0⟩, ⟨15, 14, .rw, 0⟩, ⟨13, 12, .rw, 0⟩, ⟨11, 8, .rw, 0⟩, ⟨7, 7, .rw, 0⟩, ⟨6, 6, .rw, 0⟩, ⟨5, 5, .rw, 0⟩, ⟨4, 2, .rw, 0⟩, ⟨1, 1, .rw, 0⟩, ⟨0, 0, .rw, 0⟩], 0⟩,
    ⟨"NUT_CLK", 0x41500010, [(32, 0x1000)], [⟨31, 16, .rw, 0⟩, ⟨15, 0, .rw, 0x13⟩], 0⟩,
    ⟨"NUT_PINCFG", 0x41500014, [(32, 0x1000)], [⟨29, 24, .rw, 0⟩, ⟨17, 16, .rw, 0⟩, ⟨15, 8, .rw, 0⟩, ⟨7, 0, .rw, 0⟩], 0⟩,
    ⟨"NUT_WDOG", 0x41500018, [(32, 0x1000)], [⟨20, 16, .rw, 0⟩, ⟨15, 0, .rw, 0⟩], 0⟩,
    ⟨"NUT_CRCCFG", 0x4150001C, [(32, 0x1000)], [⟨31, 28, .rw, 0⟩, ⟨15, 0, .rw, 0⟩], 0⟩,
    ⟨"NUT_CRCVAL", 0x41500020, [(32, 0x1000)], [⟨31, 16, .rw, 0⟩, ⟨15, 0, .rw, 0⟩], 0⟩,
    ⟨"NUT_CRCST", 0x41500024, [(32, 0x1000)], [⟨15, 0, .ro, 0⟩], 0⟩,
    ⟨"NUT_SR", 0x41500028, [(32, 0x1000)], [⟨31, 0, .rw, 0⟩], 0⟩,
    ⟨"NUT_CNT", 0x4150002C, [(32, 0x1000)], [⟨31, 0, .rw, 0⟩], 0⟩ ] ++
  [ ⟨"NUT_CMP", 0x41500030, [(32, 0x1000)], [⟨31, 0, .rw, 0⟩], 0⟩,
    ⟨"NUT_PER", 0x41500034, [(32, 0x1000)], [⟨31, 0, .rw, 0⟩], 0⟩,
    ⟨"NUT_X", 0x41500038, [(32, 0x1000)], [⟨15, 0, .rw, 0⟩], 0⟩,
    ⟨"NUT_BC", 0x4150003C, [(32, 0x1000)], [⟨15, 0, .ro, 0⟩], 0⟩,
    ⟨"NUT_TXQ", 0x41500040, [(32, 0x1000)], [⟨31, 0, .wo, 0⟩], 0⟩,
    ⟨"NUT_RXQ", 0x41500044, [(32, 0x1000)], [⟨31, 0, .rc, 0⟩], 0⟩,
    ⟨"NUT_INJ", 0x41500048, [(32, 0x1000)], [⟨31, 31, .ro, 0⟩, ⟨16, 16, .wo, 0⟩, ⟨15, 0, .wo, 0⟩], 0⟩,
    ⟨"NUT_POS", 0x4150004C, [(32, 0x1000)], [⟨31, 0, .ro, 0⟩], 0⟩,
    ⟨"NUT_POSTS", 0x41500050, [(32, 0x1000)], [⟨31, 0, .ro, 0⟩], 0⟩,
    ⟨"NUT_CAPT", 0x41500054, [(32, 0x1000)], [⟨31, 0, .ro, 0⟩], 0⟩,
    ⟨"NUT_CAPTTS", 0x41500058, [(32, 0x1000)], [⟨31, 0, .ro, 0⟩], 0⟩,
    ⟨"NUT_STARTTS", 0x4150005C, [(32, 0x1000)], [⟨31, 0, .ro, 0⟩], 0⟩ ] ++
  [ ⟨"NUT_MARKTS", 0x41500060, [(32, 0x1000)], [⟨31, 0, .ro, 0⟩], 0⟩,
    ⟨"NUT_PROG", 0x41500080, [(32, 0x1000), (32, 0x4)], [⟨15, 0, .rw, 0x100⟩], 0⟩ ]

/-- The registers of LOOP. -/
def regsLOOP : List RegSpec :=
  [ ⟨"LOOP_NVMAP", 0x41200040, [(16, 0x4)], [⟨5, 0, .rw, 0⟩], 0⟩,
    ⟨"LOOP_TSG_CTRL", 0x41200100, [], [⟨31, 20, .rw, 0⟩, ⟨17, 15, .rw, 0⟩, ⟨14, 12, .rw, 7⟩, ⟨11, 4, .rw, 0⟩, ⟨3, 3, .rw, 0⟩, ⟨2, 1, .rw, 0⟩, ⟨0, 0, .rw, 0⟩], 0⟩,
    ⟨"LOOP_TSG_AMP", 0x41200104, [], [⟨31, 0, .rw, 0⟩], 0⟩,
    ⟨"LOOP_TSG_F0", 0x41200108, [], [⟨31, 0, .rw, 0⟩], 0⟩,
    ⟨"LOOP_TSG_F1", 0x4120010C, [], [⟨31, 0, .rw, 0⟩], 0⟩,
    ⟨"LOOP_TSG_N", 0x41200110, [], [⟨31, 0, .rw, 0⟩], 0⟩,
    ⟨"LOOP_TSG_STAT", 0x41200114, [], [⟨31, 8, .ro, 0⟩, ⟨0, 0, .ro, 0⟩], 0⟩,
    ⟨"LOOP_CAP_CTRL", 0x41200200, [], [⟨18, 11, .rw, 0⟩, ⟨10, 3, .rw, 0⟩, ⟨2, 2, .rw, 0⟩, ⟨1, 1, .rw, 0⟩, ⟨0, 0, .rw, 0⟩], 0⟩,
    ⟨"LOOP_CAP_SEL", 0x41200204, [], [⟨23, 16, .rw, 0⟩, ⟨15, 8, .rw, 0⟩, ⟨7, 0, .rw, 0⟩], 0⟩,
    ⟨"LOOP_CAP_BASE", 0x41200208, [], [⟨17, 0, .rw, 0⟩], 0⟩,
    ⟨"LOOP_CAP_LEN", 0x4120020C, [], [⟨16, 0, .rw, 0x10000⟩], 0⟩,
    ⟨"LOOP_CAP_STAT", 0x41200210, [], [⟨19, 19, .w1c, 0⟩, ⟨18, 18, .w1c, 0⟩, ⟨17, 17, .w1c, 0⟩, ⟨16, 0, .ro, 0⟩], 0⟩ ] ++
  [ ⟨"LOOP_CTX_CTRL", 0x41210000, [(256, 0x100)], [⟨3, 3, .wo, 0⟩, ⟨2, 2, .wo, 0⟩, ⟨1, 1, .rw, 0⟩, ⟨0, 0, .rw, 0⟩], 0⟩,
    ⟨"LOOP_CTX_CFG", 0x41210004, [(256, 0x100)], [⟨26, 24, .rwt, 7⟩, ⟨23, 12, .rwt, 0⟩, ⟨11, 6, .rwt, 0⟩, ⟨5, 4, .rwt, 0⟩, ⟨3, 3, .rwt, 0⟩, ⟨2, 0, .rwt, 0⟩], 0⟩,
    ⟨"LOOP_CTX_RATE", 0x41210008, [(256, 0x100)], [⟨16, 0, .rwt, 0⟩], 0⟩,
    ⟨"LOOP_CTX_TIMING", 0x4121000C, [(256, 0x100)], [⟨31, 24, .rwt, 0⟩, ⟨23, 0, .rwt, 0⟩], 0⟩,
    ⟨"LOOP_CTX_STAT", 0x41210010, [(256, 0x100)], [⟨31, 24, .ro, 0⟩, ⟨23, 20, .ro, 0⟩, ⟨12, 12, .ro, 0⟩, ⟨11, 11, .w1c, 0⟩, ⟨10, 10, .w1c, 0⟩, ⟨9, 9, .w1c, 0⟩, ⟨8, 8, .w1c, 0⟩, ⟨7, 7, .ro, 0⟩, ⟨6, 6, .ro, 0⟩, ⟨5, 5, .ro, 0⟩, ⟨4, 4, .ro, 0⟩, ⟨3, 3, .ro, 0⟩, ⟨2, 2, .ro, 0⟩, ⟨1, 1, .ro, 0⟩, ⟨0, 0, .ro, 0⟩], 0⟩,
    ⟨"LOOP_CTX_MANOUT", 0x41210014, [(256, 0x100)], [⟨31, 0, .rw, 0⟩], 0⟩,
    ⟨"LOOP_CTX_LASTTS", 0x41210018, [(256, 0x100)], [⟨31, 0, .ro, 0⟩], 0⟩,
    ⟨"LOOP_CTX_LASTDUR", 0x4121001C, [(256, 0x100)], [⟨31, 16, .ro, 0⟩, ⟨15, 0, .ro, 0⟩], 0⟩,
    ⟨"LOOP_CTRL", 0x41200000, [], [⟨0, 0, .rw, 0⟩], 0⟩,
    ⟨"LOOP_STAT", 0x41200004, [], [⟨16, 16, .ro, 0⟩, ⟨8, 0, .ro, 0⟩], 0⟩,
    ⟨"LOOP_LOAD", 0x41200008, [], [⟨31, 0, .ro, 0⟩], 0⟩,
    ⟨"LOOP_LOADMAX", 0x4120000C, [], [⟨31, 0, .rc, 0⟩], 0⟩ ] ++
  [ ⟨"LOOP_BUDGET", 0x41200010, [], [⟨31, 0, .ro, 0⟩], 0⟩,
    ⟨"LOOP_CTX_CNT", 0x41210020, [(256, 0x100), (4, 0x4)], [⟨31, 0, .rc, 0⟩], 0⟩,
    ⟨"LOOP_NV", 0x41204000, [(4096, 0x4)], [⟨31, 0, .rw, 0⟩], 0⟩,
    ⟨"LOOP_STATE_LO", 0x41280000, [(256, 0x200), (32, 0x8)], [⟨31, 0, .rw, 0⟩], 1⟩,
    ⟨"LOOP_STATE_HI", 0x41280004, [(256, 0x200), (32, 0x8)], [⟨31, 0, .rw, 0⟩], 2⟩,
    ⟨"LOOP_STATE", 0x41280100, [(256, 0x200), (16, 0x4)], [⟨31, 0, .rw, 0⟩], 0⟩,
    ⟨"LOOP_COEF", 0x41300000, [(256, 0x400), (256, 0x4)], [⟨31, 0, .rwt, 0⟩], 0⟩ ]

/-- The registers of SAF. -/
def regsSAF : List RegSpec :=
  [ ⟨"SAF_STAT", 0x41600000, [], [⟨15, 12, .ro, 0⟩, ⟨7, 7, .ro, 0⟩, ⟨6, 6, .ro, 0⟩, ⟨5, 5, .ro, 0⟩, ⟨4, 4, .ro, 0⟩, ⟨3, 3, .ro, 0⟩, ⟨2, 2, .ro, 0⟩, ⟨1, 1, .ro, 0⟩, ⟨0, 0, .ro, 0⟩], 0⟩,
    ⟨"SAF_REASON", 0x41600004, [], [⟨23, 16, .ro, 0⟩, ⟨15, 8, .ro, 0⟩, ⟨7, 0, .ro, 0⟩], 0⟩,
    ⟨"SAF_REASONTS", 0x41600008, [], [⟨31, 0, .ro, 0⟩], 0⟩,
    ⟨"SAF_STAT2", 0x4160000C, [], [⟨15, 0, .ro, 0⟩], 0⟩,
    ⟨"SAF_INPUTS", 0x41600010, [], [⟨31, 16, .ro, 0⟩, ⟨15, 0, .ro, 0⟩], 0⟩,
    ⟨"SAF_OUTPUTS", 0x41600014, [], [⟨15, 12, .ro, 0⟩, ⟨11, 8, .ro, 0⟩, ⟨7, 4, .ro, 0⟩, ⟨3, 2, .ro, 0⟩, ⟨1, 0, .ro, 0⟩], 0⟩,
    ⟨"SAF_CCV_A", 0x41600018, [], [⟨31, 0, .ro, 0⟩], 0⟩,
    ⟨"SAF_CCV_B", 0x4160001C, [], [⟨31, 0, .ro, 0⟩], 0⟩,
    ⟨"SAF_CCV_CONF", 0x41600020, [], [⟨31, 0, .ro, 0⟩], 0⟩,
    ⟨"SAF_BTEST", 0x41600024, [(2, 0x4)], [⟨31, 16, .ro, 0⟩, ⟨3, 0, .ro, 0⟩], 0⟩,
    ⟨"SAF_BTDEV", 0x4160002C, [(2, 0x4)], [⟨31, 0, .ro, 0⟩], 0⟩,
    ⟨"SAF_CONN_STAT", 0x41600100, [(16, 0x10)], [⟨6, 6, .ro, 0⟩, ⟨5, 5, .ro, 0⟩, ⟨4, 4, .ro, 0⟩, ⟨3, 3, .ro, 0⟩, ⟨2, 0, .ro, 0⟩], 0⟩ ] ++
  [ ⟨"SAF_CONN_SEQ", 0x41600104, [(16, 0x10)], [⟨31, 0, .ro, 0⟩], 0⟩,
    ⟨"SAF_CONN_ERR", 0x41600108, [(16, 0x10)], [⟨23, 16, .ro, 0⟩, ⟨15, 8, .ro, 0⟩, ⟨7, 0, .ro, 0⟩], 0⟩,
    ⟨"SAF_CONN_SKEW", 0x4160010C, [(16, 0x10)], [⟨15, 0, .ro, 0⟩], 0⟩ ]

/-- The registers of FCU. -/
def regsFCU : List RegSpec :=
  [ ⟨"FCU_CTRL", 0x40200000, [], [⟨8, 8, .rw, 0⟩, ⟨6, 4, .rw, 2⟩, ⟨0, 0, .w1s, 0⟩], 0⟩,
    ⟨"FCU_STAT", 0x40200004, [], [⟨31, 31, .ro, 0⟩, ⟨30, 30, .w1c, 0⟩, ⟨29, 29, .w1c, 0⟩, ⟨28, 28, .ro, 1⟩, ⟨27, 27, .ro, 1⟩, ⟨26, 26, .ro, 0⟩, ⟨25, 25, .w1c, 0⟩, ⟨13, 8, .ro, 0⟩, ⟨4, 0, .ro, 0⟩], 0⟩,
    ⟨"FCU_ACK", 0x40200008, [], [⟨4, 0, .wo, 0⟩], 0⟩,
    ⟨"FCU_SELFINFO", 0x4020000C, [], [⟨17, 17, .ro, 0⟩, ⟨16, 16, .ro, 0⟩, ⟨15, 0, .ro, 0⟩], 0⟩,
    ⟨"FCU_ASSERT", 0x40200100, [(16, 0x4)], [⟨31, 0, .ro, 0⟩], 0⟩,
    ⟨"FCU_SEEN", 0x40200140, [(16, 0x4)], [⟨31, 0, .w1c, 0⟩], 0⟩,
    ⟨"FCU_WIRE", 0x40200180, [(16, 0x4)], [⟨31, 0, .w1c, 0⟩], 0⟩,
    ⟨"FCU_FORCE", 0x402001C0, [(16, 0x4)], [⟨31, 0, .rw, 0⟩], 0⟩,
    ⟨"FCU_SRCCFG", 0x40200400, [(512, 0x4)], [⟨8, 8, .ro, 0⟩, ⟨6, 4, .rw, 0⟩, ⟨2, 0, .rw, 0⟩], 0⟩,
    ⟨"FCU_REC_W0", 0x40201000, [(32, 0x10)], [⟨31, 24, .ro, 0⟩, ⟨23, 16, .ro, 0⟩, ⟨15, 15, .ro, 0⟩, ⟨14, 12, .ro, 0⟩, ⟨11, 9, .ro, 0⟩, ⟨8, 0, .ro, 0⟩], 0⟩,
    ⟨"FCU_REC_TS", 0x40201004, [(32, 0x10)], [⟨31, 0, .ro, 0⟩], 0⟩,
    ⟨"FCU_REC_W2", 0x40201008, [(32, 0x10)], [⟨31, 31, .ro, 0⟩, ⟨30, 30, .ro, 0⟩, ⟨29, 29, .ro, 0⟩, ⟨24, 16, .ro, 0⟩, ⟨12, 12, .ro, 0⟩, ⟨11, 9, .ro, 0⟩, ⟨8, 0, .ro, 0⟩], 0⟩ ] ++
  [ ⟨"FCU_REC_INFO", 0x4020100C, [(32, 0x10)], [⟨31, 0, .ro, 0⟩], 0⟩ ]

/-- The registers of MEM. -/
def regsMEM : List RegSpec :=
  [ ⟨"MEM_CTRL", 0x41700000, [], [⟨31, 16, .rw, 0x3E8⟩, ⟨0, 0, .rw, 1⟩], 0⟩,
    ⟨"MEM_STAT", 0x41700004, [], [⟨25, 25, .ro, 0⟩, ⟨24, 24, .ro, 0⟩, ⟨23, 12, .ro, 0⟩, ⟨11, 0, .ro, 0xFFF⟩], 0⟩,
    ⟨"MEM_ECCADDR", 0x41700008, [], [⟨31, 31, .ro, 0⟩, ⟨23, 3, .ro, 0⟩], 0⟩,
    ⟨"MEM_UNCADDR", 0x4170000C, [], [⟨31, 31, .ro, 0⟩, ⟨23, 3, .ro, 0⟩], 0⟩,
    ⟨"MEM_CONF", 0x41700080, [(32, 0x4)], [⟨31, 0, .rc, 0⟩], 0⟩,
    ⟨"MEM_REPSTAT", 0x41700100, [(48, 0x4)], [⟨11, 0, .ro, 0⟩], 0⟩,
    ⟨"MEM_REPSUM", 0x417001C0, [], [⟨24, 16, .ro, 0⟩, ⟨8, 0, .ro, 0⟩], 0⟩,
    ⟨"MEM_FLASK", 0x41700200, [], [⟨22, 16, .ro, 0⟩, ⟨13, 8, .ro, 0⟩, ⟨6, 6, .ro, 0⟩, ⟨5, 0, .ro, 0⟩], 0⟩,
    ⟨"MEM_HAMPRET", 0x41700310, [(16, 0x4)], [⟨31, 31, .ro, 0⟩, ⟨17, 0, .ro, 0⟩], 0⟩,
    ⟨"MEM_CNT", 0x41700010, [(4, 0x4)], [⟨31, 0, .rc, 0⟩], 0⟩ ]

/-- The registers of PWR. -/
def regsPWR : List RegSpec :=
  [ ⟨"PWR_DOMSTAT", 0x40100000, [], [⟨23, 0, .ro, 0x15⟩], 0⟩,
    ⟨"PWR_VOTE", 0x40100004, [], [⟨31, 16, .rw, 0x7D0⟩, ⟨11, 8, .ro, 0⟩, ⟨7, 4, .ro, 0⟩, ⟨3, 1, .ro, 0⟩], 0⟩,
    ⟨"PWR_WAKE", 0x40100008, [], [⟨22, 16, .w1c, 0⟩, ⟨6, 0, .rw, 0xF⟩], 0⟩,
    ⟨"PWR_WAKESEC", 0x4010000C, [], [⟨31, 0, .rw, 0⟩], 0⟩,
    ⟨"PWR_SPER", 0x40100010, [], [⟨13, 0, .rw, 0x64⟩], 0⟩,
    ⟨"PWR_SCFG", 0x40100014, [], [⟨24, 24, .rw, 0⟩, ⟨23, 16, .rw, 0xD8⟩, ⟨15, 8, .rw, 0x64⟩, ⟨7, 0, .rw, 0⟩], 0⟩,
    ⟨"PWR_SNPMASK_LO", 0x40100018, [], [⟨31, 0, .rw, 0⟩], 1⟩,
    ⟨"PWR_SNPMASK_HI", 0x4010001C, [], [⟨31, 0, .rw, 0⟩], 2⟩,
    ⟨"PWR_SNPLVL_LO", 0x40100020, [], [⟨31, 0, .rw, 0⟩], 1⟩,
    ⟨"PWR_SNPLVL_HI", 0x40100024, [], [⟨31, 0, .rw, 0⟩], 2⟩,
    ⟨"PWR_SCELLS", 0x40100028, [], [⟨31, 0, .rw, 0⟩], 0⟩,
    ⟨"PWR_SCNTTHR", 0x4010002C, [], [⟨15, 0, .rw, 0⟩], 0⟩ ] ++
  [ ⟨"PWR_SSTAT", 0x40100030, [], [⟨31, 16, .ro, 0⟩, ⟨4, 0, .ro, 0⟩], 0⟩,
    ⟨"PWR_RSTCFG", 0x40100048, [], [⟨0, 0, .rw, 0⟩], 0⟩,
    ⟨"PWR_VINCFG", 0x40100040, [], [⟨31, 16, .rw, 0x2A30⟩, ⟨15, 0, .rw, 0x2580⟩], 0⟩,
    ⟨"PWR_HOLDSTAT", 0x40100044, [], [⟨31, 16, .ro, 0⟩, ⟨15, 0, .ro, 0⟩], 0⟩ ]

/-- The registers of HOST. -/
def regsHOST : List RegSpec :=
  [ ⟨"HOST_FQ_BASE", 0x41800400, [(2, 0x20)], [⟨17, 0, .rw, 0⟩], 0⟩,
    ⟨"HOST_FQ_CFG", 0x41800404, [(2, 0x20)], [⟨31, 31, .rw, 0⟩, ⟨30, 30, .rw, 0⟩, ⟨21, 16, .rw, 0⟩, ⟨11, 0, .rw, 0⟩], 0⟩,
    ⟨"HOST_FQ_PROD", 0x41800408, [(2, 0x20)], [⟨11, 0, .rw, 0⟩], 0⟩,
    ⟨"HOST_FQ_CONS", 0x4180040C, [(2, 0x20)], [⟨11, 0, .rw, 0⟩], 0⟩,
    ⟨"HOST_FQ_STAT", 0x41800410, [(2, 0x20)], [⟨31, 31, .w1c, 0⟩, ⟨30, 30, .w1c, 0⟩, ⟨29, 29, .w1c, 0⟩, ⟨23, 16, .rc, 0⟩, ⟨15, 0, .ro, 0⟩], 0⟩,
    ⟨"HOST_STAT", 0x41800000, [], [⟨31, 31, .ro, 0⟩, ⟨8, 8, .ro, 0⟩, ⟨7, 7, .ro, 0⟩, ⟨6, 6, .ro, 0⟩, ⟨5, 4, .ro, 0⟩, ⟨3, 1, .ro, 0⟩, ⟨0, 0, .ro, 0⟩], 0⟩,
    ⟨"HOST_LINKCFG", 0x41800004, [], [⟨3, 3, .rw, 1⟩, ⟨2, 2, .rw, 1⟩, ⟨1, 0, .rw, 3⟩], 0⟩,
    ⟨"HOST_ERR", 0x41800008, [], [⟨8, 8, .w1c, 0⟩, ⟨7, 7, .w1c, 0⟩, ⟨6, 6, .w1c, 0⟩, ⟨5, 5, .w1c, 0⟩, ⟨4, 4, .w1c, 0⟩, ⟨3, 3, .w1c, 0⟩, ⟨2, 2, .w1c, 0⟩, ⟨1, 1, .w1c, 0⟩, ⟨0, 0, .w1c, 0⟩], 0⟩,
    ⟨"HOST_ERRIEN", 0x4180000C, [], [⟨8, 0, .rw, 0⟩], 0⟩,
    ⟨"HOST_B2CTRL", 0x41800010, [], [⟨0, 0, .rw, 0⟩], 0⟩,
    ⟨"HOST_RWADDR", 0x41800014, [], [⟨31, 2, .rw, 0⟩, ⟨0, 0, .rw, 0⟩], 0⟩,
    ⟨"HOST_RWDATA", 0x41800018, [], [⟨31, 0, .rw, 0⟩], 0⟩ ] ++
  [ ⟨"HOST_DBEN", 0x41800020, [], [⟨31, 0, .rw, 0⟩], 0⟩,
    ⟨"HOST_MBPEND", 0x41800030, [(3, 0x4)], [⟨31, 0, .ro, 0⟩], 0⟩,
    ⟨"HOST_MBEN", 0x41800040, [(3, 0x4)], [⟨31, 0, .rw, 0⟩], 0⟩,
    ⟨"HOST_VSTATE", 0x41800050, [], [⟨31, 0, .ro, 0⟩], 0⟩,
    ⟨"HOST_SPIVEN", 0x41800054, [], [⟨31, 0, .rw, 0⟩], 0⟩,
    ⟨"HOST_ROUTE", 0x41800100, [(24, 0x4)], [⟨8, 8, .rw, 0⟩, ⟨4, 0, .rw, 0⟩], 0⟩ ]

/-- The registers of MBX. -/
def regsMBX : List RegSpec :=
  [ ⟨"MBX_CH_SEND", 0x40300000, [(96, 0x100), (16, 0x4)], [⟨31, 0, .rw, 0⟩], 0⟩,
    ⟨"MBX_CH_CMD", 0x40300040, [(96, 0x100)], [⟨2, 2, .wo, 0⟩, ⟨1, 1, .wo, 0⟩, ⟨0, 0, .wo, 0⟩], 0⟩,
    ⟨"MBX_CH_HEAD", 0x40300080, [(96, 0x100), (16, 0x4)], [⟨31, 0, .ro, 0⟩], 0⟩,
    ⟨"MBX_CH_STAT", 0x403000C0, [(96, 0x100)], [⟨9, 9, .w1c, 0⟩, ⟨8, 8, .w1c, 0⟩, ⟨4, 0, .ro, 0⟩], 0⟩,
    ⟨"MBX_CH_SENT", 0x403000C4, [(96, 0x100)], [⟨31, 0, .ro, 0⟩], 0⟩,
    ⟨"MBX_CH_REFUSED", 0x403000C8, [(96, 0x100)], [⟨31, 0, .rc, 0⟩], 0⟩,
    ⟨"MBX_CH_CFG", 0x403000CC, [(96, 0x100)], [⟨0, 0, .rw, 1⟩], 0⟩,
    ⟨"MBX_DBRING", 0x40306000, [], [⟨12, 8, .wo, 0⟩, ⟨7, 0, .wo, 0⟩], 0⟩,
    ⟨"MBX_DB", 0x40306100, [(23, 0x4)], [⟨31, 0, .w1c, 0⟩], 0⟩ ]

/-- The registers of TXN. -/
def regsTXN : List RegSpec :=
  [ ⟨"TXN_CFG", 0x41900000, [], [⟨31, 24, .rw, 0xA⟩, ⟨15, 0, .rw, 0x64⟩], 0⟩,
    ⟨"TXN_STAT", 0x41900004, [], [⟨31, 24, .rc, 0⟩, ⟨23, 16, .ro, 0⟩, ⟨15, 8, .ro, 0⟩, ⟨0, 0, .w1c, 0⟩], 0⟩,
    ⟨"TXN_INCADDR", 0x41900008, [], [⟨31, 0, .ro, 0⟩], 0⟩,
    ⟨"TXN_CH_CTRL", 0x41900100, [(21, 0x20)], [⟨2, 2, .wo, 0⟩, ⟨1, 1, .wo, 0⟩, ⟨0, 0, .wo, 0⟩], 0⟩,
    ⟨"TXN_CH_APPLY", 0x41900104, [(21, 0x20)], [⟨5, 4, .rw, 0⟩, ⟨1, 0, .rw, 0⟩], 0⟩,
    ⟨"TXN_CH_APPLY_LO", 0x41900108, [(21, 0x20)], [⟨31, 0, .rw, 0⟩], 1⟩,
    ⟨"TXN_CH_APPLY_HI", 0x4190010C, [(21, 0x20)], [⟨31, 0, .rw, 0⟩], 2⟩,
    ⟨"TXN_CH_STAT", 0x41900110, [(21, 0x20)], [⟨31, 16, .ro, 0⟩, ⟨14, 4, .ro, 0⟩, ⟨3, 3, .ro, 0⟩, ⟨2, 2, .ro, 0⟩, ⟨1, 1, .ro, 0⟩, ⟨0, 0, .ro, 0⟩], 0⟩,
    ⟨"TXN_CH_HANDLE", 0x41900114, [(21, 0x20)], [⟨31, 0, .ro, 0⟩], 0⟩,
    ⟨"TXN_CH_FAIL", 0x41900118, [(21, 0x20)], [⟨31, 0, .ro, 0⟩], 0⟩,
    ⟨"TXN_CH_DETAIL", 0x4190011C, [(21, 0x20)], [⟨15, 8, .ro, 0⟩, ⟨7, 0, .ro, 0⟩], 0⟩ ]

/-- The registers of PIN. -/
def regsPIN : List RegSpec :=
  [ ⟨"PIN_NP", 0x41A00000, [(64, 0x4)], [⟨4, 3, .rw, 1⟩, ⟨2, 2, .rw, 1⟩, ⟨1, 0, .rw, 1⟩], 0⟩,
    ⟨"PIN_EP", 0x41A00100, [(16, 0x4)], [⟨2, 2, .rw, 0⟩, ⟨1, 0, .rw, 1⟩], 0⟩,
    ⟨"PIN_MDIO", 0x41A00140, [], [⟨31, 31, .w1s, 0⟩, ⟨30, 30, .rw, 0⟩, ⟨28, 24, .rw, 0⟩, ⟨20, 16, .rw, 0⟩, ⟨15, 0, .rw, 0⟩], 0⟩,
    ⟨"PIN_IOSTAT", 0x41A00150, [], [⟨7, 7, .ro, 1⟩, ⟨6, 6, .ro, 1⟩, ⟨5, 5, .ro, 1⟩, ⟨4, 4, .ro, 1⟩, ⟨3, 3, .ro, 1⟩, ⟨2, 2, .ro, 1⟩, ⟨1, 1, .ro, 1⟩, ⟨0, 0, .ro, 1⟩], 0⟩ ]

/-- An offset lies at an instance of an index list, strides from the largest down. -/
def dimsHit : List (Nat × Nat) → Nat → Bool
  | [], off => off == 0
  | (c, st) :: t, off => decide (off / st < c) && dimsHit t (off % st)

/-- An address is an instance of a register. -/
def specHit (a : Nat) (r : RegSpec) : Bool := decide (r.addr ≤ a) && dimsHit r.dims (a - r.addr)

/-- The registers of the block an address lies in (R19). -/
def blockRegs (a : Nat) : List RegSpec :=
  if a < 0x40000000 then []
  else if a < 0x40100000 then regsSYS
  else if a < 0x40200000 then regsPWR
  else if a < 0x40300000 then regsFCU
  else if a < 0x40400000 then regsMBX
  else if a < 0x40500000 then regsTIME
  else if a < 0x40580000 then regsLAU
  else if a < 0x40600000 then regsITIN
  else if a < 0x40800000 then regsEDGE
  else if a < 0x40A00000 then regsMAC
  else if a < 0x40C00000 then regsSWX
  else if a < 0x41000000 then regsBUF
  else if a < 0x41100000 then regsENG
  else if a < 0x41200000 then regsDISP
  else if a < 0x41400000 then regsLOOP
  else if a < 0x41500000 then regsCAN
  else if a < 0x41600000 then regsNUT
  else if a < 0x41700000 then regsSAF
  else if a < 0x41800000 then regsMEM
  else if a < 0x41900000 then regsHOST
  else if a < 0x41A00000 then regsTXN
  else if a < 0x41B00000 then regsPIN
  else []

/-- The register at an address, where there is one. -/
def findReg (a : Nat) : Option RegSpec := (blockRegs a).find? (specHit a)

/-- The word of a register whose every field holds its reset value. -/
def resetWord (r : RegSpec) : Word :=
  r.fields.foldl (fun w f => setBits w f.hi f.lo f.reset) 0

/-- The fields of a register that have an access code, as a mask. -/
def accMask (r : RegSpec) (c : Acc) : Word :=
  r.fields.foldl (fun m f => if f.acc = c then m ||| maskW f.hi f.lo else m) 0

/-- Class, reaction (`0` log, `1` interrupt, `2` block reset, `3` DEGRADED, `4` safe state) and the fixed mark of source `i`
at reset (R281). -/
def srcDefault (i : Nat) : Nat × Nat × Bool :=
  if i ≤ 2 then (3, 4, false)
  else if i = 3 then (3, 3, false)
  else if i ≤ 6 then (2, 1, false)
  else if i = 7 then (4, 4, true)
  else if i = 8 then (3, 0, false)
  else if i = 9 then (3, 4, false)
  else if i = 10 then (0, 0, false)
  else if i = 11 then (2, 1, false)
  else if i = 12 then (3, 4, false)
  else if i = 13 then (3, 0, false)
  else if i = 14 then (0, 0, true)
  else if i = 15 then (0, 0, false)
  else if i ≤ 22 then (2, 1, false)
  else if i = 23 then (3, 3, false)
  else if i < 32 then (0, 0, false)
  else if i < 80 then
    if (i - 32) % 4 = 0 then (0, 0, false)
    else if (i - 32) % 4 = 1 then (2, 1, false)
    else if (i - 32) % 4 = 2 then (2, 2, false)
    else (0, 0, false)
  else if i = 80 then (1, 0, false)
  else if i = 81 then (2, 1, false)
  else if i ≤ 83 then (0, 0, false)
  else if i ≤ 88 then (3, 4, false)
  else if i < 96 then (0, 0, false)
  else if i < 160 then
    if (i - 96) % 4 = 0 then (1, 0, false)
    else if (i - 96) % 4 = 1 then (3, 2, false)
    else if (i - 96) % 4 = 2 then (3, 2, false)
    else (0, 0, false)
  else if i = 160 then (2, 1, false)
  else if i = 161 then (3, 4, false)
  else if i < 176 then (0, 0, false)
  else if i = 176 then (2, 1, false)
  else if i = 177 then (3, 2, false)
  else if i < 192 then (0, 0, false)
  else if i < 224 then (if (i - 192) % 8 < 5 then (2, 1, false) else (0, 0, false))
  else if i < 256 then (2, 1, false)
  else if i < 304 then (3, 3, false)
  else if i = 304 then (1, 0, false)
  else if i = 305 then (3, 4, false)
  else if i = 306 then (1, 0, false)
  else if i = 307 then (2, 1, false)
  else if i = 308 then (1, 0, false)
  else if i = 309 then (3, 4, false)
  else if i < 320 then (0, 0, false)
  else if i < 324 then (3, 4, false)
  else if i < 328 then (2, 1, false)
  else if i = 336 then (4, 4, true)
  else if i = 337 then (2, 0, true)
  else if i = 352 ∨ i = 353 then (2, 1, false)
  else if 368 ≤ i ∧ i ≤ 375 then (2, 1, false)
  else (0, 0, false)

/-- The reset word of an address; 0 where no register stands. (log 7, DESIGN CHOICE) -/
def regReset (a : Nat) : Word :=
  if FCU_SRCCFG 0 ≤ a ∧ a < FCU_SRCCFG 512 ∧ a % 4 = 0 then
    let d := srcDefault ((a - FCU_SRCCFG 0) / 4)
    w32 (d.1 + 16 * d.2.1 + 256 * bit d.2.2)
  else match findReg a with
    | none => 0
    | some r =>
      if r.name = "SWX_AGE" then (if (a - r.addr) % 0x400 / 4 ≤ 5 then w32 16000 else 0)
      else if r.name = "LOOP_NVMAP" then w32 ((a - r.addr) / 4)
      else resetWord r


end Sys2Proof.Machine
end

