-- ==== Sys2Proof/Machine/Store.lean ====
section
/-! DEFINITION. The sparse stores the machine's registers, tables and memories are held in: a list of
(key, value) pairs in one canonical form, keys strictly rising and no entry equal to the value an unlisted key reads as. -/

namespace Sys2Proof.Machine

/-- What key `k` reads as: the entry listed for it, else `d k`. -/
def storeGet {α : Type} (d : Nat → α) : List (Nat × α) → Nat → α
  | [], k => d k
  | (a, v) :: t, k => if k = a then v else storeGet d t k

/-- The list without any entry for key `k`. -/
def storeErase {α : Type} : List (Nat × α) → Nat → List (Nat × α)
  | [], _ => []
  | (a, v) :: t, k => if k = a then storeErase t k else (a, v) :: storeErase t k

/-- The entry a key gets: none where the value is the one an unlisted key reads as. -/
def storeCell {α : Type} [DecidableEq α] (d : Nat → α) (k : Nat) (v : α) : List (Nat × α) :=
  if v = d k then [] else [(k, v)]

/-- `k` holding `v`, in canonical form where the list was. -/
def storeSet {α : Type} [DecidableEq α] (d : Nat → α) : List (Nat × α) → Nat → α → List (Nat × α)
  | [], k, v => storeCell d k v
  | (a, w) :: t, k, v =>
    if a < k then (a, w) :: storeSet d t k v
    else storeCell d k v ++ storeErase ((a, w) :: t) k

/-- Every key of the list is above `b`, the keys rise strictly and no entry is a default. -/
def storeWfFrom {α : Type} [DecidableEq α] (d : Nat → α) : Nat → List (Nat × α) → Bool
  | _, [] => true
  | b, (a, v) :: t => decide (b ≤ a) && decide (v ≠ d a) && storeWfFrom d (a + 1) t

/-- The canonical form of a store. -/
def storeWf {α : Type} [DecidableEq α] (d : Nat → α) (l : List (Nat × α)) : Bool := storeWfFrom d 0 l

end Sys2Proof.Machine
end

