-- ==== Sys2Proof/Machine/State.lean ====
section
/-! DEFINITION. The state of the block as plain data: every register and table word by its address, every memory byte, and
the state the manual gives each unit beside its registers; why the machine can stop; the state after reset. -/

namespace Sys2Proof.Machine

open Sys2Proof

/-- The machine stops with a fault. No command of this block ends in one: the manual reports every error in state. -/
inductive Fault where
  /-- Raised by nobody; kept so that the type names a reason. Safe: it never hides an effect. -/
  | none_
deriving DecidableEq, Repr

/-- A command has no meaning. -/
inductive Refusal where
  /-- Raised by the dispatch for a command whose meaning is not written. Safe: nothing is claimed of it. -/
  | notModelled (mnemonic : String)
deriving DecidableEq, Repr

/-- A block that a block reset or a DEGRADED hold acts on (R287, R403). -/
inductive Blk where
  | edge
  | mac (p : Nat)
  | lau (u : Nat)
  | itin
  | eng (n : Nat)
  | loop
  | can (n : Nat)
  | nut
  | host
deriving DecidableEq, Repr

/-- A reaction window (R286): the record raises merge into (none where every record was PENDING), the source that opened
it, the class and reaction in force in it, and the sources whose detectors its block resets mask (R287). -/
structure Window where
  recd : Option Nat
  own : Nat
  cls : Nat
  react : Nat
  shadow : List Nat
deriving DecidableEq, Repr

/-- The fault collector beside its registers (R278 to R294): which detectors hold the fault state, which pairs read equal,
the newest record, the records from the oldest written to the newest, the open windows (oldest first), the blocks in a block
reset, the blocks held, the reactions that wait for the wake (R294), and the levels of ALIVE_A and ALIVE_B (R289). -/
structure FcuSt where
  cond : List (Nat × Bool)
  bad : List (Nat × Bool)
  newest : Option Nat
  order : List Nat
  windows : List Window
  resetting : List Blk
  held : List Blk
  deferred : List (Nat × Nat)
  aliveA : Bool
  aliveB : Bool
deriving DecidableEq, Repr

/-- A mode transition in progress: its number in R26, the mode it enters, its cause, and the mode it started from. -/
structure Trans where
  num : Nat
  target : Nat
  cause : Nat
  source : Nat
deriving DecidableEq, Repr

/-- A shadow unit of R353. -/
inductive SUnit where
  | lau (u : Nat)
  | switch
  | gate (p : Nat)
  | disp
  | loop (k : Nat)
  | tt (n : Nat)
deriving DecidableEq, Repr

/-- A response that firmware owes for a command taken from channel `chan`: the request. -/
structure Owed where
  chan : Nat
  hdr : List Byte
deriving DecidableEq, Repr

/-- An armed set (R355, R356): its handle, its apply point, whether that point is reached, its units not yet applied,
whether it was opened by command, the response that waits for its end, and the writes firmware keeps once they apply (R23). -/
structure ArmedSet where
  handle : Nat
  kind : Nat
  index : Nat
  lo : Nat
  hi : Nat
  reached : Bool
  units : List SUnit
  byCmd : Bool
  owed : Option Owed
  keep : List (Nat × Word)
deriving DecidableEq, Repr

/-- A transaction channel (R352 to R358) beside its registers. -/
structure TxnCh where
  serial : Nat
  handle : Nat
  log : List (Nat × Word)
  byCmd : Bool
  owed : Option Owed
  armed : Option ArmedSet
deriving DecidableEq, Repr

/-- What the block has put on one of its interfaces, for the outside. (log 95, DESIGN CHOICE; 96, DESIGN CHOICE) -/
inductive Out where
  /-- A frame, or the part of it sent, that left fabric port `p`. -/
  | frame (p : Nat) (bytes : List Byte)
  /-- A flow-control, verify or link-setup signal of port `p`: kind and argument. -/
  | mac (p : Nat) (kind : Nat) (arg : Nat)
  /-- A CAN frame sent by controller `n`: identifier word, format word, data. -/
  | can (n : Nat) (id : Nat) (fmt : Nat) (data : List Byte)
  /-- Controller `n` answers a frame that it receives: 0 an acknowledge, 1 an active error flag. -/
  | canBit (n : Nat) (kind : Nat)
  /-- An MSI-X message: address and data. -/
  | msix (addr : Nat) (data : Word)
  /-- A read answered to the host on the SPI lines: the last status byte and the words of each block. -/
  | spi (blocks : List (Byte × List Word))
  /-- The word of an SPI status frame. -/
  | spiStat (word : Word)
  /-- A completion of a BAR2 read: poisoned or not, and its bytes. -/
  | bar2 (poisoned : Bool) (bytes : List Byte)
  /-- A management frame on MDIO. -/
  | mdio (word : Word)
  /-- Bits that Nutmeg cell `c` has presented on its shift output. -/
  | nut (c : Nat) (bits : List Bool)
  /-- A test of one switch of output `o` of Saffron (R261): the low side, or the high side. -/
  | safTest (o : Nat) (low : Bool)
  /-- An interrupt of a Huafegal core's controller: line, or 32 plus the channel of a message. -/
  | coreIrq (core : Nat) (line : Nat)
deriving DecidableEq, Repr

/-- Firmware (R345 to R375): whether it runs, its queued notices with their counter and its loss count, its working
configuration by address (R23) and its tables, responses refused at a full return channel with their channel (R347). -/
structure FwSt where
  running : Bool
  notices : List (List Byte)
  notSeq : Nat
  notLost : Nat
  cfg : List (Nat × Option Word)
  tabs : List (Nat × List Byte)
  retry : List (Nat × List Byte)
deriving DecidableEq, Repr

/-- The time spine beside its registers: TIME_CLK cycles since power-on, the 32 fractional bits of each domain (R31), the
cycles since the last accepted PPS edge, whether a reference edge exists, the consecutive rejections, and the last phase error with the
domain it is of (R37, R38). -/
structure TimeSt where
  now : Nat
  frac : List (Nat × Nat)
  ppsAge : Nat
  ppsRef : Bool
  ppsRej : Nat
  ppsErr : Option (Nat × Int)
deriving DecidableEq, Repr

/-- A Line Angle Unit beside its registers (R43 to R48): the estimate with 32 bits below the tick, speed and acceleration in
ticks per ns and per ns squared with 96 fractional bits, OFFSET, the unwrapped count and its last raw word, the timestamp of
the last accepted measurement, what the next accepted measurement initialises (0 nothing, 1 everything, 2 all but the speed, 3 everything,
the angle holding until then as a REACQ asks),
whether SRC has changed to a measured source, the updates in a row below the settling bound, whether the network pair is new,
and whether a measurement was accepted in this cycle. -/
structure LauSt where
  theta : Nat
  omega : Int
  alpha : Int
  offset : Int
  count : Int
  raw : Option Nat
  tPrev : Option Nat
  init : Nat
  srcNew : Bool
  settled : Nat
  netFresh : Bool
  accepted : Bool
deriving DecidableEq, Repr

/-- An Itinerary slot beside its words (R53, R55, R57): the working target of an angle slot, the side of θ̂ the target lies
on, whether its issue is late, whether its edge has been handed over, whether its due time was set less than 16 ns ahead. -/
structure SlotSt where
  tgt : Nat
  side : Int
  late : Bool
  handed : Bool
  soon : Bool
deriving DecidableEq, Repr

/-- A work item of the Dispatcher, 16 bytes (R126), with the frame a kind-0 item is for. -/
structure Item where
  frm : Nat
  cluster : Nat
  level : Nat
  kind : Nat
  entry : Nat
  homeV : Bool
  home : Nat
  aux : Nat
  arg : Nat
  stamp : Nat
deriving DecidableEq, Repr

/-- The Itinerary beside its words: the armed slots in rising order, the slots that wait to issue with the cycle in which each
became due (R53), the post queue with the slot of each entry (R54). -/
structure ItinSt where
  slots : List (Nat × SlotSt)
  armed : List Nat
  dueQ : List (Nat × Nat)
  postQ : List (Nat × Item)
deriving DecidableEq, Repr

/-- An edge placer beside its registers: the pending edges, earliest first, each with its domain-0 time in eighths of a ns
and its kind (0 rise, 1 fall, 2 toggle), and the time of the last edge placed with the cycle of the placing (R59). -/
structure EdgeSt where
  pend : List (Nat × Nat)
  last : Option (Nat × Nat)
deriving DecidableEq, Repr

/-- A MAC beside its registers (R65 to R81): the cells of its staging ring and how many of them are free, the egress
timestamp FIFO (header word, seconds, nanoseconds; oldest first), the quanta of each hold in force (key 8 the PAUSE, 0 to 7
the classes), the verify frames sent, the cycle of the last speed change, the cycles at which each side entered
low-power idle, and the flow control frames that wait for the frame in flight (classes and quanta, R76). -/
structure MacSt where
  ring : Nat
  ringFree : Nat
  tsf : List (Nat × Nat × Nat)
  holds : List (Nat × Nat)
  tries : Nat
  changed : Option Nat
  lpiTx : Nat
  lpiRx : Nat
  fcq : List (Nat × Nat)
deriving DecidableEq, Repr

/-- A frame in Hamper: its bytes so far, whether it has ended or failed a check, its cells and the copies that hold it
(R84, R98, R122), the cells its bytes lie in from the head, and the length it is taken to have while it arrives (R96). -/
structure Frm where
  data : List Byte
  ended : Bool
  failed : Bool
  cells : Nat
  copies : Nat
  chain : List Nat
  lmax : Nat
deriving DecidableEq, Repr

/-- A queued copy with its descriptor fields (R88): the frame it is of, the descriptor's number, the account it is charged
to (0 a reservation, 1 the minimum, 2 the shared allowance) and the cells charged, the time domain and ingress time (eighths
of a ns) of a PTP event message, whether its launch has become due, and whether it uses its descriptor and its charge: until it has been sent. -/
structure Copy where
  frm : Nat
  idx : Nat
  head : Nat
  its : Nat
  itsFrac : Nat
  ltMode : Nat
  lt : Nat
  lau : Nat
  src : Nat
  cls : Nat
  ct : Bool
  ptp : Bool
  fc : Option Nat
  mc : Bool
  plane : Nat
  seq : Option Nat
  held : Bool
  strip : Bool
  gen : Bool
  vid : Nat
  tagged : Bool
  pcp : Nat
  fhash : Nat
  acct : Nat
  n : Nat
  tdom : Nat
  tin : Nat
  due : Bool
  uses : Bool
deriving DecidableEq, Repr

/-- A queue of an output: its copies from the head, and its minimum and shared accounts (R94). -/
structure QSt where
  q : List Copy
  minA : Nat
  shA : Nat
deriving DecidableEq, Repr

/-- A transmission in progress: its copy, the cycle in which the first bit after the SFD of what it sends leaves, whether it ends with an
inverted FCS, its fragments so far, and the time of the frame's first bit after the SFD in each domain in eighths of a ns (R70). -/
structure Tx where
  copy : Copy
  since : Nat
  stomp : Bool
  frags : Nat
  tout : List Nat
deriving DecidableEq, Repr

/-- An output beside its registers: the transmission in progress and the one preempted, the CBS credits in 10^-6 bit with the
cycle they hold for (R101), whether its gate list has started, whether it has ended, and when its entry started (R102). -/
structure OutSt where
  tx : Option Tx
  pre : Option Tx
  credit : List (Nat × Int)
  creditAt : Nat
  gOn : Bool
  gEnd : Bool
  gAt : Nat
deriving DecidableEq, Repr

/-- A frame entering at a fabric port: its bytes so far, ingress time (schedule count, eighths, and in each time
domain in eighths of a ns), the domain and ingress time of a forwarded event message, what stage 2 to 5 found, the cells it
holds of its ring and of the free pool and their numbers, the register set of its stage 2 (R110), the context whose meter
admitted it (R108), its copy before the outputs, and the outputs that have taken a copy or are still to be offered one. -/
structure Ingr where
  port : Nat
  data : List Byte
  its : Nat
  itsFrac : Nat
  t0 : List Nat
  ptpOf : Option (Nat × Nat)
  src : Nat
  rate : Option Nat
  learn : Bool
  fcNamed : Option Nat
  clsNamed : Option Nat
  ltNamed : Nat × Nat × Nat
  staged : Bool
  ctl : Bool
  filt : Bool
  nobuf : Bool
  fail : Bool
  used : Nat
  lent : Nat
  chain : List Nat
  set : List (Nat × Word)
  meter : Option Nat
  proto : Option Copy
  took : List Nat
  todo : List Nat
deriving DecidableEq, Repr

/-- An entry of the forwarding database: VID, address, fabric port, static, the second it was last learned in. -/
structure FdbEnt where
  vid : Nat
  addr : List Byte
  port : Nat
  isStatic : Bool
  stamp : Nat
deriving DecidableEq, Repr

/-- The state of a flow context beside its registers (R108, R109): the meter's bucket in 10^-6 bit and the cycle it holds
for, the recovery history (none before the first frame), the cells it holds at each output. -/
structure FcSt where
  bucket : Int
  bucketAt : Nat
  hist : Option Nat
  rsv : List (Nat × Nat)
deriving DecidableEq, Repr

/-- The switch and Hamper beside their registers (R84 to R112): queues by port and class, outputs, frames, frames entering
by source, the forwarding database, the VLAN table by VID (member mask, untagged mask), the flow contexts, the staging rings
of fabric ports 12 to 31, the copies an engine has been sent and still holds by output, the refills that wait by port (protected, other), the next frame's number. -/
structure SwxSt where
  qs : List (Nat × QSt)
  sent : List (Nat × List Copy)
  outs : List (Nat × OutSt)
  frames : List (Nat × Option Frm)
  rx : List (Nat × Option Ingr)
  fdb : List FdbEnt
  vlan : List (Nat × Nat × Nat)
  fcs : List (Nat × FcSt)
  rings : List (Nat × Nat)
  wait : List (Nat × Nat × Nat)
  next : Nat
deriving DecidableEq, Repr

/-- What a stalled thread waits to do again: its instruction, as fetched, waiting on the bridge or not; a port-space access of its own, a
write with its word or a read (R151). -/
inductive Stall where
  | instr (w : Word) (bridge : Bool)
  | port (addr : Nat) (w : Option Word)
deriving DecidableEq, Repr

/-- A bound receive window (R119 to R122): the copy, the writes accepted, whether a forward runs, the beats released, whether it
has drained, whether the item has ended, and the highest byte of a write that stalls for it (R120). -/
structure Win where
  copy : Copy
  wr : List (Nat × Byte)
  fwd : Bool
  beats : Nat
  drained : Bool
  done : Bool
  hold : Option Nat
deriving DecidableEq, Repr

/-- A thread of an engine (R115, R135 to R137, R150, R153 to R163): whether it runs, is in a trap handler, has halted for good;
its stall with the cycle it began in; registers and specials; the return stack, newest first; T0 to T3; loads that have still
to land (instructions to go, register, value), oldest first; the repetitions left with the word fetched for them, and the rc value that
waits for their end; the micro-op a custom instruction resumes at; its item; its receive window; its private port registers by offset, the
transmit header, the originated frame that is entering staging. -/
structure Thr where
  run : Bool
  handler : Bool
  dead : Bool
  stall : Option Stall
  since : Nat
  regs : List (Nat × Word)
  pc : Nat
  rc : Word
  ts : Word
  tsf : Nat
  epc : Word
  ecause : Word
  eval : Word
  erc : Word
  rs : List Nat
  temps : List (Nat × Word)
  loads : List (Nat × Nat × Word)
  rep : Option (Nat × Option Word)
  rcNext : Option Word
  uop : Option (Nat × Bool)
  item : Option Item
  win : Option Win
  port : List (Nat × Word)
  hdr : List (Nat × Byte)
  tx : Option (List Byte × Ingr)
deriving DecidableEq, Repr

/-- An engine (R113): its instruction, data and microcode memories, its decode table, its threads, the cycle its reset was
released in, the copy its full kind-0 level was last counted for (R132), MBSRES and MBRRES (R339), the thread whose beat was released
last (R124). -/
structure EngSt where
  imem : List (Nat × Word)
  dmem : List (Nat × Byte)
  ucode : List (Nat × Word)
  table : List (Nat × Word)
  thr : List (Nat × Thr)
  born : Nat
  heldFor : Option Nat
  sres : Nat
  rres : Nat
  turn : Nat
deriving DecidableEq, Repr

/-- The Dispatcher (R126 to R132): its levels by cluster and level, oldest first; posts held by kind and index; the further
announcements of a channel whose post is held; SWPOST words and last result by master. -/
structure DispSt where
  levels : List (Nat × List Item)
  held : List (Nat × Option Item)
  later : List (Nat × Nat)
  sw : List (Nat × Word)
  swres : List (Nat × Nat)
deriving DecidableEq, Repr

/-- A transmit attempt of a CAN controller: its object (none for a reference), its frame, the schedule count, cycle and cycle
time of its start of frame, whether TXABORT has been given, whether it is an exclusive frame, whether TXEN kept its start from the bus, and the
set of time-triggered words that could apply at its start. -/
structure CanTx where
  obj : Option Nat
  frame : CanFrm
  ts : Word
  at_ : Nat
  tts : Word
  abort : Bool
  excl : Bool
  shut : Bool
  set : List (Nat × Word)
deriving DecidableEq, Repr

/-- A frame that a CAN controller receives: the schedule count, cycle and cycle time of its start of frame, whether an own reference
attempt has lost its arbitration to it, and the set of time-triggered words that could apply at its start. -/
structure CanRxing where
  ts : Word
  at_ : Nat
  tts : Word
  own : Bool
  set : List (Nat × Word)
deriving DecidableEq, Repr

/-- A CAN controller beside its registers (R178 to R200): the shadow frames of its objects with their TS and TTS, failed attempts
of each pending request, whether it integrates, the attempt in progress, the frame being received; of the time-triggered side the start of the cycle
(TIME_CLK cycle), the previous reference's start and cycle count, consecutive misses, references within the limit in RXONLY
and the state it left, the current window, the TIME_CLK cycle of the last start of frame on the bus, whether its exclusive frame waits; of the
guardian the last measurement, whether it is closed and the passes since, the start of its last opening in LISTEN. -/
structure CanSt where
  shadow : List (Nat × Option (CanFrm × Word × Word))
  fails : List (Nat × Nat)
  integ : Bool
  tx : Option CanTx
  rx : Option CanRxing
  ctAt : Nat
  lastRef : Option (Nat × Nat)
  misses : Nat
  good : Nat
  left_ : Nat
  win : Nat
  sofAt : Option Nat
  exclDue : Bool
  gFreq : Option Nat
  gClosed : Bool
  gPass : Nat
  attempt : Option Nat
deriving DecidableEq, Repr

/-- A Nutmeg cell beside its registers (R201 to R219): armed, START pending, the due times of the Itinerary starts on their way to the release cycle; the
instruction in progress (word, injected or not, stalled on a queue); the injection that waits; the level registers of its
pins, the shift output and the compare output; its queues; the shadows of CMP and PER; HOLD with its timestamp; whether MARK
waits for a pulse; the time of the last release; the time CNT holds for; the time up to which the clocked instruction in progress has
run, the end of the last clock pulse, the tick at which a phase-locked WAITP completes, the last match; the levels the WAITP in
progress has seen, the filtered levels and when each last changed. -/
structure NutSt where
  armed : Bool
  pend : Bool
  starts : List Nat
  ip : Option (Nat × Bool × Bool)
  inj : Option Nat
  lvlA : Bool
  lvlB : Bool
  sout : Bool
  cout : Bool
  txq : List Word
  rxq : List Word
  cmpS : Option Word
  perS : Option Word
  hold : Word
  holdTs : Word
  mark : Bool
  relAt : Nat
  cntAt : Nat
  stopped : Bool
  clkAt : Nat
  pulseEnd : Nat
  plock : Option Nat
  matchAt : Option Nat
  wp : Nat
  fp : Nat
  fAt : List (Nat × Option Nat)
deriving DecidableEq, Repr

/-- What a trigger latches (R223): the domain-0 schedule count, the cycle, the sources by code (plus 0x10000 for a pair of network
values), and whether DRIVE slots follow Cardamom (R238). -/
structure LoopLatch where
  cyc : Word
  at_ : Nat
  srcs : List (Nat × Nat)
  lau : List (Nat × Nat)
  live : Bool
deriving DecidableEq, Repr

/-- A loop context beside its registers (R224, R225, R234, R239): the latch of a pending trigger, the value of the last manual
evaluation, whether no evaluation has run since EN or STCLR, whether LOOP_OVERRUN has been raised since SKIPSEQ was 0. -/
structure LoopCtx where
  latch : Option LoopLatch
  man : Option Word
  fresh : Bool
  ovr : Bool
deriving DecidableEq, Repr

/-- Cardamom beside its registers (R224, R244 to R246): the two queues, the contexts, the evaluation in progress with its latch
and whether it performed a swap; the test generator's sample, phase, LFSR and value; the capture unit; the context and torque of
a running brake test; whether the once-only write of SAFEVAL waits for the evaluation in progress; the millisecond that busy
cycles are counted in and their count. -/
structure LoopSt where
  hi : List Nat
  lo : List Nat
  ctxs : List (Nat × LoopCtx)
  run : Option (Nat × LoopLatch × Bool)
  tn : Nat
  phase : Nat
  lfsr : Nat
  tOn : Bool
  tv : Word
  capOn : Bool
  capWait : Bool
  capDec : Nat
  test : Option (Nat × Word)
  safe : Bool
  ms : Nat
  cycles : Nat
deriving DecidableEq, Repr

/-- A safety connection beside its registers (R264 to R266): the data last delivered; copies held back (SEQ, path, PDU, cycle of
arrival), oldest first; in SINGLE the first copy that its partner may still join, the matching pairs in a row and the SEQ of the last;
a producer's next SEQ. -/
structure SafConn where
  data : List Byte
  held : List (Nat × Nat × List Byte × Nat)
  first : Option (Nat × Nat × List Byte × Nat)
  runs : Nat
  runSeq : Nat
  next : Nat
deriving DecidableEq, Repr

/-- What channel B of Saffron sees of the safe inputs through its own input stage (R248, R258): the contacts and the pair states, laid out as
in SAF_INPUTS, and the pairs whose discrepancy timer runs. Channel A's are SAF_INPUTS and `timers`. -/
structure SafView where
  contacts : Nat
  pairs : Nat
  timers : List Nat
deriving DecidableEq, Repr

/-- A cycle record (R249): the pair states, the connection states with their delivered data, the output commands, the reason. -/
structure SafCyc where
  pairs : Nat
  conns : List (Nat × List Byte)
  outs : Nat
  reason : Nat
deriving DecidableEq, Repr

/-- Saffron beside its status window (R248 to R277, R405, R406): the state beneath HALT and SAFE (0 STARTUP, 1 SELFTEST,
2 COMMISSION, 3 RUN); HALT; whether a reaction is latched; each channel's working SPB (none: the default), the records in MRAM and whether
their last write failed its read-back; whether the last records differed, and the exchange memory; the high-side and low-side switches
that are on, by output; the switch tests each output has passed in turn; channel B's view of the inputs; of channel A the pairs whose discrepancy timer runs; fabric ports reported down; connections; frames that wait for the checks with
their SRC; the brake test (brake, phase, P0, deviation exceeded); brakes that wait for their release; commands held for pairing
(channel, sender, message); supply monitors outside their window and the cycle the last one returned; positions of each brake's cell
over the last 100 ms; whether the restart after a warm reset is due. -/
structure SafSt where
  base : Nat
  halt : Bool
  latched : Bool
  spb : Option (List Byte)
  spbB : Option (List Byte)
  recBad : Bool
  recA : Option (List Byte × Word)
  recB : Option (List Byte × Word)
  ccvOk : Bool
  differ : Bool
  cycA : Option SafCyc
  cycB : Option SafCyc
  swA : Nat
  swB : Nat
  turn : List (Nat × Nat)
  inB : SafView
  timers : List Nat
  down : List Nat
  conns : List (Nat × SafConn)
  rx : List (List Byte × Nat)
  bt : Option (Nat × Nat × Nat)
  relWait : List Nat
  held : List (Nat × Nat × List Byte)
  sup : Nat
  supAt : Nat
  pos : List (Nat × List (Nat × Nat))
  restart : Bool
deriving DecidableEq, Repr

/-- Power, clocks, memories and balls beside their registers: the voters that have voted yes in the vote in progress (R309), the
response of POWER ENTER, whether the vote has committed; whether the PHY domain was on at a low-power entry; causes that wait for another transition (R29); counts of the live cells at
entry (R314); REFCLK stopped; core rails out of range (bit 0 VDD_CORE, bit 1 VDD_AO, R380); HOLD_EN (R394); the Flask slot HOLDUP writes; write counts of slots, sequence numbers
consumed, the address of the record offered (R304, R322); whether SAFEOP has been entered since the start; the scrubber's word; words that
wait for their write-back (R296); SRAM groups switched off (R301); the
pacing instance of the transition in progress, 4 for none (R27); the rows of Hamper its last test retired (R306);
the 4 KiB pages firmware has withdrawn (R295); SG0 holds the capture of a HOLDUP, in no arrangement the manual gives (R318). -/
structure PwrSt where
  vote : Option (List Nat)
  owed : Option Owed
  committed : Bool
  phyUp : Bool
  late : List (Nat × Nat × Nat)
  cells : List (Nat × Nat)
  refOff : Bool
  rails : Nat
  holdEn : Bool
  slot : Option Nat
  wear : List (Nat × Nat)
  used : List Nat
  offer : Option Nat
  safeop : Bool
  scrub : Nat
  wb : List Nat
  sgOff : List Nat
  pace : Nat
  retired : List Nat
  pages : List Nat
  capture : Bool
deriving DecidableEq, Repr

/-- A running protocol instance (R164 to R177): its configuration, time domain (0xFF none), first engine, engines, flow contexts, software
units, state (as INST_STATUS), lost cycles, lower-level attempts, late successes. -/
structure InstSt where
  cfg : InstCfg
  dom : Nat
  eng : Nat
  engs : Nat
  fcs : List Nat
  units : Nat
  st : Nat
  lost : Nat
  tries : Nat
  late : Nat
deriving DecidableEq, Repr

/-- An axis of the line-shaft master service (R372 to R374): SETNV, FLAGS, PROF, RATIO, PHASE, ACTNV; φ in ticks and its speed in ticks per
ns, both with 96 fractional bits, whether it is engaged, whether φ still moves, the set-point written last. -/
structure AxisSt where
  set : Nat
  flags : Nat
  prof : Nat
  ratio : Word
  phase : Int
  act : Nat
  phi : Int
  spd : Int
  engaged : Bool
  moving : Bool
  last : Nat
deriving DecidableEq, Repr

/-- The line-shaft master service (R372 to R375): its image, whether it holds engines 8 to 15 and its LAU, whether it runs, the axes, overruns, those in a
row and whether this cycle has had one, the target stored in SAFESTOP, the engage bits last read, the largest write time, the image in MRAM. -/
structure LineSt where
  image : Option (List Byte)
  holds : Bool
  running : Bool
  axes : List AxisSt
  ovr : Nat
  inRow : Nat
  hit : Bool
  stored : Option Word
  bits : Nat
  maxNs : Nat
  mram : Option (List Byte)
deriving DecidableEq, Repr

/-- Firmware's data in MRAM and what it remembers: engine images by ID (the bytes, or none for an image shipped with the part), the
configuration area, whether a new firmware image waits, the cycle of the start, the cycle at which a RESET acts, the software units that
the configuration reserved at BOOT beside the instances' (R170); the firmware image a BOOT or an UPDATE has stored, and the bytes that
a core has written over what firmware keeps in MRAM (R303). (log 35, DESIGN CHOICE) -/
structure SysSt where
  imgs : List (Nat × Option (List Byte))
  cfg : CfgImg
  newFw : Bool
  bootAt : Nat
  resetAt : Option Nat
  kept : Nat
  fwImg : Option (List Byte)
  own : List Nat
deriving DecidableEq, Repr

/-- The host port beside its registers: the words of the MSI-X table and its pending bits (R324); the vectors it has last seen active
(R342). -/
structure HostSt where
  msix : List (Nat × Word)
  pba : Nat
  act : List Nat
deriving DecidableEq, Repr


/-- The state of the block. -/
structure State where
  /-- The commands waiting, first in, first out. -/
  pending : List Instr
  /-- Every register and table word of the register region by address (R400, R401). -/
  regs : List (Nat × Word)
  /-- The shadow of RWT registers by address (R13, R353). -/
  shadow : List (Nat × Option Word)
  /-- The `_HI` snapshot each master holds of each pair (R11): key master number · 2^32 + address of the `_HI` word. -/
  snaps : List (Nat × Option Word)
  /-- The written `_LO` each master holds (R11): key master number · 2^32 + address of the `_LO` word. -/
  lows : List (Nat × Option Word)
  /-- The bytes of SRAM, MRAM, Hamper and the boot ROM by address (R19). -/
  mem : List Host.Cell
  /-- What the last bus read returned. -/
  rdata : BitVec 64
  /-- The number of free values drawn so far (the model's own). -/
  free : Nat
  /-- What the block has put on its interfaces, newest first (the model's own record of its outputs). -/
  out : List Out
  /-- The transition in progress, where SYS_MODE.BUSY is 1 (R28). -/
  trans : Option Trans
  /-- The mode RETAIN or STROLL was entered from (R26, 18). -/
  lowFrom : Nat
  /-- The messages each mailbox channel holds, oldest first (R334 to R336). -/
  chans : List (Nat × List (List Byte))
  /-- The command channels by the SEND cycles of the messages they hold, the earliest first (R347). -/
  arrive : List Nat
  fcu : FcuSt
  /-- The raises detectors have made that the collector has still to take in, oldest first: source, INFO word, wiring
  fault or not. Empty between steps. -/
  raises : List (Nat × Nat × Bool)
  /-- The transaction channels by number (R352). -/
  txn : List (Nat × TxnCh)
  fw : FwSt
  time : TimeSt
  lau : List (Nat × LauSt)
  itin : ItinSt
  edge : List (Nat × EdgeSt)
  /-- The mode DEGRADED was entered from, and whether its fault source lies in TIME, LAU, ITIN or EDGE (R60). -/
  degFrom : Nat
  degTime : Bool
  /-- Where that fault source lies in NUT, the PINCFG words of the cells when its reaction came (R202). -/
  degPins : Option (List Word)
  mac : List (Nat × MacSt)
  swx : SwxSt
  eng : List (Nat × EngSt)
  disp : DispSt
  can : List (Nat × CanSt)
  nut : List (Nat × NutSt)
  /-- The levels that stand at the balls NP0 to NP63 from outside (R201). -/
  np : BitVec 64
  loop : LoopSt
  /-- What an ECC check of a 64-bit word of memory finds, by its address: 1 an error it corrects, 2 one it cannot (R296). -/
  ecc : List (Nat × Nat)
  saf : SafSt
  /-- Mode transitions that a cause has asked for and that have still to start: number, mode, CAUSE (R26, R29). Empty between steps. -/
  modeq : List (Nat × Nat × Nat)
  pwr : PwrSt
  /-- The protocol instances by number (R167). -/
  prot : List (Nat × Option InstSt)
  line : LineSt
  sys : SysSt
  host : HostSt
deriving DecidableEq, Repr

/-- A transaction channel that holds nothing. -/
def TxnCh.idle : TxnCh := ⟨0, 0, [], false, none, none⟩

/-- The fault collector at the release of PORESET_N. -/
def FcuSt.reset : FcuSt :=
  { cond := [], bad := [], newest := none, order := List.range 32, windows := [], resetting := [], held := [],
    deferred := [], aliveA := false, aliveB := true }

/-- Firmware before it starts. -/
def FwSt.reset : FwSt :=
  { running := false, notices := [], notSeq := 0, notLost := 0, cfg := [], tabs := [], retry := [] }

/-- The time spine at power-on. -/
def TimeSt.reset : TimeSt := { now := 0, frac := [], ppsAge := 0, ppsRef := false, ppsRej := 0, ppsErr := none }
/-- A Line Angle Unit at reset. -/
def LauSt.reset : LauSt :=
  { theta := 0, omega := 0, alpha := 0, offset := 0, count := 0, raw := none, tPrev := none, init := 1, srcNew := false,
    settled := 0, netFresh := false, accepted := false }
/-- A slot at reset. -/
def SlotSt.reset : SlotSt := { tgt := 0, side := 0, late := false, handed := false, soon := false }
/-- The Itinerary at reset. -/
def ItinSt.reset : ItinSt := { slots := [], armed := [], dueQ := [], postQ := [] }
/-- An edge placer at reset. -/
def EdgeSt.reset : EdgeSt := { pend := [], last := none }

/-- A MAC at reset. -/
def MacSt.reset : MacSt :=
  { ring := 0, ringFree := 0, tsf := [], holds := [], tries := 0, changed := none, lpiTx := 0, lpiRx := 0, fcq := [] }

/-- A queue at reset. -/
def QSt.reset : QSt := { q := [], minA := 0, shA := 0 }
/-- An output at reset. -/
def OutSt.reset : OutSt := { tx := none, pre := none, credit := [], creditAt := 0, gOn := false, gEnd := false, gAt := 0 }
/-- A flow context at reset. -/
def FcSt.reset : FcSt := { bucket := 0, bucketAt := 0, hist := none, rsv := [] }
/-- The switch at reset. (log 8, DESIGN CHOICE) -/
def SwxSt.reset : SwxSt :=
  { qs := [], sent := [], outs := [], frames := [], rx := [], fdb := [], vlan := [], fcs := [], rings := [], wait := [], next := 0 }

/-- A thread at reset (R137). -/
def Thr.reset : Thr :=
  { run := false, handler := false, dead := false, stall := none, since := 0, regs := [], pc := 0, rc := 0, ts := 0, tsf := 0,
    epc := 0, ecause := 0, eval := 0, erc := 0, rs := [], temps := [], loads := [], rep := none, rcNext := none, uop := none,
    item := none, win := none, port := [], hdr := [], tx := none }
/-- An engine at reset. (log 8, DESIGN CHOICE) -/
def EngSt.reset : EngSt :=
  { imem := [], dmem := [], ucode := [], table := [], thr := [], born := 0, heldFor := none, sres := 0, rres := 0, turn := 3 }
/-- The Dispatcher at reset. -/
def DispSt.reset : DispSt := { levels := [], held := [], later := [], sw := [], swres := [] }

/-- A CAN controller at reset. -/
def CanSt.reset : CanSt :=
  { shadow := [], fails := [], integ := false, tx := none, rx := none, ctAt := 0, lastRef := none, misses := 0, good := 0, left_ := 4, win := 0,
    sofAt := none, exclDue := false, gFreq := none, gClosed := false, gPass := 0, attempt := none }

/-- A Nutmeg cell at reset. -/
def NutSt.reset : NutSt :=
  { armed := false, pend := false, starts := [], ip := none, inj := none, lvlA := false, lvlB := false, sout := false,
    cout := false, txq := [], rxq := [], cmpS := none, perS := none, hold := 0, holdTs := 0, mark := false, relAt := 0, cntAt := 0,
    stopped := false, clkAt := 0, pulseEnd := 0, plock := none, matchAt := none, wp := 0, fp := 0, fAt := [] }

/-- A loop context at reset. -/
def LoopCtx.reset : LoopCtx := { latch := none, man := none, fresh := true, ovr := false }
/-- Cardamom at reset. -/
def LoopSt.reset : LoopSt :=
  { hi := [], lo := [], ctxs := [], run := none, tn := 0, phase := 0, lfsr := 0, tOn := false, tv := 0, capOn := false,
    capWait := false, capDec := 0, test := none, safe := false, ms := 0, cycles := 0 }

/-- A connection at reset. -/
def SafConn.reset : SafConn := { data := [], held := [], first := none, runs := 0, runSeq := 0, next := 0 }
/-- Saffron at power-on. -/
def SafSt.reset : SafSt :=
  { base := 0, halt := false, latched := false, spb := none, spbB := none, recBad := false, recA := none, recB := none, ccvOk := false, differ := false,
    cycA := none, cycB := none, swA := 0, swB := 0, turn := [], inB := ⟨0, 0, []⟩, timers := [],
    down := [], conns := [], rx := [], bt := none, relWait := [], held := [], sup := 0, supAt := 0, pos := [], restart := false }

/-- Power at the release of PORESET_N. (log 9, DESIGN CHOICE) -/
def PwrSt.reset : PwrSt :=
  { vote := none, owed := none, committed := false, phyUp := false, late := [], cells := [], refOff := false, rails := 0, holdEn := false, slot := none,
    wear := [], used := [], offer := none, safeop := false, scrub := 0, wb := [], sgOff := [], pace := 4, retired := [], pages := [],
    capture := false }
/-- The line-shaft service before it is configured. -/
def LineSt.reset : LineSt :=
  { image := none, holds := false, running := false, axes := [], ovr := 0, inRow := 0, hit := false, stored := none, bits := 0, maxNs := 0, mram := none }
/-- The engine images of release 4.2 (R165). -/
def shippedImgs : List Nat :=
  [0x0101, 0x0102, 0x0201, 0x0202, 0x0301, 0x0302, 0x0401, 0x0402, 0x0501, 0x0502, 0x0601, 0x0602, 0x0701, 0x0702, 0x0803, 0x0901,
   0x0902, 0x0A01, 0x0A02, 0x0B03, 0x0C02]
/-- MRAM as an F42 part is shipped (R6). (log 9, DESIGN CHOICE) -/
def SysSt.reset : SysSt :=
  { imgs := shippedImgs.map (fun i => (i, none)), cfg := ⟨[], [], 0, [], [], []⟩, newFw := false, bootAt := 0, resetAt := none, kept := 0, fwImg := none,
    own := [] }
/-- The host port at reset. -/
def HostSt.reset : HostSt := { msix := [], pba := 0, act := [] }


/-- The machine right after reset: every register at its reset value (R400 and the field tables), every memory as nothing
has written it, every unit idle. (log 7, DESIGN CHOICE) -/
def State.reset : State :=
  { pending := [], regs := [], shadow := [], snaps := [], lows := [], mem := [], rdata := 0, free := 0, out := [],
    trans := some ⟨1, 1, 0, 0⟩, lowFrom := 4, chans := [], arrive := [], fcu := FcuSt.reset, raises := [], txn := [], fw := FwSt.reset,
    time := TimeSt.reset, lau := [], itin := ItinSt.reset, edge := [], degFrom := 4, degTime := false, degPins := none,
    mac := [], swx := SwxSt.reset, eng := [], disp := DispSt.reset, can := [], nut := [], np := 0, loop := LoopSt.reset, ecc := [], saf := SafSt.reset, modeq := [],
    pwr := PwrSt.reset, prot := [], line := LineSt.reset, sys := SysSt.reset, host := HostSt.reset
  }

end Sys2Proof.Machine
end

