-- ==== Sys2Proof/Machine/Ops.lean ====
section
/-! DEFINITION. The named operations every meaning uses: registers and their fields, memory bytes and words, free values,
outputs, the mode, and the effect of the field access codes of R13 on one register. -/

namespace Sys2Proof.Machine

open Sys2Proof

/-- The outcome of a command that ends in a state. -/
abbrev ok (s : State) : Host.Outcome State Fault Refusal := .next s

/-! ### Registers and fields -/

/-- The word at a register address. -/
def State.reg (s : State) (a : Nat) : Word := storeGet regReset s.regs a
/-- The register at address `a` takes `v`. -/
def State.setReg (s : State) (a : Nat) (v : Word) : State := { s with regs := storeSet regReset s.regs a v }
/-- The number in a field. -/
def State.fld (s : State) (f : Fld) : Nat := bits (s.reg f.addr) f.hi f.lo
/-- A field takes the low bits of `n`. -/
def State.setFld (s : State) (f : Fld) (n : Nat) : State := s.setReg f.addr (setBits (s.reg f.addr) f.hi f.lo n)
/-- A one-bit field reads 1. -/
def State.flag (s : State) (f : Fld) : Bool := s.fld f == 1
/-- A one-bit field takes a Boolean. -/
def State.setFlag (s : State) (f : Fld) (b : Bool) : State := s.setFld f (bit b)
/-- The register as a number. -/
def State.regN (s : State) (a : Nat) : Nat := (s.reg a).toNat
/-- The register takes a number modulo 2^32. -/
def State.setRegN (s : State) (a : Nat) (n : Nat) : State := s.setReg a (w32 n)
/-- The 64-bit number a pair holds, the low word at `a`. -/
def State.pair (s : State) (a : Nat) : Nat := s.regN a + 2 ^ 32 * s.regN (a + 4)
/-- The pair at `a` takes a 64-bit number. -/
def State.setPair (s : State) (a : Nat) (n : Nat) : State := (s.setRegN a n).setRegN (a + 4) (n / 2 ^ 32)
/-- A 32-bit counter that wraps silently gains `n`. -/
def State.count (s : State) (a n : Nat) : State := s.setRegN a (s.regN a + n)
/-- A 32-bit counter that saturates gains `n`. -/
def State.countSat (s : State) (a n : Nat) : State := s.setRegN a (satAdd 0xFFFFFFFF (s.regN a) n)
/-- A field that saturates at its own width gains `n`. -/
def State.fldSat (s : State) (f : Fld) (n : Nat) : State := s.setFld f (satAdd (2 ^ (f.hi + 1 - f.lo) - 1) (s.fld f) n)
/-- A register returns to its reset value. -/
def State.resetReg (s : State) (a : Nat) : State := s.setReg a (regReset a)
/-- Every register of an address range returns to its reset value. -/
def State.resetRange (s : State) (lo hi : Nat) : State :=
  { s with regs := s.regs.filter (fun e => decide (e.1 < lo) || decide (hi ≤ e.1)) }
/-- The registers of `l` take the words beside them. -/
def State.setRegs (s : State) (l : List (Nat × Word)) : State := l.foldl (fun s e => s.setReg e.1 e.2) s
/-- Bit `b` of the bit array of 32-bit words at `a`. -/
def State.bitAt (s : State) (a b : Nat) : Bool := (s.regN (a + 4 * (b / 32))).testBit (b % 32)
/-- Bit `b` of the bit array of 32-bit words at `a` takes `v`. -/
def State.setBitAt (s : State) (a b : Nat) (v : Bool) : State :=
  s.setReg (a + 4 * (b / 32)) (setBits (s.reg (a + 4 * (b / 32))) (b % 32) (b % 32) (bit v))

/-! ### Free values and outputs -/

/-- The next free word. (log 5, DESIGN CHOICE) -/
def State.freeW (s : State) : Word := Config.freeWord s.free
/-- A free value has been drawn. -/
def State.drew (s : State) : State := { s with free := s.free + 1 }
/-- The block puts something on one of its interfaces. (log 96, DESIGN CHOICE) -/
def State.emit (s : State) (o : Out) : State := { s with out := o :: s.out }

/-! ### Raises (R278) -/

/-- A detector's pair changes to fault and back: the collector has the raise to take in, with its INFO word (R292). (log 29, DESIGN CHOICE) -/
def State.raiseI (s : State) (src info : Nat) : State := { s with raises := s.raises ++ [(src, info, false)] }
/-- As `raiseI`, with INFO 0. -/
def State.raise (s : State) (src : Nat) : State := s.raiseI src 0
/-- An access or event is reported as a class 0 note (source 14). -/
def State.note (s : State) : State := s.raise 14
/-- A detector's condition begins: its pair reads fault until the condition ends, and the change is a raise. -/
def State.assertSrc (s : State) (src : Nat) : State :=
  if storeGet (fun _ => false) s.fcu.cond src then s
  else { s with fcu := { s.fcu with cond := storeSet (fun _ => false) s.fcu.cond src true } }.raise src
/-- A detector's condition ends. -/
def State.clearSrc (s : State) (src : Nat) : State :=
  { s with fcu := { s.fcu with cond := storeSet (fun _ => false) s.fcu.cond src false } }

/-! ### Memory -/

/-- What a byte of memory that nothing has written reads as. (log 6, DESIGN CHOICE) -/
def memReset (_ : Nat) : Byte := 0
/-- The byte at an address. (log 6, DESIGN CHOICE) -/
def State.byte (s : State) (a : Nat) : Byte := storeGet memReset s.mem a
/-- The byte at an address takes `v`. -/
def State.setByte (s : State) (a : Nat) (v : Byte) : State := { s with mem := storeSet memReset s.mem a v }
/-- `n` bytes from an address. -/
def State.bytes (s : State) (a : Nat) : Nat → List Byte
  | 0 => []
  | n + 1 => s.byte a :: s.bytes (a + 1) n
/-- Bytes are written from an address up. -/
def State.setBytes (s : State) (a : Nat) : List Byte → State
  | [] => s
  | b :: t => (s.setByte a b).setBytes (a + 1) t
/-- The little-endian word at an address (R7). -/
def State.mem32 (s : State) (a : Nat) : Nat := ofLe (s.bytes a 4)
/-- The little-endian word at an address takes `v`. -/
def State.setMem32 (s : State) (a v : Nat) : State := s.setBytes a (leBytes 4 v)
/-- The canonical form of the memory. -/
abbrev Memory.wf (m : List Host.Cell) : Prop := storeWf memReset m = true

/-! ### The access codes of one register (R13, R14) -/

/-- A write of `v` to register `r` holding `w`: RW fields take it, W1C clears, W1S sets, every other field keeps its value.
RWL fields take it only where `unlocked`. -/
def wrWord (r : RegSpec) (unlocked : Bool) (w v : Word) : Word :=
  let rw := accMask r .rw ||| (if unlocked then accMask r .rwl else 0)
  let w1 := (w &&& ~~~ rw) ||| (v &&& rw)
  (w1 &&& ~~~ (v &&& accMask r .w1c)) ||| (v &&& accMask r .w1s)
/-- What a read of `r` holding `w` returns: WO fields and reserved bits read 0. -/
def rdWord (r : RegSpec) (w : Word) : Word :=
  w &&& (accMask r .rw ||| accMask r .ro ||| accMask r .w1c ||| accMask r .w1s ||| accMask r .rc ||| accMask r .rwt |||
    accMask r .rwl)
/-- What a read leaves in `r`: RC fields are cleared. -/
def rcWord (r : RegSpec) (w : Word) : Word := w &&& ~~~ accMask r .rc

/-- The IEEE 1149.1 IDCODE (R5), the same on every revision; no command of the table reads it. -/
abbrev idcode : Word := 0x07216A3D#32

/-! ### Modes (R25) -/

abbrev modeOFF : Nat := 0
abbrev modeBOOT : Nat := 1
abbrev modeTEST : Nat := 2
abbrev modeCOMMISSION : Nat := 3
abbrev modePREOP : Nat := 4
abbrev modeOPERATIONAL : Nat := 5
abbrev modeSAFEOP : Nat := 6
abbrev modeSAFESTOP : Nat := 7
abbrev modeDEGRADED : Nat := 8
abbrev modeSTROLL : Nat := 9
abbrev modeRETAIN : Nat := 10
abbrev modeHOLDUP : Nat := 11

/-- The operating mode, SYS_MODE.CUR. -/
def State.mode (s : State) : Nat := s.fld SYS_MODE_CUR
/-- A transition is in progress. -/
def State.busy (s : State) : Bool := s.flag SYS_MODE_BUSY
/-- The device is in RETAIN or STROLL. -/
def State.asleep (s : State) : Bool := s.mode == modeRETAIN || s.mode == modeSTROLL
/-- TIME runs from REFCLK: in RETAIN and STROLL until PLL1 has relocked (R17, R312). -/
def State.timeSlow (s : State) : Bool := s.asleep && !s.flag SYS_CLKSTAT_PLL1LK
/-- Power domain `d` is on (R24, R307). -/
def State.domOn (s : State) (d : Nat) : Bool := bits (s.reg PWR_DOMSTAT) (2 * d + 1) (2 * d) == 1
/-- The power domain of engine `n`. -/
def engDom (n : Nat) : Nat := 3 + n / 4
/-- Engine `n` is held in reset or its domain is off (R94, R134, R287). -/
def State.engOff (s : State) (n : Nat) : Bool :=
  s.flag (ENG_CTRL_RST n) || decide (Blk.eng n ∈ s.fcu.resetting ++ s.fcu.held) || !s.domOn (engDom n)
/-- The domain-0 schedule count, which stamps events (R40). -/
def State.cyc0 (s : State) : Word := s.reg (TIME_DOM_CYC 0)

/-! ### Balls (R384) -/

/-- What a ball carries: a driven level, or high impedance with the pull named. -/
inductive Pad where
  | low
  | high
  | pullDown
  | pullUp
  | open_
deriving DecidableEq, Repr
/-- A driven level. -/
def padOf (b : Bool) : Pad := if b then .high else .low

/-! ### Wake events (R311, R312, R343) -/

/-- Wake source `i`: in RETAIN and STROLL it starts the wake, in the prepare phase of a vote it ends the vote. -/
def State.wake (s : State) (i : Nat) : State :=
  if (s.asleep || s.pwr.vote.isSome) && (decide (i < 4) || (s.regN PWR_WAKE).testBit i) then
    let s := s.setReg PWR_WAKE (setBits (s.reg PWR_WAKE) (16 + i) (16 + i) 1)
    { s with modeq := s.modeq ++ [(18, s.lowFrom, 6)] }
  else s

end Sys2Proof.Machine
end

