-- ==== Sys2Proof/Machine/Frame.lean ====
section
/-! DEFINITION. Frames as byte lists, destination address through FCS: the CRC-32 of R69, addresses, VLAN tags, EtherTypes, PTP
messages (R71, R72), redundancy tags (R109). Fields inside frames are in network byte order (R7). -/

namespace Sys2Proof.Machine

open Sys2Proof

/-- One bit of the reflected CRC-32 (R69). -/
def crcBit (c : Word) : Word := if c.getLsbD 0 then (c >>> 1) ^^^ 0xEDB88320#32 else c >>> 1
/-- One byte of the CRC-32 (R69). -/
def crcByte (c : Word) (b : Byte) : Word :=
  crcBit (crcBit (crcBit (crcBit (crcBit (crcBit (crcBit (crcBit (c ^^^ (b.zeroExtend 32)))))))))
/-- The CRC-32 of bytes in wire order (R69). -/
def crc32 (l : List Byte) : Word := ~~~ (l.foldl crcByte 0xFFFFFFFF#32)
/-- The FCS bytes of frame data: the CRC-32, least significant byte first on the wire. -/
def fcsOf (l : List Byte) : List Byte := leBytes 4 (crc32 l).toNat
/-- A frame without its FCS. -/
def noFcs (f : List Byte) : List Byte := f.take (f.length - 4)
/-- Frame data with a good FCS. -/
def withFcs (l : List Byte) : List Byte := l ++ fcsOf l
/-- Frame data with an inverted FCS (R67, R98). -/
def withBadFcs (l : List Byte) : List Byte := l ++ (fcsOf l).map (~~~ ·)
/-- The FCS of a frame is good. -/
def fcsGood (f : List Byte) : Bool := decide (4 ≤ f.length) && decide (f.drop (f.length - 4) = fcsOf (noFcs f))

/-- The number in `n` bytes at position `i`, network order. -/
def be (f : List Byte) (i n : Nat) : Nat := ofBe (slice f i n)
/-- Bytes from position `i` are replaced. -/
def putBytes (f : List Byte) (i : Nat) (b : List Byte) : List Byte := f.take i ++ b ++ f.drop (i + b.length)
/-- The destination address. -/
def frameDa (f : List Byte) : List Byte := f.take 6
/-- The source address. -/
def frameSa (f : List Byte) : List Byte := slice f 6 6
/-- The group bit of an address. -/
def isGroup (a : List Byte) : Bool := ((a.headD 0).toNat % 2) == 1
/-- The broadcast address. -/
def isBroadcast (a : List Byte) : Bool := a == List.replicate 6 0xFF#8
/-- A VLAN tag's EtherType. -/
def isTagType (t : Nat) : Bool := t == 0x8100 || t == 0x88A8
/-- The position of the EtherType after up to two VLAN tags. -/
def typePos (f : List Byte) : Nat :=
  if isTagType (be f 12 2) then (if isTagType (be f 16 2) then 20 else 16) else 12
/-- The frame carries a VLAN tag. -/
def isTagged (f : List Byte) : Bool := isTagType (be f 12 2)
/-- The outer tag's VLAN identifier and priority. -/
def tagVid (f : List Byte) : Nat := be f 14 2 % 4096
def tagPcp (f : List Byte) : Nat := be f 14 2 / 8192
/-- The hash bin of a group address (R69). -/
def hashBin (a : List Byte) : Nat := (crc32 a).toNat / 2 ^ 23

/-- Where a PTP message starts in a frame, and how it is carried: 0 EtherType, 1 UDP over IPv4, 2 UDP over IPv6 (R71). -/
def ptpAt (f : List Byte) (l2 u4 u6 : Bool) : Option (Nat × Nat) :=
  let p := typePos f
  let t := be f p 2
  if t = 0x88F7 then (if l2 then some (p + 2, 0) else none)
  else if t = 0x0800 then
    let ih := (be f (p + 2) 1 % 16) * 4
    let u := p + 2 + ih
    if u4 && decide (be f (p + 11) 1 = 17) && decide (be f (u + 2) 2 = 319 ∨ be f (u + 2) 2 = 320) then some (u + 8, 1) else none
  else if t = 0x86DD then
    let u := p + 42
    if u6 && decide (be f (p + 8) 1 = 17) && decide (be f (u + 2) 2 = 319 ∨ be f (u + 2) 2 = 320) then some (u + 8, 2) else none
  else none

/-- The messageType of a PTP message at `h`; an event message has 0 to 3. -/
def ptpType (f : List Byte) (h : Nat) : Nat := be f h 1 % 16
/-- The R-TAG's position, where the frame has one (R109). -/
def rtagAt (f : List Byte) : Option Nat := if be f (typePos f) 2 = 0xF1C1 then some (typePos f) else none
/-- The sequence number of the R-TAG at `p`. -/
def rtagSeq (f : List Byte) (p : Nat) : Nat := be f (p + 4) 2

end Sys2Proof.Machine
end

