-- ==== Sys2Proof/Machine/Ecc.lean ====
section
/-! DEFINITION. The memories of the address map, the errors of their words and the states of the bank groups (R19, R295, R296, R301,
R302). -/

namespace Sys2Proof.Machine

open Sys2Proof

/-- The memories of R19. -/
def inSram (a : Nat) : Bool := decide (0x20000000 ≤ a ∧ a < 0x20C00000)
def inMram (a : Nat) : Bool := decide (0x30000000 ≤ a ∧ a < 0x30800000)
def inHamper (a : Nat) : Bool := decide (0x80000000 ≤ a ∧ a < 0x84000000)
/-- The SRAM bank of an address. -/
def sramBank (a : Nat) : Nat := (a - 0x20000000) / 0x40000

/-! ### Errors (R295, R296, R302) -/

/-- The address of an error as MEM_ECCADDR and MEM_UNCADDR give it. -/
def errAddr (a : Nat) : Nat := if inMram a then 2 ^ 31 + (a - 0x30000000) / 8 * 8 else (a - 0x20000000) / 8 * 8
/-- The bank's or MRAM's source of an uncorrectable error. -/
def uncSrc (a : Nat) : Nat := if inMram a then 305 else if sramBank a < 4 then 320 + sramBank a else 256 + sramBank a
/-- What a check of the word at `a` finds. -/
def State.eccAt (s : State) (a : Nat) : Nat := storeGet (fun _ => 0) s.ecc (a / 8 * 8)
/-- An error comes about in the word at `a`, or goes. -/
def State.setEcc (s : State) (a k : Nat) : State :=
  { s with ecc := storeSet (fun _ => 0) s.ecc (a / 8 * 8) k,
           pwr := { s.pwr with wb := if k = 0 then s.pwr.wb.filter (· != a / 8 * 8) else s.pwr.wb } }
/-- A corrected error is counted, recorded and reported; an SRAM bank then writes the word back. -/
def State.eccCor (s : State) (a : Nat) : State :=
  let m := bit (inMram a)
  let s := ((s.countSat (MEM_CNT (2 * m)) 1).setRegN MEM_ECCADDR (errAddr a)).raiseI (304 + 2 * m) (errAddr a)
  if inMram a ∨ s.pwr.wb.contains (a / 8 * 8) then s else { s with pwr := { s.pwr with wb := s.pwr.wb ++ [a / 8 * 8] } }
/-- An uncorrectable error is counted, recorded and reported: the reader's own source first, where it has one. -/
def State.eccUnc (s : State) (a : Nat) (reader : Option Nat) : State :=
  let m := bit (inMram a)
  let s := (s.countSat (MEM_CNT (1 + 2 * m)) 1).setRegN MEM_UNCADDR (errAddr a)
  let s := match reader with | some r => s.raise r | none => s
  s.raiseI (uncSrc a) (errAddr a)
/-- A read of the word at `a`: whether its data is lost. -/
def State.eccRead (s : State) (a : Nat) (reader : Option Nat) : State × Bool :=
  match s.eccAt a with
  | 0 => (s, false)
  | 1 => (s.eccCor a, false)
  | _ => (s.eccUnc a reader, true)
/-- A write to the word at `a`, of all of it or of a part: whether it is made. -/
def State.eccWrite (s : State) (a : Nat) (whole : Bool) (reader : Option Nat) : State × Bool :=
  if whole then (s.setEcc a 0, true) else
  match s.eccAt a with
  | 0 => (s, true)
  | 1 => ((s.eccCor a).setEcc a 0, true)
  | _ => (s.eccUnc a reader, false)
/-- A reader checks words in order: corrected ones are counted, and the first that cannot be corrected is reported and ends it. -/
def State.eccScan (s : State) (reader : Option Nat) : List Nat → State × Option Nat
  | [] => (s, none)
  | a :: l =>
    let r := s.eccRead a reader
    if r.2 then (r.1, some a) else r.1.eccScan reader l

/-- The words that a run of bytes covers whole are written: their errors are gone. -/
def State.freshWords (s : State) (a n : Nat) : State :=
  { s with ecc := s.ecc.filter (fun e => decide (e.1 < a) || decide (a + n < e.1 + 8)) }
/-- Firmware stores its own data in a range of MRAM: what a core had written there is gone (R303). -/
def State.mramStored (s : State) (lo hi : Nat) : State :=
  { s with sys := { s.sys with own := s.sys.own.filter (fun x => decide (x < lo) || decide (hi ≤ x)) } }
/-- A byte of what firmware keeps in MRAM, in no arrangement the manual gives, where no core has written it (R303). -/
def State.fwKept (s : State) (a : Nat) : Bool := decide (0x30000000 ≤ a ∧ a < 0x30220000) && !s.sys.own.contains a
/-- A byte of SG0 that the capture of a HOLDUP may have taken (R318). -/
def State.captured (s : State) (a : Nat) : Bool := s.pwr.capture && decide (0x20000000 ≤ a ∧ a < 0x20100000)
/-- The word of SRAM or MRAM that INFO of a memory source names, and what a check of it then finds (R296, R302). -/
def faultWord (src info : Nat) : Option (Nat × Nat) :=
  let a := if 2 ^ 31 ≤ info then 0x30000000 + (info - 2 ^ 31) else 0x20000000 + info
  let b := sramBank a
  if (src = 304 ∧ inSram a) ∨ (src = 306 ∧ inMram a) then some (a, 1)
  else if (src = 305 ∧ inMram a) ∨ (inSram a ∧ ((4 ≤ b ∧ src = 256 + b) ∨ (b < 4 ∧ src = 320 + b))) then some (a, 2)
  else none
/-- A read of bytes of Hamper meets what their words hold: corrected errors are reported, and one that cannot be corrected with its cell;
whether it met one (R87, R305). (log 160, DEDUCED) -/
def State.hampRead (s : State) (a n : Nat) : State × Bool :=
  (s.ecc.filter (fun e => decide (0x80000000 ≤ e.1 ∧ a < e.1 + 8 ∧ e.1 < a + n))).foldl (fun r e =>
    let c := (e.1 - 0x80000000) / 256
    if e.2 = 1 then (r.1.raiseI 80 c, r.2)
    else ((((r.1.setFlag BUF_STAT_ECCUNC true).setFld BUF_ECCCELL_CELL c)).raiseI 81 c, true)) (s, false)

/-- PWR_HOLDSTAT takes what VIN and VHOLD are now, which no command reports but those of a sample and a trip (R383). (log 165, DESIGN CHOICE) -/
def State.supplyRead (s : State) : State := (s.setReg PWR_HOLDSTAT s.freeW).drew

/-! ### Bank groups (R301) -/

/-- Group `g` is on and initialised. -/
def State.sgOn (s : State) (g : Nat) : Bool := (s.regN MEM_STAT).testBit g
/-- Group `g` is waking or initialising. -/
def State.sgBusy (s : State) (g : Nat) : Bool := (s.regN MEM_STAT).testBit (12 + g)
def State.setSg (s : State) (g : Nat) (on busy : Bool) : State :=
  s.setReg MEM_STAT (setBits (setBits (s.reg MEM_STAT) g g (bit on)) (12 + g) (12 + g) (bit busy))
/-- Group `g` is off: its contents are lost. -/
def State.sgOff (s : State) (g : Nat) : Bool := s.pwr.sgOff.contains g
/-- Bytes and errors of an address range are forgotten. -/
def State.forget (s : State) (lo hi : Nat) : State :=
  { s with mem := s.mem.filter (fun e => decide (e.1 < lo) || decide (hi ≤ e.1)),
           ecc := s.ecc.filter (fun e => decide (e.1 < lo) || decide (hi ≤ e.1)) }
/-- Group `g` is switched off. -/
def State.sgPowerOff (s : State) (g : Nat) : State :=
  let s := (s.setSg g false false).forget (0x20000000 + g * 0x100000) (0x20100000 + g * 0x100000)
  { s with pwr := { s.pwr with sgOff := if s.sgOff g then s.pwr.sgOff else s.pwr.sgOff ++ [g] } }
/-- Group `g` is switched on from off: it powers up and writes zero to every word. -/
def State.sgPowerOn (s : State) (g : Nat) : State :=
  if !s.sgOff g then s
  else { s.setSg g false true with pwr := { s.pwr with sgOff := s.pwr.sgOff.filter (· != g) } }
/-- Group `g` is ready. -/
def State.sgReady (s : State) (g : Nat) : State := if s.sgBusy g then s.setSg g true false else s
/-- Group `g` goes to retention. -/
def State.sgRetain (s : State) (g : Nat) : State := if s.sgOff g then s else s.setSg g false false
/-- A request to group `g` waits until a wake or an initialisation is complete; false where the group is off. -/
def State.sgServe (s : State) (g : Nat) : State × Bool :=
  if s.sgOn g then (s, true) else if s.sgOff g then (s, false) else (s.setSg g true false, true)

/-- A word of 32 bits is written where it is half of a 64-bit word of an SRAM bank: a read-modify-write, in the state its group is in; and
whether it is made (R296, R301). (log 159, DEDUCED) -/
def State.sramPut (s : State) (a : Nat) (v : Word) : State × Bool :=
  let g := s.sgServe (sramBank a / 4)
  if !g.2 then (g.1.note, false) else
  let e := g.1.eccWrite a false none
  (if e.2 then e.1.setMem32 a v.toNat else e.1, e.2)
/-- Reads of words of SRAM find their groups on, or wake them, or are reported where they are off (R301). -/
def State.sgReads (s : State) (l : List Nat) : State :=
  l.foldl (fun s a => let g := s.sgServe (sramBank a / 4); if g.2 then g.1 else g.1.note) s

end Sys2Proof.Machine
end

