-- ==== Sys2Proof/Machine/MbxCore.lean ====
section
/-! DEFINITION. The mailbox channels (R333 to R338): parties, the store of messages, sending and taking a message. -/

namespace Sys2Proof.Machine

open Sys2Proof

/-- The sender of a channel by its identity (R333, R334). -/
def chanSender (c : Nat) : Nat :=
  if c ≤ 3 then 0x00 else if c ≤ 7 then 0x10 + (c - 4) else if c ≤ 23 then 0x00 else if c ≤ 39 then 0x20 + (c - 24)
  else if c ≤ 55 then 0x10 + (c - 40) % 4 else if c ≤ 71 then 0x20 + (c - 56) else if c ≤ 86 then 0x20 + (c - 72)
  else if c = 87 then 0x30 else if c = 88 then 0x00 else if c = 89 then 0x40 else if c = 90 then 0x00
  else if c = 91 then 0x41 else if c = 92 then 0x10 else if c = 93 then 0x40 else if c = 94 then 0x10 else 0x41

/-- The receiver of a channel by its identity (R333, R334). -/
def chanReceiver (c : Nat) : Nat :=
  if c ≤ 3 then 0x10 + c else if c ≤ 7 then 0x00 else if c ≤ 23 then 0x20 + (c - 8) else if c ≤ 39 then 0x00
  else if c ≤ 55 then 0x20 + (c - 40) else if c ≤ 71 then 0x10 + (c - 56) % 4 else if c ≤ 86 then 0x20 + (c - 71)
  else if c = 87 then 0x10 else if c = 88 then 0x40 else if c = 89 then 0x00 else if c = 90 then 0x41
  else if c = 91 then 0x00 else if c = 92 then 0x40 else if c = 93 then 0x10 else if c = 94 then 0x41 else 0x10

/-- The identity of a bus master (R333). -/
def masterId : Master → Nat
  | .host => 0x00
  | .jtag => 0xFF
  | .core c => 0x10 + c.val
  | .thread e _ => 0x20 + e.val
  | .cardamom => 0x30

/-- The messages of channel `c`, oldest first. -/
def State.chan (s : State) (c : Nat) : List (List Byte) := storeGet (fun _ => []) s.chans c

/-- Word `w` of a message. -/
def msgWord (m : List Byte) (w : Nat) : Nat := ofLe (slice m (4 * w) 4)

/-- HEAD shows a message, or 0 where there is none. -/
def State.showHead (s : State) (c : Nat) (m : List Byte) : State :=
  (List.range 16).foldl (fun s w => s.setRegN (MBX_CH_HEAD c w) (msgWord m w)) s

/-- A channel firmware takes commands from (R345). -/
def cmdChan (c : Nat) : Bool := decide (c ≤ 3) || decide (56 ≤ c ∧ c ≤ 71)
/-- The arrivals with the messages of channel `c` brought from `n` to `k`: the oldest of it go first, a new one comes last (R347). -/
def arrivals (l : List Nat) (c n k : Nat) : List Nat :=
  if n ≤ k then l ++ List.replicate (k - n) c
  else (List.range (n - k)).foldl (fun l _ => l.erase c) l
/-- Channel `c` holds `ms`: COUNT, HEAD and the host's pending bit follow (R336, R338, R342). -/
def State.setChan (s : State) (c : Nat) (ms : List (List Byte)) : State :=
  let s := { s with chans := storeSet (fun _ => []) s.chans c ms,
                    arrive := if cmdChan c then arrivals s.arrive c (s.chan c).length ms.length else s.arrive }
  let s := (s.setFld (MBX_CH_STAT_COUNT c) ms.length).showHead c (ms.headD [])
  if chanReceiver c = 0 then s.setBitAt (HOST_MBPEND 0) c (!ms.isEmpty) else s

/-- A SEND to channel `c` is refused (R337). -/
def State.chanFull (s : State) (c : Nat) : Bool := decide (16 ≤ (s.chan c).length) || !s.flag (MBX_CH_CFG_EN c)

/-- The 64 bytes the hardware stores: bytes 0 and 1 stamped with sender and channel (R335). -/
def stampMsg (c : Nat) (m : List Byte) : List Byte := b8 (chanSender c) :: b8 c :: (slice (m ++ List.replicate 64 0) 2 62)

/-- A message is accepted into channel `c` (R336). A core receiver's interrupt controller sees it. (log 99, DESIGN CHOICE) -/
def State.chanPush (s : State) (c : Nat) (m : List Byte) : State :=
  let s := ((s.setChan c (s.chan c ++ [stampMsg c m])).count (MBX_CH_SENT c) 1).wake 0
  let r := chanReceiver c
  if 0x10 ≤ r ∧ r ≤ 0x13 then s.emit (.coreIrq (r - 0x10) (32 + c)) else s

/-- A SEND to channel `c` is refused: SNDREF, REFUSED and MBX_FULL, and HOST_ERR.SNDREF for the host (R337). -/
def State.chanRefuse (s : State) (c : Nat) : State :=
  let s := ((s.setFlag (MBX_CH_STAT_SNDREF c) true).countSat (MBX_CH_REFUSED c) 1).raise 354
  if chanSender c = 0 then s.setFlag HOST_ERR_SNDREF true else s

/-- The staging words of channel `c` as a message. -/
def State.staging (s : State) (c : Nat) : List Byte :=
  (List.range 16).flatMap (fun w => leBytes 4 (s.regN (MBX_CH_SEND c w)))

/-- The oldest message of channel `c` is removed, or POPEMPTY is set (R336). -/
def State.chanPop (s : State) (c : Nat) : State :=
  match s.chan c with
  | [] => s.setFlag (MBX_CH_STAT_POPEMPTY c) true
  | _ :: t => s.setChan c t

/-- Channel `c` loses every message. -/
def State.chanFlush (s : State) (c : Nat) : State := s.setChan c []

/-- The doorbell slot of a receiver identity, where it has one (R333). -/
def dbSlot (r : Nat) : Option Nat :=
  if r = 0 then some 0
  else if 0x10 ≤ r ∧ r ≤ 0x13 then some (1 + (r - 0x10))
  else if 0x20 ≤ r ∧ r ≤ 0x2F then some (5 + (r - 0x20))
  else if r = 0x40 then some 21
  else if r = 0x41 then some 22
  else none

end Sys2Proof.Machine
end

