-- ==== Sys2Proof/Machine/Post.lean ====
section
/-! DEFINITION. The Dispatcher's items (R126 to R132): clusters, levels, posts, held posts, nodes and tokens; the announcements of messages and
doorbells (R338, R341). -/

namespace Sys2Proof.Machine

open Sys2Proof

/-! ### Clusters and levels (R127, R128) -/

/-- The number of engine `e`'s cluster under configuration word `w`. -/
def clusterIn (w e : Nat) : Nat :=
  if w.testBit 14 then 0 else if w.testBit (12 + e / 8) then e / 8 * 8 else if w.testBit (8 + e / 4) then e / 4 * 4
  else if w.testBit (e / 2) then e / 2 * 2 else e
/-- log2 of the size of engine `e`'s cluster under configuration word `w`. -/
def clusterLog (w e : Nat) : Nat :=
  if w.testBit 14 then 4 else if w.testBit (12 + e / 8) then 3 else if w.testBit (8 + e / 4) then 2
  else if w.testBit (e / 2) then 1 else 0
/-- The number of engine `e`'s cluster. -/
def State.clusterOf (s : State) (e : Nat) : Nat := clusterIn (s.regN DISP_CLCFG) e
/-- Engine `e` is in a graph cluster (R127). -/
def State.isGraph (s : State) (e : Nat) : Bool := decide (3 ≤ clusterLog (s.regN DISP_CLCFG) e)

/-- Level `l` of cluster `k`, oldest item first. -/
def State.level (s : State) (k l : Nat) : List Item := storeGet (fun _ => []) s.disp.levels (k * 8 + l)
/-- Level `l` of cluster `k` takes a list; the OCC fields follow. -/
def State.setLevel (s : State) (k l : Nat) (x : List Item) : State :=
  let old := (s.level k l).length
  let s := { s with disp := { s.disp with levels := storeSet (fun _ => []) s.disp.levels (k * 8 + l) x } }
  (s.setFld (DISP_CAP_OCC k l) x.length).setFld DISP_STAT_OCC (s.fld DISP_STAT_OCC - old + x.length)
/-- The level of an item has room (R128). -/
def State.hasRoom (s : State) (k l : Nat) : Bool := decide ((s.level k l).length < s.fld (DISP_CAP_CAP k l))
/-- An item enters its level, stamped (R126). -/
def State.enqueue (s : State) (x : Item) : State :=
  let k := s.clusterOf x.cluster
  s.setLevel k x.level (s.level k x.level ++ [{ x with stamp := s.cyc0.toNat }])
/-- The level of item `x` has room. -/
def State.itemRoom (s : State) (x : Item) : Bool := s.hasRoom (s.clusterOf x.cluster) x.level
/-- A source of kind `k` finds its level full (R132). -/
def State.heldCount (s : State) (k : Nat) : State := s.countSat (DISP_HELD k) 1

/-- The words of an item (R126). -/
def Item.words (x : Item) : List Word :=
  [w32 (x.entry + 2 ^ 14 * bit x.homeV + 2 ^ 16 * x.level + 2 ^ 19 * x.kind + 2 ^ 24 * x.cluster + 2 ^ 28 * x.home), w32 x.arg,
   w32 x.aux, w32 x.stamp]
/-- An item from its first three words, with its kind forced. -/
def itemOf (kind : Nat) (w0 w1 w2 : Word) : Item :=
  { frm := 0, cluster := bits w0 27 24, level := bits w0 18 16, kind := kind, entry := bits w0 13 0, homeV := w0.getLsbD 14,
    home := bits w0 31 28, aux := w2.toNat, arg := w1.toNat, stamp := 0 }

/-! ### Nodes and tokens (R130, R131) -/

/-- Node `n` is in use. -/
def State.nodeValid (s : State) (n : Nat) : Bool := s.flag (DISP_NODE_W0_VALID n)
/-- The count of input `i` of node `n`. -/
def State.tok (s : State) (n i : Nat) : Nat := s.fld ⟨DISP_TOK n, 4 * i + 3, 4 * i⟩
def State.setTok (s : State) (n i v : Nat) : State := s.setFld ⟨DISP_TOK n, 4 * i + 3, 4 * i⟩ v
/-- A token arrives at an input of a node: the state, and the result code of TOKRES. -/
def State.addToken (s : State) (n i : Nat) : State × Nat :=
  if !s.nodeValid n || decide (s.fld (DISP_NODE_W0_NIN n) < i) then (s, 2)
  else if s.tok n i = 15 then ((s.setFlag DISP_STAT_TOKOVF true).raise 160, 1)
  else (s.setTok n i (s.tok n i + 1), 0)
/-- One token goes to a successor field `f` (node, input, valid). -/
def State.emitTo (s : State) (f : Nat) : State := if f.testBit 12 then (s.addToken (f % 512) (f / 512 % 8)).1 else s
/-- The tokens of node `n`'s completion, SUCC0 to SUCC3 (R131). -/
def State.nodeEmit (s : State) (n : Nat) : State :=
  if !s.flag (DISP_NODE_W0_AUTOEMIT n) then s else
  [s.regN (DISP_NODE_W2 n) % 65536, s.regN (DISP_NODE_W2 n) / 65536, s.regN (DISP_NODE_W3 n) % 65536,
    s.regN (DISP_NODE_W3 n) / 65536].foldl (fun s f => s.emitTo f) s
/-- Node `n` is ready: valid, and its inputs all hold a token. -/
def State.nodeReady (s : State) (n : Nat) : Bool :=
  s.nodeValid n && (List.range (s.fld (DISP_NODE_W0_NIN n) + 1)).all (fun i => decide (0 < s.tok n i))
/-- The item of node `n`. -/
def State.nodeItem (s : State) (n : Nat) : Item :=
  { frm := 0, cluster := s.fld (DISP_NODE_W0_CLUSTER n), level := s.fld (DISP_NODE_W0_LEVEL n), kind := 6,
    entry := s.fld (DISP_NODE_W0_ENTRY n), homeV := false, home := 0, aux := n, arg := s.regN (DISP_NODE_W1 n), stamp := 0 }
/-- The post held for source `(kind, index)`. -/
def State.heldPost (s : State) (kind i : Nat) : Option Item := storeGet (fun _ => none) s.disp.held (kind * 256 + i)
def State.setHeld (s : State) (kind i : Nat) (x : Option Item) : State :=
  { s with disp := { s.disp with held := storeSet (fun _ => none) s.disp.held (kind * 256 + i) x } }
/-- A ready node finds its level full: it is counted once until it fires (R132). -/
def State.nodeWaits (s : State) (n : Nat) : State :=
  if (s.heldPost 6 n).isSome then s else (s.heldCount 6).setHeld 6 n (some (s.nodeItem n))
/-- The lowest-numbered ready node of cluster `k` whose level has room fires (R131); ready nodes whose level is full stay so. -/
def State.nodeFire (s : State) (k : Nat) : State :=
  let ready := (List.range 512).filter (fun n => s.clusterOf (s.fld (DISP_NODE_W0_CLUSTER n)) == k && s.isGraph k && s.nodeReady n)
  let s := (ready.filter (fun n => !s.itemRoom (s.nodeItem n))).foldl (fun (s : State) n => s.nodeWaits n) s
  match ready.find? (fun n => s.itemRoom (s.nodeItem n)) with
  | none => s
  | some n =>
    let s := (List.range (s.fld (DISP_NODE_W0_NIN n) + 1)).foldl (fun (s : State) i => s.setTok n i (s.tok n i - 1)) s
    (s.setHeld 6 n none).enqueue (s.nodeItem n)

/-! ### Posts of the hardware sources (R126, R132) -/

/-- Announcements of channel or doorbell `i` that wait behind a held one (R338). -/
def State.later (s : State) (i : Nat) : Nat := storeGet (fun _ => 0) s.disp.later i
def State.setLater (s : State) (i n : Nat) : State :=
  { s with disp := { s.disp with later := storeSet (fun _ => 0) s.disp.later i n } }

/-- The source entry of kind `kind` in the cluster of engine `e`. -/
def State.srcEntry (s : State) (e kind : Nat) : Nat := DISP_ENTRY (s.clusterOf e) kind
/-- The source adds a token in place of an item (R126, R131). -/
def State.srcToken (s : State) (e kind : Nat) : Bool :=
  decide (1 ≤ kind ∧ kind ≤ 4) && s.isGraph e && s.flag (DISP_ENTRY_TOKEN (s.clusterOf e) kind)
/-- The item a hardware source posts to the cluster of engine `e`: ENTRY and LEVEL from the cluster's entry for its kind. -/
def State.srcItem (s : State) (e kind arg aux : Nat) (home : Bool) : Item :=
  let k := s.clusterOf e
  { frm := 0, cluster := e, level := s.fld (DISP_ENTRY_LEVEL k kind), kind := kind, entry := s.fld (DISP_ENTRY_ENTRY k kind),
    homeV := home, home := if home then e else 0, aux := aux, arg := arg, stamp := 0 }
/-- A hardware source's token, its refusal as R131. -/
def State.srcTok (s : State) (e kind : Nat) : State :=
  let k := s.clusterOf e
  (s.addToken (s.fld (DISP_ENTRY_NODE k kind)) (s.fld (DISP_ENTRY_INPUT k kind))).1

/-- Source `(kind, i)`, of kinds 2 to 4, posts to the cluster of engine `e`; a full level holds one post for it, with which
later ones merge: into that of a doorbell without a trace, while messages of a channel wait for a post each (R132, R338, R341). (log 152, DEDUCED) -/
def State.srcPost (s : State) (kind i e arg aux : Nat) (home : Bool) : State :=
  if s.srcToken e kind then s.srcTok e kind else
  match s.heldPost kind i with
  | some x =>
    if kind = 2 then (if 4096 ≤ i then s else s.setLater i (s.later i + 1))
    else
      let n := satAdd 255 (x.aux / 65536 % 256) 1
      s.setHeld kind i (some { x with arg := if kind = 3 then x.arg ||| arg else x.arg, aux := x.aux % 65536 + n * 65536 })
  | none =>
    let x := s.srcItem e kind arg aux home
    if s.itemRoom x then s.enqueue x else (s.heldCount kind).setHeld kind i (some x)

/-- The announcements of channel `i` that waited behind a held one are posted, an item `x` each, while the level has room; the next one is held
(R338). -/
def State.laterRelease (i : Nat) (x : Item) : Nat → State → State
  | 0, s => s
  | n + 1, s =>
    if s.later i = 0 then s else
    let s := s.setLater i (s.later i - 1)
    if s.itemRoom x then State.laterRelease i x n (s.enqueue x) else (s.heldCount 2).setHeld 2 i (some x)
/-- The held post of source `(kind, i)` is posted where its level has room (R132). -/
def State.heldRelease1 (s : State) (kind i : Nat) : State :=
  match s.heldPost kind i with
  | none => s
  | some x =>
    if kind < 2 ∨ 4 < kind ∨ !s.itemRoom x then s else
    let s := (s.enqueue x).setHeld kind i none
    if kind = 2 then State.laterRelease i x (s.later i) s else s

/-- A timer expires (R132). -/
def State.timerExpiry (s : State) (i : Nat) : State :=
  if s.flag (DISP_TMR_CFG_EN i) then s.srcPost 4 i (s.fld (DISP_TMR_CFG_CLUSTER i)) (s.fld (DISP_TMR_CFG_ARG i)) i false else s

/-- A post by code or software: the state and the result code (R126, POSTRES, SWRES). -/
def State.swPost (s : State) (x : Item) : State × Nat :=
  if s.itemRoom x then (s.enqueue x, 0) else (s.heldCount x.kind, 1)

/-- A message has been accepted into channel `c` whose receiver is engine `e` (R338). -/
def State.announce (s : State) (c : Nat) : State :=
  let r := chanReceiver c
  if 0x20 ≤ r ∧ r ≤ 0x2F then s.srcPost 2 c (r - 0x20) 0 c true else s
/-- A message is accepted and announced. -/
def State.mbxPush (s : State) (c : Nat) (m : List Byte) : State := (s.chanPush c m).announce c

/-- The key of the post held for doorbell `d` of engine `e`, beyond those of channels, cells and timers. -/
def dbKey (e d : Nat) : Nat := 4096 + 32 * e + d
/-- Doorbell `d` of receiver `r` is rung; one that names no receiver is ignored and reported (R333, R341). -/
def State.ring (s : State) (r d : Nat) : State :=
  match dbSlot r with
  | none => s.note
  | some k =>
    let s := s.wake 0
    if (s.regN (MBX_DB k)).testBit d then s else
    let s := s.setBitAt (MBX_DB k) d true
    if 0x20 ≤ r ∧ r ≤ 0x2F then s.srcPost 2 (dbKey (r - 0x20) d) (r - 0x20) 0 (0x60 + d) true
    else if 0x10 ≤ r ∧ r ≤ 0x13 then s.emit (.coreIrq (r - 0x10) d) else s

end Sys2Proof.Machine
end

