-- ==== Sys2Proof/Machine/FwCore.lean ====
section
/-! DEFINITION. Firmware's messages: notices to the host and responses to commands (R345 to R351). -/

namespace Sys2Proof.Machine

open Sys2Proof

/-- A list brought to `n` bytes with zeros. -/
def padTo (n : Nat) (l : List Byte) : List Byte := (l ++ List.replicate n 0).take n

/-- Firmware sends its queued notices to the host on channel 4 while the channel takes them (R349). -/
def State.fwDrainN : Nat → State → State
  | 0, s => s
  | k + 1, s =>
    match s.fw.notices with
    | [] => s
    | m :: t => if s.chanFull 4 then s else ({ s with fw := { s.fw with notices := t } }.chanPush 4 m).fwDrainN k
/-- Every queued notice the channel has room for is sent. -/
def State.fwDrain (s : State) : State := s.fwDrainN 64

/-- A notice is queued: the oldest goes and is counted in NOTLOST where 64 wait; then firmware sends what it can (R349). -/
def State.fwNotice (s : State) (opcode : Nat) (payload : List Byte) : State :=
  if !s.fw.running then s else
  let m := padTo 64 ([0, 0] ++ leBytes 2 s.fw.notSeq ++ leBytes 2 opcode ++ leBytes 2 payload.length ++ leBytes 8 0 ++ payload)
  let q := s.fw.notices ++ [m]
  let ovr := decide (64 < q.length)
  { s with fw := { s.fw with notices := if ovr then q.drop 1 else q, notSeq := (s.fw.notSeq + 1) % 65536,
                             notLost := if ovr then s.fw.notLost + 1 else s.fw.notLost } }.fwDrain

/-- Firmware's working copy of its configuration takes a register setting (R23). (log 57, DEDUCED) -/
def State.fwKeep (s : State) (a : Nat) (v : Word) : State :=
  { s with fw := { s.fw with cfg := storeSet (fun _ => none) s.fw.cfg a (some v) } }
/-- The return channel of a command channel (R345). -/
def retChan (c : Nat) : Nat := if c ≤ 3 then 4 + c else 40 + (c - 56)

/-- The message a response is: sequence and opcode of the request, its handle bytes, the status, the payload (R346, R351). (log 49, DESIGN CHOICE) -/
def respMsg (hdr : List Byte) (code da db : Nat) (payload : List Byte) : List Byte :=
  padTo 64 ([0, 0] ++ slice hdr 2 4 ++ leBytes 2 payload.length ++ slice hdr 8 4 ++ leBytes 2 code ++ [b8 da, b8 db] ++ payload)

/-- A response is offered to a return channel; refused, it is offered again (R347). -/
def State.fwOffer (s : State) (c : Nat) (m : List Byte) : State :=
  if s.chanFull (retChan c) then { s.chanRefuse (retChan c) with fw := { s.fw with retry := s.fw.retry ++ [(c, m)] } }
  else s.mbxPush (retChan c) m

/-- Firmware answers the request `hdr` of channel `c`. -/
def State.fwReply (s : State) (c : Nat) (hdr : List Byte) (code da db : Nat) (payload : List Byte) : State :=
  s.fwOffer c (respMsg hdr code da db payload)

/-- Firmware answers an owed response. -/
def State.fwPay (s : State) (o : Option Owed) (code da db : Nat) (payload : List Byte) : State :=
  match o with
  | none => s
  | some o => s.fwReply o.chan o.hdr code da db payload

end Sys2Proof.Machine
end

