-- ==== Sys2Proof/Machine/TxnCore.lean ====
section
/-! DEFINITION. Shadow units, shadows, armed sets and the ends of transactions (R352 to R358). -/

namespace Sys2Proof.Machine

open Sys2Proof

/-- The shadow unit an RWT register belongs to (R353, R110, R133, R200, R240, R49). -/
def unitOf (a : Nat) : Option SUnit :=
  if 0x40500000 ≤ a ∧ a < 0x40580000 then some (.lau ((a - 0x40500000) / 0x10000))
  else if 0x40A10000 ≤ a ∧ a < 0x40A20000 then some (.gate ((a - 0x40A10000) / 0x1000))
  else if 0x40A01000 ≤ a ∧ a < 0x40A09000 ∧ (a - 0x40A01000) % 0x400 = 0x00C then some (.gate ((a - 0x40A01000) / 0x400))
  else if 0x40A00000 ≤ a ∧ a < 0x41000000 then some .switch
  else if 0x41100000 ≤ a ∧ a < 0x41200000 then some .disp
  else if 0x41210000 ≤ a ∧ a < 0x41220000 then some (.loop ((a - 0x41210000) / 0x100))
  else if 0x41300000 ≤ a ∧ a < 0x41340000 then some (.loop ((a - 0x41300000) / 0x400))
  else if 0x41400000 ≤ a ∧ a < 0x41440000 then some (.tt ((a - 0x41400000) / 0x10000))
  else none

/-- The block code of a unit (R353). -/
def SUnit.code : SUnit → Nat
  | .lau _ => 5 | .switch => 9 | .gate _ => 9 | .disp => 12 | .loop _ => 13 | .tt _ => 14

/-- The shadow word at an address, where one is written. -/
def State.shad (s : State) (a : Nat) : Option Word := storeGet (fun _ => none) s.shadow a
/-- A coefficient register. -/
def isCoef (a : Nat) : Bool := decide (0x41300000 ≤ a ∧ a < 0x41340000)
/-- The SRAM address of a coefficient register in a bank (R220). -/
def coefMem (a bank : Nat) : Nat := 0x20B00000 + bank * 0x40000 + (a - 0x41300000)
/-- The active bank of the context a coefficient register belongs to (R240). -/
def State.coefBank (s : State) (a : Nat) : Nat := s.fld (LOOP_CTX_STAT_BANK ((a - 0x41300000) / 0x400))
/-- The active word at an address. -/
def State.actWord (s : State) (a : Nat) : Word :=
  if isCoef a then w32 (s.mem32 (coefMem a (s.coefBank a))) else s.reg a
/-- The context a loop register belongs to (R240). -/
def loopCtxOf (a : Nat) : Option Nat :=
  match unitOf a with
  | some (.loop k) => some k
  | _ => none
/-- SHDIRTY follows the shadow of the context `a` belongs to. -/
def State.markDirty (s : State) (a : Nat) (d : Bool) : State :=
  match loopCtxOf a with
  | some k => s.setFlag (LOOP_CTX_STAT_SHDIRTY k) d
  | none => s
/-- The shadow word at an address takes `v`; a coefficient goes to the inactive set, as a write of its bank (R240, R296, R301). (log 159, DEDUCED) -/
def State.setShad (s : State) (a : Nat) (v : Word) : State :=
  let r := if isCoef a then s.sramPut (coefMem a (1 - s.coefBank a)) v else (s, true)
  if r.2 then { r.1 with shadow := storeSet (fun _ => none) r.1.shadow a (some v) }.markDirty a true else r.1
/-- The word an address would hold with its shadow applied. A coefficient is the inactive set's, or while the bank copy runs the
active set's where it has not been written (R240). -/
def State.cand (s : State) (a : Nat) : Word :=
  if isCoef a then
    let copying := s.flag (LOOP_CTX_STAT_SYNCING ((a - 0x41300000) / 0x400)) && (s.shad a).isNone
    w32 (s.mem32 (coefMem a (if copying then s.coefBank a else 1 - s.coefBank a)))
  else (s.shad a).getD (s.reg a)
/-- The addresses with a shadow of unit `u`. -/
def State.shadOf (s : State) (u : SUnit) : List (Nat × Word) :=
  s.shadow.filterMap (fun e => if unitOf e.1 = some u then e.2.map (fun v => (e.1, v)) else none)
/-- The shadow of unit `u` holds nothing any more. -/
def State.clearShad (s : State) (u : SUnit) : State :=
  let s := { s with shadow := s.shadow.filter (fun e => unitOf e.1 != some u) }
  match u with
  | .loop k => s.setFlag (LOOP_CTX_STAT_SHDIRTY k) false
  | _ => s
/-- The whole shadow of unit `u` is discarded: the coefficients written return to the active ones. -/
def State.dropShad (s : State) (u : SUnit) : State :=
  (s.shadOf u).foldl (fun s e =>
    if isCoef e.1 then (s.sramPut (coefMem e.1 (1 - s.coefBank e.1)) (s.actWord e.1)).1 else s) (s.clearShad u)
/-- The RWT fields of the register at an address. -/
def rwtMask (a : Nat) : Word :=
  match findReg a with
  | some r => accMask r .rwt
  | none => 0
/-- The RWT fields of a register take their shadow. -/
def State.shadIn (s : State) (a : Nat) (v : Word) : State :=
  s.setReg a ((s.reg a &&& ~~~ rwtMask a) ||| (v &&& rwtMask a))
/-- The shadow of unit `u` becomes active. -/
def State.applyShad (s : State) (u : SUnit) : State :=
  ((s.shadOf u).filter (fun e => !isCoef e.1)).foldl (fun s e => s.shadIn e.1 e.2) (s.clearShad u)

/-- Transaction channel `m`. -/
def State.txnCh (s : State) (m : Nat) : TxnCh := storeGet (fun _ => TxnCh.idle) s.txn m
/-- Transaction channel `m` takes `t`; LOGN, ARMED and HANDLE follow (R352 to R355). -/
def State.setTxn (s : State) (m : Nat) (t : TxnCh) : State :=
  let s := { s with txn := storeSet (fun _ => TxnCh.idle) s.txn m t }
  let s := (s.setFld (TXN_CH_STAT_LOGN m) t.log.length).setFlag (TXN_CH_STAT_ARMED m) t.armed.isSome
  let open_ := s.flag (TXN_CH_STAT_OPEN m)
  s.setRegN (TXN_CH_HANDLE m) (if open_ then t.handle else (t.armed.map (·.handle)).getD 0)

/-- The channel that has armed unit `u`. -/
def State.armedBy (s : State) (u : SUnit) : Option Nat :=
  (List.range 21).find? (fun m => ((s.txnCh m).armed.map (fun a => decide (u ∈ a.units))).getD false)

/-- The TXN notice of a handle (R349). (log 68, DESIGN CHOICE) -/
def State.txnNotice (s : State) (handle outcome : Nat) : State :=
  s.fwNotice 0x03F0 (leBytes 4 handle ++ leBytes 2 outcome ++ leBytes 2 (if outcome = 0 then 0 else s.freeW.toNat))

/-- RESULT, DETAIL and FAIL of channel `m` (R355, R358). -/
def State.txnResult (s : State) (m code da db : Nat) : State :=
  ((s.setFld (TXN_CH_STAT_RESULT m) code).setFld (TXN_CH_DETAIL_DA m) da).setFld (TXN_CH_DETAIL_DB m) db

/-- The open transaction of channel `m` is discarded with its log (R358). -/
def State.txnDiscard (s : State) (m : Nat) : State :=
  let s := (s.setFlag (TXN_CH_STAT_OPEN m) false).setFlag (TXN_CH_STAT_CHECKING m) false
  s.setTxn m { s.txnCh m with log := [], handle := 0, byCmd := false, owed := none }

/-- The armed set of channel `m` is cancelled: the shadow of every unit not yet applied is discarded, a response that
waits is answered, and firmware sends its notice (R357). -/
def State.txnCancel (s : State) (m outcome : Nat) : State :=
  match (s.txnCh m).armed with
  | none => s
  | some a =>
    let s := a.units.foldl (fun s u => s.dropShad u) s
    let s := s.setTxn m { s.txnCh m with armed := none }
    let s := s.fwPay a.owed 0x8007 (s.fld SYS_MODE_TARGET) 0 []
    (s.txnNotice a.handle outcome).drew

/-- A mode change rolls back every open transaction and cancels every armed set (R28 step 2, R357, R358). (log 56, DEDUCED) -/
def State.txnModeChange (s : State) : State :=
  (List.range 21).foldl (fun s m => ((if s.flag (TXN_CH_STAT_OPEN m) then
    (s.fwPay (s.txnCh m).owed 0x8007 (s.fld SYS_MODE_TARGET) 0 []).txnDiscard m else s)).txnCancel m 1) s

/-- An instance or LAU that an unreached apply point waits for is lost (R357). -/
def State.txnLosePoint (s : State) (kind index : Nat) : State :=
  (List.range 21).foldl (fun s m =>
    match (s.txnCh m).armed with
    | some a => if a.kind = kind ∧ a.index = index ∧ !a.reached then s.txnCancel m 3 else s
    | none => s) s

/-- Unit `u` has applied: every armed set drops it, and a reached set without units ends (R356). -/
def State.txnUnitDone (s : State) (u : SUnit) : State :=
  (List.range 21).foldl (fun s m =>
    match (s.txnCh m).armed with
    | some a =>
      if u ∈ a.units then
        let rest := a.units.filter (· != u)
        let s := a.keep.foldl (fun (s : State) (e : Nat × Word) => if unitOf e.1 = some u then s.fwKeep e.1 e.2 else s) s
        if rest.isEmpty then
          let s := s.setTxn m { s.txnCh m with armed := none }
          let s := s.fwPay a.owed 0 0 0 []
          if a.byCmd then s.txnNotice a.handle 0 else s
        else s.setTxn m { s.txnCh m with armed := some { a with units := rest } }
      else s
    | none => s) s

/-- A unit may apply now: it is not armed, or its set's apply point is reached (R356, R359). -/
def State.unitEligible (s : State) (u : SUnit) : Bool :=
  match s.armedBy u with
  | none => true
  | some m => ((s.txnCh m).armed.map (·.reached)).getD false

/-- A boundary check fails: TXN_STAT and TXN_INCADDR record the case, TXN_INCONSISTENT is raised (R359). -/
def State.inconsistent (s : State) (u : SUnit) (rule addr : Nat) : State :=
  ((((s.fldSat TXN_STAT_INCONS 1).setFld TXN_STAT_RULE rule).setFld TXN_STAT_BLOCK u.code).setRegN TXN_INCADDR addr).raise 355

/-- Unit `u` stands at its apply boundary (R356, R359): its shadow applies where no rule of `bad` fails, that of an armed
unit once its apply point is reached; a set that fails stays in the shadow. An armed unit whose writes were not made (R301) has nothing
left to apply. -/
def State.unitBoundary (s : State) (u : SUnit) (bad : Option (Nat × Nat)) (apply : State → State) : State :=
  if (s.shadOf u).isEmpty then (if (s.armedBy u).isSome && s.unitEligible u then s.txnUnitDone u else s)
  else if !s.unitEligible u then s
  else match bad with
    | some (r, a) => s.inconsistent u r a
    | none => if (s.armedBy u).isSome then (apply s).txnUnitDone u else apply s

/-- The word of a unit's register in a candidate set: the shadow applied, and the armed sets of other units applied too. -/
def State.candFor (s : State) (us : List SUnit) (log : List (Nat × Word)) (a : Nat) : Word :=
  match unitOf a with
  | none => s.reg a
  | some u =>
    if u ∈ us then
      match log.find? (fun e => e.1 == a) with
      | some e => e.2
      | none => s.cand a
    else if (s.armedBy u).isSome then s.cand a
    else s.actWord a

end Sys2Proof.Machine
end

