-- ==== Sys2Proof/Machine/Lau.lean ====
section
/-! DEFINITION. The Line Angle Units (R43 to R49): the estimate, its integration, measurements, the virtual master, enabling,
loss of the source, setting the angle, the apply boundary and the consistency rules. -/

namespace Sys2Proof.Machine

open Sys2Proof

/-- Block `b` is held by a DEGRADED reaction (R403). -/
def State.isHeld (s : State) (b : Blk) : Bool := decide (b ∈ s.fcu.held)

/-- The hidden state of LAU `u`. -/
def State.lauSt (s : State) (u : Nat) : LauSt := storeGet (fun _ => LauSt.reset) s.lau u

/-- LAU `u` runs: EN = 1 and no hold (R404). -/
def State.lauOn (s : State) (u : Nat) : Bool := s.flag (LAU_CTRL_EN u) && !s.isHeld (.lau u)

/-- 2^112, which turns a speed of 96 fractional bits per ns into Q16.16 turns/s after the factor 10^9. -/
def q112 : Nat := 2 ^ 112
/-- The Q16.16 reading of an internal speed or acceleration: nearest, ties away from zero, limited (R43). -/
def q1616 (x : Int) (scale : Nat) : Nat := uns 32 (clampI (-0x80000000) 0x7FFFFFFF (rdiv (x * scale) q112))
/-- The internal speed of a Q16.16 word in turns/s. -/
def spdOf (q : Int) : Int := (q * q112) / 1000000000
/-- The internal acceleration of a Q16.16 word in turns/s². -/
def accOf (q : Int) : Int := (q * q112) / 1000000000000000000
/-- The internal jerk per ns of a Q16.16 word in turns/s³. -/
def jerkOf (q : Int) : Int := (q * q112) / 1000000000000000000000000000

/-- LAU `u` takes a state, and its angle, speed and acceleration read it. -/
def State.setLau (s : State) (u : Nat) (l : LauSt) : State :=
  let s := { s with lau := storeSet (fun _ => LauSt.reset) s.lau u l }
  ((s.setPair (LAU_ANG_LO u) (l.theta / 2 ^ 32)).setRegN (LAU_SPD u) (q1616 l.omega 1000000000)).setRegN (LAU_ACC u)
    (q1616 l.alpha 1000000000000000000)

/-- θ̂ moved by an amount in 2^-32 tick, modulo 2^96. -/
def moveTheta (t : Nat) (d : Int) : Nat := uns 96 ((t : Int) + d)

/-- The virtual master's ramp over one tick (R46): speed and acceleration after it. -/
def vmRamp (v a vt acc jerk : Int) : Int × Int :=
  let vstop := v + (a * (if a < 0 then -a else a)) / (2 * jerk)
  let near := decide ((if vt - v < 0 then v - vt else vt - v) ≤ jerk) && decide ((if a < 0 then -a else a) ≤ jerk)
  let v1 := if near then vt else v
  let a1 := if near then 0
            else if vstop < vt then min (a + jerk) acc
            else if vt < vstop then max (a - jerk) (-acc)
            else if 0 < a then max (a - jerk) 0 else min (a + jerk) 0
  (v1 + a1, a1)

/-- One TIME_CLK cycle of LAU `u` (R43, R46); from a REACQ to the next accepted measurement the angle holds (R45). -/
def State.lauTick (s : State) (u : Nat) : State :=
  let l := s.lauSt u
  let l := { l with accepted := false }
  if !s.lauOn u ∨ l.init = 3 then (s.setLau u l).setFlag (LAU_STAT_VMLIM u) false
  else if s.fld (LAU_CFG_SRC u) = 3 then
    let acc := accOf (s.regN (LAU_VM_ACC u))
    let r := vmRamp l.omega l.alpha (spdOf (sgn 32 (s.regN (LAU_VM_SPD u)))) acc (jerkOf (s.regN (LAU_VM_JERK u)))
    let s := s.setLau u { l with omega := r.1, alpha := r.2, theta := moveTheta l.theta (r.1 / 2 ^ 64) }
    s.setFlag (LAU_STAT_VMLIM u) (decide (r.2 = acc ∨ r.2 = -acc))
  else
    (s.setLau u { l with theta := moveTheta l.theta ((l.omega + l.alpha / 2) / 2 ^ 64), omega := l.omega + l.alpha }).setFlag
      (LAU_STAT_VMLIM u) false

/-- The age limit of LAU `u` in ns (R45, R47). -/
def State.lauMaxAge (s : State) (u : Nat) : Nat := (max 1 (s.fld (LAU_MAXAGE_MAXAGE u))) * 1000

/-- A measurement of LAU `u` is rejected (R45); a held LAU counts nothing (R404). -/
def State.lauReject (s : State) (u : Nat) : State := if s.isHeld (.lau u) then s else s.fldSat (LAU_STAT_REJ u) 1

/-- π scaled by 10^18. -/
def piScaled : Int := 3141592653589793238
/-- The denominator of w·T: w·T = π·BW·T/5 with T in ns. -/
def wtDen : Int := 5 * 1000000000000000000 * 1000000000

/-- The correction of an accepted measurement (R45): `e` the difference in 2^-32 tick, `t` the interval in ns. Answers the
changes of θ̂ (2^-32 tick), ω̂ and α̂ (96 fractional bits), and whether the gains were clamped. -/
def lauGain (bw : Nat) (t : Nat) (e : Int) : Int × Int × Int × Bool :=
  let wtN := piScaled * bw * t
  let clamp := decide (wtDen < wtN * 10)
  let n := if clamp then 1 else wtN
  let d := if clamp then 10 else wtDen
  let wN := piScaled * bw
  let wD : Int := 5 * 1000000000000000000 * 1000000000
  let e96 := e * 2 ^ 64
  (3 * n * e / d, 3 * n * wN * e96 / (d * wD), n * wN * wN * e96 / (d * wD * wD), clamp)

/-- An offered measurement `m` (ticks, before OFFSET) with timestamp `t` in domain `dom` (R45). -/
def State.lauMeasure (s : State) (u : Nat) (dom : Nat) (m0 : Int) (t : Nat) : State :=
  let l := s.lauSt u
  let d := sgn 32 (uns 32 ((s.regN (TIME_DOM_CYC dom) : Int) - t))
  let later := match l.tPrev with
    | none => true
    | some p => decide (0 < sgn 32 (uns 32 ((t : Int) - p)))
  if !s.lauOn u || decide (d < 0) || decide ((s.lauMaxAge u : Int) < d) || !later then s.lauReject u else
  let m := m0 + l.offset
  if l.init ≠ 0 then
    let s := s.setLau u { l with theta := uns 96 (m * 2 ^ 32), omega := if l.init = 2 then l.omega else 0, alpha := 0,
                                 tPrev := some t, init := 0, srcNew := false, settled := 0, accepted := true }
    (s.setFlag (LAU_STAT_REACQ u) true).setFlag (LAU_STAT_SRCLOST u) false
  else
    let tp : Int := (l.theta : Int) - (l.omega * d - l.alpha * d * d / 2) / 2 ^ 64
    if l.srcNew then
      let off := l.offset + sgn 64 (uns 64 (tp / 2 ^ 32 - m))
      s.setLau u { l with offset := off, tPrev := some t, srcNew := false, accepted := true }
    else
      let e := sgn 96 (uns 96 (m * 2 ^ 32 - tp))
      let iv := match l.tPrev with
        | none => 0
        | some p => uns 32 ((t : Int) - p)
      let g := lauGain (s.fld (LAU_BW_BW u)) iv e
      let big := decide (2 ^ 48 ≤ e ∨ e ≤ -(2 ^ 48))
      let small := decide (-(2 ^ 44) < e ∧ e < 2 ^ 44)
      let n := if small then l.settled + 1 else 0
      let s := s.setLau u { l with theta := moveTheta l.theta g.1, omega := l.omega + g.2.1, alpha := l.alpha + g.2.2.1,
                                   tPrev := some t, settled := min n 16, accepted := true }
      let s := if g.2.2.2 then s.setFlag (LAU_STAT_TCLAMP u) true else s
      if big then s.setFlag (LAU_STAT_SETTLED u) false
      else if decide (16 ≤ n) then s.setFlag (LAU_STAT_SETTLED u) true else s

/-- The ticks of an unwrapped count: exact, nearest, ties away from zero (R44). -/
def countTicks (p : Int) (num den : Nat) : Int := rdiv (p * (den : Int) * 2 ^ 32) num

/-- Nutmeg cell `c` publishes position `raw` sampled at `t`: every LAU whose source it is takes the measurement (R44). The count starts
at the first raw word, signed for WIDTH = 0 and as its low W bits otherwise. (log 116, DESIGN CHOICE) -/
def State.lauNutmeg (s : State) (c raw t : Nat) : State :=
  (List.range 2).foldl (fun s u =>
    if s.fld (LAU_CFG_SRC u) = 1 ∧ s.fld (LAU_CFG_CELL u) = c then
      let l := s.lauSt u
      let w := s.fld (LAU_CFG_WIDTH u)
      let k := if w = 0 then 32 else w
      let restart := l.srcNew && l.init == 0
      let p := match l.raw, restart with
        | some r, false => l.count + sgn k (uns k ((raw : Int) - r))
        | _, _ => if w = 0 then sgn 32 raw else sgn 64 (raw % 2 ^ k)
      let s := { s with lau := storeSet (fun _ => LauSt.reset) s.lau u { l with count := p, raw := some raw } }
      s.lauMeasure u 0 (countTicks p (s.regN (LAU_CPT_NUM u)) (s.fld (LAU_CPT_DEN_DEN u))) t
    else s) s

/-- A write of NET_TS submits the network measurement, or counts a rejection (R45, NET_TS). -/
def State.lauNetTs (s : State) (u t : Nat) : State :=
  let l := s.lauSt u
  let fresh := l.netFresh
  let s := { s with lau := storeSet (fun _ => LauSt.reset) s.lau u { l with netFresh := false } }
  if s.fld (LAU_CFG_SRC u) ≠ 2 ∨ !s.lauOn u ∨ !fresh then s.lauReject u
  else s.lauMeasure u (s.fld (LAU_CFG_DOM u)) (s.pair (LAU_NET_ANG_LO u) : Int) t

/-- LAU `u` behaves as with EN = 0: its angle holds with speed and acceleration 0, and it is not settled (R45, R404). (log 117, DESIGN CHOICE) -/
def State.lauStill (s : State) (u : Nat) : State :=
  (s.setLau u { s.lauSt u with omega := 0, alpha := 0, settled := 0 }).setFlag (LAU_STAT_SETTLED u) false
/-- CTRL.EN takes `en` (R45, R47): cleared, the estimate stops; set, the silence count starts. -/
def State.lauEnable (s : State) (u : Nat) (en : Bool) : State :=
  let was := s.flag (LAU_CTRL_EN u)
  let s := s.setFlag (LAU_CTRL_EN u) en
  let l := s.lauSt u
  if en && !was then s.setLau u { l with init := if l.init = 3 then 3 else 1 }
  else if !en && was then s.lauStill u
  else s

/-- CTRL.REACQ: the estimate is discarded (R45). -/
def State.lauReacq (s : State) (u : Nat) : State :=
  let l := s.lauSt u
  (s.setLau u { l with omega := 0, alpha := 0, init := 3, settled := 0 }).setFlag (LAU_STAT_SETTLED u) false

/-- An armed angle slot references LAU `u`. -/
def State.angleSlotOn (s : State) (u : Nat) : Bool :=
  s.itin.armed.any (fun n => s.fld (ITIN_SLOT_CTRL_TRIG n) == 1 && s.fld (ITIN_SLOT_CTRL_SRC n) == u)

/-- CTRL.SETANG: θ̂ moves to the set angle through OFFSET, or the set is refused (R48). -/
def State.lauSetAng (s : State) (u : Nat) : State :=
  if s.angleSlotOn u then s.setFlag (LAU_STAT_SETREF u) true else
  let l := s.lauSt u
  let t := s.pair (LAU_SET_LO u)
  s.setLau u { l with theta := t * 2 ^ 32, offset := l.offset + sgn 64 (uns 64 ((t : Int) - (l.theta / 2 ^ 32 : Nat))) }

/-- `MAXAGE` µs of silence: SRCLOST, α̂ = 0, and with LOSSACT = 1 every uncommitted angle slot on the LAU is held (R47). -/
def State.lauLost (s : State) (u : Nat) : State :=
  if !s.lauOn u ∨ (s.fld (LAU_CFG_SRC u) ≠ 1 ∧ s.fld (LAU_CFG_SRC u) ≠ 2) ∨ s.flag (LAU_STAT_SRCLOST u) then s else
  let l := s.lauSt u
  let s := ((s.setLau u { l with alpha := 0, init := if l.init = 3 then 3 else 2 }).setFlag (LAU_STAT_SRCLOST u) true).raise (21 + u)
  let s := if s.flag (LAU_CFG_LOSSACT u) then
      s.itin.armed.foldl (fun s n =>
        if s.fld (ITIN_SLOT_CTRL_TRIG n) = 1 ∧ s.fld (ITIN_SLOT_CTRL_SRC n) = u ∧
            (s.fld (ITIN_SLOT_STAT_STATE n) = 2 ∨ s.fld (ITIN_SLOT_STAT_STATE n) = 4) then
          s.setFld (ITIN_SLOT_STAT_STATE n) 5 else s) s
    else s
  s.txnLosePoint 3 u

/-- The consistency rules of LAU `u` over a candidate set (R49): the failing rule and the lowest address it names. -/
def lauCheck (s : State) (get : Nat → Word) (u : Nat) : Option (Nat × Nat) :=
  let g (f : Fld) : Nat := bits (get f.addr) f.hi f.lo
  if (get (LAU_CPT_NUM u)).toNat = 0 ∨ g (LAU_CPT_DEN_DEN u) = 0 then some (1, LAU_CPT_NUM u)
  else if g (LAU_BW_BW u) < 1 ∨ 50000 < g (LAU_BW_BW u) then some (2, LAU_BW u)
  else if 32 < g (LAU_CFG_WIDTH u) then some (3, LAU_CFG u)
  else if g (LAU_CFG_SRC u) = 3 ∧ ((get (LAU_VM_ACC u)).toNat = 0 ∨ (get (LAU_VM_JERK u)).toNat = 0) then some (4, LAU_CFG u)
  else if g (LAU_CFG_SRC u) = 1 ∧ !s.flag (NUT_CFG_POSOUT (g (LAU_CFG_CELL u))) then some (5, LAU_CFG u)
  else none

/-- The shadow of LAU `u` becomes active; a change of SRC to a measured source is remembered (R45, R49). (log 141, DESIGN CHOICE) -/
def State.lauApply (s : State) (u : Nat) : State :=
  let old := s.fld (LAU_CFG_SRC u)
  let s := s.applyShad (.lau u)
  let new := s.fld (LAU_CFG_SRC u)
  if new ≠ old ∧ (new = 1 ∨ new = 2) then
    let l := s.lauSt u
    { s with lau := storeSet (fun _ => LauSt.reset) s.lau u { l with srcNew := true } }
  else s

/-- LAU `u` stands at its apply boundary (R49). -/
def State.lauAtBoundary (s : State) (u : Nat) : Bool :=
  let src := s.fld (LAU_CFG_SRC u)
  if src = 0 ∨ src = 3 ∨ s.flag (LAU_STAT_SRCLOST u) ∨ !s.lauOn u then s.fld (TIME_DOM_NS_NS 0) % 1000 == 0
  else (s.lauSt u).accepted

/-- LAU `u` returns to its reset state (R404). -/
def State.lauReset (s : State) (u : Nat) : State :=
  let s := { s with lau := storeSet (fun _ => LauSt.reset) s.lau u LauSt.reset }
  (s.dropShad (.lau u)).resetRange (LAU_CTRL u) (LAU_CTRL u + 0x10000)

end Sys2Proof.Machine
end

