-- ==== Sys2Proof/Machine/Edge.lean ====
section
/-! DEFINITION. The edge placers (R55, R59, R60): pending edges, placing, the level at the ball. -/

namespace Sys2Proof.Machine

open Sys2Proof

/-- The hidden state of placer `n`. -/
def State.edgeSt (s : State) (n : Nat) : EdgeSt := storeGet (fun _ => EdgeSt.reset) s.edge n
/-- Placer `n` takes a state; PEND follows. -/
def State.setEdge (s : State) (n : Nat) (e : EdgeSt) : State :=
  ({ s with edge := storeSet (fun _ => EdgeSt.reset) s.edge n e }).setFld (EDGE_EP_STAT_PEND n) e.pend.length

/-- The time now in domain 0 in eighths of a ns, modulo 2^35. -/
def State.now8 (s : State) : Nat := s.cyc0.toNat * 8 + s.fld (TIME_DOM_FRAC_FRAC 0) / 8192

/-- Signed distance of two times in eighths of a ns, modulo 2^35. -/
def dist8 (a b : Nat) : Int := sgn 35 (uns 35 ((a : Int) - b))

/-- Two edges lie closer than 250 ps (R59). -/
def tooClose (a b : Nat) : Bool := let d := dist8 a b; decide (-2 < d ∧ d < 2)

/-- An edge is kept in time order. -/
def insertEdge (l : List (Nat × Nat)) (e : Nat × Nat) : List (Nat × Nat) :=
  match l with
  | [] => [e]
  | h :: t => if dist8 e.1 h.1 < 0 then e :: h :: t else h :: insertEdge t e

/-- An edge may not be kept: too close to a pending edge or to the previous edge (R59). `now` is the cycle: times a count apart alike in
35 bits are not close. -/
def edgeClash (e : EdgeSt) (now t : Nat) : Bool :=
  e.pend.any (fun p => tooClose p.1 t) || (e.last.map (fun l => decide (now < l.2 + 2 ^ 31) && tooClose l.1 t)).getD false

/-- An edge action of kind `k` (R51) at time `t` (eighths of a ns) is handed to placer `n` (R55, R59, R60, R404). -/
def State.edgeHand (s : State) (n k t : Nat) : State :=
  if s.isHeld .edge then s
  else
    let cost := if k = 3 then 2 else 1
    if !s.flag (EDGE_EP_CTRL_EN n) then s.fldSat (EDGE_EP_STAT_DROP n) cost
    else
      let e := s.edgeSt n
      if k = 3 then
        let t2 := t + max 8 (s.fld (EDGE_EP_PW_PW n))
        if edgeClash e s.time.now t || edgeClash e s.time.now t2 || decide (4 < e.pend.length + 2) then s.fldSat (EDGE_EP_STAT_DROP n) 2
        else s.setEdge n { e with pend := insertEdge (insertEdge e.pend (t, 0)) (t2, 1) }
      else if edgeClash e s.time.now t || decide (4 ≤ e.pend.length) then s.fldSat (EDGE_EP_STAT_DROP n) 1
      else s.setEdge n { e with pend := insertEdge e.pend (t, k) }

/-- The earliest pending edge of placer `n` is placed at its time: level, LAST and LASTFRAC (R55, R59). One that changes nothing is still the
previous edge of the next. (log 118, DESIGN CHOICE; 140, DESIGN CHOICE) -/
def State.edgePlace (s : State) (n : Nat) : State :=
  let e := s.edgeSt n
  match e.pend with
  | [] => s
  | (t, k) :: rest =>
    if 0 < dist8 t (s.now8 + 7) then s else
    let lvl := s.flag (EDGE_EP_STAT_LEVEL n)
    let new := if k = 0 then true else if k = 1 then false else !lvl
    let s := s.setEdge n { pend := rest, last := some (t, s.time.now) }
    if new = lvl then s
    else ((s.setFlag (EDGE_EP_STAT_LEVEL n) new).setFld (EDGE_EP_STAT_LASTFRAC n) (t % 8)).setRegN (EDGE_EP_LAST n) (t / 8)

/-- Every placer discards its pending edges (R404). -/
def State.edgeDrop (s : State) : State :=
  (List.range 16).foldl (fun s n => s.setEdge n { s.edgeSt n with pend := [] }) s

/-- What the ball of EP `n` carries (R60, R384): none in TEST, where the manual does not define it. -/
def State.edgeBall (s : State) (n : Nat) : Option Pad :=
  let safe := s.flag (EDGE_EP_CTRL_SAFELVL n)
  let m := if s.mode = modeDEGRADED then (if s.degTime then modePREOP else s.degFrom) else s.mode
  if m = modeTEST then none
  else if m = modeOFF then some (if s.flag (PIN_EP_PULLDIS n) then .open_ else .pullDown)
  else if m = modeSAFESTOP ∨ m = modeHOLDUP then some .low
  else if !s.flag (EDGE_EP_CTRL_EN n) then some (padOf safe)
  else if m = modeOPERATIONAL then some (padOf (s.flag (EDGE_EP_STAT_LEVEL n) != s.flag (EDGE_EP_CTRL_INV n)))
  else some (padOf safe)

end Sys2Proof.Machine
end

