-- ==== Sys2Proof/Machine/ItinCore.lean ====
section
/-! DEFINITION. The Itinerary up to the issue of an action (R40 to R42, R50 to R53, R56, R57, R58): arming, disarming,
prediction, due slots and re-arming. -/

namespace Sys2Proof.Machine

open Sys2Proof

/-- The 32 fractional bits of domain `d`. -/
def State.domFrac (s : State) (d : Nat) : Nat := storeGet (fun _ => 0) s.time.frac d
/-- The nanoseconds of domain `d` since 0 s. -/
def State.domNs (s : State) (d : Nat) : Int := (s.pair (TIME_DOM_SEC_LO d) : Int) * 1000000000 + s.fld (TIME_DOM_NS_NS d)

/-- The distance in ns from the time of domain `d` to an absolute time trigger: seconds [31:0] `hi`, nanoseconds `lo`
(R42 steps 1 and 2). -/
def State.timeAhead (s : State) (d lo hi : Nat) : Int :=
  let sec := (s.pair (TIME_DOM_SEC_LO d) : Int)
  let full := sec + sgn 32 (uns 32 ((hi : Int) - sec))
  full * 1000000000 + lo - s.domNs d

/-- The check of R42 with lateness window `w`: 0 accepted, 1 PAST, 2 TOOFAR. -/
def timeVerdict (ahead : Int) (w : Nat) : Nat :=
  if 2147483647 < ahead then 2 else if ahead < -(w : Int) then 1 else 0

/-- The hidden state of slot `n`. -/
def State.slotSt (s : State) (n : Nat) : SlotSt := storeGet (fun _ => SlotSt.reset) s.itin.slots n
/-- Slot `n` takes a hidden state. -/
def State.setSlot (s : State) (n : Nat) (x : SlotSt) : State :=
  { s with itin := { s.itin with slots := storeSet (fun _ => SlotSt.reset) s.itin.slots n x } }

/-- A number enters a rising list. -/
def insertNat (l : List Nat) (n : Nat) : List Nat :=
  match l with
  | [] => [n]
  | h :: t => if n < h then n :: h :: t else if n = h then h :: t else h :: insertNat t n

/-- The armed slots; ARM of the slot and ITIN_STAT.ARMED follow. -/
def State.setArmed (s : State) (n : Nat) (on : Bool) : State :=
  let l := if on then insertNat s.itin.armed n else s.itin.armed.filter (· != n)
  let s := { s with itin := { s.itin with armed := l, dueQ := if on then s.itin.dueQ else s.itin.dueQ.filter (fun e => e.2 != n) } }
  (s.setFlag (ITIN_SLOT_CTRL_ARM n) on).setFld ITIN_STAT_ARMED l.length

/-- Slot `n` is disarmed; any action not yet issued is cancelled, a post that has entered the post queue stands (R52, R54). (log 28, DEDUCED) -/
def State.slotDisarm (s : State) (n : Nat) : State :=
  ((s.setArmed n false).setFld (ITIN_SLOT_STAT_STATE n) 0).setSlot n SlotSt.reset

/-- The due count of slot `n` in eighths of a ns, modulo 2^35. -/
def State.due8 (s : State) (n : Nat) : Nat := s.regN (ITIN_SLOT_DUE n) * 8 + s.fld (ITIN_SLOT_STAT_DUEFRAC n)
/-- The due count of slot `n` takes a time in eighths of a ns. -/
def State.setDue8 (s : State) (n t : Nat) : State :=
  (s.setRegN (ITIN_SLOT_DUE n) (t / 8)).setFld (ITIN_SLOT_STAT_DUEFRAC n) (t % 8)

/-- The schedule domain of slot `n`: its domain for a time slot, domain 0 for an angle slot. -/
def State.slotDom (s : State) (n : Nat) : Nat := if s.fld (ITIN_SLOT_CTRL_TRIG n) = 0 then s.fld (ITIN_SLOT_CTRL_SRC n) else 0

/-- The signed tick distance from θ̂ of LAU `u` to a target, in 2^-32 tick. -/
def State.tickAhead (s : State) (u tgt : Nat) : Int := sgn 96 (uns 96 ((tgt * 2 ^ 32 : Nat) - ((s.lauSt u).theta : Int)))

/-- The sign of an integer. -/
def sign3 (x : Int) : Int := if x < 0 then -1 else if x = 0 then 0 else 1

/-- The period of slot `n` in eighths of a ns (time), or in ticks (angle). -/
def State.slotPer (s : State) (n : Nat) : Nat :=
  if s.fld (ITIN_SLOT_CTRL_TRIG n) = 0 then (s.regN (ITIN_SLOT_PER_LO n) % 2 ^ 31) * 8 + s.regN (ITIN_SLOT_PER_HI n) % 8
  else s.pair (ITIN_SLOT_PER_LO n)

/-- Check 1 of R50. -/
def State.slotCfgOk (s : State) (n : Nat) : Bool :=
  let trig := s.fld (ITIN_SLOT_CTRL_TRIG n)
  let plo := s.regN (ITIN_SLOT_PER_LO n)
  let phi := s.regN (ITIN_SLOT_PER_HI n)
  let per := s.flag (ITIN_SLOT_CTRL_PER n)
  if trig = 0 then
    decide (s.regN (ITIN_SLOT_TRIG_LO n) ≤ 999999999) &&
      (!per || (decide (plo < 2 ^ 31) && decide (phi < 8) && decide (512 ≤ s.slotPer n) && decide (s.slotPer n ≤ (2 ^ 31 - 1) * 8)))
  else if trig = 1 then
    decide (s.fld (ITIN_SLOT_CTRL_SRC n) ≤ 1) && decide (s.fld (ITIN_SLOT_CTRL_DIR n) ≤ 2) &&
      (!per || (decide (s.slotPer n ≠ 0) && decide (phi < 2 ^ 31)))
  else false

/-- Check 2 of R50: the argument names something that exists. -/
def State.slotArgOk (s : State) (n : Nat) : Bool :=
  let arg := s.regN (ITIN_SLOT_ARG n)
  let act := s.fld (ITIN_SLOT_CTRL_ACT n)
  if act = 2 then !arg.testBit 28
  else if act = 5 then (dbSlot (arg % 256)).isSome
  else true

/-- The refusal of an arm: RESULT, and the slot stays idle. -/
def State.armRefuse (s : State) (n r : Nat) : State := (s.setFlag (ITIN_SLOT_CTRL_ARM n) false).setFld (ITIN_SLOT_STAT_RESULT n) r

/-- Slot `n` is armed in STATE `st` (R50). -/
def State.armAs (s : State) (n st : Nat) (x : SlotSt) : State :=
  (((s.setArmed n true).setSlot n x).setFld (ITIN_SLOT_STAT_STATE n) st).setFld (ITIN_SLOT_STAT_RESULT n) 0

/-- The time of slot `n`'s schedule domain in eighths of a ns, modulo 2^35. -/
def State.slotNow8 (s : State) (n : Nat) : Nat := s.regN (TIME_DOM_CYC (s.slotDom n)) * 8 + s.fld (TIME_DOM_FRAC_FRAC (s.slotDom n)) / 8192
/-- The due time of slot `n` has been set: one less than 16 ns ahead leaves no hand-over in time (R55). -/
def State.slotTimed (s : State) (n : Nat) : State :=
  s.setSlot n { s.slotSt n with soon := decide (dist8 (s.due8 n) (s.slotNow8 n) < 128) }

/-- The smallest whole number of steps `p` that brings a signed distance above 0. -/
def stepsAhead (d : Int) (p : Nat) : Nat := if 0 < d then 0 else (-d).toNat / p + 1

/-- An arm of idle slot `n`, its words written: the checks of R50 in their order. -/
def State.slotArm (s : State) (n : Nat) : State :=
  if !s.slotCfgOk n then s.armRefuse n 3
  else if !s.slotArgOk n then s.armRefuse n 4
  else if s.fld (ITIN_SLOT_CTRL_TRIG n) = 0 then
    let d := s.fld (ITIN_SLOT_CTRL_SRC n)
    let ahead := s.timeAhead d (s.regN (ITIN_SLOT_TRIG_LO n)) (s.regN (ITIN_SLOT_TRIG_HI n))
    let v := timeVerdict ahead (s.fld ITIN_CFG_LATEWIN)
    if v ≠ 0 then s.armRefuse n v else
    let a32 := ahead * 2 ^ 32 + s.fld (ITIN_SLOT_CTRL_SUBNS n) * 2 ^ 29 - s.domFrac d
    let per := s.flag (ITIN_SLOT_CTRL_PER n)
    let k := if per && decide (a32 < 0) then stepsAhead a32 (s.slotPer n * 2 ^ 29) else 0
    let t8 := uns 35 ((s.regN (TIME_DOM_CYC d) : Int) * 8 + ahead * 8 + s.fld (ITIN_SLOT_CTRL_SUBNS n) + k * s.slotPer n)
    (s.armAs n 1 { SlotSt.reset with late := !per && decide (a32 < 0) }).setDue8 n t8 |>.slotTimed n
  else
    let u := s.fld (ITIN_SLOT_CTRL_SRC n)
    if !s.lauOn u then s.armRefuse n 6 else
    let tgt := s.pair (ITIN_SLOT_TRIG_LO n)
    let dir := s.fld (ITIN_SLOT_CTRL_DIR n)
    let dist := s.tickAhead u tgt
    let behind := decide (dir = 0 ∧ dist < 0) || decide (dir = 1 ∧ 0 < dist)
    if behind && !s.flag (ITIN_SLOT_CTRL_PER n) then s.armRefuse n 1 else
    let p := s.slotPer n
    let k := if behind then stepsAhead (if dir = 0 then dist else -dist) (p * 2 ^ 32) else 0
    let t := uns 64 ((tgt : Int) + (if dir = 1 then -1 else 1) * (k * p : Nat))
    s.armAs n 2 { SlotSt.reset with tgt := t, side := sign3 (s.tickAhead u t) }

/-- A write of CTRL to slot `n` (R50, R52). -/
def State.slotCtrlWrite (s : State) (n : Nat) (v : Word) : State :=
  let w := v.toNat
  let fields (s : State) : State := s.setReg (ITIN_SLOT_CTRL n) (v &&& 0x7FE00007#32)
  if s.flag (ITIN_SLOT_CTRL_ARM n) then
    if w.testBit 31 then s.setFlag (ITIN_SLOT_STAT_WIGN n) true
    else fields (s.slotDisarm n)
  else if s.isHeld .itin then fields s
  else if w.testBit 31 then (fields s).slotArm n
  else fields s

/-- A slot enters the issue queue, by the cycle in which it became due and then by number (R53). -/
def insertDue (l : List (Nat × Nat)) (e : Nat × Nat) : List (Nat × Nat) :=
  match l with
  | [] => [e]
  | h :: t => if e.1 < h.1 ∨ (e.1 = h.1 ∧ e.2 < h.2) then e :: h :: t else h :: insertDue t e

/-- Slot `n` becomes due in this cycle. -/
def State.slotQueue (s : State) (n : Nat) : State :=
  if s.itin.dueQ.any (fun e => e.2 == n) then s
  else { s with itin := { s.itin with dueQ := insertDue s.itin.dueQ (s.time.now, n) } }

/-- Slot `n` no longer waits to issue. (log 28, DEDUCED) -/
def State.dueDrop (s : State) (n : Nat) : State := { s with itin := { s.itin with dueQ := s.itin.dueQ.filter (fun e => e.2 != n) } }

/-- The due count of slot `n` is reached by signed difference (R41). -/
def State.slotReached (s : State) (n : Nat) : Bool :=
  decide (0 ≤ sgn 32 (uns 32 ((s.regN (TIME_DOM_CYC (s.slotDom n)) : Int) - s.regN (ITIN_SLOT_DUE n))))

/-- A committed time slot or angle slot whose due count is reached waits to issue (R41, R53, R58). -/
def State.slotDue (s : State) (n : Nat) : State :=
  let st := s.fld (ITIN_SLOT_STAT_STATE n)
  if (st = 1 ∨ st = 3) ∧ s.slotReached n ∧ !s.asleep ∧ !s.isHeld .itin then s.slotQueue n else s

/-- The time to reach a target in eighths of a ns, exactly, as a numerator and a denominator: 8·Δθ/(ω̂ + α̂·τ0/2); none where the denominator
is 0 or the time lies behind. -/
def predict8 (dist omega alpha : Int) : Option (Nat × Nat) :=
  let num := 16 * dist * omega * 2 ^ 64
  let den := 2 * omega * omega + alpha * dist * 2 ^ 64
  let n := if den < 0 then -num else num
  let d := if den < 0 then -den else den
  if d = 0 ∨ n < 0 then none else some (n.toNat, d.toNat)
/-- The predicted time in eighths of a ns of domain 0: nearest, ties away from zero (R56). -/
def State.predictAt (s : State) (t : Nat × Nat) : Nat :=
  (s.cyc0.toNat * 8 + (rdiv (t.1 * 2 ^ 29 + s.domFrac 0 * t.2 : Nat) (t.2 * 2 ^ 29)).toNat) % 2 ^ 35

/-- The speed threshold of LAU `u` (MINSPD). -/
def State.slowLau (s : State) (u : Nat) : Bool :=
  let w := (s.lauSt u).omega
  decide ((if w < 0 then -w else w) < spdOf (s.regN (LAU_MINSPD u)))

/-- Slot `n`, an armed angle slot, is checked and predicted (R53): `step` says that it had committed when domain 0 stepped, so that it
is never held. An angle that equals the target has passed it. (log 115, DESIGN CHOICE) -/
def State.slotPredict (s : State) (n : Nat) (step : Bool := false) : State :=
  let u := s.fld (ITIN_SLOT_CTRL_SRC n)
  let dir := s.fld (ITIN_SLOT_CTRL_DIR n)
  let l := s.lauSt u
  let x := s.slotSt n
  let dist := s.tickAhead u x.tgt
  let held := !step && s.flag (LAU_STAT_SRCLOST u) && s.flag (LAU_CFG_LOSSACT u)
  if held then s.setFld (ITIN_SLOT_STAT_STATE n) 5
  else if !s.lauOn u then s.setFld (ITIN_SLOT_STAT_STATE n) 4
  else
    let passed := if dir = 0 then decide (dist ≤ 0) else if dir = 1 then decide (0 ≤ dist)
                  else decide (dist = 0) || decide (sign3 dist ≠ x.side)
    if passed then
      ((s.setSlot n { x with late := true }).setFld (ITIN_SLOT_STAT_STATE n) 3).slotQueue n
    else
      let against := if dir = 0 then decide (l.omega < 0) else if dir = 1 then decide (0 < l.omega)
                     else decide (sign3 l.omega ≠ sign3 dist)
      match (if s.slowLau u || against then none else predict8 dist l.omega l.alpha) with
      | none => s.setFld (ITIN_SLOT_STAT_STATE n) 4
      | some t => ((s.setDue8 n (s.predictAt t)).setFld (ITIN_SLOT_STAT_STATE n) (if t.1 < 8000 * t.2 then 3 else 2)).slotTimed n

/-- At a schedule count that is a multiple of 32, every uncommitted angle slot predicts (R53, R58). -/
def State.anglePredict (s : State) : State :=
  if s.cyc0.toNat % 32 ≠ 0 ∨ s.asleep ∨ s.isHeld .itin then s else
  s.itin.armed.foldl (fun s n =>
    let st := s.fld (ITIN_SLOT_STAT_STATE n)
    if s.fld (ITIN_SLOT_CTRL_TRIG n) = 1 ∧ (st = 2 ∨ st = 4 ∨ st = 5) then s.slotPredict n else s) s

/-- Domain `d` has stepped (R34, R53): a committed slot that no prediction can be made for waits. Edges that a placer already holds keep the
times they were handed over with. (log 138, DESIGN CHOICE; 139, DESIGN CHOICE) -/
def State.stepSlots (s : State) (d : Nat) : State :=
  s.itin.armed.foldl (fun s n =>
    if s.fld (ITIN_SLOT_CTRL_TRIG n) = 0 then
      if s.fld (ITIN_SLOT_CTRL_SRC n) = d then (s.slotDisarm n).setFld (ITIN_SLOT_STAT_RESULT n) 5 else s
    else if d = 0 ∧ s.fld (ITIN_SLOT_STAT_STATE n) = 3 ∧ !s.itin.dueQ.any (fun e => e.2 == n) then s.slotPredict n true
    else s) s

/-- Slot `n` counts `k` missed periods (R57). -/
def State.slotMiss (s : State) (n k : Nat) : State :=
  if k = 0 then s
  else (s.fldSat (ITIN_SLOT_STAT_MISS n) k).setBitAt (ITIN_MISS 0) n true

/-- After its issue a one-shot slot is idle, and a periodic slot is armed for its next period (R57). (log 27, DEDUCED) -/
def State.slotRearm (s : State) (n : Nat) : State :=
  let x := s.slotSt n
  if !s.flag (ITIN_SLOT_CTRL_PER n) then s.slotDisarm n
  else if s.fld (ITIN_SLOT_CTRL_TRIG n) = 0 then
    let p := s.slotPer n
    let next := s.due8 n + p
    let ahead := dist8 next (s.slotNow8 n)
    let k := if ahead < 0 then stepsAhead ahead p else 0
    ((((s.setDue8 n ((next + k * p) % 2 ^ 35)).setFld (ITIN_SLOT_STAT_STATE n) 1).setSlot n SlotSt.reset).slotTimed n).slotMiss n k
  else
    let u := s.fld (ITIN_SLOT_CTRL_SRC n)
    let dir := s.fld (ITIN_SLOT_CTRL_DIR n)
    let p := s.slotPer n
    let sg : Int := if dir = 0 then 1 else if dir = 1 then -1 else if 0 ≤ (s.lauSt u).omega then 1 else -1
    let t1 := uns 64 ((x.tgt : Int) + sg * p)
    let dist := sg * s.tickAhead u t1
    let k := if dist < 0 then stepsAhead dist (p * 2 ^ 32) else 0
    let t := uns 64 ((t1 : Int) + sg * (k * p : Nat))
    ((s.setSlot n { SlotSt.reset with tgt := t, side := sign3 (s.tickAhead u t) }).setFld (ITIN_SLOT_STAT_STATE n) 2).slotMiss n k

/-- The capture set named by an action latches domain-0 time and both angles in one cycle (R51). -/
def State.captureSet (s : State) (k slot : Nat) : State :=
  let s := s.setFlag (ITIN_CAP_FLAGS_OVWR k) (s.flag (ITIN_CAP_FLAGS_OVWR k) || s.flag (ITIN_CAP_FLAGS_VALID k))
  let s := (s.setFlag (ITIN_CAP_FLAGS_VALID k) true).setFld (ITIN_CAP_FLAGS_SLOT k) slot
  s.setRegs [(ITIN_CAP_NS k, s.reg (TIME_DOM_NS 0)), (ITIN_CAP_SEC_LO k, s.reg (TIME_DOM_SEC_LO 0)),
    (ITIN_CAP_SEC_HI k, s.reg (TIME_DOM_SEC_HI 0)), (ITIN_CAP_LAU0_LO k, s.reg (LAU_ANG_LO 0)),
    (ITIN_CAP_LAU0_HI k, s.reg (LAU_ANG_HI 0)), (ITIN_CAP_LAU1_LO k, s.reg (LAU_ANG_LO 1)),
    (ITIN_CAP_LAU1_HI k, s.reg (LAU_ANG_HI 1))]

/-- A hold of ITIN returns every slot, ITIN_MISS and the capture sets to their reset values and empties the post queue (R404). -/
def State.itinHold (s : State) : State :=
  let s := { s with itin := ItinSt.reset }
  ((((s.resetRange (ITIN_SLOT_CTRL 0) (ITIN_SLOT_CTRL 512)).resetRange (ITIN_MISS 0) (ITIN_MISS 16)).resetRange
    (ITIN_CAP_NS 0) (ITIN_CAP_NS 16)).setFld ITIN_STAT_ARMED 0).setFld ITIN_STAT_POSTQ 0

/-- Slot `n`'s edge is handed to its placer 16 ns before its due time (R55). (log 139, DESIGN CHOICE) -/
def State.slotHand (s : State) (n : Nat) : State :=
  let x := s.slotSt n
  let st := s.fld (ITIN_SLOT_STAT_STATE n)
  let arg := s.regN (ITIN_SLOT_ARG n)
  let ahead := dist8 (s.due8 n) (s.slotNow8 n)
  if s.fld (ITIN_SLOT_CTRL_ACT n) = 0 ∧ (st = 1 ∨ st = 3) ∧ !x.handed ∧ !x.late ∧ !x.soon ∧ !s.isHeld .itin ∧ !s.asleep ∧
      120 ≤ ahead ∧ ahead ≤ 128 then
    (s.setSlot n { x with handed := true }).edgeHand (arg % 16) (arg / 16 % 4) (uns 35 ((s.now8 : Int) + ahead))
  else s

end Sys2Proof.Machine
end

