-- ==== Sys2Proof/Machine/Time.lean ====
section
/-! DEFINITION. The time domains and PPS_IN (R31 to R39): the advance of a domain, its steps, the rate, edges and servo. -/

namespace Sys2Proof.Machine

open Sys2Proof

/-- Domain `d` holds a time: nanoseconds since 0 s, and 32 fractional bits. Seconds, nanoseconds, FRAC and CYC follow (R31, R40). -/
def State.setDom (s : State) (d : Nat) (ns frac : Nat) : State :=
  let s := { s with time := { s.time with frac := storeSet (fun _ => 0) s.time.frac d frac } }
  (((s.setPair (TIME_DOM_SEC_LO d) (ns / 1000000000)).setRegN (TIME_DOM_NS d) (ns % 1000000000)).setRegN (TIME_DOM_FRAC d)
    (frac / 65536)).setRegN (TIME_DOM_CYC d) ns

/-- Domain `d` advances by `k` times 1 + ADJ·2^-32 ns (R31, R17). -/
def State.domTick (s : State) (k d : Nat) : State :=
  let inc : Int := 2 ^ 32 + sgn 32 (s.regN (TIME_DOM_ADJ d))
  let f : Int := s.domFrac d + k * inc
  s.setDom d (s.domNs d + f / 2 ^ 32).toNat (uns 32 f)

/-- Domain `d` is in STATE. -/
def State.domState (s : State) (d : Nat) : Nat := s.fld (TIME_DOM_STAT_STATE d)

/-- The acquisition step of domain `d` by the STEP registers, or its refusal (R33, R34). -/
def State.timeStep (s : State) (d : Nat) : State :=
  if s.domState d ≠ 1 then s.setFld (TIME_DOM_STAT_STEPST d) 2
  else if s.flag (TIME_DOM_CTRL_STEPSRC d) then s.setFld (TIME_DOM_STAT_STEPST d) 3
  else
    let off := sgn 64 (s.pair (TIME_DOM_STEP_SEC_LO d)) * 1000000000 + sgn 32 (s.regN (TIME_DOM_STEP_NS d))
    let t := s.domNs d + off
    let s1 := if t < 0 then (s.setDom d 0 0).setFlag (TIME_DOM_STAT_STEPCLAMP d) true
              else s.setDom d (t.toNat % (2 ^ 64 * 1000000000)) (s.domFrac d)
    let s2 := (s1.setFld (TIME_DOM_STAT_STEPST d) 1).setFld (TIME_DOM_STAT_STATE d) 2
    ({ s2 with time := { s2.time with ppsErr := s2.time.ppsErr.filter (fun e => e.1 != d) } }).stepSlots d

/-- CTRL.FREE returns domain `d` to FREE; from TRACK it raises TIME_REARM (R33). -/
def State.timeFree (s : State) (d : Nat) : State :=
  let was := s.domState d
  let s := s.setFld (TIME_DOM_STAT_STATE d) 0
  if was = 2 then s.raise (17 + d) else s

/-- CTRL.ACQ moves domain `d` from FREE to ACQ (R33). -/
def State.timeAcq (s : State) (d : Nat) : State :=
  if s.domState d = 0 then (s.setFld (TIME_DOM_STAT_STATE d) 1).setFld (TIME_DOM_STAT_STEPST d) 0 else s

/-- ADJ takes a value limited to ±1,000 ppm (R32). -/
def State.setAdj (s : State) (d : Nat) (v : Int) : State :=
  let c := clampI (-4294967) 4294967 v
  let s := s.setRegN (TIME_DOM_ADJ d) (uns 32 c)
  if c = v then s else s.setFlag (TIME_DOM_STAT_ADJCLAMP d) true

/-- A write of TIME_DOM[d]_CTRL: STEPSRC, then FREE, ACQ and STEP in this order (R33). -/
def State.timeCtrl (s : State) (d : Nat) (v : Nat) : State :=
  let s := s.setFlag (TIME_DOM_CTRL_STEPSRC d) (v.testBit 0)
  let s := if v.testBit 2 then s.timeFree d else s
  let s := if v.testBit 1 then s.timeAcq d else s
  if v.testBit 3 then s.timeStep d else s

/-- The time of domain `d` in eighths of a ns since 0 s, `e8` eighths into the cycle (R36). -/
def State.domAt8 (s : State) (d e8 : Nat) : Nat :=
  ((s.pair (TIME_DOM_SEC_LO d) * 1000000000 + s.fld (TIME_DOM_NS_NS d)) * 8 + s.domFrac d / 2 ^ 29 + e8) % (2 ^ 64 * 8000000000)

/-- All four domains are captured at a PPS edge `e8` eighths of a ns into the cycle (R36). -/
def State.ppsCapture (s : State) (e8 : Nat) : State :=
  let t (d : Nat) : Nat := s.domAt8 d e8
  let s := (List.range 4).foldl (fun s d =>
    (s.setPair (TIME_PPS_CAP_SEC_LO d) (t d / 8000000000)).setRegN (TIME_PPS_CAP_NS d) (t d / 8 % 1000000000)) s
  s.setRegN TIME_PPS_CAPFRAC (t 0 % 8 + 8 * (t 1 % 8) + 64 * (t 2 % 8) + 512 * (t 3 % 8))

/-- The servo at an accepted edge with phase errors `e` and `prev`: ERR, and ADJ but at a new reference after three rejections, which makes no
rate update (R37, R38). (log 113, DEDUCED) -/
def State.ppsServo (s : State) (d : Nat) (e prev : Int) (resync : Bool) : State :=
  let fr := rdiv (4294967296 * (e - prev)) 1000000000
  let ph := rdiv (4294967296 * e) (1000000000 * 2 ^ s.fld TIME_PPS_CTRL_PSHIFT)
  (if resync then s else s.setAdj d (sgn 32 (s.regN (TIME_DOM_ADJ d)) - fr - ph)).setRegN TIME_PPS_ERR (uns 32 e)

/-- A rising edge of PPS_IN (R33, R36 to R39). The error before is that of the same domain: where DOM has changed since, no frequency term
applies. (log 137, DESIGN CHOICE) -/
def State.ppsEdge (s : State) (e8 : Nat) : State :=
  if !s.flag TIME_PPS_CTRL_EN then s else
  let s := s.ppsCapture e8
  let tol := max 1 (s.fld TIME_PPS_CTRL_TOL) * 1000
  let inWin := decide (1000000000 ≤ s.time.ppsAge + tol ∧ s.time.ppsAge ≤ 1000000000 + tol)
  let resync := s.time.ppsRef && decide (3 ≤ s.time.ppsRej)
  if s.time.ppsRef && !inWin && !resync then
    let s := s.fldSat TIME_PPS_STAT_REJ 1
    { s with time := { s.time with ppsRej := s.time.ppsRej + 1 } }
  else
    let d := s.fld TIME_PPS_CTRL_DOM
    let ns := s.fld (TIME_PPS_CAP_NS_NS d)
    let e : Int := if 500000000 ≤ ns then (ns : Int) - 1000000000 else ns
    let old := (s.time.ppsErr.filter (fun x => x.1 == d)).map (·.2)
    let s := { s with time := { s.time with ppsAge := 0, ppsRef := true, ppsRej := 0,
                                            ppsErr := if resync then none else some (d, e) } }
    let s := ((s.setFlag TIME_PPS_STAT_EDGE true).setFlag TIME_PPS_STAT_RESYNC (s.flag TIME_PPS_STAT_RESYNC || resync)).setFlag
      TIME_PPS_STAT_LOST false
    if s.domState d = 1 ∧ s.flag (TIME_DOM_CTRL_STEPSRC d) then
      let s := s.setDom d (s.pair TIME_PPS_SEC_LO * 1000000000) 0
      let s := ((s.setFld (TIME_DOM_STAT_STEPST d) 1).setFld (TIME_DOM_STAT_STATE d) 2).setFlag TIME_PPS_STAT_STEPPED true
      ({ s with time := { s.time with ppsErr := none } }).stepSlots d
    else if s.flag TIME_PPS_CTRL_SERVO ∧ s.domState d = 2 then s.ppsServo d e (old.getD e) resync
    else s

/-- 2.5 s without an accepted edge (R39). -/
def State.ppsLost (s : State) : State :=
  if !s.flag TIME_PPS_CTRL_EN ∨ s.flag TIME_PPS_STAT_LOST then s else
  let s := s.setFlag TIME_PPS_STAT_LOST true
  ({ s with time := { s.time with ppsRef := false } }).raise 16

/-- TIME_PPS_CTRL takes a word: setting EN starts the search for a reference, clearing it ends the count (R37, R39). -/
def State.ppsCtrl (s : State) (v : Word) : State :=
  let was := s.flag TIME_PPS_CTRL_EN
  let s := s.setReg TIME_PPS_CTRL (v &&& 0xFFFF007F#32)
  let en := s.flag TIME_PPS_CTRL_EN
  let s := if en && !was then { s with time := { s.time with ppsRef := false, ppsRej := 0, ppsAge := 0, ppsErr := none } } else s
  if en then s else s.setFlag TIME_PPS_STAT_LOST false

end Sys2Proof.Machine
end

