-- ==== Sys2Proof/Machine/Mac.lean ====
section
/-! DEFINITION. The MACs (R61 to R83): counters, link, flow control, AUTOSPEED, EEE, preemption, the group filter and the
egress timestamp FIFO. -/

namespace Sys2Proof.Machine

open Sys2Proof

/-- The hidden state of MAC `p`. -/
def State.macSt (s : State) (p : Nat) : MacSt := storeGet (fun _ => MacSt.reset) s.mac p
/-- MAC `p` takes a hidden state. -/
def State.setMac (s : State) (p : Nat) (m : MacSt) : State := { s with mac := storeSet (fun _ => MacSt.reset) s.mac p m }

/-- IRQ.TSAVAIL and IRQ.CNT of port `p` follow the FIFO and the half-range flags. -/
def State.macSync (s : State) (p : Nat) : State :=
  let c := ((s.reg (MAC_CNTHALF p 0) &&& s.reg (MAC_CNTIEN p 0)) ||| (s.reg (MAC_CNTHALF p 1) &&& s.reg (MAC_CNTIEN p 1))) != 0
  (s.setFlag (MAC_IRQ_TSAVAIL p) (!(s.macSt p).tsf.isEmpty)).setFlag (MAC_IRQ_CNT p) c

/-- The address of counter `i` of port `p` (R82). -/
def macCnt (p i : Nat) : Nat := 0x40800400 + p * 0x10000 + i * 4

/-- Counter `i` of port `p` gains `n`: it wraps, and a rise of bit 31 sets its half-range flag (R82, R83). -/
def State.macCount (s : State) (p i n : Nat) : State :=
  let old := s.regN (macCnt p i)
  let s := s.count (macCnt p i) n
  if old < 2 ^ 31 ∧ 2 ^ 31 ≤ s.regN (macCnt p i) then (s.setBitAt (MAC_CNTHALF p 0) i true).macSync p else s

/-- The counters of port `p` a frame of length `n` with address `da` counts in, from base 0 (received) or 32 (sent) (R82). -/
def State.macCountFrame (s : State) (p base : Nat) (f : List Byte) (ptp : Bool) : State :=
  let n := f.length
  let b := if n ≤ 64 then 0 else if n ≤ 127 then 1 else if n ≤ 255 then 2 else if n ≤ 511 then 3
           else if n ≤ 1023 then 4 else if n ≤ 1518 then 5 else 6
  let s := (s.macCount p (base + b) 1).macCount p (base + 7) n
  let da := frameDa f
  let s := s.macCount p (base + (if isBroadcast da then 10 else if isGroup da then 9 else 8)) 1
  let s := if isTagged f then s.macCount p (base + 13) 1 else s
  if ptp then s.macCount p (base + 14) 1 else s

/-- The PTP event message a frame of port `p` is: position, form and time domain, by the parse enables and the domain map (R71). -/
def State.macPtp (s : State) (p : Nat) (f : List Byte) : Option (Nat × Nat × Nat) :=
  match ptpAt f (s.flag (MAC_TSCFG_L2 p)) (s.flag (MAC_TSCFG_UDP4 p)) (s.flag (MAC_TSCFG_UDP6 p)) with
  | none => none
  | some (h, form) =>
    if 3 < ptpType f h then none else
    let dn := be f (h + 4) 1
    let d := (List.range 4).find? (fun d => (s.fld (MAC_TSCFG_DOMEN p)).testBit d && (s.regN (MAC_PTPDOM p) / 256 ^ d % 256 == dn))
    some (h, form, d.getD 0)

/-! ### Flow control -/

/-- The staging cells of port `p` that are not free; one that the ring lacks while its refill waits counts as in use (R66, R76). (log 122, DESIGN CHOICE) -/
def State.macUsed (s : State) (p : Nat) : Nat := (s.macSt p).ring - (s.macSt p).ringFree

/-- The time port `p` has been in low-power idle so far is counted, in whole µs: transmit, and receive (R82). -/
def State.lpiTxSync (s : State) (p : Nat) : State :=
  if !s.flag (MAC_STAT_LPITX p) then s else
  let k := (s.time.now - (s.macSt p).lpiTx) / 1000
  (s.setMac p { s.macSt p with lpiTx := (s.macSt p).lpiTx + 1000 * k }).macCount p 60 k
def State.lpiRxSync (s : State) (p : Nat) : State :=
  if !s.flag (MAC_STAT_LPIRX p) then s else
  let k := (s.time.now - (s.macSt p).lpiRx) / 1000
  (s.setMac p { s.macSt p with lpiRx := (s.macSt p).lpiRx + 1000 * k }).macCount p 61 k
/-- Low-power idle of port `p` ends, of its transmit side and of its receive side (R79, R82). -/
def State.lpiLeave (s : State) (p : Nat) : State := (s.lpiTxSync p).setFlag (MAC_STAT_LPITX p) false
def State.lpiRxLeave (s : State) (p : Nat) : State := (s.lpiRxSync p).setFlag (MAC_STAT_LPIRX p) false

/-- The counters of a MAC control frame, 64 bytes to a group address, from base 0 (received) or 32 (sent) (R82). -/
def State.ctlCount (s : State) (p base : Nat) : State :=
  ((s.macCount p base 1).macCount p (base + 7) 64).macCount p (base + 9) 1

/-- A flow control frame leaves MAC `p`: PAUSE, or PFC for `cls` in PFC mode, with `quanta`; a line in low-power idle wakes for it (R76, R79). (log 121, DESIGN CHOICE) -/
def State.macFcOut (s : State) (p cls quanta : Nat) : State :=
  let pfc := s.fld (MAC_FCCFG_MODE p) == 2
  let s := (s.lpiLeave p).emit (.mac p (if pfc then 2 else 1) (quanta + 65536 * (if pfc then cls else 0)))
  (s.ctlCount p 32).macCount p (if pfc then 44 else 43) 1

/-- The flow control frames that wait leave MAC `p`, oldest first: the frame in flight has ended (R76). -/
def State.fcFlush (s : State) (p : Nat) : State :=
  let m := s.macSt p
  m.fcq.foldl (fun (s : State) e => s.macFcOut p e.1 e.2) (s.setMac p { m with fcq := [] })

/-- MAC `p` sends a flow control frame after the frame in flight; with the link down or the transmitter off there is none to send (R76). (log 121, DESIGN CHOICE) -/
def State.macSendFc (s : State) (p cls quanta : Nat) : State :=
  let m := s.macSt p
  if !s.flag (MAC_STAT_LINK p) || !s.flag (MAC_CTRL_TXEN p) then s
  else if (((storeGet (fun _ => OutSt.reset) s.swx.outs p)).tx).isSome then s.setMac p { m with fcq := m.fcq ++ [(cls, quanta)] }
  else s.macFcOut p cls quanta

/-- The generation of flow control as the staging ring fills and empties; XOFFSENT stands while GEN is clear or the link is down (R76). (log 122, DESIGN CHOICE) -/
def State.macGen (s : State) (p : Nat) : State :=
  let xoff := s.fld (MAC_FCTHR_XOFF p)
  let xon := s.fld (MAC_FCTHR_XON p)
  let used := s.macUsed p
  let sent := s.flag (MAC_FCSTAT_XOFFSENT p)
  if !s.flag (MAC_FCCFG_GEN p) ∨ xoff ≤ xon then s
  else if !sent ∧ xoff ≤ used then
    (s.macSendFc p (s.fld (MAC_FCCFG_PFCGEN p)) (s.fld (MAC_FCCFG_TXQUANTA p))).setFlag (MAC_FCSTAT_XOFFSENT p) true
  else if sent ∧ used < xon then
    (s.macSendFc p (s.fld (MAC_FCCFG_PFCGEN p)) 0).setFlag (MAC_FCSTAT_XOFFSENT p) false
  else s

/-- The staging ring of port `p` holds `n` free cells; flow control follows. -/
def State.setRingFree (s : State) (p n : Nat) : State := (s.setMac p { s.macSt p with ringFree := n }).macGen p

/-- Hold `k` of port `p` (8 the PAUSE, 0 to 7 a class) runs for `q` quanta, or ends with 0 (R74, R75). -/
def State.macHold (s : State) (p k q : Nat) : State :=
  let m := s.macSt p
  let s := s.setMac p { m with holds := storeSet (fun _ => 0) m.holds k q }
  let on := decide (q ≠ 0)
  let s := if k = 8 then (s.setFlag (MAC_FCSTAT_PAUSED p) on).setFlag (MAC_STAT_RXPAUSED p) on
           else s.setBitAt (MAC_FCSTAT p) k on
  if on then s.macCount p 50 1 else s

/-- Every PAUSE and PFC hold of port `p` ends (R75, R81). -/
def State.macEndHolds (s : State) (p : Nat) : State :=
  let s := s.setMac p { s.macSt p with holds := [] }
  ((s.setFlag (MAC_FCSTAT_PAUSED p) false).setFlag (MAC_STAT_RXPAUSED p) false).setFld (MAC_FCSTAT_CLASS p) 0

/-- A PAUSE frame with a good FCS is received (R74). -/
def State.macPause (s : State) (p q : Nat) : State :=
  let s := s.macCount p 11 1
  if s.fld (MAC_FCCFG_MODE p) = 1 ∧ s.flag (MAC_FCCFG_RXEN p) then s.macHold p 8 q else s

/-- An 802.1Qbb frame with a good FCS is received: class vector and eight quanta (R75). -/
def State.macPfc (s : State) (p vec : Nat) (qs : List Nat) : State :=
  let s := s.macCount p 12 1
  if s.fld (MAC_FCCFG_MODE p) = 2 ∧ s.flag (MAC_FCCFG_RXEN p) then
    (List.range 8).foldl (fun s c => if vec.testBit c then s.macHold p c (qs.getD c 0) else s) s
  else s

/-! ### The group filter and the timestamp FIFO -/

/-- The group address filter of port `p` accepts `da` (R68). -/
def State.macFilter (s : State) (p : Nat) (da : List Byte) : Bool :=
  !isGroup da
  || (da.take 5 == [0x01#8, 0x80#8, 0xC2#8, 0#8, 0#8] && decide (be da 5 1 < 16))
  || (isBroadcast da && !s.flag (MAC_GFILT_BCDROP p))
  || s.flag (MAC_GFILT_PROMGRP p)
  || (List.range 16).any (fun k => s.flag (MAC_GEX_HI_VALID p k) && s.regN (MAC_GEX_LO p k) == ofLe (da.take 4)
        && s.fld (MAC_GEX_HI_ADDR p k) == ofLe (slice da 4 2))
  || (s.flag (MAC_GFILT_HASHEN p) && s.bitAt (MAC_GHASH p 0) (hashBin da))

/-- An egress timestamp enters the FIFO of port `p`, or is lost at a full one (R73). -/
def State.tsfPush (s : State) (p : Nat) (e : Nat × Nat × Nat) : State :=
  let m := s.macSt p
  if 16 ≤ m.tsf.length then (s.macCount p 49 1).setFlag (MAC_IRQ_TSOVF p) true
  else (s.setMac p { m with tsf := m.tsf ++ [e] }).macSync p

/-! ### Link, AUTOSPEED, EEE, preemption -/

/-- SEL is valid for port `p` (R61, R62). -/
def selOk (p sel : Nat) : Bool :=
  if p ≤ 7 then decide (sel ≤ 3) else if p ≤ 9 then decide (sel = 0 ∨ sel = 4 ∨ sel = 5) else decide (sel = 0 ∨ sel = 6 ∨ sel = 7)

/-- Preemption of port `p` starts again at link-up: verification, or active at once with NOVERIFY (R80, R81). (log 123, DESIGN CHOICE) -/
def State.preemptStart (s : State) (p : Nat) (link : Bool) : State :=
  let en := s.flag (MAC_PREEMPT_EN p)
  let act := en && link && s.flag (MAC_PREEMPT_NOVERIFY p)
  let s := s.setMac p { s.macSt p with tries := 0 }
  let s := s.setFld (MAC_PREEMPT_STAT_VSTATE p) (if en && !s.flag (MAC_PREEMPT_NOVERIFY p) then 1 else 0)
  (s.setFlag (MAC_PREEMPT_STAT_ACTIVE p) act).setFlag (MAC_STAT_PEACT p) act

/-- AUTOSPEED and EEE act on port `p` only outside isochronous use (R77). -/
def State.aspdOn (s : State) (p : Nat) : Bool := s.flag (MAC_ASPD_EN p) && !s.flag (MAC_STAT_ISOCUSE p) && decide (p ≤ 7)
def State.eeeOn (s : State) (p : Nat) : Bool := s.flag (MAC_EEE_EN p) && !s.flag (MAC_STAT_ISOCUSE p) && decide (p ≤ 7)

/-- No speed change starts within DWELL seconds of the previous one (R78). -/
def State.dwellOver (s : State) (p : Nat) : Bool :=
  match (s.macSt p).changed with
  | none => true
  | some t => decide (t + max 1 (s.fld (MAC_ASPD_DWELL p)) * 1000000000 ≤ s.time.now)

/-- A speed change of AUTOSPEED is counted (R78). -/
def State.aspdCount (s : State) (p : Nat) : State :=
  ((s.setMac p { s.macSt p with changed := some s.time.now }).macCount p 63 1).setFlag (MAC_IRQ_ASPD p) true

/-- The link speed a resolution gives: the highest common full-duplex speed of an advertisement and the partner (R61, R63, R78). -/
def State.anResolve (s : State) (p : Nat) (fd : Nat) : Option Nat :=
  let adv := if s.flag (MAC_STAT_ASPDLOW p) then 2 else
    bit (s.flag (MAC_ANADV_FD10 p)) + 2 * bit (s.flag (MAC_ANADV_FD100 p)) + 4 * bit (s.flag (MAC_ANADV_FD1000 p))
  let c := adv &&& fd
  if c.testBit 2 then some 2 else if c.testBit 1 then some 1 else if c.testBit 0 then some 0 else none

end Sys2Proof.Machine
end

