-- ==== Sys2Proof/Machine/Swx.lean ====
section
/-! DEFINITION. Hamper's cells and the switch's outputs (R84 to R88, R94 to R96, R98, R100 to R107): accounts, the free pool,
queues, credits, gates, launches, ageing, selection. -/

namespace Sys2Proof.Machine

open Sys2Proof

/-! ### The parts of the switch -/

/-- Queue `(p, c)`. -/
def State.qSt (s : State) (p c : Nat) : QSt := storeGet (fun _ => QSt.reset) s.swx.qs (p * 8 + c)
/-- The cells flow context `f` holds at output `p`. -/
def State.fcSt (s : State) (f : Nat) : FcSt := storeGet (fun _ => FcSt.reset) s.swx.fcs f
/-- Flow context `f` takes a state. -/
def State.setFcSt (s : State) (f : Nat) (x : FcSt) : State :=
  { s with swx := { s.swx with fcs := storeSet (fun _ => FcSt.reset) s.swx.fcs f x } }
/-- The cells flow context `f` holds at output `p`. -/
def State.rsvAt (s : State) (f p : Nat) : Nat := storeGet (fun _ => 0) (s.fcSt f).rsv p
/-- Flow context `f` holds `n` cells at output `p`. -/
def State.setRsv (s : State) (f p n : Nat) : State :=
  s.setFcSt f { s.fcSt f with rsv := storeSet (fun _ => 0) (s.fcSt f).rsv p n }
/-- The cells charged to reservations by the copies of class `c` that output `p` still holds: QSTAT's third account. -/
def State.qCells (s : State) (p c : Nat) : Nat := s.fld (SWX_QSTAT_CELLS p c)
/-- Queue `(p, c)` takes a state; QSTAT.FRAMES follows. -/
def State.setQ (s : State) (p c : Nat) (x : QSt) : State :=
  ({ s with swx := { s.swx with qs := storeSet (fun _ => QSt.reset) s.swx.qs (p * 8 + c) x } }).setFld (SWX_QSTAT_FRAMES p c)
    (min 16383 x.q.length)
/-- Output `p`. -/
def State.outSt (s : State) (p : Nat) : OutSt := storeGet (fun _ => OutSt.reset) s.swx.outs p
/-- Output `p` takes a state. -/
def State.setOut (s : State) (p : Nat) (x : OutSt) : State :=
  { s with swx := { s.swx with outs := storeSet (fun _ => OutSt.reset) s.swx.outs p x } }
/-- Frame `k` of Hamper. -/
def State.frm (s : State) (k : Nat) : Option Frm := storeGet (fun _ => none) s.swx.frames k
/-- Frame `k` of Hamper takes a value. -/
def State.setFrm (s : State) (k : Nat) (x : Option Frm) : State :=
  { s with swx := { s.swx with frames := storeSet (fun _ => none) s.swx.frames k x } }
/-- The VLAN table's entry of a VID: member ports, ports that send untagged; one that nothing has set. (log 101, DESIGN CHOICE) -/
def State.vlanOf (s : State) (v : Nat) : Nat × Nat := storeGet (fun _ => (0xFFFFFFFF, 0)) s.swx.vlan v
/-- The frame data of copy `x` as output `p` sends it, before PTP: R-TAG inserted or stripped (R109), VLAN tag removed where
the VLAN table sends untagged. (log 82, DEDUCED) -/
def State.shape (s : State) (p : Nat) (x : Copy) (f0 : List Byte) : List Byte :=
  let f := noFcs f0
  let f := if x.strip then (match rtagAt f with
      | some i => f.take i ++ f.drop (i + 6)
      | none => f) else f
  let f := if x.gen then f.take (typePos f) ++ beBytes 2 0xF1C1 ++ [0, 0] ++ beBytes 2 (x.seq.getD 0) ++ f.drop (typePos f) else f
  if x.tagged ∧ (s.vlanOf x.vid).2.testBit p then f.take 12 ++ f.drop 16 else f

/-- The length of copy `x` as output `p` sends it, destination address through FCS; of a frame that is still arriving, the longest it can have (R96, R97). -/
def State.copyLen (s : State) (p : Nat) (x : Copy) : Nat :=
  match s.frm x.frm with
  | none => 0
  | some f => if f.ended then (s.shape p x f.data).length + 4 else f.lmax
/-- Counter `i` of output `p` gains one (R111). -/
def State.swxCount (s : State) (p i : Nat) : State := s.count (SWX_CNT p i) 1

/-! ### The free pool and the staging rings (R85) -/

/-- The flow contexts in use, in rising order. -/
def State.fcValid (s : State) : List Nat :=
  s.regs.filterMap (fun e => if 0x40A20000 ≤ e.1 ∧ e.1 < 0x40A24000 ∧ e.1 % 0x40 = 0 ∧ e.2.getLsbD 31 = true
    then some ((e.1 - 0x40A20000) / 0x40) else none)
/-- The cells still owed to minima and reservations: PROTFREE (R85). -/
def State.protFree (s : State) : Nat :=
  let mins := (List.range 256).foldl (fun n i => n + (s.fld (SWX_QTHR_MIN (i / 8) (i % 8)) - (s.qSt (i / 8) (i % 8)).minA)) 0
  s.fcValid.foldl (fun n f => (List.range 32).foldl (fun n p =>
    if (s.regN (SWX_FC_EGMASK f)).testBit p then n + (s.fld (SWX_FC_RSV_RSV f) - s.rsvAt f p) else n) n) mins
/-- Cells of retired rows of Hamper, eight a row (R306). -/
def State.cellRetired (s : State) (c : Nat) : Bool := s.pwr.retired.contains (c / 8)
/-- The cells of the frame pool beside a software region of `units` units, without the retired ones (R84, R306). -/
def State.poolCells (s : State) (units : Nat) : Nat :=
  262144 - 1024 * units - 8 * (s.pwr.retired.filter (fun (k : Nat) => decide (1024 * units ≤ 8 * k))).length
/-- The free pool holds `n` cells; BUF_LOW follows. -/
def State.setFree (s : State) (n : Nat) : State :=
  let s := s.setFld BUF_FREE_CELLS n
  if n < s.fld BUF_LOW_CELLS then s.setFld BUF_LOW_CELLS n else s
/-- The free cells of port `p`'s staging ring. -/
def State.ringFree (s : State) (p : Nat) : Nat := if p < 12 then (s.macSt p).ringFree else storeGet (fun _ => 0) s.swx.rings p
/-- Port `p`'s staging ring holds `n` free cells. -/
def State.setRing (s : State) (p n : Nat) : State :=
  if p < 12 then s.setRingFree p n else { s with swx := { s.swx with rings := storeSet (fun _ => 0) s.swx.rings p n } }
/-- The refills that wait for port `p`: protected and other. -/
def State.waiting (s : State) (p : Nat) : Nat × Nat := storeGet (fun _ => (0, 0)) s.swx.wait p
def State.setWaiting (s : State) (p : Nat) (w : Nat × Nat) : State :=
  { s with swx := { s.swx with wait := storeSet (fun _ => (0, 0)) s.swx.wait p w } }
/-- The waiting refills of port `p` that the pool allows are made; what still waits sets POOLLOW (R85, R112). -/
def State.refillPort (s : State) (p : Nat) : State :=
  let w := s.waiting p
  if w = (0, 0) then s else
  let a := min w.1 (s.fld BUF_FREE_CELLS)
  let b := min w.2 (s.fld BUF_FREE_CELLS - a - s.protFree)
  let s := ((s.setFree (s.fld BUF_FREE_CELLS - a - b)).setWaiting p (w.1 - a, w.2 - b)).setRing p (s.ringFree p + a + b)
  if (w.1 - a, w.2 - b) = (0, 0) ∨ s.flag BUF_STAT_POOLLOW then s else (s.setFlag BUF_STAT_POOLLOW true).raise 82
/-- Every waiting refill that can be made is made, in order of fabric port number. -/
def State.refill (s : State) : State := (List.range 32).foldl (fun s p => s.refillPort p) s

/-! ### Charging and release -/

/-- The cells of `n` bytes. -/
def cellsOf (n : Nat) : Nat := (n + 255) / 256

/-- The account that takes `n` cells at queue `(p, c)`, for a frame of context `fc` whose configuration is read by `get`: 0 the reservation, 1
the minimum, 2 the shared allowance (R94). -/
def State.admitAcct (s : State) (get : Nat → Word) (p c : Nat) (fc : Option Nat) (n : Nat) : Option Nat :=
  let q := s.qSt p c
  let resv := match fc with
    | some f => (get (SWX_FC_EGMASK f)).getLsbD p && decide (s.rsvAt f p + n ≤ bits (get (SWX_FC_RSV f)) 15 0)
    | none => false
  if resv then some 0
  else if q.minA + n ≤ bits (get (SWX_QTHR p c)) 15 0 then some 1
  else if q.shA + n ≤ bits (get (SWX_QTHR p c)) 31 16 then some 2
  else none

/-- Account `a` of queue `(p, c)` (context `fc` for a reservation) goes from `old` to `new` cells for one copy. -/
def State.recharge (s : State) (p c : Nat) (fc : Option Nat) (a old new : Nat) : State :=
  let q := s.qSt p c
  let s := s.setFld (SWX_QSTAT_CELLS p c) (s.fld (SWX_QSTAT_CELLS p c) - old + new)
  match a, fc with
  | 0, some f => s.setRsv f p (s.rsvAt f p - old + new)
  | 1, _ => s.setQ p c { q with minA := q.minA - old + new }
  | _, _ => s.setQ p c { q with shA := q.shA - old + new }

/-- A copy no longer holds frame `k`: the last one returns the cells of an ended frame to the free pool (R84). -/
def State.dropRef (s : State) (k : Nat) : State :=
  match s.frm k with
  | none => s
  | some f =>
    if f.copies ≤ 1 ∧ f.ended then (s.setFrm k none).setFree (s.fld BUF_FREE_CELLS + f.cells)
    else s.setFrm k (some { f with copies := f.copies - 1 })

/-- A copy of output `p` is sent: its charge and its descriptor go (R86, R94). -/
def State.copySent (s : State) (p : Nat) (x : Copy) : State :=
  (s.recharge p x.cls x.fc x.acct x.n 0).setFld BUF_DESC_FREE (s.fld BUF_DESC_FREE + 1)
/-- A copy leaves output `p`: its charge, its descriptor and its hold on the frame go. -/
def State.copyFree (s : State) (p : Nat) (x : Copy) : State := (s.copySent p x).dropRef x.frm

/-! ### Rates, credits (R101) -/

/-- The line rate of port `p` in kb/s. -/
def State.portRate (s : State) (p : Nat) : Nat :=
  let v := s.fld (MAC_STAT_SPEED p)
  if v = 0 then 10000 else if v = 1 then 100000 else if v = 2 then 1000000 else if v = 3 then 2500000 else 10000000

/-- Output `p`'s gate list decides its gates. -/
def State.gclOn (s : State) (p : Nat) : Bool := decide (p < 12) && s.flag (SWX_GCLCFG_EN p) && (s.outSt p).gOn
/-- The gate of class `c` at output `p` is open (R102). -/
def State.gateOpen (s : State) (p c : Nat) : Bool := !s.gclOn p || (s.fld (SWX_GCLSTAT_GATES p)).testBit c

/-- The credit of class `c` at output `p`. -/
def State.credit (s : State) (p c : Nat) : Int := storeGet (fun _ => 0) (s.outSt p).credit c

/-- The credits of output `p` are brought to this cycle, before anything they depend on changes (R101). -/
def State.creditSync (s : State) (p : Nat) : State :=
  let o := s.outSt p
  let dt : Int := (s.time.now - o.creditAt : Nat)
  let lim : Int := 8000000 * s.fld (MAC_MAXLEN_MAXLEN p)
  let cr := (List.range 8).foldl (fun l c =>
    if !(s.fld (SWX_PORTCFG_CBSEN p)).testBit c then l else
    let v := storeGet (fun _ => 0) l c
    let idle : Int := s.regN (SWX_CBS p c)
    let sending := (o.tx.map (fun t => t.copy.cls == c)).getD false
    let waiting := !(s.qSt p c).q.isEmpty || (o.pre.map (fun t => t.copy.cls == c)).getD false
    let v1 := if sending then v + (idle - s.portRate p) * dt
              else if !s.gateOpen p c then v
              else if waiting then v + idle * dt
              else min v 0
    let v2 := if !sending && !waiting then min v1 0 else v1
    storeSet (fun _ => 0) l c (clampI (-lim) lim v2)) o.credit
  s.setOut p { o with credit := cr, creditAt := s.time.now }
/-- Every credit of output `p` is 0: a speed change (R101). -/
def State.creditZero (s : State) (p : Nat) : State := s.setOut p { s.outSt p with credit := [], creditAt := s.time.now }

/-! ### Gates (R102, R103) -/

/-- Hold to the MAC is asserted or released. -/
def State.setHold (s : State) (p : Nat) (on : Bool) : State :=
  let was := s.flag (SWX_GCLSTAT_HOLD p)
  let s := s.setFlag (SWX_GCLSTAT_HOLD p) on
  if on && !was then s.macCount p 57 1 else s

/-- Entry `e` of output `p`'s list takes effect. -/
def State.gateEntry (s : State) (p e : Nat) : State :=
  let s := s.creditSync p
  let s := (s.setFld (SWX_GCLSTAT_ENTRY p) e).setFld (SWX_GCLSTAT_GATES p) (s.fld (SWX_GCL_CTL_GATES p e))
  let s := s.setOut p { s.outSt p with gOn := true, gEnd := false, gAt := s.time.now }
  let op := s.fld (SWX_GCL_CTL_OP p e)
  if op = 1 then s.setHold p true else if op = 2 then s.setHold p false else s

/-- The entries of output `p`'s gate list; a LEN above 256 acts as 256 (R102). (log 151, DESIGN CHOICE) -/
def State.gclLen (s : State) (p : Nat) : Nat := min 256 (s.fld (SWX_GCLCFG_LEN p))
/-- Rule 5 of R110 over a candidate set for output `p`'s list. -/
def gclBad (get : Nat → Word) (p : Nat) : Option (Nat × Nat) :=
  let n := bits (get (SWX_GCLCFG p)) 8 0
  let bad := (List.range (min n 256)).find? (fun e => decide (bits (get (SWX_GCL_INT p e)) 30 0 < 64))
  let sum := (List.range (min n 256)).foldl (fun t e => t + bits (get (SWX_GCL_INT p e)) 30 0) 0
  match bad with
  | some e => some (5, SWX_GCL_INT p e)
  | none => if 2 ^ 31 - 1 < sum then some (5, SWX_GCL_CTL p 0) else none

/-- A cycle of output `p`'s gate list starts at entry 0: the shadow list becomes active first (R102, R103). -/
def State.gateCycle (s : State) (p : Nat) : State :=
  let s := s.unitBoundary (.gate p) (gclBad (fun a => s.candFor [.gate p] [] a) p) (fun s => (s.creditSync p).applyShad (.gate p))
  if s.flag (SWX_GCLCFG_EN p) ∧ 0 < s.gclLen p then s.gateEntry p 0
  else (s.setFld (SWX_GCLSTAT_GATES p) 0xFF).setOut p { s.outSt p with gOn := s.flag (SWX_GCLCFG_EN p), gEnd := true, gAt := s.time.now }

/-- An Itinerary action starts output `p`'s gate list; a cycle that had not ended is truncated (R102). -/
def State.gateStart (s : State) (p : Nat) : State :=
  let o := s.outSt p
  let s := if s.gclOn p && !o.gEnd then s.fldSat (SWX_GCLSTAT_TRUNC p) 1 else s
  s.gateCycle p

/-- The interval of output `p`'s entry ends (R102). -/
def State.gateEnd (s : State) (p : Nat) : State :=
  let o := s.outSt p
  if !s.gclOn p || o.gEnd then s else
  let e := s.fld (SWX_GCLSTAT_ENTRY p)
  if e + 1 < s.gclLen p then s.gateEntry p (e + 1)
  else if s.flag (SWX_GCLCFG_AUTORESTART p) then s.gateCycle p
  else s.setOut p { o with gEnd := true }

/-- The ns for which the gate of class `c` stays open from the entries `es` on, `es` being (open, ns); none where none closes. -/
def openFor (c : Nat) : List (Nat × Nat) → Option Nat
  | [] => none
  | (g, n) :: t => if g.testBit c then (openFor c t).map (n + ·) else some 0
/-- The longest run of open entries, and the run the list ends in. -/
def longestOpen (c : Nat) (es : List (Nat × Nat)) : Nat × Nat :=
  es.foldl (fun m e => if e.1.testBit c then (max m.1 (m.2 + e.2), m.2 + e.2) else (m.1, 0)) (0, 0)
/-- The active entries of output `p`: gates and interval. -/
def State.gclList (s : State) (p : Nat) : List (Nat × Nat) :=
  (List.range (s.gclLen p)).map (fun e => (s.fld (SWX_GCL_CTL_GATES p e), s.fld (SWX_GCL_INT_INT p e)))
/-- The ns until the gate of class `c`, now open, closes; none where it does not. -/
def State.untilClose (s : State) (p c : Nat) : Option Nat :=
  let o := s.outSt p
  if !s.gclOn p ∨ o.gEnd then none else
  let l := s.gclList p
  let e := s.fld (SWX_GCLSTAT_ENTRY p)
  let rest := l.drop (e + 1) ++ (if s.flag (SWX_GCLCFG_AUTORESTART p) then l else [])
  (openFor c rest).map (fun n => (l.getD e (0, 0)).2 - (s.time.now - o.gAt) + n)
/-- The longest continuous open time of class `c` in output `p`'s list; none where the gate never closes. -/
def State.longest (s : State) (p c : Nat) : Option Nat :=
  if !s.gclOn p then none else
  let l := s.gclList p
  if l.all (fun e => e.1.testBit c) then none
  else some (longestOpen c (if s.flag (SWX_GCLCFG_AUTORESTART p) then l ++ l else l)).1

/-! ### Preemption, launches, ageing -/

/-- Preemption is active and class `c` is preemptable at output `p` (R80). -/
def State.preemptable (s : State) (p c : Nat) : Bool :=
  s.flag (MAC_PREEMPT_STAT_ACTIVE p) && (s.fld (MAC_PREEMPT_PMASK p)).testBit c
/-- The ns `n` bytes take at output `p` with preamble and interframe gap. -/
def State.wireNs (s : State) (p n : Nat) : Nat := ((n + 20) * 8000000 + s.portRate p - 1) / s.portRate p
/-- The length counted for the guard band: of the first fragment where the class is preemptable (R102). -/
def State.guardLen (s : State) (p c n : Nat) : Nat :=
  if s.preemptable p c then min n (64 * (1 + s.fld (MAC_PREEMPT_ADDFRAG p))) else n

/-- How far the launch of a copy at output `p` has passed: by CYC for a time, by θ̂ advanced by ω̂ over the port's transmit latency for an
angle (R104); negative before it. (log 124, DESIGN CHOICE) -/
def State.launchPast (s : State) (p : Nat) (x : Copy) : Int :=
  if x.ltMode = 1 then sgn 32 (uns 32 ((s.cyc0.toNat : Int) - (x.lt % 2 ^ 32 : Nat)))
  else
    let w := (storeGet (fun _ => LauSt.reset) s.lau x.lau).omega * (Config.txLatency p : Int) / 2 ^ 96
    sgn 64 (uns 64 ((s.pair (LAU_ANG_LO x.lau) : Int) + w - x.lt))
/-- The lateness the copy's context allows (R105). -/
def State.lateTol (s : State) (x : Copy) : Int :=
  match x.fc with
  | none => 0
  | some f => if x.ltMode = 2 then (s.fld (SWX_FC_RSV_LATETOL f) * 2 ^ 16 : Nat) else (s.fld (SWX_FC_RSV_LATETOL f) : Nat)
/-- A copy of output `p` is more than LATETOL late. -/
def State.copyLate (s : State) (p : Nat) (x : Copy) : Bool :=
  (x.ltMode == 1 || x.ltMode == 2) && decide (s.lateTol x < s.launchPast p x)
/-- A copy of output `p` waits for its launch. -/
def State.copyWaits (s : State) (p : Nat) (x : Copy) : Bool :=
  x.held || (decide (p < 12) && (x.ltMode == 1 || x.ltMode == 2) && !x.due && decide (s.launchPast p x < 0))
/-- The age limit of class `c` at output `p` in ns (R106). -/
def State.ageLimit (s : State) (p c : Nat) : Nat :=
  if s.fld (SWX_AGE_AGE p c) = 0 then s.fld (SWX_NETCYC_NS p) else s.fld (SWX_AGE_AGE p c) * 1000
/-- A copy has aged. -/
def State.copyAged (s : State) (p : Nat) (x : Copy) : Bool :=
  decide ((s.ageLimit p x.cls : Int) < sgn 32 (uns 32 ((s.cyc0.toNat : Int) - x.its)))

/-- The head copy of queue `(p, c)` is discarded and counted by `k`. -/
def State.dropHead (s : State) (p c : Nat) (k : State → State) : State :=
  match (s.qSt p c).q with
  | [] => s
  | x :: t => k ((s.setQ p c { s.qSt p c with q := t }).copyFree p x)

/-- Steps 1 and 2 of R100 and the over-long copies of R102 at the head of queue `(p, c)`; the whole transmission counts as too long. -/
def State.headDrops (s : State) (p c : Nat) : Nat → State
  | 0 => s
  | n + 1 =>
    match (s.qSt p c).q with
    | [] => s
    | x :: _ =>
      if s.copyAged p x then (s.dropHead p c (·.swxCount p 2)).headDrops p c n
      else if p < 12 ∧ s.copyLate p x then (s.dropHead p c (fun s => s.macCount p 48 1)).headDrops p c n
      else if p < 12 ∧ ((s.longest p c).map (fun m => decide (m < s.wireNs p (s.copyLen p x)))).getD false then
        (s.dropHead p c (·.swxCount p 6)).headDrops p c n
      else s

/-- Class `c` of output `p` may send its head copy of length `len` now (R100 steps 3 and 4). -/
def State.headReady (s : State) (p c : Nat) (x : Copy) (len : Nat) : Bool :=
  !s.copyWaits p x &&
  (decide (12 ≤ p) || ((s.untilClose p c).map (fun n => decide (s.wireNs p (s.guardLen p c len) ≤ n))).getD true)

/-- Class `c` of output `p` is a candidate before its head copy is looked at (R100). -/
def State.classOpen (s : State) (p c : Nat) : Bool :=
  decide (12 ≤ p) || (!(s.fld (MAC_FCSTAT_CLASS p)).testBit c && s.gateOpen p c &&
    (!(s.fld (SWX_PORTCFG_CBSEN p)).testBit c || decide (0 ≤ s.credit p c)) &&
    !(s.flag (SWX_GCLSTAT_HOLD p) && s.preemptable p c))

/-- The link of output `p` is up and its transmitter on. -/
def State.outUp (s : State) (p : Nat) : Bool := decide (12 ≤ p) || (s.flag (MAC_STAT_LINK p) && s.flag (MAC_CTRL_TXEN p))
/-- A frame may start at output `p`: nothing holds its transmitter (R74, R100). -/
def State.outReady (s : State) (p : Nat) : Bool := s.outUp p && (decide (12 ≤ p) || !s.flag (MAC_FCSTAT_PAUSED p))

/-- Output `p` looks for a class from `c - 1` down, of the express ones alone with `ex`: what it discards, and the class it picks (R100). -/
def State.pickFrom (s : State) (p : Nat) (ex : Bool) : Nat → State × Option Nat
  | 0 => (s, none)
  | c + 1 =>
    if !s.classOpen p c || (ex && s.preemptable p c) then s.pickFrom p ex c else
    let s := s.headDrops p c (s.qSt p c).q.length
    match (s.qSt p c).q with
    | [] => s.pickFrom p ex c
    | x :: _ => if s.headReady p c x (s.copyLen p x) then (s, some c) else s.pickFrom p ex c

/-- The head copy of class `c` leaves its queue. -/
def State.takeHead (s : State) (p c : Nat) : State × Option Copy :=
  match (s.qSt p c).q with
  | [] => (s, none)
  | x :: t => (s.setQ p c { s.qSt p c with q := t }, some x)

/-- Low-power idle of port `p` ends for a frame (R79), whose first bit after the SFD leaves in this cycle (R70). -/
def State.startTx (s : State) (p : Nat) (x : Copy) : State :=
  let s := s.lpiLeave p
  s.setOut p { s.outSt p with tx := some ⟨x, s.time.now, false, 0, (List.range 4).map (fun d => s.domAt8 d 0)⟩ }
/-- A preempted frame goes on at output `p` (R80); it wakes the line too. -/
def State.resumeTx (s : State) (p : Nat) : State :=
  let s := s.lpiLeave p
  s.setOut p { s.outSt p with tx := ((s.outSt p).pre.map (fun t => { t with since := s.time.now })), pre := none }

/-- The bytes of frame data sent so far, from the first after the SFD. -/
def State.sentBytes (s : State) (p : Nat) (t : Tx) : Nat := (s.time.now - t.since) * s.portRate p / 8000000

/-- The head copy of class `c` starts at output `p`. -/
def State.startHead (s : State) (p c : Nat) : State :=
  let h := s.takeHead p c
  match h.2 with
  | none => h.1
  | some x => h.1.startTx p x

/-- A fragment of the frame output `p` sends ends; the rest of it waits. -/
def State.cutTx (s : State) (p : Nat) (t : Tx) : State :=
  let s := s.macCount p 52 1
  s.setOut p { s.outSt p with pre := some { t with frags := t.frags + 1 }, tx := none }

/-- The highest express candidate preempts the preemptable frame output `p` sends, whatever is left of it (R80, R100); under hold the frame
yields at its boundary, a PAUSE hold or none (R103). Flow control that waits goes first (R76). (log 143, DESIGN CHOICE) -/
def State.preempt (s : State) (p : Nat) (t : Tx) : State :=
  if !s.preemptable p t.copy.cls || (s.outSt p).pre.isSome || t.stomp then s
  else if s.sentBytes p t < 64 * (1 + s.fld (MAC_PREEMPT_ADDFRAG p)) - 4 then s
  else
    let r := if s.outReady p then s.pickFrom p true 8 else (s, none)
    match r.2 with
    | none => if r.1.flag (SWX_GCLSTAT_HOLD p) then (r.1.cutTx p t).fcFlush p else r.1
    | some c => ((r.1.cutTx p t).fcFlush p).startHead p c

/-- Output `p`, 0 to 11, selects (R100): it starts the head copy of the highest candidate class, goes on with a preempted
frame, which only an express class comes before, or preempts. Under a PAUSE hold a preempted frame still goes on (R74). -/
def State.outSelect (s : State) (p : Nat) : State :=
  let s := s.creditSync p
  if !s.outUp p then s else
  match (s.outSt p).tx with
  | some t => s.preempt p t
  | none =>
    let waits := (s.outSt p).pre.isSome
    let r := if s.outReady p then s.pickFrom p waits 8 else (s, none)
    match r.2 with
    | some c => r.1.startHead p c
    | none => if waits && !r.1.flag (SWX_GCLSTAT_HOLD p) then r.1.resumeTx p else r.1

/-- An internal output, 12 to 31, picks the copy it sends next (R100 steps 1 and 3). -/
def State.pickInternal (s : State) (p : Nat) : State × Option Copy :=
  let r := s.pickFrom p false 8
  match r.2 with
  | none => (r.1, none)
  | some c => r.1.takeHead p c

/-- The oldest HELD copy of context `f` at output `p`, the one whose frame entered first, is released, or RELEMPTY counts (R105). (log 150, DESIGN CHOICE) -/
def State.releaseAt (s : State) (f p : Nat) : State :=
  let held := (List.range 8).flatMap (fun c => (s.qSt p c).q.filter (fun x => x.held && x.fc == some f))
  match (held.map (·.frm)).min? with
  | none => s.count (SWX_FC_CNT f 5) 1
  | some k =>
    (List.range 8).foldl (fun (s : State) c =>
      if (s.qSt p c).q.any (fun x => x.held && x.frm == k) then
        s.setQ p c { s.qSt p c with q := (s.qSt p c).q.map (fun x => if x.frm = k then { x with held := false } else x) }
      else s) s
/-- An Itinerary action releases context `f` at every output of its EGMASK (R105). -/
def State.heldRelease (s : State) (f : Nat) : State :=
  (List.range 32).foldl (fun s p => if (s.regN (SWX_FC_EGMASK f)).testBit p then s.releaseAt f p else s) s

/-- The launch of the head copy of queue `(p, c)` is reached (R104). -/
def State.launchDue (s : State) (p c : Nat) : State :=
  match (s.qSt p c).q with
  | [] => s
  | x :: t =>
    if (x.ltMode = 1 ∨ x.ltMode = 2) ∧ 0 ≤ s.launchPast p x then s.setQ p c { s.qSt p c with q := { x with due := true } :: t } else s

/-- Queued copies of output `p` that `f` chooses are discarded and counted by `k`. -/
def State.purge (s : State) (p : Nat) (f : Copy → Bool) (k : State → State) : State :=
  (List.range 8).foldl (fun s c =>
    let q := s.qSt p c
    let s1 := s.setQ p c { q with q := q.q.filter (fun x => !f x) }
    (q.q.filter f).foldl (fun s x => k (s.copyFree p x)) s1) s

/-- The cells charged to output `p` over all classes. -/
def State.occupancy (s : State) (p : Nat) : Nat := (List.range 8).foldl (fun n c => n + s.qCells p c) 0

/-! ### The apply boundary (R110) -/

/-- Rules 1 to 4 of R110 over a candidate set. -/
def swxBad (s : State) (get : Nat → Word) : Option (Nat × Nat) :=
  let fcs := (List.range 256).filter (fun f => (get (SWX_FC_CFG f)).getLsbD 31)
  let mins := (List.range 256).foldl (fun n i => n + bits (get (SWX_QTHR (i / 8) (i % 8))) 15 0) 0
  let rsv := fcs.foldl (fun n f => n + bits (get (SWX_FC_RSV f)) 15 0 *
    ((List.range 32).countP (fun p => (get (SWX_FC_EGMASK f)).getLsbD p))) 0
  let pool := s.poolCells (min 192 (s.fld BUF_SWCELLS_UNITS))
  let ovr := (List.range 12).find? (fun p =>
    decide (s.portRate p < (List.range 8).foldl (fun n c => if (get (SWX_PORTCFG p)).getLsbD (8 + c) then
      n + (get (SWX_CBS p c)).toNat else n) 0))
  let alt := (List.range 256).find? (fun f => (get (SWX_FC_CFG f)).getLsbD 17 && bits (get (SWX_FC_CFG f)) 16 12 == bits (get (SWX_FC_CFG f)) 4 0)
  let res := fcs.find? (fun f => let r := bits (get (SWX_FC_RSV f)) 15 0; let m := bits (get (SWX_FC_SDU f)) 13 0
    r != 0 && (get (SWX_FC_EGMASK f) == 0 || (m != 0 && decide (r < cellsOf m))))
  if pool < mins + rsv + 4096 then some (1, SWX_QTHR 0 0)
  else match ovr with
    | some p => some (2, SWX_PORTCFG p)
    | none => match alt with
      | some f => some (3, SWX_FC_CFG f)
      | none => res.map (fun f => (4, SWX_FC_EGMASK f))


end Sys2Proof.Machine
end

