-- ==== Sys2Proof/Machine/Ingress.lean ====
section
/-! DEFINITION. Ingress (R65 to R71, R89 to R98, R108, R109): a frame enters at a fabric port piece by piece, is matched,
metered, recovered, resolved, offered to its outputs, and ends well or is aborted; links go down and up (R81, R107). -/

namespace Sys2Proof.Machine

open Sys2Proof

/-- The frame entering from source `k`: 0 to 11 a port's, 200 to 211 the preempted one whose fragments a port receives (R80), 12 to 31 an
internal port's, 100 + 4·engine + thread one of an engine. -/
def State.rxOf (s : State) (k : Nat) : Option Ingr := storeGet (fun _ => none) s.swx.rx k
def State.setRx (s : State) (k : Nat) (g : Option Ingr) : State :=
  { s with swx := { s.swx with rx := storeSet (fun _ => none) s.swx.rx k g } }
/-- The copies output `p` has sent to its engine and the engine still holds. -/
def State.sentTo (s : State) (p : Nat) : List Copy := storeGet (fun _ => []) s.swx.sent p
def State.setSent (s : State) (p : Nat) (l : List Copy) : State :=
  { s with swx := { s.swx with sent := storeSet (fun _ => []) s.swx.sent p l } }

/-! ### Descriptors (R86, R88) -/

/-- Each copy of a queue with the number of the descriptor behind it. -/
def withNext : List Copy → List (Copy × Option Nat)
  | [] => []
  | x :: t => (x, t.head?.map (·.idx)) :: withNext t
/-- The copies output `p` holds: queued, in transmission, preempted, or on the way to its engine. -/
def State.portCopies (s : State) (p : Nat) : List (Copy × Option Nat) :=
  let o := s.outSt p
  (List.range 8).flatMap (fun c => withNext (s.qSt p c).q) ++
    ((o.tx.toList ++ o.pre.toList).map (·.copy) ++ (s.sentTo p).filter (·.uses)).map (fun x => (x, (s.qSt p x.cls).q.head?.map (·.idx)))
/-- Every copy that uses a descriptor. -/
def State.copies (s : State) : List (Copy × Option Nat) := (List.range 32).flatMap s.portCopies
/-- The first number from `k` on that no copy uses. -/
def freeIdx (used : List Nat) : Nat → Nat → Nat
  | k, 0 => k
  | k, n + 1 => if used.contains k then freeIdx used ((k + 1) % 65536) n else k
/-- The descriptor a new copy takes: a free one. (log 105, DEDUCED) -/
def State.newIdx (s : State) : Nat :=
  let used := s.copies.map (fun e => e.1.idx)
  freeIdx used (s.freeW.toNat % 65536) used.length
/-- The copy that uses descriptor `i`, with the descriptor behind it. -/
def State.desc (s : State) (i : Nat) : Option (Copy × Option Nat) := s.copies.find? (fun e => e.1.idx == i)
/-- Word `w` of descriptor `i`: of one in use the layout of R88; what it leaves open, and the whole of a free one, is open. (log 105, DEDUCED) -/
def State.descWord (s : State) (i w : Nat) : Word :=
  match s.desc i with
  | none => s.freeW
  | some (x, nx) =>
    let fr := s.freeW.toNat
    let lt := if x.ltMode = 1 then x.lt % 2 ^ 35 else if x.ltMode = 2 then x.lt else 0
    let len := match s.frm x.frm with
      | some f => if f.ended then f.data.length else fr
      | none => fr
    w32 (match w with
      | 0 => x.head % 2 ^ 18 + 2 ^ 18 * (len % 2 ^ 14)
      | 1 => x.its
      | 2 => lt % 2 ^ 32
      | 3 => lt / 2 ^ 32
      | 4 => x.src % 32 + 2 ^ 5 * (x.cls % 8) + 2 ^ 8 * (x.itsFrac % 8) + 2 ^ 11 * (x.ltMode % 4) + 2 ^ 13 * (x.lau % 2) + 2 ^ 14 * bit x.ct +
          2 ^ 15 * bit x.ptp + 2 ^ 16 * (x.fc.getD fr % 256) + 2 ^ 24 * bit x.fc.isSome + 2 ^ 25 * bit x.mc + 2 ^ 26 * (x.plane % 4) +
          2 ^ 28 * bit x.seq.isSome + 2 ^ 29 * bit x.held + 2 ^ 30 * bit x.strip + 2 ^ 31 * bit x.gen
      | 5 => x.seq.getD fr % 2 ^ 16 + 2 ^ 16 * (if x.tagged then x.vid % 4096 else 0) + 2 ^ 28 * bit x.tagged + 2 ^ 29 * (x.pcp % 8)
      | 6 => x.fhash
      | _ => nx.getD fr % 2 ^ 16 + 2 ^ 16 * bit nx.isNone)

/-- A frame that starts to enter at fabric port `p` at `e8` eighths of a ns into this cycle (R70, R71). -/
def State.ingrNew (s : State) (p e8 : Nat) (lat : Int) : Ingr :=
  let t := uns 35 ((s.domAt8 0 e8 : Int) + lat)
  { port := p, data := [], its := t / 8, itsFrac := t % 8,
    t0 := (List.range 4).map (fun d => ((s.domAt8 d e8 : Int) + lat).toNat), ptpOf := none, src := p, rate := none, learn := true, fcNamed := none,
    clsNamed := none, ltNamed := (0, 0, 0), staged := false, ctl := false, filt := false, nobuf := false, fail := false,
    used := 0, lent := 0, chain := [], set := [], meter := none, proto := none, took := [], todo := [] }

/-! ### The flow context of a frame (R90, R108, R109) -/

/-- The VID and PCP a frame is forwarded with. -/
def frameVid (f : List Byte) : Nat := if isTagged f then tagVid f else 0
/-- The flow context a frame matches at port `p` (R90). -/
def State.fcMatch (s : State) (p : Nat) (f : List Byte) : Option Nat :=
  s.fcValid.find? (fun c =>
    decide (s.fld (SWX_FC_CFG_MATCH c) ≤ 1)
    && (s.fld (SWX_FC_CFG_INPORT c) == p || (s.flag (SWX_FC_CFG_ALTV c) && s.fld (SWX_FC_CFG_ALTPORT c) == p)
        || s.flag (SWX_FC_CFG_ANYPORT c))
    && (s.regN (SWX_FC_DA_LO c) == ofLe (f.take 4) && s.fld (SWX_FC_DA_HI_ADDR c) == ofLe (slice f 4 2))
    && (s.fld (SWX_FC_CFG_MATCH c) == 1 || s.fld (SWX_FC_DA_HI_VID c) == frameVid f))

/-- The meter's bucket of context `f` in this cycle (R108). -/
def State.bucketNow (s : State) (f : Nat) : Int :=
  let x := s.fcSt f
  min ((s.fld (SWX_FC_SDU_CBS f) * 64 * 8000000 : Nat) : Int) (x.bucket + (s.regN (SWX_FC_CIR f) * (s.time.now - x.bucketAt) : Nat))
/-- The bucket of context `f` pays for `n` bytes. -/
def State.bucketPay (s : State) (f n : Nat) : State :=
  s.setFcSt f { s.fcSt f with bucket := s.bucketNow f - (n * 8000000 : Nat), bucketAt := s.time.now }

/-- Recovery of a frame with sequence number `q` in context `f` (R109): accepted or not. -/
def State.cbRecover (s : State) (f q : Nat) : State × Bool :=
  let x := s.fcSt f
  let accept (s : State) (h : Nat) : State × Bool := ((s.setFcSt f { s.fcSt f with hist := some h }), true)
  match x.hist with
  | none => accept (s.setFld (SWX_FC_STAT_SEQ f) q) 1
  | some h =>
    let d := sgn 16 (uns 16 ((q : Int) - s.fld (SWX_FC_STAT_SEQ f)))
    if 1 ≤ d ∧ d ≤ 63 then accept (s.setFld (SWX_FC_STAT_SEQ f) q) ((h * 2 ^ d.toNat) % 2 ^ 64 + 1)
    else if -63 ≤ d ∧ d ≤ 0 then
      if h.testBit (-d).toNat then (s.count (SWX_FC_CNT f 3) 1, false) else accept s (h + 2 ^ (-d).toNat)
    else (s.count (SWX_FC_CNT f 4) 1, false)

/-- Stages 2 to 4 of R89 for context `f`: whether the frame goes on, its sequence number, and whether the meter admitted it, so that its
length is paid at its end (R108). -/
def State.fcStages (s : State) (f : Nat) (d : List Byte) : State × Bool × Option Nat × Bool :=
  let s := s.count (SWX_FC_CNT f 0) 1
  if s.flag (SWX_FC_STAT_BLOCKED f) then (s.count (SWX_FC_CNT f 1) 1, false, none, false)
  else if s.regN (SWX_FC_CIR f) ≠ 0 ∧ s.bucketNow f < 0 then (s.count (SWX_FC_CNT f 2) 1, false, none, false)
  else
    let m := s.regN (SWX_FC_CIR f) != 0
    let cb := s.fld (SWX_FC_CFG_CB f)
    if cb = 0 then (s, true, none, m)
    else if cb = 3 then
      let q := s.fld (SWX_FC_STAT_SEQ f)
      (s.setFld (SWX_FC_STAT_SEQ f) (q + 1), true, some q, m)
    else match rtagAt d with
      | none => if s.flag (SWX_FC_CFG_TAKENOSEQ f) then (s, true, none, m) else (s.count (SWX_FC_CNT f 4) 1, false, none, m)
      | some p =>
        let r := s.cbRecover f (rtagSeq d p)
        (r.1, r.2, some (rtagSeq d p), m)

/-! ### Destinations (R92) -/

/-- The forwarding database's entry. -/
def State.fdbFind (s : State) (v : Nat) (a : List Byte) : Option FdbEnt := s.swx.fdb.find? (fun e => e.vid == v && e.addr == a)
/-- The destination mask of a frame at port `p` with context `fc`. -/
def State.destMask (s : State) (p : Nat) (f : List Byte) (fc : Option Nat) : Nat :=
  let et := be f (typePos f) 2
  let red := if p < 12 then (List.range 16).find? (fun k => s.flag (SWX_ETYPE_MATCH_VALID k)
      && s.fld (SWX_ETYPE_MATCH_ETHERTYPE k) == et && (s.regN (SWX_ETYPE_PORTS k)).testBit p) else none
  let v := frameVid f
  let m := (s.vlanOf v).1
  let fwd := if isGroup (frameDa f) then m else match s.fdbFind v (frameDa f) with
    | some e => m &&& 2 ^ e.port
    | none => m
  let q := match fc with
    | some c => if s.regN (SWX_FC_EGMASK c) ≠ 0 then some (s.regN (SWX_FC_EGMASK c)) else none
    | none => none
  match q, red with
  | some x, _ => x
  | none, some k => 2 ^ s.fld (SWX_ETYPE_MATCH_DEST k)
  | none, none => fwd

/-- A source address is learned at port `p` (R92); whether its four ways are full is the hash's, which the manual does not give. (log 46, DESIGN CHOICE) -/
def State.fdbLearn (s : State) (p v : Nat) (a : List Byte) : State :=
  let now := s.regN (TIME_DOM_SEC_LO 0)
  if !s.flag (SWX_PORTCFG_LEARN p) || isGroup a then s else
  match s.fdbFind v a with
  | some e => if e.isStatic then s else
      { s with swx := { s.swx with fdb := s.swx.fdb.map (fun x => if x.vid = v ∧ x.addr = a then { x with port := p, stamp := now } else x) } }
  | none =>
    let n := s.swx.fdb.length
    let full := if n < 4 then false else if 16384 ≤ n then true else Config.freeBool s.free
    let s := if n < 4 ∨ 16384 ≤ n then s else s.drew
    if full then s.fldSat SWX_FDBCFG_LEARNFAIL 1
    else { s with swx := { s.swx with fdb := s.swx.fdb ++ [⟨v, a, p, false, now⟩] } }

/-! ### Offering a copy (R94 to R97) -/

/-- The block behind fabric port `d` is powered off or held in reset (R94). -/
def State.portOff (s : State) (d : Nat) : Bool :=
  if d < 12 then false
  else if d ≤ 27 then s.engOff (d - 12)
  else if d = 28 then !s.domOn 2
  else if d = 29 then !s.domOn 9 || decide (Blk.loop ∈ s.fcu.resetting ++ s.fcu.held)
  else if d = 30 then !s.domOn 1
  else decide (Blk.host ∈ s.fcu.resetting ++ s.fcu.held)

/-- A refused copy is counted at output `d`. -/
def State.refuse (s : State) (d : Nat) (mc : Bool) : State := s.swxCount d (if mc then 0 else 1)

/-- A copy of `x` is offered to output `d` for `n` cells; whether the output admits it. -/
def State.offer (s : State) (get : Nat → Word) (d : Nat) (x : Copy) (n : Nat) : State × Bool :=
  if s.portOff d || (d == 31 && !s.flag (HOST_FQ_CFG_EN 1)) then (s.refuse d x.mc, false)
  else if d < 12 ∧ !s.flag (MAC_STAT_LINK d) ∧ s.flag (SWX_PORTCFG_FLUSHDOWN d) then (s.swxCount d 3, false)
  else if s.fld BUF_DESC_FREE = 0 then (((if s.flag BUF_STAT_DESCEMPTY then s else (s.setFlag BUF_STAT_DESCEMPTY true).raise 83)).refuse d x.mc, false)
  else match s.admitAcct get d x.cls x.fc n with
    | none => (s.refuse d x.mc, false)
    | some a =>
      let s := if d < 12 then s.creditSync d else s
      let y := { x with acct := a, n := n, idx := s.newIdx }
      let s := (s.drew.recharge d x.cls x.fc a 0 n).setFld BUF_DESC_FREE (s.fld BUF_DESC_FREE - 1)
      let s := s.setQ d x.cls { s.qSt d x.cls with q := (s.qSt d x.cls).q ++ [y] }
      (match s.frm x.frm with
        | some f => s.setFrm x.frm (some { f with copies := f.copies + 1 })
        | none => s, true)

/-- The line rate of the port a frame entered the device at, in kb/s. -/
def State.entryRate (s : State) (g : Ingr) : Nat := g.rate.getD (s.portRate g.src)

/-- Conditions 1 to 3 of R97 for a copy to output `d`, which can start one. -/
def State.cutMay (s : State) (g : Ingr) (d : Nat) (x : Copy) : Bool :=
  decide (d < 12) && s.flag (SWX_PORTCFG_CTEN d) && ((x.fc.map (fun f => s.flag (SWX_FC_CFG_CTOK f))).getD true)
  && x.ltMode == 0 && decide (g.src < 12) && decide (s.portRate d ≤ s.entryRate g)
  && s.outReady d && (s.outSt d).tx.isNone
/-- Condition 4 of R97: output `d`, to whose queue the copy has been admitted, picks it in this cycle; the state in which it does. -/
def State.cutPick (s : State) (d : Nat) (x : Copy) : Option State :=
  let r := s.pickFrom d (s.outSt d).pre.isSome 8
  if r.2 = some x.cls ∧ ((r.1.qSt d x.cls).q.head?).map (·.frm) = some x.frm then some r.1 else none

/-- Copies offered at byte 64 hold the cells of the longest frame (R96). -/
def State.nEst (s : State) (g : Ingr) : Nat := if g.port < 12 then cellsOf (s.fld (MAC_MAXLEN_MAXLEN g.port)) else 38
/-- The longest frame that can enter at port `p`. -/
def State.lenMax (s : State) (p : Nat) : Nat := if p < 12 then s.fld (MAC_MAXLEN_MAXLEN p) else 9728

/-- The copies of a frame are offered at byte 64: to engines, which stream, and to outputs that can cut through (R89 stage 6). A copy that does
not qualify for cut-through, one that is not admitted among them, waits for the end of the frame (R97). -/
def State.offerEarly (s : State) (get : Nat → Word) (g : Ingr) (x : Copy) (ds : List Nat) : State × List Nat × List Nat :=
  ds.foldl (fun (a : State × List Nat × List Nat) d =>
    let s := if d < 12 then a.1.creditSync d else a.1
    if 12 ≤ d ∧ d ≤ 27 then
      let r := s.offer get d x (s.nEst g)
      (r.1, if r.2 then (a.2.1 ++ [d]) else a.2.1, a.2.2)
    else if s.cutMay g d x then
      let r := s.offer get d { x with ct := true } (s.nEst g)
      match r.2, r.1.cutPick d x with
      | true, some t => (t.startHead d x.cls, a.2.1 ++ [d], a.2.2)
      | _, _ => (s, a.2.1, a.2.2 ++ [d])
    else (s, a.2.1, a.2.2 ++ [d])) (s, [], [])

/-! ### Staging cells (R65, R84, R85, R112) -/

/-- The cells that hold the bytes of a frame. -/
def State.cellsUsed (s : State) : List Nat :=
  s.swx.frames.flatMap (fun e => (e.2.map (·.chain)).getD []) ++ s.swx.rx.flatMap (fun e => (e.2.map (·.chain)).getD [])
/-- The first cell of the frame pool from `c` on that `bad` does not name. -/
def freeCell (bad : Nat → Bool) (lo : Nat) : Nat → Nat → Nat
  | c, 0 => c
  | c, n + 1 => if bad c then freeCell bad lo (if c + 1 < 262144 then c + 1 else lo) n else c
/-- The cell the allocator hands out next: a free one of the frame pool; which one is open. (log 125, DESIGN CHOICE) -/
def State.newCell (s : State) : Nat :=
  let used := s.cellsUsed
  let lo := min 262143 (1024 * s.fld BUF_SWCELLS_UNITS)
  freeCell (fun c => used.contains c || s.cellRetired c) lo (lo + s.freeW.toNat % (262144 - lo)) (used.length + 8 * s.pwr.retired.length)
/-- A staging cell for a frame of port `p` that holds `used` of its ring's: of the ring; for an internal frame that holds the whole ring of 32
itself, so that none could return, of the free pool above PROTFREE; none where the frame is lost or its sender stalls (R112). (log 127, DESIGN CHOICE) -/
def State.lendCell (s : State) (p used : Nat) : Option (State × Bool) :=
  if 0 < s.ringFree p then some (s.setRing p (s.ringFree p - 1), true)
  else if 12 ≤ p ∧ 32 ≤ used ∧ s.protFree < s.fld BUF_FREE_CELLS then some (s.setFree (s.fld BUF_FREE_CELLS - 1), false)
  else none
/-- The frame of source `k` takes `n` more cells; false where one is not free. -/
def State.takeCells (k : Nat) : Nat → State → State × Bool
  | 0, s => (s, true)
  | n + 1, s =>
    match s.rxOf k with
    | none => (s, true)
    | some g =>
      match s.lendCell g.port g.used with
      | none => (s, false)
      | some (t, own) =>
        State.takeCells k n (t.drew.setRx k (some { g with
          chain := g.chain ++ [s.newCell], used := g.used + bit own, lent := g.lent + bit (!own) }))
/-- The bytes of a frame from `i` on are written into its cells, cell c at 0x80000000 + c * 256 (R84). -/
def State.cellPut (s : State) (chain : List Nat) (i : Nat) : List Byte → State
  | [] => s
  | b :: t =>
    let s := match chain[i / 256]? with
      | some c => s.setByte (0x80000000 + c * 256 + i % 256) b
      | none => s
    s.cellPut chain (i + 1) t
/-- The frame of source `k` takes the cells its bytes need, up to the longest frame of its port; its bytes from `i` on go into them, and a cell
that is not free is remembered. -/
def State.ingrCells (s : State) (k i : Nat) : State :=
  match s.rxOf k with
  | none => s
  | some g =>
    let need := cellsOf (min g.data.length (s.lenMax g.port)) - (g.used + g.lent)
    let r := State.takeCells k need s
    match r.1.rxOf k with
    | none => r.1
    | some g => (r.1.setRx k (some { g with nobuf := g.nobuf || !r.2 })).cellPut g.chain i (g.data.drop i)
/-- The staging cells of a frame that charges none go back, to the ring and to the pool. -/
def State.ringBack (s : State) (g : Ingr) : State :=
  let s := if g.lent = 0 then s else s.setFree (s.fld BUF_FREE_CELLS + g.lent)
  if g.used = 0 then s else s.setRing g.port (s.ringFree g.port + g.used)

/-- The domain and the ingress time of a PTP event message from an external port (R71). -/
def State.ptpIn (s : State) (g : Ingr) (f : List Byte) : Option (Nat × Nat) :=
  (s.macPtp g.port f).map (fun t => (t.2.2, g.t0.getD t.2.2 0))

/-- Stages 2 to 6 of R89 for the frame entering from source `k`, at byte 64 or where they act earlier (R121). (log 147, DESIGN CHOICE) -/
def State.stage (s : State) (k : Nat) (whole : List Byte) : State :=
  match s.rxOf k with
  | none => s
  | some g =>
    let f := whole
    let vid := frameVid f
    let pcp := if isTagged f then tagPcp f else s.fld (SWX_PORTCFG_DEFPCP g.port)
    let named := g.fcNamed.bind (fun c => if s.flag (SWX_FC_CFG_VALID c) then some c else none)
    let fc := if named.isSome then named else s.fcMatch g.port f
    let set := s.regs
    let get : Nat → Word := fun a => storeGet regReset set a
    let r := match fc with
      | some c => s.fcStages c f
      | none => (s, true, none, false)
    let s := r.1
    let meter := if r.2.2.2 then fc else none
    if !r.2.1 then (s.ringBack g).setRx k (some { g with staged := true, fail := true, set := set, meter := meter, used := 0, lent := 0, chain := [] }) else
    let cls := match fc with
      | some c => s.fld (SWX_FC_CFG_CLASS c)
      | none => match g.clsNamed with
        | some c => c
        | none => s.fld (SWX_PCPMAP_MAP g.port) / 8 ^ pcp % 8
    let hash := (crc32 (frameDa f ++ frameSa f ++ beBytes 2 vid ++ [b8 pcp])).toNat
    let lt : Nat × Nat × Nat := match fc with
      | none => g.ltNamed
      | some c =>
        let rule := s.fld (SWX_FC_CFG_LTRULE c)
        if rule = 1 then g.ltNamed
        else if rule = 2 then (1, (g.its + s.regN (SWX_FC_LTOFF c)) % 2 ^ 32 + 2 ^ 32 * g.itsFrac, 0)
        else if rule = 3 then (3, 0, 0) else (0, 0, 0)
    let mask := s.destMask g.port f fc
    let ds := (List.range 32).filter (fun d => mask.testBit d && d != g.port)
    let ptp : Option (Nat × Nat) := if g.port < 12 then s.ptpIn g f else g.ptpOf
    let key := s.swx.next
    let cb := (fc.map (fun c => s.fld (SWX_FC_CFG_CB c))).getD 0
    let x : Copy :=
      { frm := key, idx := 0, head := g.chain.headD 0, its := g.its, itsFrac := g.itsFrac, ltMode := lt.1,
        lt := lt.2.1, lau := lt.2.2, src := g.src, cls := cls, ct := false, ptp := ptp.isSome, fc := fc, mc := decide (1 < ds.length),
        plane := (fc.getD hash) % 4, seq := r.2.2.1, held := (lt.1 == 3), strip := cb == 2, gen := cb == 3, vid := vid,
        tagged := isTagged f, pcp := pcp, fhash := hash, acct := 0, n := 0, tdom := (ptp.map (·.1)).getD 0,
        tin := (ptp.map (·.2)).getD 0, due := false, uses := true }
    let s := s.setFrm key (some { data := g.data, ended := false, failed := false, cells := 0, copies := 0, chain := g.chain, lmax := s.lenMax g.port })
    let s := { s with swx := { s.swx with next := key + 1 } }
    let o := s.offerEarly get g x ds
    o.1.setRx k (some { g with staged := true, set := set, meter := meter, proto := some x, took := o.2.1, todo := o.2.2 })

/-! ### The end of a frame (R96, R98) -/

/-- Copies of frame `key` at output `p` change by `f`: queued, in transmission, preempted or sent to the engine. -/
def State.mapCopies (s : State) (p cls key : Nat) (f : Copy → Copy) : State :=
  let g : Copy → Copy := fun x => if x.frm = key then f x else x
  let o := s.outSt p
  let t : Option Tx → Option Tx := fun t => t.map (fun t => { t with copy := g t.copy })
  ((s.setQ p cls { s.qSt p cls with q := (s.qSt p cls).q.map g }).setOut p { o with tx := t o.tx, pre := t o.pre }).setSent p
    ((s.sentTo p).map g)
/-- The copy of frame `key` at output `p`. -/
def State.copyAt (s : State) (p cls key : Nat) : Option Copy :=
  let o := s.outSt p
  ((s.qSt p cls).q ++ (o.tx.toList ++ o.pre.toList).map (·.copy) ++ s.sentTo p).find? (fun x => x.frm == key)

/-- The provisional count of frame `key` at output `p` becomes `n` in the same account (R96). -/
def State.settleCopy (s : State) (p cls key n : Nat) : State :=
  match s.copyAt p cls key with
  | none => s
  | some x => (s.recharge p cls x.fc x.acct x.n n).mapCopies p cls key (fun y => { y with n := n })

/-- The copy of frame `key` that output `p` has sent to its engine whole uses no descriptor and no charge any more; its hold on the cells lasts
until the engine frees it (R86, R94, R118). (log 145, DEDUCED) -/
def State.sentOver (s : State) (p key : Nat) : State :=
  match (s.sentTo p).find? (fun y => y.frm == key && y.uses) with
  | none => s
  | some y => (s.copySent p y).setSent p ((s.sentTo p).map (fun z => if z.frm == key then { z with n := 0, uses := false } else z))

/-- Frame of source `k` fails after byte 64, at its byte `n` (R98, R122): started copies end with an inverted FCS, queued ones are withdrawn, an
engine sees no byte beyond `n`, and the staging cells go back (R65). -/
def State.ingrFail (s : State) (k n : Nat) : State :=
  match s.rxOf k with
  | none => s
  | some g =>
    if g.fail then s else
    let s := match g.proto with
      | none => s
      | some x =>
        let s := g.took.foldl (fun (s : State) p =>
          let s := ((if p < 12 then s.creditSync p else s).settleCopy p x.cls x.frm 0).sentOver p x.frm
          let o := s.outSt p
          let st : Option Tx → Option Tx := fun t => t.map (fun (t : Tx) => if t.copy.frm = x.frm then { t with stomp := true } else t)
          let s := s.setOut p { o with tx := st o.tx, pre := st o.pre }
          let q := s.qSt p x.cls
          let s1 := s.setQ p x.cls { q with q := q.q.filter (fun (y : Copy) => y.frm != x.frm) }
          (q.q.filter (fun (y : Copy) => y.frm == x.frm)).foldl (fun (s : State) y => (s.copyFree p y).swxCount p 4) s1) s
        match s.frm x.frm with
          | none => s
          | some f => if f.copies = 0 then s.setFrm x.frm none else
              s.setFrm x.frm (some { f with data := g.data.take n, ended := true, failed := true, cells := 0, chain := [] })
    (s.ringBack g).setRx k (some { g with fail := true, used := 0, lent := 0, chain := [] })

/-- The frame of source `k` is over: the meter that admitted it takes its length (R108), cells it still holds go back. -/
def State.ingrGone (s : State) (k : Nat) : State :=
  match s.rxOf k with
  | none => s
  | some g =>
    let s := match g.meter with
      | some c => s.bucketPay c g.data.length
      | none => s
    (s.ringBack g).setRx k none

/-- Hamper reads an uncorrectable error in a cell of frame `key` (R87): copies that have not started are discarded, those that have started
end with an inverted FCS, and an engine sees its copy abort. -/
def State.frmBad (s : State) (key : Nat) : State :=
  let s := (List.range 32).foldl (fun (s : State) p =>
    let s := if p < 12 then s.creditSync p else s
    let o := s.outSt p
    let st : Option Tx → Option Tx := fun t => t.map (fun t => if t.copy.frm = key then { t with stomp := true } else t)
    let s := s.setOut p { o with tx := st o.tx, pre := st o.pre }
    s.purge p (fun x => x.frm == key) (·.swxCount p 5)) s
  match s.frm key with
  | none => s
  | some f => s.setFrm key (some { f with failed := true })

/-- The frame of source `k` ends and every check has passed: the other outputs are offered their copies, provisional counts
become the frame's cells, and the staging cells are replaced (R85, R89 stages 6 and 8). -/
def State.ingrDone (s : State) (k : Nat) : State :=
  match s.rxOf k with
  | none => s
  | some g =>
    match g.fail, g.proto with
    | false, some x =>
      let n := cellsOf g.data.length
      let get : Nat → Word := fun a => storeGet regReset g.set a
      let s := (s.setRx k (some { g with used := 0, lent := 0 })).ingrGone k
      let bad := ((s.frm x.frm).map (·.failed)).getD false
      let s := s.setFrm x.frm (some { data := g.data, ended := true, failed := bad, cells := n, copies := ((s.frm x.frm).map (·.copies)).getD 0,
                                      chain := g.chain, lmax := 0 })
      let s := g.took.foldl (fun s p => (s.settleCopy p x.cls x.frm n).sentOver p x.frm) s
      let s := g.todo.foldl (fun s d => (s.offer get d x n).1) s
      let s := if g.learn then s.fdbLearn g.port x.vid (frameSa g.data) else s
      match s.frm x.frm with
      | none => s.ringBack g
      | some f =>
        if f.copies = 0 then (s.setFrm x.frm none).ringBack g
        else
          let prot := (g.took ++ g.todo).any (fun p => ((s.copyAt p x.cls x.frm).map (fun y => decide (y.acct ≤ 1))).getD false)
          let w := s.waiting g.port
          let s := (s.setWaiting g.port (if prot then (w.1 + g.used, w.2) else (w.1, w.2 + g.used))).refillPort g.port
          if bad then s.frmBad x.frm else s
    | _, _ => s.ingrGone k

/-- The maximum SDU of the context of the frame of source `k`, 0 for none. -/
def Ingr.maxSdu (g : Ingr) : Nat :=
  match g.proto.bind (·.fc) with
  | some c => bits (storeGet regReset g.set (SWX_FC_SDU c)) 13 0
  | none => 0
/-- The maximum SDU check at byte MAXSDU + 1 (R108). -/
def State.sduCheck (s : State) (k : Nat) : State :=
  match s.rxOf k with
  | some g => (match g.proto.bind (·.fc) with
    | some c =>
      if !g.fail ∧ g.maxSdu ≠ 0 ∧ g.maxSdu < g.data.length then
        let s := (s.count (SWX_FC_CNT c 1) 1).ingrFail k (g.maxSdu + 1)
        if (storeGet regReset g.set (SWX_FC_CFG c)).getLsbD 21 then s.setFlag (SWX_FC_STAT_BLOCKED c) true else s
      else s
    | none => s)
  | none => s
/-- The checks a frame of source `k` meets while it arrives, in the order of their bytes: longer than MAXLEN, longer than MAXSDU, no staging
cell free (R65, R108). -/
def State.ingrChecks (s : State) (k : Nat) : State :=
  match s.rxOf k with
  | none => s
  | some g =>
    let m := s.lenMax g.port
    let past := decide (m < g.data.length)
    let s := if past && (g.maxSdu == 0 || decide (m ≤ g.maxSdu)) then s.ingrFail k (m + 1) else s
    let s := s.sduCheck k
    let s := if past then s.ingrFail k (m + 1) else s
    if g.nobuf then s.ingrFail k g.data.length else s

/-- The frame in Hamper follows the bytes that have arrived. -/
def State.frmSync (s : State) (k : Nat) : State :=
  match s.rxOf k with
  | some g => (match g.proto with
    | some x => if g.fail then s else match s.frm x.frm with
      | some f => s.setFrm x.frm (some { f with data := g.data, chain := g.chain })
      | none => s
    | none => s)
  | none => s
/-- What a PTP event message is follows the bytes of its header that arrive after byte 64, while they stand in the 128-byte head buffer (R71). -/
def State.ptpSync (s : State) (k : Nat) : State :=
  match s.rxOf k with
  | some g => (match g.proto with
    | some x =>
      if g.fail ∨ 12 ≤ g.port then s else
      let r := s.ptpIn g g.data
      let f : Copy → Copy := fun y => { y with ptp := r.isSome, tdom := (r.map (·.1)).getD 0, tin := (r.map (·.2)).getD 0 }
      (g.took.foldl (fun (s : State) p => s.mapCopies p x.cls x.frm f) s).setRx k (some { g with proto := some (f x) })
    | none => s)
  | none => s

/-- Bytes arrive from source `k`; once its frame has passed byte 64 they go on into staging cells. -/
def State.ingrBytes (s : State) (k : Nat) (b : List Byte) : State :=
  match s.rxOf k with
  | none => s
  | some g =>
    let s := s.setRx k (some { g with data := g.data ++ b })
    if !g.staged || g.fail then s else
    let s := (s.ingrCells k g.data.length).frmSync k
    if g.data.length < 128 then s.ptpSync k else s

/-- A whole frame from an internal port: one that waits for no more bytes; false where it cannot have its cells, and the sender waits (R112). -/
def State.inject (s : State) (k : Nat) (g : Ingr) (f : List Byte) : State × Bool :=
  let r := State.takeCells k (cellsOf f.length) (s.setRx k (some { g with data := f }))
  if !r.2 then (s, false) else
  let t := match r.1.rxOf k with
    | some h => r.1.cellPut h.chain 0 f
    | none => r.1
  (((t.stage k f).sduCheck k).ingrDone k, true)

/-! ### The MAC's receive path (R65 to R71, R74, R75) -/

/-- A MAC control frame with a good FCS acts and is consumed (R74, R75). -/
def State.macControl (s : State) (p : Nat) (f : List Byte) : State :=
  let op := be f 14 2
  if op = 1 then s.macPause p (be f 16 2)
  else if op = 0x0101 then s.macPfc p (be f 16 2) ((List.range 8).map (fun c => be f (18 + 2 * c) 2))
  else s.macCount p 23 1

/-- The frame of source `k` has passed byte 64: the group filter, the first cell, MAC control, stages 2 to 6. -/
def State.macAt64 (s : State) (k : Nat) : State :=
  match s.rxOf k with
  | none => s
  | some g =>
    if g.staged ∨ g.data.length < 64 then s
    else if !s.macFilter g.port (frameDa g.data) then s.setRx k (some { g with staged := true, filt := true, fail := true })
    else
      let s := s.ingrCells k 0
      match s.rxOf k with
      | none => s
      | some g =>
        if g.nobuf then s.setRx k (some { g with staged := true, fail := true })
        else if be g.data 12 2 = 0x8808 then s.setRx k (some { g with staged := true, ctl := true })
        else s.stage k g.data

/-- The first check of R65 the frame of port `p` fails, as its counter; none where it passes. -/
def State.macCheck (s : State) (p : Nat) (g : Ingr) (err asm : Bool) : Option Nat :=
  let n := g.data.length
  let good := fcsGood g.data && !err
  if n < 64 then (if fcsGood g.data then some 16 else some 17)
  else if g.filt then some 22
  else if s.fld (MAC_MAXLEN_MAXLEN p) < n then (if fcsGood g.data then some 18 else some 19)
  else if asm then some 55
  else if !good then some 15
  else if g.nobuf then some 21
  else none

/-- The frame of source `k` at a MAC ends, reassembled from `frags` fragments: these, and an error of the reassembly, count whatever the checks
say (R82). -/
def State.macEnd (s : State) (k frags : Nat) (err asm : Bool) : State :=
  match s.rxOf k with
  | none => s
  | some g =>
    let p := g.port
    let s := if frags = 0 then s else s.macCount p 53 frags
    let s := if frags = 0 ∨ asm = true then s else s.macCount p 54 1
    let s := if asm && s.macCheck p g err asm != some 55 then s.macCount p 55 1 else s
    match s.macCheck p g err asm with
    | some c =>
      let s := (s.macCount p c 1).ingrFail k g.data.length
      let s := if 128 < g.data.length then s.macCount p 24 (g.data.length - 128) else s
      s.ingrGone k
    | none =>
      let s := s.macCountFrame p 0 g.data (s.macPtp p g.data).isSome
      if g.ctl then (s.ingrGone k).macControl p g.data else s.ingrDone k

/-- The source of what port `p` receives: an express frame, or a preempted one in fragments (R80). -/
def rxKey (p : Nat) (frag : Bool) : Nat := if frag then 200 + p else p
/-- Port `p` with the bytes of a piece taken, checked against byte 64, the SDU and MAXLEN, before the piece's end is looked at (R65, R89). -/
def State.macTake (s : State) (p e8 : Nat) (frag : Bool) (b : List Byte) : State :=
  let k := rxKey p frag
  let s := match s.rxOf k with
    | some _ => s
    | none => s.setRx k (some (s.ingrNew p e8 (sgn 16 (s.fld (MAC_TSINLAT_LAT p)))))
  let n := 64 - ((s.rxOf k).map (fun g => g.data.length)).getD 0
  (((s.ingrBytes k (b.take n)).macAt64 k).ingrBytes k (b.drop n)).ingrChecks k
/-- A piece of a frame arrives at port `p` (R65), of a preempted frame's fragments where `frag` says so; its first piece carries the eighths of
a ns of its timestamp point. -/
def State.macRx (s : State) (p e8 : Nat) (frag : Bool) (b : List Byte) (fin : RxKind) : State :=
  if !s.flag (MAC_CTRL_RXEN p) || !s.flag (MAC_STAT_LINK p) then s else
  match fin with
  | .idle => s.macCount p 20 1
  | .smd => s.macCount p 56 1
  | _ =>
    let k := rxKey p frag
    let s := s.macTake p e8 frag b
    match fin with
    | .endOk n => s.macEnd k n false false
    | .symbol n => s.macEnd k n true false
    | .assembly n => s.macEnd k n false true
    | _ => s

/-! ### Receivers on and off (R66), links down and up (R81, R107) -/

/-- The staging ring of port `p` is owed `n` cells, which it takes as the pool allows (R85). -/
def State.ringTake (s : State) (p n : Nat) : State :=
  let s := if p < 12 then s.setMac p { s.macSt p with ring := n } else s
  (s.setWaiting p (0, n)).refillPort p
/-- The staging ring of port `p` returns its cells to the pool. -/
def State.ringReturn (s : State) (p : Nat) : State :=
  let n := s.ringFree p
  let s := s.setFree (s.fld BUF_FREE_CELLS + n)
  let s := s.setWaiting p (0, 0)
  let s := if p < 12 then s.setMac p { s.macSt p with ring := 0 } else s
  s.setRing p 0

/-- The frame partly received from source `k` is given up. -/
def State.rxDrop (s : State) (k : Nat) : State :=
  match s.rxOf k with
  | none => s
  | some g => (s.ingrFail k g.data.length).ingrGone k
/-- The frames partly received at port `p` are given up, each counted in RX_SYMERR where `cnt` says so (R81). (log 146, DESIGN CHOICE) -/
def State.rxDropPort (s : State) (p : Nat) (cnt : Bool) : State :=
  [p, 200 + p].foldl (fun (s : State) k =>
    if (s.rxOf k).isNone then s else if cnt then (s.rxDrop k).macCount p 20 1 else s.rxDrop k) s

/-- RXEN of port `p` takes `on` (R66). (log 142, DESIGN CHOICE) -/
def State.macRxen (s : State) (p : Nat) (on : Bool) : State :=
  let was := s.flag (MAC_CTRL_RXEN p)
  let s := s.setFlag (MAC_CTRL_RXEN p) on
  if on && !was then s.ringTake p (if p ≤ 9 then 64 else 128)
  else if !on && was then (s.rxDropPort p false).ringReturn p
  else s

/-- Every queued copy of output `p` is discarded and counted in FLUSH (R107). -/
def State.flushOut (s : State) (p : Nat) : State := s.purge p (fun _ => true) (·.swxCount p 3)

/-- What the link-down of port `p` does to the port and its output (R81, R107). -/
def State.linkDrop (s : State) (p : Nat) : State :=
  let s := s.creditSync p
  let o := s.outSt p
  let s := (s.setOut p { o with tx := none, pre := none }).setMac p { s.macSt p with fcq := [] }
  let s := (o.tx.toList ++ o.pre.toList).foldl (fun s t => (s.copyFree p t.copy).macCount p 51 1) s
  let s := s.rxDropPort p true
  let s := ((s.macEndHolds p).lpiLeave p).lpiRxLeave p
  let s := ((s.macCount p 62 1).setFlag (MAC_STAT_LINK p) false).setFlag (MAC_IRQ_LINKCHG p) true
  let s := s.preemptStart p false
  if s.flag (SWX_PORTCFG_FLUSHDOWN p) then s.flushOut p else s
/-- The link of port `p` goes down: MAC_LINK rises (R281). -/
def State.linkDown (s : State) (p : Nat) : State :=
  if s.flag (MAC_STAT_LINK p) then (s.linkDrop p).raise (32 + 4 * p) else s

/-- The link of port `p` comes up at speed code `v` (R81, R101, R107). -/
def State.linkUp (s : State) (p v : Nat) : State :=
  let s := s.creditSync p
  let s := if s.fld (MAC_STAT_SPEED p) = v then s else s.creditZero p
  let s := ((s.setFld (MAC_STAT_SPEED p) v).setFlag (MAC_STAT_LINK p) true).setFlag (MAC_IRQ_LINKCHG p) true
  let s := s.preemptStart p true
  let past (x : Copy) : Bool := (x.ltMode == 1 || x.ltMode == 2) && decide (0 ≤ s.launchPast p x)
  if s.flag (SWX_PORTCFG_FLUSHDOWN p) then s else
  (s.purge p (fun x => past x && s.copyAged p x) (·.swxCount p 2)).purge p past (fun s => s.macCount p 48 1)

/-- STAT.ISOCUSE of the external ports follows (R77): a context of class 6 or 7 names the port, or ISOPROT is set. A port
that becomes so leaves low-power idle, and lowered renegotiates. (log 149, DESIGN CHOICE) -/
def State.isoSync (s : State) : State :=
  (List.range 12).foldl (fun s p =>
    let iso := s.flag (MAC_CTRL_ISOPROT p) || s.fcValid.any (fun f =>
      decide (6 ≤ s.fld (SWX_FC_CFG_CLASS f)) && (s.fld (SWX_FC_CFG_INPORT f) == p
        || (s.flag (SWX_FC_CFG_ALTV f) && s.fld (SWX_FC_CFG_ALTPORT f) == p) || (s.regN (SWX_FC_EGMASK f)).testBit p))
    let was := s.flag (MAC_STAT_ISOCUSE p)
    let s := s.setFlag (MAC_STAT_ISOCUSE p) iso
    if iso && !was then
      let s := (s.lpiLeave p).lpiRxLeave p
      if s.flag (MAC_STAT_ASPDLOW p) then ((s.setFlag (MAC_STAT_ASPDLOW p) false).linkDown p).aspdCount p else s
    else s) s

/-- The switch's shadow becomes active; meters fill to this cycle at their old rates, and a context that becomes valid starts its recovery and
its meter afresh (R108 to R110). (log 148, DESIGN CHOICE) -/
def State.swxApply (s : State) : State :=
  let old := s.fcValid
  let s := (List.range 12).foldl (fun s p => s.creditSync p) s
  let s := old.foldl (fun (s : State) f => s.setFcSt f { s.fcSt f with bucket := s.bucketNow f, bucketAt := s.time.now }) s
  let s := s.applyShad .switch
  let s := s.fcValid.foldl (fun s f => if f ∈ old then s else
    s.setFcSt f { s.fcSt f with hist := none, bucket := 0, bucketAt := s.time.now }) s
  s.isoSync

/-- The switch stands at a schedule count that is a multiple of 1,024 (R110). -/
def State.swxBoundary (s : State) : State :=
  if s.cyc0.toNat % 1024 ≠ 0 then s
  else s.unitBoundary .switch (swxBad s (fun a => s.candFor [.switch] [] a)) (fun s => s.swxApply)

end Sys2Proof.Machine
end

