-- ==== Sys2Proof/Machine/Egress.lean ====
section
/-! DEFINITION. Egress of external ports (R67, R72, R73, R80, R82, R84, R109): tags, PTP, FCS, counters, the end of a transmission. -/

namespace Sys2Proof.Machine

open Sys2Proof

/-- The 16-bit sum of a UDP payload: bytes at even places count 256 times. -/
def sum16 (l : List Byte) : Nat :=
  (l.zipIdx.foldl (fun n e => n + e.1.toNat * (if e.2 % 2 = 0 then 256 else 1)) 0) % 65535
/-- The last two bytes of the UDP payload from `h`, which ends where the length of its header says, make its sum what it was in `old` (R72). -/
def padUdp6 (old f : List Byte) (h : Nat) : List Byte :=
  let e := min f.length (h - 8 + be f (h - 4) 2)
  if e < h + 2 then f else
  let z := putBytes f (e - 2) [0, 0]
  let d := (sum16 (slice old h (e - h)) + 65535 - sum16 (slice z h (e - h))) % 65535
  putBytes z (e - 2) (if (e - h) % 2 = 0 then beBytes 2 d else leBytes 2 d)

/-- The forms of R72 after a one-step action on frame data `f` (without FCS), the PTP message at `h` carried in `form`. -/
def ptpFix (old f : List Byte) (h form : Nat) : List Byte :=
  if form = 1 then putBytes f (h - 2) [0, 0] else if form = 2 then padUdp6 old f h else f

/-- What egress makes of a PTP event message of copy `x` at port `p` whose first bit after the SFD left at `tout`, by domain in eighths of a ns
(R70, R72): the frame data, and whether its timestamp enters the FIFO. -/
def State.ptpOut (s : State) (p : Nat) (x : Copy) (f : List Byte) (tout : List Nat) : List Byte × Option (Nat × Nat × Nat) :=
  match s.macPtp p f with
  | none => (f, none)
  | some (h, form, d0) =>
    let d := if x.ptp then x.tdom else d0
    let lat := sgn 16 (s.fld (MAC_TSEGLAT_LAT p))
    let t8 := ((tout.getD d 0 : Int) + lat).toNat
    let ns := t8 / 8
    let fifo := if s.flag (MAC_TSCFG_EN p) then
        some (d * 2 ^ 24 + ptpType f h * 2 ^ 20 + (t8 % 8) * 2 ^ 17 + be f (h + 30) 2, ns / 1000000000 % 2 ^ 32, ns % 1000000000) else none
    let corr (add : Int) (g : List Byte) : List Byte := putBytes g (h + 8) (beBytes 8 (uns 64 (sgn 64 (be f (h + 8) 8) + add)))
    let blocked := form == 2 && !s.flag (MAC_TSCFG_V6PAD p)
    if ptpType f h = 0 ∧ !(be f (h + 6) 1).testBit 1 ∧ 12 ≤ x.src ∧ x.src ≤ 28 ∧ s.flag (MAC_TSCFG_ONESTEP p) ∧ !blocked then
      let g := putBytes f (h + 34) (beBytes 6 (ns / 1000000000) ++ beBytes 4 (ns % 1000000000))
      (ptpFix f (corr ((t8 % 8) * 8192) g) h form, none)
    else if x.src < 12 ∧ x.ptp ∧ s.flag (MAC_TSCFG_TCMODE p) ∧ !blocked then
      (ptpFix f (corr (((t8 : Int) - x.tin) * 8192) f) h form, none)
    else (f, fifo)

/-- The frame in transmission at output `p` has left: its counters, timestamps, copy (R72, R73, R82, R111); `e8` eighths of a ns are the part
of its timestamp point below the cycle it started in. Flow control that waited follows it (R76). A frame that is still arriving has not left. -/
def State.txEnd (s : State) (p e8 : Nat) : State :=
  let s := s.creditSync p
  let o := s.outSt p
  match o.tx with
  | none => s
  | some t =>
    match s.frm t.copy.frm with
    | none => (s.setOut p { o with tx := none }).fcFlush p
    | some f =>
      if !f.ended then s else
      let s := s.setOut p { o with tx := none }
      let d := s.shape p t.copy f.data
      let s := if 0 < t.frags then s.macCount p 52 1 else s
      if t.stomp || f.failed then (((s.macCount p 47 1).emit (.frame p (withBadFcs d))).copyFree p t.copy).fcFlush p
      else
        let r := s.ptpOut p t.copy d (t.tout.map (· + e8))
        let s := match r.2 with
          | some e => s.tsfPush p e
          | none => s
        let out := withFcs r.1
        let s := s.macCountFrame p 32 out (s.macPtp p d).isSome
        (((s.swxCount p 7).emit (.frame p out)).copyFree p t.copy).fcFlush p

/-- A read of TSF_HDR by master `m` (R73): the header word, and the FIFO without its oldest entry. -/
def State.tsfRead (s : State) (p : Nat) : State × Option (Nat × Nat × Nat) :=
  let x := s.macSt p
  match x.tsf with
  | [] => (s, none)
  | (h, sec, ns) :: t =>
    ((s.setMac p { x with tsf := t }).macSync p, some (2 ^ 31 + t.length * 2 ^ 26 + h, sec, ns))

/-- Hamper reports an uncorrectable error in cell `c` (R87): ECCUNC, ECCCELL, and what the outputs do with a frame that lies in it. -/
def State.cellError (s : State) (c : Nat) : State :=
  let s := (s.setFlag BUF_STAT_ECCUNC true).setFld BUF_ECCCELL_CELL c
  match s.swx.frames.find? (fun e => ((e.2.map (fun f => f.chain.contains c)).getD false)) with
  | some (k, _) => s.frmBad k
  | none => s

/-! ### Link setup, AUTOSPEED, EEE, preemption verification (R62 to R64, R78 to R80) -/

/-- Link setup of port `p` starts again: the link goes down where it was up. -/
def State.renegotiate (s : State) (p : Nat) : State := s.linkDown p
/-- Port `p` autonegotiates: by clause 28, or in 2500BASE-X by clause 37 with ANX (R61, R64). -/
def State.autonegs (s : State) (p : Nat) : Bool :=
  s.fld (MAC_MODE_SEL p) == 1 || (s.fld (MAC_MODE_SEL p) == 5 && s.flag (MAC_MODE_ANX p))
/-- ANRESTART: autonegotiation starts again, where the port does any. -/
def State.anRestart (s : State) (p : Nat) : State := if s.autonegs p then s.renegotiate p else s

/-- SPLL `i` runs: the PHY domain is on and one of its two ports is not disabled (R16). -/
def State.spllUsed (s : State) (i : Nat) : Bool :=
  s.domOn 8 && (List.range 2).any (fun k => s.fld (MAC_MODE_SEL (8 + 2 * i + k)) != 0 && selOk (8 + 2 * i + k) (s.fld (MAC_MODE_SEL (8 + 2 * i + k))))
/-- A SerDes PLL that runs is locked while its detector reads no loss; one that is stopped is neither locked nor lost. (log 109, DESIGN CHOICE) -/
def State.spllSync (s : State) : State :=
  (List.range 2).foldl (fun s i =>
    let lk : Fld := if i = 0 then SYS_CLKSTAT_SPLL0LK else SYS_CLKSTAT_SPLL1LK
    if s.spllUsed i then s.setFlag lk (!storeGet (fun _ => false) s.fcu.cond (4 + i)) else (s.setFlag lk false).clearSrc (4 + i)) s
/-- The PLLs of the PHY domain follow its supply: PHYLK, and the SerDes PLLs. -/
def State.phyClocks (s : State) : State :=
  (if s.domOn 8 then s.setFlag SYS_CLKSTAT_PHYLK (!storeGet (fun _ => false) s.fcu.cond 6) else (s.setFlag SYS_CLKSTAT_PHYLK false).clearSrc 6).spllSync

/-- A write of MODE (R62): the link goes down and link setup starts in the new mode, or the port is disabled with BADMODE. -/
def State.macMode (s : State) (p : Nat) (v : Word) : State :=
  let s := s.linkDown p
  let s := s.setReg (MAC_MODE p) (v &&& 0x737#32)
  let sel := s.fld (MAC_MODE_SEL p)
  let s := (s.setFlag (MAC_STAT_BADMODE p) (!selOk p sel)).setFlag (MAC_STAT_HDXREF p) false
  (s.setFlag (MAC_STAT_ASPDLOW p) false).spllSync

/-- A partner's abilities, in the layout of ANLP, name half duplex only. -/
def hdOnly (lp : Word) : Bool := bits lp 2 0 == 0 && bits lp 7 5 != 0
/-- Link setup of port `p` ends (R61 to R64, R78): `lp` is what the partner, or an in-band status, offers in the layout of ANLP, `v` the speed the
mode or an in-band status gives, `ms` the 1000BASE-T role that MODE.MS leaves open. A partner with half duplex only leaves the link down;
HDXREF clears when link setup next succeeds or MODE is written. (log 120, DESIGN CHOICE) -/
def State.linkSetup (s : State) (p : Nat) (lp : Word) (v : Nat) (ms : Bool) : State :=
  let sel := s.fld (MAC_MODE_SEL p)
  if sel = 0 ∨ s.flag (MAC_STAT_BADMODE p) ∨ s.flag (MAC_STAT_LINK p) then s
  else
    let s := if s.autonegs p then s.setReg (MAC_ANLP p) (lp &&& 0x3FF#32) else s
    let up (r : Nat) : State := (s.setFlag (MAC_STAT_HDXREF p) false).linkUp p r
    let told := s.autonegs p || sel == 4 || sel == 7
    if told ∧ hdOnly lp then (s.setFlag (MAC_STAT_HDXREF p) true).setFlag (MAC_IRQ_HDXREF p) true
    else if sel = 1 then
      match s.anResolve p (s.fld (MAC_ANLP_FD p)) with
      | some r =>
        let role := if s.fld (MAC_MODE_MS p) = 2 then true else if s.fld (MAC_MODE_MS p) = 3 then false else ms
        (up r).setFlag (MAC_STAT_MSRES p) (decide (r = 2) && role)
      | none => s
    else up (if sel = 2 then 1 else if sel = 3 then 0 else if sel = 5 then 3 else if sel = 6 then 4 else if sel = 4 then min v 2 else min v 4)

/-- The idle time of port `p` reaches IDLE ms: it renegotiates at 100 Mb/s (R78). -/
def State.aspdIdle (s : State) (p : Nat) : State :=
  if !s.aspdOn p || !s.flag (MAC_STAT_LINK p) || s.fld (MAC_STAT_SPEED p) != 2 || !s.dwellOver p
    || decide (s.fld (MAC_ASPD_THR_LOTHR p) ≤ s.occupancy p) || decide (s.fld (MAC_ASPD_THR_LOTHR p) ≤ s.macUsed p) then s
  else ((s.setFlag (MAC_STAT_ASPDLOW p) true).renegotiate p).aspdCount p
/-- The occupancy of a lowered port exceeds HITHR: it renegotiates with the full ANADV (R78). -/
def State.aspdRestore (s : State) (p : Nat) : State :=
  if !s.flag (MAC_STAT_ASPDLOW p) || !s.dwellOver p || decide (s.occupancy p ≤ s.fld (MAC_ASPD_THR_HITHR p)) then s
  else ((s.setFlag (MAC_STAT_ASPDLOW p) false).renegotiate p).aspdCount p
/-- A lowered link has not come up within 5 s (R78). -/
def State.aspdFail (s : State) (p : Nat) : State :=
  if !s.flag (MAC_STAT_ASPDLOW p) || s.flag (MAC_STAT_LINK p) then s
  else ((((s.setFlag (MAC_STAT_ASPDLOW p) false).renegotiate p).setFlag (MAC_ASPD_EN p) false).setFlag (MAC_ASPD_FAIL p) true).aspdCount p

/-- A transmit side idle for TXIDLE µs enters low-power idle (R79). -/
def State.lpiEnter (s : State) (p : Nat) : State :=
  let v := s.fld (MAC_STAT_SPEED p)
  let adv := (v == 1 && s.flag (MAC_EEE_ADV100 p) && (s.fld (MAC_ANLP_EEE p)).testBit 0)
    || (v == 2 && s.flag (MAC_EEE_ADV1000 p) && (s.fld (MAC_ANLP_EEE p)).testBit 1)
  if !s.eeeOn p || !s.flag (MAC_STAT_LINK p) || s.flag (MAC_STAT_LPITX p) || (s.outSt p).tx.isSome || !adv then s
  else
    let s := (s.setFlag (MAC_STAT_LPITX p) true).macCount p 58 1
    s.setMac p { s.macSt p with lpiTx := s.time.now }
/-- The receive side of port `p` enters low-power idle, where EEE acts on it, or leaves it. -/
def State.lpiRecv (s : State) (p : Nat) (on : Bool) : State :=
  let was := s.flag (MAC_STAT_LPIRX p)
  if !s.flag (MAC_STAT_LINK p) || on == was || (on && !s.eeeOn p) then s
  else if on then
    let s := (s.setFlag (MAC_STAT_LPIRX p) true).macCount p 59 1
    s.setMac p { s.macSt p with lpiRx := s.time.now }
  else s.lpiRxLeave p

/-- VTIME ms have passed in verification: a verify frame is sent, or after three unanswered it fails (R80). -/
def State.verifyTick (s : State) (p : Nat) : State :=
  let st := s.fld (MAC_PREEMPT_STAT_VSTATE p)
  if !s.flag (MAC_STAT_LINK p) || !(st == 1 || st == 2) then s
  else
    let m := s.macSt p
    if m.tries < 3 then
      (((s.setMac p { m with tries := m.tries + 1 }).setFld (MAC_PREEMPT_STAT_VSTATE p) 2).lpiLeave p).emit (.mac p 3 0)
    else (s.setFld (MAC_PREEMPT_STAT_VSTATE p) 4).setFlag (MAC_IRQ_PEVFAIL p) true
/-- A verify frame is answered: verification succeeds and preemption is active (R80). -/
def State.verifyOk (s : State) (p : Nat) : State :=
  if s.fld (MAC_PREEMPT_STAT_VSTATE p) = 2 then
    ((s.setFld (MAC_PREEMPT_STAT_VSTATE p) 3).setFlag (MAC_PREEMPT_STAT_ACTIVE p) true).setFlag (MAC_STAT_PEACT p) true
  else s

/-- A write of BUF_SWCELLS (R84): accepted in BOOT and PREOP while every receiver is off and every queue empty. -/
def State.swCells (s : State) (n : Nat) : State :=
  let idle := (List.range 12).all (fun p => !s.flag (MAC_CTRL_RXEN p)) && (List.range 256).all (fun i => (s.qSt (i / 8) (i % 8)).q.isEmpty)
  if (s.mode = modeBOOT ∨ s.mode = modePREOP) ∧ idle then
    let old := s.fld BUF_SWCELLS_UNITS
    let new := min n 192
    let s := s.setFld BUF_SWCELLS_UNITS new
    if s.domOn 11 then s.setFree (s.fld BUF_FREE_CELLS + s.poolCells new - s.poolCells old) else s
  else s.note

/-- Hamper and the switch have powered up: the pool holds every cell of the frame pool and the rings of the blocks that are on
fill (R84, R85). -/
def State.poolInit (s : State) : State :=
  let s := s.setFld BUF_FREE_CELLS (s.poolCells (s.fld BUF_SWCELLS_UNITS))
  (List.range 20).foldl (fun s i => if s.portOff (12 + i) then s else s.ringTake (12 + i) 32) s

end Sys2Proof.Machine
end

