-- ==== Sys2Proof/Machine/Disp.lean ====
section
/-! DEFINITION. The engines' own state and what the Dispatcher hands them (R113 to R118, R128, R133, R134): memories, copies,
hand-over, the end of an item, reset, the apply boundary. -/

namespace Sys2Proof.Machine

open Sys2Proof

/-! ### Engines and threads -/

/-- Engine `n`. -/
def State.engSt (s : State) (n : Nat) : EngSt := storeGet (fun _ => EngSt.reset) s.eng n
def State.setEng (s : State) (n : Nat) (x : EngSt) : State := { s with eng := storeSet (fun _ => EngSt.reset) s.eng n x }
/-- Thread `t` of engine `n`. -/
def State.thr (s : State) (n t : Nat) : Thr := storeGet (fun _ => Thr.reset) (s.engSt n).thr t
/-- What STAT.TST shows of a thread. -/
def Thr.tst (x : Thr) (rxing : Bool) : Nat :=
  if x.dead then 0 else if x.stall.isSome then (match x.stall with
    | some (.instr _ true) => 4
    | some (.port 0x604 _) => 4
    | _ => 3)
  else if x.handler then 5 else if x.run then 2 else if rxing then 1 else 0
/-- The receive window of a thread is bound or draining (R114). -/
def Thr.winBusy (x : Thr) : Bool := x.win.isSome
/-- Thread `t` of engine `n` takes a state; STAT.TST and WINBUSY follow. A thread that holds no item reads idle while the
engine runs, halted before it first has. -/
def State.setThr (s : State) (n t : Nat) (x : Thr) : State :=
  let e := s.engSt n
  let s := s.setEng n { e with thr := storeSet (fun _ => Thr.reset) e.thr t x }
  let idle := s.flag (ENG_CTRL_RUN n) || s.fld (ENG_STAT_TST n) / 8 ^ t % 8 != 0
  let s := s.setFld ⟨ENG_STAT n, 3 * t + 2, 3 * t⟩ (x.tst idle)
  s.setFlag ⟨ENG_STAT n, 12 + t, 12 + t⟩ x.winBusy

/-- The word of an engine's memory space (0 I, 1 D, 2 microcode, 3 decode table) at a byte address; none beyond its size (R113). -/
def EngSt.word (e : EngSt) (space a : Nat) : Option Word :=
  let i := a / 4
  if space = 0 then (if i < 16384 then some (storeGet (fun _ => 0) e.imem i) else none)
  else if space = 1 then (if i < 32768 then
    some (w32 (ofLe ((List.range 4).map (fun k => storeGet (fun _ => 0) e.dmem (4 * i + k))))) else none)
  else if space = 2 then (if i < 512 then some (storeGet (fun _ => 0) e.ucode i) else none)
  else (if i < 32 then some (storeGet (fun _ => 0) e.table i) else none)
/-- Bytes of D space from an address. -/
def EngSt.dBytes (e : EngSt) (a n : Nat) : List Byte := (List.range n).map (fun k => storeGet (fun _ => 0) e.dmem (a + k))
/-- Bytes are written to D space. -/
def EngSt.setD (e : EngSt) (a : Nat) : List Byte → EngSt
  | [] => e
  | b :: t => { e with dmem := storeSet (fun _ => 0) e.dmem a b }.setD (a + 1) t
/-- A word of a memory space is written. -/
def EngSt.setWord (e : EngSt) (space a : Nat) (v : Word) : EngSt :=
  let i := a / 4
  if space = 0 then (if i < 16384 then { e with imem := storeSet (fun _ => 0) e.imem i v } else e)
  else if space = 1 then (if i < 32768 then e.setD (4 * i) (leBytes 4 v.toNat) else e)
  else if space = 2 then (if i < 512 then { e with ucode := storeSet (fun _ => 0) e.ucode i v } else e)
  else (if i < 32 then { e with table := storeSet (fun _ => 0) e.table i v } else e)

/-- A write of MEMDATA (R114). -/
def State.memDataWrite (s : State) (n : Nat) (v : Word) : State :=
  let sp := s.fld (ENG_MEMADDR_SPACE n)
  let a := s.fld (ENG_MEMADDR_ADDR n)
  let s := if s.flag (ENG_CTRL_RUN n) ∧ sp ≠ 1 then s.setFlag (ENG_STAT_MEMREF n) true
    else s.setEng n ((s.engSt n).setWord sp a v)
  s.setFld (ENG_MEMADDR_ADDR n) (a + 4)
/-- A read of MEMDATA (R114): the word, and ADDR advanced. -/
def State.memDataRead (s : State) (n : Nat) : State × Word :=
  let a := s.fld (ENG_MEMADDR_ADDR n)
  (s.setFld (ENG_MEMADDR_ADDR n) (a + 4), ((s.engSt n).word (s.fld (ENG_MEMADDR_SPACE n)) a).getD 0)

/-! ### Copies to engines (R118) -/

/-- OUTST of engine `n` follows the copies it holds. -/
def State.outst (s : State) (n : Nat) : State := s.setFld (ENG_STAT_OUTST n) (s.sentTo (12 + n)).length
/-- The output of engine `n`'s fabric port sends a copy (R118). (log 145, DEDUCED) -/
def State.engineSend (s : State) (n : Nat) : State :=
  if s.engOff n ∨ 64 ≤ (s.sentTo (12 + n)).length then s else
  let x := s.srcItem n 0 0 0 true
  if !s.itemRoom x then
    let r := s.pickFrom (12 + n) false 8
    match r.2 with
    | none => r.1
    | some c =>
      let s := r.1
      let h := ((s.qSt (12 + n) c).q.head?).map (·.frm)
      if (s.engSt n).heldFor = h then s else (s.setEng n { s.engSt n with heldFor := h }).heldCount 0
  else
    let r := s.pickInternal (12 + n)
    match r.2 with
    | none => r.1
    | some y =>
      let s := (r.1.setSent (12 + n) (r.1.sentTo (12 + n) ++ [y])).outst n
      let s := s.swxCount (12 + n) 7
      let s := if ((s.frm y.frm).map (·.ended)).getD true then s.sentOver (12 + n) y.frm else s
      s.enqueue { x with frm := y.frm, aux := y.idx }
/-- A copy engine `n` holds is freed. -/
def State.engFree (s : State) (n : Nat) (y : Copy) : State :=
  match (s.sentTo (12 + n)).find? (fun x => x.frm == y.frm) with
  | none => s
  | some x =>
    let s := s.setSent (12 + n) ((s.sentTo (12 + n)).filter (fun z => z.frm != y.frm))
    (if x.uses then s.copyFree (12 + n) x else s.dropRef x.frm).outst n

/-! ### Hand-over and the end of an item (R128) -/

/-- Thread `t` of engine `n` may take item `x` of its cluster: not while a low-power vote is open (R309). (log 86, DEDUCED) -/
def State.eligible (s : State) (n t : Nat) (x : Item) : Bool :=
  let h := s.thr n t
  s.flag (ENG_CTRL_RUN n) && !s.engOff n && s.pwr.vote.isNone && (s.fld (ENG_CTRL_THEN n)).testBit t && !h.run && !h.dead && h.stall.isNone
    && (!x.homeV || x.home == n) && (x.kind != 0 || !h.winBusy)
/-- General register `i` of a thread takes a value, which g0 discards; T0 to T3 stand above them as 32 to 35 (R135, R161). -/
def Thr.setG (x : Thr) (i : Nat) (v : Word) : Thr :=
  if i = 0 then x
  else if 32 ≤ i then { x with temps := storeSet (fun _ => 0) x.temps (i - 32) v }
  else { x with regs := storeSet (fun _ => 0) x.regs i v }
/-- Every pending load of a thread lands, in program order. -/
def Thr.landAll (x : Thr) : Thr := x.loads.foldl (fun (x : Thr) l => x.setG l.2.1 l.2.2) { x with loads := [] }
/-- The thread's time snapshot latches (R136). -/
def State.latchTs (s : State) (x : Thr) : Thr := { x with ts := s.cyc0, tsf := s.fld (TIME_DOM_FRAC_FRAC 0) / 8192 }
/-- The thread takes an item. -/
def State.handOver (s : State) (n t : Nat) (x : Item) : State :=
  let h := s.latchTs (s.thr n t).landAll
  let w : Option Win := if x.kind = 0 then ((s.sentTo (12 + n)).find? (fun y => y.frm == x.frm)).map
      (fun y => { copy := y, wr := [], fwd := false, beats := 0, drained := false, done := false, hold := none }) else h.win
  let port := if x.kind = 0 then (storeSet (fun _ => 0) h.port 0x300 0) else h.port
  s.setThr n t { h with run := true, handler := false, pc := x.entry, rc := 0, rs := [], rep := none, rcNext := none, uop := none,
                        item := some x, win := w, port := port }
/-- The Dispatcher hands an item of cluster `k` to the first idle thread that may take one (R128). -/
def State.dispatch (s : State) (k : Nat) : State :=
  let ths := (List.range 64).filter (fun i => s.clusterOf (i / 4) == k)
  let pick := fun i => (List.range 8).reverse.findSome? (fun l =>
    ((s.level k l).findIdx? (fun x => s.eligible (i / 4) (i % 4) x)).map (fun j => (l, j)))
  match ths.findSome? (fun i => (pick i).map (fun p => (i, p))) with
  | none => s
  | some (i, l, j) =>
    match (s.level k l)[j]? with
    | none => s
    | some x => (s.setLevel k l ((s.level k l).eraseIdx j)).handOver (i / 4) (i % 4) x

/-- A window whose item has ended and whose forward has drained is released with its copy (R118, R121). -/
def State.winFree (s : State) (n t : Nat) : State :=
  let h := s.thr n t
  match h.win with
  | none => s
  | some w => if w.done ∧ (!w.fwd ∨ w.drained) then (s.engFree n w.copy).setThr n t { h with win := none } else s

/-- DONE: the thread's item ends (R128, R131, R156). -/
def State.itemDone (s : State) (n t : Nat) : State :=
  let h := s.thr n t
  let s := match h.item with
    | none => s
    | some x =>
      let s := s.countSat (ENG_CNT n 0) 1
      if x.kind = 6 then s.nodeEmit (x.aux % 512) else s
  let w := match h.item with
    | some x => if x.kind = 0 then h.win.map (fun w => { w with done := true }) else h.win
    | none => h.win
  (s.setThr n t { h with run := false, handler := false, stall := none, rep := none, rcNext := none, uop := none, item := none,
                         win := w }).winFree n t

/-! ### RUN, reset, configuration (R114, R127, R134, R137) -/

/-- RUN goes from 0 to 1, or RST back to 0 with it set: idle threads wait for items; INIT starts thread 0 (R114). -/
def State.engStart (s : State) (n : Nat) : State :=
  let s := (List.range 4).foldl (fun s t => s.setThr n t (s.thr n t)) s
  let h := s.thr n 0
  if s.flag (ENG_CTRL_INIT n) ∧ !h.run ∧ !h.dead then s.setThr n 0 { h with run := true, pc := 0 } else s

/-- The slots that the stall of thread `t` has lost so far are counted (R114, R149). -/
def State.stallSync (s : State) (n t : Nat) : State :=
  let h := s.thr n t
  if h.stall.isNone then s else
  let k := (s.time.now - h.since) / 5
  (s.countSat (ENG_CNT n 2) k).setThr n t { h with since := h.since + 5 * k }
/-- An engine reset: threads, windows and frames in progress end; memories and queued items stay (R134, R137). (log 93, DESIGN CHOICE) -/
def State.engReset (s : State) (n : Nat) : State :=
  let s := (List.range 4).foldl (fun s t =>
    let s := s.stallSync n t
    let h := s.thr n t
    let s := s.rxDrop (100 + 4 * n + t)
    let s := match h.win with
      | some w => (s.engFree n w.copy).countSat (ENG_CNT n 3) 1
      | none => s
    s.setThr n t Thr.reset) s
  (s.setEng n { s.engSt n with sres := 0, rres := 0 }).setFld (ENG_STAT_TST n) 0

/-- CTRL of engine `n` is written. -/
def State.engCtrl (s : State) (n : Nat) (v : Word) : State :=
  let was := s.reg (ENG_CTRL n)
  let s := s.setReg (ENG_CTRL n) (v &&& 0xF7#32)
  let rst := v.getLsbD 1
  let s := if rst && !was.getLsbD 1 then s.engReset n else s
  let s := if !rst && was.getLsbD 1 then s.setEng n { s.engSt n with born := s.time.now } else s
  if v.getLsbD 0 && !rst && (!was.getLsbD 0 || was.getLsbD 1) then s.engStart n else s

/-- DISP_CLCFG `w` names no bit without the lower ones it requires (R127). -/
def clcfgOk (w : Nat) : Bool :=
  (List.range 4).all (fun i => !w.testBit (8 + i) || (w.testBit (2 * i) && w.testBit (2 * i + 1)))
  && (List.range 2).all (fun i => !w.testBit (12 + i) || (w.testBit (8 + 2 * i) && w.testBit (9 + 2 * i)))
  && (!w.testBit 14 || (w.testBit 12 && w.testBit 13))
/-- A write of DISP_CLCFG (R127). -/
def State.clcfgWrite (s : State) (v : Word) : State :=
  let w := v.toNat % 32768
  let old := s.regN DISP_CLCFG
  let changed := (List.range 16).filter (fun e => clusterIn old e != clusterIn w e || clusterLog old e != clusterLog w e)
  let ok := clcfgOk w && changed.all (fun e => !s.flag (ENG_CTRL_RUN e) && (List.range 8).all (fun l =>
    (s.level (clusterIn old e) l).isEmpty && (s.level (clusterIn w e) l).isEmpty))
  if ok then s.setReg DISP_CLCFG (w32 w) else s.setFlag DISP_STAT_CLREF true

/-- The consistency rules of the Dispatcher over a candidate set (R133). -/
def dispBad (s : State) (get : Nat → Word) : Option (Nat × Nat) :=
  let w := s.regN DISP_CLCFG
  let graph := fun e => decide (3 ≤ clusterLog w e)
  let heads := (List.range 16).filter (fun k => clusterIn w k == k)
  let sum := heads.foldl (fun n k => (List.range 8).foldl (fun n l => n + bits (get (DISP_CAP k l)) 12 0) n) 0
  let inNode := fun (c n i : Nat) => let x := get (DISP_NODE_W0 n)
    x.getLsbD 21 && clusterIn w (bits x 27 24) == c && decide (i ≤ bits x 19 17)
  let e := (List.range 80).find? (fun i => let x := get (DISP_ENTRY (i / 5) (i % 5))
    x.getLsbD 17 && !(graph (i / 5) && decide (1 ≤ i % 5) && inNode (clusterIn w (i / 5)) (bits x 26 18) (bits x 29 27)))
  let okSucc := fun (c f : Nat) => !f.testBit 12 || inNode c (f % 512) (f / 512 % 8)
  let n := (List.range 512).find? (fun n => let x := get (DISP_NODE_W0 n)
    let c := bits x 27 24
    x.getLsbD 21 && !(graph c && okSucc (clusterIn w c) (bits (get (DISP_NODE_W2 n)) 15 0)
      && okSucc (clusterIn w c) (bits (get (DISP_NODE_W2 n)) 31 16) && okSucc (clusterIn w c) (bits (get (DISP_NODE_W3 n)) 15 0)
      && okSucc (clusterIn w c) (bits (get (DISP_NODE_W3 n)) 31 16)))
  if 4096 < sum then some (1, DISP_CAP 0 0)
  else match e with
    | some i => some (2, DISP_ENTRY (i / 5) (i % 5))
    | none => n.map (fun n => (3, DISP_NODE_W0 n))
/-- DISP_CAP keeps its occupancy when its shadow applies. -/
def State.dispApply (s : State) : State :=
  (s.shadOf .disp).foldl (fun s e =>
    if DISP_CAP 0 0 ≤ e.1 ∧ e.1 < DISP_CAP 16 0 then s.setReg e.1 ((s.reg e.1 &&& 0x1FFF0000#32) ||| (e.2 &&& 0x1FFF#32))
    else s.setReg e.1 e.2) (s.dropShad .disp)
/-- The Dispatcher's apply boundary (R133). -/
def State.dispBoundary (s : State) : State :=
  if s.cyc0.toNat % 1024 ≠ 0 then s
  else s.unitBoundary .disp (dispBad s (fun a => s.candFor [.disp] [] a)) (fun s => s.dispApply)

end Sys2Proof.Machine
end

