-- ==== Sys2Proof/Machine/Can.lean ====
section
/-! DEFINITION. The CAN FD controllers (R178 to R200): initialisation, receive ring, message objects, transmission, fault confinement,
notification, the time-triggered schedule and the bus guardian. -/

namespace Sys2Proof.Machine

open Sys2Proof

/-- Controller `n` beside its registers. -/
def State.canSt (s : State) (n : Nat) : CanSt := storeGet (fun _ => CanSt.reset) s.can n
def State.setCan (s : State) (n : Nat) (x : CanSt) : State := { s with can := storeSet (fun _ => CanSt.reset) s.can n x }
/-- The shadow frame of object `m`. -/
def State.moShadow (s : State) (n m : Nat) : Option (CanFrm × Word × Word) := storeGet (fun _ => none) (s.canSt n).shadow m
def State.setMoShadow (s : State) (n m : Nat) (v : Option (CanFrm × Word × Word)) : State :=
  s.setCan n { s.canSt n with shadow := storeSet (fun _ => none) (s.canSt n).shadow m v }

/-! ### Bit timing and time (R180, R191) -/

/-- CAN_CLK cycles of a nominal bit and of a data bit. -/
def State.nomBit (s : State) (n : Nat) : Nat :=
  (s.fld (CAN_NBT_BRPM1 n) + 1) * (3 + s.fld (CAN_NBT_TSEG1M1 n) + s.fld (CAN_NBT_TSEG2M1 n))
def State.datBit (s : State) (n : Nat) : Nat :=
  (s.fld (CAN_DBT_BRPM1 n) + 1) * (3 + s.fld (CAN_DBT_TSEG1M1 n) + s.fld (CAN_DBT_TSEG2M1 n))
/-- STAT.BADTIM follows the timing registers (R180). -/
def State.badTim (s : State) (n : Nat) : State :=
  let fd := s.flag (CAN_CTRL_FDEN n)
  let bad := decide (s.nomBit n < 80) || (fd && decide (s.datBit n < 10)) || (fd && decide (s.nomBit n < s.datBit n))
    || decide (s.fld (CAN_NBT_TSEG2M1 n) < s.fld (CAN_NBT_SJWM1 n)) || decide (s.fld (CAN_DBT_TSEG2M1 n) < s.fld (CAN_DBT_SJWM1 n))
    || decide (s.fld (CAN_NBT_TSEG1M1 n) + 1 < 2)
  s.setFlag (CAN_STAT_BADTIM n) bad
/-- TIME_CLK cycles (ns) in NTU of controller `n`, by CAN_CLK at 80 MHz. -/
def State.ntuOf (s : State) (n ns : Nat) : Nat := ns * 2 / (25 * s.nomBit n)
/-- The cycle time in NTU (R191). -/
def State.canCT (s : State) (n : Nat) : Nat := s.ntuOf n (s.time.now - (s.canSt n).ctAt)
/-- The time-triggered state. -/
def State.ttState (s : State) (n : Nat) : Nat := s.fld (CAN_TT_STAT_STATE n)
/-- The node is synchronised (R192). -/
def State.ttSync (s : State) (n : Nat) : Bool := let t := s.ttState n; decide (2 ≤ t ∧ t ≤ 5)
/-- CAN_CLK cycles of the cycle time, at 80 MHz (R191). -/
def State.canClk (s : State) (n : Nat) : Nat := (s.time.now - (s.canSt n).ctAt) * 2 / 25
/-- A start of frame has been seen on the bus since the cycle time was `m` NTU (R192, R195). -/
def State.sofSince (s : State) (n m : Nat) : Bool :=
  ((s.canSt n).sofAt.map (fun t => decide (2 * (s.canSt n).ctAt + 25 * s.nomBit n * m ≤ 2 * t))).getD false
/-- What a read of TT_STAT finds as the cycle time. -/
def State.ctShow (s : State) (n : Nat) : State := s.setFld (CAN_TT_STAT_CT n) (if s.ttSync n then s.canCT n else 0)

/-! ### Frames and the matrix (R184, R191, R200) -/

/-- The data bytes a DLC stands for. -/
def dlcLen (fd : Bool) (dlc : Nat) : Nat :=
  if dlc ≤ 8 then dlc else if !fd then 8 else if dlc = 9 then 12 else if dlc = 10 then 16 else if dlc = 11 then 20
  else if dlc = 12 then 24 else if dlc = 13 then 32 else if dlc = 14 then 48 else 64
/-- A frame's bytes count. -/
def frmBytes (f : CanFrm) : Nat := if f.id.getLsbD 30 && !f.fmt.getLsbD 4 then 0 else dlcLen (f.fmt.getLsbD 4) (bits f.fmt 3 0)

/-- The frame that object `m` has published. -/
def State.pubFrame (s : State) (n m : Nat) : CanFrm := ((s.moShadow n m).map (·.1)).getD ⟨0, 0, []⟩
/-- A frame as controller `n` sends it: an FD frame is no remote frame, and carries the controller's own error state (MO ID, FMT). -/
def State.asSent (s : State) (n : Nat) (f : CanFrm) : CanFrm :=
  let fd := f.fmt.getLsbD 4
  { f with id := if fd then f.id &&& 0xBFFFFFFF#32 else f.id,
           fmt := setBits f.fmt 6 6 (bit (fd && s.fld (CAN_STAT_FCS n) == 1)) }

/-- The worst-case length L of a frame in NTU, with its intermission (R191). -/
def State.frmL (s : State) (n : Nat) (f : CanFrm) : Nat :=
  let b := frmBytes f
  let ext := f.id.getLsbD 29
  if !f.fmt.getLsbD 4 then
    (if ext then 8 * b + 67 + (54 + 8 * b - 1) / 4 else 8 * b + 47 + (34 + 8 * b - 1) / 4)
  else
    let arb := if ext then 36 else 17
    let dat := 5 + 8 * b
    let crc := if b ≤ 16 then 4 + 17 + 6 else 4 + 21 + 7
    let stuff := (arb + dat - 1) / 4 - (arb - 1) / 4
    let nom := arb + (arb - 1) / 4 + 13
    if f.fmt.getLsbD 5 then nom + ((dat + stuff + crc) * s.datBit n + s.nomBit n - 1) / s.nomBit n
    else nom + dat + stuff + crc

/-- Cell `(c, w)`: type and object. -/
def ttCell (get : Nat → Word) (n c w : Nat) : Nat × Nat :=
  let v := get (CAN_TT_CELL n c (w / 2))
  if w % 2 = 0 then (bits v 15 14, bits v 6 0) else (bits v 31 30, bits v 22 16)
/-- The end of window `w`: the next mark, or CYCLEN (R191). -/
def winEnd (get : Nat → Word) (n w : Nat) : Nat :=
  if w < bits (get (CAN_TT_TIME n)) 28 24 then bits (get (CAN_TT_WIN n (w + 1))) 15 0 else bits (get (CAN_TT_TIME n)) 15 0

/-- The number of basic cycles. -/
def basicCycles (cfg : Word) : Nat := 2 ^ min 6 (bits cfg 22 20)

/-- The consistency rules of the time-triggered registers over a candidate set (R198, R200): a guard band below 2 NTU breaks rule 2, and a cell
of a window that is not in use has no window its frame must fit. (log 153, DEDUCED) -/
def ttBad (s : State) (get : Nat → Word) (n : Nat) : Option (Nat × Nat) :=
  let nw := bits (get (CAN_TT_TIME n)) 28 24
  let cyclen := bits (get (CAN_TT_TIME n)) 15 0
  let guard_ := bits (get (CAN_TT_TIME n)) 21 16
  let mark := fun w => bits (get (CAN_TT_WIN n w)) 15 0
  let nc := basicCycles (get (CAN_TT_CFG n))
  let pm := (get (CAN_TT_CFG n)).getLsbD 11
  let rise := (List.range nw).find? (fun w => decide (mark (w + 1) ≤ mark w))
  let cells := (List.range nc).flatMap (fun c => (List.range 32).map (fun w => (c, w)))
  let exc := cells.find? (fun e => let k := ttCell get n e.1 e.2
    k.1 == 2 && !(s.flag (CAN_MO_CFG_VALID n k.2) && s.flag (CAN_MO_CFG_DIR n k.2) && s.fld (CAN_MO_CFG_TTMODE n k.2) == 1
      && (decide (nw < e.2) || decide (s.frmL n (s.pubFrame n k.2) + 2 * guard_ ≤ winEnd get n e.2 - mark e.2))))
  let mask := fun c w => if c < 32 then (get (CAN_GT_MASK_LO n w)).getLsbD c else (get (CAN_GT_MASK_HI n w)).getLsbD (c - 32)
  let gm := (List.range (nw + 1)).find? (fun w => bits (get (CAN_GT_MARK n w)) 15 0 != mark w)
  let gk := cells.find? (fun e => if e.2 = 0 then mask e.1 0 != pm else mask e.1 e.2 != decide (2 ≤ (ttCell get n e.1 e.2).1))
  if mark 0 ≠ 0 then some (1, CAN_TT_WIN n 0)
  else match rise with
    | some w => some (1, CAN_TT_WIN n (w + 1))
    | none =>
      if cyclen ≤ mark nw then some (1, CAN_TT_WIN n nw)
      else if guard_ < 2 then some (2, CAN_TT_TIME n)
      else if mark 1 < 91 + 2 * guard_ then some (2, CAN_TT_WIN n 1)
      else match exc with
        | some e => some (3, CAN_TT_CELL n e.1 (e.2 / 2))
        | none => match gm with
          | some w => some (4, CAN_GT_MARK n w)
          | none => gk.map (fun e => (4, if e.1 < 32 then CAN_GT_MASK_LO n e.2 else CAN_GT_MASK_HI n e.2))
/-- The time-triggered registers of controller `n` apply (R200). -/
def State.ttBoundary (s : State) (n : Nat) : State :=
  s.unitBoundary (.tt n) (ttBad s (fun a => s.candFor [.tt n] [] a) n) (fun s => s.applyShad (.tt n))
/-- The time-triggered words of controller `n` that could apply now. -/
def State.ttSetNow (s : State) (n : Nat) : List (Nat × Word) := if s.unitEligible (.tt n) then s.shadOf (.tt n) else []
/-- The set `set`, which stood at a start of frame, applies; what has been written since stays in the shadow (R200). -/
def State.ttBoundaryAt (s : State) (n : Nat) (set : List (Nat × Word)) : State :=
  if set.isEmpty then s else
  let late := (s.shadOf (.tt n)).filter (fun e => !set.contains e)
  let t := (set.foldl (fun (s : State) e => s.setShad e.1 e.2) (s.clearShad (.tt n))).ttBoundary n
  late.foldl (fun (s : State) e => s.setShad e.1 e.2) t

/-! ### Interrupts and states (R187, R188) -/

/-- IRQ bit `f` sets; a rise with its IEN bit set rings the notification doorbell (R188). -/
def State.canIrq (s : State) (n b : Nat) : State :=
  let was := (s.regN (CAN_IRQ n)).testBit b
  let s := s.setBitAt (CAN_IRQ n) b true
  if !was && (s.regN (CAN_IEN n)).testBit b && s.flag (CAN_NOTIFY_EN n) then s.ring (s.fld (CAN_NOTIFY_RCV n)) (s.fld (CAN_NOTIFY_DB n))
  else s
/-- Counter `i` (R190). -/
def State.canCount (s : State) (n i : Nat) : State := s.countSat (CAN_CNT n i) 1
/-- The time-triggered state changes (R193); a set that waits applies at once in OFF, LISTEN and STARTFAIL (R200). -/
def State.ttSet (s : State) (n st : Nat) : State :=
  if s.ttState n = st then s else
    let s := (s.setFld (CAN_TT_STAT_STATE n) st).canIrq n 7
    if st = 0 ∨ st = 1 ∨ st = 6 then s.ttBoundary n else s
/-- A write or a commit of the time-triggered registers applies at once in those states. -/
def State.ttAtOnce (s : State) (n : Nat) : State :=
  let t := s.ttState n
  if t = 0 ∨ t = 1 ∨ t = 6 then s.ttBoundary n else s

/-- The controller is in no frame, and takes part in none. -/
def State.canQuiet (s : State) (n : Nat) : State :=
  (((s.setFlag (CAN_STAT_IDLE n) false).setFlag (CAN_STAT_TXING n) false).setFlag (CAN_STAT_RXING n) false).setCan n
    { s.canSt n with tx := none, rx := none }
/-- EWARN and the confinement state follow TEC and REC (R187). -/
def State.confine (s : State) (n : Nat) : State :=
  let tec := s.fld (CAN_ERR_TEC n)
  let rec_ := s.fld (CAN_ERR_REC n)
  let fcs := s.fld (CAN_STAT_FCS n)
  let new := if 255 < tec then 2 else if 127 < tec ∨ 127 < rec_ then 1 else 0
  let ew := decide (96 ≤ tec ∨ 96 ≤ rec_)
  let s := if s.flag (CAN_STAT_EWARN n) = ew then s else (s.setFlag (CAN_STAT_EWARN n) ew).canIrq n 2
  let s := s.setFld (CAN_STAT_FCS n) new
  if new = 2 ∧ fcs ≠ 2 then
    let s := (((s.canQuiet n).raise (192 + 8 * n)).canIrq n 4).canCount n 9
    let s := if s.flag (CAN_CTRL_ABOM n) then s.setFlag (CAN_STAT_BORUN n) true else s
    if s.flag (CAN_CTRL_TTEN n) then s.ttSet n 0 else s
  else if (fcs = 1) ≠ (new = 1) ∧ fcs ≠ 2 then s.canIrq n 3
  else s

/-- TEC and REC take values; ISO 11898-1 keeps TEC within nine bits. -/
def State.setErr (s : State) (n tec rec_ : Nat) : State :=
  ((s.setFld (CAN_ERR_TEC n) (min tec 511)).setFld (CAN_ERR_REC n) (min rec_ 255)).confine n

/-- An error is logged and counted by its kind (R190). -/
def State.logErr (s : State) (n : Nat) (e : CanErr) : State :=
  let s := (s.setFld (CAN_ERRLOG_LEC n) e.code).setFlag (CAN_ERRLOG_DPH n) e.dph
  s.canCount n (if e.code = 1 then 3 else if e.code = 2 then 4 else if e.code = 3 then 5 else if e.code = 6 then 7 else 6)

/-! ### The receive ring (R182, R183) -/

/-- The receive objects in rising order. -/
def State.rxObjs (s : State) (n : Nat) : List Nat :=
  (List.range 128).filter (fun m => s.flag (CAN_MO_CFG_VALID n m) && !s.flag (CAN_MO_CFG_DIR n m))
/-- RXRING starts at the lowest receive object (R182). -/
def State.ringStart (s : State) (n : Nat) : State :=
  let l := s.rxObjs n
  (s.setFld (CAN_RXRING_COUNT n) l.length).setFld (CAN_RXRING_NEXT n) (l.headD 0)
/-- The receive object after `m` in the ring. -/
def State.rxNext (s : State) (n m : Nat) : Nat :=
  let l := s.rxObjs n
  (l.find? (fun k => decide (m < k))).getD (l.headD 0)

/-- Data word `k` of a frame of `len` bytes: bytes beyond its length read 0. -/
def dataWord (f : CanFrm) (len k : Nat) : Word :=
  let v := f.data.getD k 0
  if 4 * k + 4 ≤ len then v else if len ≤ 4 * k then 0 else w32 (v.toNat % 256 ^ (len - 4 * k))
/-- Object `m` holds a frame. -/
def State.moFill (s : State) (n m : Nat) (f : CanFrm) (ts tts : Word) : State :=
  let len := frmBytes f
  let s := s.setRegs [(CAN_MO_ID n m, f.id &&& 0x7FFFFFFF#32), (CAN_MO_FMT n m, f.fmt &&& 0x7F#32), (CAN_MO_TS n m, ts), (CAN_MO_TTS n m, tts)]
  (List.range 16).foldl (fun s k => s.setReg (CAN_MO_DATA n m k) (dataWord f len k)) s

/-- Object `m` loses a frame. -/
def State.moOverrun (s : State) (n m : Nat) : State := ((s.setFlag (CAN_MO_STAT_OVERRUN n m) true).canCount n 8).canIrq n 6

/-- A frame is stored in the ring at NEXT (R182). -/
def State.rxStore (s : State) (n : Nat) (f : CanFrm) (ts tts : Word) : State :=
  if (s.rxObjs n).isEmpty then s else
  let m := s.fld (CAN_RXRING_NEXT n)
  let full := s.flag (CAN_MO_STAT_FULL n m)
  let s := if s.flag (CAN_MO_STAT_LOCKED n m) then
      let s := if s.flag (CAN_MO_STAT_SHADOW n m) then s.moOverrun n m else s
      (s.setMoShadow n m (some (f, ts, tts))).setFlag (CAN_MO_STAT_SHADOW n m) true
    else
      let s := (s.moFill n m f ts tts).setFlag (CAN_MO_STAT_FULL n m) true
      if full then s.moOverrun n m else s.canIrq n 0
  s.setFld (CAN_RXRING_NEXT n) (s.rxNext n m)

/-- CMD.LOCK (R183). -/
def State.moLock (s : State) (n m : Nat) : State := s.setFlag (CAN_MO_STAT_LOCKED n m) true
/-- The frame in the words of object `m`. -/
def State.moFrame (s : State) (n m : Nat) : CanFrm :=
  { id := s.reg (CAN_MO_ID n m), fmt := s.reg (CAN_MO_FMT n m), data := (List.range 16).map (fun k => s.reg (CAN_MO_DATA n m k)) }
/-- CMD.UNLOCK, with RELEASE or without (R183, R184). -/
def State.moUnlock (s : State) (n m : Nat) (release : Bool) : State :=
  if !s.flag (CAN_MO_STAT_LOCKED n m) then s else
  let s := s.setFlag (CAN_MO_STAT_LOCKED n m) false
  if s.flag (CAN_MO_CFG_DIR n m) then s.setMoShadow n m (some (s.moFrame n m, 0, 0))
  else
    let s := if release then s.setFlag (CAN_MO_STAT_FULL n m) false else s
    if s.flag (CAN_MO_STAT_SHADOW n m) then
      match s.moShadow n m with
      | none => s
      | some (f, ts, tts) =>
        let was := s.flag (CAN_MO_STAT_FULL n m)
        let s := (s.moFill n m f ts tts).setMoShadow n m none
        let s := ((s.setFlag (CAN_MO_STAT_FULL n m) true).setFlag (CAN_MO_STAT_SHADOW n m) false).canIrq n 0
        if was then s.moOverrun n m else s
    else s

/-! ### Requests (R185, R186) -/

/-- A request of object `m` ends with a TXRES code (R186). -/
def State.txDone (s : State) (n m res : Nat) : State :=
  ((s.setFlag (CAN_MO_STAT_TXREQ n m) false).setFld (CAN_MO_STAT_TXRES n m) res).canIrq n 1
/-- The controller sends object `m` now. -/
def State.sending (s : State) (n m : Nat) : Bool := ((s.canSt n).tx.map (fun t => t.obj == some m)).getD false
/-- CMD.TXREQ (R186). -/
def State.moTxreq (s : State) (n m : Nat) : State :=
  if !s.flag (CAN_MO_CFG_VALID n m) || !s.flag (CAN_MO_CFG_DIR n m) || s.flag (CAN_MO_STAT_TXREQ n m)
    || s.fld (CAN_MO_CFG_TTMODE n m) == 1 then s
  else
    let s := ((s.setFlag (CAN_MO_STAT_TXREQ n m) true).setFld (CAN_MO_STAT_TRIES n m) 0).setFld (CAN_MO_STAT_TXRES n m) 0
    s.setCan n { s.canSt n with fails := storeSet (fun _ => 0) (s.canSt n).fails m 0 }
/-- CMD.TXABORT (R186). -/
def State.moAbort (s : State) (n m : Nat) : State :=
  if !s.flag (CAN_MO_STAT_TXREQ n m) then s
  else if s.sending n m then
    s.setCan n { s.canSt n with tx := (s.canSt n).tx.map (fun t => { t with abort := true }) }
  else s.txDone n m 3
/-- A write of CMD: LOCK, UNLOCK, TXREQ, TXABORT in this order (R183, R186). -/
def State.moCmd (s : State) (n m : Nat) (v : Word) : State :=
  let s := if v.getLsbD 0 then s.moLock n m else s
  let s := if v.getLsbD 1 then s.moUnlock n m (v.getLsbD 2) else s
  let s := if v.getLsbD 3 then s.moTxreq n m else s
  if v.getLsbD 4 then s.moAbort n m else s

/-- The arbitration field as it goes out, most significant first: base identifier, RTR or SRR, IDE, extension, RTR (R185). -/
def arbField (f : CanFrm) : Nat :=
  let id := bits f.id 28 0
  let fd := f.fmt.getLsbD 4
  let rtr := bit (f.id.getLsbD 30 && !fd)
  if f.id.getLsbD 29 then id / 2 ^ 18 * 2 ^ 21 + 2 ^ 20 + 2 ^ 19 + id % 2 ^ 18 * 2 + rtr
  else id / 2 ^ 18 * 2 ^ 21 + rtr * 2 ^ 20

/-- The controller may start a frame: it takes part, the bus is idle, and no low-power entry is in its prepare phase (R185, R189). -/
def State.canMayStart (s : State) (n : Nat) : Bool :=
  s.flag (CAN_STAT_IDLE n) && !s.flag (CAN_STAT_INITACK n) && !s.flag (CAN_CTRL_INIT n) && !s.flag (CAN_CTRL_MON n)
    && s.fld (CAN_STAT_FCS n) != 2 && (s.canSt n).tx.isNone && s.domOn 10 && s.pwr.vote.isNone

/-! ### The guardian (R178, R197, R198) -/

/-- The guardian oscillator is measured at `f` kHz; its fault begins where it closes (R198, R278). -/
def State.guardMeasure (s : State) (n f : Nat) : State :=
  if !s.flag (CAN_CTRL_TTEN n) then s else
  let x := s.canSt n
  let jump := match x.gFreq with
    | none => false
    | some p => decide (p < 100 * (if f < p then p - f else f - p))
  let bad := decide (f < 30000 ∨ 50000 < f) || jump
  let k := if bad then 0 else x.gPass + 1
  let s := s.setCan n { x with gFreq := some f, gPass := k, gClosed := bad || (x.gClosed && decide (k < 2)) }
  if bad && !x.gClosed then s.raise (195 + 8 * n) else s
/-- TIME_CLK cycles in NTU of the guardian: whole cycles of its own clock, whose measurement sets its NTU (R198). -/
def State.guardNtu (s : State) (n ns : Nat) : Nat :=
  match (s.canSt n).gFreq with
  | none => s.ntuOf n ns
  | some f => ns * f / 1000000 * 80000 / (max 1 f * s.nomBit n)
/-- The guardian passes the controller's own frames now (R197). -/
def State.guardOpen (s : State) (n : Nat) : Bool :=
  let x := s.canSt n
  let t := s.ttState n
  let g := s.fld (CAN_TT_TIME_GUARD n)
  let ct := s.guardNtu n (s.time.now - x.ctAt)
  let c := s.fld (CAN_TT_STAT_CYC n)
  let mask := fun w => if c < 32 then (s.reg (CAN_GT_MASK_LO n w)).getLsbD c else (s.reg (CAN_GT_MASK_HI n w)).getLsbD (c - 32)
  let next := fun w => if w < s.fld (CAN_TT_TIME_NWINM1 n) then s.fld (CAN_GT_MARK_MARK n (w + 1)) else s.fld (CAN_TT_TIME_CYCLEN n)
  let cyclen := s.fld (CAN_TT_TIME_CYCLEN n)
  let late := 2 * (s.fld (CAN_TT_CFG_REFID n) % 8 + 1) + 75 + g
  !x.gClosed &&
  (if t = 2 ∨ t = 3 ∨ t = 4 then
    (List.range (s.fld (CAN_TT_TIME_NWINM1 n) + 1)).any (fun w =>
      if w = 0 then s.flag (CAN_TT_CFG_PM n) && (decide (cyclen ≤ ct + g ∧ ct ≤ cyclen + late) || decide (ct ≤ late))
      else mask w && decide (s.fld (CAN_GT_MARK_MARK n w) + g ≤ ct) && decide (ct + g < next w))
   else t == 1 && s.flag (CAN_TT_CFG_PM n) && (x.attempt.map (fun a => decide (s.guardNtu n (s.time.now - a) ≤ 75 + g))).getD false)
/-- The guardian passes an acknowledge slot or an active error flag of a frame the controller receives (R197). -/
def State.guardRx (s : State) (n : Nat) : Bool := !(s.canSt n).gClosed && decide (s.ttState n ≠ 0 ∧ s.ttState n ≠ 6)
/-- The controller drives its balls: it is powered, out of INIT, no mere monitor, and not bus-off (R178). -/
def State.canDrives (s : State) (n : Nat) : Bool :=
  s.domOn 10 && !s.flag (CAN_CTRL_INIT n) && !s.flag (CAN_CTRL_MON n) && s.fld (CAN_STAT_FCS n) != 2
/-- CANn_TXEN while the controller sends its own frame, or (`rx`) answers one that it receives (R178). -/
def State.canTxEn (s : State) (n : Nat) (rx : Bool) : Bool :=
  s.canDrives n && (!s.flag (CAN_CTRL_TTEN n) || (if rx then s.guardRx n else s.guardOpen n))
/-- CANn_TX while the controller puts out `b`: high is recessive (R178). -/
def State.canTxBall (s : State) (n : Nat) (b : Bool) : Bool := !s.canDrives n || b
/-- A bit field of controller `n` goes to the bus where TXEN passes it: 0 an acknowledge, 1 an active error flag. -/
def State.canAnswer (s : State) (n k : Nat) : State := if s.canTxEn n true then s.emit (.canBit n k) else s

/-! ### Attempts (R185, R191) -/

/-- A start of frame falls now: its schedule count, cycle and cycle time (MO TS, TTS). -/
def State.canSof (s : State) (n : Nat) : CanRxing :=
  { ts := s.cyc0, at_ := s.time.now, own := false, set := s.ttSetNow n,
    tts := if s.flag (CAN_CTRL_TTEN n) then w32 (s.canCT n % 65536 + 65536 * s.fld (CAN_TT_STAT_CYC n)) else 0 }
/-- The guardian's opening in LISTEN starts with a reference attempt, at most once in STARTWAIT NTU (R197). -/
def State.guardAttempt (s : State) (n : Nat) : State :=
  let x := s.canSt n
  let again := match x.attempt with
    | none => true
    | some a => decide (s.fld (CAN_TT_START_STARTWAIT n) ≤ s.guardNtu n (s.time.now - a))
  if again then s.setCan n { x with attempt := some s.time.now } else s
/-- A transmit attempt starts (R185); whether the guardian passes its start is kept, and one it does not pass is no start of frame on the bus
(R192, R197). -/
def State.canStart (s : State) (n : Nat) (obj : Option Nat) (f : CanFrm) (excl : Bool) : State :=
  let s := if obj.isNone && s.ttState n == 1 then s.guardAttempt n else s
  let z := s.canSof n
  let shut := !s.canTxEn n false
  let s := (s.setFlag (CAN_STAT_IDLE n) false).setFlag (CAN_STAT_TXING n) true
  let x := s.canSt n
  s.setCan n { x with tx := some ⟨obj, s.asSent n f, z.ts, z.at_, z.tts, false, excl, shut, z.set⟩, sofAt := if shut then x.sofAt else some s.time.now }

/-- The pending object with the lowest arbitration field among those `ok` allows (R185); an FD frame waits while FDEN is 0. (log 126, DESIGN CHOICE) -/
def State.pickObj (s : State) (n : Nat) (ok : Nat → Bool) : Option Nat :=
  ((List.range 128).filter (fun m => s.flag (CAN_MO_STAT_TXREQ n m) && s.flag (CAN_MO_CFG_VALID n m) && s.flag (CAN_MO_CFG_DIR n m) && (s.flag (CAN_CTRL_FDEN n) || !(s.pubFrame n m).fmt.getLsbD 4) && ok m)).foldl
    (fun (best : Option Nat) m => match best with
      | none => some m
      | some b => if arbField (s.pubFrame n m) < arbField (s.pubFrame n b) then some m else some b) none

/-- The exclusive frame of object `o` is withheld (R191). -/
def State.withheld (s : State) (n o : Nat) : State := ((s.setFld (CAN_MO_STAT_TXRES n o) 4).canCount n 15).canIrq n 10
/-- The own exclusive frame of the current window starts or is withheld, by the cycle time in CAN_CLK cycles (R191). -/
def State.exclStart (s : State) (n : Nat) : State :=
  let x := s.canSt n
  let w := x.win
  let o := (ttCell s.reg n (s.fld (CAN_TT_STAT_CYC n)) w).2
  let f := s.pubFrame n o
  let s := s.setCan n { x with exclDue := false }
  if winEnd s.reg n w * s.nomBit n < s.canClk n + (s.fld (CAN_TT_TIME_GUARD n) + s.frmL n f) * s.nomBit n then s.withheld n o
  else s.canStart n (some o) f true

/-- Before a start of frame the controller picks what it sends, in window 0 nothing (R185, R191). An FD frame in an own exclusive cell does not start
while FDEN is 0. (log 154, DESIGN CHOICE) -/
def State.canTxStart (s : State) (n : Nat) : State :=
  if !s.canMayStart n then s
  else if !s.flag (CAN_CTRL_TTEN n) then
    match s.pickObj n (fun m => let t := s.fld (CAN_MO_CFG_TTMODE n m); t == 0 || t == 3) with
    | none => s
    | some m => s.canStart n (some m) (s.pubFrame n m) false
  else
    let t := s.ttState n
    if !(t == 2 || t == 3 || t == 4) then s else
    let x := s.canSt n
    let cell := ttCell s.reg n (s.fld (CAN_TT_STAT_CYC n)) x.win
    if x.win = 0 then s
    else if cell.1 = 2 ∧ x.exclDue then (if (s.pubFrame n cell.2).fmt.getLsbD 4 && !s.flag (CAN_CTRL_FDEN n) then s else s.exclStart n)
    else if cell.1 = 3 ∧ x.exclDue then
      match s.pickObj n (fun m => s.fld (CAN_MO_CFG_TTMODE n m) == 2
          && decide (s.canClk n + (s.frmL n (s.pubFrame n m) + s.fld (CAN_TT_TIME_GUARD n)) * s.nomBit n ≤ winEnd s.reg n x.win * s.nomBit n)) with
      | none => s
      | some m => s.canStart n (some m) (s.pubFrame n m) false
    else s

/-! ### References (R191, R193 to R196) -/

/-- A cycle starts with the reference whose start of frame fell in cycle `t`. -/
def State.cycleStart (s : State) (n t cyc rank : Nat) : State :=
  let s := s.setCan n { s.canSt n with ctAt := t, lastRef := some (t, cyc), misses := 0, win := 0, exclDue := false }
  ((((s.setFld (CAN_TT_STAT_CYC n) cyc).setFld (CAN_TT_STAT_MRANK n) rank).setFld (CAN_TT_STAT_COLL n) 0).canCount n 11).ctShow n

/-- The drift of a reference starting in cycle `t`, where it follows the previous one by one basic cycle (R196). -/
def State.drift (s : State) (n t cyc : Nat) : Option Int :=
  match (s.canSt n).lastRef with
  | none => none
  | some (t0, c0) =>
    if (c0 + 1) % basicCycles (s.reg (CAN_TT_CFG n)) = cyc ∧ (s.canSt n).misses = 0 then
      some (((t - t0) * 2 / 25 : Nat) - (s.fld (CAN_TT_TIME_CYCLEN n) * s.nomBit n : Nat))
    else none

/-- A valid reference of rank `rank` and cycle count `cyc` is received; its start of frame fell in cycle `t`, at which the set that waited then for
cycle 0 applies (R191, R193, R196, R200). Every node but a MASTER measures the drift; a RECEIVER or BACKUP acts on it. A MASTER becomes BACKUP where its own attempt lost to it (`own`). (log 107, DESIGN CHOICE) -/
def State.refReceived (s : State) (n t cyc rank : Nat) (own : Bool) (set : List (Nat × Word)) : State :=
  let st := s.ttState n
  if st = 0 then s else
  let s := if cyc = 0 then s.ttBoundaryAt n set else s
  let d := if st = 2 then none else s.drift n t cyc
  let s := s.cycleStart n t cyc rank
  let s := match d with
    | none => if st = 5 then s.setCan n { s.canSt n with good := 0 } else s
    | some d =>
      let s := s.setRegN (CAN_TT_DRIFT n) (uns 32 d)
      let lim : Int := s.fld (CAN_TT_START_DRIFTLIM n)
      let out := decide (lim < d ∨ d < -lim)
      if out && (st == 3 || st == 4) then
        (((s.setCan n { s.canSt n with left_ := st, good := 0 }).ttSet n 5).canIrq n 12).raise (194 + 8 * n)
      else if st = 5 then
        let g := if out then 0 else (s.canSt n).good + 1
        let s := s.setCan n { s.canSt n with good := g }
        if 2 ≤ g then s.ttSet n (s.canSt n).left_ else s
      else s
  let s := if st = 1 then s.ttSet n (if s.flag (CAN_TT_CFG_PM n) then 3 else 4) else if st = 2 ∧ own then s.ttSet n 3 else s
  s

/-- A received frame acts as a reference where it is one (R191). -/
def State.refCheck (s : State) (n : Nat) (f : CanFrm) (z : CanRxing) : State :=
  let id := bits f.id 28 18
  if !s.flag (CAN_CTRL_TTEN n) || f.id.getLsbD 29 || f.id.getLsbD 30 || f.fmt.getLsbD 4
    || id / 8 != s.fld (CAN_TT_CFG_REFID n) / 8 then s
  else
    let cyc := bits (f.data.getD 0 0) 5 0
    if bits f.fmt 3 0 ≠ 2 ∨ basicCycles (s.reg (CAN_TT_CFG n)) ≤ cyc then s.canCount n 12
    else s.refReceived n z.at_ cyc (id % 8) z.own z.set

/-- The reference this node sends with cycle count `cyc`. -/
def State.refFrame (s : State) (n cyc : Nat) : CanFrm :=
  { id := w32 (s.fld (CAN_TT_CFG_REFID n) * 2 ^ 18), fmt := 2#32, data := [w32 (cyc + 256 * s.fld (CAN_TT_CFG_NODE n))] }
/-- A reference attempt starts; at its start of frame a set that waits for cycle 0 applies (R200). -/
def State.refStart (s : State) (n cyc : Nat) : State :=
  if s.canMayStart n then (if cyc = 0 then s.ttBoundary n else s).canStart n none (s.refFrame n cyc) false else s

/-- The reference this node sent has succeeded: it is the master (R193, R195). -/
def State.refSent (s : State) (n : Nat) (t : CanTx) : State :=
  let cyc := bits (t.frame.data.getD 0 0) 5 0
  (s.cycleStart n t.at_ cyc (s.fld (CAN_TT_CFG_REFID n) % 8)).ttSet n 2

/-- A reference attempt in LISTEN ends in an error after arbitration was won (R194); one that enters bus-off too leaves the node OFF (R193). -/
def State.collision (s : State) (n : Nat) : State :=
  let c := s.fld (CAN_TT_STAT_COLL n) + 1
  let s := (s.setFld (CAN_TT_STAT_COLL n) c).canCount n 16
  if 3 ≤ c ∧ s.ttState n = 1 then ((s.ttSet n 6).canIrq n 11).raise (193 + 8 * n) else s

/-! ### Frames received and sent -/

/-- The controller takes part in what the bus carries: out of INIT, integrated, not bus-off, powered. -/
def State.canListens (s : State) (n : Nat) : Bool :=
  !s.flag (CAN_STAT_INITACK n) && !(s.canSt n).integ && s.fld (CAN_STAT_FCS n) != 2 && s.domOn 10
/-- Another node's start of frame, at its sample point. -/
def State.canRxSof (s : State) (n : Nat) : State :=
  if !s.canListens n || (s.canSt n).rx.isSome || (s.canSt n).tx.isSome then s else
  let z := s.canSof n
  ((s.setFlag (CAN_STAT_IDLE n) false).setFlag (CAN_STAT_RXING n) true).setCan n { s.canSt n with rx := some z, sofAt := some s.time.now }
/-- The frame on the bus has ended: the bus is idle again. -/
def State.canRxOver (s : State) (n : Nat) : State :=
  ((s.setFlag (CAN_STAT_IDLE n) true).setFlag (CAN_STAT_RXING n) false).setCan n { s.canSt n with rx := none }

/-- An error is found in a frame that is received (R187, R190); an error-active controller that drives its balls signals it. (log 92, PRESUMED) -/
def State.canRxErr (s : State) (n : Nat) (e : CanErr) : State :=
  if !s.canListens n || (s.canSt n).tx.isSome then s
  else
    let s := (s.canRxSof n).canRxOver n
    let s := if s.fld (CAN_STAT_FCS n) = 0 then s.canAnswer n 1 else s
    (s.logErr n e).setErr n (s.fld (CAN_ERR_TEC n)) (s.fld (CAN_ERR_REC n) + (if e.alt then 8 else 1))
/-- A valid frame on the bus has been received (R182, R187, R191): REC falls by ISO 11898-1, and the acknowledge slot was answered. An FD frame
is a form error while FDEN is 0. (log 47, PRESUMED; 92, PRESUMED) -/
def State.canReceive (s : State) (n : Nat) (f : CanFrm) : State :=
  if !s.canListens n || (s.canSt n).tx.isSome then s
  else if f.fmt.getLsbD 4 && !s.flag (CAN_CTRL_FDEN n) then s.canRxErr n ⟨2, false, false⟩
  else
    let s := s.canRxSof n
    let z := ((s.canSt n).rx).getD (s.canSof n)
    let s := ((s.canRxOver n).canAnswer n 0).canCount n 0
    let r := s.fld (CAN_ERR_REC n)
    let s := if r = 0 then s else if r ≤ 127 then s.setErr n (s.fld (CAN_ERR_TEC n)) (r - 1)
      else s.drew.setErr n (s.fld (CAN_ERR_TEC n)) (119 + s.freeW.toNat % 9)
    (s.rxStore n f z.ts z.tts).refCheck n f z

/-- The attempt of object `m` has failed (R186). -/
def State.tryFailed (s : State) (n m : Nat) (t : CanTx) : State :=
  let k := storeGet (fun _ => 0) (s.canSt n).fails m + 1
  let s := s.fldSat (CAN_MO_STAT_TRIES n m) 1
  if t.excl then s else
  let s := s.setCan n { s.canSt n with fails := storeSet (fun _ => 0) (s.canSt n).fails m k }
  let r := s.fld (CAN_MO_CFG_RETRY n m)
  if t.abort then s.txDone n m 3
  else if r ≠ 0 ∧ r < k then (s.canCount n 10).txDone n m 2
  else s

/-- The loop delay of a frame that is sent has been measured, where it is an FD frame; one that ends in an error may have passed its FDF bit
or not (R181). (log 106, DESIGN CHOICE) -/
def State.tdcMeasure (s : State) (n : Nat) (f : CanFrm) (e : CanEnd) : State :=
  let w := s.freeW.toNat
  let seen := f.fmt.getLsbD 4 && (match e with
    | .sent => true
    | .lost => false
    | .err _ _ => w.testBit 31)
  if !seen then (if f.fmt.getLsbD 4 then s.drew else s) else
  let s := s.drew.setFld (CAN_TDC_TDCV n) (min 127 (w % 2 ^ 16))
  if 127 < w % 2 ^ 16 then s.setFlag (CAN_STAT_TDCSAT n) true else s

/-- A transmit attempt ends (R181, R186, R187, R193 to R195). One whose start the guardian kept from the bus ends in a bit error: the controller
reads recessive where it sends dominant (R197, R199). The loser of an arbitration receives the winner's frame from its start. -/
def State.canTxEnd (s : State) (n : Nat) (e : CanEnd) : State :=
  match (s.canSt n).tx with
  | none => s
  | some t =>
    let e : CanEnd := if t.shut then .err ⟨5, false, false⟩ false else e
    let s := s.tdcMeasure n t.frame e
    let s := s.setCan n { s.canSt n with tx := none }
    let s := (s.setFlag (CAN_STAT_TXING n) false).setFlag (CAN_STAT_IDLE n) true
    match e with
    | .sent =>
      let s := s.canCount n 1
      let s := s.setErr n (s.fld (CAN_ERR_TEC n) - 1) (s.fld (CAN_ERR_REC n))
      let s := s.emit (.can n t.frame.id.toNat t.frame.fmt.toNat
        (((List.range 16).flatMap (fun k => leBytes 4 (t.frame.data.getD k 0).toNat)).take (frmBytes t.frame)))
      let s := if s.flag (CAN_CTRL_SELFRX n) then s.rxStore n t.frame t.ts t.tts else s
      match t.obj with
      | none => s.refSent n t
      | some m =>
        let s := s.setRegs [(CAN_MO_TS n m, t.ts), (CAN_MO_TTS n m, t.tts)]
        s.txDone n m (if t.abort then 5 else 1)
    | .lost =>
      let s := ((s.canCount n 2).setFlag (CAN_STAT_IDLE n) false).setFlag (CAN_STAT_RXING n) true
      let s := s.setCan n { s.canSt n with rx := some { ts := t.ts, at_ := t.at_, tts := t.tts, own := t.obj.isNone, set := t.set } }
      match t.obj with
      | none => s
      | some m => if t.excl then s else if t.abort then s.txDone n m 3 else s
    | .err e won =>
      let st := s.ttState n
      let s := (s.logErr n e).setErr n (s.fld (CAN_ERR_TEC n) + (if e.alt then 0 else 8)) (s.fld (CAN_ERR_REC n))
      match t.obj with
      | none => if st = 1 && won then s.collision n else s
      | some m => s.tryFailed n m t

/-! ### Initialisation, bus-off, power (R179, R187, R189) -/

/-- The controller enters INIT (R179). -/
def State.initEnter (s : State) (n : Nat) : State :=
  let s := (s.canQuiet n).setCan n { (s.canQuiet n).canSt n with integ := false }
  let s := (s.setFlag (CAN_STAT_INITACK n) true).setFlag (CAN_STAT_BORUN n) false
  s.ttSet n 0
/-- A frame is in progress at controller `n`: its own or another node's. -/
def State.canBusy (s : State) (n : Nat) : Bool := (s.canSt n).tx.isSome || (s.canSt n).rx.isSome
/-- INIT is requested (R179): it takes effect at the end of the frame in progress. -/
def State.initSet (s : State) (n : Nat) : State :=
  let s := s.setFlag (CAN_CTRL_INIT n) true
  if s.flag (CAN_STAT_INITACK n) ∨ s.canBusy n then s else s.initEnter n
/-- The frame in progress has ended and a requested INIT takes effect. -/
def State.initAck (s : State) (n : Nat) : State :=
  if s.flag (CAN_CTRL_INIT n) ∧ !s.flag (CAN_STAT_INITACK n) ∧ !s.canBusy n then s.initEnter n else s
/-- INIT = 0 is written (R179, R193). -/
def State.initLeave (s : State) (n : Nat) : State :=
  if !s.flag (CAN_CTRL_INIT n) || s.flag (CAN_STAT_BADTIM n) then s else
  let s := (s.setFlag (CAN_CTRL_INIT n) false).setFlag (CAN_STAT_INITACK n) false
  let s := (s.canQuiet n).setErr n 0 0
  let s := s.setCan n { s.canSt n with integ := true, lastRef := none, misses := 0 }
  let s := s.ringStart n
  if s.flag (CAN_CTRL_TTEN n) then s.ttSet n 1 else s
/-- 11 recessive bits complete integration. -/
def State.integrated (s : State) (n : Nat) : State :=
  if (s.canSt n).integ then (s.setCan n { s.canSt n with integ := false }).setFlag (CAN_STAT_IDLE n) true else s
/-- BOREC starts recovery in bus-off (R187). -/
def State.borec (s : State) (n : Nat) : State :=
  if s.fld (CAN_STAT_FCS n) = 2 then s.setFlag (CAN_STAT_BORUN n) true else s
/-- Recovery ends (R187). -/
def State.boEnd (s : State) (n : Nat) : State :=
  if !s.flag (CAN_STAT_BORUN n) then s else
  let s := (((s.setFlag (CAN_STAT_BORUN n) false).setErr n 0 0).setFlag (CAN_STAT_IDLE n) true).canIrq n 5
  if s.flag (CAN_CTRL_TTEN n) then s.ttSet n 1 else s

/-- A write of CTRL (R179, R187, R193). -/
def State.canCtrl (s : State) (n : Nat) (v : Word) : State :=
  let s := if s.flag (CAN_STAT_INITACK n) then s.setFlag (CAN_CTRL_TTEN n) (v.getLsbD 7) else s
  let s := ((((s.setFlag (CAN_CTRL_SELFRX n) (v.getLsbD 6)).setFlag (CAN_CTRL_ABOM n) (v.getLsbD 4)).setFlag (CAN_CTRL_MON n) (v.getLsbD 3)).setFlag
    (CAN_CTRL_FDEN n) (v.getLsbD 1)).badTim n
  let s := if v.getLsbD 0 then s.initSet n else s.initLeave n
  let s := if v.getLsbD 5 then s.borec n else s
  if v.getLsbD 8 ∧ s.ttState n = 6 then (s.setFld (CAN_TT_STAT_COLL n) 0).ttSet n 1 else s

/-- The controller integrates again as at INIT release (R189). -/
def State.canRestart (s : State) (n : Nat) : State :=
  if s.flag (CAN_CTRL_INIT n) then s else
  let s := s.canQuiet n
  let s := s.setCan n { s.canSt n with integ := true, lastRef := none, misses := 0 }
  if s.flag (CAN_CTRL_TTEN n) then s.ttSet n 1 else s

/-- A block reset of the controller (R189): configuration stays, state goes. -/
def State.canReset (s : State) (n : Nat) : State :=
  let init := s.flag (CAN_CTRL_INIT n)
  let pubs := (s.canSt n).shadow.filter (fun e => s.flag (CAN_MO_CFG_DIR n e.1))
  let s := s.setCan n { CanSt.reset with shadow := pubs }
  let s := [CAN_STAT n, CAN_ERR n, CAN_ERRLOG n, CAN_IRQ n, CAN_TT_STAT n, CAN_TT_DRIFT n].foldl (fun s a => s.resetReg a) s
  let s := (s.resetRange (CAN_CNT n 0) (CAN_CNT n 17)).resetRange (CAN_TT_EMPTY n 0) (CAN_TT_EMPTY n 32)
  let s := (List.range 128).foldl (fun s m => if s.reg (CAN_MO_STAT n m) = 0 then s else
    s.setReg (CAN_MO_STAT n m) (s.reg (CAN_MO_STAT n m) &&& 0xFFFFFFE8#32)) s
  ((s.setFlag (CAN_STAT_INITACK n) init).badTim n).ringStart n

/-! ### The schedule (R191 to R195) -/

/-- Window `w` is at its mark + GUARD (R191). -/
def State.ttWindow (s : State) (n w : Nat) : State :=
  if !s.ttSync n || decide (s.fld (CAN_TT_TIME_NWINM1 n) < w) then s else
  (s.setCan n { s.canSt n with win := w, exclDue := decide (w ≠ 0) }).canTxStart n
/-- Window `w` ends (R192); its exclusive frame that found no idle bus is withheld (R191). -/
def State.ttWindowEnd (s : State) (n w : Nat) : State :=
  if !s.ttSync n then s else
  let cell := ttCell s.reg n (s.fld (CAN_TT_STAT_CYC n)) w
  let ty := cell.1
  let seen := s.sofSince n (s.fld (CAN_TT_WIN_MARK n w))
  let due := (s.canSt n).exclDue && decide (s.ttState n ≠ 5)
  let s := s.setCan n { s.canSt n with exclDue := false }
  let s := if ty = 2 ∧ due then s.withheld n cell.2 else s
  if (ty = 1 ∨ ty = 2) ∧ !seen then (s.fldSat (CAN_TT_EMPTY_CNT n w) 1).canIrq n 8 else s
/-- A master's basic cycle starts: it sends the reference (R191). -/
def State.basicCycle (s : State) (n : Nat) : State :=
  if s.ttState n = 2 then s.refStart n ((s.fld (CAN_TT_STAT_CYC n) + 1) % basicCycles (s.reg (CAN_TT_CFG n))) else s
/-- STARTWAIT NTU without a reference (R193). -/
def State.startWait (s : State) (n : Nat) : State :=
  if s.ttState n = 1 ∧ s.flag (CAN_TT_CFG_PM n) then s.refStart n 0 else s
/-- No reference by the expected mark + 32 NTU (R193): the schedule goes on by the local clock, in RXONLY too, which counts no miss. -/
def State.refMiss (s : State) (n : Nat) : State :=
  let st := s.ttState n
  if st ≠ 3 ∧ st ≠ 4 ∧ st ≠ 5 then s else
  let k := (s.canSt n).misses + 1
  let s := if st = 5 then s else (s.canCount n 13).canIrq n 13
  let s := s.setCan n { s.canSt n with misses := k, ctAt := s.time.now - 32 * s.nomBit n * 25 / 2, win := 0 }
  let s := s.setFld (CAN_TT_STAT_CYC n) ((s.fld (CAN_TT_STAT_CYC n) + 1) % basicCycles (s.reg (CAN_TT_CFG n)))
  if st ≠ 5 ∧ 2 ≤ k then (s.setCan n { s.canSt n with misses := 0, lastRef := none }).ttSet n 1 else s
/-- A BACKUP takes over (R195). -/
def State.takeover (s : State) (n : Nat) : State :=
  if s.ttState n = 3 ∧ !s.sofSince n (s.fld (CAN_TT_TIME_CYCLEN n)) then s.refStart n ((s.fld (CAN_TT_STAT_CYC n) + 1) % basicCycles (s.reg (CAN_TT_CFG n))) else s

/-- An opening closes during a transmission (R199). -/
def State.guardCut (s : State) (n : Nat) : State :=
  if !s.flag (CAN_CTRL_TTEN n) || (s.canSt n).tx.isNone then s else
  (((s.canCount n 14).canIrq n 9).raise (196 + 8 * n)).canTxEnd n (.err ⟨5, false, false⟩ true)

/-! ### Writes with rules of their own (R179, R184) -/

/-- A write of NBT, DBT, TDC or an object's CFG, accepted only in INIT. -/
def State.canCfgWrite (s : State) (n a : Nat) (v mask : Word) : State :=
  if s.flag (CAN_STAT_INITACK n) then
    let s := s.setReg a ((s.reg a &&& ~~~mask) ||| (v &&& mask))
    let s := s.badTim n
    if CAN_MO_CFG n 0 ≤ a then s.setFld (CAN_RXRING_COUNT n) (s.rxObjs n).length else s
  else s.note
/-- A write of ID, FMT or a data word of object `m` (R184). -/
def State.moWrite (s : State) (n m a : Nat) (v mask : Word) : State :=
  if s.flag (CAN_MO_CFG_VALID n m) && !(s.flag (CAN_MO_CFG_DIR n m) && s.flag (CAN_MO_STAT_LOCKED n m)) then
    s.setFlag (CAN_MO_STAT_WIGN n m) true
  else s.setReg a (v &&& mask)

end Sys2Proof.Machine
end

