-- ==== Sys2Proof/Machine/Nut.lean ====
section
/-! DEFINITION. The Nutmeg cells (R201 to R219): pins, counter and compare, queues, instructions, starts, injection, watchdog, CRC. -/

namespace Sys2Proof.Machine

open Sys2Proof

/-- Cell `c` beside its registers. -/
def State.nutSt (s : State) (c : Nat) : NutSt := storeGet (fun _ => NutSt.reset) s.nut c
/-- Cell `c`'s program runs. -/
def State.nutRuns (s : State) (c : Nat) : Bool := s.flag (NUT_CTRL_EN c) && !(s.nutSt c).armed && !(s.nutSt c).stopped
/-- STAT.STATE of a cell. -/
def nutStateOf (en : Bool) (x : NutSt) : Nat :=
  if !en && x.ip.isNone then 0
  else if x.armed && x.ip.isNone then 1
  else match x.ip with
    | none => 2
    | some (w, _, stall) => if stall then 3 else if w / 4096 = 1 ∨ w / 4096 = 2 then 5 else 4
/-- Cell `c` takes a state; STAT follows. -/
def State.setNut (s : State) (c : Nat) (x : NutSt) : State :=
  let s := { s with nut := storeSet (fun _ => NutSt.reset) s.nut c x }
  let s := (s.setFld (NUT_STAT_STATE c) (nutStateOf (s.flag (NUT_CTRL_EN c)) x)).setFlag (NUT_STAT_STARTPEND c) x.pend
  let s := (s.setFld (NUT_STAT_TXN c) x.txq.length).setFld (NUT_STAT_RXN c) x.rxq.length
  (s.setFlag (NUT_STAT_INJPEND c) x.inj.isSome).setFlag (NUT_INJ_PEND c) x.inj.isSome
/-- A FLAGS bit sets. -/
def State.nutFlag (s : State) (f : Fld) : State := s.setFlag f true

/-! ### The cell clock (R203) -/

/-- The bit period in NUT_CLK cycles. -/
def State.nutDiv (s : State) (c : Nat) : Nat := max 2 (s.fld (NUT_CLK_DIVM1 c) + 1)
/-- NUT_CLK cycles (5 ns) since the cell's last release. -/
def State.nutCyc (s : State) (c : Nat) : Nat := (s.time.now - (s.nutSt c).relAt) / 5
/-- The op field of an instruction word is `k`. -/
def isOp (k w : Nat) : Bool := w / 4096 % 16 == k
/-- The bit boundaries from the last release up to time `t`, and the time of the one numbered `k`. -/
def State.bndNo (s : State) (c t : Nat) : Nat := (t - (s.nutSt c).relAt) / (5 * s.nutDiv c)
def State.bndAt (s : State) (c k : Nat) : Nat := (s.nutSt c).relAt + 5 * s.nutDiv c * k
/-- The sample ticks from the last release up to time `t`, and the time of the one numbered `k`, from 1 (R204). -/
def State.tickPh (s : State) (c : Nat) : Nat := 5 * min (s.fld (NUT_CLK_SPH c)) (s.nutDiv c - 1)
def State.tickNo (s : State) (c t : Nat) : Nat :=
  let z := (s.nutSt c).relAt + s.tickPh c
  if t < z then 0 else (t - z) / (5 * s.nutDiv c) + 1
def State.tickAt (s : State) (c k : Nat) : Nat := (s.nutSt c).relAt + s.tickPh c + 5 * s.nutDiv c * (k - 1)
/-- A clocked instruction is in progress and not stalled (R203). -/
def nutClocked (x : NutSt) : Bool :=
  match x.ip with
  | some (w, _, false) => isOp 1 w || isOp 2 w || (isOp 6 w && w.testBit 7) || (isOp 7 w && w.testBit 11)
  | _ => false
/-- The clock output of cell `c` lies at NOT CPOL at time `t`: a pulse goes on that a boundary began (R203). -/
def State.clkOn (s : State) (c t : Nat) : Bool :=
  let x := s.nutSt c
  let b := s.bndNo c t
  let gone := match x.ip with
    | some (w, _, _) => (isOp 1 w || isOp 2 w) && s.fld (NUT_BC_BC c) == 0
    | none => false
  decide (t < x.pulseEnd) ||
    (nutClocked x && !gone && decide (s.bndNo c x.clkAt < b) && decide (t < s.bndAt c b + 5 * ((s.nutDiv c + 1) / 2)))
/-- Pulses begin at the `k` boundaries after `clkAt`: the end of the last, and the time of the first for the MARK that waits (R203, R207). -/
def State.pulses (s : State) (c k : Nat) : State :=
  if k = 0 then s else
  let x := s.nutSt c
  let b := s.bndNo c x.clkAt
  let s1 := s.setNut c { x with pulseEnd := s.bndAt c (b + k) + 5 * ((s.nutDiv c + 1) / 2), mark := false }
  if x.mark then s1.setReg (NUT_MARKTS c) (s.cyc0 - w32 (s.time.now - s.bndAt c (b + 1))) else s1

/-! ### Pins (R201, R202) -/

/-- What drives pin `i` (0 A, 1 B) of cell `c` at time `t`: the cell's output before INV. -/
def State.nutOut (s : State) (c i t : Nat) : Bool :=
  let x := s.nutSt c
  let p := s.regN (NUT_PINCFG c) / 256 ^ i % 256
  let src := p / 2 % 8
  if src = 1 then x.sout else if src = 2 then s.flag (NUT_CFG_CPOL c) != s.clkOn c t else if src = 3 then x.cout
  else if i = 0 then x.lvlA else x.lvlB
/-- The level that pin `i` of cell `c` drives at time `t` (R202, R384); none where the ball is an input or no cell output reaches it. With
the fault source of DEGRADED in NUT, the outputs are those PINCFG named when the reaction came, which a hold of the block has since
reset. (log 129, DEDUCED) -/
def State.nutBall (s : State) (c i t : Nat) : Option Bool :=
  let kept := if s.mode = modeDEGRADED then s.degPins.map (fun l => (l.getD c 0).toNat) else none
  let p := (kept.getD (s.regN (NUT_PINCFG c))) / 256 ^ i % 256
  let safe := p.testBit 6
  let out := s.nutOut c i t != p.testBit 4
  let drive := p.testBit 5
  let m := if s.mode = modeDEGRADED then s.degFrom else s.mode
  if !p.testBit 0 then none
  else if kept.isSome then some safe
  else if m = modeOPERATIONAL then some out
  else if m = modeCOMMISSION ∨ m = modePREOP ∨ m = modeSAFEOP ∨ m = modeSAFESTOP then some (if drive then safe else out)
  else if m = modeSTROLL ∨ m = modeRETAIN then (if drive then some safe else some out)
  else none
/-- The level at ball NP`b` at time `t`: what its cell drives, else what stands there from outside. -/
def State.npLvl (s : State) (b t : Nat) : Bool := (s.nutBall (b / 2) (b % 2) t).getD (s.np.getLsbD b)
/-- The ball of input `i` of cell `c`: A, B, or the AUX that AUXSEL names (R201). -/
def State.pinNo (s : State) (c i : Nat) : Nat := if i < 2 then 2 * c + i else s.fld (NUT_PINCFG_AUXSEL c)
/-- The level of input `i` of cell `c`, and all three in one number. -/
def State.pinLvl (s : State) (c i : Nat) : Bool := s.npLvl (s.pinNo c i) s.time.now
def State.pinsNow (s : State) (c : Nat) : Nat := bit (s.pinLvl c 0) + 2 * bit (s.pinLvl c 1) + 4 * bit (s.pinLvl c 2)
/-- The shift input of cell `c` at time `t` (ISEL, R204). -/
def State.shInput (s : State) (c t : Nat) : Bool :=
  let i := s.fld (NUT_PINCFG_ISEL c)
  s.npLvl (s.pinNo c (if i = 3 then 1 else i)) t
/-- The balls of A, B and AUX of cell `c` take the levels `p` from outside; a ball of the cell's own that AUX reads has its level already. -/
def State.setLvls (s : State) (c p : Nat) : State :=
  let put := fun (v : BitVec 64) (b : Nat) (l : Bool) => (v &&& ~~~(1#64 <<< b)) ||| (if l then 1#64 <<< b else 0#64)
  let a := s.fld (NUT_PINCFG_AUXSEL c)
  let v := put (put s.np (2 * c) (p.testBit 0)) (2 * c + 1) (p.testBit 1)
  { s with np := if a / 2 = c then v else put v a (p.testBit 2) }

/-! ### Counter and compare (R205) -/

/-- CNT in this cycle: in the free-running modes it has counted the cycles or bit boundaries since `cntAt`, both numbered from the last
release (R203, R205); a stopped cell counts none (R219). (log 102, DEDUCED) -/
def State.nutCnt (s : State) (c : Nat) : Nat :=
  let m := s.fld (NUT_CFG_CMODE c)
  let per := s.regN (NUT_PER c)
  let step := if m = 1 then 5 else if m = 2 then 5 * s.nutDiv c else 0
  let x := s.nutSt c
  let v := s.regN (NUT_CNT c) + (if step = 0 ∨ x.stopped then 0 else (s.time.now - x.relAt) / step - (x.cntAt - x.relAt) / step)
  if step ≠ 0 ∧ per ≠ 0 ∧ s.regN (NUT_CNT c) < per then v % per else v % 2 ^ 32
/-- CNT takes a value. -/
def State.setCnt (s : State) (c v : Nat) : State :=
  (s.setNut c { s.nutSt c with cntAt := s.time.now }).setRegN (NUT_CNT c) v
/-- The register CNT holds the count of this cycle. -/
def State.cntSync (s : State) (c : Nat) : State := s.setCnt c (s.nutCnt c)
/-- The compare output takes an action (R205). -/
def State.cmpAct (s : State) (c a : Nat) : State :=
  let x := s.nutSt c
  s.setNut c { x with cout := if a = 1 then false else if a = 2 then true else if a = 3 then !x.cout else x.cout }
/-- The next instruction is PC + 1, modulo 32 (R206). -/
def State.nutPc (s : State) (c v : Nat) : State := s.setFld (NUT_STAT_PC c) (v % 32)
/-- The instruction in progress completes. -/
def State.nutDone (s : State) (c : Nat) : State :=
  let x := s.nutSt c
  match x.ip with
  | none => s
  | some (_, inj, _) =>
    let s := s.setNut c { x with ip := none }
    if inj then s else s.nutPc c (s.fld (NUT_STAT_PC c) + 1)
/-- A match: the compare output acts, and a WAITC completes (R205, R207). -/
def State.nutMatch (s : State) (c : Nat) : State :=
  let s := s.cmpAct c (s.fld (NUT_CFG_CMPM c))
  let s := s.setNut c { s.nutSt c with matchAt := some s.time.now }
  match (s.nutSt c).ip with
  | some (w, _, _) => if w / 4096 = 8 then s.nutDone c else s
  | none => s
/-- The shadows of CMP and PER become active. -/
def State.cmpApply (s : State) (c : Nat) : State :=
  let x := s.nutSt c
  let s := match x.cmpS with
    | some v => s.setReg (NUT_CMP c) v
    | none => s
  let s := match x.perS with
    | some v => s.setReg (NUT_PER c) v
    | none => s
  s.setNut c { s.nutSt c with cmpS := none, perS := none }
/-- CNT is given a value by a write or a PULL; where that is CMP's it is a match (R205). (log 102, DEDUCED) -/
def State.cntPut (s : State) (c v : Nat) : State :=
  let s := s.setCnt c v
  if v = s.regN (NUT_CMP c) then s.nutMatch c else s
/-- A wrap: CNT is 0, the shadows apply, the wrap action comes last (R205). -/
def State.nutWrap (s : State) (c : Nat) : State :=
  let s := (s.cmpApply c).setCnt c 0
  let s := if s.regN (NUT_CMP c) = 0 then s.nutMatch c else s
  s.cmpAct c (s.fld (NUT_CFG_CMPW c))
/-- CNT wraps only in modes 0b001 and 0b010 with an active PER. -/
def State.wraps (s : State) (c : Nat) : Bool :=
  let m := s.fld (NUT_CFG_CMODE c)
  (m == 1 || m == 2) && s.regN (NUT_PER c) != 0
/-- A write of CMP or PER goes to its shadow, and becomes active at once where no wrap comes. -/
def State.cmpWrite (s : State) (c : Nat) (per : Bool) (v : Word) : State :=
  let s := s.cntSync c
  let x := s.nutSt c
  let s := s.setNut c (if per then { x with perS := some v } else { x with cmpS := some v })
  if s.wraps c then s else s.cmpApply c
/-- CNT reaches CMP in a free-running mode. -/
def State.freeMatch (s : State) (c : Nat) : State :=
  let m := s.fld (NUT_CFG_CMODE c)
  if m = 1 ∨ m = 2 then (s.setCnt c (s.regN (NUT_CMP c))).nutMatch c else s
/-- CNT returns from PER - 1 to 0. -/
def State.freeWrap (s : State) (c : Nat) : State := if s.wraps c then s.nutWrap c else s
/-! ### Queues (R209 to R211) -/

/-- JOIN of the pair cell `c` is in: 0 where not joined. -/
def State.nutJoin (s : State) (c : Nat) : Nat := let j := s.fld (NUT_CFG_JOIN (c / 2 * 2)); if j = 3 then 0 else j
/-- The words cell `c`'s TXQ and RXQ can hold; 0 where it has none. -/
def State.txCap (s : State) (c : Nat) : Nat :=
  let j := s.nutJoin c
  if j = 0 then 4 else if c % 2 = 0 ∧ j = 1 then 16 else 0
def State.rxCap (s : State) (c : Nat) : Nat :=
  let j := s.nutJoin c
  if j = 0 then 4 else if c % 2 = 0 ∧ j = 2 then 16 else 0
/-- An outside write to TXQ (R209). -/
def State.txqPut (s : State) (c : Nat) (v : Word) : State :=
  let x := s.nutSt c
  if s.txCap c ≤ x.txq.length then s.nutFlag (NUT_FLAGS_TXOVF c) else s.setNut c { x with txq := x.txq ++ [v] }
/-- An outside read of RXQ; the JTAG path removes nothing, and any read of an empty queue sets RXUNF (R209). -/
def State.rxqGet (s : State) (c : Nat) (keep : Bool) : State × Word :=
  let x := s.nutSt c
  match x.rxq with
  | [] => (s.nutFlag (NUT_FLAGS_RXUNF c), 0)
  | v :: t => (if keep then s else s.setNut c { x with rxq := t }, v)
/-- The cell takes a word: the word, or that it stalls. -/
def State.nutTake (s : State) (c : Nat) (blk : Bool) : State × Option Word × Bool :=
  let x := s.nutSt c
  match x.txq with
  | v :: t => (s.setNut c { x with txq := t }, some v, false)
  | [] => if blk ∧ 0 < s.txCap c then (s, none, true) else (s.nutFlag (NUT_FLAGS_TXUNF c), none, false)
/-- The cell gives a word: whether it stalls. -/
def State.nutGive (s : State) (c : Nat) (blk : Bool) (v : Word) : State × Bool :=
  let x := s.nutSt c
  if x.rxq.length < s.rxCap c then (s.setNut c { x with rxq := x.rxq ++ [v] }, false)
  else if blk ∧ 0 < s.rxCap c then (s, true) else (s.nutFlag (NUT_FLAGS_RXOVF c), false)

/-! ### Shifts and CRC (R208, R215) -/

/-- One bit updates the CRC state (R215). -/
def State.crcFeed (s : State) (c : Nat) (b : Bool) : State :=
  let l := s.fld (NUT_CRCCFG_LENM1 c) + 1
  let v := s.fld (NUT_CRCST_CRCST c)
  let fb := v.testBit (l - 1) != b
  let t := v * 2 % 2 ^ l
  s.setFld (NUT_CRCST_CRCST c) (if fb then t ^^^ (s.fld (NUT_CRCCFG_POLY c) % 2 ^ l) else t)

/-- The fields of a shift instruction: BLK, AUTO, XC, CRC, n. -/
def shBlk (w : Nat) : Bool := w.testBit 11
def shAuto (w : Nat) : Bool := w.testBit 10
def shCrc (w : Nat) : Bool := w.testBit 8

/-- The stall of the instruction in progress begins or ends; its boundaries and ticks count again from the end on. -/
def State.nutStall (s : State) (c : Nat) (on : Bool) : State :=
  let x := s.nutSt c
  s.setNut c { x with ip := x.ip.map (fun p => (p.1, p.2.1, on)), clkAt := if on then x.clkAt else s.time.now }

/-- One bit of SHIN; false where the shift stalls before it counts as done (R208). -/
def State.shinBit (s : State) (c w : Nat) (b : Bool) : State × Bool :=
  let sr := s.reg (NUT_SR c)
  let sr1 := if s.flag (NUT_CFG_LSBF c) then (sr >>> 1) ||| (if b then 0x80000000#32 else 0) else (sr <<< 1) ||| (if b then 1#32 else 0)
  let s := s.setReg (NUT_SR c) sr1
  let s := if shCrc w then s.crcFeed c b else s
  let n := min 32 (s.fld (NUT_STAT_SRN c) + 1)
  let s := (s.setFld (NUT_STAT_SRN c) n).setFld (NUT_BC_BC c) (s.fld (NUT_BC_BC c) - 1)
  if shAuto w ∧ n = 32 then
    let r := s.nutGive c (shBlk w) sr1
    if r.2 then (r.1, false) else (r.1.setFld (NUT_STAT_SRN c) 0, true)
  else (s, true)
/-- One bit of SHOUT: the bit, or none where the shift stalls (R208). -/
def State.shoutBit (s : State) (c w : Nat) : State × Option Bool :=
  let need := shAuto w && s.fld (NUT_STAT_SRN c) == 0
  let r := if need then s.nutTake c (shBlk w) else (s, some (s.reg (NUT_SR c)), false)
  if r.2.2 then (r.1, none) else
  let s := if need then (r.1.setReg (NUT_SR c) (r.2.1.getD 0)).setFld (NUT_STAT_SRN c) 32 else s
  let sr := s.reg (NUT_SR c)
  let lsb := s.flag (NUT_CFG_LSBF c)
  let b := if lsb then sr.getLsbD 0 else sr.getLsbD 31
  let s := s.setReg (NUT_SR c) (if lsb then sr >>> 1 else sr <<< 1)
  let s := if shCrc w then s.crcFeed c b else s
  ((s.setFld (NUT_STAT_SRN c) (s.fld (NUT_STAT_SRN c) - 1)).setFld (NUT_BC_BC c) (s.fld (NUT_BC_BC c) - 1), some b)
/-- SHIN takes `n` ticks from the one numbered `k` on: it tells the tick at which the shift stalls or ends (R204, R208). -/
def State.shinTicks (c w : Nat) : Nat → Nat → State → State × Option Nat
  | 0, _, s => (s, none)
  | n + 1, k, s =>
    if s.fld (NUT_BC_BC c) = 0 then (s, none) else
    let t := s.tickAt c k
    let r := s.shinBit c w (s.shInput c t)
    if !r.2 then (r.1.nutStall c true, some t)
    else if r.1.fld (NUT_BC_BC c) = 0 then (r.1, some t)
    else State.shinTicks c w n (k + 1) r.1
/-- SHIN takes the ticks at which the levels of A, B and AUX were those of the list. -/
def State.shinGiven (c w : Nat) : List (Fin 8) → State → State
  | [], s => s
  | p :: l, s =>
    if s.fld (NUT_BC_BC c) = 0 then s else
    let s := s.setLvls c p
    let r := s.shinBit c w (s.shInput c s.time.now)
    if r.2 then State.shinGiven c w l r.1 else r.1.nutStall c true
/-- SHOUT presents its bits until it ends or stalls. -/
def State.shoutRun (c w : Nat) : Nat → State × List Bool → State × List Bool
  | 0, a => a
  | n + 1, (s, l) =>
    if s.fld (NUT_BC_BC c) = 0 then (s, l) else
    match s.shoutBit c w with
    | (s, none) => (s.nutStall c true, l)
    | (s, some b) => State.shoutRun c w n (s.setNut c { s.nutSt c with sout := b }, l ++ [b])
/-- The instruction in progress has run up to time `lim`: the bits a shift has moved at its ticks or boundaries, the clock pulses begun, a
WAITP whose first tick after the edge has come (R203, R204, R208). A boundary counts for an instruction that issued before it and has not
completed by it. (log 128, DEDUCED) -/
def State.nutSync (s : State) (c lim : Nat) : State :=
  let x := s.nutSt c
  if x.stopped || decide (lim ≤ x.clkAt) then s else
  let s := match x.ip with
    | some (w, _, false) =>
      let b := s.bndNo c x.clkAt
      if isOp 1 w then
        if s.fld (NUT_BC_BC c) = 0 then s else
        let k := s.tickNo c x.clkAt
        let r := State.shinTicks c w (s.tickNo c lim - k) (k + 1) s
        r.1.pulses c (s.bndNo c ((r.2.map (· - 1)).getD lim) - b)
      else if isOp 2 w then
        let r := State.shoutRun c w (s.bndNo c lim - b) (s, [])
        let s := r.1.pulses c r.2.length
        if r.2.isEmpty then s else s.emit (.nut c r.2)
      else
        let till := min lim ((x.plock.map (· - 1)).getD lim)
        let s := if nutClocked x then s.pulses c (s.bndNo c till - b) else s
        if (x.plock.map (fun t => decide (t ≤ lim))).getD false then s.nutDone c else s
    | _ => s
  s.setNut c { s.nutSt c with clkAt := lim }
/-- Cell `c` is shown as it stands now: STAT.PINS holds the levels of its inputs (R201). -/
def State.nutShow (s : State) (c : Nat) : State :=
  let s := s.nutSync c s.time.now
  s.setFld (NUT_STAT_PINS c) (s.pinsNow c)
/-- The cells whose MARK waits for a pulse have run through this cycle, whose schedule count a pulse takes (R207, R216). -/
def State.nutMarks (s : State) : State :=
  (List.range 32).foldl (fun s c => if (s.nutSt c).mark then s.nutSync c s.time.now else s) s
/-- The cells with an instruction in progress have run through this cycle: their FLAGS are what they read now (R217). -/
def State.nutLive (s : State) : State :=
  (List.range 32).foldl (fun s c => if (s.nutSt c).ip.isSome then s.nutSync c s.time.now else s) s
/-- Every cell has run up to the cycle before this one. -/
def State.nutSyncAll (s : State) : State := (List.range 32).foldl (fun s c => s.nutSync c (s.time.now - 1)) s
/-- The levels at the balls of A, B and AUX of cell `c` become `p` (R201). -/
def State.putPins (s : State) (c p : Nat) : State := s.nutSyncAll.setLvls c p
/-- The shift in progress reaches its last tick or boundary (R208), the inputs having stood at the levels of the list at the ticks that have
not been taken. -/
def State.shiftEnd (s : State) (c : Nat) (samples : List (Fin 8)) : State :=
  let x := s.nutSt c
  match x.ip with
  | some (w, _, false) =>
    let s := if isOp 1 w then
        let n := s.tickNo c s.time.now - s.tickNo c x.clkAt - samples.length
        let s1 := State.shinGiven c w samples s
        let s1 := if ((s1.nutSt c).ip.map (fun p => p.2.2)) = some false then (State.shinTicks c w n (s.tickNo c s.time.now + 1 - n) s1).1 else s1
        s1.pulses c (s.bndNo c (s.time.now - 1) - s.bndNo c x.clkAt)
      else if isOp 2 w then
        let r := State.shoutRun c w 65535 (s.nutSync c (s.time.now - 1), [])
        if r.2.isEmpty then r.1 else r.1.emit (.nut c r.2)
      else s
    let s := s.setNut c { s.nutSt c with clkAt := s.time.now }
    if (isOp 1 w || isOp 2 w) ∧ s.fld (NUT_BC_BC c) = 0 ∧ ((s.nutSt c).ip.map (fun p => p.2.2)) = some false then s.nutDone c else s
  | _ => s

/-! ### Counted edges (R205) -/

/-- CNT changes by one step of an edge mode; in STROLL a live cell only counts (R314). -/
def State.cntStep (s : State) (c : Nat) (d : Int) : State :=
  let v := uns 32 ((s.regN (NUT_CNT c) : Int) + d)
  if s.asleep then s.setCnt c v else s.cntPut c v
/-- The filter of input `i` has seen its level for FILT cycles, the last one having lasted FILT + 2, of 40 ns each while asleep (R205, R314). -/
def State.filtOk (s : State) (c i k : Nat) : Bool :=
  match storeGet (fun _ => none) (s.nutSt c).fAt i with
  | none => true
  | some t => decide (k * (s.fld (NUT_CFG_FILT c) + 2) * (if s.asleep then 40 else 5) ≤ s.time.now - t)
/-- The filtered level of input `i` becomes `l`. -/
def State.setFilt (s : State) (c i : Nat) (l : Bool) : State :=
  let x := s.nutSt c
  s.setNut c { x with fp := if l = x.fp.testBit i then x.fp else x.fp ^^^ 2 ^ i,
                      fAt := storeSet (fun _ => none) x.fAt i (some s.time.now) }
/-- A filtered edge: A and B are seen at the levels of `pins` (R205). -/
def State.countEdge (s : State) (c pins : Nat) : State :=
  let s := s.putPins c pins
  let f := (s.nutSt c).fp
  let a0 := f.testBit 0
  let b0 := f.testBit 1
  let a := if s.filtOk c 0 1 then s.pinLvl c 0 else a0
  let b := if s.filtOk c 1 1 then s.pinLvl c 1 else b0
  let s := if a = a0 then s else s.setFilt c 0 a
  let s := if b = b0 then s else s.setFilt c 1 b
  let m := s.fld (NUT_CFG_CMODE c)
  if m = 3 then
    if a ≠ a0 ∧ b ≠ b0 then s.nutFlag (NUT_FLAGS_QERR c)
    else if a ≠ a0 then s.cntStep c (if a ≠ b then 1 else -1)
    else if b ≠ b0 then s.cntStep c (if a = b then 1 else -1)
    else s
  else if m = 4 then (if a && !a0 then s.cntStep c (if b then -1 else 1) else s)
  else if m = 5 then (if a && !a0 then s.cntStep c 1 else s)
  else s
/-- A filtered rising edge of AUX with ZCAP (R205). -/
def State.zcap (s : State) (c : Nat) : State :=
  if !s.filtOk c 2 2 then s else
  let s := (s.putPins c (s.pinsNow c ||| 4)).setFilt c 2 true
  if !s.flag (NUT_CFG_ZCAP c) then s else
  let s := s.cntSync c
  (s.setRegs [(NUT_CAPT c, s.reg (NUT_CNT c)), (NUT_CAPTTS c, s.cyc0)]).nutFlag (NUT_FLAGS_ZEV c)

/-! ### Releases and starts (R212) -/

/-- A release: the bit timer restarts, STARTTS records, CNTRST applies (R205, R212). -/
def State.nutRelease (s : State) (c : Nat) : State :=
  let s := ((s.cntSync c).setNut c { (s.cntSync c).nutSt c with relAt := s.time.now, armed := false }).setReg (NUT_STARTTS c) s.cyc0
  if s.flag (NUT_CFG_CNTRST c) then s.nutWrap c else s
/-- A start takes effect (R212). -/
def State.nutStart (s : State) (c : Nat) : State :=
  let s := s.nutSync c s.time.now
  let x := s.nutSt c
  if !s.flag (NUT_CTRL_EN c) || x.stopped then s
  else if x.armed then (s.nutRelease c).nutPc c 0
  else match x.ip with
    | some (w, _, _) =>
      if w / 256 = 2 then (s.nutDone c).nutRelease c
      else if x.pend then s.nutFlag (NUT_FLAGS_STARTOVR c) else s.setNut c { x with pend := true }
    | none => if x.pend then s.nutFlag (NUT_FLAGS_STARTOVR c) else s.setNut c { x with pend := true }
/-- The starts whose release cycle has come, 10 ns after their action's due time, take effect (R212). -/
def State.nutStarts (s : State) : State :=
  (List.range 32).foldl (fun s c =>
    let x := s.nutSt c
    let l := x.starts.filter (fun t => decide (t + 10 ≤ s.time.now))
    if l.isEmpty then s
    else l.foldl (fun s _ => s.nutStart c) (s.setNut c { x with starts := x.starts.filter (fun t => decide (s.time.now < t + 10)) })) s

/-- The cell halts: EN clears and the instruction in progress ends (R207, R212, R218). -/
def State.nutOff (s : State) (c : Nat) : State :=
  let s := s.setFlag (NUT_CTRL_EN c) false
  s.setNut c { s.nutSt c with ip := none, armed := false }
/-- A write of EN = 0: the cell halts and START pending clears (R212). -/
def State.nutHalt (s : State) (c : Nat) : State :=
  let s := s.nutOff c
  s.setNut c { s.nutSt c with pend := false }
/-- An ILLEGAL encoding halts the cell with PC on it (R218). -/
def State.nutIllegal (s : State) (c : Nat) : State := ((s.nutOff c).nutFlag (NUT_FLAGS_ILLEGAL c)).raise (224 + c)
/-- QCLR: both queues empty; a stalled PUSH completes (R211). -/
def State.qclr (s : State) (c : Nat) : State :=
  let s := s.setNut c { s.nutSt c with txq := [], rxq := [] }
  match (s.nutSt c).ip with
  | some (w, _, true) => if w / 4096 = 4 then
      let r := s.nutGive c false (if w % 8 = 0 then s.reg (NUT_SR c) else if w % 8 = 1 then w32 (s.nutCnt c)
        else if w % 8 = 2 then s.reg (NUT_CAPT c) else (s.nutSt c).hold)
      let s := if w % 8 = 0 then r.1.setFld (NUT_STAT_SRN c) 0 else r.1
      (s.nutStall c false).nutDone c else s
  | _ => s
/-- A write of CTRL (R211, R212). -/
def State.nutCtrl (s : State) (c : Nat) (v : Word) : State :=
  let was := s.flag (NUT_CTRL_EN c)
  let s := s.setReg (NUT_CTRL c) (v &&& 0x0FFF0003#32)
  let en := v.getLsbD 0
  let s := if !en then s.nutHalt c
    else if !was && en then
      (if v.getLsbD 1 then s.setNut c { s.nutSt c with armed := true, ip := none }
       else ((s.setNut c { s.nutSt c with armed := false, ip := none }).nutRelease c).nutPc c 0)
    else s.setNut c (s.nutSt c)
  let s := if v.getLsbD 2 then s.nutStart c else s
  if v.getLsbD 3 then s.qclr c else s

/-! ### Instructions (R206, R207) -/

/-- The words a PUSH source or a POS action takes. -/
def State.pushSrc (s : State) (c k : Nat) : Word :=
  if k = 0 then s.reg (NUT_SR c) else if k = 1 then w32 (s.nutCnt c) else if k = 2 then s.reg (NUT_CAPT c) else (s.nutSt c).hold
/-- PULL moves word `v` to its destination (R207). -/
def State.pullDst (s : State) (c k : Nat) (v : Word) : State :=
  if k = 0 then (s.setReg (NUT_SR c) v).setFld (NUT_STAT_SRN c) 32
  else if k = 1 then s.cmpWrite c false v
  else if k = 2 then s.cmpWrite c true v
  else if k = 3 then s.cntPut c v.toNat
  else s.setReg (NUT_X c) (v &&& 0xFFFF#32)

def State.opNop (s : State) (c _w : Nat) : State := s.nutDone c
def State.opHalt (s : State) (c _w : Nat) : State := (s.nutDone c).nutOff c
def State.opWstart (s : State) (c _w : Nat) : State :=
  if (s.nutSt c).pend then ((s.setNut c { s.nutSt c with pend := false }).nutDone c).nutRelease c else s
def State.opMark (s : State) (c _w : Nat) : State := (s.setNut c { s.nutSt c with mark := true }).nutDone c
def State.opCrcclr (s : State) (c _w : Nat) : State :=
  (s.setFld (NUT_CRCST_CRCST c) (s.fld (NUT_CRCVAL_INIT c) % 2 ^ (s.fld (NUT_CRCCFG_LENM1 c) + 1))).nutDone c
def State.opSrclr (s : State) (c _w : Nat) : State := ((s.setReg (NUT_SR c) 0).setFld (NUT_STAT_SRN c) 0).nutDone c
/-- A shift begins: BC takes its count, and a shift of no bits completes. -/
def State.opShift (s : State) (c w : Nat) : State :=
  let n := if w.testBit 9 then s.fld (NUT_X_X c) else w % 32 + 1
  let s := s.setFld (NUT_BC_BC c) n
  if n = 0 then s.nutDone c else s
def State.opShin (s : State) (c w : Nat) : State := s.opShift c w
def State.opShout (s : State) (c w : Nat) : State := s.opShift c w
def State.opPull (s : State) (c w : Nat) : State :=
  if 4 < w % 8 then s.nutIllegal c else
  let r := s.nutTake c (shBlk w)
  if r.2.2 then r.1.nutStall c true
  else match r.2.1 with
    | some v => (r.1.pullDst c (w % 8) v).nutDone c
    | none => r.1.nutDone c
def State.opPush (s : State) (c w : Nat) : State :=
  if 3 < w % 8 then s.nutIllegal c else
  let r := s.nutGive c (shBlk w) (s.pushSrc c (w % 8))
  if r.2 then r.1.nutStall c true
  else (if w % 8 = 0 then r.1.setFld (NUT_STAT_SRN c) 0 else r.1).nutDone c
/-- The level a SETP action leaves. -/
def setpAct (a : Nat) (l : Bool) : Bool := if a = 1 then false else if a = 2 then true else if a = 3 then !l else l
def State.opSetp (s : State) (c w : Nat) : State :=
  let x := s.nutSt c
  (s.setNut c { x with lvlA := setpAct (w / 4 % 4) x.lvlA, lvlB := setpAct (w % 4) x.lvlB }).nutDone c
/-- The condition of a WAITP holds: capture, phase lock, and its completion, with the lock at the first tick after the edge (R204, R207). -/
def State.waitpDone (s : State) (c w : Nat) : State :=
  let s := if w.testBit 5 then
      let s := s.cntSync c
      s.setRegs [(NUT_CAPT c, s.reg (NUT_CNT c)), (NUT_CAPTTS c, s.cyc0)] else s
  let d := s.nutDiv c
  if w.testBit 6 ∧ w.testBit 9 then
    let s := s.setFld (NUT_CLK_SPH c) ((s.nutCyc c % d + d / 2) % d)
    s.setNut c { s.nutSt c with plock := some (s.time.now + 5 * (d / 2)) }
  else s.nutDone c
def State.opWaitp (s : State) (c w : Nat) : State :=
  let i := w / 1024 % 4
  let k := w / 256 % 4
  if i = 3 then s.nutIllegal c
  else
    let s := s.setNut c { s.nutSt c with wp := s.pinsNow c }
    if k < 2 ∧ s.pinLvl c i = decide (k = 1) then s.waitpDone c w else s
def State.opWaitt (s : State) (_c _w : Nat) : State := s
def State.opWaitc (s : State) (c _w : Nat) : State :=
  if (s.nutSt c).matchAt = some s.time.now then s.nutDone c else s
def State.opLdx (s : State) (c w : Nat) : State := (s.setFld (NUT_X_X c) (w % 4096)).nutDone c
/-- A jump is taken. -/
def State.nutJump (s : State) (c t : Nat) : State := (s.setNut c { s.nutSt c with ip := none }).nutPc c t
def State.opJmp (s : State) (c w : Nat) : State := s.nutJump c (w % 32)
def State.opDjnz (s : State) (c w : Nat) : State :=
  let v := (s.fld (NUT_X_X c) + 65535) % 65536
  let s := s.setFld (NUT_X_X c) v
  if v ≠ 0 then s.nutJump c (w % 32) else s.nutDone c
def State.opJcond (s : State) (c w : Nat) : State :=
  let k := w / 512 % 8
  let l := s.fld (NUT_CRCCFG_LENM1 c) + 1
  let eq := s.fld (NUT_CRCST_CRCST c) % 2 ^ l == s.fld (NUT_CRCVAL_CHK c) % 2 ^ l
  let hit := if k < 6 then s.pinLvl c (k / 2) == decide (k % 2 = 1) else if k = 6 then eq else !eq
  if hit then s.nutJump c (w % 32) else s.nutDone c
def State.opFlag (s : State) (c w : Nat) : State :=
  (s.srcPost 3 c (s.fld (NUT_CFG_CLUSTER c)) (w % 256) c false).nutDone c
def State.opPos (s : State) (c w : Nat) : State :=
  let a := w / 1024 % 4
  let x := s.nutSt c
  let ts := if w.testBit 9 then s.reg (NUT_MARKTS c) else s.cyc0
  let v := if a = 0 then s.reg (NUT_SR c) else w32 (s.nutCnt c)
  let s := if a = 2 then s else s.setNut c { x with hold := v, holdTs := ts }
  let y := s.nutSt c
  let s := if a < 2 then s else
    let s := s.setRegs [(NUT_POS c, y.hold), (NUT_POSTS c, y.holdTs)]
    if s.flag (NUT_CFG_POSOUT c) then s.lauNutmeg c y.hold.toNat y.holdTs.toNat else s
  s.nutDone c

/-- The operation of an instruction word, by op and sub (R207). -/
def nutOp (w : Nat) : State → Nat → Nat → State :=
  match w / 4096 % 16 with
  | 0 => (match w / 256 % 16 with
    | 0 => State.opNop | 1 => State.opHalt | 2 => State.opWstart | 3 => State.opMark | 4 => State.opCrcclr | 5 => State.opSrclr
    | _ => fun s c _ => s.nutIllegal c)
  | 1 => State.opShin | 2 => State.opShout | 3 => State.opPull | 4 => State.opPush | 5 => State.opSetp | 6 => State.opWaitp
  | 7 => State.opWaitt | 8 => State.opWaitc | 9 => State.opLdx | 10 => State.opJmp | 11 => State.opDjnz | 12 => State.opJcond
  | 13 => State.opFlag | 14 => State.opPos | _ => fun s c _ => s.nutIllegal c

/-- The instruction at cell `c`'s PC. -/
def State.nutWord (s : State) (c : Nat) : Nat := s.fld (NUT_PROG_INSTR c (s.fld (NUT_STAT_PC c)))
/-- A running cell between instructions issues the one at its PC where `is` says it is the one meant (R206). -/
def State.nutIssue (s : State) (c : Nat) (is : Nat → Bool) (op : State → Nat → Nat → State) : State :=
  let s := s.nutSync c s.time.now
  let x := s.nutSt c
  let w := s.nutWord c
  if !s.nutRuns c || x.ip.isSome || x.inj.isSome || !is w || !s.domOn 10 then s
  else op (s.setNut c { x with ip := some (w, false, false), clkAt := s.time.now, plock := none }) c w
/-- The instruction is that of op 0 with sub `k`. -/
def isSub (k w : Nat) : Bool := w / 256 % 256 == k
/-- The encoding is ILLEGAL (R207). -/
def isIllegal (w : Nat) : Bool :=
  isOp 15 w || (isOp 0 w && decide (5 < w / 256 % 16)) || (isOp 3 w && decide (4 < w % 8)) || (isOp 4 w && decide (3 < w % 8))
    || (isOp 6 w && w / 1024 % 4 == 3)

/-- The injected instruction issues at a boundary (R213). On a halted or armed cell a JMP starts it at its target. -/
def State.injIssue (s : State) (c : Nat) : State :=
  let s := s.nutSync c s.time.now
  let x := s.nutSt c
  match x.inj with
  | none => s
  | some w =>
    if x.ip.isSome || x.stopped || !s.domOn 10 then s else
    let idle := !s.flag (NUT_CTRL_EN c) || x.armed
    let s := s.setNut c { x with inj := none, ip := some (w, true, false), clkAt := s.time.now, plock := none }
    if idle ∧ isOp 10 w then
      (((s.setFlag (NUT_CTRL_EN c) true).setNut c { s.nutSt c with ip := none, armed := false }).nutRelease c).nutPc c (w % 32)
    else if idle ∧ (isOp 11 w ∨ isOp 12 w) then
      let pc := s.fld (NUT_STAT_PC c)
      (nutOp w s c w).nutPc c pc
    else nutOp w s c w
/-- The instruction in progress is aborted (R213). -/
def State.nutAbort (s : State) (c : Nat) : State :=
  let s := s.nutSync c s.time.now
  match (s.nutSt c).ip with
  | none => s
  | some _ => (s.setNut c { s.nutSt c with ip := none }).nutFlag (NUT_FLAGS_ABORTED c)
/-- A write of INJ (R213). -/
def State.injWrite (s : State) (c : Nat) (v : Word) : State :=
  let x := s.nutSt c
  if x.inj.isSome then s.nutFlag (NUT_FLAGS_INJLOST c)
  else
    let s := s.setNut c { x with inj := some (bits v 15 0) }
    if v.getLsbD 16 then s.nutAbort c else s
/-- LIMIT bit boundaries of a WAITP, a WAITC or a stall have passed (R214). -/
def State.wdogFire (s : State) (c : Nat) : State :=
  if s.fld (NUT_WDOG_LIMIT c) = 0 then s else
  let s := s.nutSync c s.time.now
  match (s.nutSt c).ip with
  | some (w, _, stall) =>
    if stall ∨ isOp 6 w ∨ isOp 8 w then
      (((s.setNut c { s.nutSt c with ip := none }).nutFlag (NUT_FLAGS_TIMEOUT c)).raise (224 + c)).nutPc c (s.fld (NUT_WDOG_VEC c))
    else s
  | none => s
/-- The condition of the WAITP in progress is met (R207). -/
def State.waitpMet (s : State) (c pins : Nat) : State :=
  let s := s.putPins c pins
  let was := (s.nutSt c).wp
  let s := s.setNut c { s.nutSt c with wp := s.pinsNow c }
  match (s.nutSt c).ip with
  | some (w, _, false) =>
    let i := w / 1024 % 4
    let k := w / 256 % 4
    let hit := if k = 0 then !s.pinLvl c i else if k = 1 then s.pinLvl c i
      else if k = 2 then s.pinLvl c i && !was.testBit i else !s.pinLvl c i && was.testBit i
    if isOp 6 w && hit && (s.nutSt c).plock.isNone then s.waitpDone c w else s
  | _ => s
/-- The nth bit boundary of the WAITT in progress has passed. -/
def State.waittEnd (s : State) (c : Nat) : State :=
  let s := s.nutSync c (s.time.now - 1)
  match (s.nutSt c).ip with
  | some (w, _, _) => if isOp 7 w then s.nutDone c else s
  | none => s
/-- A blocked pull, push or shift whose queue has a word or room goes on (R209). -/
def State.nutStallEnd (s : State) (c : Nat) : State :=
  match (s.nutSt c).ip with
  | some (w, _, true) =>
    if isOp 3 w then (s.nutStall c false).opPull c w
    else if isOp 4 w then (s.nutStall c false).opPush c w
    else if isOp 1 w then
      let r := s.nutGive c true (s.reg (NUT_SR c))
      if r.2 then s else
      let s := (r.1.nutStall c false).setFld (NUT_STAT_SRN c) 0
      if s.fld (NUT_BC_BC c) = 0 then s.nutDone c else s
    else if (s.nutSt c).txq.isEmpty then s else s.nutStall c false
  | _ => s

/-- A write of CFG: the shadows of CMP and PER apply where no wrap comes any more (R205); one that changes JOIN needs both cells off and empties their queues (R210). -/
def State.nutCfg (s : State) (c : Nat) (v : Word) : State :=
  let v := v &&& (if c % 2 = 0 then 0x0F03FFFF#32 else 0x0F00FFFF#32)
  let s := s.cntSync c
  if bits v 17 16 = s.fld (NUT_CFG_JOIN c) then
    let s := s.setReg (NUT_CFG c) v
    let s := s.setNut c { s.nutSt c with fp := s.pinsNow c }
    if s.wraps c then s else s.cmpApply c
  else if s.flag (NUT_CTRL_EN c) || s.flag (NUT_CTRL_EN (c + 1)) then s.note
  else
    let s := s.setReg (NUT_CFG c) v
    let s := s.setNut c { s.nutSt c with fp := s.pinsNow c }
    let s := if s.wraps c then s else s.cmpApply c
    (s.setNut c { s.nutSt c with txq := [], rxq := [] }).setNut (c + 1) { s.nutSt (c + 1) with txq := [], rxq := [] }
/-- A write of a PROG word (R218). -/
def State.progWrite (s : State) (c i : Nat) (v : Word) : State :=
  if s.flag (NUT_CTRL_EN c) then (s.nutFlag (NUT_FLAGS_PROGREF c)).note else s.setReg (NUT_PROG c i) (v &&& 0xFFFF#32)

/-! ### Power, reset, pins (R202, R219) -/

/-- A low-power entry: every cell aborts as by FORCE and stops (R219). -/
def State.nutStop (s : State) : State :=
  (List.range 32).foldl (fun s c => let s := (s.nutAbort c).cntSync c; s.setNut c { s.nutSt c with stopped := true }) s
/-- The wake: cells that ran go on at their PC with a fresh bit timer (R219). -/
def State.nutResume (s : State) : State :=
  (List.range 32).foldl (fun s c => s.setNut c { s.nutSt c with stopped := false, relAt := s.time.now, cntAt := s.time.now }) s
/-- A block reset keeps only the PROG words (R219). -/
def State.nutReset (s : State) : State :=
  (List.range 32).foldl (fun s c => s.resetRange (NUT_CTRL c) (NUT_PROG c 0)) { s with nut := [] }

end Sys2Proof.Machine
end

