-- ==== Sys2Proof/Machine/LoopNum.lean ====
section
/-! DEFINITION. Cardamom's numbers (R221, R222): exact fractions, the coefficient word, signals and intermediates with their
exponents, products, sums, the square root and the sine of the test generator. -/

namespace Sys2Proof.Machine

open Sys2Proof

/-- An exact fraction; `d` is positive. -/
structure Q where
  n : Int
  d : Nat
deriving DecidableEq, Repr

/-- An integer as a fraction. -/
def Q.i (z : Int) : Q := ⟨z, 1⟩
/-- `z · 2^e`. -/
def Q.scale (z : Int) (e : Int) : Q := if 0 ≤ e then ⟨z * 2 ^ e.toNat, 1⟩ else ⟨z, 2 ^ (-e).toNat⟩
def Q.add (a b : Q) : Q := if a.d = b.d then ⟨a.n + b.n, a.d⟩ else ⟨a.n * b.d + b.n * a.d, a.d * b.d⟩
def Q.neg (a : Q) : Q := ⟨-a.n, a.d⟩
def Q.sub (a b : Q) : Q := a.add b.neg
def Q.mul (a b : Q) : Q := ⟨a.n * b.n, a.d * b.d⟩
/-- A quotient; the rules of R242 keep every divisor positive, and a divisor of 0 gives 0. -/
def Q.div (a b : Q) : Q :=
  if b.n = 0 then ⟨0, 1⟩ else if 0 < b.n then ⟨a.n * b.d, a.d * b.n.toNat⟩ else ⟨-(a.n * b.d), a.d * (-b.n).toNat⟩
def Q.lt (a b : Q) : Bool := decide (a.n * b.d < b.n * a.d)
def Q.le (a b : Q) : Bool := !b.lt a
def Q.eqv (a b : Q) : Bool := a.n * b.d == b.n * a.d
def Q.abs (a : Q) : Q := ⟨if a.n < 0 then -a.n else a.n, a.d⟩
def Q.minQ (a b : Q) : Q := if b.lt a then b else a
def Q.maxQ (a b : Q) : Q := if a.lt b then b else a
/-- The largest whole number not above `a`. -/
def Q.floor (a : Q) : Int := a.n / a.d
/-- The nearest integer, ties away from zero (R222). -/
def Q.round (a : Q) : Int := rdiv a.n a.d
/-- `round(a · 2^k)`. -/
def Q.roundAt (a : Q) (k : Int) : Int := (a.mul (Q.scale 1 k)).round

/-- A value with the exponent of its form, and whether a word was limited on the way to it. -/
structure Num where
  v : Q
  e : Int
  ovf : Bool
deriving DecidableEq, Repr

/-- Zero. -/
def Num.zero : Num := ⟨⟨0, 1⟩, -32, false⟩

/-- Every `(f, x)` fits exponent `E` (R222 step 6). (log 48, DEDUCED) -/
def fitsE (l : List (Nat × Q)) (E : Int) : Bool :=
  l.all (fun p => let m := p.2.roundAt ((p.1 : Int) - E); decide (m ≤ 2 ^ p.1 - 1 ∧ -(2 ^ p.1 - 1) ≤ m))
/-- The smallest exponent from `E` on, of the next `k`, at which every word fits. -/
def leastE (l : List (Nat × Q)) : Nat → Int → Int
  | 0, E => E
  | k + 1, E => if fitsE l E then E else leastE l k (E + 1)
/-- The exponent of a result (R222 step 6). -/
def expOf (l : List (Nat × Q)) : Int := leastE l 63 (-32)
/-- The mantissa of a word of `f` fractional bits at exponent `E`, limited, and whether it was limited. -/
def mantOf (f : Nat) (E : Int) (x : Q) : Int × Bool :=
  let m := x.roundAt ((f : Int) - E)
  let top : Int := 2 ^ f - 1
  (clampI (-top) top m, decide (m < -top ∨ top < m))

/-- A value renormalised to a word of `f` fractional bits with its own exponent (R222 steps 4 and 6). (log 48, DEDUCED) -/
def renorm (f : Nat) (x : Num) : Num :=
  let E := expOf [(f, x.v)]
  let m := mantOf f E x.v
  ⟨Q.scale m.1 (E - f), E, x.ovf || m.2⟩
/-- A value as a signal with its own exponent. -/
def Num.sig (x : Num) : Num := renorm 23 x

/-- An exact product (R222 step 2). -/
def Num.mul (a b : Num) : Num := ⟨a.v.mul b.v, a.e + b.e, a.ovf || b.ovf⟩
/-- An exact quotient: a product by the divisor's inverse. -/
def Num.div (a b : Num) : Num := ⟨a.v.div b.v, a.e - b.e, a.ovf || b.ovf⟩
def Num.neg (a : Num) : Num := { a with v := a.v.neg }
def Num.abs (a : Num) : Num := { a with v := a.v.abs }

/-- The largest exponent of the terms. -/
def topE (l : List Num) : Int := l.foldl (fun e x => if e < x.e then x.e else e) (-200)
/-- A sum of products: each keeps 64 bits below the binary point of the largest exponent (R222 step 3). -/
def sumN (l : List Num) : Num :=
  let E := topE l
  ⟨l.foldl (fun q x => q.add (Q.scale (x.v.roundAt (64 - E)) (E - 64))) ⟨0, 1⟩, E, l.any (·.ovf)⟩
/-- A sum of operands, exact (R222 step 1). -/
def sumExact (l : List Num) : Num := ⟨l.foldl (fun q x => q.add x.v) ⟨0, 1⟩, topE l, l.any (·.ovf)⟩
/-- A value limited to an exact range (R222 step 5). -/
def Num.limit (x lo hi : Num) : Num :=
  { x with v := (x.v.maxQ lo.v).minQ hi.v, ovf := x.ovf || lo.ovf || hi.ovf }

/-- The value of a coefficient word (R221). -/
def coefNum (w : Word) : Num :=
  let k := sgn 6 (w.toNat / 2 ^ 24)
  ⟨Q.scale (sgn 24 w.toNat) (k - 23), k, false⟩
/-- A value as a coefficient word at the smallest exponent, and whether it was limited (R221). -/
def toCoef (x : Q) : Word × Bool :=
  let E := expOf [(23, x)]
  let m := mantOf 23 E x
  (w32 (uns 24 m.1 + 2 ^ 24 * uns 6 E), m.2)
/-- An integer as an exact operand. -/
def intNum (z : Int) : Num := ⟨Q.i z, 0, false⟩

/-- The integer square root, by `k` bits from the top. -/
def isqrtGo (n : Nat) : Nat → Nat → Nat
  | 0, r => r
  | k + 1, r => let c := r + 2 ^ k; isqrtGo n k (if c * c ≤ n then c else r)
/-- The integer square root of a number below 2^400. -/
def isqrt (n : Nat) : Nat := isqrtGo n 200 0
/-- `round(√x · 2^k)`, `x` not negative. -/
def sqrtAt (x : Q) (k : Int) : Int :=
  let y := (x.mul (Q.scale 4 (2 * k))).floor
  (((isqrt y.toNat + 1) / 2 : Nat) : Int)
/-- The least exponent at which a rounded root fits 40 bits. -/
def sqrtE (x : Q) : Nat → Int → Int
  | 0, E => E
  | k + 1, E => if sqrtAt x (39 - E) ≤ 2 ^ 39 - 1 then E else sqrtE x k (E + 1)
/-- The exact root rounded once to a 40-bit mantissa (R235). -/
def Num.sqrt (x : Num) : Num :=
  let E := sqrtE x.v 63 (-32)
  let m := clampI 0 (2 ^ 39 - 1) (sqrtAt x.v (39 - E))
  ⟨Q.scale m (E - 39), E, x.ovf⟩

/-- The Taylor terms of a sine of a fraction of 2^60, from term `k` on. -/
def sinGo (x2 : Int) : Nat → Nat → Int → Int
  | 0, _, _ => 0
  | f + 1, k, t => t + sinGo x2 f (k + 2) (-(t * x2 / 2 ^ 60) / ((k + 1) * (k + 2) : Nat))
/-- sin(2πφ / 2^32) in units of 2^-60, within 2^-50. (log 72, DESIGN CHOICE) -/
def sinFix (phi : Nat) : Int :=
  let p : Nat := phi % 2 ^ 31
  let r : Nat := if p < 2 ^ 30 then p else 2 ^ 31 - p
  let x60 : Int := Int.ofNat r * 7244019458077122842 / 2 ^ 32
  let s := sinGo (x60 * x60 / 2 ^ 60) 14 1 x60
  if phi % 2 ^ 32 < 2 ^ 31 then s else -s

end Sys2Proof.Machine
end

