-- ==== Sys2Proof/Machine/Loop.lean ====
section
/-! DEFINITION. Cardamom (R220 to R247): triggers and queues, inputs, the stages, compensation, outputs, manual operation, the swap,
the consistency rules, the test generator, capture, the brake test, mode entries and resets. -/

namespace Sys2Proof.Machine

open Sys2Proof

/-- Context `k` beside its registers. -/
def State.ctx (s : State) (k : Nat) : LoopCtx := storeGet (fun _ => LoopCtx.reset) s.loop.ctxs k
/-- Context `k` takes a state. -/
def State.setCtx (s : State) (k : Nat) (x : LoopCtx) : State :=
  { s with loop := { s.loop with ctxs := storeSet (fun _ => LoopCtx.reset) s.loop.ctxs k x } }
/-- LOOP_STAT follows the queues and the evaluation in progress. -/
def State.loopStat (s : State) : State :=
  (s.setFld LOOP_STAT_QLEN (s.loop.hi.length + s.loop.lo.length)).setFlag LOOP_STAT_BUSY s.loop.run.isSome

/-- Coefficient word `i` of the active set of context `k`. -/
def State.coefW (s : State) (k i : Nat) : Word := s.actWord (LOOP_COEF k i)
/-- The mode contexts follow (R238): in DEGRADED the one it was entered from. -/
def State.loopMode (s : State) : Nat := if s.mode = modeDEGRADED then s.degFrom else s.mode
/-- A brake test runs on context `k` (R246). -/
def State.loopTested (s : State) (k : Nat) : Bool := (s.loop.test.map (fun t => t.1 == k)).getD false
/-- Cardamom runs: powered, not held, not in reset, and not quiesced by its vote for a low-power entry (R247, R309). -/
def State.loopOn (s : State) : Bool :=
  s.domOn 9 && !s.isHeld .loop && !decide (Blk.loop ∈ s.fcu.resetting) && !s.pwr.vote.any (fun l => l.contains 7)
/-- Context `k` is evaluated in this mode (R238, R246). -/
def State.loopRuns (s : State) (k : Nat) : Bool :=
  let m := s.loopMode
  s.loopOn && (s.loopTested k || m == modeOPERATIONAL || m == modePREOP || m == modeSAFEOP)

/-- OUTCFG word `j` of a set has DRIVE and a destination (R236). -/
def slotDrives (w : Nat) : Bool := w.testBit 14 && (w % 4 == 1 || w % 4 == 2)
/-- Context `k` has a DRIVE slot. -/
def State.ctxDrives (s : State) (k : Nat) : Bool := (List.range 4).any (fun j => slotDrives (s.coefW k (208 + j)).toNat)
/-- The mode forces manual with MANSAFE (R238, R246). -/
def State.manForced (s : State) (k : Nat) : Bool :=
  s.loopTested k || ((s.loopMode == modePREOP || s.loopMode == modeSAFEOP) && s.ctxDrives k)
/-- STAT of context `k` as it reads: MANACT and TESTING follow (R239, R246). -/
def State.ctxShow (s : State) (k : Nat) : State :=
  (s.setFlag (LOOP_CTX_STAT_MANACT k) (!s.flag (LOOP_CTX_CTRL_AUTO k) || s.manForced k)).setFlag (LOOP_CTX_STAT_TESTING k) (s.loopTested k)

/-! ### Inputs (R227) -/

/-- A source's value by its code; `wide` takes two network values. -/
def State.srcVal (s : State) (code : Nat) (wide : Bool) : Nat :=
  if code < 0x1000 then
    if wide then s.regN (LOOP_NV code) + 2 ^ 32 * (if code < 4095 then s.regN (LOOP_NV (code + 1)) else 0) else s.regN (LOOP_NV code)
  else if code < 0x1020 then s.regN (NUT_POS (code - 0x1000))
  else if code = 0x1040 then s.pair (LAU_ANG_LO 0)
  else if code = 0x1041 then s.regN (LAU_SPD 0)
  else if code = 0x1042 then s.regN (LAU_ACC 0)
  else if code = 0x1048 then s.pair (LAU_ANG_LO 1)
  else if code = 0x1049 then s.regN (LAU_SPD 1)
  else if code = 0x104A then s.regN (LAU_ACC 1)
  else if code = 0x1080 then s.loop.tv.toNat
  else 0
/-- The key a latched source has. -/
def srcKey (code : Nat) (wide : Bool) : Nat := if wide && decide (code < 0x1000) then code + 0x10000 else code
/-- The keys an input slot word names. -/
def slotKeys (w : Nat) : List (Nat × Bool) :=
  let t := w / 2 ^ 29
  let a := w / 2 ^ 13 % 2 ^ 13
  let b := w % 2 ^ 13
  if t = 0 ∨ t = 3 ∨ t = 4 then [(a, false)] else if t = 1 then [(a, false), (b, false)] else if t = 2 then [(a, true), (b, true)] else []
/-- The sources the input slots of context `k` name. -/
def State.inKeys (s : State) (k : Nat) : List (Nat × Bool) := (List.range 8).flatMap (fun i => slotKeys (s.coefW k i).toNat)
/-- The sources the cam stages of context `k` read: angle and speed of an LAU. -/
def State.camKeys (s : State) (k : Nat) : List (Nat × Bool) :=
  (List.range (s.fld (LOOP_CTX_CFG_NSTG k))).flatMap (fun st =>
    if (s.coefW k (16 + 48 * st)).toNat % 8 = 2 then
      (if (s.coefW k (17 + 48 * st)).toNat.testBit 6 then [(0x1048, false), (0x1049, false)] else [(0x1040, false), (0x1041, false)])
    else [])
/-- The values of sources now. -/
def State.latchOf (s : State) (l : List (Nat × Bool)) : List (Nat × Nat) := l.map (fun c => (srcKey c.1 c.2, s.srcVal c.1 c.2))
/-- Angle and speed of each LAU. -/
def lauKeys : List (Nat × Bool) := [(0x1040, false), (0x1041, false), (0x1048, false), (0x1049, false)]
/-- DRIVE slots of an evaluation triggered now follow Cardamom (R238). -/
def State.loopLive (s : State) : Bool := s.loopMode == modeOPERATIONAL && (s.trans.map (·.num)).getD 0 != 10
/-- The latch of a trigger. (log 158, DEDUCED) -/
def State.loopLatch (s : State) (k : Nat) : LoopLatch :=
  { cyc := s.cyc0, at_ := s.time.now, srcs := s.latchOf (s.inKeys k ++ s.camKeys k), lau := s.latchOf lauKeys, live := s.loopLive }

/-! ### Triggers (R223, R224) -/

/-- Context `k` is triggered. -/
def State.trigger (s : State) (k : Nat) : State :=
  if !s.flag LOOP_CTRL_EN ∨ !s.flag (LOOP_CTX_CTRL_EN k) ∨ !s.loopRuns k then s else
  let x := s.ctx k
  let s := s.setCtx k { x with latch := some (s.loopLatch k) }
  if s.flag (LOOP_CTX_STAT_PEND k) then s.countSat (LOOP_CTX_CNT k 1) 1
  else
    let s := s.setFlag (LOOP_CTX_STAT_PEND k) true
    let s := if s.flag (LOOP_CTX_CFG_PRIO k) then { s with loop := { s.loop with hi := s.loop.hi ++ [k] } }
             else { s with loop := { s.loop with lo := s.loop.lo ++ [k] } }
    s.loopStat
/-- The enabled contexts in ascending order. -/
def State.enabledCtx (s : State) : List Nat :=
  s.regs.filterMap (fun e =>
    if 0x41210000 ≤ e.1 ∧ e.1 < 0x41220000 ∧ e.1 % 256 = 0 ∧ e.2.getLsbD 0 then some ((e.1 - 0x41210000) / 256) else none)
/-- Itinerary action 0b011 with group `g`. -/
def State.groupTrigger (s : State) (g : Nat) : State :=
  s.enabledCtx.foldl (fun s k =>
    let t := s.fld (LOOP_CTX_CFG_TRIG k)
    if s.fld (LOOP_CTX_CFG_GROUP k) = g ∧ (t = 0 ∨ t = 2) then s.trigger k else s) s
/-- A write of a network value, which then triggers the contexts bound to it. -/
def State.nvWrite (s : State) (i : Nat) (v : Word) : State :=
  let s := s.setReg (LOOP_NV i) v
  s.enabledCtx.foldl (fun s k =>
    let t := s.fld (LOOP_CTX_CFG_TRIG k)
    if s.fld (LOOP_CTX_CFG_TRIGNV k) = i ∧ (t = 1 ∨ t = 2) then s.trigger k else s) s
/-- Context `k` leaves its queue without evaluation. -/
def State.unqueue (s : State) (k : Nat) : State :=
  let s := s.setFlag (LOOP_CTX_STAT_PEND k) false
  ({ s with loop := { s.loop with hi := s.loop.hi.filter (· != k), lo := s.loop.lo.filter (· != k) } }).loopStat
/-- A notice of Cardamom on channel 87 (R340); firmware, where it runs, takes it and sends the host its copy (R349). (log 166, DEDUCED) -/
def State.loopNotice (s : State) (event k : Nat) : State :=
  let body := [b8 event, b8 k, 0, 0] ++ leBytes 4 s.cyc0.toNat
  let m := padTo 64 (([0, 0, 0, 0] : List Byte) ++ leBytes 2 0x06FF ++ leBytes 2 8 ++ leBytes 8 0 ++ body)
  if s.chanFull 87 then s.chanRefuse 87
  else if s.fw.running then ((s.chanPush 87 m).setChan 87 (s.chan 87)).fwNotice 0x06FF body
  else s.chanPush 87 m

/-! ### The set (R229 to R242) -/

/-- COST of a context over its set (R226). (log 73, DESIGN CHOICE) -/
def State.loopCost (s : State) (get : Nat → Word) (k : Nat) : Nat :=
  let c (i : Nat) : Nat := (get (LOOP_COEF k i)).toNat
  let stage (st : Nat) : Nat :=
    let h := c (16 + 48 * st)
    match h % 8 with
    | 1 => if h.testBit 28 then 64 else 48
    | 2 => 64
    | 3 => 16
    | 4 => if h.testBit 27 then 40 else 20
    | 5 => 40
    | 6 => 24
    | _ => 0
  let nstg := bits (get (LOOP_CTX_CFG k)) 2 0
  56 + ((List.range 4).foldl (fun n st => if st < nstg then n + stage st else n) 0) + (if (c 228).testBit 0 then 28 else 0)
    + (if (c 228).testBit 1 then 32 else 0) + (if s.fld LOOP_TSG_CTRL_CTX = k then 8 else 0)
    + (if s.fld LOOP_CAP_CTRL_CTX = k then 8 else 0)
/-- LOOP_BUDGET as it reads. -/
def State.budgetShow (s : State) : State :=
  s.setRegN LOOP_BUDGET ((s.enabledCtx.foldl (fun n k => n + s.fld (LOOP_CTX_RATE_RATE k) * s.loopCost s.actWord k) 0) / 1000)

/-- An operand code a stage may name (R230). -/
def opOk (st code : Nat) : Bool :=
  decide (code ≤ 8) || code == 0x20 || (decide (0x10 ≤ code ∧ code < 0x1C) && decide ((code - 0x10) % 4 < st))
/-- A SEL code (R242 rule 2). -/
def selOpOk (code : Nat) : Bool := decide (code ≤ 8) || code == 0x20 || code == 0x30 || decide (0x10 ≤ code ∧ code < 0x1C)
/-- A 64-bit source (R242 rule 6). -/
def wideOk (code : Nat) : Bool := decide (code < 4095) || code == 0x1040 || code == 0x1048
/-- The first of a list of failing checks. -/
def firstBad (l : List (Bool × Nat × Nat)) : Option (Nat × Nat) := (l.find? (·.1)).map (·.2)

/-- The consistency rules of context `k` over a candidate set (R242): the failing rule and the lowest register it names. -/
def State.loopBad (s : State) (get : Nat → Word) (k : Nat) : Option (Nat × Nat) :=
  let c (i : Nat) : Nat := (get (LOOP_COEF k i)).toNat
  let q (i : Nat) : Q := (coefNum (get (LOOP_COEF k i))).v
  let z : Q := ⟨0, 1⟩
  let a (i : Nat) : Nat := LOOP_COEF k i
  let cfg := get (LOOP_CTX_CFG k)
  let nstg := bits cfg 2 0
  let man := bits cfg 26 24
  let sts := (List.range 4).filter (· < nstg)
  let b (st : Nat) : Nat := 16 + 48 * st
  let r1 := (decide (4 < nstg), 1, LOOP_CTX_CFG k) :: sts.map (fun st => (c (b st) % 8 == 7, 1, a (b st)))
  let r2 := sts.flatMap (fun st =>
      let h := c (b st)
      [(!(opOk st (h / 8 % 256) && opOk st (h / 2 ^ 11 % 256) && opOk st (h / 2 ^ 19 % 256)), 2, a (b st)),
       (h % 8 == 1 && !opOk st (c (b st + 9) % 256), 2, a (b st + 9))] ++
      (List.range 8).map (fun j => (h % 8 == 6 && !opOk st (c (b st + 1 + j / 4) / 2 ^ (8 * (j % 4)) % 256), 2, a (b st + 1 + j / 4))))
    ++ (List.range 4).map (fun j => (!selOpOk (c (208 + j) / 2 ^ 15 % 256), 2, a (208 + j)))
  let r3 := sts.flatMap (fun st =>
      let o := b st
      let pid := c o % 8 == 1
      [(pid && (q (o + 6)).lt (q (o + 5)), 3, a (o + 5)), (pid && (q (o + 8)).lt (q (o + 7)), 3, a (o + 7)),
       (pid && ((q (o + 4)).lt z || (Q.i 1).lt (q (o + 4))), 3, a (o + 4)),
       (pid && (c o).testBit 28 && (q (o + 10)).le z, 3, a (o + 10))])
  let r4 := sts.flatMap (fun st =>
      let o := b st
      (List.range 4).map (fun j => (c o % 8 == 5 && (q (o + 1 + j)).le z, 4, a (o + 1 + j))) ++
      [(c o % 8 == 6 && (q (o + 12)).lt (q (o + 11)), 4, a (o + 11))])
  let r5 := (List.range 4).flatMap (fun j =>
      [(decide (sgn 32 (c (220 + j)) < sgn 32 (c (216 + j))), 5, a (216 + j)),
       (c (208 + j) % 4 == 2 && decide (31 < c (208 + j) / 4 % 4096), 5, a (208 + j))])
  let r6 := (List.range 8).map (fun i =>
      (c i / 2 ^ 29 == 2 && !(wideOk (c i / 2 ^ 13 % 2 ^ 13) && wideOk (c i % 2 ^ 13)), 6, a i))
  let r7 := [(!(decide (man < nstg) || man == 7), 7, LOOP_CTX_CFG k)]
  let r8 := [((c 228).testBit 0 && c 229 == 0, 8, a 228),
             ((c 228).testBit 1 && (c 232 == 0 || (q 234).le z), 8, a 228)]
  let rate (j : Nat) : Nat := bits (get (LOOP_CTX_RATE j)) 16 0
  let en := s.enabledCtx
  let rates := en.foldl (fun n j => n + rate j) 0
  let load := en.foldl (fun n j => n + rate j * s.loopCost get j) 0
  firstBad (r1 ++ r2 ++ r3 ++ r4 ++ r5 ++ r6 ++ r7 ++ r8 ++ [(decide (64000 < rate k), 9, LOOP_CTX_RATE k),
    (decide (4096000 < rates ∨ 950000000 < load), 10, LOOP_CTX_RATE k)])

/-- The bank copy reads a 64-bit word of the active set and writes what of it has not been written since the swap (R240, R296). (log 156, DESIGN CHOICE) -/
def State.bankCopyWord (s : State) (k i : Nat) : State :=
  let a := LOOP_COEF k (2 * i)
  let bank := s.coefBank a
  let todo := [a, a + 4].filter (fun b => (s.shad b).isNone)
  if todo.isEmpty then s else
  let r := s.eccRead (coefMem a bank) (some 177)
  let e := r.1.eccWrite (coefMem a (1 - bank)) (todo.length == 2) none
  if !e.2 then e.1 else
  todo.foldl (fun t b =>
    if r.2 then (t.setMem32 (coefMem b (1 - bank)) t.freeW.toNat).drew else t.setMem32 (coefMem b (1 - bank)) (t.actWord b).toNat) e.1
/-- The bank copy of context `k` ends: every word not written since the swap holds the active set's (R240). With the group off it copies
nothing (R301). -/
def State.bankCopy (s : State) (k : Nat) : State :=
  if !s.flag (LOOP_CTX_STAT_SYNCING k) then s else
  let g := s.sgServe 11
  let s := if g.2 then (List.range 128).foldl (fun s i => s.bankCopyWord k i) g.1 else g.1.note
  s.setFlag (LOOP_CTX_STAT_SYNCING k) false
/-- The shadow set of context `k` becomes active: the banks swap (R240). -/
def State.loopApply (s : State) (k : Nat) : State :=
  let s := (s.bankCopy k).applyShad (.loop k)
  (s.setFlag (LOOP_CTX_STAT_BANK k) (!s.flag (LOOP_CTX_STAT_BANK k))).setFlag (LOOP_CTX_STAT_SYNCING k) true
/-- Context `k` stands at its apply boundary. -/
def State.loopBoundary (s : State) (k : Nat) : State :=
  s.unitBoundary (.loop k) (s.loopBad (fun a => s.candFor [.loop k] [] a) k) (fun s => s.loopApply k)
/-- The boundary of a context with EN = 0 is the moment its shadow is eligible, but never inside its evaluation (R240). -/
def State.loopAtOnce (s : State) (k : Nat) : State :=
  if s.flag (LOOP_CTX_CTRL_EN k) || s.loop.run.any (fun r => r.1 == k) then s else s.loopBoundary k

/-! ### States of a stage -/

/-- State `j` of stage `st` of context `k` (R221). -/
def State.stageState (s : State) (k st j : Nat) : Num :=
  let m := sgn 40 (s.regN (LOOP_STATE k (16 * st + 2 * j)) + 2 ^ 32 * (s.regN (LOOP_STATE k (16 * st + 2 * j + 1)) % 256))
  let e := sgn 6 (s.regN (LOOP_STATE k (64 + st)))
  ⟨Q.scale m (e - 39), e, false⟩
/-- State `j` takes a mantissa, sign-extended in `_HI`. -/
def State.setStageState (s : State) (k st j : Nat) (m : Int) : State :=
  let u := uns 64 m
  (s.setRegN (LOOP_STATE k (16 * st + 2 * j)) u).setRegN (LOOP_STATE k (16 * st + 2 * j + 1)) (u / 2 ^ 32)

/-- What a stage computes: its main and auxiliary outputs, its states, whether it limited its output or its ramp. -/
structure StRes where
  y : Num
  a1 : Num
  a2 : Num
  sts : List Num
  sat : Bool
  lim : Bool

/-- What an evaluation has of a context: its inputs and their raw integers, the generator's value, the outputs of the stages done,
the final output, the latched sources. -/
structure LEnv where
  s : State
  k : Nat
  ins : List Num
  raws : List Int
  gen : Num
  outs : List (Num × Num × Num)
  fin : Num
  src : Nat → Nat

/-- An operand (R230). -/
def LEnv.op (e : LEnv) (code : Nat) : Num :=
  let out (i : Nat) : Num × Num × Num := (e.outs[i]?).getD (Num.zero, Num.zero, Num.zero)
  if 1 ≤ code ∧ code ≤ 8 then (e.ins[code - 1]?).getD Num.zero
  else if 0x10 ≤ code ∧ code < 0x14 then (out (code - 0x10)).1
  else if 0x14 ≤ code ∧ code < 0x18 then (out (code - 0x14)).2.1
  else if 0x18 ≤ code ∧ code < 0x1C then (out (code - 0x18)).2.2
  else if code = 0x20 then e.gen
  else if code = 0x30 then e.fin
  else Num.zero
/-- A coefficient word of the active set as a number. -/
def LEnv.c (e : LEnv) (i : Nat) : Num := coefNum (e.s.coefW e.k i)
/-- A word of the active set as an integer. -/
def LEnv.w (e : LEnv) (i : Nat) : Nat := (e.s.coefW e.k i).toNat
/-- A table word (R220, R243). -/
def LEnv.tab (e : LEnv) (a : Nat) : Num := coefNum (w32 (e.s.mem32 a))

/-- A value between two table words, exact, then an intermediate (R220). -/
def lerp (a b : Num) (t : Q) : Num :=
  Num.sig ⟨a.v.add (t.mul (b.v.sub a.v)), a.e, a.ovf || b.ovf⟩

/-- Word `i` of gain table `g` (R220). -/
def gainAt (g i : Nat) : Nat := 0x20A50000 + g * 0x100 + 4 * i
/-- `gain(r)` of gain table `g` (R232). -/
def LEnv.gain (e : LEnv) (gstep : Num) (g : Nat) (r : Num) : Num :=
  let x := r.v.div gstep.v
  let j := x.floor.toNat
  let at_ (i : Nat) : Num := e.tab (gainAt g i)
  if 63 ≤ j then at_ 63 else lerp (at_ j) (at_ (j + 1)) (x.sub (Q.i j))

/-- A product, scaled by the gain factor where its bit is set. -/
def scaled (on : Bool) (g : Num) (p : Num) : Num := if on then g.mul p.sig else p

/-- The gain of a PID for an input, 1 without a gain table. -/
def LEnv.pidGain (e : LEnv) (o : Nat) (u : Num) : Num :=
  let h := e.w o
  if h.testBit 28 then e.gain (e.c (o + 10)) (e.w (o + 9) / 256 % 256) u.abs else intNum 1

/-- The gain table words of a PID for an input. -/
def LEnv.gainReads (e : LEnv) (o : Nat) (u : Num) : List Nat :=
  if !(e.w o).testBit 28 then [] else
  let g := e.w (o + 9) / 256 % 256
  let j := (u.v.abs.div (e.c (o + 10)).v).floor.toNat
  if 63 ≤ j then [gainAt g 63] else [gainAt g j, gainAt g (j + 1)]

/-- A PID stage at coefficient offset `o` (R232, R239): `man` the value that replaces its output, `pre` the manual value a transfer
presets its integrator from. -/
def LEnv.pid (e : LEnv) (o : Nat) (st : Nat → Num) (u fb : Num) (man pre : Option Num) : StRes :=
  let h := e.w o
  let gten := h.testBit 28
  let g := e.pidGain o u
  let sIn := if h.testBit 27 then fb.neg else u
  let dd := scaled (gten && h.testBit 31) g ((e.c (o + 3)).mul (sumExact [sIn, (st 2).neg]).sig)
  let df := sumN [st 1, (e.c (o + 4)).mul (sumN [dd, (st 1).neg]).sig]
  let p := scaled (gten && h.testBit 29) g ((e.c (o + 1)).mul u)
  let di := scaled (gten && h.testBit 30) g ((e.c (o + 2)).mul u)
  let ff := e.op (e.w (o + 9) % 256)
  let lo := e.c (o + 7)
  let hi := e.c (o + 8)
  let yu := sumN [p, st 0, di, df, ff]
  let z : Q := ⟨0, 1⟩
  let wind := (hi.v.lt yu.v && z.lt di.v) || (yu.v.lt lo.v && di.v.lt z)
  let i := match man, pre with
    | some _, _ => st 0
    | none, some m =>
      if (e.c (o + 2)).v.n = 0 then Num.zero else
      ((sumN [m, p.neg, df.neg, ff.neg]).limit (sumN [lo, p.neg, df.neg, ff.neg]) (sumN [hi, p.neg, df.neg, ff.neg])).limit
        (e.c (o + 5)) (e.c (o + 6))
    | none, none => (sumN [st 0, if wind then Num.zero else di]).limit (e.c (o + 5)) (e.c (o + 6))
  let tot := sumN [p, i, df, ff]
  let y := tot.limit lo hi
  let yo := man.getD y
  ⟨yo, i, df, [i, df, sIn, u, yo, ff], !y.v.eqv tot.v, false⟩

/-- The adjustment of a PID in the evaluation of a swap (R241): its integrator, and whether SATSTG stays. (log 77, DEDUCED) -/
def LEnv.pidSwap (e : LEnv) (o : Nat) (st : Nat → Num) : Num × Bool :=
  let h := e.w o
  let p := scaled (h.testBit 28 && h.testBit 29) (e.pidGain o (st 3)) ((e.c (o + 1)).mul (st 3))
  let lo := e.c (o + 7)
  let hi := e.c (o + 8)
  let i := if (e.c (o + 2)).v.n = 0 then Num.zero else
    ((sumN [st 4, p.neg, (st 1).neg, (st 5).neg]).limit (sumN [lo, p.neg, (st 1).neg, (st 5).neg])
      (sumN [hi, p.neg, (st 1).neg, (st 5).neg])).limit (e.c (o + 5)) (e.c (o + 6))
  let t := sumN [p, i, st 1, st 5]
  (i, t.v.eqv lo.v || t.v.eqv hi.v)

/-- The angle of a cam stage in parts of a cycle (R233). -/
def LEnv.camPhi (e : LEnv) (o : Nat) : Nat :=
  let w := e.w (o + 1)
  (e.src (if w.testBit 6 then 0x1048 else 0x1040) % 2 ^ 32 * (w / 2 ^ 16) + e.w (o + 2)) % 2 ^ 32
/-- Word `i` of cam profile `p`, cyclic (R220, R233). -/
def camAt (p i : Nat) : Nat := 0x20900000 + p * 0x4000 + 4 * (i % 4096)
/-- A cam stage (R233). -/
def LEnv.cam (e : LEnv) (o : Nat) (u : Num) : StRes :=
  let w := e.w (o + 1)
  let cmul : Nat := w / 2 ^ 16
  let key := if w.testBit 6 then 0x1048 else 0x1040
  let phi := e.camPhi o
  let j := phi / 2 ^ 20
  let t : Q := ⟨((phi % 2 ^ 20 : Nat) : Int), 2 ^ 20⟩
  let pt (i : Nat) : Num := e.tab (camAt (w % 64) i)
  let y0 := pt (j + 4095)
  let y1 := pt j
  let y2 := pt (j + 1)
  let y3 := pt (j + 2)
  let k (n : Int) (y : Num) : Q := (Q.i n).mul y.v
  let A := y2.v.sub y0.v
  let B := ((k 2 y0).sub (k 5 y1)).add ((k 4 y2).sub y3.v)
  let C := ((k 3 y1).sub (k 3 y2)).add (y3.v.sub y0.v)
  let half : Q := ⟨1, 2⟩
  let cv := Num.sig ⟨y1.v.add ((half.mul t).mul (A.add (t.mul (B.add (t.mul C))))), 0, false⟩
  let dv := Num.sig ⟨half.mul (A.add (t.mul (((Q.i 2).mul B).add (((Q.i 3).mul t).mul C)))), 0, false⟩
  let om := Num.sig ⟨⟨sgn 32 (e.src (key + 1)), 65536⟩, 0, false⟩
  let cg := e.c (o + 3)
  let v := ((Num.sig (cg.mul dv)).mul (intNum (4096 * cmul))).sig.mul om
  ⟨sumN [cg.mul cv, e.c (o + 4), u], v, Num.zero, [], false, false⟩

/-- A gear stage (R234). -/
def LEnv.gear (e : LEnv) (o : Nat) (st : Nat → Num) (u : Num) (fresh : Bool) : StRes :=
  let r := e.c (o + 1)
  if (e.w o).testBit 27 then
    let y := if fresh then sumN [r.mul u, e.c (o + 2)] else sumN [st 0, r.mul (sumExact [u, (st 1).neg]).sig]
    ⟨y, Num.zero, Num.zero, [y, u], false, false⟩
  else ⟨sumN [r.mul u, e.c (o + 2)], Num.zero, Num.zero, [], false, false⟩

/-- One section of a filter (R234). -/
def LEnv.section_ (e : LEnv) (o : Nat) (st : Nat → Num) (x : Num) : Num × List Num :=
  let y := sumN [(e.c o).mul x, (e.c (o + 1)).mul (st 0), (e.c (o + 2)).mul (st 1), ((e.c (o + 3)).mul (st 2)).neg,
    ((e.c (o + 4)).mul (st 3)).neg]
  (y, [x, st 0, y, st 2])
/-- A filter stage (R234). -/
def LEnv.filter_ (e : LEnv) (o : Nat) (st : Nat → Num) (u : Num) : StRes :=
  let f := e.section_ (o + 1) st u
  if (e.w o).testBit 27 then
    let g := e.section_ (o + 6) (fun j => st (j + 4)) f.1.sig
    ⟨g.1, Num.zero, Num.zero, f.2 ++ g.2, false, false⟩
  else ⟨f.1, Num.zero, Num.zero, f.2, false, false⟩

/-- A feed-forward sum stage (R234). -/
def LEnv.ffsum (e : LEnv) (o : Nat) (u : Num) : StRes :=
  let t := sumN (u :: (List.range 8).map (fun j => (e.c (o + 3 + j)).mul (e.op (e.w (o + 1 + j / 4) / 2 ^ (8 * (j % 4)) % 256))))
  let y := t.limit (e.c (o + 11)) (e.c (o + 12))
  ⟨y, Num.zero, Num.zero, [], !y.v.eqv t.v, false⟩

/-- The smaller and the larger of two numbers. -/
def Num.minN (a b : Num) : Num := if b.v.lt a.v then b else a
def Num.maxN (a b : Num) : Num := if a.v.lt b.v then b else a

/-- The acceleration of a ramp after one sample towards the speed `vd` (R46, R235), or none where it settles on it. -/
def rampAcc (v a vd amax jmax ts : Num) : Option Num :=
  let jt := jmax.mul ts
  let jtt := jt.sig.mul ts
  let stop := sumN [v, (a.mul a.abs).sig.div ((intNum 2).mul jmax)]
  let near := (sumExact [vd, v.neg]).v.abs.le jtt.v && a.v.abs.le jt.v
  if near then none
  else if stop.v.lt vd.v then some ((sumN [a, jt]).minN amax)
  else if vd.v.lt stop.v then some ((sumN [a, jt.neg]).maxN amax.neg)
  else if (⟨0, 1⟩ : Q).lt a.v then some ((sumN [a, jt.neg]).maxN Num.zero)
  else some ((sumN [a, jt]).minN Num.zero)

/-- A ramp stage (R235). (log 25, DEDUCED) -/
def LEnv.ramp (e : LEnv) (o : Nat) (st : Nat → Num) (u : Num) : StRes :=
  let vmax := e.c (o + 1)
  let amax := e.c (o + 2)
  let jmax := e.c (o + 3)
  let ts := e.c (o + 4)
  let x := st 0
  let v := st 1
  let a := st 2
  let go (vd : Num) : Num × Num × Num × Bool :=
    let r := rampAcc v a vd amax jmax ts
    let a1 := r.getD Num.zero
    let v0 := if r.isNone then vd else v
    let v1 := sumN [v0, a1.sig.mul ts]
    (sumN [x, v1.sig.mul ts], v1, a1, r.isSome)
  if (e.w o).testBit 27 then
    let r := go u
    ⟨r.2.1, r.2.2.1, r.2.2.1, [r.1, r.2.1, r.2.2.1, st 3], false, r.2.2.1.v.abs.eqv amax.v⟩
  else
    let vt := (sumExact [u, (st 3).neg]).sig.div ts
    let d := sumExact [u, x.neg]
    let dj := (v.abs.mul amax).sig.div jmax
    let room := (Num.maxN (sumN [d.abs, dj.neg]) Num.zero).sig
    let root := (((intNum 2).mul amax).mul room).sqrt
    let vq := sumN [vt, if d.v.n < 0 then root.neg else if d.v.n = 0 then Num.zero else root]
    let vd := vq.limit vmax.neg vmax
    let r := go vd
    let lim := r.2.2.2 || !vd.v.eqv vq.v
    let jt := jmax.mul ts
    let jtt := jt.sig.mul ts
    let jttt := jtt.sig.mul ts
    let home := (sumExact [u, r.1.neg]).v.abs.le jttt.v && r.2.1.v.abs.le jtt.v && r.2.2.1.v.abs.le jt.v
    let x1 := if home then u else r.1
    let v1 := if home then Num.zero else r.2.1
    let a1 := if home then Num.zero else r.2.2.1
    ⟨x1, v1, a1, [x1, v1, a1, u], false, lim⟩

/-- A stage at coefficient offset `o` by its type (R229). (log 77, DEDUCED) -/
def LEnv.stage (e : LEnv) (o : Nat) (st : Nat → Num) (u fb : Num) (man pre : Option Num) (fresh : Bool) : StRes :=
  match e.w o % 8 with
  | 1 => e.pid o st u fb man pre
  | 2 => e.cam o u
  | 3 => e.gear o st u fresh
  | 4 => e.filter_ o st u
  | 5 => e.ramp o st u
  | 6 => e.ffsum o u
  | _ => ⟨u, Num.zero, Num.zero, [], false, false⟩

/-- The table words a stage reads. -/
def LEnv.stageReads (e : LEnv) (o : Nat) (u : Num) (st : Nat → Num) (swap : Bool) : List Nat :=
  match e.w o % 8 with
  | 1 => (if swap then e.gainReads o (st 3) else []) ++ e.gainReads o u
  | 2 => (List.range 4).map (fun i => camAt (e.w (o + 1) % 64) (e.camPhi o / 2 ^ 20 + 4095 + i))
  | _ => []
/-- The words of the active set of context `k`, two at a time. -/
def State.coefReads (s : State) (k : Nat) : List Nat :=
  (List.range 128).map (fun i => coefMem (LOOP_COEF k (2 * i)) (s.fld (LOOP_CTX_STAT_BANK k)))
/-- What an evaluation has gathered: SATSTG, RAMPLIM, EXPOVF, the table words read. -/
structure LAcc where
  sat : Nat
  lim : Bool
  ovf : Bool
  reads : List Nat

/-- Stage `st` of an evaluation: its operands, its results at one exponent, its states (R222, R229, R239, R241). -/
def LEnv.runStage (e : LEnv) (acc : LAcc) (st : Nat) (man pre : Option Num) (swap fresh : Bool) (inj : Num) : LEnv × LAcc :=
  let o := 16 + 48 * st
  let h := e.w o
  let fb := e.op (h / 2 ^ 19 % 256)
  let u := (sumExact [e.op (h / 8 % 256), e.op (h / 2 ^ 11 % 256), fb.neg, inj]).sig
  let st0 (j : Nat) : Num := e.s.stageState e.k st j
  let adj := if swap && h % 8 == 1 then some (e.pidSwap o st0) else none
  let st1 (j : Nat) : Num := match adj, j with
    | some r, 0 => r.1
    | _, j => st0 j
  let r := e.stage o st1 u fb man pre fresh
  let y := man.getD r.y
  let ws := [(23, y), (23, r.a1), (23, r.a2)] ++ r.sts.map (fun x => (39, x))
  let E := if ws.all (fun w => w.2.v.n == 0) then sgn 6 (e.s.regN (LOOP_STATE e.k (64 + st))) else expOf (ws.map (fun w => (w.1, w.2.v)))
  let m (f : Nat) (x : Num) : Int × Bool := mantOf f E x.v
  let asSig (x : Num) : Num := ⟨Q.scale (m 23 x).1 (E - 23), E, false⟩
  let s1 := (r.sts.foldl (fun (p : State × Nat) x => (p.1.setStageState e.k st p.2 (m 39 x).1, p.2 + 1)) (e.s, 0)).1
  let s2 := s1.setRegN (LOOP_STATE e.k (64 + st)) (uns 6 E)
  let keep := match adj with
    | some a => a.2 && (e.s.fld (LOOP_CTX_STAT_SATSTG e.k)).testBit st
    | none => false
  ({ e with s := s2, outs := e.outs ++ [(asSig y, asSig r.a1, asSig r.a2)] },
   { sat := acc.sat + (if r.sat || keep then 2 ^ st else 0), lim := acc.lim || r.lim,
     ovf := acc.ovf || u.ovf || ws.any (fun w => w.2.ovf || (m w.1 w.2).2), reads := acc.reads ++ e.stageReads o u st0 swap })

/-! ### Compensation (R236) -/

/-- The place of the cogging table read. -/
def LEnv.cogR (e : LEnv) : Q :=
  let cpt := e.w 229
  let p := (e.raws[e.w 228 / 2 ^ 14 % 8]?).getD 0
  ⟨(p % (cpt : Int)) * 1024, max 1 cpt⟩
/-- Entry `i` of the cogging table, cyclic. -/
def LEnv.cogAt (e : LEnv) (i : Nat) : Nat := 0x20A00000 + e.w 228 / 4 % 64 * 0x1000 + 4 * (i % 1024)
/-- The cogging term. -/
def LEnv.cogging (e : LEnv) : Num :=
  if !(e.w 228).testBit 0 then Num.zero else
  let r := e.cogR
  let j := r.floor.toNat
  let at_ (i : Nat) : Num := e.tab (e.cogAt i)
  (e.c 230).mul (lerp (at_ j) (at_ (j + 1)) (r.sub (Q.i j)))
/-- The place of the friction table read, limited to its entries. -/
def LEnv.fricQ (e : LEnv) : Q :=
  let p := (e.raws[e.w 228 / 2 ^ 17 % 8]?).getD 0
  let q0 : Q := ⟨(p - sgn 32 (e.w 231)) * 256, max 1 (e.w 232)⟩
  (q0.maxQ ⟨0, 1⟩).minQ ⟨255, 1⟩
/-- Entry `i` of the friction table, the last one held. -/
def LEnv.fricAt (e : LEnv) (i : Nat) : Nat := 0x20A40000 + e.w 228 / 2 ^ 8 % 64 * 0x400 + 4 * (min i 255)
/-- The friction term. -/
def LEnv.friction (e : LEnv) : List Num :=
  let w := e.w 228
  if !w.testBit 1 then [] else
  let q := e.fricQ
  let j := q.floor.toNat
  let at_ (i : Nat) : Num := e.tab (e.fricAt i)
  let v := (e.ins[w / 2 ^ 20 % 8]?).getD Num.zero
  let ratio := ((v.div (e.c 234)).limit (intNum (-1)) (intNum 1)).sig
  [lerp (at_ j) (at_ (j + 1)) (q.sub (Q.i j)), (e.c 233).mul ratio]

/-- The table words the compensation reads. -/
def LEnv.compReads (e : LEnv) : List Nat :=
  let w := e.w 228
  let j := e.cogR.floor.toNat
  let k := e.fricQ.floor.toNat
  (if w.testBit 0 then [e.cogAt j, e.cogAt (j + 1)] else []) ++ (if w.testBit 1 then [e.fricAt k, e.fricAt (k + 1)] else [])

/-! ### The test generator (R244) -/

/-- The order and the other tap of the LFSR. (log 74, DEDUCED) -/
def lfsrTaps (ord : Nat) : Nat × Nat :=
  if ord = 0 then (7, 6) else if ord = 1 then (9, 5) else if ord = 2 then (11, 9) else if ord = 3 then (15, 14)
  else if ord = 4 then (23, 18) else (31, 28)
/-- The LFSR one bit on: the last stage is the output bit, its sum with the other tap enters at the first. (log 74, DEDUCED) -/
def lfsrStep (ord x : Nat) : Nat :=
  let t := lfsrTaps ord
  let b := (x.testBit (t.1 - 1)) != (x.testBit (t.2 - 1))
  (x * 2 + bit b) % 2 ^ t.1
/-- The generator starts over at sample 0. -/
def State.tsgStart (s : State) : State :=
  let o := (lfsrTaps (s.fld LOOP_TSG_CTRL_ORD)).1
  let s := { s with loop := { s.loop with tn := 0, phase := 0, lfsr := 2 ^ o - 1, tOn := true } }
  s.setFlag LOOP_TSG_STAT_ACTIVE true
/-- The generator stops: its value is 0. -/
def State.tsgStop (s : State) : State :=
  ({ s with loop := { s.loop with tOn := false, tv := 0 } }).setFlag LOOP_TSG_STAT_ACTIVE false
/-- A write of LOOP_TSG_CTRL. -/
def State.tsgCtrl (s : State) (v : Word) : State :=
  let was := s.flag LOOP_TSG_CTRL_EN && s.fld LOOP_TSG_CTRL_MODE != 3
  let s := s.setReg LOOP_TSG_CTRL (v &&& 0xFFF3FFFF#32)
  let on := s.flag LOOP_TSG_CTRL_EN && s.fld LOOP_TSG_CTRL_MODE != 3
  if on && !was then (s.setRegN LOOP_TSG_STAT 0).tsgStart else if !on then s.tsgStop else s
/-- The negative of a coefficient word's value as one, and whether it was limited (R221). -/
def negCoef (w : Word) : Word × Bool := toCoef (coefNum w).neg.v
/-- The generator's value at this sample, and whether its word was limited (R221, R244); a sine is off by a free amount below 2^-20 of the amplitude. (log 72, DESIGN CHOICE) -/
def State.tsgValue (s : State) : State × Word × Bool :=
  let amp := s.reg LOOP_TSG_AMP
  match s.fld LOOP_TSG_CTRL_MODE with
  | 0 => (s, amp, false)
  | 1 => (s, if s.loop.lfsr.testBit ((lfsrTaps (s.fld LOOP_TSG_CTRL_ORD)).1 - 1) then (amp, false) else negCoef amp)
  | _ =>
    let x := sinFix s.loop.phase + sgn 32 s.freeW.toNat * 448
    (s.drew, toCoef ((coefNum amp).v.mul ⟨x, 2 ^ 60⟩))
/-- The generator advances by one evaluation of its context. -/
def State.tsgAdvance (s : State) : State :=
  let n := s.loop.tn
  let total := s.regN LOOP_TSG_N
  let f0 := s.regN LOOP_TSG_F0
  let inc : Int := if total = 0 then f0 else f0 + rdiv (((s.regN LOOP_TSG_F1 : Int) - f0) * n) total
  let hold := s.fld LOOP_TSG_CTRL_HOLDM1 + 1
  let l := { s.loop with tn := n + 1, phase := uns 32 ((s.loop.phase : Int) + inc),
                         lfsr := if (n + 1) % hold = 0 then lfsrStep (s.fld LOOP_TSG_CTRL_ORD) s.loop.lfsr else s.loop.lfsr }
  ({ s with loop := l }).fldSat LOOP_TSG_STAT_SAMPLES 1
/-- In an evaluation of the generator's context its value for this sample stands; its first sample starts a waiting capture. -/
def State.tsgSample (s : State) (k : Nat) : State :=
  if s.fld LOOP_TSG_CTRL_CTX ≠ k ∨ !s.loop.tOn then s
  else
    let r := s.tsgValue
    let s := if r.2.2 then r.1.setFlag (LOOP_CTX_STAT_EXPOVF k) true else r.1
    { s with loop := { s.loop with tv := r.2.1, capWait := s.loop.capWait && s.loop.tn != 0 } }
/-- After N samples the generator ends or restarts. -/
def State.tsgEnd (s : State) (k : Nat) : State :=
  if s.fld LOOP_TSG_CTRL_CTX ≠ k ∨ !s.loop.tOn then s else
  let s := s.tsgAdvance
  if s.regN LOOP_TSG_N ≠ 0 ∧ s.regN LOOP_TSG_N ≤ s.loop.tn then
    if s.flag LOOP_TSG_CTRL_REPEAT then s.tsgStart else s.tsgStop.loopNotice 3 k
  else s

/-! ### Capture (R245) -/

/-- The records a capture takes. -/
def State.capLen (s : State) : Nat := min 65536 (max 1 (s.fld LOOP_CAP_LEN_LEN))
/-- A retired row of Hamper lies in a range of cells (R306). -/
def State.retiredIn (s : State) (lo hi : Nat) : Bool :=
  s.pwr.retired.any (fun r => decide (8 * r < hi ∧ lo < 8 * r + 8))
/-- A write of LOOP_CAP_CTRL: a start, a refused start, a stop. -/
def State.capCtrl (s : State) (v : Word) : State :=
  let was := s.flag LOOP_CAP_CTRL_EN
  let s := s.setReg LOOP_CAP_CTRL (v &&& 0x7FFFF#32)
  if !s.flag LOOP_CAP_CTRL_EN then { s with loop := { s.loop with capOn := false, capWait := false } }
  else if was then s
  else
    let b := s.fld LOOP_CAP_BASE_BASE
    let top := b + (s.capLen * 16 + 255) / 256
    if s.fld BUF_SWCELLS_UNITS * 1024 < top ∨ s.retiredIn b top then s.setFlag LOOP_CAP_STAT_BADBUF true
    else ({ s with loop := { s.loop with capOn := true, capWait := s.flag LOOP_CAP_CTRL_ONTSG, capDec := 0 } }).setFld LOOP_CAP_STAT_RECS 0
/-- One evaluation of the captured context: a record of each DECIM. -/
def State.capture (s : State) (e : LEnv) (cyc : Word) (man : Bool) (sat : Nat) : State :=
  let k := e.k
  if s.fld LOOP_CAP_CTRL_CTX ≠ k ∨ !s.loop.capOn then s
  else if s.loop.capWait then s
  else
    let s1 := { s with loop := { s.loop with capDec := (s.loop.capDec + 1) % (s.fld LOOP_CAP_CTRL_DECIMM1 + 1) } }
    if s.loop.capDec ≠ 0 then s1 else
    let n := s1.fld LOOP_CAP_STAT_RECS
    let sel (i : Nat) : Word × Bool := toCoef (e.op (s.regN LOOP_CAP_SEL / 2 ^ (8 * i) % 256)).v
    let w0 := setBits (sel 0).1 31 30 (2 * bit man + bit (sat != 0))
    let a := 0x80000000 + s.fld LOOP_CAP_BASE_BASE * 256 + n * 16
    let s2 := ((((s1.freshWords a 16).setMem32 a cyc.toNat).setMem32 (a + 4) w0.toNat).setMem32 (a + 8) (sel 1).1.toNat).setMem32 (a + 12) (sel 2).1.toNat
    let s3 := if (sel 0).2 || (sel 1).2 || (sel 2).2 then s2.setFlag (LOOP_CTX_STAT_EXPOVF k) true else s2
    if n + 1 < s.capLen then s3.setFld LOOP_CAP_STAT_RECS (n + 1)
    else if s.flag LOOP_CAP_CTRL_RING then
      ((s3.setFld LOOP_CAP_STAT_RECS 0).setFlag LOOP_CAP_STAT_WRAP true).loopNotice 2 k
    else
      ({ s3 with loop := { s3.loop with capOn := false } }.setFld LOOP_CAP_STAT_RECS (n + 1)).setFlag LOOP_CAP_STAT_DONE true
        |>.loopNotice 1 k

/-! ### Evaluation (R224, R225, R237 to R239) -/

/-- Busy cycles fall into whole milliseconds (LOOP_LOAD). -/
def State.loadSync (s : State) : State :=
  let ms := s.time.now / 1000000
  if ms = s.loop.ms then s else
  let l := if ms = s.loop.ms + 1 then s.loop.cycles else 0
  let top := max (s.regN LOOP_LOADMAX) s.loop.cycles
  ({ s with loop := { s.loop with ms := ms, cycles := 0 } }.setRegN LOOP_LOAD l).setRegN LOOP_LOADMAX top

/-- Context `k` past its deadline is removed (R225). -/
def State.loopSkip (s : State) (k : Nat) : State :=
  let x := s.ctx k
  let s := (s.unqueue k).setCtx k { x with latch := none }
  let s := (s.countSat (LOOP_CTX_CNT k 2) 1).fldSat (LOOP_CTX_STAT_SKIPSEQ k) 1
  let lim := s.fld (LOOP_CTX_TIMING_SKIPLIM k)
  if lim ≠ 0 ∧ s.fld (LOOP_CTX_STAT_SKIPSEQ k) = lim ∧ !x.ovr then
    ((s.setCtx k { x with latch := none, ovr := true }).raise 176).loopNotice 4 k
  else s

/-- Cardamom takes the next context (R224, R225, R240). (log 158, DEDUCED) -/
def State.evalStart (s : State) : State :=
  if s.loop.run.isSome ∨ !s.loopOn then s else
  match (s.loop.hi ++ s.loop.lo).head? with
  | none => s
  | some k =>
    let x := s.ctx k
    match x.latch with
    | none => s.unqueue k
    | some l =>
      let dl := s.fld (LOOP_CTX_TIMING_DEADLINE k)
      if dl ≠ 0 ∧ dl < s.time.now - l.at_ then s.loopSkip k
      else
        let s := (s.unqueue k).setCtx k { x with latch := none }
        let s := s.setFlag (LOOP_CTX_STAT_RUN k) true
        let bank := s.fld (LOOP_CTX_STAT_BANK k)
        let s := s.loopBoundary k
        let swap := s.fld (LOOP_CTX_STAT_BANK k) != bank
        let l := { l with srcs := l.srcs ++ (if swap then s.latchOf (s.inKeys k) else []) ++ l.lau }
        let s := s.setFld (LOOP_CTX_LASTDUR_WAIT k) (min 65535 (s.time.now - l.at_))
        ({ s with loop := { s.loop with run := some (k, l, swap) } }).loopStat

/-- An output slot delivers a value (R237). (log 76, DEDUCED) -/
def State.slotDeliver (s : State) (k w : Nat) (v : Int) : State :=
  let i := w / 4 % 4096
  if w % 4 = 1 then s.nvWrite i (w32 (uns 32 v))
  else if w % 4 = 2 then
    let c := i % 32
    let s := s.nutSync c s.time.now
    let full := decide (s.txCap c ≤ (s.nutSt c).txq.length)
    let s := s.txqPut c (w32 (uns 32 v))
    if full then s.countSat (LOOP_CTX_CNT k 3) 1 else s
  else s
/-- Every DRIVE slot is written once with SAFEVAL (R238). (log 75, DEDUCED) -/
def State.safeOnce (s : State) : State :=
  (List.range 256).foldl (fun s k => (List.range 4).foldl (fun s j =>
    let w := (s.coefW k (208 + j)).toNat
    if slotDrives w then s.slotDeliver k w (sgn 32 (s.coefW k (224 + j)).toNat) else s) s) s
/-- Output slot `j` of an evaluation: the state, and whether it was limited (R237, R238, R246). (log 76, DEDUCED) -/
def LEnv.output (e : LEnv) (live : Bool) (r : State × Bool) (j : Nat) : State × Bool :=
  let s := r.1
  let w := e.w (208 + j)
  if w % 4 = 0 ∨ w % 4 = 3 then r else
  let lo := sgn 32 (e.w (216 + j))
  let hi := sgn 32 (e.w (220 + j))
  let tested := w.testBit 14 && s.loopTested e.k
  let val := if tested then coefNum ((s.loop.test.map (·.2)).getD 0) else e.op (w / 2 ^ 15 % 256)
  let o := (val.mul (e.c (212 + j))).v.round
  let v := clampI lo hi o
  let out := if !w.testBit 14 || tested || live then v else sgn 32 (e.w (224 + j))
  (s.slotDeliver e.k w out, r.2 || decide (v ≠ o))

/-- The integer and the converted value of input slot `i` from latched sources (R227). -/
def LEnv.input (e : LEnv) (i : Nat) : Int × Num :=
  let w := e.w i
  let t := w / 2 ^ 29
  let a := w / 2 ^ 13 % 2 ^ 13
  let b := w % 2 ^ 13
  let v (c : Nat) (wide : Bool) : Nat := e.src (srcKey c wide)
  let sc := (e.c (8 + i)).v
  let put (z : Int) (q : Q) : Int × Num := (z, Num.sig ⟨q.mul sc, 0, false⟩)
  match t with
  | 0 => let z := sgn 32 (v a false); put z (Q.i z)
  | 1 => let z := sgn 32 (uns 32 ((v a false : Int) - v b false)); put z (Q.i z)
  | 2 => let z := sgn 64 (uns 64 ((v a true : Int) - v b true)); put z (Q.i z)
  | 3 => let z := sgn 32 (v a false); put z ⟨z, 65536⟩
  | 4 => put (sgn 32 (v a false)) (coefNum (w32 (v a false))).v
  | _ => (0, Num.zero)

/-- The evaluation in progress ends (R222 to R245). (log 73, DESIGN CHOICE) -/
def State.evalEnd (s : State) : State :=
  match s.loop.run with
  | none => s
  | some (k, l, swap) =>
    let s := (s.loadSync).tsgSample k
    let x := s.ctx k
    let e0 : LEnv := { s := s, k := k, ins := [], raws := [], gen := coefNum s.loop.tv, outs := [], fin := Num.zero,
                       src := fun c => ((l.srcs.find? (fun p => p.1 == c)).map (·.2)).getD 0 }
    let inp := (List.range 8).map (fun i => e0.input i)
    let e1 := { e0 with ins := inp.map (·.2), raws := inp.map (·.1) }
    let forced := s.manForced k
    let man := forced || !s.flag (LOOP_CTX_CTRL_AUTO k)
    let mw := if forced then s.coefW k 235 else s.reg (LOOP_CTX_MANOUT k)
    let stg := s.fld (LOOP_CTX_CFG_MANSTG k)
    let nstg := s.fld (LOOP_CTX_CFG_NSTG k)
    let inj := s.fld LOOP_TSG_CTRL_CTX == k && s.loop.tOn
    let point := s.fld LOOP_TSG_CTRL_POINT
    let acc0 : LAcc := { sat := 0, lim := false, ovf := inp.any (fun p => p.2.ovf), reads := s.coefReads k }
    let r := (List.range 4).foldl (fun (p : LEnv × LAcc) st =>
      if nstg ≤ st then p else
      let here := stg == st
      p.1.runStage p.2 st (if man && here then some (coefNum mw) else none)
        (if !man && here then x.man.map coefNum else none) swap x.fresh (if inj && point == st then e1.gen else Num.zero)) (e1, acc0)
    let e2 := r.1
    let last := if nstg = 0 then Num.zero else (e2.outs.getLast?.map (·.1)).getD Num.zero
    let base := if man && stg == 7 then coefNum mw else last
    let fin := (sumN ([base, if inj && point == 4 then e2.gen else Num.zero, e2.cogging] ++ e2.friction)).sig
    let e3 := { e2 with fin := fin }
    let words := ((r.2.reads ++ e2.compReads).map (fun a => a / 8 * 8)).eraseDups
    let chk := (s.sgReads words).eccScan (some 177) words
    let live := l.live && s.loopMode == modeOPERATIONAL
    let finish (s : State) : State :=
      let s := { s with loop := { s.loop with run := none } }
      let s := ((s.setFlag (LOOP_CTX_STAT_RUN k) false).loopStat).loopAtOnce k
      if s.loop.safe then ({ s with loop := { s.loop with safe := false } }).safeOnce else s
    if chk.2.isSome then finish (chk.1.setFlag (LOOP_CTX_STAT_MEMERR k) true)
    else
      let pids := ((List.range 4).filter (fun st => decide (st < nstg) && (s.coefW k (16 + 48 * st)).toNat % 8 == 1)).length
      let cost := s.loopCost s.actWord k + (if swap then 8 + 24 * pids else 0) + (if !man && x.man.isSome then 24 else 0)
      let dur := e3.s.freeW.toNat % (cost + 1)
      let s1 := ((e3.s.sgReads words).eccScan (some 177) words).1.drew
      let s1 := { s1 with loop := { s1.loop with cycles := s1.loop.cycles + dur } }
      let o := (List.range 4).foldl (fun p j => e3.output live p j) (s1, false)
      let s2 := o.1.capture e3 l.cyc man r.2.sat
      let s3 := (s2.setFld (LOOP_CTX_STAT_SATSTG k) r.2.sat).setFlag (LOOP_CTX_STAT_OLIM k) o.2
      let s4 := s3.setFlag (LOOP_CTX_STAT_RAMPLIM k) r.2.lim
      let stick (f : Fld) (b : Bool) (s : State) : State := if b then s.setFlag f true else s
      let s5 := stick (LOOP_CTX_STAT_SATS k) (r.2.sat != 0) (stick (LOOP_CTX_STAT_RAMPLIMS k) r.2.lim
        (stick (LOOP_CTX_STAT_EXPOVF k) (r.2.ovf || fin.ovf) s4))
      let s6 := ((s5.setReg (LOOP_CTX_LASTTS k) l.cyc).setFld (LOOP_CTX_LASTDUR_DUR k) (min 65535 dur)).countSat (LOOP_CTX_CNT k 0) 1
      let s7 := (s6.setFld (LOOP_CTX_STAT_SKIPSEQ k) 0).tsgEnd k
      finish (s7.setCtx k { s7.ctx k with man := if man then some mw else none, fresh := false, ovr := false })

/-! ### Control, modes, reset -/

/-- All states and exponents of context `k` become 0. -/
def State.stclr (s : State) (k : Nat) : State :=
  let s := (List.range 68).foldl (fun s i => s.setReg (LOOP_STATE k i) 0) s
  s.setCtx k { s.ctx k with fresh := true }
/-- A write of LOOP_CTX[k]_CTRL: EN and AUTO, then STCLR, then SWTRIG. -/
def State.loopCtrl (s : State) (k : Nat) (v : Word) : State :=
  let was := s.flag (LOOP_CTX_CTRL_EN k)
  let s := s.setReg (LOOP_CTX_CTRL k) (v &&& 3#32)
  let en := s.flag (LOOP_CTX_CTRL_EN k)
  let s := if en && !was then s.setCtx k { s.ctx k with fresh := true } else s
  let s := if !en && was then ((s.unqueue k).setCtx k { s.ctx k with latch := none }).loopAtOnce k else s
  let s := if v.getLsbD 3 && !was then s.stclr k else s
  if v.getLsbD 2 then s.trigger k else s
/-- A write of a word of LOOP_STATE: while EN = 1 it is ignored and reported, a pair once. -/
def State.loopStateWrite (s : State) (k i : Nat) (v : Word) : State :=
  if s.flag (LOOP_CTX_CTRL_EN k) then (if i < 64 ∧ i % 2 = 0 then s else s.note)
  else if 68 ≤ i then s
  else if 64 ≤ i then s.setReg (LOOP_STATE k i) (v &&& 0x3F#32)
  else if i % 2 = 1 then s.setRegN (LOOP_STATE k i) (uns 32 (sgn 8 v.toNat))
  else s.setReg (LOOP_STATE k i) v
/-- Every queue is emptied. -/
def State.loopEmpty (s : State) : State :=
  (s.loop.hi ++ s.loop.lo).foldl (fun s k => (s.unqueue k).setCtx k { s.ctx k with latch := none }) s
/-- Entry into COMMISSION or SAFESTOP (R238): the once-only write follows an evaluation in progress. -/
def State.loopStop (s : State) : State :=
  let s := s.loopEmpty
  if s.loop.run.isSome then { s with loop := { s.loop with safe := true } } else s.safeOnce
/-- The prepare phase of a low-power entry, and HOLDUP: the evaluation in progress completes, the queues are emptied (R247). -/
def State.loopPrepare (s : State) : State := s.evalEnd.loopEmpty
/-- A block reset (R247): every register, state and network value but STAT.BANK. -/
def State.loopReset (s : State) : State :=
  let banks := (List.range 256).filter (fun k => s.flag (LOOP_CTX_STAT_BANK k))
  let s := { s with loop := LoopSt.reset, shadow := s.shadow.filter (fun e => (loopCtxOf e.1).isNone) }
  let s := s.resetRange 0x41200000 0x41400000
  banks.foldl (fun s k => s.setFlag (LOOP_CTX_STAT_BANK k) true) s
/-- A torque request of Saffron for context `k` begins or ends (R246). -/
def State.brakeTorque (s : State) (t : Option (Nat × Word)) : State := { s with loop := { s.loop with test := t } }

end Sys2Proof.Machine
end

