-- ==== Sys2Proof/Machine/Saf.lean ====
section
/-! DEFINITION. Saffron (R248 to R277, R405, R406): the safety parameter block, reactions and outputs, safe inputs, feedback and switch
tests, safety connections, brake tests, SAFE commands and their pairing, the start check and the restart. -/

namespace Sys2Proof.Machine

open Sys2Proof

/-! ### The safety parameter block (R270 to R272, R406) -/

/-- The default SPB (R406). -/
def spbDefault : List Byte :=
  let pair := ([0, 0, 1, 0, 0, 0, 0, 0] : List Byte)
  let out := ([0, 0, 0xFF, 0, 0, 0, 0, 0] : List Byte)
  let brake := ([0, 0, 0xFF, 0, 0, 0, 100, 0, 0, 0, 0, 0, 1, 0, 0, 0, 0, 0] : List Byte) ++ List.replicate 6 0
  let fb := ([10, 0, 0, 0] : List Byte)
  leBytes 2 1 ++ leBytes 2 672 ++ leBytes 2 0x88B5 ++ leBytes 2 10 ++ leBytes 8 0 ++ (List.range 8).flatMap (fun _ => pair) ++
    out ++ out ++ brake ++ brake ++ fb ++ fb ++ fb ++ fb ++ List.replicate 512 0
/-- The working SPB. -/
def State.spb (s : State) : List Byte := s.saf.spb.getD spbDefault
/-- Channel `ch`'s own copy of it (R272): 0 A, 1 B. -/
def State.spbOf (s : State) (ch : Nat) : List Byte := if ch = 0 then s.spb else s.saf.spbB.getD spbDefault
/-- A little-endian field of an SPB. -/
def spbF (l : List Byte) (o n : Nat) : Nat := ofLe (slice l o n)
/-- A field of the working SPB. -/
def State.sp (s : State) (o n : Nat) : Nat := spbF s.spb o n
def State.demand (s : State) (b : Nat) : Bool := (s.sp 0xC 4).testBit b
def pairO (i : Nat) : Nat := 0x10 + 8 * i
def outO (j : Nat) : Nat := 0x50 + 8 * j
def brakeO (b : Nat) : Nat := 0x60 + 24 * b
def connO (k : Nat) : Nat := 0xA0 + 32 * k
def State.role (s : State) (k : Nat) : Nat := s.sp (connO k) 1

/-- One bit of the CRC of R263. -/
def crcFBit (c : Word) : Word := if c.getLsbD 31 then (c <<< 1) ^^^ 0xF4ACFB13#32 else c <<< 1
/-- The CRC of R263. -/
def crcF (l : List Byte) : Word :=
  l.foldl (fun (c : Word) b => (List.range 8).foldl (fun c _ => crcFBit c) (c ^^^ w32 (b.toNat * 2 ^ 24))) 0xFFFFFFFF#32

/-- A field's range: offset, size, least and largest value, another value allowed, and the offset of the byte that must not be 0 for the
field to be checked. -/
structure SpbRange where
  o : Nat
  n : Nat
  lo : Nat
  hi : Nat
  also : Nat
  dep : Option Nat

def rng (o n lo hi : Nat) (dep : Option Nat := none) : SpbRange := ⟨o, n, lo, hi, lo, dep⟩
/-- Every field of R270 that has a range, and the reserved bytes. -/
def spbRanges : List SpbRange :=
  [rng 0 2 1 1, rng 2 2 672 672, rng 6 2 10 1000, rng 8 2 0 8760, rng 0xA 2 0 720, rng 0xF 1 0 0] ++
  (List.range 8).flatMap (fun i =>
    let o := pairO i
    [rng o 1 0 2, rng (o + 1) 1 0 20 o, rng (o + 2) 2 1 500 o, rng (o + 4) 1 0 1 o, rng (o + 5) 1 0 1 o, rng (o + 6) 2 0 0]) ++
  (List.range 2).flatMap (fun j =>
    let o := outO j
    [rng o 2 0 10000, ⟨o + 2, 1, 0, 3, 255, none⟩, rng (o + 3) 1 0 50, rng (o + 4) 4 0 0]) ++
  (List.range 2).flatMap (fun b =>
    let o := brakeO b
    [rng o 2 0 10000, ⟨o + 2, 1, 0, 3, 255, none⟩, rng (o + 3) 1 0 1, rng (o + 4) 2 0 1000, rng (o + 6) 2 100 10000,
     rng (o + 8) 4 0 (2 ^ 30 - 1), rng (o + 12) 4 1 (2 ^ 31 - 1), rng (o + 17) 1 0 31, rng (o + 18) 6 0 0]) ++
  (List.range 4).flatMap (fun f => [rng (0x90 + 4 * f) 2 10 500, rng (0x92 + 4 * f) 2 0 0]) ++
  (List.range 16).flatMap (fun k =>
    let o := connO k
    [rng o 1 0 3, rng (o + 1) 1 0 3 o, rng (o + 3) 1 1 32 o, rng (o + 4) 4 1 (2 ^ 32 - 1) o, rng (o + 8) 2 1 1000 o,
     rng (o + 10) 2 50 50000 o, rng (o + 12) 2 1 5000 o, rng (o + 14) 1 0 27 o, rng (o + 15) 1 0 27 o, rng (o + 19) 1 1 16 o,
     rng (o + 24) 2 0 0 (some (o + 1)), rng (o + 26) 6 0 0])
/-- Rule 1 of R271 for the fields that bytes `lo` to `hi` touch. -/
def spbRule1 (l : List Byte) (lo hi : Nat) : Bool :=
  spbRanges.all (fun r =>
    let v := spbF l r.o r.n
    decide (hi ≤ r.o ∨ r.o + r.n ≤ lo) || (r.dep.map (fun d => spbF l d 1 == 0)).getD false ||
      decide (r.lo ≤ v ∧ v ≤ r.hi) || v == r.also)
/-- The first rule of R271 an SPB breaks. -/
def spbBad (l : List Byte) : Option Nat :=
  let role (k : Nat) : Nat := spbF l (connO k) 1
  let paths (k : Nat) : Nat := spbF l (connO k + 2) 1
  let used := (List.range 16).filter (fun k => role k != 0)
  let dem := spbF l 0xC 4
  let fbs := [spbF l (outO 0 + 2) 1, spbF l (outO 1 + 2) 1, spbF l (brakeO 0 + 2) 1, spbF l (brakeO 1 + 2) 1].filter (· != 255)
  let both (k : Nat) : Bool := paths k % 4 == 3
  let ids := used.map (fun k => spbF l (connO k + 4) 4)
  if !spbRule1 l 0 672 then some 1
  else if (List.range 8).any (fun i => dem.testBit i && spbF l (pairO i) 1 == 0) ||
      (List.range 16).any (fun k => dem.testBit (8 + k) && decide (role k < 2)) then some 2
  else if !decide fbs.Nodup then some 3
  else if used.any (fun k => role k == 1 && (paths k % 4 == 0 || ((paths k).testBit 2 && !both k) ||
      decide (spbF l (connO k + 8) 2 * 10 < 2 * spbF l (connO k + 12) 2))) then some 4
  else if used.any (fun k => role k == 2 && (paths k).testBit 2 &&
      (!both k || spbF l (connO k + 14) 1 == spbF l (connO k + 15) 1)) then some 5
  else if used.any (fun k => (role k == 3) != (spbF l (connO k + 1) 1 != 0) || (role k == 3 && paths k != 1)) then some 6
  else if !decide ids.Nodup then some 7
  else none

/-! ### State and window -/

/-- Saffron takes a state. -/
def State.setSaf (s : State) (x : SafSt) : State := { s with saf := x }
def State.safConn (s : State) (k : Nat) : SafConn := storeGet (fun _ => SafConn.reset) s.saf.conns k
def State.setConn (s : State) (k : Nat) (x : SafConn) : State :=
  s.setSaf { s.saf with conns := storeSet (fun _ => SafConn.reset) s.saf.conns k x }
/-- The state of pair `i` (0 OPEN, 1 CLOSED, 2 DISCREP, 3 FAULT). -/
def State.pairSt (s : State) (i : Nat) : Nat := s.fld SAF_INPUTS_PAIR / 4 ^ i % 4
/-- What channel `ch` sees of the safe inputs. -/
def State.safView (s : State) (ch : Nat) : SafView :=
  if ch = 0 then ⟨s.fld SAF_INPUTS_CONTACTS, s.fld SAF_INPUTS_PAIR, s.saf.timers⟩ else s.saf.inB
def State.setView (s : State) (ch : Nat) (v : SafView) : State :=
  if ch = 0 then ((s.setFld SAF_INPUTS_CONTACTS v.contacts).setFld SAF_INPUTS_PAIR v.pairs).setSaf { s.saf with timers := v.timers }
  else s.setSaf { s.saf with inB := v }
/-- Pair `i` is CLOSED in both channels. -/
def State.pairOk (s : State) (i : Nat) : Bool := (List.range 2).all (fun ch => (s.safView ch).pairs / 4 ^ i % 4 == 1)
/-- Which outputs are energised: safe outputs 0 and 1, brakes 2 and 3. -/
def State.outOn (s : State) (o : Nat) : Bool := (s.regN SAF_OUTPUTS).testBit o
/-- Channel A switches the high side of output `o`, channel B its low side (R248); the load has current only with both on. -/
def State.setOut4 (s : State) (o : Nat) (b : Bool) : State :=
  let put (m : Nat) : Nat := m % 2 ^ o + 2 ^ o * bit b + 2 ^ (o + 1) * (m / 2 ^ (o + 1))
  let s := s.setSaf { s.saf with swA := put s.saf.swA, swB := put s.saf.swB }
  s.setReg SAF_OUTPUTS (setBits (s.reg SAF_OUTPUTS) o o (bit (s.saf.swA.testBit o && s.saf.swB.testBit o)))
/-- A delay of output `o` runs. -/
def State.delayOn (s : State) (o : Nat) : Bool := (s.regN SAF_OUTPUTS).testBit (4 + o)
def State.setDelay (s : State) (o : Nat) (b : Bool) : State := s.setReg SAF_OUTPUTS (setBits (s.reg SAF_OUTPUTS) (4 + o) (4 + o) (bit b))
/-- The SPB offset of output `o`. -/
def outSp (o : Nat) : Nat := if o < 2 then outO o else brakeO (o - 2)
/-- A brake is past its interval, with or without its grace (R269). -/
def State.brakeDue (s : State) (b grace : Nat) : Bool :=
  s.sp 8 2 != 0 && decide (s.sp 8 2 + grace < s.fld (SAF_BTEST_HOURS b))
def State.btOver (s : State) : Bool := (List.range 2).any (fun b => s.brakeDue b (s.sp 0xA 2))
/-- The conditions of R257, BTOVER apart. -/
def State.permitBut (s : State) : Bool :=
  s.saf.base == 3 && !s.saf.halt && !s.saf.latched &&
  (List.range 8).all (fun i => !s.demand i || s.pairOk i) &&
  (List.range 16).all (fun k => !s.demand (8 + k) ||
    ((s.fld (SAF_CONN_STAT_STATE k) == 2 || s.fld (SAF_CONN_STAT_STATE k) == 3) && s.flag (SAF_CONN_STAT_ENABLE k))) &&
  s.fld SAF_OUTPUTS_FBFLT == 0 && s.saf.bt.isNone
/-- The run permit (R257). -/
def State.permit (s : State) : Bool := s.permitBut && !s.btOver
/-- The status window follows (SAF_STAT); BTDUE that comes to be set raises SAF_BTDUE (R269). -/
def State.safShow (s : State) : State :=
  let x := s.saf
  let due := (List.range 2).any (fun b => s.brakeDue b 0)
  let s := if due && !s.flag SAF_STAT_BTDUE then s.raise 337 else s
  let st := if x.halt then 5 else if x.base < 3 then x.base else if x.latched then 4 else 3
  let s := (s.setFld SAF_STAT_STATE st).setFlag SAF_STAT_LOWPWR s.asleep
  let s := (s.setFlag SAF_STAT_BTOVER s.btOver).setFlag SAF_STAT_BTDUE due
  let s := (s.setFlag SAF_STAT_TESTING x.bt.isSome).setFlag SAF_STAT_CCVOK x.ccvOk
  let s := (s.setFlag SAF_STAT_CONFIRMED (x.recA.isSome && x.recB.isSome)).setFlag SAF_STAT_ENERGISED (s.regN SAF_OUTPUTS % 16 != 0)
  s.setFlag SAF_STAT_PERMIT s.permit

/-! ### Reactions and outputs (R252, R253, R257) -/

/-- The reason's delay column is zero. -/
def zeroDelay (code : Nat) : Bool := decide (8 ≤ code ∧ code ≤ 0x0D) || decide (0x0F ≤ code ∧ code ≤ 0x14)
/-- The reason leads to HALT. -/
def haltCode (code : Nat) : Bool := code == 0x0B || code == 0x0C || code == 0x14
/-- Acknowledge clears the reason. -/
def ackCode (code : Nat) : Bool := decide (1 ≤ code ∧ code ≤ 0x0A) || code == 0x0D || code == 0x0E || code == 0x15
/-- Output `o` is de-energised at once. -/
def State.outDrop (s : State) (o : Nat) : State := (s.setOut4 o false).setDelay o false
/-- Output `o`, if energised, is de-energised after its DELAY, or at once. -/
def State.outOff (s : State) (now : Bool) (o : Nat) : State :=
  if now then s.outDrop o
  else if !s.outOn o then s
  else if s.sp (outSp o) 2 = 0 then s.outDrop o
  else s.setDelay o true
/-- The brake test ends without a pass: the torque request is cancelled and BTSO de-energised. -/
def State.testAbort (s : State) : State :=
  match s.saf.bt with
  | none => s
  | some (b, _, _) =>
    let s := (s.setSaf { s.saf with bt := none }).brakeTorque none
    (s.outDrop (s.sp (brakeO b + 3) 1 % 2)).setFld (SAF_BTEST_RESULT b) 3
/-- A reaction with a reason and an index (R252). -/
def State.react (s : State) (code idx : Nat) : State :=
  let s := if haltCode code then s.setSaf { s.saf with halt := true } else s
  let drop (s : State) : State := (List.range 4).foldl (fun s o => s.outOff (zeroDelay code) o) s
  if s.saf.latched then
    let s := s.fldSat SAF_REASON_MERGED 1
    (if zeroDelay code then drop s else s).safShow
  else
    let s := s.testAbort
    let s := (s.setSaf { s.saf with latched := true, relWait := [] }).setReg SAF_REASON (w32 (code + 256 * idx))
    let s := ((drop (s.setReg SAF_REASONTS s.cyc0)).raise 336).wake 2
    (if code = 0x13 then s else { s with modeq := s.modeq ++ [(12, modeSAFESTOP, if code = 0x0E then 4 else 5)] }).safShow
/-- A reaction that only demanded pairs and connections cause (R253); `d` is the bit of DEMAND. -/
def State.reactIf (s : State) (d code idx : Nat) : State := if s.demand d then s.react code idx else s
/-- The reason is cleared. -/
def State.reasonClear (s : State) : State := (s.setSaf { s.saf with latched := false }).setReg SAF_REASON 0
/-- At the apply point of the entry into OPERATIONAL both safe outputs are energised, and the brakes wait for their release (R257). -/
def State.safOperational (s : State) : State :=
  if !s.permit then s else 
  let s := (s.setOut4 0 true).setOut4 1 true
  (s.setSaf { s.saf with relWait := [0, 1], turn := s.saf.turn.filter (fun e => decide (e.1 < 2)) }).safShow
/-- OPERATIONAL is left without a reaction (R257). -/
def State.safLeaveOp (s : State) : State :=
  if s.saf.latched then s
  else ((List.range 4).foldl (fun s o => s.outOff false o) (s.setSaf { s.saf with relWait := [] })).safShow
/-- The switch tests of output `o`: of a safe output how many so far, of a brake how many of the two before this release. -/
def State.swTests (s : State) (o : Nat) : Nat := storeGet (fun _ => 0) s.saf.turn o
/-- RELDLY after that brake `b` is released, both its switches having passed their tests (R257, R261). -/
def State.brakeRelease (s : State) (b : Nat) : State :=
  if b ∈ s.saf.relWait ∧ 2 ≤ s.swTests (2 + b) ∧ s.mode = modeOPERATIONAL ∧ !s.saf.latched then
    ((s.setSaf { s.saf with relWait := s.saf.relWait.filter (· != b) }).setOut4 (2 + b) true).safShow
  else s
/-- The DELAY of output `o` ends. -/
def State.delayEnd (s : State) (o : Nat) : State := if s.delayOn o then (s.outDrop o).safShow else s

/-! ### Safe inputs (R258, R259) -/

/-- The MODE of pair `i` in channel `ch`'s SPB. -/
def State.pairMode (s : State) (ch i : Nat) : Nat := spbF (s.spbOf ch) (pairO i) 1
/-- Whether contacts 1 and 2 of pair `i` are at their closed level, by its mode, with contacts laid out as in SAF_INPUTS. -/
def atClosed (mode c i : Nat) : Bool × Bool :=
  (c.testBit (2 * i), if mode = 2 then !c.testBit (2 * i + 1) else c.testBit (2 * i + 1))
/-- The next state of a pair, and whether its discrepancy timer runs (R258), from its state, the timer, and which contacts were and are at
their closed level. A pair in OPEN whose timer does not run closes where it finds both at that level. (log 130, DEDUCED) -/
def pairStep (st : Nat) (timer : Bool) (was now : Bool × Bool) : Nat × Bool :=
  let both := now.1 && now.2
  let none_ := !now.1 && !now.2
  let reach := (now.1 && !was.1) || (now.2 && !was.2)
  match st with
  | 1 => if both then (1, timer) else (0, !none_)
  | 0 =>
    if none_ then (0, false)
    else if timer then (if reach then (2, true) else (0, true))
    else if both then (1, false) else (2, true)
  | 2 => if none_ then (0, false) else if both && reach then (1, false) else (2, timer)
  | _ => (3, timer)
/-- Pair `i` of a view takes a state and a timer. -/
def SafView.put (v : SafView) (i : Nat) (r : Nat × Bool) : SafView :=
  let rest := v.timers.filter (· != i)
  { v with pairs := v.pairs - v.pairs / 4 ^ i % 4 * 4 ^ i + 4 ^ i * r.1, timers := if r.2 then i :: rest else rest }
def SafView.st (v : SafView) (i : Nat) : Nat := v.pairs / 4 ^ i % 4
/-- The contacts of pair `i` of a view take levels. -/
def SafView.levels (v : SafView) (i : Nat) (c1 c2 : Bool) : SafView :=
  { v with contacts := v.contacts - v.contacts / 4 ^ i % 4 * 4 ^ i + 4 ^ i * (bit c1 + 2 * bit c2) }
/-- Channel `ch` sees the filtered levels of pair `i`'s contacts change. -/
def State.viewMove (s : State) (ch i : Nat) (c1 c2 : Bool) : State :=
  let v := s.safView ch
  let m := s.pairMode ch i
  let w := v.levels i c1 c2
  if m = 0 then s.setView ch w
  else s.setView ch (w.put i (pairStep (v.st i) (decide (i ∈ v.timers)) (atClosed m v.contacts i) (atClosed m w.contacts i)))
/-- A channel finds a reason of pair `i`; the one that the other channel has found before is the same reason. -/
def State.pairReact (s : State) (i code : Nat) : State :=
  if s.saf.latched ∧ s.fld SAF_REASON_CODE = code ∧ s.fld SAF_REASON_INDEX = i then s else s.reactIf i code i
/-- The filtered levels of pair `i`'s contacts change (R258): whether each reads closed, and who sees it: 0 both channels, 1 A, 2 B. The
demand of a pair with AUTOREST is cleared as it closes in both (R253). -/
def State.contactChange (s : State) (i : Nat) (c1 c2 : Bool) (who : Nat) : State :=
  let t := if who = 2 then s else s.viewMove 0 i c1 c2
  let t := if who = 1 then t else t.viewMove 1 i c1 c2
  let opened := (List.range 2).any (fun ch => (s.safView ch).st i == 1 && (t.safView ch).st i == 0)
  let t := if !opened then t else if who = 0 then t.reactIf i 1 i else t.pairReact i 1
  let back := t.pairOk i && !s.pairOk i && t.saf.latched && t.fld SAF_REASON_CODE == 1 && t.fld SAF_REASON_INDEX == i
    && t.sp (pairO i + 5) 1 == 1
  (if back then t.reasonClear else t).safShow
/-- Pair `i` enters FAULT for a reason in every channel that `is` names. -/
def State.pairFault_ (s : State) (i code : Nat) (is : SafView → Bool) : State :=
  let hit := (List.range 2).filter (fun ch => is (s.safView ch))
  if hit.isEmpty then s
  else ((hit.foldl (fun (s : State) ch => s.setView ch ((s.safView ch).put i (3, false))) s).reactIf i code i).safShow
/-- DISC expires with the contacts disagreeing. -/
def State.discExpiry (s : State) (i : Nat) : State := s.pairFault_ i 2 (fun v => decide (i ∈ v.timers))
/-- Both contacts of a FAULT pair have read at their open level for DISC. -/
def State.faultOpen (s : State) (i : Nat) : State :=
  ((List.range 2).foldl (fun (s : State) ch =>
    let v := s.safView ch
    let a := atClosed (s.pairMode ch i) v.contacts i
    if v.st i = 3 ∧ !a.1 ∧ !a.2 then s.setView ch (v.put i (0, false)) else s) s).safShow
/-- A test pulse on a contact of pair `i` (R259): whether the contact read open in its last 100 µs. -/
def State.testPulse (s : State) (i : Nat) (isOpen : Bool) : State :=
  if isOpen ∨ s.sp (pairO i) 1 = 0 ∨ s.sp (pairO i + 4) 1 ≠ 1 then s else s.pairFault_ i 3 (fun _ => true)

/-! ### Feedback and switch tests (R260, R261) -/

/-- The output that names feedback input `f`. -/
def State.fbOwner (s : State) (f : Nat) : Option Nat := (List.range 4).find? (fun o => s.sp (outSp o + 2) 1 == f)
/-- Feedback input `f` reads level `lvl` FBTIME after its command or its change: a mismatch is latched. -/
def State.feedback (s : State) (f : Nat) (lvl : Bool) : State :=
  let s := s.setReg SAF_OUTPUTS (setBits (s.reg SAF_OUTPUTS) (8 + f) (8 + f) (bit lvl))
  match s.fbOwner f with
  | none => s
  | some o =>
    if lvl != s.outOn o then s
    else ((s.setReg SAF_OUTPUTS (setBits (s.reg SAF_OUTPUTS) (12 + f) (12 + f) 1)).react 8 f).safShow
/-- A switch of output `o` is tested (R261): of a safe output while energised with TPOFF ≠ 0, the high side and the low side by turns; of a
brake before its release, the high side and then the low side. -/
def State.switchTest (s : State) (o : Nat) (passed : Bool) : State :=
  let n := s.swTests o
  let runs := if o < 2 then s.outOn o && s.sp (outO o + 3) 1 != 0 else decide (o - 2 ∈ s.saf.relWait ∧ n < 2)
  if !runs then s else
  let s := (s.setSaf { s.saf with turn := storeSet (fun _ => 0) s.saf.turn o (if o < 2 then 1 - n else n + 1) }).emit (.safTest o (n == 1))
  if passed then s else s.react 9 o

/-! ### Safety connections (R262 to R267) -/

/-- STAT.STATE of connection `k`. -/
def State.connSt (s : State) (k : Nat) : Nat := s.fld (SAF_CONN_STAT_STATE k)
/-- Connection `k` becomes FAILED for a reason. -/
def State.connFail (s : State) (k code : Nat) : State :=
  let s := s.setConn k { s.safConn k with held := [], first := none, runs := 0 }
  ((s.setFld (SAF_CONN_STAT_STATE k) 4).reactIf (8 + k) code k).safShow
/-- Data is delivered: all zeros with FAILSAFE; ENABLE = 0 is a remote demand. -/
def State.connDeliver (s : State) (k : Nat) (data : List Byte) (failsafe : Bool) : State :=
  let d := if failsafe then List.replicate data.length 0 else data
  let en := ((d.headD 0).toNat % 2) == 1
  let s := (s.setConn k { s.safConn k with data := d }).setFlag (SAF_CONN_STAT_FAILSAFE k) failsafe
  let s := s.setFlag (SAF_CONN_STAT_ENABLE k) en
  (if en then s else s.reactIf (8 + k) 0x15 k).safShow
/-- The data and FAILSAFE of a PDU. -/
def pduLen (p : List Byte) : Nat := be p 2 2
def pduData (p : List Byte) : List Byte := slice p 16 (pduLen p)
def pduFs (p : List Byte) : Bool := (be p 1 1).testBit 2
def pduPaired (p : List Byte) : Bool := (be p 1 1).testBit 1
/-- A PDU's data is delivered. -/
def State.pduDeliver (s : State) (k : Nat) (p : List Byte) : State := s.connDeliver k (pduData p) (pduFs p)
/-- Two copies of one send agree (R266). -/
def pduSame (a b : List Byte) : Bool := slice a 2 (14 + pduLen a) == slice b 2 (14 + pduLen a) && pduFs a == pduFs b
/-- Path `v` of connection `k` is reported down. -/
def State.pathDown (s : State) (k v : Nat) : Bool := decide (s.sp (connO k + 14 + v) 1 ∈ s.saf.down)
/-- Connection `k` falls back to SINGLE: the held copies are delivered and the partner's path is marked down. -/
def State.fallBack (s : State) (k : Nat) : State :=
  let x := s.safConn k
  match x.held with
  | [] => s
  | (_, path, _, _) :: _ =>
    let s1 := (s.setConn k { x with held := [], first := none, runs := 0 }).setFld (SAF_CONN_STAT_STATE k) 2
    let s2 := s1.setFlag (if path = 0 then SAF_CONN_STAT_BDOWN k else SAF_CONN_STAT_ADOWN k) true
    x.held.foldl (fun s h => s.pduDeliver k h.2.2.1) s2
/-- The largest gap between the copies of a pair, in µs. -/
def State.skew (s : State) (k since : Nat) : State :=
  let g := min 65535 ((s.time.now - since) / 1000)
  if s.fld (SAF_CONN_SKEW_SKEW k) < g then s.setFld (SAF_CONN_SKEW_SKEW k) g else s
/-- A new copy of connection `k` has passed R265 (R266). -/
def State.newCopy (s : State) (k seq path : Nat) (p : List Byte) : State :=
  if s.connSt k = 4 then s else
  let s := s.setRegN (SAF_CONN_SEQ k) seq
  let x := s.safConn k
  match s.connSt k with
  | 1 => ((s.setConn k { x with first := some (seq, path, p, s.time.now), runs := 0 }).setFld (SAF_CONN_STAT_STATE k) 2).pduDeliver k p
  | 2 => (s.setConn k { x with first := some (seq, path, p, s.time.now) }).pduDeliver k p
  | 3 =>
    let s := s.setConn k { x with held := x.held ++ [(seq, path, p, s.time.now)] }
    if s.pathDown k (1 - path) || !pduPaired p then s.fallBack k else s
  | _ => s
/-- The partner copy of the last accepted SEQ (R266). -/
def State.partnerCopy (s : State) (k seq path : Nat) (p : List Byte) : State :=
  let x := s.safConn k
  match s.connSt k with
  | 2 => match x.first with
    | some (q, v, p0, t) =>
      if q = seq ∧ v ≠ path then
        let ok := pduSame p0 p && pduPaired p0 && pduPaired p && decide (s.time.now - t ≤ s.sp (connO k + 10) 2 * 1000)
        let n := if !ok then 0 else if x.runs ≠ 0 ∧ (x.runSeq + 1) % 2 ^ 32 = seq then x.runs + 1 else 1
        let s := (s.skew k t).setConn k { x with first := none, runs := n, runSeq := seq }
        if 3 ≤ n then
          (((s.setFld (SAF_CONN_STAT_STATE k) 3).setFlag (SAF_CONN_STAT_ADOWN k) false).setFlag (SAF_CONN_STAT_BDOWN k) false).safShow
        else s
      else s
    | none => s
  | 3 => match x.held.find? (fun h => h.1 == seq && h.2.1 != path) with
    | some (_, _, p0, t) =>
      let s := s.skew k t
      if pduSame p0 p then (s.setConn k { x with held := x.held.filter (fun h => h.1 != seq) }).pduDeliver k p0
      else s.connFail k 6
    | none => s
  | _ => s
/-- A frame counts in FOREIGN. -/
def State.foreign (s : State) : State := s.fldSat SAF_STAT2_FOREIGN 1
/-- The PDU of a profile connection (R267): the profile's own checks and the place of its data stand in IEC 61784-3, so whether it passes
and its ENABLE bit are free. (log 71, DESIGN CHOICE) -/
def State.profilePdu (s : State) (k : Nat) : State :=
  let good := Config.freeBool s.free
  let en := Config.freeBool (s.free + 1)
  let s := s.drew.drew
  if !good then s.connFail k 4
  else if s.connSt k = 4 then s
  else ((s.setFld (SAF_CONN_STAT_STATE k) 2).connDeliver k [b8 (bit en)] false)
/-- The consumer connection a CONNID names. -/
def State.connOf (s : State) (id role : Nat) : Option Nat :=
  (List.range 16).find? (fun k => s.role k == role && s.sp (connO k + 4) 4 == id)
/-- A frame that reached fabric port 30 with its SRC is checked (R251, R265). A copy that fails check 1 or 2 counts in the connection its
CONNID names; where it names none, no register holds the count. (log 131, DEDUCED) -/
def State.pduCheck (s : State) (f : List Byte) (src : Nat) : State :=
  let pos := typePos f
  let p := (noFcs f).drop (pos + 2)
  if be f pos 2 ≠ s.sp 4 2 then s.foreign
  else if s.saf.halt then s
  else
    let v0 := be p 0 1
    if 0x21 ≤ v0 ∧ v0 ≤ 0x23 then
      match s.connOf (be p 1 4) 3 with
      | some k => if s.sp (connO k + 1) 1 = v0 - 0x20 then s.profilePdu k else s.foreign
      | none => s.foreign
    else
      let len := pduLen p
      let con := s.connOf (be p 4 4) 2
      let crcErr (s : State) : State := match con with
        | some k => s.fldSat (SAF_CONN_ERR_CRCERR k) 1
        | none => s
      if v0 ≠ 0x10 ∨ p.length < 20 + len then crcErr s
      else if (crcF (p.take (16 + len))).toNat ≠ be p (16 + len) 4 then crcErr s
      else match con with
        | none => s.foreign
        | some k =>
          let path := be p 1 1 % 2
          let o := connO k
          if s.sp (o + 14 + path) 1 ≠ src ∨ !(s.sp (o + 2) 1).testBit path then s.fldSat (SAF_CONN_ERR_PATHERR k) 1
          else if be p 12 2 ≠ s.sp (o + 8) 2 ∨ len ≠ s.sp (o + 3) 1 then s.connFail k 7
          else
            let seq := be p 8 4
            let x := s.safConn k
            let d := uns 32 ((seq : Int) - s.regN (SAF_CONN_SEQ k))
            let other := (x.first.map (fun h => h.1 == seq && h.2.1 != path)).getD false || x.held.any (fun h => h.1 == seq && h.2.1 != path)
            if s.connSt k = 1 ∨ (1 ≤ d ∧ d ≤ s.sp (o + 19) 1) then s.newCopy k seq path p
            else if d = 0 ∧ other ∧ (s.sp (o + 2) 1).testBit 2 then s.partnerCopy k seq path p
            else s.fldSat (SAF_CONN_ERR_SEQERR k) 1
/-- The oldest frame delivered to Saffron is taken. -/
def State.pduReceive (s : State) : State :=
  match s.saf.rx with
  | [] => s
  | (f, src) :: t => (s.setSaf { s.saf with rx := t }).pduCheck f src
/-- The compare window of the oldest held copy of connection `k` expires. -/
def State.cmpExpiry (s : State) (k : Nat) : State :=
  if s.saf.halt then s else
  match s.connSt k, (s.safConn k).held with
  | 3, (_, path, _, _) :: _ => if s.pathDown k (1 - path) then s.fallBack k else s.connFail k 5
  | _, _ => s
/-- The watchdog of connection `k` expires. -/
def State.connWdog (s : State) (k : Nat) : State :=
  if !s.saf.halt ∧ (s.connSt k = 2 ∨ s.connSt k = 3) then s.connFail k 4 else s
/-- A SAFE path-state report for a fabric port. -/
def State.pathReport (s : State) (port : Nat) (up : Bool) : State :=
  let rest := s.saf.down.filter (· != port)
  let s := s.setSaf { s.saf with down := if up then rest else port :: rest }
  (List.range 16).foldl (fun s k =>
    if s.role k ≠ 2 then s
    else if up then
      let s := if s.sp (connO k + 14) 1 = port then s.setFlag (SAF_CONN_STAT_ADOWN k) false else s
      if s.sp (connO k + 15) 1 = port then s.setFlag (SAF_CONN_STAT_BDOWN k) false else s
    else match s.connSt k, (s.safConn k).held with
      | 3, (_, path, _, _) :: _ => if s.pathDown k (1 - path) then s.fallBack k else s
      | _, _ => s) s
/-- DATA byte 0 of producer `k` (R262). -/
def State.prodByte0 (s : State) (k : Nat) : Nat :=
  let mask := s.sp (connO k + 18) 1
  bit ((List.range 8).all (fun i => !mask.testBit i || s.pairSt i == 1) && !s.saf.latched) + 2 * bit s.saf.latched
/-- The frame of one copy of producer `k`. -/
def State.prodFrame (s : State) (k path seq : Nat) : List Byte :=
  let o := connO k
  let paths := s.sp (o + 2) 1
  let paired := paths % 4 == 3 && !s.pathDown k 0 && !s.pathDown k 1
  let fs := s.saf.base < 2 || s.saf.halt
  let len := s.sp (o + 3) 1
  let pairs := (List.range 8).foldl (fun n i => n + (if s.pairSt i = 1 then 2 ^ i else 0)) 0
  let data := padTo len [b8 (s.prodByte0 k), b8 pairs, b8 (s.regN SAF_OUTPUTS % 16), b8 (s.fld SAF_REASON_CODE)]
  let head := [b8 0x10, b8 (path + 2 * bit paired + 4 * bit fs)] ++ beBytes 2 len ++ beBytes 4 (s.sp (o + 4) 4) ++ beBytes 4 seq ++
    beBytes 2 (s.sp (o + 8) 2) ++ [0, 0]
  let pdu := head ++ data
  let f := slice s.spb (o + 20) 6 ++ (List.range 6).map Config.deviceAddr ++ beBytes 2 (s.sp 4 2) ++ pdu ++ beBytes 4 (crcF pdu).toNat
  withFcs (f ++ List.replicate (60 - f.length) 0)
/-- The frame with the PDU of profile connection `k` (R267): its type, the CONNID and the profile's own PDU. -/
def State.profileFrame (s : State) (k : Nat) : List Byte :=
  let f := (List.range 6).map Config.profileDa ++ (List.range 6).map Config.deviceAddr ++ beBytes 2 (s.sp 4 2) ++
    [b8 (0x20 + s.sp (connO k + 1) 1)] ++ beBytes 4 (s.sp (connO k + 4) 4) ++ (Config.profilePdu s.free).take 1400
  withFcs (f ++ List.replicate (60 - f.length) 0)
/-- A producer connection sends its copies, a profile connection its PDU (R264, R267); in STROLL and RETAIN none does (R276). `agree`: the CRC
that channel B recomputes is that of each copy; where it is not, none is sent. -/
def State.producerSend (s : State) (k : Nat) (agree : Bool) : State :=
  if s.asleep then s
  else if s.role k = 3 then
    ((s.inject 30 { s.ingrNew 30 0 0 with fcNamed := some (s.sp (connO k + 16) 1) } (s.profileFrame k)).1).drew
  else if s.role k ≠ 1 then s
  else if !agree then s.react 0x0B 0 else
  let x := s.safConn k
  let paths := s.sp (connO k + 2) 1
  let send (s : State) (path : Nat) : State :=
    if paths.testBit path then
      (s.inject 30 { s.ingrNew 30 0 0 with fcNamed := some (s.sp (connO k + 16 + path) 1) } (s.prodFrame k path x.next)).1
    else s
  let s := (s.setConn k { x with next := (x.next + 1) % 2 ^ 32 }).setRegN (SAF_CONN_SEQ k) x.next
  send (send s 0) 1

/-! ### Brake test (R246, R268, R269) and the safety cycle (R249) -/

/-- The position of brake `b`'s cell. -/
def State.brakePos (s : State) (b : Nat) : Nat := s.regN (NUT_POS (s.sp (brakeO b + 17) 1))
/-- The positions of the last 100 ms. -/
def State.posList (s : State) (b : Nat) : List (Nat × Nat) := storeGet (fun _ => []) s.saf.pos b
/-- Entries of the last 100 ms and the one before them. -/
def posKeep (now : Nat) : List (Nat × Nat) → List (Nat × Nat)
  | a :: b :: t => if b.1 + 100000000 ≤ now then posKeep now (b :: t) else a :: b :: t
  | l => l
/-- The position of brake `b` is remembered where it has changed. -/
def State.posNote (s : State) (b : Nat) : State :=
  let l := posKeep s.time.now (s.posList b)
  let p := s.brakePos b
  let l := match l.getLast? with
    | some (_, q) => if q = p then l else l ++ [(s.time.now, p)]
    | none => [(s.time.now, p)]
  s.setSaf { s.saf with pos := storeSet (fun _ => []) s.saf.pos b l }
/-- The signed distance of two positions without its sign. -/
def posDist (a b : Nat) : Nat := (sgn 32 (uns 32 ((a : Int) - b))).natAbs
/-- The movement of brake `b`'s cell in the last 100 ms. -/
def State.posMoved (s : State) (b : Nat) : Nat :=
  (posKeep s.time.now (s.posList b)).foldl (fun m e => max m (posDist e.2 (s.brakePos b))) 0
/-- One safety cycle of a running brake test. -/
def State.testCheck (s : State) : State :=
  match s.saf.bt with
  | some (b, 1, p0) =>
    let d := posDist (s.brakePos b) p0
    let s := if s.regN (SAF_BTDEV b) < d then s.setRegN (SAF_BTDEV b) d else s
    if s.sp (brakeO b + 12) 4 < d then s.react 0x0A b else s
  | _ => s
/-- The cycle record of channel `ch` (R249). -/
def State.cycRecord (s : State) (ch : Nat) : SafCyc :=
  { pairs := (s.safView ch).pairs, conns := (List.range 16).map (fun k => (s.connSt k, (s.safConn k).data)),
    outs := if ch = 0 then s.saf.swA else s.saf.swB, reason := s.fld SAF_REASON_CODE }
/-- A safety cycle (R249): both channels write their records and compare them. `r`: nothing else happens, a fault of one channel makes its
record differ, one channel has written none for 300 µs. -/
def State.safetyCycle (s : State) (r : SafRec) : State :=
  let was := s.saf.differ
  let a := s.cycRecord 0
  let b := s.cycRecord 1
  let diff := r == .differ || a != b
  let s := if r == .silent then s else s.setSaf { s.saf with differ := diff, cycA := some a, cycB := some b }
  let s := if r == .silent || (diff && was) then s.react 0x0B 0 else s
  ((List.range 2).foldl (fun s b => s.posNote b) s.testCheck).safShow
/-- 10 ms after its acceptance Saffron sends the torque request of the brake test. -/
def State.testTorque (s : State) : State :=
  match s.saf.bt with
  | some (b, 0, p0) => s.setSaf { s.saf with bt := some (b, 1, p0) }
  | _ => s
/-- Cardamom takes the torque request (R246). -/
def State.testTake (s : State) : State :=
  match s.saf.bt with
  | some (b, 1, _) => s.brakeTorque (some (s.sp (brakeO b + 16) 1, w32 (s.sp (brakeO b + 8) 4)))
  | _ => s
/-- BTTIME ends the torque request; 20 ms later BTSO is de-energised and the result recorded. -/
def State.testEnd (s : State) : State :=
  match s.saf.bt with
  | some (b, 1, p0) => (s.setSaf { s.saf with bt := some (b, 2, p0) }).brakeTorque none
  | some (b, 2, _) =>
    let s := (s.setSaf { s.saf with bt := none }).outDrop (s.sp (brakeO b + 3) 1 % 2)
    ((s.setFld (SAF_BTEST_RESULT b) 2).setFld (SAF_BTEST_HOURS b) 0).safShow
  | _ => s
/-- A powered hour of brake `b` (R269). In OPERATIONAL the loss of the permit is a reaction whose code R253 does not give: a free value. (log 60, DESIGN CHOICE) -/
def State.brakeHour (s : State) (b : Nat) : State :=
  let ovr := s.btOver
  let s := (s.mramStored 0x30210000 0x30220000).fldSat (SAF_BTEST_HOURS b) 1
  let s := if s.btOver && !ovr && s.mode == modeOPERATIONAL && !s.saf.latched then s.drew.react (s.freeW.toNat % 256) b else s
  s.safShow

/-! ### Clocks and supply (R250), FCU request, VIN trip, warm reset (R252, R276) -/

def State.safClock (s : State) : State := (s.assertSrc 7).react 0x0C 0
/-- The SAF supply leaves the window of monitor `ch`. -/
def State.safSupply (s : State) (ch : Nat) : State := (s.setSaf { s.saf with sup := s.saf.sup ||| 2 ^ ch }).react 0x0D ch
/-- The SAF supply is back in both windows. (log 41, DEDUCED) -/
def State.safSupplyBack (s : State) : State := if s.saf.sup = 0 then s else s.setSaf { s.saf with sup := 0, supAt := s.time.now }
/-- The FCU's safe-state request. -/
def State.safRequest (s : State) : State := s.react 0x0E 0
/-- A warm reset reaches Saffron: it reacts, and restarts once every output is off. -/
def State.safWarm (s : State) : State := let s := s.react 0x10 0; s.setSaf { s.saf with restart := true }
/-- Connections at a start: configured ones wait. -/
def State.connStart (s : State) : State :=
  (List.range 16).foldl (fun s k =>
    let s := (s.setConn k SafConn.reset).resetRange (SAF_CONN_STAT k) (SAF_CONN_STAT k + 0x10)
    s.setFld (SAF_CONN_STAT_STATE k) (if s.role k = 2 ∨ s.role k = 3 then 1 else 0)) s
/-- Saffron restarts as at power-on (R274, R276): records, hours and HALT stay, and the self-test runs. (log 103, DEDUCED) -/
def State.safRestart (s : State) : State :=
  let h0 := s.fld (SAF_BTEST_HOURS 0)
  let h1 := s.fld (SAF_BTEST_HOURS 1)
  let x := s.saf
  let inp := s.reg SAF_INPUTS &&& 0xFFFF0000#32
  let inB : SafView := ⟨x.inB.contacts, 0, []⟩
  let why := if x.halt then s.reg SAF_REASON &&& 0xFFFF#32 else 0
  let due := s.flag SAF_STAT_BTDUE
  let s := s.testAbort.resetRange 0x41600000 0x41700000
  let s := s.setSaf { SafSt.reset with base := 1, halt := x.halt, latched := x.halt, recA := x.recA, recB := x.recB, spb := x.recA.map (·.1), spbB := x.recB.map (·.1), recBad := x.recBad, inB := inB,
                                       sup := x.sup, supAt := x.supAt, rx := x.rx, pos := x.pos }
  let s := (s.setFld (SAF_BTEST_HOURS 0) h0).setFld (SAF_BTEST_HOURS 1) h1
  let s := ((s.setReg SAF_INPUTS inp).setReg SAF_REASON why).setFlag SAF_STAT_BTDUE due
  let s := s.setReg SAF_CCV_CONF ((x.recA.map (·.2)).getD 0)
  s.connStart.safShow
/-- SAFFRON_RESTART (R276). -/
def State.safRestartDue (s : State) : State :=
  if s.saf.restart then s.safRestart else s
/-- The start check (R275): a failed self-test names its test; `bad`: a record fails its read-back now. Connections that have run on the
blocks loaded at the restart run on (R264). -/
def State.safStartCheck (s : State) (fail : Option Nat) (bad : Bool) : State :=
  let s := s.setSaf { s.saf with base := 3 }
  match fail with
  | some t => s.react 0x14 t
  | none =>
    match s.saf.recA, s.saf.recB with
    | some a, some b =>
      let ca := crcF a.1
      let cb := crcF b.1
      let s := ((s.setReg SAF_CCV_A ca).setReg SAF_CCV_B cb).setReg SAF_CCV_CONF a.2
      if ca = a.2 ∧ cb = b.2 ∧ ca = cb ∧ !bad ∧ !s.saf.recBad then
        let t := s.setSaf { s.saf with spb := some a.1, spbB := some b.1, ccvOk := true }
        (if s.saf.spb = some a.1 ∧ s.saf.spbB = some b.1 then t else t.connStart).safShow
      else (s.setSaf { s.saf with spb := none, spbB := none }).react 0x11 0
    | _, _ => (s.setSaf { s.saf with spb := none, spbB := none }).react 0x12 0

/-! ### SAFE commands (R256, R268, R274, R369, R405) -/

/-- A record of class 4 is pending (R26, 15). (log 100, DEDUCED) -/
def State.class4Pending (s : State) : Bool :=
  (List.range 32).any (fun r => s.flag (FCU_REC_W2_PENDING r) && s.fld (FCU_REC_W0_CLASS r) == 4)
/-- The first unmet condition of R256. -/
def State.ackUnmet (s : State) : Option Nat :=
  let fbOk := (List.range 4).all (fun f => match s.fbOwner f with
    | some o => (s.regN SAF_OUTPUTS).testBit (8 + f) && !s.outOn o
    | none => true)
  let code := s.fld SAF_REASON_CODE
  let sup := code != 0x0D || (s.saf.sup == 0 && decide (s.saf.supAt + 100000000 ≤ s.time.now))
  if s.saf.halt then some 1
  else if !(List.range 8).all (fun i => !s.demand i || s.pairOk i) then some 2
  else if !fbOk then some 3
  else if !s.saf.ccvOk then some 4
  else if s.saf.latched && !(ackCode code && sup) then some 5
  else none
/-- The first unmet condition of R268 for brake `b`, the mode apart. -/
def State.testUnmet (s : State) (b : Nat) : Option Nat :=
  if !s.permitBut then some 2
  else if s.outOn (2 + b) then some 3
  else if s.sp (brakeO b + 12) 4 ≤ s.posMoved b then some 4
  else none
/-- A number of a payload. -/
def plN (p : List Byte) (o n : Nat) : Nat := ofLe (slice p o n)
/-- The fixed payload length of a SAFE command, none where it varies. -/
def safeLen (op : Nat) (p : List Byte) : Nat :=
  if op = 0x0902 ∨ op = 0x0904 ∨ op = 0x0906 then 4 else if op = 0x0909 then 1 else if op = 0x090A then 2
  else if op = 0x0903 then 4 + plN p 2 2 else 0
/-- A SAFE command of kind W. -/
def safeIsW (op : Nat) : Bool := op != 0x0901 && op != 0x0904
/-- The modes a SAFE command is accepted in. -/
def safeModes (op m : Nat) : Bool :=
  if op = 0x0902 then m == modePREOP || m == modeSAFESTOP
  else if op = 0x0903 ∨ op = 0x0905 ∨ op = 0x0906 ∨ op = 0x0907 then m == modeCOMMISSION
  else if op = 0x0908 then m == modeSAFESTOP
  else if op = 0x0909 then m == modePREOP || m == modeSAFEOP
  else true
/-- A command that starts a mode transition. -/
def safeMoves (op : Nat) : Bool := op == 0x0902 || op == 0x0906 || op == 0x0907 || op == 0x0908
/-- Channel `ch`'s checks of a SAFE command: CODE, DA and DB, or acceptance with CODE 0 (R351). (log 50, DESIGN CHOICE; 100, DEDUCED) -/
def State.safeCheck (s : State) (ch op : Nat) (p : List Byte) : Nat × Nat × Nat :=
  let m := s.mode
  if op < 0x0901 ∨ 0x090B < op then (0x8001, 0, 0)
  else if p.length ≠ safeLen op p then (0x8002, 0, 0)
  else if s.saf.halt ∧ op ≠ 0x0901 then (0x8062, s.fld SAF_REASON_CODE, 0)
  else if safeMoves op && s.busy then (0x8007, s.fld SYS_MODE_TARGET, 0)
  else if !safeModes op m then (0x8006, m, 0)
  else if op = 0x0902 then (if plN p 0 4 ≠ s.regN SAF_CCV_CONF then (0x8061, 0, 0) else (0, 0, 0))
  else if op = 0x0903 ∨ op = 0x0904 then
    let o := plN p 0 2
    let n := plN p 2 2
    let top := if op = 0x0903 then 44 else 40
    if 671 < o then (0x8005, 0, 0)
    else if n < 1 ∨ top < n ∨ 672 < o + n then (0x8005, 2, 0)
    else if op = 0x0903 && !spbRule1 (putBytes (s.spbOf ch) o (slice p 4 n)) o (o + n) then (0x8063, 1, 0)
    else (0, 0, 0)
  else if op = 0x0905 then (match spbBad (s.spbOf ch) with | some r => (0x8063, r, 0) | none => (0, 0, 0))
  else if op = 0x0906 then
    if plN p 0 4 ≠ (crcF (s.spbOf ch)).toNat then (0x8061, 0, 0)
    else match spbBad (s.spbOf ch) with
      | some r => (0x8063, r, 0)
      | none => (0, 0, 0)
  else if op = 0x0908 then
    match s.ackUnmet with
    | some n => (0x8060, n, 0)
    | none => if s.class4Pending then (0x8060, 1, 0) else (0, 0, 0)
  else if op = 0x0909 then
    if 1 < plN p 0 1 then (0x8005, 0, 0)
    else match s.testUnmet (plN p 0 1) with
      | some n => (0x8060, n, 0)
      | none => (0, 0, 0)
  else if op = 0x090A then (if 27 < plN p 0 1 then (0x8005, 0, 0) else if 1 < plN p 1 1 then (0x8005, 1, 0) else (0, 0, 0))
  else (0, 0, 0)
/-- A brake test that is refused, for whatever reason, is recorded, but not over the running test of the same brake (R268). (log 132, DEDUCED) -/
def State.safeRefused (s : State) (op : Nat) (p : List Byte) : State :=
  let b := plN p 0 1
  if op = 0x0909 ∧ p.length = 1 ∧ b ≤ 1 ∧ !s.saf.bt.any (fun t => t.1 == b) then s.setFld (SAF_BTEST_RESULT b) 4 else s
/-- COMMISSION is entered: the session starts from the stored safety parameter block (R274, R406). -/
def State.safCommission (s : State) : State := (s.setSaf { s.saf with base := 2, spb := s.saf.recA.map (·.1), spbB := s.saf.recB.map (·.1) }).safShow
/-- The code of an answer that both channels give together (R274): 0, SAFE_CCV where their check values differ, and where the records of a
confirm fail their read-back a code that the manual does not give. (log 133, DESIGN CHOICE) -/
def State.safeEnd (s : State) (op : Nat) (stored : Bool) : Nat :=
  if op = 0x0905 ∧ crcF (s.spbOf 0) ≠ crcF (s.spbOf 1) then 0x8061
  else if op = 0x0906 ∧ !stored then 1 + s.freeW.toNat % 65535
  else 0
/-- Both channels act on a command of kind W that both accepted; `cause` is the CAUSE of a transition; `stored`: the records that a confirm
writes read back well (R274). -/
def State.safeAct (s : State) (op : Nat) (p : List Byte) (cause : Nat) (stored : Bool) : State :=
  let move (s : State) (n m : Nat) : State := { s with modeq := s.modeq ++ [(n, m, cause)] }
  if op = 0x0902 then (move s 6 modeCOMMISSION).react 0x13 0
  else if op = 0x0903 then
    let put (ch : Nat) : Option (List Byte) := some (putBytes (s.spbOf ch) (plN p 0 2) (slice p 4 (plN p 2 2)))
    (s.setSaf { s.saf with spb := put 0, spbB := put 1 }).safShow
  else if op = 0x0905 then (s.setReg SAF_CCV_A (crcF (s.spbOf 0))).setReg SAF_CCV_B (crcF (s.spbOf 1))
  else if op = 0x0906 then
    let r (ch : Nat) : Option (List Byte × Word) := some (s.spbOf ch, crcF (s.spbOf ch))
    let s := (s.mramStored 0x30200000 0x30210000).setSaf { s.saf with recA := r 0, recB := r 1, recBad := !stored }
    if stored then move s.safRestart 7 modeBOOT else s.drew
  else if op = 0x0907 then move s.safRestart 7 modeBOOT
  else if op = 0x0908 then
    let s := s.reasonClear.setReg SAF_OUTPUTS (s.reg SAF_OUTPUTS &&& 0xFFF#32)
    let s := (List.range 16).foldl (fun s k => if s.connSt k = 4 then s.setFld (SAF_CONN_STAT_STATE k) 1 else s) s
    move s.safShow 15 modePREOP
  else if op = 0x0909 then
    let b := plN p 0 1
    let s := s.setSaf { s.saf with bt := some (b, 0, s.brakePos b) }
    (((s.setOut4 (s.sp (brakeO b + 3) 1 % 2) true).setFld (SAF_BTEST_RESULT b) 1).setRegN (SAF_BTDEV b) 0).safShow
  else if op = 0x090A then s.pathReport (plN p 0 1) (plN p 1 1 == 1)
  else if op = 0x090B then
    (List.range 16).foldl (fun s k => s.setReg (SAF_CONN_ERR k) 0) (s.setReg SAF_STAT2 0)
  else s
/-- The fields of a response after its codes (R369). -/
def State.safeFields (s : State) (ch op : Nat) (p : List Byte) : List Byte :=
  let w (a : Nat) : List Byte := leBytes 4 (s.regN a)
  if op = 0x0901 then w SAF_STAT ++ w SAF_REASON ++ w SAF_INPUTS ++ w SAF_OUTPUTS ++ w SAF_CCV_A ++ w SAF_CCV_B ++ w SAF_CCV_CONF
  else if op = 0x0904 then slice (s.spbOf ch) (plN p 0 2) (plN p 2 2)
  else if op = 0x0905 then w SAF_CCV_A ++ w SAF_CCV_B
  else []

/-- Channel `ch` answers a message it took from mailbox channel `c`. (log 59, DEDUCED) -/
def State.safAnswer (s : State) (c : Nat) (m : List Byte) (code : Nat × Nat × Nat) (pl : List Byte) : State :=
  let r := respMsg m code.1 code.2.1 code.2.2 pl
  if s.chanFull (c + 1) then s.chanRefuse (c + 1) else s.chanPush (c + 1) r
/-- The channel of the mailbox a Saffron channel takes commands of a sender from: sender 0 the host, 1 core 0 (R334). -/
def safChan (ch snd : Nat) : Nat := 88 + 2 * ch + 4 * snd
/-- The command channel `ch` holds for a sender ends as unpaired. -/
def State.safUnpair (s : State) (ch snd : Nat) : State :=
  match s.saf.held.find? (fun h => h.1 == ch && h.2.1 == snd) with
  | none => s
  | some (_, _, m) =>
    (s.setSaf { s.saf with held := s.saf.held.filter (fun h => !(h.1 == ch && h.2.1 == snd)) }).safAnswer (safChan ch snd) m (0x8064, 0, 0) []
/-- The payload of a message. -/
def msgPl (m : List Byte) : List Byte := slice m 16 (min 48 (plN m 6 2))
/-- Two copies of a command are identical (R405). -/
def safTwin (a b : List Byte) : Bool := slice a 2 6 == slice b 2 6 && msgPl a == msgPl b
/-- The copy of message `m` that the other channel of `ch` holds ends as unpaired; a command that is no copy of it stays held. -/
def State.safUnpairTwin (s : State) (ch snd : Nat) (m : List Byte) : State :=
  if s.saf.held.any (fun h => h.1 == 1 - ch && h.2.1 == snd && safTwin m h.2.2) then s.safUnpair (1 - ch) snd else s
/-- Saffron channel `ch` takes the oldest message a sender has sent it directly (R251, R405). -/
def State.safTake (s : State) (ch snd : Nat) (stored : Bool) : State :=
  let c := safChan ch snd
  match s.chan c with
  | [] => s
  | m :: _ =>
    let s := s.chanPop c
    let op := plN m 4 2
    let p := msgPl m
    let code := s.safeCheck ch op p
    if code.1 ≠ 0 then
      let s := if op / 256 = 9 && safeIsW op then s.safUnpairTwin ch snd m else s
      (s.safeRefused op p).safAnswer c m code []
    else if !safeIsW op then s.safAnswer c m (0, 0, 0) (s.safeFields ch op p)
    else
      let s := s.safUnpair ch snd
      match s.saf.held.find? (fun h => h.1 == 1 - ch && h.2.1 == snd) with
      | none => s.setSaf { s.saf with held := s.saf.held ++ [(ch, snd, m)] }
      | some (_, _, m') =>
        if safTwin m m' then
          let s := s.setSaf { s.saf with held := s.saf.held.filter (fun h => !(h.1 == 1 - ch && h.2.1 == snd)) }
          let code := (s.safeEnd op stored, 0, 0)
          let s := s.safeAct op p (if snd = 0 then 1 else 2) stored
          (s.safAnswer c m code (s.safeFields ch op p)).safAnswer (safChan (1 - ch) snd) m' code (s.safeFields (1 - ch) op p)
        else (s.safUnpair (1 - ch) snd).safAnswer c m (0x8064, 0, 0) []

end Sys2Proof.Machine
end

