-- ==== Sys2Proof/Machine/Mem.lean ====
section
/-! DEFINITION. Local SRAM, MRAM and their errors (R295 to R304): write-backs, the scrubber, repair, the
readings of supplies and temperature. -/

namespace Sys2Proof.Machine

open Sys2Proof

/-! ### Errors (R296, R297) -/

/-- Bank `b` writes back the oldest corrected word that waits. -/
def State.eccWriteback (s : State) (b : Nat) : State :=
  match s.pwr.wb.find? (fun a => sramBank a == b) with
  | none => s
  | some a => s.setEcc a 0

/-- The scrubber reads one word of every powered bank (R297): `found` names banks whose word holds an error come about since, and
whether it is uncorrectable. -/
def State.scrubRead (s : State) (found : List (Fin 48 × Bool)) : State :=
  if !s.flag MEM_CTRL_SCRUBEN then s else
  let w := s.pwr.scrub
  let addr (b : Nat) : Nat := 0x20000000 + b * 0x40000 + w * 8
  let s := found.foldl (fun s e => if s.sgOn (e.1.val / 4) then s.setEcc (addr e.1) (if e.2 then 2 else 1) else s) s
  let s := (List.range 48).foldl (fun s b => if s.sgOn (b / 4) then (s.eccRead (addr b) none).1 else s) s
  { s with pwr := { s.pwr with scrub := (w + 1) % 32768 } }

/-! ### Repair (R300, R306) -/

/-- The fuses are loaded: REPSTAT of the banks named, the spares in use, and MEM_REPAIR where a fuse word fails its parity. -/
def State.fuseLoad (s : State) (f : List (Fin 48 × Fin 4096)) : State :=
  let spares (w : Nat) : Nat := (List.range 4).foldl (fun n k => n + min 2 (w / 8 ^ k % 4)) 0
  let bad (w : Nat) : Bool := (List.range 4).any (fun k => w.testBit (3 * k + 2))
  let s := f.foldl (fun s e => s.setFld (MEM_REPSTAT_SUB e.1) e.2) s
  let s := s.setFld MEM_REPSUM_SPARES (f.foldl (fun n e => n + spares e.2) 0)
  if f.any (fun e => bad e.2) then (s.setFlag MEM_STAT_REPAIRBAD true).assertSrc 309 else s

/-- Hamper's built-in test at a power-up from off: rows repaired, and rows retired by number. -/
def State.hampTest (s : State) (repaired : Nat) (retired : List Nat) : State :=
  let s := s.setFld MEM_REPSUM_HAMPREP repaired
  let s := (List.range (min repaired 512)).foldl (fun s _ => s.raise 308) s
  let s := (List.range 16).foldl (fun s i =>
    match (retired[i]?) with
    | some r => (s.setFlag (MEM_HAMPRET_VALID i) true).setFld (MEM_HAMPRET_CELL i) (r * 8)
    | none => s.setReg (MEM_HAMPRET i) 0) s
  let s := s.setFlag MEM_STAT_HAMPRET (!retired.isEmpty)
  if 16 < retired.length then (s.setFlag MEM_STAT_REPAIRBAD true).assertSrc 309 else s

/-! ### Supplies, clocks and temperature (R18, R380, R385, R399) -/

/-- Rail `r` leaves or regains its operating range: 0 to 7 the bits of PIN_IOSTAT, 8 VDD_CORE, 9 VDD_AO (R380). -/
def State.rail (s : State) (r : Nat) (good : Bool) : State :=
  if r < 8 then s.setReg PIN_IOSTAT (setBits (s.reg PIN_IOSTAT) r r (bit good)) else
  let m := 2 ^ (r - 8)
  let v := if good then s.pwr.rails &&& (3 - m) else s.pwr.rails ||| m
  let s := { s with pwr := { s.pwr with rails := v } }
  if v = 0 then s.clearSrc 9 else s.assertSrc 9

/-- The lock bit, the sticky bit and the source of a PLL: 0 PLL0, 1 PLL1, 2 PLL2, 3 SPLL0, 4 SPLL1, 5 the PHY PLL. -/
def pllLock (k : Nat) : Fld :=
  match k with
  | 0 => SYS_CLKSTAT_PLL0LK | 1 => SYS_CLKSTAT_PLL1LK | 2 => SYS_CLKSTAT_PLL2LK | 3 => SYS_CLKSTAT_SPLL0LK
  | 4 => SYS_CLKSTAT_SPLL1LK | _ => SYS_CLKSTAT_PHYLK
def pllSticky (k : Nat) : Option Fld :=
  match k with
  | 0 => some SYS_CLKSTAT_PLL0UL | 1 => some SYS_CLKSTAT_PLL1UL | 2 => some SYS_CLKSTAT_PLL2UL | 3 => some SYS_CLKSTAT_SPLL0UL
  | 4 => some SYS_CLKSTAT_SPLL1UL | _ => none
def pllSrc (k : Nat) : Nat := 1 + k
/-- PLL `k` loses lock while in use. -/
def State.pllLost (s : State) (k : Nat) : State :=
  let s := s.setFlag (pllLock k) false
  (match pllSticky k with | some f => s.setFlag f true | none => s).assertSrc (pllSrc k)
/-- PLL `k` locks. -/
def State.pllLocked (s : State) (k : Nat) : State := (s.setFlag (pllLock k) true).clearSrc (pllSrc k)

/-- The junction limit of the grade in 0.1 °C (R6). -/
def gradeLimit : Int := if Config.gradeXt 0 then 1250 else 1100
/-- The 1 ms reading of the sensors in 0.1 °C (R399, R281). -/
def State.tempRead (s : State) (t : BitVec 16) : State :=
  let s := (s.setFld SYS_TEMP_TEMP t.toNat).setFlag SYS_TEMP_VALID true
  let s := if gradeLimit - 50 < t.toInt then s.assertSrc 11 else s.clearSrc 11
  if gradeLimit < t.toInt then s.assertSrc 12 else s.clearSrc 12

/-! ### Power domains (R24, R307) -/

/-- Domain `d` takes a state: 0 off, 1 on, 2 retention, 3 changing. -/
def State.setDom2 (s : State) (d v : Nat) : State := s.setReg PWR_DOMSTAT (setBits (s.reg PWR_DOMSTAT) (2 * d + 1) (2 * d) v)
def State.domSt (s : State) (d : Nat) : Nat := bits (s.reg PWR_DOMSTAT) (2 * d + 1) (2 * d)

end Sys2Proof.Machine
end

