-- ==== Sys2Proof/Machine/Prot.lean ====
section
/-! DEFINITION. Protocol instances (R164 to R177): what each image costs, starts, stops, exchange and its loss. -/

namespace Sys2Proof.Machine

open Sys2Proof

/-- Instance `i`. -/
def State.inst (s : State) (i : Nat) : Option InstSt := storeGet (fun _ => none) s.prot i
def State.setInst (s : State) (i : Nat) (x : Option InstSt) : State := { s with prot := storeSet (fun _ => none) s.prot i x }
/-- The running instances in rising order. -/
def State.insts (s : State) : List (Nat × InstSt) := (List.range 4).filterMap (fun i => (s.inst i).map (fun x => (i, x)))

/-- A row of R165: image, engines, contexts, software units, reserved cells, whether it follows a domain, the minimum cycle in ns and of
PROFINET that of RT (0 none), the maximum of peers (of a PROFINET device its IRT ARs) and of the second kind named beside them (0 none), and its attachments: 0 one or two
Ethernet ports, 1 two, 2 any, 3 a CAN controller, 4 Nutmeg cells. -/
structure ImgSpec where
  id : Nat
  engs : Nat
  fcs : Nat
  units : Nat
  cells : Nat
  follows : Bool
  cycle : Nat
  rt : Nat
  peers : Nat
  peers2 : Nat
  att : Nat
deriving DecidableEq, Repr

/-- The images of release 4.2 (R165). -/
def imgSpecs : List ImgSpec :=
  [ ⟨0x0101, 2, 12, 1, 48, true, 31250, 250000, 1, 3, 0⟩, ⟨0x0102, 4, 64, 4, 256, false, 125000, 250000, 64, 0, 0⟩,
    ⟨0x0201, 1, 2, 1, 16, true, 12500, 0, 1, 0, 1⟩, ⟨0x0202, 4, 8, 4, 128, false, 62500, 0, 256, 0, 0⟩,
    ⟨0x0301, 1, 4, 1, 32, true, 31250, 0, 1, 0, 1⟩, ⟨0x0302, 4, 8, 2, 128, false, 31250, 0, 256, 0, 1⟩,
    ⟨0x0401, 1, 4, 1, 32, true, 100000, 0, 1, 0, 0⟩, ⟨0x0402, 2, 8, 2, 64, false, 200000, 0, 239, 0, 0⟩,
    ⟨0x0501, 2, 8, 2, 64, true, 250000, 0, 16, 4, 0⟩, ⟨0x0502, 4, 32, 4, 128, false, 500000, 0, 128, 32, 0⟩,
    ⟨0x0601, 1, 8, 1, 32, true, 31250, 0, 1, 0, 0⟩ ] ++
  [ ⟨0x0602, 2, 32, 2, 128, false, 125000, 0, 120, 0, 0⟩, ⟨0x0701, 1, 0, 1, 0, false, 0, 0, 32, 0, 2⟩,
    ⟨0x0702, 1, 0, 1, 0, false, 0, 0, 32, 0, 2⟩, ⟨0x0803, 2, 32, 2, 64, true, 50000, 0, 64, 64, 0⟩,
    ⟨0x0901, 1, 0, 0, 0, false, 500000, 0, 1, 0, 3⟩, ⟨0x0902, 1, 0, 0, 0, false, 1000000, 0, 127, 0, 3⟩,
    ⟨0x0A01, 1, 0, 0, 0, false, 250000, 0, 1, 0, 3⟩, ⟨0x0A02, 1, 0, 0, 0, false, 250000, 0, 127, 0, 3⟩,
    ⟨0x0B03, 1, 0, 0, 0, false, 250000, 0, 64, 8, 3⟩, ⟨0x0C02, 1, 0, 1, 0, false, 400000, 0, 16, 0, 4⟩ ]
def imgSpec (id : Nat) : Option ImgSpec := imgSpecs.find? (fun x => x.id == id)

/-- The cycle of an instance: the IRT cycle of PROFINET where it has one, else the RT cycle (R165). -/
def netCycle (c : InstCfg) : Nat := if c.cycle = 0 then c.rt else c.cycle
/-- A configured cycle lies below the minimum of its image: each of the two of PROFINET that is in use, of which one is; a CAN instance has one
only with SYNC (R165, R166). -/
def cycleBad (x : ImgSpec) (c : InstCfg) : Bool :=
  if x.rt ≠ 0 then decide ((c.cycle ≠ 0 ∧ c.cycle < x.cycle) ∨ (c.rt ≠ 0 ∧ c.rt < x.rt) ∨ (c.cycle = 0 ∧ c.rt = 0))
  else decide (c.cycle < x.cycle) && (c.sync || !(x.id / 256 == 9 || x.id / 256 == 10))
/-- A configuration has more peers than its image allows: of IO-Link the ports count, one per cell (R165, R166). -/
def peersBad (x : ImgSpec) (c : InstCfg) : Bool :=
  decide (x.peers < (if x.att = 4 then max c.peers c.cells else c.peers)) || (x.peers2 != 0 && decide (x.peers2 < c.peers2))
/-- LOSSCNT of an instance: 1 to 255, 3 where the configuration gives none (R177). -/
def lossCnt (c : InstCfg) : Nat := if c.loss = 0 then 3 else min 255 c.loss
/-- The retry budget exceeds the upper timeout less the larger of one cycle and 10 % of it (R176). -/
def budgetBad (c : InstCfg) : Bool :=
  c.upper != 0 && (decide (c.upper < c.retry + netCycle c) || decide (10 * c.upper < 10 * c.retry + c.upper))
/-- The protocol number of an image. -/
def protoOf (img : Nat) : Nat := img / 256
/-- The image is isochronous (R173). -/
def isIso (img : Nat) : Bool := let p := protoOf img; (decide (1 ≤ p ∧ p ≤ 6)) || p == 8
/-- The instance has a loss count (R177). -/
def InstSt.hasLoss (x : InstSt) : Bool :=
  let p := protoOf x.cfg.image
  isIso x.cfg.image || ((p == 9 || p == 10) && x.cfg.sync) || p == 11
/-- The bits of a mask below `n`. -/
def bitsOf (n m : Nat) : List Nat := (List.range n).filter (fun i => m.testBit i)
def popc (m : Nat) : Nat := (bitsOf 32 m).length

/-- The instance's INSTANCE notice (R349). -/
def State.instNotice (s : State) (i st tries late : Nat) : State :=
  s.fwNotice 0x04F0 ([b8 i, b8 st] ++ leBytes 2 0 ++ leBytes 4 tries ++ leBytes 4 late)
/-- Instance `i` changes state. -/
def State.instState (s : State) (i st : Nat) : State :=
  match s.inst i with
  | none => s
  | some x => if x.st = st then s else (s.setInst i (some { x with st := st })).instNotice i st 0 0

/-- Engine `e` belongs to an instance or to the line-master service. -/
def State.engUsed (s : State) (e : Nat) : Bool :=
  (s.line.holds && decide (8 ≤ e)) || s.insts.any (fun x => decide (x.2.eng ≤ e ∧ e < x.2.eng + x.2.engs))
/-- The software units in use: the instances', and those the configuration reserved at BOOT (R170). -/
def State.unitsUsed (s : State) : Nat := s.insts.foldl (fun n x => n + x.2.units) s.sys.kept
/-- A fabric port a safety connection names as PORTA or PORTB. -/
def State.pathNamed (s : State) (p : Nat) : Bool :=
  (List.range 16).any (fun k => s.role k != 0 && (s.sp (connO k + 14) 1 == p || s.sp (connO k + 15) 1 == p))
/-- Firmware reports the paths over a port to Saffron (R369). -/
def State.fwPath (s : State) (p : Nat) (up : Bool) : State :=
  if s.fw.running && s.pathNamed p then s.pathReport p up else s

/-- The attachments of a configuration fit its image's row, and it names none of another kind (R165). -/
def attOk (x : ImgSpec) (c : InstCfg) : Bool :=
  let n := popc (c.ports % 4096)
  (decide (x.att < 3) || n == 0) && (x.att == 3 || c.can.isNone) && (x.att == 4 || c.cells == 0) &&
  match x.att with
  | 0 => n == 1 || n == 2
  | 1 => n == 2
  | 2 => decide (1 ≤ n)
  | 3 => decide (c.can.getD 4 < 4)
  | _ => decide (1 ≤ c.cells ∧ c.cell + c.cells ≤ 32)
/-- The first port, controller or cell of a configuration that R173 does not allow. -/
def State.attClash (s : State) (c : InstCfg) : Option Nat :=
  let portBad (p : Nat) : Bool := s.insts.any (fun x =>
    x.2.cfg.ports.testBit p && ((isIso c.image && isIso x.2.cfg.image)
      || decide (2 ≤ protoOf x.2.cfg.image ∧ protoOf x.2.cfg.image ≤ 4) || decide (2 ≤ protoOf c.image ∧ protoOf c.image ≤ 4)))
  match (bitsOf 12 c.ports).find? portBad with
  | some p => some p
  | none =>
    match (match c.can with | some n => if s.insts.any (fun x => x.2.cfg.can == some n) then some n else none | none => none) with
    | some n => some n
    | none => ((List.range c.cells).map (c.cell + ·)).find? (fun k =>
        s.insts.any (fun x => decide (x.2.cfg.cell ≤ k ∧ k < x.2.cfg.cell + x.2.cfg.cells)))
/-- The lowest free aligned group of `n` engines (R168). -/
def State.engGroup (s : State) (n : Nat) : Option Nat :=
  let top := if s.line.holds then 8 else 16
  ((List.range 16).filter (fun e => e % n == 0 && decide (e + n ≤ top))).find? (fun e => (List.range n).all (fun k => !s.engUsed (e + k)))
/-- The bits of DISP_CLCFG that join `n` engines from `e`. -/
def clusterBits (e n : Nat) : Nat :=
  if n = 2 then 2 ^ (e / 2)
  else if n = 4 then 2 ^ (e / 2) + 2 ^ (e / 2 + 1) + 2 ^ (8 + e / 4)
  else if n = 8 then 15 * 2 ^ (e / 2) + 3 * 2 ^ (8 + e / 4) + 2 ^ (12 + e / 8)
  else 0
/-- The bits of DISP_CLCFG whose clusters take in one of `n` engines from `e`. -/
def clusterCover (e n : Nat) : Nat :=
  let f (k o : Nat) : Nat := (List.range (16 / k)).foldl (fun m i => m + (if k * i < e + n ∧ e < k * i + k then 2 ^ (o + i) else 0)) 0
  f 2 0 + f 4 8 + f 8 12 + f 16 14
/-- DISP_CLCFG with `n` engines from `e` as one cluster, every cluster apart from them as it is (R168). -/
def clusterJoin (w : Word) (e n : Nat) : Word := (w &&& ~~~(w32 (clusterCover e n))) ||| w32 (clusterBits e n)
/-- The permission masks of an image (R175). -/
def permOf (img : Nat) : Nat × Nat :=
  let p := protoOf img
  if p = 7 then (0x2033F1, 0x202000)
  else if p = 9 ∨ p = 10 ∨ p = 11 then (0x2073F1, 0x206040)
  else if p = 12 then (0x20B3F1, 0x208000)
  else if img % 256 = 2 then (0x2033F1, 0x202060)
  else (0x2033F1, 0x202070)
/-- An engine's memories take an image (R363). -/
def EngSt.load (e : EngSt) (img : List Byte) : EngSt :=
  let n (o k : Nat) : Nat := ofLe (slice img o k)
  let word (i : Nat) : Word := w32 (ofLe (slice img (32 + 4 * i) 4))
  let ni := n 12 2
  let nd := n 20 1
  let nu := n 14 2
  let e := (List.range ni).foldl (fun e i => e.setWord 0 (4 * i) (word i)) e
  let e := (List.range nd).foldl (fun e i => e.setWord 3 (4 * i) (word (ni + i))) e
  let e := (List.range nu).foldl (fun e i => e.setWord 2 (4 * i) (word (ni + nd + i))) e
  e.setD 0 (slice img (32 + 4 * (ni + nd + nu)) (n 16 4))
/-- The flow contexts an instance of `n` contexts takes, from 255 downward (R169). -/
def State.fcFree (s : State) (n : Nat) : List Nat :=
  (((List.range 256).map (255 - ·)).filter (fun f => !s.flag (SWX_FC_CFG_VALID f) && !s.insts.any (fun x => x.2.fcs.contains f))).take n
/-- The register settings of an instance beside its cluster and its flow contexts; an EtherType that finds no free entry gets none (R174). (log 111, DESIGN CHOICE) -/
def State.instAssert (s : State) (x : InstSt) : State :=
  let es := (List.range x.engs).map (x.eng + ·)
  let s := es.foldl (fun s e => (s.setRegN (ENG_PERMR e) (permOf x.cfg.image).1).setRegN (ENG_PERMW e) (permOf x.cfg.image).2) s
  let s := x.cfg.entries.foldl (fun s e => s.setReg (DISP_ENTRY x.eng (e.1 % 5)) (e.2 &&& 0x3FFFFFFF#32)) s
  let l0 := s.fld (DISP_ENTRY_LEVEL x.eng 0)
  let want := 64 * x.engs
  let s := (List.range 8).foldl (fun (r : State × Nat) l =>
      if l = l0 ∨ r.2 = 0 then r else
      let c := r.1.fld (DISP_CAP_CAP x.eng l)
      (r.1.setFld (DISP_CAP_CAP x.eng l) (c - r.2), r.2 - c)) (s, want - s.fld (DISP_CAP_CAP x.eng l0)) |>.1
  let s := s.setFld (DISP_CAP_CAP x.eng l0) want
  let ps := bitsOf 12 x.cfg.ports
  let s := if isIso x.cfg.image then ps.foldl (fun s p => s.setFlag (MAC_CTRL_ISOPROT p) true) s else s
  let mine (s : State) (k : Nat) : Bool := s.flag (SWX_ETYPE_MATCH_VALID k) && s.fld (SWX_ETYPE_MATCH_DEST k) == 12 + x.eng
  let s := x.cfg.etypes.foldl (fun s t =>
    let same := (List.range 16).find? (fun k => mine s k && s.fld (SWX_ETYPE_MATCH_ETHERTYPE k) == t)
    match (match same with | some k => some k | none => (List.range 16).find? (fun k => !s.flag (SWX_ETYPE_MATCH_VALID k))) with
    | none => s
    | some k => (s.setRegN (SWX_ETYPE_MATCH k) (2 ^ 31 + (12 + x.eng) * 65536 + t % 65536)).setRegN (SWX_ETYPE_PORTS k) (x.cfg.ports % 4096)) s
  (if netCycle x.cfg = 0 then s else ps.foldl (fun s p => s.setRegN (SWX_NETCYC p) (netCycle x.cfg % 2 ^ 31)) s).isoSync
/-- The words of the flow contexts of an instance by address (R169, R174). -/
def fcLog (fs : List Nat) (c : InstCfg) : List (Nat × Word) :=
  (fs.zip c.fcs).flatMap (fun x => x.2.map (fun w => (SWX_FC_CFG x.1 + 4 * (w.1 % 16), w.2)))
/-- The cluster of an instance in DISP_CLCFG (R168, R174). -/
def State.instCluster (s : State) (x : InstSt) : State := s.clcfgWrite (clusterJoin (s.reg DISP_CLCFG) x.eng x.engs)
/-- Every instance is in cyclic exchange (R26, transition 9). (log 110, DEDUCED) -/
def State.allCyclic (s : State) : Bool := s.insts.all (fun x => x.2.st == 3)
/-- The pacing instance, 4 for none (R27). -/
def State.pacing (s : State) : Nat :=
  match s.insts.find? (fun x => x.2.st == 3 && x.2.dom == 0 && ((imgSpec x.2.cfg.image).map (·.follows)).getD false) with
  | some x => x.1
  | none => ((s.insts.find? (fun x => x.2.st == 3 && x.2.hasLoss)).map (·.1)).getD 4
/-- The modes in which cyclic exchange runs (R25). -/
def State.cyclicMode (s : State) : Bool :=
  decide (s.mode = modeSAFEOP ∨ s.mode = modeOPERATIONAL ∨ s.mode = modeDEGRADED ∨ s.mode = modeSAFESTOP) ||
    (s.trans.map (fun t => t.num == 8)).getD false
/-- Instance `i` enters or regains cyclic exchange (R177, R369). -/
def State.cyclicStart (s : State) (i : Nat) : State :=
  match s.inst i with
  | none => s
  | some x =>
    if !s.cyclicMode ∨ x.st = 3 then s
    else (bitsOf 12 x.cfg.ports).foldl (fun s p => s.fwPath p true) (s.instState i 3)
/-- LOSSCNT cycles pass without valid data (R177, R357). -/
def State.protLoss (s : State) (i : Nat) : State :=
  match s.inst i with
  | none => s
  | some x =>
    if x.st ≠ 3 ∨ !x.hasLoss then s else
    let s := s.setInst i (some { x with lost := x.lost + lossCnt x.cfg })
    let s := ((s.instState i 4).raise (372 + i)).txnLosePoint 1 i
    let s := (bitsOf 12 x.cfg.ports).foldl (fun s p => s.fwPath p false) s
    if s.mode = modeOPERATIONAL then { s with modeq := s.modeq ++ [(10, modeSAFEOP, 0x0B)] } else s
/-- The upper-level timeout of instance `i` expires, with the attempts made and the late successes discarded (R176, R292). -/
def State.protTimeout (s : State) (i tries late : Nat) : State :=
  match s.inst i with
  | none => s
  | some x =>
    let s := s.setInst i (some { x with tries := x.tries + tries, late := x.late + late })
    (s.raiseI (368 + i) (min 65535 tries + 65536 * min 65535 late)).instNotice i x.st tries late
/-- Cyclic exchange stops: every instance is acyclic. -/
def State.acyclic (s : State) : State := (List.range 4).foldl (fun s i =>
  match s.inst i with
  | some x => if x.st = 3 ∨ x.st = 4 then s.instState i 2 else s
  | none => s) s

end Sys2Proof.Machine
end

