-- ==== Sys2Proof/Machine/HostPort.lean ====
section
/-! DEFINITION. The host port (R323 to R332, R342, R344): interrupt lines and vectors, the frame rings, the reset of the port; delivery at
the internal fabric ports 28 to 31. -/

namespace Sys2Proof.Machine

open Sys2Proof

/-- The quad-SPI form of the port. (log 107, DESIGN CHOICE) -/
def State.spi (s : State) : Bool := s.flag HOST_STAT_SPI

/-! ### Interrupt lines (R342) -/

/-- Interrupt line `l`. -/
def State.hostLine (s : State) (l : Nat) : Bool :=
  if l < 12 then s.reg (MAC_IRQ l) &&& s.reg (MAC_IEN l) != 0#32
  else if l = 12 then s.flag FCU_STAT_IRQ
  else if l < 17 then s.reg (CAN_IRQ (l - 13)) &&& s.reg (CAN_IEN (l - 13)) != 0#32
  else if l = 17 then (let s := s.nutLive; (List.range 32).any (fun c => s.regN (NUT_FLAGS c) % 4096 &&& s.fld (NUT_CTRL_FIEN c) != 0))
  else if l = 18 then s.reg HOST_ERR &&& s.reg HOST_ERRIEN != 0#32
  else if l = 19 then (List.range 3).any (fun j => s.reg (HOST_MBPEND j) &&& s.reg (HOST_MBEN j) != 0#32)
  else if l = 20 then s.reg (MBX_DB 0) &&& s.reg HOST_DBEN != 0#32
  else if l = 21 then (List.range 2).any (fun q => s.flag (HOST_FQ_STAT_EVENT q) && s.flag (HOST_FQ_CFG_IEN q))
  else false
/-- Vector `v` is active. -/
def State.vecActive (s : State) (v : Nat) : Bool :=
  (List.range 24).any (fun l => s.flag (HOST_ROUTE_EN l) && s.fld (HOST_ROUTE_VEC l) == v && s.hostLine l)
/-- What HOST_VSTATE reads. -/
def State.vstate (s : State) : Word := w32 ((List.range 32).foldl (fun n v => n + (if s.vecActive v then 2 ^ v else 0)) 0)

/-- HOST_IRQ_N is driven low, in the quad-SPI form: a vector with its HOST_SPIVEN bit is active. -/
def State.hostIrq (s : State) : Bool := s.spi && s.vstate &&& s.reg HOST_SPIVEN != 0#32
/-- Line `l` as the controller of a Huafegal core receives it, whatever HOST_ROUTE holds. -/
def State.coreLine (s : State) (_core l : Nat) : Bool := s.hostLine l
/-- The identity words of the PCIe function (R323): vendor and device, revision and class, subsystem; the quad-SPI form has none. -/
def State.pcieIdentity (s : State) : List Word := if s.spi then [] else [0x72161F5C#32, 0x028000B1#32, 0x72161F5C#32]

/-- A word of the MSI-X table (R324): every vector is masked at reset, as the PCIe specification has it. -/
def msixReset (i : Nat) : Word := if i % 4 = 3 then 1 else 0
def State.msixWord (s : State) (i : Nat) : Word := storeGet msixReset s.host.msix i
def State.setMsix (s : State) (i : Nat) (v : Word) : State :=
  { s with host := { s.host with msix := storeSet msixReset s.host.msix i v } }
/-- The pending bit of vector `v`. -/
def State.setPba (s : State) (v : Nat) (b : Bool) : State :=
  let m := s.host.pba &&& (0xFFFFFFFF ^^^ 2 ^ v)
  { s with host := { s.host with pba := m + (if b then 2 ^ v else 0) } }
/-- Vector `v` has become active or inactive, or it or the function has been unmasked (R342): `cfg` is MSI-X enable, bus master enable and
function mask, as the host has set them. A cause that arises while `v` is already active sends nothing more. (log 161, DESIGN CHOICE) -/
def State.msixSend (s : State) (v cfg : Nat) : State :=
  if s.spi then s else
  let s := (s.setFlag HOST_STAT_MSIXEN (cfg.testBit 0)).setFlag HOST_STAT_BME (cfg.testBit 1)
  let seen := s.host.act.contains v
  let act := s.host.act.filter (· != v)
  if !s.vecActive v then { s with host := { s.host with act := act } }.setPba v false
  else if seen && !s.host.pba.testBit v then s
  else
  let s := { s with host := { s.host with act := act ++ [v] } }
  if !cfg.testBit 0 then s
  else if cfg.testBit 2 ∨ (s.msixWord (4 * v + 3)).getLsbD 0 ∨ !cfg.testBit 1 then s.setPba v true
  else (s.setPba v false).emit (.msix ((s.msixWord (4 * v)).toNat + 2 ^ 32 * (s.msixWord (4 * v + 1)).toNat) (s.msixWord (4 * v + 2)))

/-! ### Frame rings (R329 to R331) -/

/-- The slots of ring `q`, and the cells of a slot. -/
def State.fqSlots (s : State) (q : Nat) : Nat := max 1 (s.fld (HOST_FQ_CFG_SLOTSM1 q)) + 1
def State.fqCells (s : State) (q : Nat) : Nat := min 39 (max 1 (s.fld (HOST_FQ_CFG_SLOTCELLS q)))
/-- The address of slot `i` of ring `q`. -/
def State.fqSlot (s : State) (q i : Nat) : Nat := 0x80000000 + (s.fld (HOST_FQ_BASE_CELL q) + i * s.fqCells q) * 256
/-- The slot after `i`. -/
def State.fqNext (s : State) (q i : Nat) : Nat := (i + 1) % s.fqSlots q
/-- Every cell of ring `q` lies in the software region and none is retired. -/
def State.fqPlaced (s : State) (q : Nat) : Bool :=
  let lo := s.fld (HOST_FQ_BASE_CELL q)
  let hi := lo + s.fqSlots q * s.fqCells q
  decide (hi ≤ 1024 * s.fld BUF_SWCELLS_UNITS) &&
  !s.retiredIn lo hi
/-- A write of CFG (R329). -/
def State.fqCfg (s : State) (q : Nat) (v : Word) : State :=
  if s.flag (HOST_FQ_CFG_EN q) then
    let s := s.setFld (HOST_FQ_CFG_IEN q) (bits v 30 30)
    if v.getLsbD 31 then s
    else ((s.setFlag (HOST_FQ_CFG_EN q) false).setFld (HOST_FQ_PROD_PROD q) 0).setFld (HOST_FQ_CONS_CONS q) 0
  else
    let s := (s.setReg (HOST_FQ_CFG q) (v &&& 0x403F0FFF#32)).setFld (HOST_FQ_CFG_SLOTCELLS q) (min 39 (bits v 21 16))
    if !v.getLsbD 31 then s
    else if s.fqPlaced q then s.setFlag (HOST_FQ_CFG_EN q) true
    else s.setFlag (HOST_FQ_STAT_BADRING q) true
/-- A write of BASE. -/
def State.fqBase (s : State) (q : Nat) (v : Word) : State :=
  if s.flag (HOST_FQ_CFG_EN q) then s else s.setFld (HOST_FQ_BASE_CELL q) v.toNat
/-- A write of STAT. -/
def State.fqStat (s : State) (q : Nat) (v : Word) : State := s.setReg (HOST_FQ_STAT q) (s.reg (HOST_FQ_STAT q) &&& ~~~ (v &&& 0xE0000000#32))
/-- A frame of ring `q` is skipped or discarded. -/
def State.fqDrop (s : State) (q : Nat) : State := s.fldSat (HOST_FQ_STAT_DROPS q) 1
/-- A frame of ring `q` has moved. -/
def State.fqMoved (s : State) (q : Nat) : State := s.setFld (HOST_FQ_STAT_FRAMES q) (s.fld (HOST_FQ_STAT_FRAMES q) + 1)
/-- The port's index of ring `q` passes slot `i`. -/
def State.fqPass (s : State) (q i : Nat) : State :=
  (s.setFld (if q = 0 then HOST_FQ_CONS_CONS 0 else HOST_FQ_PROD_PROD 1) (s.fqNext q i)).setFlag (HOST_FQ_STAT_EVENT q) true
/-- The port takes the next slot of the transmit ring (R330). -/
def State.fqSend (s : State) : State :=
  let i := s.fld (HOST_FQ_CONS_CONS 0)
  if !s.flag (HOST_FQ_CFG_EN 0) ∨ i = s.fld (HOST_FQ_PROD_PROD 0) ∨ s.portOff 31 then s else
  let a := s.fqSlot 0 i
  let w := s.mem32 a
  let len := w % 2 ^ 14
  if len < 64 ∨ 9728 < len ∨ s.fqCells 0 * 256 - 16 < len then ((s.fqPass 0 i).fqDrop 0).setFlag (HOST_FQ_STAT_BADSLOT 0) true
  else
    let g := s.ingrNew 31 0 0
    let g := { g with clsNamed := if w.testBit 19 then some (w / 2 ^ 16 % 8) else none,
                      fcNamed := if w.testBit 20 then some (w / 2 ^ 24) else none }
    let r := s.inject 31 g (withFcs (s.bytes (a + 16) (len - 4)))
    if r.2 then (r.1.fqPass 0 i).fqMoved 0 else r.1

/-! ### Delivery at internal outputs (R100, R331) -/

/-- The frame of a copy as an internal output delivers it. -/
def State.delivered (s : State) (p : Nat) (y : Copy) : List Byte :=
  withFcs (s.shape p y (((s.frm y.frm).map (·.data)).getD []))
/-- Output 31 writes a frame to the receive ring, or discards one its slot cannot hold. -/
def State.fqReceive (s : State) : State :=
  let i := s.fld (HOST_FQ_PROD_PROD 1)
  if !s.flag (HOST_FQ_CFG_EN 1) ∨ s.fqNext 1 i = s.fld (HOST_FQ_CONS_CONS 1) ∨ s.portOff 31 then s else
  let r := s.pickInternal 31
  match r.2 with
  | none => r.1
  | some y =>
    let s := r.1
    let f := s.delivered 31 y
    if s.fqCells 1 * 256 - 16 < f.length then (s.copyFree 31 y).fqDrop 1
    else
      let a := s.fqSlot 1 i
      let b2 := y.cls + 16 * bit y.fc.isSome + 32 * y.itsFrac
      let hdr := leBytes 2 f.length ++ [b8 b2, b8 (y.fc.getD 0)] ++ leBytes 4 y.its ++ [b8 y.src] ++ List.replicate 7 0
      (((((s.setBytes a (hdr ++ f)).freshWords a (hdr ++ f).length).copyFree 31 y).swxCount 31 7).fqPass 1 i).fqMoved 1
/-- Output `p`, 28 to 31, selects a copy and delivers it: to Huafegal, Cardamom, Saffron or the host. -/
def State.internalSelect (s : State) (p : Nat) : State :=
  if p = 31 then s.fqReceive
  else if s.portOff p then s
  else
    let r := s.pickInternal p
    match r.2 with
    | none => r.1
    | some y =>
      let s := r.1
      let f := s.delivered p y
      let s := (s.copyFree p y).swxCount p 7
      if p = 30 then { s with saf := { s.saf with rx := s.saf.rx ++ [(f, y.src)] } } else s

/-! ### The port's reset (R315, R344) -/

/-- The channels whose sender or receiver is the host. -/
def hostChans : List Nat := (List.range 40).filter (fun c => chanSender c == 0 || chanReceiver c == 0) ++ [88, 89, 90, 91]
/-- Only the host port is reset. -/
def State.hostReset (s : State) : State :=
  let s := hostChans.foldl (fun s c => (s.chanFlush c).resetRange (MBX_CH_SEND c 0) (MBX_CH_SEND c 16)) s
  let cfg := s.reg HOST_LINKCFG
  let spi := s.spi
  let s := { s.resetRange 0x41800000 0x41900000 with host := HostSt.reset }
  let s := ((s.setReg HOST_LINKCFG cfg).setFlag HOST_STAT_SPI spi).setFlag HOST_STAT_LINKUP spi
  s.setReg (MBX_DB 0) 0

end Sys2Proof.Machine
end

