-- ==== Sys2Proof/Machine/Fcu.lean ====
section
/-! DEFINITION. The fault collector (R278 to R294, R403, R407): pairs, records, reaction windows, block resets, holds, the balls. -/

namespace Sys2Proof.Machine

open Sys2Proof

/-! ### Sources and blocks (R281, R287, R403) -/

/-- The blocks a DEGRADED reaction of a source holds (R403). -/
def blkOf (i : Nat) : List Blk :=
  if i = 3 then [.edge]
  else if i = 4 then [.mac 8, .mac 9]
  else if i = 5 then [.mac 10, .mac 11]
  else if i = 6 then (List.range 8).map (fun p => .mac p)
  else if i = 21 ∨ i = 22 then [.lau (i - 21)]
  else if i = 23 then [.itin]
  else if 32 ≤ i ∧ i < 80 ∧ (i - 32) % 4 < 3 then [.mac ((i - 32) / 4)]
  else if 96 ≤ i ∧ i < 160 ∧ (i - 96) % 4 < 3 then [.eng ((i - 96) / 4)]
  else if i = 176 ∨ i = 177 then [.loop]
  else if 192 ≤ i ∧ i < 224 ∧ (i - 192) % 8 < 5 then [.can ((i - 192) / 8)]
  else if 224 ≤ i ∧ i < 256 then [.nut]
  else if 288 ≤ i ∧ i < 292 then [.host]
  else if (292 ≤ i ∧ i < 298) ∨ i = 300 ∨ i = 301 then [.loop]
  else if i = 352 ∨ i = 353 then [.host]
  else []
/-- The shadow set of a block's reset, where the block has one (R287). -/
def shadowOf (b : Blk) : Option (List Nat) :=
  match b with
  | .eng n => some [96 + 4 * n, 97 + 4 * n, 98 + 4 * n, 160]
  | .mac p => some [32 + 4 * p, 33 + 4 * p, 34 + 4 * p, if p < 8 then 6 else if p < 10 then 4 else 5]
  | .can n => some ((List.range 5).map (fun k => 192 + 8 * n + k))
  | .nut => some ((List.range 32).map (224 + ·))
  | .loop => some [176, 177, 300, 301]
  | _ => none
/-- The blocks a block reset of a source resets: none where a block of it has no entry in R287. -/
def resetOf (i : Nat) : List Blk := if (blkOf i).all (fun b => (shadowOf b).isSome) then blkOf i else []
/-- The sources whose fault lies in TIME, LAU, ITIN or EDGE (R60). -/
def timeSrc (i : Nat) : Bool := i == 3 || decide (16 ≤ i ∧ i ≤ 23)
/-- The fault source lies in NUT (R281). -/
def nutSrc (i : Nat) : Bool := decide (224 ≤ i ∧ i < 256)

/-- Class and reaction of source `i` (R282). -/
def State.srcCfg (s : State) (i : Nat) : Nat × Nat :=
  let c := s.fld (FCU_SRCCFG_CLASS i)
  (c, if c = 4 then 4 else s.fld (FCU_SRCCFG_REACT i))
/-- Class and reaction a raise is handled with (R279, R282). -/
def State.raiseCfg (s : State) (i : Nat) (wiring : Bool) : Nat × Nat :=
  let c := s.srcCfg i
  let cls := if wiring then max c.1 3 else c.1
  let react := if cls = 4 then 4 else if wiring then max c.2 3 else c.2
  (cls, if react = 2 ∧ (resetOf i).isEmpty then 3 else react)

/-! ### Pairs (R278, R279, R291) -/

/-- Source `i` is forced. -/
def State.forced (s : State) (i : Nat) : Bool := s.bitAt (FCU_FORCE 0) i
/-- The pair of source `i` reads equal. -/
def State.pairBad (s : State) (i : Nat) : Bool :=
  storeGet (fun _ => false) s.fcu.bad i || (s.forced i && s.flag FCU_CTRL_FORCEWIR)
/-- The condition that the detector of source `i` watches holds now (R278): one that its block's registers show, or one an event has begun
and not yet ended. Where R281 names an event ("sets", "goes down", "leaves"), nothing lasts. (log 134, DEDUCED) -/
def State.condNow (s : State) (i : Nat) : Bool :=
  let n := (i - 192) / 8
  storeGet (fun _ => false) s.fcu.cond i ||
    (if i = 16 then s.flag TIME_PPS_STAT_LOST
     else if i = 21 ∨ i = 22 then s.flag (LAU_STAT_SRCLOST (i - 21))
     else if 192 ≤ i ∧ i < 224 then
       (if i % 8 = 0 then s.fld (CAN_STAT_FCS n) == 2 else if i % 8 = 1 then s.ttState n == 6 else i % 8 == 3 && (s.canSt n).gClosed)
     else i == 337 && s.flag SAF_STAT_BTDUE)
/-- A source that R281 lists below 384; every other index is reserved (R280, R281). -/
def srcListed (i : Nat) : Bool :=
  decide (i < 15) || decide (16 ≤ i ∧ i < 24) || decide (32 ≤ i ∧ i < 80 ∧ i % 4 < 3) || decide (80 ≤ i ∧ i < 89) ||
  decide (96 ≤ i ∧ i < 160 ∧ i % 4 < 3) || decide (160 ≤ i ∧ i < 162) || decide (176 ≤ i ∧ i < 178) ||
  decide (192 ≤ i ∧ i < 224 ∧ i % 8 < 5) || decide (224 ≤ i ∧ i < 310) || decide (320 ≤ i ∧ i < 328) ||
  decide (336 ≤ i ∧ i < 338) || decide (352 ≤ i ∧ i < 357) || decide (368 ≤ i ∧ i < 376)
/-- The pair of source `i` reads fault. -/
def State.pairFault (s : State) (i : Nat) : Bool := !s.pairBad i && (s.forced i || s.condNow i)
/-- What FCU_ASSERT[j] reads. -/
def State.assertWord (s : State) (j : Nat) : Word :=
  w32 ((List.range 32).foldl (fun n b => n + (if s.pairFault (32 * j + b) then 2 ^ b else 0)) 0)

/-! ### What the balls and FCU_STAT show (R289, R290) -/

def State.setFcu (s : State) (x : FcuSt) : State := { s with fcu := x }
/-- Record `r` is PENDING. -/
def State.recPending (s : State) (r : Nat) : Bool := s.flag (FCU_REC_W2_PENDING r)
/-- The PENDING records. -/
def State.pendingRecs (s : State) : List Nat := (List.range 32).filter (fun r => s.recPending r)
/-- ALIVE is stopped by a record, the self-fault or REFCLK. -/
def State.aliveStop (s : State) : Bool :=
  s.pendingRecs.any (fun r => decide (3 ≤ s.fld (FCU_REC_W0_CLASS r))) || s.flag FCU_STAT_SELF || s.pwr.refOff
/-- FCU_STAT and the unarmed levels of the balls follow. -/
def State.fcuShow (s : State) : State :=
  let armed := s.flag FCU_CTRL_ARMED
  let stop := !armed || s.aliveStop
  let fn := stop || s.pendingRecs.any (fun r => decide (min 4 (s.fld FCU_CTRL_FNMIN) ≤ s.fld (FCU_REC_W0_CLASS r)))
  let s := if armed then s else s.setFcu { s.fcu with aliveA := false, aliveB := s.mode != modeOFF }
  (((s.setFld FCU_STAT_PENDING s.pendingRecs.length).setFlag FCU_STAT_ALIVESTOP stop).setFlag FCU_STAT_FAULTN fn).setFlag
    FCU_STAT_WINDOW (!s.fcu.windows.isEmpty)
/-- Every 500 µs both balls toggle together. -/
def State.aliveToggle (s : State) : State :=
  if !s.flag FCU_CTRL_ARMED || s.aliveStop then s
  else s.setFcu { s.fcu with aliveA := !s.fcu.aliveA, aliveB := s.fcu.aliveA }

/-- REFCLK stops for more than 400 ns (R18, R290). -/
def State.refLost (s : State) : State :=
  (({ s with pwr := { s.pwr with refOff := true } }.setFlag SYS_CLKSTAT_REFLOSS true).assertSrc 0).fcuShow
/-- REFCLK runs again. -/
def State.refBack (s : State) : State := ({ s with pwr := { s.pwr with refOff := false } }.clearSrc 0).fcuShow

/-! ### Records (R285, R288) -/

/-- The oldest record that is not PENDING. -/
def State.oldestFree (s : State) : Option Nat := s.fcu.order.find? (fun r => !s.recPending r)
/-- NEXT names a record that is not PENDING, where one exists. -/
def State.fixNext (s : State) : State :=
  if s.recPending (s.fld FCU_STAT_NEXT) then (match s.oldestFree with | some r => s.setFld FCU_STAT_NEXT r | none => s) else s
/-- Record `r` becomes PENDING where its class is 2 or more; firmware sends its notice. -/
def State.becomePending (s : State) (r : Nat) : State :=
  let cls := s.fld (FCU_REC_W0_CLASS r)
  if cls < 2 ∨ s.recPending r then s
  else (s.setFlag (FCU_REC_W2_PENDING r) true).fwNotice 0x0AF0 ([b8 r, b8 cls] ++ leBytes 2 (s.fld (FCU_REC_W0_SRC r)))
/-- Firmware withdraws the 4 KiB page that holds the address in INFO of a record of a bank that holds firmware's data (R295). -/
def State.withdraw (s : State) (src info : Nat) (no : Bool) : State :=
  let b := src - 256
  let hua := decide (260 ≤ src ∧ src < 304) && (decide (b < 32) || b == 42 || b == 43 || b == 46 || b == 47)
  let p := (0x20000000 + info) / 4096
  if !hua || no || s.pwr.pages.contains p then s else { s with pwr := { s.pwr with pages := s.pwr.pages ++ [p] } }
/-- A new record: its number, or none where every record is PENDING. -/
def State.newRec (s : State) (src info cls react : Nat) (wiring : Bool) : State × Option Nat :=
  let s := s.fixNext
  let r := s.fld FCU_STAT_NEXT
  if s.recPending r then (s.setFlag FCU_STAT_LOGOVF true, none) else
  let s := (s.setReg (FCU_REC_W0 r) (w32 (src + 512 * cls + 4096 * react + 32768 * bit wiring))).setReg (FCU_REC_TS r) s.cyc0
  let s := (s.setReg (FCU_REC_W2 r) (w32 (2 ^ 31 + 2 ^ 29 * bit (s.forced src)))).setRegN (FCU_REC_INFO r) info
  let s := s.setFcu { s.fcu with order := s.fcu.order.filter (· != r) ++ [r], newest := some r,
                                 windows := s.fcu.windows.map (fun w => if w.recd = some r then { w with recd := none } else w) }
  let s := (s.withdraw src info (wiring || s.forced src)).becomePending r
  (match s.oldestFree with | some n => s.setFld FCU_STAT_NEXT n | none => s, some r)
/-- A write of FCU_ACK (R288). -/
def State.fcuAck (s : State) (r : Nat) : State :=
  let srcs := s.fld (FCU_REC_W0_SRC r) :: (if s.flag (FCU_REC_W2_ESC r) then [s.fld (FCU_REC_W2_ESCSRC r)] else [])
  if s.recPending r ∧ srcs.all (fun i => !s.pairFault i && !s.bitAt (FCU_WIRE 0) i) then
    ((s.setFlag (FCU_REC_W2_PENDING r) false).fixNext).fcuShow
  else s.setFlag FCU_STAT_ACKREF true

/-! ### Block resets and holds (R282, R287, R403, R404) -/

/-- A block is reset. -/
def State.blkReset (s : State) (b : Blk) : State :=
  match b with
  | .edge => s.edgeDrop
  | .mac p => (s.linkDown p).rxDropPort p false
  | .lau u => s.lauStill u
  | .itin => s.itinHold
  | .eng n => s.engReset n
  | .loop => s.loopReset
  | .can n => s.canReset n
  | .nut => s.nutReset
  | .host => s.hostReset
/-- A block reset is asserted. -/
def State.blkAssert (s : State) (b : Blk) : State :=
  let s := s.blkReset b
  if b ∈ s.fcu.resetting then s else s.setFcu { s.fcu with resetting := s.fcu.resetting ++ [b] }
/-- Cardamom's domain, which holds nothing else, is powered off for a hold (R282). -/
def State.holdPower (s : State) (b : Blk) : State :=
  if b = .loop then (s.resetRange 0x41200000 0x41400000).setDom2 9 0 else s
/-- A block is held. -/
def State.blkHold (s : State) (b : Blk) : State :=
  if b ∈ s.fcu.held then s
  else
    let s := (s.blkReset b).holdPower b
    s.setFcu { s.fcu with held := s.fcu.held ++ [b] }
/-- A block runs again after its reset. -/
def State.blkStart (s : State) (b : Blk) : State :=
  match b with
  | .eng n => if s.engOff n then s else
      let s := s.setEng n { s.engSt n with born := s.time.now }
      if s.flag (ENG_CTRL_RUN n) then s.engStart n else s
  | .can n => s.canRestart n
  | .lau u => s.lauReset u
  | .nut => s.nutResume
  | _ => s
/-- The duration of a block reset ends (R287). -/
def State.blkEnd (s : State) (b : Blk) : State :=
  if b ∈ s.fcu.resetting then
    let s := s.setFcu { s.fcu with resetting := s.fcu.resetting.filter (· != b) }
    if b ∈ s.fcu.held then s else s.blkStart b
  else s
/-- Every held block is re-initialised (R26, transition 14). -/
def State.unhold (s : State) : State :=
  let l := s.fcu.held
  l.foldl (fun s b => if b = .loop then s.setDom2 9 1 else s.blkStart b) (s.setFcu { s.fcu with held := [] })
/-- The block action of a reaction, at once or after the wake (R294). -/
def State.blkAct (s : State) (src react : Nat) : State :=
  if react = 2 then (resetOf src).foldl (fun s b => s.blkAssert b) s
  else if react = 3 then (blkOf src).foldl (fun s b => s.blkHold b) s
  else s
/-- The block actions that waited for the wake. -/
def State.fcuDeferred (s : State) : State :=
  s.fcu.deferred.foldl (fun s e => s.blkAct e.1 e.2) (s.setFcu { s.fcu with deferred := [] })

/-! ### Reactions and windows (R282, R286) -/

/-- The shadow set a reaction adds. -/
def shadowAdd (src react : Nat) : List Nat := if react = 2 then (resetOf src).flatMap (fun b => (shadowOf b).getD []) else []
/-- The modes transition 13 leaves (R26). -/
def listed13 (m : Nat) : Bool := m == modePREOP || m == modeSAFEOP || m == modeOPERATIONAL
/-- A reaction starts on the block of source `src`. -/
def State.reaction (s : State) (src react : Nat) : State :=
  let pins := if nutSrc src then some ((List.range 32).map (fun c => s.reg (NUT_PINCFG c))) else none
  let s := if 1 ≤ react then s.setFlag FCU_STAT_IRQ true else s
  let s := if react = 2 ∨ react = 3 then
      (if s.asleep then s.setFcu { s.fcu with deferred := s.fcu.deferred ++ [(src, react)] } else s.blkAct src react)
    else s
  if react = 3 then
    let s := if s.mode == modeDEGRADED || (s.trans.map (fun t => t.num == 13)).getD false then
        { s with degTime := s.degTime || timeSrc src, degPins := if s.degPins.isSome then s.degPins else pins }
      else if listed13 s.mode then { s with degTime := timeSrc src, degPins := pins } else s
    { s with modeq := s.modeq ++ [(13, modeDEGRADED, 3)] }
  else if react = 4 then
    let s := s.safRequest
    if src = 336 then s else { s with modeq := s.modeq ++ [(12, modeSAFESTOP, 4)] }
  else s
/-- A reaction of block reset or higher opens a window. -/
def State.openWin (s : State) (recd : Option Nat) (src cls react : Nat) : State :=
  if react < 2 then s
  else s.setFcu { s.fcu with windows := s.fcu.windows ++ [⟨recd, src, cls, react, shadowAdd src react⟩] }
/-- A field of a window's record changes. -/
def State.recDo (s : State) (recd : Option Nat) (f : State → Nat → State) : State :=
  match recd with | some r => f s r | none => s
/-- CLASS and REACT of the record of window `w`; without one, those the window was opened or escalated with (R286). -/
def Window.inForce (w : Window) (s : State) : Nat × Nat :=
  match w.recd with
  | some r => (s.fld (FCU_REC_W0_CLASS r), s.fld (FCU_REC_W0_REACT r))
  | none => (w.cls, w.react)
/-- A raise inside window `w`, the oldest, merges into its record (R286). -/
def State.merge (s : State) (w : Window) (src cls react : Nat) (masked : Bool) : State :=
  if src = w.own then
    let s := s.recDo w.recd (fun s r => s.fldSat (FCU_REC_W0_REPEAT r) 1)
    if 1 ≤ react then s.setFlag FCU_STAT_IRQ true else s
  else
    let now := w.inForce s
    let s := s.recDo w.recd (fun s r => (s.fldSat (FCU_REC_W0_CONSEQ r) 1).setFld (FCU_REC_W2_LASTCQ r) src)
    if masked ∨ cls ≤ now.1 then s else
    let up := decide (now.2 < react)
    let s := s.recDo w.recd (fun s r =>
      let s := ((s.setFlag (FCU_REC_W2_ESC r) true).setFld (FCU_REC_W2_ESCSRC r) src).setFld (FCU_REC_W2_ESCCLASS r) cls
      let s := (s.setFld (FCU_REC_W0_CLASS r) cls).setFld (FCU_REC_W0_REACT r) (if up then react else now.2)
      (s.becomePending r).fixNext)
    let s := s.setFlag FCU_STAT_IRQ true
    let w2 : Window := { w with cls := cls, react := if up then react else now.2,
                                shadow := w.shadow ++ (if up then shadowAdd src react else []) }
    let s := s.setFcu { s.fcu with windows := w2 :: s.fcu.windows.drop 1 }
    if up then s.reaction src react else s
/-- The collector takes a raise (R278, R279, R285, R286, R293, R294). -/
def State.fcuTake (s : State) (src info : Nat) (wiring : Bool) : State :=
  if s.mode = modeOFF then s else
  let s := s.setBitAt (FCU_SEEN 0) src true
  let s := if wiring then s.setBitAt (FCU_WIRE 0) src true else s
  let s := s.wake 1
  let c := s.raiseCfg src wiring
  if s.flag FCU_STAT_SELF then ((s.newRec src info c.1 c.2 wiring).1).fcuShow else
  (match s.fcu.windows with
    | w :: _ => s.merge w src c.1 c.2 (s.fcu.windows.any (fun x => decide (src ∈ x.shadow)))
    | [] =>
      let again : Option Nat := match s.fcu.newest with
        | some r => if c.1 ≤ 1 ∧ s.fld (FCU_REC_W0_SRC r) = src then some r else none
        | none => none
      match again with
      | some r => ((s.fldSat (FCU_REC_W0_REPEAT r) 1).openWin (some r) src c.1 c.2).reaction src c.2
      | none =>
        let n := s.newRec src info c.1 c.2 wiring
        (n.1.openWin n.2 src c.1 c.2).reaction src c.2).fcuShow
/-- A detector's raise: one of a forced source, or of a pair that reads equal, changes nothing. -/
def State.fcuRaise (s : State) (src info : Nat) (wiring : Bool) : State :=
  if 512 ≤ src ∨ s.forced src ∨ s.pairBad src then s else s.fcuTake src info wiring
/-- The window opened by source `src` closes. -/
def State.winEnd (s : State) (src : Nat) : State :=
  (s.setFcu { s.fcu with windows := s.fcu.windows.filter (fun w => w.own != src) }).fcuShow

/-! ### Wiring faults and force bits (R279, R291) -/

/-- The pair of source `src` reads equal for 4 cycles. A reserved source's pair is tied to no fault at the collector (R280). (log 98, DEDUCED) -/
def State.wireFault (s : State) (src : Nat) : State :=
  if s.mode = modeOFF ∨ s.pairBad src ∨ !srcListed src then s
  else (s.setFcu { s.fcu with bad := storeSet (fun _ => false) s.fcu.bad src true }).fcuTake src 0 true
/-- It reads a valid state again. -/
def State.wireOk (s : State) (src : Nat) : State :=
  s.setFcu { s.fcu with bad := storeSet (fun _ => false) s.fcu.bad src false }
/-- What a source whose pair has been driven anew raises: it reads equal and did not, or fault where it read no fault. -/
def State.forceOne (before s : State) (i : Nat) : State :=
  if s.pairBad i then (if before.pairBad i then s else s.fcuTake i 0 true)
  else if s.pairFault i ∧ !before.pairFault i ∧ !before.pairBad i then s.fcuTake i 0 false
  else s
/-- A write of FCU_FORCE[j]. -/
def State.forceWrite (s : State) (j : Nat) (v : Word) : State :=
  (List.range 32).foldl (fun t b => State.forceOne s t (32 * j + b)) (s.setReg (FCU_FORCE j) v)
/-- A write of FCU_WIRE[j]: bits of pairs that still read equal stay. -/
def State.wireWrite (s : State) (j : Nat) (v : Word) : State :=
  (List.range 32).foldl (fun s b => if v.getLsbD b && !s.pairBad (32 * j + b) then s.setBitAt (FCU_WIRE 0) (32 * j + b) false else s) s
/-- The forced sources. -/
def State.forcedList (s : State) : List Nat := (List.range 512).filter (fun i => s.forced i)
/-- A write of FCU_CTRL: FNMIN in BOOT and COMMISSION only (R283). (log 135, DEDUCED) -/
def State.fcuCtrl (s : State) (v : Word) : State :=
  let open_ := s.mode == modeBOOT || s.mode == modeCOMMISSION
  let s := if open_ then s.setFld FCU_CTRL_FNMIN (bits v 6 4)
    else if bits v 6 4 = s.fld FCU_CTRL_FNMIN then s else s.note
  let s := if v.getLsbD 0 then s.setFlag FCU_CTRL_ARMED true else s
  let t := s.setFlag FCU_CTRL_FORCEWIR (v.getLsbD 8)
  let t := if s.flag FCU_CTRL_FORCEWIR = v.getLsbD 8 then t
    else s.forcedList.foldl (fun t i => State.forceOne s t i) t
  t.fcuShow
/-- A write of FCU_SRCCFG[i] (R283). -/
def State.srcCfgWrite (s : State) (i : Nat) (v : Word) : State :=
  if (s.mode = modeBOOT ∨ s.mode = modeCOMMISSION) ∧ bits v 2 0 ≤ 4 ∧ bits v 6 4 ≤ 4 then
    if s.flag (FCU_SRCCFG_FIXED i) then s
    else (s.setFld (FCU_SRCCFG_CLASS i) (bits v 2 0)).setFld (FCU_SRCCFG_REACT i) (if bits v 2 0 = 4 then 4 else bits v 6 4)
  else s.note

/-- Two copies of a collector word differ, or one fails its parity (R293). -/
def State.selfFault (s : State) (off : Nat) (mismatch parity : Bool) : State :=
  if s.flag FCU_STAT_SELF then s else
  let s := (s.setFlag FCU_STAT_SELF true).setRegN FCU_SELFINFO (off % 65536 + 65536 * bit parity + 131072 * bit mismatch)
  s.safRequest.fcuShow

end Sys2Proof.Machine
end

