-- ==== Sys2Proof/Machine/Line.lean ====
section
/-! DEFINITION. The line-shaft master service (R372 to R375): its image, axes, cycle and overruns. -/

namespace Sys2Proof.Machine

open Sys2Proof

/-- `n` bytes of the service's image at `o` as a number. -/
def State.lineF (s : State) (o n : Nat) : Nat := ofLe (slice (s.line.image.getD []) o n)
/-- The LAU the service drives, the instance that paces it, its FLAGS. -/
def State.lineLau (s : State) : Nat := s.lineF 4 1 % 2
def State.lineInst (s : State) : Nat := s.lineF 6 1
def State.lineFlag (s : State) (i : Nat) : Bool := (s.lineF 7 1).testBit i
def State.setLine (s : State) (x : LineSt) : State := { s with line := x }
/-- The service holds LAU `u`. -/
def State.lineHasLau (s : State) (u : Nat) : Bool := s.line.holds && s.lineLau == u

/-- An image's fields lie in the ranges of R372. -/
def lineImageOk (img : List Byte) : Bool :=
  let n (o k : Nat) : Nat := ofLe (slice img o k)
  decide (n 0 2 = 1) && decide (1 ≤ n 2 2 ∧ n 2 2 ≤ 256) && decide (n 4 1 ≤ 1) && decide (n 5 1 ≤ 1) && decide (n 6 1 ≤ 3) &&
  decide (n 8 4 ≤ 2000000) && decide (0 < sgn 32 (n 12 4)) && decide (0 < sgn 32 (n 16 4)) && decide (0 < sgn 32 (n 20 4)) &&
  decide (0 < sgn 32 (n 24 4)) && decide (n 28 2 ≤ 4095) && decide (n 30 2 ≤ 4088)
/-- The axes of an image as they start. -/
def lineAxes (img : List Byte) : List AxisSt :=
  (List.range (ofLe (slice img 2 2))).map (fun a =>
    let n (o k : Nat) : Nat := ofLe (slice img (32 + 16 * a + o) k)
    { set := n 0 2 % 4096, flags := n 2 1, prof := n 3 1 % 64, ratio := w32 (n 4 4), phase := sgn 32 (n 8 4), act := n 12 2 % 4096,
      phi := sgn 32 (n 8 4) * 2 ^ 96, spd := 0, engaged := (n 2 1).testBit 0, moving := false, last := 0 })
/-- The cycle of the service's instance in ns. -/
def State.lineCycleNs (s : State) : Nat := ((s.inst s.lineInst).map (fun x => netCycle x.cfg)).getD 0
/-- The least cycle of `n` axes in ns. -/
def lineMin (n : Nat) : Nat := max 31250 (n * 500)

/-- θ̂ projected by LEAD, in ticks (R373). -/
def State.lineTheta (s : State) : Q :=
  let l := s.lauSt s.lineLau
  let t : Int := s.lineF 8 4
  ⟨sgn 96 l.theta * 2 ^ 65 + 2 * l.omega * t + l.alpha * t * t, 2 ^ 97⟩
/-- The interpolated value of cam profile `p` at θ in ticks, with CMUL = 1 and PHASE = 0 (R233, R373). -/
def State.lineCam (s : State) (p : Nat) (th : Q) : Q :=
  let phi := uns 32 th.floor
  let j := phi / 2 ^ 20
  let t : Q := ⟨((phi % 2 ^ 20 : Nat) : Int), 2 ^ 20⟩
  let pt (i : Nat) : Q := (coefNum (w32 (s.mem32 (0x20900000 + p * 0x4000 + 4 * (i % 4096))))).v
  let y0 := pt (j + 4095)
  let y1 := pt j
  let y2 := pt (j + 1)
  let y3 := pt (j + 2)
  let k (n : Int) (y : Q) : Q := (Q.i n).mul y
  let B := ((k 2 y0).sub (k 5 y1)).add ((k 4 y2).sub y3)
  let C := ((k 3 y1).sub (k 3 y2)).add (y3.sub y0)
  y1.add ((Q.mul ⟨1, 2⟩ t).mul ((y2.sub y0).add (t.mul (B.add (t.mul C)))))
/-- RATIO · θ, or RATIO · c(θ), of an axis. -/
def State.axisBase (s : State) (x : AxisSt) (th : Q) : Q :=
  (coefNum x.ratio).v.mul (if x.flags.testBit 1 then s.lineCam x.prof th else th)
/-- The set-point of an axis, rounded to the tick. (log 70, DEDUCED) -/
def State.axisSet (s : State) (x : AxisSt) (th : Q) : Int :=
  let v := (s.axisBase x th).add ⟨x.phi, 2 ^ 96⟩
  (if x.flags.testBit 2 then v.neg else v).round
/-- The phase speed at which an axis stands still: −RATIO · ω̂. -/
def State.axisRest (s : State) (x : AxisSt) : Int :=
  (((coefNum x.ratio).v.mul (Q.i (s.lauSt s.lineLau).omega)).neg).round
/-- φ after one cycle of `dt` ns, by the rule of R46 (R374). (log 70, DEDUCED) -/
def State.axisMove (s : State) (dt : Nat) (x : AxisSt) : AxisSt :=
  let lim := spdOf (s.lineF 20 4)
  let d := accOf (s.lineF 24 4) * dt
  if x.engaged then
    let dest : Int := x.phase * 2 ^ 96
    let m : Int := if x.spd < 0 then -x.spd else x.spd
    let stop := x.phi + x.spd * m / (2 * max 1 (accOf (s.lineF 24 4)))
    let near := decide ((if dest - x.phi < 0 then x.phi - dest else dest - x.phi) ≤ d * dt) && decide (m ≤ d)
    if near then { x with phi := dest, spd := 0, moving := false }
    else
      let v := if stop < dest then min (x.spd + d) lim else if dest < stop then max (x.spd - d) (-lim)
               else if 0 < x.spd then max (x.spd - d) 0 else min (x.spd + d) 0
      { x with phi := x.phi + v * dt, spd := v, moving := true }
  else
    let r := s.axisRest x
    let v := if !x.moving ∨ (if r - x.spd < 0 then x.spd - r else r - x.spd) ≤ d then r
             else if x.spd < r then x.spd + d else x.spd - d
    { x with phi := x.phi + v * dt, spd := v, moving := decide (v ≠ r) }
/-- The actual angle of an axis. -/
def State.axisAct (s : State) (x : AxisSt) : Int :=
  sgn 64 (s.regN (LOOP_NV x.act) + 2 ^ 32 * s.regN (LOOP_NV ((x.act + 1) % 4096)))
/-- Axis `a` engages or disengages; an engage above PHSPD is refused (false). -/
def State.axisEngage (s : State) (a : Nat) (on : Bool) : State × Bool :=
  match (s.line.axes[a]?) with
  | none => (s, true)
  | some x =>
    let r := s.axisRest x
    if on == x.engaged then (s, true)
    else if on then
      if spdOf (s.lineF 20 4) < (if r < 0 then -r else r) then (s, false)
      else
        let act := s.axisAct x
        let base := s.axisBase x s.lineTheta
        let phi := (((Q.i (if x.flags.testBit 2 then -act else act)).sub base).roundAt 96)
        (s.setLine { s.line with axes := s.line.axes.set a { x with phi := phi, spd := r, engaged := true, moving := true } }, true)
    else (s.setLine { s.line with axes := s.line.axes.set a { x with engaged := false, moving := true } }, true)
/-- The virtual master's target takes a value. -/
def State.lineSpeed (s : State) (v : Word) : State := s.setReg (LAU_VM_SPD s.lineLau) v
/-- Firmware holds VM_SPD at 0 in SAFESTOP and COMMISSION (R375). -/
def State.lineStopped (s : State) : Bool := s.mode == modeSAFESTOP || s.mode == modeCOMMISSION
/-- The engage bits of ENGNV as one number. -/
def State.lineBits (s : State) : Nat := (List.range 8).foldl (fun n i => n + s.regN (LOOP_NV ((s.lineF 30 2 + i) % 4096)) * 2 ^ (32 * i)) 0
/-- The engage bits that have changed act. -/
def State.lineBitsAct (s : State) : State :=
  if !s.lineFlag 2 then s else
  let now := s.lineBits
  let was := s.line.bits
  let s := (List.range s.line.axes.length).foldl (fun s a =>
    if now.testBit a == was.testBit a then s else (s.axisEngage a (now.testBit a)).1) s
  s.setLine { s.line with bits := now }
/-- One cycle of the service (R373 to R375): the last set-point is written `ns` after the cycle start. -/
def State.lineCycle (s : State) (ns : Nat) : State :=
  if !s.line.running then s else
  let s := s.setLine { s.line with inRow := if s.line.hit then s.line.inRow else 0, hit := false, maxNs := max s.line.maxNs ns }
  let s := if s.lineStopped then s.lineSpeed 0
           else if s.lineFlag 1 then s.lineSpeed (s.reg (LOOP_NV (s.lineF 28 2 % 4096))) else s
  let dt := s.lineCycleNs
  let s := (s.setLine { s.line with axes := s.line.axes.map (fun x => s.axisMove dt x) }).lineBitsAct
  let th := s.lineTheta
  let axes := s.line.axes.map (fun x => { x with last := uns 64 (s.axisSet x th) })
  let s := s.setLine { s.line with axes := axes }
  axes.foldl (fun s x => (s.nvWrite x.set (w32 x.last)).nvWrite ((x.set + 1) % 4096) (w32 (x.last / 2 ^ 32))) s
/-- A LINE notice (R349). -/
def State.lineNotice (s : State) (event : Nat) : State := s.fwNotice 0x06F1 ([b8 event, 0, 0, 0] ++ leBytes 4 s.line.ovr)
/-- A set-point is not written by the frame deadline (R373). -/
def State.lineOverrun (s : State) : State :=
  if !s.line.running then s else
  let n := if s.line.hit then s.line.inRow else s.line.inRow + 1
  let s := (s.setLine { s.line with ovr := s.line.ovr + 1, inRow := n, hit := true }).lineNotice 1
  if n = 3 then (s.lineSpeed 0).lineNotice 2 else s

/-- The service takes engines 8 to 15 as one graph cluster, and its LAU (R373). -/
def State.lineTake (s : State) (img : List Byte) : State :=
  let s := s.setLine { s.line with image := some img, holds := true }
  let s := s.clcfgWrite (clusterJoin (s.reg DISP_CLCFG) 8 8)
  let u := s.lineLau
  let s := (s.setRegN (LAU_VM_ACC u) (s.lineF 12 4)).setRegN (LAU_VM_JERK u) (s.lineF 16 4)
  if s.lineF 5 1 = 0 then (if s.fld (LAU_CFG_SRC u) = 3 then s else (s.setFld (LAU_CFG_SRC u) 3)) else s
/-- The service starts. -/
def State.lineRun (s : State) : State :=
  s.setLine { s.line with running := true, axes := lineAxes (s.line.image.getD []), ovr := 0, inRow := 0, hit := false, stored := none,
                          bits := s.lineBits, maxNs := 0 }
/-- The service stops: its engines are held in reset and free again (R375). -/
def State.lineHalt (s : State) : State :=
  let s := (List.range 8).foldl (fun s k => s.engCtrl (8 + k) (w32 ((s.regN (ENG_CTRL (8 + k)) &&& 0xF6) ||| 2))) s
  s.setLine { s.line with running := false, holds := false, stored := none }
/-- An axis is not at standstill. -/
def State.lineMoves (s : State) : Bool :=
  s.line.running && s.line.axes.any (fun x => x.moving || (x.engaged && decide ((s.lauSt s.lineLau).omega ≠ 0)))

end Sys2Proof.Machine
end

