-- ==== Sys2Proof/Machine/Flask.lean ====
section
/-! DEFINITION. The Flask record (R303, R304, R318, R321, R322): what HOLDUP captures, its slots, the record offered, its resumption. -/

namespace Sys2Proof.Machine

open Sys2Proof

/-! ### Bytes of a memory range -/

/-- The cells a run of bytes from an address gives. -/
def cellsFrom (a : Nat) : List Byte → List Host.Cell
  | [] => []
  | b :: t => storeCell memReset a b ++ cellsFrom (a + 1) t
/-- The bytes from `a` become those of the run: whole words, whose check bits are new (R296). -/
def State.setBlock (s : State) (a : Nat) (l : List Byte) : State :=
  { s with mem := s.mem.filter (fun e => decide (e.1 < a)) ++ cellsFrom a l ++ s.mem.filter (fun e => decide (a + l.length ≤ e.1)),
           ecc := s.ecc.filter (fun e => decide (e.1 < a) || decide (a + l.length ≤ e.1)) }
/-- `n` bytes from `a`, read in one pass. -/
def State.getBlock (s : State) (a n : Nat) : List Byte :=
  let m := s.mem.filter (fun e => decide (a ≤ e.1 ∧ e.1 < a + n))
  (List.range n).map (fun i => storeGet memReset m (a + i))

/-! ### The record (R321) -/

abbrev flaskMagic : Nat := 0x4D525448
abbrev flaskClose : Nat := 0xC105ED00
/-- The address of slot `i` (R303). -/
def slotAt (i : Nat) : Nat := 0x30300000 + i * 0x14000
/-- The writes a slot has taken. -/
def State.wearOf (s : State) (i : Nat) : Nat := ((s.pwr.wear.find? (fun e => e.1 == i)).map (·.2)).getD 0
/-- Slot `i` is retired (R304). -/
def State.slotRetired (s : State) (i : Nat) : Bool := decide (90000000 ≤ s.wearOf i)
/-- The slot written most recently. -/
def State.lastSlot (s : State) : Option Nat := s.pwr.wear.getLast?.map (·.1)
/-- The slot the next HOLDUP writes; none with every slot retired. -/
def State.nextSlot (s : State) : Option Nat :=
  let first := (s.lastSlot.map (· + 1)).getD 0
  ((List.range 64).map (fun k => (first + k) % 64)).find? (fun i => !s.slotRetired i)
/-- Words as bytes. -/
def State.recW (s : State) (a : Nat) : List Byte := leBytes 4 (s.regN a)
def State.zeros (_ : State) (n : Nat) : List Byte := List.replicate n 0
/-- The bytes 0 to 0x13FF7 of a record of this state (R321): slot, SEQ, SYS_MODE at the trip, schedule count, the VHOLD readings, ns to
the end of capture. -/
def State.flaskBody (s : State) (slot seq : Nat) (mode cyc : Word) (vh0 vh1 ns : Nat) : List Byte :=
  let head := leBytes 4 flaskMagic ++ leBytes 4 seq ++ leBytes 2 1 ++ [b8 slot, 0] ++ leBytes 4 mode.toNat ++ leBytes 4 cyc.toNat ++
    leBytes 4 (vh0 % 65536 + 65536 * (vh1 % 65536)) ++ leBytes 4 ns
  let time := (List.range 4).flatMap (fun d => leBytes 8 (s.pair (TIME_DOM_SEC_LO d)) ++ leBytes 4 (s.fld (TIME_DOM_NS_NS d)) ++
    leBytes 2 (s.fld (TIME_DOM_FRAC_FRAC d)) ++ leBytes 2 (s.domState d) ++ s.recW (TIME_DOM_ADJ d) ++ s.zeros 4)
  let lau := (List.range 2).flatMap (fun u => leBytes 8 ((s.lauSt u).theta / 2 ^ 32) ++ s.recW (LAU_SPD u) ++ s.recW (LAU_ACC u) ++
    s.recW (LAU_CFG u) ++ s.recW (LAU_STAT u) ++ s.zeros 8)
  let saf := s.recW SAF_REASON ++ s.recW SAF_INPUTS ++ s.recW SAF_OUTPUTS ++ leBytes 4 (s.fld (SAF_BTEST_HOURS 0)) ++
    leBytes 4 (s.fld (SAF_BTEST_HOURS 1)) ++ (List.range 16).flatMap (fun k => s.recW (SAF_CONN_SEQ k))
  let recs := (List.range 32).flatMap (fun r => s.recW (FCU_REC_W0 r) ++ s.recW (FCU_REC_TS r) ++ s.recW (FCU_REC_W2 r) ++ s.recW (FCU_REC_INFO r))
  let seen := (List.range 16).flatMap (fun j => s.recW (FCU_SEEN j))
  let fcs := (List.range 256).flatMap (fun f => leBytes 4 (s.fld (SWX_FC_STAT_SEQ f) + 65536 * s.fld (SWX_FC_CFG_CB f) +
    262144 * s.fld (SWX_FC_CFG_VALID f)))
  let ctxs := (List.range 256).flatMap (fun k => (List.range 68).flatMap (fun i => s.recW (LOOP_STATE k i)) ++
    leBytes 4 (s.fld (LOOP_CTX_CTRL_AUTO k) + 2 * s.fld (LOOP_CTX_STAT_BANK k) + 4 * s.fld (LOOP_CTX_CTRL_EN k)) ++
    s.recW (LOOP_CTX_LASTTS k) ++ s.zeros 8)
  padTo 0x13FF8 (padTo 0x1000 (padTo 0x800 (padTo 0x400 (padTo 0x200 (padTo 0xE0 (padTo 0x40 head ++ time ++ lau) ++ saf) ++ recs) ++ seen) ++ fcs) ++ ctxs)
/-- A slot is written up to its closing word, which it does not hold yet (R304, R318). -/
def State.flaskWrite (s : State) (mode cyc : Word) (vh0 vh1 ns : Nat) : State :=
  match s.nextSlot with
  | none => s
  | some i =>
    let seq := ((s.lastSlot.map (fun j => s.mem32 (slotAt j + 4) + 1)).getD 1) % 2 ^ 32
    let body := s.flaskBody i seq mode cyc vh0 vh1 ns
    let s := s.setBlock (slotAt i) (body ++ leBytes 4 (crc32 body).toNat ++ [0, 0, 0, 0])
    let n := s.wearOf i + 1
    let s := s.mramStored 0x30210000 0x30220000
    let s := { s with pwr := { s.pwr with slot := some i, wear := s.pwr.wear.filter (fun e => e.1 != i) ++ [(i, n)] } }
    if n = 90000000 then s.raise 307 else s
/-- The closing word is written. -/
def State.flaskEnd (s : State) : State :=
  match s.pwr.slot with
  | none => s
  | some i => { s.setMem32 (slotAt i + 0x13FFC) flaskClose with pwr := { s.pwr with slot := none } }

/-! ### The record offered (R304, R322) -/

/-- Firmware, on core 0, reads a slot: corrected errors are counted and reported, the first word that is lost is its bus error (R296, R302). (log 162, DEDUCED) -/
def State.slotRead (s : State) (a : Nat) : State × Bool :=
  let r := s.eccScan (some 324) ((s.ecc.filter (fun e => decide (a ≤ e.1 ∧ e.1 < a + 0x14000))).map (·.1))
  (r.1, r.2.isSome)
/-- Slot `i` holds a valid record: no word of it is lost, and MAGIC, FORMAT, the CRC and CLOSE check. -/
def State.slotValid (s : State) (i : Nat) : Bool :=
  let a := slotAt i
  if s.ecc.any (fun e => decide (a ≤ e.1 ∧ e.1 < a + 0x14000 ∧ 2 ≤ e.2)) then false
  else if s.mem32 a ≠ flaskMagic then false
  else s.mem32 (a + 0x13FFC) == flaskClose && s.mem32 (a + 8) % 65536 == 1 &&
    s.mem32 (a + 0x13FF8) == (crc32 (s.getBlock a 0x13FF8)).toNat
/-- The slot of the valid record with the highest sequence number. -/
def State.bestSlot (s : State) : Option Nat :=
  ((List.range 64).filter (fun i => s.slotValid i)).foldl (fun b i =>
    match b with
    | none => some i
    | some j => if s.mem32 (slotAt j + 4) < s.mem32 (slotAt i + 4) then some i else b) none
/-- At the start the record is located and MEM_FLASK is filled (R317 step 10). -/
def State.flaskLocate (s : State) : State :=
  let s := (List.range 64).foldl (fun s i => (s.slotRead (slotAt i)).1) s
  let b := s.bestSlot
  let s := s.setFld MEM_FLASK_RETIRED ((List.range 64).filter (fun i => s.slotRetired i)).length
  let s := (s.setFld MEM_FLASK_NEXT (s.nextSlot.getD 0)).setFlag MEM_FLASK_VALID b.isSome
  let s := s.setFld MEM_FLASK_LAST (b.getD 0)
  { s with pwr := { s.pwr with offer := (b.bind (fun i => if s.mem32 (slotAt i + 4) ∈ s.pwr.used then none else some (slotAt i))) } }
/-- The record offered is consumed: it is never offered again. -/
def State.flaskUse (s : State) : State :=
  match s.pwr.offer with
  | none => s
  | some a => { s with pwr := { s.pwr with used := s.pwr.used ++ [s.mem32 (a + 4)], offer := none } }.mramStored 0x30210000 0x30220000
/-- The reference of LAU `u` is set to `t` as by SETANG, at standstill, or is refused (R48, R322). -/
def State.lauResume (s : State) (u t : Nat) : State :=
  if s.angleSlotOn u then s.setFlag (LAU_STAT_SETREF u) true else
  let l := s.lauSt u
  (s.setLau u { l with theta := t * 2 ^ 32, omega := 0, alpha := 0,
                       offset := l.offset + sgn 64 (uns 64 ((t : Int) - (l.theta / 2 ^ 32 : Nat))) }).setReg (LAU_VM_SPD u) 0
/-- Firmware loads both coefficient banks of context `k` from its configuration (R322). -/
def State.coefLoad (s : State) (k : Nat) : State :=
  (s.fw.cfg.filter (fun e => isCoef e.1 && loopCtxOf e.1 == some k)).foldl (fun s e =>
    match e.2 with
    | some v => ((s.sramPut (coefMem e.1 0) v).1.sramPut (coefMem e.1 1) v).1
    | none => s) s
/-- The record offered is resumed (R322). One that can no longer be read is consumed, and restores nothing. (log 162, DEDUCED) -/
def State.flaskResume (s : State) : State :=
  match s.pwr.offer with
  | none => s
  | some a =>
    let r := s.slotRead a
    if r.2 then r.1.flaskUse else
    let s := r.1
    let w (o : Nat) : Nat := s.mem32 (a + o)
    let s := (List.range 4).foldl (fun s d => s.setAdj d (sgn 32 (w (0x40 + 24 * d + 16)))) s
    let s := (List.range 2).foldl (fun s u =>
      let src := s.fld (LAU_CFG_SRC u)
      if src = 3 ∨ (src = 1 ∧ s.fld (LAU_CFG_WIDTH u) = 0) then
        s.lauResume u (w (0xA0 + 32 * u) + 2 ^ 32 * w (0xA4 + 32 * u))
      else s) s
    let s := (List.range 256).foldl (fun s k =>
      let b := 0x1000 + 0x120 * k
      if s.flag (LOOP_CTX_CTRL_EN k) then s
      else (((List.range 68).foldl (fun s i => s.loopStateWrite k i (w32 (w (b + 4 * i)))) s).setFld (LOOP_CTX_CTRL_AUTO k) (w (b + 272) % 2)).coefLoad k) s
    let s := (List.range 256).foldl (fun s f =>
      let v := w (0x800 + 4 * f)
      if v / 65536 % 4 = 3 then s.setFld (SWX_FC_STAT_SEQ f) v else s) s
    let s := (List.range 2).foldl (fun s b =>
      let h := w (0xEC + 4 * b)
      if s.fld (SAF_BTEST_HOURS b) < h then s.setFld (SAF_BTEST_HOURS b) (min 65535 h) else s) s
    s.safShow.flaskUse

end Sys2Proof.Machine
end

