-- ==== Sys2Proof/Machine/TxnOps.lean ====
section
/-! DEFINITION. Transactions (R352 to R358): open, the log, the commit check, the apply point, the ends; writes of RWT registers. -/

namespace Sys2Proof.Machine

open Sys2Proof

/-! ### Opening and the log -/

/-- Channel `m` opens a transaction (R352, R358). -/
def State.txnOpen (s : State) (m : Nat) (byCmd : Bool) : State :=
  if s.flag (TXN_CH_STAT_OPEN m) then s.txnResult m 0x8011 0 0
  else
    let t := s.txnCh m
    let n := if t.serial + 1 < 2 ^ 24 then t.serial + 1 else 1
    let s := (s.setFlag (TXN_CH_STAT_OPEN m) true).setFlag (TXN_CH_STAT_LOGFULL m) false
    (s.setTxn m { t with serial := n, handle := m * 2 ^ 24 + n, log := [], byCmd := byCmd, owed := none }).txnResult m 0 0 0

/-- An RWT write of the master of channel `m` goes into its log (R354). -/
def State.txnLog (s : State) (m a : Nat) (v : Word) : State :=
  let t := s.txnCh m
  if t.log.any (·.1 == a) then s.setTxn m { t with log := t.log.map (fun e => if e.1 = a then (a, v) else e) }
  else if 1024 ≤ t.log.length ∨ 4096 ≤ (List.range 21).foldl (fun n k => n + (s.txnCh k).log.length) 0 then
    s.setFlag (TXN_CH_STAT_LOGFULL m) true
  else s.setTxn m { t with log := t.log ++ [(a, v)] }

/-- The units a log names, each once. -/
def logUnits (log : List (Nat × Word)) : List SUnit :=
  log.foldl (fun us e => match unitOf e.1 with
    | some u => if u ∈ us then us else us ++ [u]
    | none => us) []

/-! ### The commit check (R355, R356) -/

/-- The first rule of unit `u` that fails over a candidate set: block, rule, register. -/
def State.unitBad (s : State) (get : Nat → Word) : SUnit → Option (Nat × Nat × Nat)
  | .lau u => (lauCheck s get u).map (fun e => (5, e))
  | .switch => (swxBad s get).map (fun e => (9, e))
  | .gate p => (gclBad get p).map (fun e => (9, e))
  | .disp => (dispBad s get).map (fun e => (12, e))
  | .loop k => (s.loopBad get k).map (fun e => (13, e))
  | .tt n => (ttBad s get n).map (fun e => (14, e))

/-- The two rules over all units: R110 rule 1 and R242 rule 10. -/
def State.globalBad (s : State) (get : Nat → Word) : Option (Nat × Nat × Nat) :=
  match swxBad s get with
  | some (1, a) => some (9, 1, a)
  | _ =>
    let en := s.enabledCtx
    let rate (j : Nat) : Nat := bits (get (LOOP_CTX_RATE j)) 16 0
    let rates := en.foldl (fun n j => n + rate j) 0
    let load := en.foldl (fun n j => n + rate j * s.loopCost get j) 0
    if 4096000 < rates ∨ 950000000 < load then some (13, 10, LOOP_CTX_RATE (en.headD 0)) else none

/-- The shadow units (R353). -/
def allUnits : List SUnit :=
  (List.range 2).map SUnit.lau ++ [.switch, .disp] ++ (List.range 32).map SUnit.gate ++ (List.range 256).map SUnit.loop ++ (List.range 4).map SUnit.tt
/-- The first rule the active sets break: the committed configuration is not consistent (R26, transition 8). The matrix of a controller
whose time-triggered operation is off is in no use: at reset it holds none. (log 32, DEDUCED) -/
def State.activeBad (s : State) : Option (Nat × Nat × Nat) :=
  let used : SUnit → Bool := fun u => match u with | .tt n => s.ttState n != 0 | _ => true
  match (allUnits.filter used).findSome? (fun u => s.unitBad (fun a => s.actWord a) u) with
  | some e => some e
  | none => s.globalBad (fun a => s.actWord a)

/-- The first rule that fails over the candidate sets of a log (R355). -/
def State.logBad (s : State) (log : List (Nat × Word)) : Option (Nat × Nat × Nat) :=
  let us := logUnits log
  let get := s.candFor us log
  match us.findSome? (fun u => s.unitBad get u) with
  | some e => some e
  | none => s.globalBad get

/-- What is wrong with the apply point of channel `m`, as the DA code of TXN_APPLY; 0 where it is valid (R356). -/
def State.applyBad (s : State) (m : Nat) : Nat :=
  let i := s.fld (TXN_CH_APPLY_INDEX m)
  let lo := s.regN (TXN_CH_APPLY_LO m)
  let hi := s.regN (TXN_CH_APPLY_HI m)
  match s.fld (TXN_CH_APPLY_KIND m) with
  | 0 => 0
  | 1 => match s.inst i with
    | some x => if x.st = 3 then 0 else 5
    | none => 5
  | 2 => if 999999999 < lo then 6 else timeVerdict (s.timeAhead 0 lo hi) 0
  | _ =>
    if 2 ≤ i then 6
    else if !s.lauOn i then 3
    else if s.tickAhead i (lo + 2 ^ 32 * hi) ≤ 0 then 4
    else 0

/-- The commit of channel `m` has failed: nothing changes, and the transaction stays open; one of firmware's own is rolled back (R355,
R360). -/
def State.txnFail (s : State) (m code da db fail : Nat) : State :=
  let t := s.txnCh m
  let s := (s.txnResult m code da db).setRegN (TXN_CH_FAIL m) fail
  let s := s.setTxn m { t with owed := none }
  let own := decide (1 ≤ m ∧ m ≤ 4) && t.owed.isSome
  let s := s.fwPay t.owed code da db (if own then [] else leBytes 4 fail)
  if own then s.txnDiscard m else s

/-- An armed set whose apply point is reached: its units are eligible, and the ones at a boundary apply (R356). -/
def State.txnReach (s : State) (m : Nat) : State :=
  match (s.txnCh m).armed with
  | none => s
  | some a =>
    let s := s.setTxn m { s.txnCh m with armed := some { a with reached := true } }
    if a.units.isEmpty then
      let s := s.setTxn m { s.txnCh m with armed := none }
      let s := s.fwPay a.owed 0 0 0 []
      if a.byCmd then s.txnNotice a.handle 0 else s
    else a.units.foldl (fun s u => match u with
      | .loop k => s.loopAtOnce k
      | .tt n => s.ttAtOnce n
      | _ => s) s

/-- The check of channel `m` has passed: its log goes into the shadows, its units are armed (R355). A response to a COMMIT command is
sent now, one to a command of firmware's own transaction when every unit has applied (R360). -/
def State.txnPass (s : State) (m : Nat) : State :=
  let t := s.txnCh m
  let own := decide (1 ≤ m ∧ m ≤ 4)
  let s := t.log.foldl (fun s e => s.setShad e.1 e.2) s
  let kind := s.fld (TXN_CH_APPLY_KIND m)
  let a : ArmedSet := { handle := t.handle, kind := kind, index := s.fld (TXN_CH_APPLY_INDEX m), lo := s.regN (TXN_CH_APPLY_LO m),
                        hi := s.regN (TXN_CH_APPLY_HI m), reached := false, units := logUnits t.log, byCmd := t.byCmd,
                        owed := if own then t.owed else none,
                        keep := if t.byCmd || t.owed.isSome then t.log else [] }
  let s := (s.setFlag (TXN_CH_STAT_OPEN m) false).txnResult m 0 0 0
  let s := s.setTxn m { t with log := [], handle := 0, byCmd := false, owed := none, armed := some a }
  let s := if own then s else s.fwPay t.owed 0 0 0 (leBytes 4 0)
  if kind = 0 then s.txnReach m else s

/-- The check of channel `m` ends (R355). -/
def State.txnCheckEnd (s : State) (m : Nat) : State :=
  if !s.flag (TXN_CH_STAT_CHECKING m) then s else
  let s := s.setFlag (TXN_CH_STAT_CHECKING m) false
  let log := (s.txnCh m).log
  match (logUnits log).find? (fun u => (s.armedBy u).isSome) with
  | some u => s.txnFail m 0x8014 u.code 0 0
  | none =>
    if s.applyBad m ≠ 0 then s.txnFail m 0x8015 (s.applyBad m) 0 0
    else match s.logBad log with
      | some (b, r, a) => (s.txnFail m 0x8012 b r a).raise 355
      | none => s.txnPass m

/-- COMMIT of channel `m`: the check starts, or the commit is refused (R354, R355, R358). -/
def State.txnCommit (s : State) (m : Nat) : State :=
  if !s.flag (TXN_CH_STAT_OPEN m) then s.txnResult m 0x8010 0 0
  else if s.flag (TXN_CH_STAT_CHECKING m) then s
  else if (s.txnCh m).armed.isSome then s.txnFail m 0x8011 0 0 0
  else if s.flag (TXN_CH_STAT_LOGFULL m) then s.txnFail m 0x8013 0 0 0
  else s.setFlag (TXN_CH_STAT_CHECKING m) true

/-- ROLLBACK of channel `m` (R357, R358). (log 21, DEDUCED) -/
def State.txnRollback (s : State) (m : Nat) : State :=
  if s.flag (TXN_CH_STAT_OPEN m) then
    ((s.fwPay (s.txnCh m).owed 0x8010 0 0 []).txnDiscard m).txnResult m 0 0 0
  else if (s.txnCh m).armed.isSome then (s.txnCancel m 2).txnResult m 0 0 0
  else s.txnResult m 0x8010 0 0

/-- A write of CTRL of channel `m`: OPEN, COMMIT, ROLLBACK in this order. -/
def State.txnCtrl (s : State) (m : Nat) (v : Word) : State :=
  let s := if v.getLsbD 0 then s.txnOpen m false else s
  let s := if v.getLsbD 1 then s.txnCommit m else s
  if v.getLsbD 2 then s.txnRollback m else s

/-- ARMMAX seconds have passed over an armed set of kind network cycle or angle (R357). -/
def State.txnArmMax (s : State) (m : Nat) : State :=
  match (s.txnCh m).armed with
  | some a => if (a.kind = 1 ∨ a.kind = 3) ∧ !a.reached then s.txnCancel m 3 else s
  | none => s

/-- TIMEOUT ms have passed since the OPEN (R358). (log 21, DEDUCED) -/
def State.txnTimeout (s : State) (m : Nat) : State :=
  if !s.flag (TXN_CH_STAT_OPEN m) then s else
  let t := s.txnCh m
  let s := ((s.fwPay t.owed 0x8010 0 0 []).txnDiscard m).raise 356
  (s.txnNotice t.handle 4).drew

/-! ### Writes of RWT registers (R13, R273, R354, R359) -/

/-- The fields of R273 are locked: the start check has passed and the mode is not COMMISSION. (log 14, DEDUCED) -/
def State.rwlLocked (s : State) : Bool := s.flag SAF_STAT_CCVOK && s.mode != modeCOMMISSION
/-- The bits of a register that carry the RWL code beside those of the register map: words of LOOP_COEF (R273). (log 18, DEDUCED) -/
def coefLock (a : Nat) : Word :=
  let i := (a - 0x41300000) / 4 % 256
  if 208 ≤ i ∧ i ≤ 211 then 0x4000#32 else if (224 ≤ i ∧ i ≤ 227) ∨ i = 235 then 0xFFFFFFFF#32 else 0
/-- The bits of word `i` of a coefficient set that are not reserved (R14, R221, R227, R231, R236); a stage's parameter word whose kind
follows the stage's type, or that no type uses, keeps all of its bits. (log 157, DEDUCED) -/
def coefBits (i : Nat) : Word :=
  let o := (i - 16) % 48
  if i < 8 then 0xE3FFFFFF#32
  else if i < 16 then 0x3FFFFFFF#32
  else if i < 208 then (if (3 ≤ o ∧ o ≤ 8) ∨ (10 ≤ o ∧ o ≤ 12) then 0x3FFFFFFF#32 else 0xFFFFFFFF#32)
  else if i < 212 then 0x7FFFFF#32
  else if i < 216 then 0x3FFFFFFF#32
  else if i < 228 then 0xFFFFFFFF#32
  else if i = 228 then 0x7FFFFF#32
  else if i = 230 ∨ (233 ≤ i ∧ i ≤ 235) then 0x3FFFFFFF#32
  else if i < 233 then 0xFFFFFFFF#32
  else 0
/-- The fields an RWT write reaches: outputs 12 to 31 have no CBS and no gate list of their own in use. -/
def rwtNorm (a : Nat) (v : Word) : Word :=
  let v := v &&& rwtMask a
  if isCoef a then v &&& coefBits ((a - 0x41300000) / 4 % 256)
  else if 0x40A04000 ≤ a ∧ a < 0x40A09000 ∧ (a - 0x40A01000) % 0x400 = 0 then v &&& 0xFFFF00FF#32
  else if 0x40A04000 ≤ a ∧ a < 0x40A09000 ∧ (a - 0x40A01000) % 0x400 = 0xC then v &&& 0xFFFEFFFF#32
  else v
/-- The transaction channel of a master (R352). -/
def txnOf : Master → Option Nat
  | .host => some 0
  | .core c => some (1 + c.val)
  | .thread e _ => some (5 + e.val)
  | .jtag => none
  | .cardamom => none
/-- A unit whose boundary is the moment its shadow is eligible. -/
def State.unitAtOnce (s : State) : SUnit → State
  | .loop k => s.loopAtOnce k
  | .tt n => s.ttAtOnce n
  | _ => s
/-- A write of an RWT register outside transactions (R359). The low half of a pair acts with its high half, which follows in the same cycle (R11). -/
def State.rwtOutside (s : State) (u : SUnit) (a : Nat) (v : Word) : State :=
  let low := ((findReg a).map (fun r => r.half == 1)).getD false
  if (s.armedBy u).isSome then (if low then s else (s.setFlag TXN_STAT_ARMREF true).note)
  else if low then s.setShad a v
  else (s.setShad a v).unitAtOnce u
/-- A check whose log names unit `u` ends before an outside write to that unit is made: its writer stalls for it (R355). (log 19, DESIGN CHOICE) -/
def State.checksEnd (s : State) (u : SUnit) : State :=
  (List.range 21).foldl (fun s k =>
    if s.flag (TXN_CH_STAT_CHECKING k) && decide (u ∈ logUnits (s.txnCh k).log) then s.txnCheckEnd k else s) s
/-- Master `m` writes the RWT fields of the register at `a`: into its open transaction's log, or to the shadow. (log 20, DEDUCED) -/
def State.rwtWrite (s : State) (m : Master) (a : Nat) (v : Word) : State :=
  let v := rwtNorm a v
  let lock := if isCoef a && s.rwlLocked then coefLock a else 0
  let s := if lock = 0 then s else s.note
  if lock = 0xFFFFFFFF#32 then s else
  let v := (v &&& ~~~lock) ||| (s.actWord a &&& lock)
  match unitOf a with
  | none => s
  | some u =>
    match txnOf m with
    | some k => if s.flag (TXN_CH_STAT_OPEN k) then s.txnLog k a v else (s.checksEnd u).rwtOutside u a v
    | none => (s.checksEnd u).rwtOutside u a v

end Sys2Proof.Machine
end

