-- ==== Sys2Proof/Machine/Inst.lean ====
section
/-! DEFINITION. The start and the stop of a protocol instance (R166 to R174). -/

namespace Sys2Proof.Machine

open Sys2Proof

/-- A start of an instance on domain `dom` (0xFF none) (R166 to R174): the instance number, or the code of its refusal with DA and DB. (log 40, DEDUCED; 112, DEDUCED) -/
def State.instStart (s : State) (c : InstCfg) (dom : Nat) : State × (Nat ⊕ (Nat × Nat × Nat)) :=
  match (List.range 4).find? (fun i => (s.inst i).isNone), imgSpec c.image, s.sys.imgs.find? (fun e => e.1 == c.image) with
  | none, _, _ => (s, .inr (0x8030, 0, 0))
  | _, none, _ => (s, .inr (0x8038, 0, 0))
  | _, _, none => (s, .inr (0x8038, 0, 0))
  | some i, some sp, some im =>
    if cycleBad sp c then (s, .inr (0x8036, 0, 0))
    else if peersBad sp c then (s, .inr (0x8037, 0, 0))
    else if sp.follows ∧ s.insts.any (fun x => x.2.dom == dom && ((imgSpec x.2.cfg.image).map (·.follows)).getD false) then
      (s, .inr (0x8034, dom, 0))
    else if !attOk sp c then (s, .inr (0x8035, 0, 0))
    else match s.attClash c with
    | some a => (s, .inr (0x8035, a, 0))
    | none =>
      match s.engGroup sp.engs with
      | none => (s, .inr (0x8031, 0, 0))
      | some e =>
        let fs := s.fcFree sp.fcs
        if fs.length < sp.fcs then (s, .inr (0x8032, 0, 0))
        else if s.fld BUF_SWCELLS_UNITS < s.unitsUsed + sp.units then (s, .inr (0x8033, 0, 0))
        else if budgetBad c then (s, .inr (0x8039, 0x20, 1))
        else
          let log := fcLog fs c
          match (if log.isEmpty then none else if (s.armedBy .switch).isSome then some (9, 0, 0) else s.logBad log) with
          | some r => (s, .inr (0x8039, r.1, r.2.1))
          | none =>
            let s := if log.isEmpty then s else (log.foldl (fun s w => s.setShad w.1 w.2) s).swxApply
            let x : InstSt := { cfg := c, dom := dom, eng := e, engs := sp.engs, fcs := fs, units := sp.units, st := 0, lost := 0,
                                tries := 0, late := 0 }
            let es := (List.range sp.engs).map (e + ·)
            let s := es.foldl (fun s n => s.engCtrl n (w32 (s.regN (ENG_CTRL n) &&& 0xF6))) s
            let s := s.instCluster x
            let code := im.2.getD c.code
            let s := es.foldl (fun s n => s.setEng n ((s.engSt n).load code)) s
            let s := (s.setInst i (some x)).instAssert x
            let s := es.foldl (fun s n => s.engCtrl n 0xF5#32) s
            ((s.instState i 1).instState i 2, .inl i)
/-- A start as INST_START and BOOT ask for it: an image that follows a domain names one of the four (R172). -/
def State.instBegin (s : State) (c : InstCfg) (dom : Nat) : State × (Nat ⊕ (Nat × Nat × Nat)) :=
  if (dom == 0xFF && ((imgSpec c.image).map (fun i => i.follows)).getD false) || (3 < dom && dom != 0xFF) then (s, .inr (0x8005, 1, 0))
  else s.instStart c dom
/-- A stop of instance `i` (R174). -/
def State.instStop (s : State) (i : Nat) : State :=
  match s.inst i with
  | none => s
  | some x =>
    let es := (List.range x.engs).map (x.eng + ·)
    let s := es.foldl (fun s n => (s.engCtrl n (w32 ((s.regN (ENG_CTRL n) &&& 0xF6) ||| 2))).resetReg (ENG_PERMR n) |>.resetReg (ENG_PERMW n)) s
    let s := (bitsOf 12 x.cfg.ports).foldl (fun s p =>
      if s.insts.any (fun y => y.1 != i && isIso y.2.cfg.image && y.2.cfg.ports.testBit p) then s else s.setFlag (MAC_CTRL_ISOPROT p) false) s
    let s := (List.range 16).foldl (fun s k =>
      if s.fld (SWX_ETYPE_MATCH_DEST k) = 12 + x.eng ∧ s.flag (SWX_ETYPE_MATCH_VALID k) then s.setFlag (SWX_ETYPE_MATCH_VALID k) false else s) s
    let s := x.fcs.foldl (fun s f => s.setFlag (SWX_FC_CFG_VALID f) false) s
    ((s.instState i 0).setInst i none).isoSync


end Sys2Proof.Machine
end

