-- ==== Sys2Proof/Machine/BusRegs.lean ====
section
/-! DEFINITION. Accesses to the registers: who may reach a register, what a read returns and does, what a write does, by block (R10
to R14, R19 to R23, R35, R73, R273, R324, R334, R341, R352). -/

namespace Sys2Proof.Machine

open Sys2Proof

/-! ### Masters, domains, locks -/

/-- The number of a master among those of R11. JTAG, which R11 does not list, counts as one more, with its own snapshots and held words. (log 108, DESIGN CHOICE) -/
def masterNo : Master → Nat
  | .host => 0
  | .jtag => 1
  | .core c => 2 + c.val
  | .thread e t => 6 + 4 * e.val + t.val
  | .cardamom => 70
/-- The key of what a master holds of the register at `a`. -/
def snapKey (m : Master) (a : Nat) : Nat := masterNo m * 2 ^ 32 + a
/-- A master's snapshot of the register at `a` (R11). (log 10, DESIGN CHOICE) -/
def State.snap (s : State) (m : Master) (a : Nat) : Word := (storeGet (fun _ => none) s.snaps (snapKey m a)).getD 0
def State.setSnap (s : State) (m : Master) (a : Nat) (v : Word) : State :=
  { s with snaps := storeSet (fun _ => none) s.snaps (snapKey m a) (some v) }
/-- The `_LO` word a master holds for the `_HI` register at `a` (R11). -/
def State.low (s : State) (m : Master) (a : Nat) : Option Word := storeGet (fun _ => none) s.lows (snapKey m a)
def State.setLow (s : State) (m : Master) (a : Nat) (v : Option Word) : State :=
  { s with lows := storeSet (fun _ => none) s.lows (snapKey m a) v }
/-- A Huafegal core, which runs firmware. (log 11, DEDUCED) -/
def isCore : Master → Bool
  | .core _ => true
  | _ => false

/-- The power domain of the block an address lies in (R15, R24). -/
def domAt (a : Nat) : Nat :=
  if a < 0x40500000 then 0
  else if a < 0x40C00000 then 7
  else if a < 0x41000000 then 11
  else if a < 0x41100000 then engDom ((a - 0x41000000) / 0x10000)
  else if a < 0x41200000 then 7
  else if a < 0x41400000 then 9
  else if a < 0x41600000 then 10
  else if a < 0x41700000 then 1
  else 0
/-- The block a hold or a block reset acts on that an address lies in (R287, R403). -/
def blkAt (a : Nat) : Option Blk :=
  if a < 0x40500000 then none
  else if a < 0x40580000 then some (.lau ((a - 0x40500000) / 0x10000))
  else if a < 0x40600000 then some .itin
  else if a < 0x40800000 then some .edge
  else if a < 0x408C0000 then some (.mac ((a - 0x40800000) / 0x10000))
  else if a < 0x41000000 then none
  else if a < 0x41100000 then some (.eng ((a - 0x41000000) / 0x10000))
  else if a < 0x41200000 then none
  else if a < 0x41400000 then some .loop
  else if a < 0x41500000 then some (.can ((a - 0x41400000) / 0x10000))
  else if a < 0x41600000 then some .nut
  else if 0x41800000 ≤ a ∧ a < 0x41900000 then some .host
  else none
/-- A register of a domain that is off, or of a block held in reset, is not reached (R307). -/
def State.unreached (s : State) (a : Nat) : Bool :=
  !s.domOn (domAt a) || (match blkAt a with
    | some b => decide (b ∈ s.fcu.resetting ++ s.fcu.held)
    | none => false)
/-- The mailbox channel whose page an address lies in. -/
def pageChan (a : Nat) : Option Nat := if 0x40300000 ≤ a ∧ a < 0x40306000 then some ((a - 0x40300000) / 0x100) else none
/-- A channel register a master may not reach: its page is the sender's and the receiver's, SEND the sender's, HEAD the receiver's. (log 13, DEDUCED) -/
def chanBars (m : Master) (c o : Nat) : Bool :=
  let snd := masterId m == chanSender c
  let rcv := masterId m == chanReceiver c
  !(snd || rcv) || (decide (o < 0x40) && !snd) || (decide (0x80 ≤ o ∧ o < 0xC0) && !rcv)
/-- The page of a transaction channel is reached by its own master only (R352). -/
def txnBars (m : Master) (a : Nat) : Bool :=
  decide (0x41900100 ≤ a ∧ a < 0x419003A0) && txnOf m != some ((a - 0x41900100) / 0x20)
/-- A master is barred from the register at `a`. -/
def barred (m : Master) (a : Nat) : Bool :=
  (match pageChan a with
   | some c => chanBars m c (a % 0x100)
   | none => false) || txnBars m a

/-- Cluster `k`, by one of its engines, is assigned by firmware. -/
def State.clAssigned (s : State) (e : Nat) : Bool := (List.range 16).any (fun n => s.clusterOf n == s.clusterOf e && s.engUsed n)
/-- A register of the Dispatcher that belongs to an assigned cluster, now or with word `v` (R23). -/
def State.dispLocked (s : State) (a : Nat) (v : Word) : Bool :=
  let o := a - 0x41100000
  if o = 0 then (List.range 16).any (fun e => s.engUsed e &&
    (clusterIn (s.regN DISP_CLCFG) e != clusterIn v.toNat e || clusterLog (s.regN DISP_CLCFG) e != clusterLog v.toNat e))
  else if 0x100 ≤ o ∧ o < 0x300 then s.clAssigned ((o - 0x100) / 0x20)
  else if 0x400 ≤ o ∧ o < 0x600 then s.clAssigned ((o - 0x400) / 0x20)
  else if 0x800 ≤ o ∧ o < 0x880 then
    let i := (o - 0x800) / 8
    (s.flag (DISP_TMR_CFG_EN i) && s.clAssigned (s.fld (DISP_TMR_CFG_CLUSTER i))) || (o % 8 == 4 && v.getLsbD 31 && s.clAssigned (bits v 27 24))
  else if 0x10000 ≤ o ∧ o < 0x12000 then
    let n := (o - 0x10000) / 16
    (s.nodeValid n && s.clAssigned (s.fld (DISP_NODE_W0_CLUSTER n))) || (o % 16 == 0 && s.clAssigned (bits v 27 24))
  else if 0x12000 ≤ o then
    let n := (o - 0x12000) / 4
    s.nodeValid n && s.clAssigned (s.fld (DISP_NODE_W0_CLUSTER n))
  else false
/-- A direct write that R23 locks: `v` is the word to be written. (log 11, DEDUCED; 12, DEDUCED; 119, DESIGN CHOICE) -/
def State.locked (s : State) (m : Master) (a : Nat) (v : Word) : Bool :=
  if isCore m then false
  else if a = HOST_LINKCFG then true
  else if !s.fw.running then false
  else if 0x40100000 ≤ a ∧ a < 0x40200000 then true
  else if 0x41000000 ≤ a ∧ a < 0x41100000 then s.engUsed ((a - 0x41000000) / 0x10000)
  else if 0x41100000 ≤ a ∧ a < 0x41200000 then s.dispLocked a v
  else if 0x41A00000 ≤ a then !(s.mode == modeBOOT || s.mode == modeCOMMISSION || s.mode == modePREOP)
  else false

/-! ### Reads -/

/-- The registers a read of TIME_DOM[d]_NS captures (R35). -/
def State.timeSnap (s : State) (m : Master) (d : Nat) : State :=
  [TIME_DOM_SEC_LO d, TIME_DOM_SEC_HI d, TIME_DOM_FRAC d, TIME_DOM_CYC d].foldl (fun s a => s.setSnap m a (s.reg a)) s
/-- The words that follow hidden state are brought up to date before they are read. -/
def State.syncReg (s : State) (a : Nat) : State :=
  if a = HOST_VSTATE then s.nutLive
  else if a = PWR_HOLDSTAT then s.supplyRead
  else if 0x41200000 ≤ a ∧ a < 0x41200020 then s.loadSync.budgetShow
  else if 0x41210000 ≤ a ∧ a < 0x41220000 then s.ctxShow ((a - 0x41210000) / 0x100)
  else if 0x41400000 ≤ a ∧ a < 0x41440000 ∧ a % 0x10000 = 0x10C then s.ctShow ((a - 0x41400000) / 0x10000)
  else if 0x41500000 ≤ a ∧ a < 0x41520000 then
    let c := (a - 0x41500000) / 0x1000
    let s := s.nutShow c
    if a % 0x1000 = 0x2C then s.cntSync c else s
  else if 0x40800000 ≤ a ∧ a < 0x408C0000 ∧ (a % 0x10000 = 0x4F0 ∨ a % 0x10000 = 0x4F4 ∨ a % 0x10000 = 0x504 ∨ a % 0x10000 = 0x18) then
    let p := (a - 0x40800000) / 0x10000
    (s.lpiTxSync p).lpiRxSync p
  else if 0x41000000 ≤ a ∧ a < 0x41100000 ∧ a = ENG_CNT ((a - 0x41000000) / 0x10000) 2 then
    (List.range 4).foldl (fun (s : State) t => s.stallSync ((a - 0x41000000) / 0x10000) t) s
  else s
/-- What the register at `a` holds, where it does not stand among the stored words. -/
def State.liveWord (s : State) (m : Master) (a : Nat) : Word :=
  if 0x40200100 ≤ a ∧ a < 0x40200140 then s.assertWord ((a - 0x40200100) / 4)
  else if a = BUF_PROT then w32 s.protFree
  else if a = HOST_VSTATE then s.vstate
  else if 0x41100900 ≤ a ∧ a < 0x41100910 then
    storeGet (fun _ => 0) s.disp.sw (masterNo m * 4 + (a - 0x41100900) / 4)
  else if a = DISP_SWRES then w32 (storeGet (fun _ => 0) s.disp.swres (masterNo m))
  else if 0x40800000 ≤ a ∧ a < 0x408C0000 ∧ (a % 0x10000 = 0x50 ∨ a % 0x10000 = 0x58) ∧ s.flag (MAC_STAT_ISOCUSE ((a - 0x40800000) / 0x10000)) then
    setBits (s.reg a) 0 0 0
  else s.actWord a
/-- A run of bytes of memory, most of it as stored; the boot ROM's, the mailbox store's and those of what firmware keeps in
MRAM are open. (log 23, DEDUCED) -/
def State.memBytes (s : State) (a n : Nat) : List Byte :=
  if a < 0x40000 then (List.range n).map (fun i => Config.romByte (a + i))
  else if 0x208C0000 ≤ a ∧ a < 0x208D8000 then (List.range n).map (fun i => Config.storeByte s.free (a + i))
  else (List.range n).map (fun i => if s.fwKept (a + i) then Config.mramByte s.free (a + i)
    else if s.captured (a + i) then Config.storeByte s.free (a + i) else s.byte (a + i))
/-- The source of a bus error of a master, where it has one (R296). -/
def busErr : Master → Option Nat
  | .core c => some (324 + c.val)
  | _ => none
/-- A master reads `n` bytes of SRAM, MRAM or the boot ROM; lost data is an open value (R296, R301). (log 17, DESIGN CHOICE; 136, DESIGN CHOICE) -/
def State.memRead (s : State) (m : Master) (a n : Nat) : State × Nat :=
  let r := if inSram a then s.sgServe (sramBank a / 4) else (s, true)
  if !r.2 then (r.1.note, 0) else
  let e := if a < 0x40000 then (r.1, false) else r.1.eccRead a (busErr m)
  if e.2 then
    let s := if m == .host then e.1.setFlag HOST_ERR_POISON true else e.1
    (s.drew, if s.spi && m == .host then 0 else (s.freeW.toNat + 2 ^ 32 * s.freeW.toNat) % 2 ^ (8 * n))
  else
    let v := ofLe (e.1.memBytes a n)
    (if (0x208C0000 ≤ a ∧ a < 0x208D8000) ∨ (0x30000000 ≤ a ∧ a < 0x30220000) ∨ s.captured a then e.1.drew else e.1, v)
/-- A read of the 32-bit register at `a` that reaches it: the word, with what the read does. SPD and ACC of an LAU, and POSTS of a cell,
read as the reader's last read of ANG_LO or POS captured them, where it has made one (R43, R216). (log 114, DEDUCED) -/
def State.readReg (s : State) (m : Master) (r : RegSpec) (a : Nat) : State × Word :=
  let s := s.syncReg a
  if 0x41000000 ≤ a ∧ a < 0x41100000 ∧ a % 0x10000 = 0xC then s.memDataRead ((a - 0x41000000) / 0x10000)
  else if isCoef a then (let x := s.memRead m (coefMem a (s.coefBank a)) 4; (x.1, w32 x.2))
  else if 0x41500000 ≤ a ∧ a < 0x41520000 ∧ a % 0x1000 = 0x44 then s.rxqGet ((a - 0x41500000) / 0x1000) (m == .jtag)
  else if 0x40800000 ≤ a ∧ a < 0x408C0000 ∧ a % 0x10000 = 0x30 then
    let x := s.tsfRead ((a - 0x40800000) / 0x10000)
    match x.2 with
    | none => (x.1, 0)
    | some (h, sec, ns) => ((x.1.setSnap m (a + 4) (w32 sec)).setSnap m (a + 8) (w32 ns), w32 h)
  else if 0x40800000 ≤ a ∧ a < 0x408C0000 ∧ (a % 0x10000 = 0x34 ∨ a % 0x10000 = 0x38) then (s, s.snap m a)
  else if 0x40400000 ≤ a ∧ a < 0x40400400 ∧ (a % 0x100 = 0x0C ∨ a % 0x100 = 0x10 ∨ a % 0x100 = 0x14 ∨ a % 0x100 = 0x18) then (s, s.snap m a)
  else if r.half = 2 then (s, s.snap m a)
  else if (0x40500000 ≤ a ∧ a < 0x40520000 ∧ (a % 0x10000 = 0x28 ∨ a % 0x10000 = 0x2C)) ∨ (0x41500000 ≤ a ∧ a < 0x41520000 ∧ a % 0x1000 = 0x50) then
    (s, (storeGet (fun _ => none) s.snaps (snapKey m a)).getD (s.reg a))
  else
    let s := if (pageChan a).isSome && decide (0x80 ≤ a % 0x100 ∧ a % 0x100 < 0xC0) then (s.sgServe 8).1 else s
    let w := s.liveWord m a
    let s := if 0x40400000 ≤ a ∧ a < 0x40400400 ∧ a % 0x100 = 0x08 then s.timeSnap m ((a - 0x40400000) / 0x100) else s
    let s := if r.half = 1 then s.setSnap m (a + 4) (s.actWord (a + 4)) else s
    let s := if 0x40500000 ≤ a ∧ a < 0x40520000 ∧ a % 0x10000 = 0x20 then
        (s.setSnap m (a + 8) (s.reg (a + 8))).setSnap m (a + 12) (s.reg (a + 12)) else s
    let s := if 0x41500000 ≤ a ∧ a < 0x41520000 ∧ a % 0x1000 = 0x4C then s.setSnap m (a + 4) (s.reg (a + 4)) else s
    let rc := accMask r .rc
    let s := if m == .jtag || rc == 0#32 then s
      else if a = BUF_LOW then s.setReg a 0x7FFFF#32
      else s.setReg a (rcWord r (s.reg a))
    (s, rdWord r w)
/-- An address of the descriptor window (R88, R401). -/
def inDesc (a : Nat) : Bool := decide (0x40E00000 ≤ a ∧ a < 0x41000000)
/-- A read of a word of the register region that is no register: of the descriptor window, of the words of HOST_FQ that are not used, of a
hole (R12, R88, R331). -/
def State.bareRead (s : State) (a : Nat) : State × Word :=
  if 0x41800414 ≤ a ∧ a < 0x41800440 then (s, 0)
  else if inDesc a && !s.unreached a then (s.drew, s.descWord ((a - 0x40E00000) / 32) (a % 32 / 4))
  else (s.note, 0)
/-- A write of such a word. -/
def State.bareWrite (s : State) (a : Nat) : State :=
  if 0x41800414 ≤ a ∧ a < 0x41800440 then s else if inDesc a && !s.unreached a then s else s.note
/-- A read of the aligned 32-bit word at an address of the register region (R12, R307, R334, R352). Cardamom has no bus view (R19). (log 155, DESIGN CHOICE) -/
def State.regRead (s : State) (m : Master) (a : Nat) : State × Word :=
  if m == .cardamom then (s, 0) else
  match findReg a with
  | none => s.bareRead a
  | some r => if s.unreached a || barred m a then (s.note, 0) else s.readReg m r a

/-! ### Writes, by block -/

/-- A write per the access codes alone (R13); a locked RWL field is kept, and the write reported (R273). (log 14, DEDUCED) -/
def State.putGen (s : State) (m : Master) (r : RegSpec) (a : Nat) (v : Word) : State :=
  let locked := s.rwlLocked
  let s := if locked && accMask r .rwl != 0#32 then s.note else s
  let s := if isCoef a then s else s.setReg a (wrWord r (!locked) (s.reg a) v)
  if accMask r .rwt == 0#32 then s else s.rwtWrite m a v

/-- A write of a register of the time spine. -/
def State.putTime (s : State) (m : Master) (r : RegSpec) (a : Nat) (v : Word) : State :=
  let d := (a - 0x40400000) / 0x100
  if a = TIME_PPS_CTRL then s.ppsCtrl v
  else if d < 4 ∧ a % 0x100 = 0 then s.timeCtrl d v.toNat
  else if d < 4 ∧ a % 0x100 = 0x1C then s.setAdj d v.toInt
  else s.putGen m r a v

/-- CTRL: EN, REACQ, SETANG in this order (R48); clearing EN loses an apply point that waits for the angle (R357). -/
def State.lauCtrl (s : State) (u : Nat) (v : Word) : State :=
  let s := s.lauEnable u (v.getLsbD 0)
  let s := if v.getLsbD 0 then s else s.txnLosePoint 3 u
  let s := if v.getLsbD 2 then s.lauReacq u else s
  if v.getLsbD 1 then s.lauSetAng u else s
/-- A write of a register of an LAU. -/
def State.putLau (s : State) (m : Master) (r : RegSpec) (a : Nat) (v : Word) : State :=
  let u := (a - 0x40500000) / 0x10000
  let o := a % 0x10000
  if o = 0 then s.lauCtrl u v
  else if o = 0x48 then s.lauNetTs u v.toNat
  else if o = 0x44 then let s := s.putGen m r a v; s.setLau u { s.lauSt u with netFresh := true }
  else s.putGen m r a v

/-- A write of a register of the Itinerary. -/
def State.putItin (s : State) (m : Master) (r : RegSpec) (a : Nat) (v : Word) : State :=
  if a < 0x40590000 then s.putGen m r a v
  else
    let n := (a - 0x40590000) / 0x20
    let o := a % 0x20
    if o = 0 then s.slotCtrlWrite n v
    else if o < 0x18 then s.putGen m r a v
    else
      let s := s.putGen m r a v
      if o = 0x18 ∧ v.getLsbD 16 then s.setFld (ITIN_SLOT_STAT_MISS n) 0 else s

/-- CTRL of MAC `p` (R66, R77, R82). -/
def State.macCtrl (s : State) (p : Nat) (v : Word) : State :=
  let s := (s.setFlag (MAC_CTRL_TXEN p) (v.getLsbD 1)).setFlag (MAC_CTRL_ISOPROT p) (v.getLsbD 4)
  let s := (s.macRxen p (v.getLsbD 0)).isoSync
  let s := if v.getLsbD 3 then (List.range 64).foldl (fun s i => s.setReg (macCnt p i) 0) ((s.lpiTxSync p).lpiRxSync p) else s
  if v.getLsbD 2 then s.anRestart p else s
/-- A write of ASPD or EEE leaves EN as it stands while the port is in isochronous use (R77). -/
def State.keepEn (s : State) (p a : Nat) (v : Word) : Word :=
  if s.flag (MAC_STAT_ISOCUSE p) then setBits v 0 0 (bit ((s.reg a).getLsbD 0)) else v
/-- A write of a MAC register. PREEMPT.EN that changes while the link is up starts verification, or ends preemption, at once (R80). (log 123, DESIGN CHOICE; 144, DESIGN CHOICE) -/
def State.putMac (s : State) (m : Master) (r : RegSpec) (a : Nat) (v : Word) : State :=
  let p := (a - 0x40800000) / 0x10000
  match a % 0x10000 with
  | 0x000 => s.macCtrl p v
  | 0x004 => s.macMode p v
  | 0x014 => s.setRegN a (min 9728 (max 64 (bits v 13 0)))
  | 0x040 => (s.putGen m r a v).macGen p
  | 0x044 => (s.putGen m r a v).macGen p
  | 0x048 => s.macSendFc p (bits v 7 0) (bits v 31 16)
  | 0x050 => s.putGen m r a (s.keepEn p a (if 8 ≤ p then v &&& 0xFFFFFFFE#32 else v))
  | 0x058 =>
    let s := s.putGen m r a (s.keepEn p a v)
    if s.flag (MAC_EEE_EN p) then s else s.lpiLeave p
  | 0x05C =>
    let was := s.flag (MAC_PREEMPT_EN p)
    let s := s.putGen m r a v
    if s.flag (MAC_PREEMPT_EN p) = was then s else s.preemptStart p (s.flag (MAC_STAT_LINK p))
  | 0x500 => (s.putGen m r a v).macSync p
  | 0x504 => (s.putGen m r a v).macSync p
  | 0x508 => (s.putGen m r a v).macSync p
  | 0x50C => (s.putGen m r a v).macSync p
  | _ => s.putGen m r a v

/-- A write of a switch register. CNTCLR clears the counters of its output; FLUSHDOWN set while the link is down discards what waits (R107, R111). -/
def State.putSwx (s : State) (m : Master) (r : RegSpec) (a : Nat) (v : Word) : State :=
  let s := s.putGen m r a v
  if a < 0x40A01000 ∨ 0x40A09000 ≤ a ∨ (a - 0x40A01000) % 0x400 ≠ 0 then s else
  let p := (a - 0x40A01000) / 0x400
  let s := if v.getLsbD 2 then (List.range 8).foldl (fun s i => s.setReg (SWX_CNT p i) 0) s else s
  if p < 12 ∧ s.flag (SWX_PORTCFG_FLUSHDOWN p) ∧ !s.flag (MAC_STAT_LINK p) then (s.creditSync p).flushOut p else s
/-- A write of a register of Hamper. -/
def State.putBuf (s : State) (m : Master) (r : RegSpec) (a : Nat) (v : Word) : State :=
  if a = BUF_SWCELLS then s.swCells (bits v 7 0) else s.putGen m r a v

/-- A write of a register of an engine. -/
def State.putEng (s : State) (m : Master) (r : RegSpec) (a : Nat) (v : Word) : State :=
  let n := (a - 0x41000000) / 0x10000
  match a % 0x10000 with
  | 0x0 => s.engCtrl n v
  | 0x8 => s.setReg a (v &&& 0xC001FFFC#32)
  | 0xC => s.memDataWrite n v
  | _ => s.putGen m r a v

/-- A write of DISP_SWPOST[w] by a master: word 3 posts (R126). -/
def State.swWrite (s : State) (m : Master) (w : Nat) (v : Word) : State :=
  let k := masterNo m * 4
  let s := { s with disp := { s.disp with sw := storeSet (fun _ => 0) s.disp.sw (k + w) v } }
  if w < 3 then s else
  let g (i : Nat) : Word := storeGet (fun _ => 0) s.disp.sw (k + i)
  let p := s.swPost (itemOf 7 (g 0) (g 1) (g 2))
  { p.1 with disp := { p.1.disp with swres := storeSet (fun _ => 0) p.1.disp.swres (masterNo m) p.2 } }
/-- A write of a register of the Dispatcher. -/
def State.putDisp (s : State) (m : Master) (r : RegSpec) (a : Nat) (v : Word) : State :=
  if a = DISP_CLCFG then s.clcfgWrite v
  else if 0x41100900 ≤ a ∧ a < 0x41100910 then s.swWrite m ((a - 0x41100900) / 4) v
  else s.putGen m r a v

/-- A write of a register of Cardamom. -/
def State.putLoop (s : State) (m : Master) (r : RegSpec) (a : Nat) (v : Word) : State :=
  if a = LOOP_TSG_CTRL then s.tsgCtrl v
  else if a = LOOP_CAP_CTRL then s.capCtrl v
  else if a = LOOP_CAP_LEN then s.setRegN a (min 65536 (bits v 16 0))
  else if 0x41204000 ≤ a ∧ a < 0x41208000 then s.nvWrite ((a - 0x41204000) / 4) v
  else if 0x41210000 ≤ a ∧ a < 0x41220000 ∧ a % 0x100 = 0 then s.loopCtrl ((a - 0x41210000) / 0x100) v
  else if 0x41280000 ≤ a ∧ a < 0x412A0000 then s.loopStateWrite ((a - 0x41280000) / 0x200) ((a - 0x41280000) % 0x200 / 4) v
  else s.putGen m r a v

/-- A write of a register of a CAN controller. -/
def State.putCan (s : State) (m : Master) (r : RegSpec) (a : Nat) (v : Word) : State :=
  let n := (a - 0x41400000) / 0x10000
  let o := a % 0x10000
  if 0x4000 ≤ o ∧ o < 0x8000 then
    let k := (o - 0x4000) / 0x80
    match o % 0x80 with
    | 0x00 => s.canCfgWrite n a v (accMask r .rw)
    | 0x0C => s
    | 0x10 => s
    | 0x14 => s.putGen m r a v
    | 0x18 => s.moCmd n k v
    | _ => s.moWrite n k a v (accMask r .rw)
  else if o = 0 then s.canCtrl n v
  else if o = 0x08 ∨ o = 0x0C ∨ o = 0x28 then s.canCfgWrite n a v (accMask r .rw)
  else s.putGen m r a v

/-- PINCFG: four of its bits carry the RWL code (R273). -/
def State.pinCfg (s : State) (c : Nat) (v : Word) : State :=
  let lock := if s.rwlLocked then 0x6060#32 else 0
  let s := if s.rwlLocked then s.note else s
  let v := v &&& 0x3F037F7F#32
  s.setReg (NUT_PINCFG c) ((v &&& ~~~lock) ||| (s.reg (NUT_PINCFG c) &&& lock))
/-- A write of a register of a Nutmeg cell. -/
def State.putNut (s : State) (m : Master) (r : RegSpec) (a : Nat) (v : Word) : State :=
  let c := (a - 0x41500000) / 0x1000
  let s := s.nutSync c s.time.now
  let o := a % 0x1000
  if 0x80 ≤ o then s.progWrite c ((o - 0x80) / 4) v
  else match o with
    | 0x00 => s.nutCtrl c v
    | 0x0C => s.nutCfg c v
    | 0x14 => s.pinCfg c v
    | 0x10 => (s.cntSync c).putGen m r a v
    | 0x2C => s.cntPut c v.toNat
    | 0x30 => s.cmpWrite c false v
    | 0x34 => s.cmpWrite c true v
    | 0x40 => s.txqPut c v
    | 0x48 => s.injWrite c v
    | _ => s.putGen m r a v

/-- A write of a register of the fault collector. -/
def State.putFcu (s : State) (m : Master) (r : RegSpec) (a : Nat) (v : Word) : State :=
  let o := a - 0x40200000
  if o = 0 then s.fcuCtrl v
  else if o = 8 then s.fcuAck (bits v 4 0)
  else if 0x180 ≤ o ∧ o < 0x1C0 then s.wireWrite ((o - 0x180) / 4) v
  else if 0x1C0 ≤ o ∧ o < 0x200 then s.forceWrite ((o - 0x1C0) / 4) v
  else if 0x400 ≤ o ∧ o < 0xC00 then s.srcCfgWrite ((o - 0x400) / 4) v
  else s.putGen m r a v

/-- A write of a register of PWR. (log 22, DEDUCED) -/
def State.putPwr (s : State) (m : Master) (r : RegSpec) (a : Nat) (v : Word) : State :=
  if a = PWR_VOTE then s.setFld PWR_VOTE_WIN (min 50000 (max 100 (bits v 31 16)))
  else if a = PWR_WAKE then
    s.setReg a (w32 (bits v 6 0 ||| 0xF) ||| (s.reg a &&& 0x7F0000#32 &&& ~~~v))
  else if a = PWR_SPER then s.setRegN a (min 10000 (max 1 (bits v 13 0)))
  else if a = PWR_VINCFG then (s.setFld PWR_VINCFG_WARN (bits v 31 16)).setFld PWR_VINCFG_TRIP (min 11000 (max 8000 (bits v 15 0)))
  else s.putGen m r a v

/-- A write of a register of the host port. -/
def State.putHost (s : State) (m : Master) (r : RegSpec) (a : Nat) (v : Word) : State :=
  let o := a - 0x41800000
  if 0x400 ≤ o ∧ o < 0x440 then
    let q := (o - 0x400) / 0x20
    match o % 0x20 with
    | 0x00 => s.fqBase q v
    | 0x04 => s.fqCfg q v
    | 0x08 => if q = 0 then s.setFld (HOST_FQ_PROD_PROD 0) v.toNat else s
    | 0x0C => if q = 1 then s.setFld (HOST_FQ_CONS_CONS 1) v.toNat else s
    | _ => s.fqStat q v
  else if 0x158 ≤ o ∧ o < 0x160 then s
  else s.putGen m r a v

/-- CMD of channel `c`: the receiver's FLUSH and POP, the sender's SEND (R336); SG8 wakes for a SEND or a POP (R343). A place freed in the host's channel takes a notice that
waits (R349). -/
def State.chanCmd (s : State) (m : Master) (c : Nat) (v : Word) : State :=
  let rcv := masterId m == chanReceiver c
  let s := if (rcv && v.getLsbD 1) || (masterId m == chanSender c && v.getLsbD 0) then (s.sgServe 8).1 else s
  let s := if rcv && v.getLsbD 2 then s.chanFlush c else s
  let s := if rcv && v.getLsbD 1 then s.chanPop c else s
  let s := if c = 4 ∧ rcv then s.fwDrain else s
  if masterId m == chanSender c && v.getLsbD 0 then (if s.chanFull c then s.chanRefuse c else s.mbxPush c (s.staging c)) else s
/-- A write of a register of a mailbox page. (log 13, DEDUCED) -/
def State.putMbx (s : State) (m : Master) (r : RegSpec) (a : Nat) (v : Word) : State :=
  match pageChan a with
  | some c =>
    match a % 0x100 with
    | 0x40 => s.chanCmd m c v
    | 0xCC => if isCore m then s.putGen m r a v else s.note
    | _ => s.putGen m r a v
  | none =>
    if a = MBX_DBRING then s.ring (bits v 7 0) (bits v 12 8)
    else if dbSlot (masterId m) = some ((a - 0x40306100) / 4) then s.putGen m r a v
    else s.note

/-- A write of a register of the transaction block. -/
def State.putTxn (s : State) (m : Master) (r : RegSpec) (a : Nat) (v : Word) : State :=
  if 0x41900100 ≤ a ∧ (a - 0x41900100) % 0x20 = 0 then s.txnCtrl ((a - 0x41900100) / 0x20) v else s.putGen m r a v

/-- PIN_MDIO: GO runs one frame; while it runs, writes are ignored and reported (R396). -/
def State.mdioWrite (s : State) (v : Word) : State :=
  if s.flag PIN_MDIO_GO then s.note
  else
    let s := s.setReg PIN_MDIO (v &&& 0xDF1FFFFF#32)
    if v.getLsbD 31 then s.emit (.mdio (v &&& 0x5F1FFFFF#32)) else s
/-- A write of a register of the pins. -/
def State.putPin (s : State) (m : Master) (r : RegSpec) (a : Nat) (v : Word) : State :=
  if a = PIN_MDIO then s.mdioWrite v else s.putGen m r a v

/-- A write of the register at `a`, of the block it lies in. -/
def State.putReg (s : State) (m : Master) (r : RegSpec) (a : Nat) (v : Word) : State :=
  if a < 0x40100000 then s.putGen m r a v
  else if a < 0x40200000 then s.putPwr m r a v
  else if a < 0x40300000 then s.putFcu m r a v
  else if a < 0x40400000 then s.putMbx m r a v
  else if a < 0x40500000 then s.putTime m r a v
  else if a < 0x40580000 then s.putLau m r a v
  else if a < 0x40600000 then s.putItin m r a v
  else if a < 0x40800000 then s.putGen m r a v
  else if a < 0x40A00000 then s.putMac m r a v
  else if a < 0x40C00000 then s.putSwx m r a v
  else if a < 0x41000000 then s.putBuf m r a v
  else if a < 0x41100000 then s.putEng m r a v
  else if a < 0x41200000 then s.putDisp m r a v
  else if a < 0x41400000 then s.putLoop m r a v
  else if a < 0x41500000 then s.putCan m r a v
  else if a < 0x41600000 then s.putNut m r a v
  else if a < 0x41700000 then s.note
  else if a < 0x41800000 then s.putGen m r a v
  else if a < 0x41900000 then s.putHost m r a v
  else if a < 0x41A00000 then s.putTxn m r a v
  else s.putPin m r a v

/-- TRIG, PER or ARG of an armed slot, whose writes are ignored (R52). -/
def State.slotHolds (s : State) (a : Nat) : Bool :=
  decide (0x40590000 ≤ a ∧ a < 0x40594000) && decide (4 ≤ a % 0x20 ∧ a % 0x20 < 0x18) && s.flag (ITIN_SLOT_CTRL_ARM ((a - 0x40590000) / 0x20))
/-- A write of the aligned 32-bit word at an address of the register region (R11, R12, R23, R307). Cardamom has no bus view (R19). (log 12, DEDUCED; 20, DEDUCED; 155, DESIGN CHOICE) -/
def State.regWrite (s : State) (m : Master) (a : Nat) (v : Word) : State :=
  if m == .cardamom then s else
  match findReg a with
  | none => s.bareWrite a
  | some r =>
    if s.unreached a || barred m a || s.locked m a v then s.note
    else if s.slotHolds a then s.setFlag (ITIN_SLOT_STAT_WIGN ((a - 0x40590000) / 0x20)) true
    else if r.half = 1 then s.setLow m (a + 4) (some v)
    else if r.half = 2 then
      let s1 := match s.low m a, findReg (a - 4) with
        | some lo, some rl => s.putReg m rl (a - 4) lo
        | _, _ => s
      (s1.setLow m a none).putReg m r a v
    else s.putReg m r a v

end Sys2Proof.Machine
end

