-- ==== Sys2Proof/Machine/Bus.lean ====
section
/-! DEFINITION. The bus (R10, R19 to R23, R117, R243): accesses of any size to registers and memories by each master; the host's paths to them (R324
to R328). -/

namespace Sys2Proof.Machine

open Sys2Proof

/-! ### Memories -/

/-- A coefficient word as a writer through its SRAM address sees it: its logged value, or the inactive set's (R243). -/
def State.seenCoef (s : State) (m : Master) (a : Nat) : Word :=
  let sh := w32 (s.mem32 (coefMem a (1 - s.coefBank a)))
  match txnOf m with
  | some k => if s.flag (TXN_CH_STAT_OPEN k) then (((s.txnCh k).log.find? (fun e => e.1 == a)).map (·.2)).getD sh else sh
  | none => sh
/-- A write of bytes of one word of bank 44 or 45 (R243). -/
def State.coefWrite (s : State) (m : Master) (a : Nat) (l : List Byte) : State :=
  let off := (a - 0x20B00000) % 0x40000 / 4 * 4
  let r := 0x41300000 + off
  if (a - 0x20B00000) / 0x40000 = s.coefBank r then s.note
  else s.rwtWrite m r (w32 (ofLe (putBytes (leBytes 4 (s.seenCoef m r).toNat) (a % 4) l)))
/-- A master writes bytes of SRAM or MRAM (R21, R243, R296, R301). (log 23, DEDUCED; 136, DESIGN CHOICE) -/
def State.memWrite (s : State) (m : Master) (a : Nat) (l : List Byte) : State :=
  if inMram a ∧ !isCore m then s.note
  else if inSram a ∧ sramBank a = 35 then s.note
  else
    let r := if inSram a then s.sgServe (sramBank a / 4) else (s, true)
    if !r.2 then r.1.note
    else if inSram a ∧ 44 ≤ sramBank a ∧ sramBank a ≤ 45 then
      if 4 < l.length then (r.1.coefWrite m a (l.take 4)).coefWrite m (a + 4) (l.drop 4) else r.1.coefWrite m a l
    else
      let e := r.1.eccWrite a (l.length == 8) (busErr m)
      if !e.2 then e.1 else
      let s := e.1.setBytes a l
      let new := ((List.range l.length).map (a + ·)).filter (fun x => s.fwKept x)
      if new.isEmpty then s else { s with sys := { s.sys with own := s.sys.own ++ new } }

/-! ### What a master reaches (R19, R20, R117, R326) -/

/-- The permission bit of R117 an address falls under. -/
def permBit (a : Nat) : Option Nat :=
  if inHamper a then some 21
  else if 0x41B00000 ≤ a then none
  else if a < 0x40500000 then some ((a - 0x40000000) / 0x100000)
  else if a < 0x40580000 then some 5
  else if a < 0x40600000 then some 6
  else if a < 0x40800000 then some 7
  else if a < 0x40A00000 then some 8
  else if a < 0x40C00000 then some 9
  else if a < 0x41000000 then some 10
  else if a < 0x41100000 then some 11
  else if a < 0x41200000 then some 12
  else if a < 0x41400000 then some 13
  else if a < 0x41500000 then some 14
  else some (15 + (a - 0x41500000) / 0x100000)
/-- An address of the register region. -/
def inRegs (a : Nat) : Bool := decide (0x40000000 ≤ a ∧ a < 0x42000000)
/-- A thread's access through the bridge is denied by its engine's masks, or lies outside what the bridge reaches. -/
def State.bridgeDenied (s : State) (m : Master) (a : Nat) (wr : Bool) : Bool :=
  match m with
  | .thread e _ =>
    !(inRegs a || inHamper a) || (match permBit a with
      | none => false
      | some k => !(s.regN (if wr then ENG_PERMW e else ENG_PERMR e)).testBit k)
  | _ => false
/-- A denied access sets STAT.PERMDENY. (log 85, DEDUCED) -/
def State.permDeny (s : State) (m : Master) : State :=
  match m with
  | .thread e _ => (s.setFlag (ENG_STAT_PERMDENY e) true).note
  | _ => s.note
/-- A memory a master reaches at an address. -/
def memReach (m : Master) (a : Nat) : Bool :=
  match m with
  | .core _ => decide (a < 0x40000) || inSram a || inMram a || inHamper a
  | .jtag => decide (a < 0x40000) || inSram a || inMram a || inHamper a
  | .host => decide (a < 0x40000) || inSram a || inMram a
  | .thread _ _ => inHamper a
  | .cardamom => false
/-- Sizes a master uses towards a memory (R22, R117, R326). -/
def sizeOk (m : Master) (a n : Nat) : Bool :=
  (match m with
   | .core _ => n == 1 || n == 2 || n == 4 || n == 8
   | .jtag => n == 1 || n == 2 || n == 4 || n == 8
   | _ => n == 4) && a % n == 0

/-- A read of `n` bytes by a master: what it returns. -/
def State.accRead (s : State) (m : Master) (a n : Nat) : State × Nat :=
  if m == .cardamom || (m == .host && s.isHeld .host) then (s, 0)
  else if s.bridgeDenied m a false then (s.permDeny m, 0)
  else if inRegs a then
    if n = 4 ∧ a % 4 = 0 then (let r := s.regRead m a; (r.1, r.2.toNat))
    else if n = 8 ∧ a % 8 = 0 then
      let r := s.regRead m a
      let q := r.1.regRead m (a + 4)
      (q.1, r.2.toNat + 2 ^ 32 * q.2.toNat)
    else (s.note, 0)
  else if !memReach m a || !sizeOk m a n then (s.note, 0)
  else if inHamper a then
    if !s.domOn 11 then (s.note, 0) else
    let r := s.hampRead a n
    if r.2 then
      let t := match busErr m with | some e => r.1.raise e | none => r.1
      (t.drew, (t.freeW.toNat + 2 ^ 32 * t.freeW.toNat) % 2 ^ (8 * n))
    else (r.1, ofLe (s.bytes a n))
  else s.memRead m a n
/-- A write of `n` bytes by a master. -/
def State.accWrite (s : State) (m : Master) (a n v : Nat) : State :=
  if m == .cardamom || (m == .host && s.isHeld .host) then s
  else if s.bridgeDenied m a true then s.permDeny m
  else if inRegs a then
    if n = 4 ∧ a % 4 = 0 then s.regWrite m a (w32 v)
    else if n = 8 ∧ a % 8 = 0 then (s.regWrite m a (w32 v)).regWrite m (a + 4) (w32 (v / 2 ^ 32))
    else s.note
  else if !memReach m a || !sizeOk m a n || decide (a < 0x40000) then s.note
  else if inHamper a then (if s.domOn 11 then (s.setBytes a (leBytes n v)).freshWords a n else s.note)
  else s.memWrite m a (leBytes n v)

/-! ### The host's window (R326) -/

/-- A read has met data that is lost since `s`. -/
def State.lostSince (s t : State) : Bool :=
  (t.raises.drop s.raises.length).any (fun r => decide (256 ≤ r.1 ∧ r.1 < 304) || r.1 == 305 || decide (320 ≤ r.1 ∧ r.1 < 324))
/-- The window's address advances. -/
def State.rwStep (s : State) : State :=
  if s.flag HOST_RWADDR_AUTOINC then s.setFld HOST_RWADDR_ADDR (s.fld HOST_RWADDR_ADDR + 1) else s
/-- A write of the host that R21 or R23 refuses whatever it holds or for what it holds, beside the locks of firmware. -/
def State.hostShut (s : State) (a : Nat) (v : Word) : Bool :=
  let open_ := s.mode == modeBOOT || s.mode == modeCOMMISSION
  decide (0x41600000 ≤ a ∧ a < 0x41700000) ||
  (decide (0x40300000 ≤ a ∧ a < 0x40400000) && (match pageChan a with
    | some _ => a % 0x100 == 0xCC
    | none => a != MBX_DBRING && dbSlot (masterId .host) != some ((a - 0x40306100) / 4))) ||
  (!open_ && (decide (0x40200400 ≤ a ∧ a < 0x40200C00) || (a == FCU_CTRL && bits v 6 4 != s.fld FCU_CTRL_FNMIN)))
/-- R10, R12, R20, R21 or R23 refuses an access of the host's window at `a`, or its register is in a domain in retention (R326). The window
does not reach its own data register. -/
def State.rwRefused (s : State) (a : Nat) (w : Option Word) : Bool :=
  if a = HOST_RWDATA then true
  else if inRegs a then
    match findReg a with
    | none => !(decide (0x41800414 ≤ a ∧ a < 0x41800440) || (inDesc a && !s.unreached a))
    | some _ => s.unreached a || barred .host a || (match w with | none => false | some v => s.locked .host a v || s.hostShut a v)
  else !memReach .host a || (w.isSome && (decide (a < 0x40000) || inMram a))
/-- An access of RWDATA: a refused one sets RWDENY. (log 15, DEDUCED) -/
def State.rwAccess (s : State) (w : Option Word) : State :=
  if s.isHeld .host then s else
  let a := 4 * s.fld HOST_RWADDR_ADDR
  let r := if a = HOST_RWDATA then (s.note, 0) else match w with
    | some v => (s.accWrite .host a 4 v.toNat, 0)
    | none => s.accRead .host a 4
  let t := if s.rwRefused a w then r.1.setFlag HOST_ERR_RWDENY true else r.1
  ({ t with rdata := BitVec.ofNat 64 r.2 }).rwStep

/-! ### The bus as every command uses it -/

/-- A read of `n` bytes by a master (R10): `rdata` holds what it returned. (log 16, DEDUCED; 97, DESIGN CHOICE) -/
def State.busRead (s : State) (m : Master) (a n : Nat) : State :=
  if a = HOST_RWDATA ∧ n = 4 ∧ m == .host then s.rwAccess none
  else if a = HOST_RWDATA ∧ n = 8 ∧ m == .host then
    let lo := s.rwAccess none
    let hi := lo.accRead m (a + 4) 4
    { hi.1 with rdata := BitVec.ofNat 64 (lo.rdata.toNat + 2 ^ 32 * hi.2) }
  else
    let r := s.accRead m a n
    { r.1 with rdata := BitVec.ofNat 64 r.2 }
/-- A write of `n` bytes by a master. (log 16, DEDUCED) -/
def State.busWrite (s : State) (m : Master) (a n v : Nat) : State :=
  if a = HOST_RWDATA ∧ n = 4 ∧ m == .host then s.rwAccess (some (w32 v))
  else if a = HOST_RWDATA ∧ n = 8 ∧ m == .host then (s.rwAccess (some (w32 v))).accWrite m (a + 4) 4 (v / 2 ^ 32)
  else s.accWrite m a n v

/-! ### BAR0 and SPI space 0 (R324, R327) -/

/-- The register an offset of BAR0 reaches. -/
def bar0Reg (o : Nat) : Option Nat :=
  if o < 0x6200 then some (0x40300000 + o)
  else if (0x8000 ≤ o ∧ o < 0x8200) ∨ (0x8400 ≤ o ∧ o < 0x8440) then some (0x41800000 + (o - 0x8000))
  else none
/-- A read of a word at an offset of BAR0; one of a hole sets HOLE as a write does. (log 104, DEDUCED) -/
def State.bar0Read (s : State) (o : Nat) : State :=
  match bar0Reg o with
  | some a => s.busRead .host a 4
  | none =>
    if s.isHeld .host then { s with rdata := 0 }
    else if 0xE000 ≤ o ∧ o < 0xE200 then { s with rdata := (s.msixWord ((o - 0xE000) / 4)).setWidth 64 }
    else if o = 0xF000 then { s with rdata := BitVec.ofNat 64 s.host.pba }
    else if o = 0xF004 then { s with rdata := 0 }
    else { s.setFlag HOST_ERR_HOLE true with rdata := 0 }
/-- A write of a word at an offset of BAR0. -/
def State.bar0Write (s : State) (o : Nat) (v : Word) : State :=
  match bar0Reg o with
  | some a => s.busWrite .host a 4 v.toNat
  | none =>
    if s.isHeld .host then s
    else if 0xE000 ≤ o ∧ o < 0xE200 then s.setMsix ((o - 0xE000) / 4) v
    else if 0xF000 ≤ o ∧ o < 0xF008 then s
    else s.setFlag HOST_ERR_HOLE true
/-- The words of BAR0 a request of `n` bytes touches, in ascending order, and whether it enables all four bytes of each. -/
def bar0Words (a n : Nat) : List (Nat × Bool) :=
  ((List.range 3).map (fun i => a / 4 * 4 + 4 * i)).filterMap (fun o => if o < a + n then some (o, decide (a ≤ o ∧ o + 4 ≤ a + n)) else none)
/-- A request with a partial byte enable in some word, or with no byte enabled, is recorded and reported (R324). -/
def State.bar0Partial (s : State) (a n : Nat) : State :=
  if s.isHeld .host || (n != 0 && (bar0Words a n).all (·.2)) then s else (s.setFlag HOST_ERR_PARTIAL true).note
/-- A read request of BAR0: a run of 32-bit reads in ascending order; a partly enabled word reads 0 (R10, R324). -/
def State.bar0Reads (s : State) (a n : Nat) : State :=
  let r := (bar0Words a n).foldl (fun (x : State × Nat) (w : Nat × Bool) =>
    if w.2 then (let t := x.1.bar0Read w.1; (t, x.2 + t.rdata.toNat * 2 ^ (8 * (w.1 - a)))) else x) (s, 0)
  { r.1.bar0Partial a n with rdata := BitVec.ofNat 64 r.2 }
/-- A write request of BAR0: a run of 32-bit writes in ascending order; a partly enabled word is not written. -/
def State.bar0Writes (s : State) (a n v : Nat) : State :=
  ((bar0Words a n).foldl (fun (x : State) (w : Nat × Bool) => if w.2 then x.bar0Write w.1 (w32 (v / 2 ^ (8 * (w.1 - a)))) else x) s).bar0Partial a n

/-! ### BAR2 and SPI space 2 (R325) -/

/-- A Hamper offset lies in the software region. -/
def State.inSw (s : State) (o : Nat) : Bool := decide (o < 1024 * 256 * s.fld BUF_SWCELLS_UNITS)
/-- A write at a Hamper offset is served: the offset lies in the software region, or the boot exception holds. -/
def State.bar2Open (s : State) (o : Nat) : Bool :=
  s.inSw o ||
  (s.mode == modeBOOT && (List.range 12).all (fun p => !s.flag (MAC_CTRL_RXEN p)))
/-- A write of bytes at an offset of BAR2: each byte by where it falls. -/
def State.bar2Write (s : State) (o : Nat) (l : List Byte) : State :=
  if s.isHeld .host || !s.domOn 11 then s
  else
    let e := l.zipIdx
    let s1 := e.foldl (fun t x => if o + x.2 < 0x4000000 ∧ s.bar2Open (o + x.2) then t.setByte (0x80000000 + o + x.2) x.1 else t) s
    let s1 := if e.all (fun x => s.bar2Open (o + x.2)) then s1.freshWords (0x80000000 + o) l.length else s1
    if e.any (fun x => !s.bar2Open (o + x.2)) then (s1.setFlag HOST_ERR_B2WREF true).note else s1
/-- A read at a Hamper offset reaches Hamper. -/
def State.bar2Reach (s : State) (o : Nat) : Bool :=
  s.domOn 11 && decide (o < 0x4000000) && (s.inSw o || s.flag HOST_B2CTRL_FRAMERD)
/-- The bytes a read of BAR2 returns. -/
def State.bar2Bytes (s : State) (o n : Nat) : List Byte :=
  (List.range n).map (fun i => if s.bar2Reach (o + i) then s.byte (0x80000000 + o + i) else 0)
/-- A read of BAR2 space: its bytes, and whether it is poisoned, because it met an error that cannot be corrected (R305). -/
def State.bar2Get (s : State) (o n : Nat) : State × List Byte × Bool :=
  let r := ((List.range n).filter (fun i => s.bar2Reach (o + i))).foldl (fun (r : State × Bool) i =>
    if (o + i) % 8 = 0 ∨ i = 0 then (let q := r.1.hampRead (0x80000000 + o + i) 1; (q.1, r.2 || q.2)) else r) (s, false)
  (if r.2 then r.1.setFlag HOST_ERR_POISON true else r.1, s.bar2Bytes o n, r.2)
/-- The blocks of an SPI read (R327): status 0x81 and words of 0 where one of its words is an error, else 0x01. -/
def spiBlocks (l : List (Nat × Word × Bool)) : List (Byte × List Word) :=
  ((l.map (·.1)).eraseDups).map (fun b =>
    let ws := l.filter (fun e => e.1 == b)
    if ws.any (fun e => e.2.2) then (0x81, ws.map (fun _ => 0)) else (0x01, ws.map (fun e => e.2.1)))
/-- A read of BAR2, or of SPI space 2; `bad` says that Hamper finds an uncorrectable error in it as it comes about (R305). -/
def State.bar2Read (s : State) (o n : Nat) (bad : Bool) : State :=
  if s.isHeld .host then s else
  let r := s.bar2Get o n
  let t := if bad then r.1.setFlag HOST_ERR_POISON true else r.1
  let lost := bad || r.2.2
  t.emit (if s.spi then .spi (spiBlocks ((List.range (n / 4)).map (fun i => ((o + 4 * i) / 64, w32 (ofLe (slice r.2.1 (4 * i) 4)), lost))))
    else .bar2 lost r.2.1)

/-! ### Quad-SPI frames (R327, R328) -/

/-- One word of an SPI write. -/
def State.spiWord (s : State) (a : Nat) (v : Word) : State :=
  if a / 2 ^ 28 = 0 then (if a % 2 ^ 28 < 0x10000 then s.bar0Write (a % 2 ^ 28) v else s.setFlag HOST_ERR_HOLE true)
  else if a / 2 ^ 28 = 2 then s.bar2Write (a % 2 ^ 28) (leBytes 4 v.toNat)
  else s.setFlag HOST_ERR_HOLE true
/-- The words of an SPI write from address `a`. -/
def State.spiWords (s : State) (a : Nat) : List Word → State
  | [] => s
  | v :: t => (s.spiWord a v).spiWords (a + 4) t
/-- One word of an SPI read: the word, and whether it is an error (a hole, lost data, or a refused window access). (log 104, DEDUCED) -/
def State.spiGet (s : State) (a : Nat) : State × Word × Bool :=
  if a / 2 ^ 28 = 0 ∧ a % 2 ^ 28 < 0x10000 then
    let o := a % 2 ^ 28
    let t := s.bar0Read o
    let hole := (bar0Reg o).isNone && !decide (0xE000 ≤ o ∧ o < 0xE200) && !decide (0xF000 ≤ o ∧ o < 0xF008)
    (t, t.rdata.setWidth 32, hole || (o == 0x8018 && (s.rwRefused (4 * s.fld HOST_RWADDR_ADDR) none || s.lostSince t)))
  else if a / 2 ^ 28 = 2 then
    let r := s.bar2Get (a % 2 ^ 28) 4
    (r.1, w32 (ofLe r.2.1), r.2.2)
  else (s.setFlag HOST_ERR_HOLE true, 0, true)
/-- `n` words of an SPI read, with their errors. -/
def State.spiGets (s : State) (a : Nat) : Nat → State × List (Nat × Word × Bool)
  | 0 => (s, [])
  | n + 1 =>
    let r := s.spiGet a
    let q := r.1.spiGets (a + 4) n
    (q.1, (a / 64, r.2) :: q.2)
/-- An SPI read: every word of a block with an error reads 0. -/
def State.spiRead (s : State) (a n : Nat) : State :=
  if !s.spi ∨ s.isHeld .host then s else
  let r := s.spiGets a n
  r.1.emit (.spi (spiBlocks r.2))

end Sys2Proof.Machine
end

