-- ==== Sys2Proof/Machine/Modes.lean ====
section
/-! DEFINITION. Modes and power (R24 to R30, R307 to R320): domains, transitions with their block actions, the low-power vote, commit and
wake, resets, start-up, holdup. -/

namespace Sys2Proof.Machine

open Sys2Proof

/-! ### Raises taken in (R278) -/

/-- The collector takes in the raises that wait, oldest first. -/
def State.takeRaises : Nat → State → State
  | 0, s => s
  | n + 1, s =>
    match s.raises with
    | [] => s
    | r :: t => State.takeRaises n ({ s with raises := t }.fcuRaise r.1 r.2.1 r.2.2)

/-! ### Power domains (R24, R307) -/

/-- Every register and memory of the blocks in domain `d` returns to its reset value. (log 40, DEDUCED) -/
def State.domReset (s : State) (d : Nat) : State :=
  if 3 ≤ d ∧ d ≤ 6 then
    (List.range 4).foldl (fun s i =>
      let n := 4 * (d - 3) + i
      let s := s.engReset n
      let s := (s.sentTo (12 + n)).foldl (fun s y => s.engFree n y) s
      ((s.ringReturn (12 + n)).setEng n EngSt.reset).resetRange (0x41000000 + n * 0x10000) (0x41010000 + n * 0x10000)) s
  else if d = 8 then
    (List.range 12).foldl (fun s p => s.linkDown p) s
  else if d = 9 then
    { s with loop := LoopSt.reset, shadow := s.shadow.filter (fun e => (loopCtxOf e.1).isNone) }.resetRange 0x41200000 0x41400000
  else if d = 10 then
    ({ s with can := [], nut := [], shadow := s.shadow.filter (fun e => decide (e.1 < 0x41400000 ∨ 0x41440000 ≤ e.1)) }).resetRange
      0x41400000 0x41600000
  else s
/-- Domain `d` is switched off. -/
def State.domainOff (s : State) (d : Nat) : State := if s.domSt d = 0 then s else let s := (s.domReset d).setDom2 d 0; if d = 8 then s.phyClocks else s
/-- Domain `d` is on: its registers hold their reset values. -/
def State.domainUp (s : State) (d : Nat) : State :=
  let s := (s.domReset d).setDom2 d 1
  if 3 ≤ d ∧ d ≤ 6 then
    (List.range 4).foldl (fun s i => if s.domOn 11 then s.ringTake (12 + (4 * (d - 3) + i)) 32 else s) s
  else if d = 8 then s.phyClocks
  else s
/-- Firmware switches domain `d`: switching on takes 20 to 40 µs. -/
def State.domainSet (s : State) (d : Nat) (on : Bool) : State :=
  if on then (if s.domSt d = 0 then s.setDom2 d 3 else s) else s.domainOff d
/-- DOMAIN_SWITCH_COMPLETE. -/
def State.domainReady (s : State) (d : Nat) : State := if s.domSt d = 3 then s.domainUp d else s

/-! ### SYS_MODE and firmware's part of a transition (R25, R28) -/

/-- A register that firmware has written no longer reads what firmware set. (log 24, DEDUCED) -/
def State.fwDiffers (s : State) (a : Nat) (v : Word) : Bool :=
  match findReg a with
  | some r =>
    let m := accMask r .rw ||| accMask r .rwt ||| accMask r .rwl
    decide (s.cand a &&& m ≠ v &&& m)
  | none => false
/-- The tables of firmware's configuration stand where they belong, in the groups that are on. -/
def State.fwTables (s : State) : State :=
  s.fw.tabs.foldl (fun s e => if s.sgOff (sramBank e.1 / 4) || s.getBlock e.1 e.2.length == e.2 then s else s.setBlock e.1 e.2) s
/-- Firmware re-asserts its own settings (R23, R28). (log 24, DEDUCED) -/
def State.fwAssert (s : State) : State :=
  if !s.fw.running then s else
  let s := s.insts.foldl (fun s x => if clusterJoin (s.reg DISP_CLCFG) x.2.eng x.2.engs = s.reg DISP_CLCFG then s.instAssert x.2
    else (s.instCluster x.2).instAssert x.2) s
  let fcs := s.insts.flatMap (fun x => (fcLog x.2.fcs x.2.cfg).map (fun e => (e.1, some e.2)))
  (fcs ++ s.fw.cfg).foldl (fun s e =>
    match e.2 with
    | some v => if s.unreached e.1 || !s.fwDiffers e.1 v then s else s.busWrite (.core 0) e.1 4 v.toNat
    | none => s) s.fwTables
/-- CUR, PREV and CAUSE are updated and BUSY is cleared. -/
def State.setMode (s : State) (m cause : Nat) : State :=
  let was := s.mode
  let s := ((s.setFld SYS_MODE_PREV was).setFld SYS_MODE_CUR m).setFld SYS_MODE_CAUSE cause
  { s.setFlag SYS_MODE_BUSY false with trans := none }
/-- The MODE notice (R349). (log 39, DEDUCED) -/
def State.modeNotice (s : State) : State := s.fwNotice 0x01F0 (leBytes 4 (s.regN SYS_MODE))
/-- BUSY is set and TARGET written. -/
def State.setTrans (s : State) (n t c : Nat) : State :=
  { (s.setFlag SYS_MODE_BUSY true).setFld SYS_MODE_TARGET t with trans := some ⟨n, t, c, s.mode⟩ }

/-- Transition `n` of R26 is listed from mode `m`. -/
def listed (n m : Nat) : Bool :=
  let sets : List (Nat × List Nat) :=
    [(6, [4, 7]), (7, [3]), (8, [4]), (9, [6]), (10, [5]), (11, [6, 5]), (12, [4, 6, 5, 8]), (13, [4, 6, 5]), (14, [8]), (15, [7]),
     (16, [4, 7]), (17, [4, 7]), (18, [10, 9])]
  if n = 19 ∨ n = 21 then !(m == modeOFF || m == modeTEST || m == modeHOLDUP)
  else (sets.find? (fun e => e.1 == n)).any (fun e => e.2.contains m)
/-- The place of a transition's cause in the order of R29. -/
def transPrio (n : Nat) : Nat :=
  if n = 19 then 1 else if n = 21 then 2 else if n = 12 then 3 else if n = 13 then 4 else if n = 18 then 5 else 6

/-! ### Resets (R315) -/

/-- The latched straps and the cause of the last reset. -/
def State.setCause (s : State) (bitN : Nat) : State := s.setReg SYS_RSTCAUSE ((s.reg SYS_RSTCAUSE &&& 0xFFFFFFE0#32) ||| w32 (2 ^ bitN))
/-- The registers a warm reset leaves: those of the blocks in AO and SAF (R315). (log 38, DEDUCED) -/
def warmKeeps (a : Nat) : Bool := decide (a < 0x40500000) || decide (0x41600000 ≤ a)
/-- Transition 21: every domain but AO and SAF is reset; bit `c` of SYS_RSTCAUSE names the source. (log 38, DEDUCED) -/
def State.warmReset (s : State) (c : Nat) : State :=
  let w := s.pwr
  let s : State := { State.reset with
    pending := s.pending, regs := s.regs.filter (fun e => warmKeeps e.1), snaps := s.snaps.filter (fun e => decide (e.1 < 2 ^ 33)),
    lows := s.lows.filter (fun e => decide (e.1 < 2 ^ 33)), mem := s.mem, rdata := s.rdata, free := s.free, out := s.out, chans := s.chans, arrive := s.arrive,
    fcu := { s.fcu with resetting := [], held := [], deferred := [] }, raises := s.raises, time := s.time, ecc := s.ecc, saf := s.saf,
    modeq := s.modeq, host := s.host, sys := { s.sys with resetAt := none },
    pwr := { w with vote := none, owed := none, committed := false, phyUp := false, late := [], cells := [], safeop := false, offer := none,
                    pace := 4 },
    line := { LineSt.reset with mram := s.line.mram } }
  let s := ((s.setReg PWR_DOMSTAT 0x15#32).phyClocks).setTrans 21 modeBOOT 8
  let s := (List.range 96).foldl (fun s k => s.chanFlush k) s
  let s := (List.range 23).foldl (fun s k => s.setReg (MBX_DB k) 0) s
  let s := (List.range 21).foldl (fun s m => s.setTxn m TxnCh.idle) s
  let s := (List.range 12).foldl (fun s g => if s.sgOff g then s.sgPowerOn g else s.setSg g true false) s
  ((s.setCause c).setFlag FCU_CTRL_ARMED false).fcuShow.safWarm
/-- Everything a supply loss takes: the commands that wait, MRAM and the model's own records stay. -/
def State.powerLost (s : State) : State :=
  let hours := s.regs.filter (fun e => e.1 == SAF_BTEST 0 || e.1 == SAF_BTEST 1)
  let h (b : Nat) : Nat := bits (storeGet regReset hours (SAF_BTEST b)) 31 16
  let t : State := { State.reset with
    pending := s.pending, free := s.free, out := s.out, rdata := s.rdata,
    mem := s.mem.filter (fun e => inMram e.1), ecc := s.ecc.filter (fun e => inMram e.1),
    saf := { SafSt.reset with recA := s.saf.recA, recB := s.saf.recB, recBad := s.saf.recBad },
    pwr := { PwrSt.reset with wear := s.pwr.wear, used := s.pwr.used },
    line := { LineSt.reset with mram := s.line.mram },
    sys := { SysSt.reset with imgs := s.sys.imgs, cfg := s.sys.cfg, newFw := s.sys.newFw, fwImg := s.sys.fwImg, own := s.sys.own } }
  (t.setFld (SAF_BTEST_HOURS 0) (h 0)).setFld (SAF_BTEST_HOURS 1) (h 1)
/-- The device starts at power-on with the straps named; bit `c` of SYS_RSTCAUSE names the source (R25, R315, R316). -/
def State.powerOn (s : State) (c : Nat) (test spi hold : Bool) : State :=
  let s := s.powerLost
  let s := (((s.setFlag SYS_RSTCAUSE_TESTMODE test).setFlag SYS_RSTCAUSE_HOSTSEL spi).setFlag SYS_RSTCAUSE_BOOTHOLD hold).setCause c
  let s := (s.setFlag HOST_STAT_SPI spi).setFlag HOST_STAT_LINKUP spi
  if test then s.setTrans 2 modeTEST 0 else s.setTrans 1 modeBOOT 0
/-- PORESET_N low and its release. -/
def State.poreset (s : State) (test spi hold : Bool) (fuses : List (Fin 48 × Fin 4096)) : State := (s.powerOn 0 test spi hold).fuseLoad fuses
/-- The restart after a HOLDUP: the straps are not sampled again (R320). -/
def State.vinRestart (s : State) : State :=
  if s.mode ≠ modeOFF then s
  else
    let fuses := (List.range 48).filterMap (fun b => let v := s.fld (MEM_REPSTAT_SUB b); if h : b < 48 then some (⟨b, h⟩, Fin.ofNat 4096 v) else none)
    (s.powerOn 1 (s.flag SYS_RSTCAUSE_TESTMODE) (s.flag SYS_RSTCAUSE_HOSTSEL) (s.flag SYS_RSTCAUSE_BOOTHOLD)).fuseLoad
      (fuses.filter (fun e => e.2.val != 0))

/-! ### The low-power vote (R309 to R311) -/

/-- The power domain of a voter, for those that a switched-off domain lets vote yes. -/
def voterDom (v : Nat) : Nat :=
  if v = 0 then 2 else if v ≤ 4 then 2 + v else if v = 5 then 7 else if v = 6 then 8 else if v = 7 then 9 else if v = 8 then 10
  else if v = 9 then 11 else 0
/-- The vote opens: a block whose domain is off has nothing to quiesce. -/
def State.voteOpen (s : State) : State :=
  { s with pwr := { s.pwr with vote := some ((List.range 12).filter (fun v => !s.domOn (voterDom v))), committed := false } }
/-- The vote aborts: blocks resume, the mode is unchanged, the command is answered (R310, R311). -/
def State.voteAbort (s : State) (res blk rsn code : Nat) : State :=
  let votes := s.pwr.vote.getD []
  let owed := s.pwr.owed
  let s := { s with pwr := { s.pwr with vote := none, owed := none, committed := false }, trans := none }.setFlag SYS_MODE_BUSY false
  let s := s.setFld PWR_VOTE_LASTRES res
  let s := if res = 4 then s else (s.setFld PWR_VOTE_BLK blk).setFld PWR_VOTE_RSN rsn
  let s := if votes.contains 8 ∧ s.domOn 10 then s.nutResume else s
  (s.raise 10).fwPay owed code (if res = 4 then 0 else blk) (if res = 4 then 0 else rsn) (leBytes 4 (s.regN PWR_VOTE))
/-- An engine of domain `k` holds an item. -/
def State.engBusy (s : State) (k : Nat) : Bool :=
  (List.range 4).any (fun i => (List.range 4).any (fun t => (s.thr (4 * k + i) t).item.isSome))
/-- What a voter that quiesces now says: none while it must wait, 0 yes, else its reason. -/
def State.voteOf (s : State) (v : Nat) (hostBusy : Bool) : Option Nat :=
  if v = 0 then some (if s.lineMoves then 2 else 0)
  else if v ≤ 4 then
    if s.insts.any (fun x => x.2.st == 3 && (List.range x.2.engs).any (fun j => (x.2.eng + j) / 4 == v - 1)) then some 1
    else if s.engBusy (v - 1) then none else some 0
  else if v = 7 then some (if s.loop.capOn || s.loop.capWait || s.loop.tOn then 3 else 0)
  else if v = 8 then
    if (List.range 4).any (fun n => s.ttState n == 2) then some 4
    else if (List.range 4).any (fun n => s.canBusy n) then none else some 0
  else if v = 10 then some (if (List.range 12).any (fun g => s.sgBusy g) then 7 else 0)
  else if v = 11 then some (if hostBusy then 5 else 0)
  else some 0
/-- The quiesce of a voter that says yes (R219, R247). -/
def State.voteQuiesce (s : State) (v : Nat) : State := if v = 7 then s.loopPrepare else if v = 8 then s.nutStop else s
/-- A voter votes. The last yes ends the vote: POWER ENTER is answered before the commit. -/
def State.voteCast (s : State) (v : Nat) (hostBusy : Bool) : State :=
  match s.pwr.vote with
  | none => s
  | some l =>
    if s.pwr.committed ∨ l.contains v then s else
    match s.voteOf v hostBusy with
    | none => s
    | some 0 =>
      let s := s.voteQuiesce v
      let l := l ++ [v]
      if l.length < 12 then { s with pwr := { s.pwr with vote := some l } }
      else
        let owed := s.pwr.owed
        let s := { s.setFld PWR_VOTE_LASTRES 1 with pwr := { s.pwr with vote := none, owed := none } }
        let s := s.fwPay owed 0 0 0 (leBytes 4 (s.regN PWR_VOTE))
        { s with pwr := { s.pwr with vote := some l, committed := true } }
    | some r => s.voteAbort 2 v r 0x8050
/-- The vote window ends with a silent voter. -/
def State.voteExpiry (s : State) : State :=
  match s.pwr.vote with
  | none => s
  | some l =>
    if s.pwr.committed then s
    else match (List.range 12).find? (fun v => !l.contains v) with
      | some v => s.voteAbort 3 v 0 0x8051
      | none => s

/-! ### Starting a transition (R26 to R29) -/

/-- The block actions of transition `n` as it starts. -/
def State.modeAction (s : State) (n : Nat) : State :=
  if n = 8 then { s with pwr := { s.pwr with pace := s.pacing, safeop := true } }
  else if n = 9 ∨ n = 10 ∨ n = 11 then { s with pwr := { s.pwr with pace := s.pacing } }
  else if n = 12 then (if s.line.running then s.lineSpeed 0 else s)
  else if n = 13 then { s with degFrom := s.mode }
  else if n = 14 then s.unhold
  else if n = 16 ∨ n = 17 then s.voteOpen
  else s
/-- Transition `n` to mode `t` with CAUSE `c` starts; for transition 21, `t` is the bit of SYS_RSTCAUSE. -/
def State.modeStart (s : State) (n t c : Nat) : State :=
  if n = 21 then s.txnModeChange.warmReset t else ((s.setTrans n t c).txnModeChange).modeAction n
/-- A cause asks for a transition (R29). (log 30, DEDUCED) -/
def State.modeRequest (s : State) (n t c : Nat) : State :=
  let keep (s : State) : State := { s with pwr := { s.pwr with late := s.pwr.late ++ [(n, t, c)] } }
  match s.trans with
  | none => if listed n s.mode then s.modeStart n t c else s
  | some x =>
    if x.num = n then s
    else if (x.num = 16 ∨ x.num = 17) ∧ !s.pwr.committed then
      if transPrio n ≤ 5 then
        let s := s.voteAbort 4 0 0 0x8052
        if listed n s.mode then s.modeStart n t c else s
      else s
    else if x.num = 16 ∨ x.num = 17 then keep s
    else if transPrio n < transPrio x.num ∧ listed n s.mode then s.modeStart n t c
    else keep s
/-- Causes that waited for the end of a transition. (log 30, DEDUCED) -/
def State.modeLate (s : State) : State :=
  let l := s.pwr.late
  l.foldl (fun s e => s.modeRequest e.1 (if e.1 = 18 then s.lowFrom else e.2.1) e.2.2) { s with pwr := { s.pwr with late := [] } }

/-! ### Ending a transition (R28) -/

/-- What a transition does before firmware re-asserts its settings. -/
def State.modeBefore (s : State) (n : Nat) : State := if n = 6 ∨ n = 11 then s.acyclic else s
/-- What entering mode `m` from mode `from_` does to the units that follow the mode (R238, R257, R274, R375). (log 36, DEDUCED) -/
def State.modeEntered (s : State) (n m from_ : Nat) : State :=
  let s := if m = modeOPERATIONAL then s.safOperational else if from_ = modeOPERATIONAL then s.safLeaveOp else s
  let s := if m = modeSAFESTOP ∨ m = modeCOMMISSION then s.loopStop else s
  let s := if s.line.running ∧ s.lineStopped then s.lineSpeed 0 else s
  let s := if n = 6 then s.safCommission else s
  if n = 15 then
    match s.line.stored with
    | some v => if s.line.running then (s.lineSpeed v).setLine { s.line with stored := none } else s
    | none => s
  else s
/-- The transition in progress completes. -/
def State.modeDone (s : State) : State :=
  match s.trans with
  | none => s
  | some t =>
    let from_ := s.mode
    let s := (s.modeBefore t.num).fwAssert
    let s := (s.setMode t.target t.cause).modeEntered t.num t.target from_
    let s := s.modeNotice
    if t.num = 7 then s.modeStart 21 3 8 else s.modeLate

/-- The PLLs, domains and memories that the end of reset finds running (R24, R26). -/
def State.clocksUp (s : State) : State :=
  let s := ((s.setFlag SYS_CLKSTAT_PLL0LK true).setFlag SYS_CLKSTAT_PLL1LK true).setFlag SYS_CLKSTAT_PLL2LK true
  s.setFlag SYS_CLKSTAT_PLLSALK true
/-- Transitions 1, 2 and 21 end: BOOT, or TEST; with the first Saffron's self-test has started. (log 37, DEDUCED; 39, DEDUCED; 103, DEDUCED) -/
def State.resetDone (s : State) (t : Trans) : State :=
  let s := s.clocksUp
  let s := if t.num = 2 then ((List.range 12).foldl (fun s d => s.setDom2 d 1) s).phyClocks else (s.setDom2 7 1).setDom2 11 1
  let s := (List.range 12).foldl (fun s g => if s.sgOff g then s else s.setSg g true false) s
  let s := if t.num = 21 then s else s.setFld SYS_MODE_CUR modeOFF
  let s := if t.num = 1 then (s.setSaf { s.saf with base := 1 }).safShow else s
  let s := s.setMode t.target t.cause
  (if t.num = 21 then s.modeNotice else s).modeLate
/-- A loop sample is still to come that transition 10 for a loss of exchange waits for. (log 31, DESIGN CHOICE) -/
def State.sampleComes (s : State) : Bool := s.flag LOOP_CTRL_EN && !s.enabledCtx.isEmpty
/-- MODE_TRANSITION_COMPLETE: a transition that neither a cycle boundary, a vote nor a wake ends. (log 31, DESIGN CHOICE) -/
def State.modeComplete (s : State) : State :=
  match s.trans with
  | none => s
  | some t =>
    if t.num = 1 ∨ t.num = 2 ∨ t.num = 21 then s.resetDone t
    else if t.num = 8 ∨ t.num = 9 ∨ t.num = 11 ∨ 16 ≤ t.num then s
    else if t.num = 10 then (if t.cause = 0x0B ∧ !s.sampleComes then s.modeDone else s)
    else s.modeDone
/-- The last TIME_CLK cycle brought domain 0 to a whole multiple of `n` ns, or past one its increment skipped (R27, R31). -/
def State.gridAt (s : State) (n : Int) : Bool :=
  decide (s.domNs 0 % n * 2 ^ 32 + s.domFrac 0 < 2 ^ 32 + sgn 32 (s.regN (TIME_DOM_ADJ 0)))
/-- A boundary of the pacing instance's cycle, or of the 1 ms cycle of domain 0 (R27). -/
def State.cycleBoundary (s : State) (i : Nat) : State :=
  match s.trans with
  | none => s
  | some t =>
    if i = s.pwr.pace ∧ (i < 4 ∨ s.gridAt 1000000) ∧ (t.num = 8 ∨ t.num = 9 ∨ t.num = 11 ∨ (t.num = 10 ∧ t.cause ≠ 0x0B)) then s.modeDone else s
/-- The loop sample that ends transition 10 for a loss of exchange (R27). -/
def State.loopSample (s : State) : State :=
  match s.trans with
  | none => s
  | some t => if t.num = 10 ∧ t.cause = 0x0B then s.modeDone else s

/-! ### Commit, wake, samples (R310 to R314) -/

/-- Domains save to retention, clocks stop and supplies fall; each port behaves as at link down, with no link-down of its own to report
(R310). (log 164, DEDUCED) -/
def State.lowCommit (s : State) : State :=
  match s.trans with
  | none => s
  | some t =>
    if !s.pwr.committed then s else
    let s := { s with pwr := { s.pwr with vote := none } }.fwAssert
    let cells := ((List.range 32).filter (fun c => (s.regN PWR_SCELLS).testBit c)).map (fun c => (c, s.regN (NUT_CNT c)))
    let s := (List.range 12).foldl (fun s p => if s.flag (MAC_STAT_LINK p) then s.linkDrop p else s) s
    let s := (List.range 12).foldl (fun s g => s.sgRetain g) s
    let s := s.setFld PWR_SSTAT_SAMPLES 0
    let word := s.setMode t.target t.cause
    let s := s.fwNotice 0x01F0 (leBytes 4 (word.regN SYS_MODE))
    let s := { s with lowFrom := s.mode, pwr := { s.pwr with committed := false, cells := cells, phyUp := s.domOn 8 } }
    let s := (List.range 12).foldl (fun s d =>
      if d < 2 ∨ !s.domOn d then s
      else if d = 8 ∧ t.target = modeRETAIN then s.setDom2 d 0 else s.setDom2 d 2) s
    let s := ([SYS_CLKSTAT_PLL0LK, SYS_CLKSTAT_PLL1LK, SYS_CLKSTAT_PLL2LK].foldl (fun s f => s.setFlag f false) s).phyClocks
    (s.setMode t.target t.cause).modeLate
/-- The Itinerary at the wake (R58): passed one-shot slots fire late, passed periodic slots arm again, angle slots predict again. (log 26, DEDUCED; 27, DEDUCED) -/
def State.itinWake (s : State) : State :=
  let s := (List.range 2).foldl (fun s u =>
    if s.fld (LAU_CFG_SRC u) = 1 ∨ s.fld (LAU_CFG_SRC u) = 2 then s.lauReacq u else s) s
  s.itin.armed.foldl (fun s n =>
    if s.fld (ITIN_SLOT_CTRL_TRIG n) = 1 then
      (if s.itin.dueQ.any (fun e => e.2 == n) then s else s.slotPredict n (s.fld (ITIN_SLOT_STAT_STATE n) == 3))
    else if !s.slotReached n then s
    else if s.flag (ITIN_SLOT_CTRL_PER n) then (s.dueDrop n).slotRearm n
    else (s.setSlot n { s.slotSt n with late := true }).slotQueue n) s
/-- The wake ends: registers and memories are back, firmware has resumed. -/
def State.wakeDone (s : State) : State :=
  match s.trans with
  | none => s
  | some t =>
    if t.num ≠ 18 then s else
    let s := (List.range 12).foldl (fun s d => if s.domSt d = 2 then s.setDom2 d 1 else s) s
    let s := if s.pwr.phyUp then s.setDom2 8 1 else s
    let s := (List.range 12).foldl (fun s g => if s.sgOff g then s else s.setSg g true false) s
    let s := s.clocksUp
    let s := s.phyClocks
    let s := if s.domOn 10 then (List.range 4).foldl (fun s n => s.canRestart n) s.nutResume else s
    let s := s.fcuDeferred.fwAssert
    let s := (s.setMode t.target t.cause).itinWake
    let s := s.modeNotice
    (s.fwNotice 0x0BF0 [b8 (s.fld PWR_WAKE_SRC), b8 (s.fld PWR_SSTAT_MATCH)]).modeLate
/-- A STROLL sample: energy at P0 to P7, levels of the NP balls, junction temperature in 0.1 °C, VIN in mV. -/
def State.strollSample (s : State) (link balls : Nat) (temp : Int) (vin : Nat) : State :=
  if s.mode ≠ modeSTROLL ∨ s.trans.isSome then s else
  let s := ({ s with np := BitVec.ofNat 64 balls }.fldSat PWR_SSTAT_SAMPLES 1).setFld PWR_HOLDSTAT_VIN vin
  let m0 := decide (link &&& s.fld PWR_SCFG_LINK ≠ 0)
  let m1 := decide ((balls ^^^ s.pair PWR_SNPLVL_LO) &&& s.pair PWR_SNPMASK_LO ≠ 0)
  let m2 := decide (sgn 8 (s.fld PWR_SCFG_TEMPHI) * 10 < temp ∨ temp < sgn 8 (s.fld PWR_SCFG_TEMPLO) * 10)
  let m3 := s.flag PWR_SCFG_VINCHK && decide (vin < s.fld PWR_VINCFG_WARN)
  let thr := s.fld PWR_SCNTTHR_THR
  let m4 := decide (thr ≠ 0) && s.pwr.cells.any (fun c =>
    let k := s.fld (NUT_CFG_CMODE c.1)
    decide (3 ≤ k ∧ k ≤ 5) && decide (thr ≤ (sgn 32 (uns 32 ((s.regN (NUT_CNT c.1) : Int) - c.2))).natAbs))
  let v := bit m0 + 2 * bit m1 + 4 * bit m2 + 8 * bit m3 + 16 * bit m4
  if v = 0 then s else (s.setFld PWR_SSTAT_MATCH v).wake 3
/-- Domain-0 seconds reach PWR_WAKESEC (R312). -/
def State.wakeSec (s : State) : State :=
  if 0 ≤ sgn 32 (uns 32 ((s.regN (TIME_DOM_SEC_LO 0) : Int) - s.regN PWR_WAKESEC)) then s.wake 4 else s

/-! ### Holdup (R318, R320) -/

/-- The VIN supervisor trips: HOLD_EN rises and the device saves itself up to the closing word (R318, R394). (log 33, DEDUCED) -/
def State.vinTrip (s : State) (vh0 vh1 ns : Nat) : State :=
  if !listed 19 s.mode then s else
  let s := if s.pwr.committed then s.lowCommit else if s.pwr.vote.isSome then s.voteAbort 4 0 0 0x8052 else s
  let word := s.reg SYS_MODE
  let cyc := s.cyc0
  let save := s.mode != modeBOOT
  let s := s.setFld PWR_HOLDSTAT_VHOLD vh1
  let from_ := s.mode
  let s := (s.setTrans 19 modeHOLDUP 7).assertSrc 8
  let s := (List.range 12).foldl (fun s d => if s.domSt d = 2 then s.setDom2 d 1 else s) s
  let s := if s.asleep then (if s.sgOff 0 then s else s.setSg 0 true false).clocksUp else s
  let s := [3, 4, 5, 6, 8, 10].foldl (fun s d => s.domainOff d) (s.setDom2 11 0)
  let s := (s.react 0x0F 0).loopPrepare.takeRaises 64
  let s := if save then { s with pwr := { s.pwr with capture := true } }.flaskWrite word cyc vh0 vh1 ns else s
  let s := (s.domainOff 9).setDom2 7 0
  let s := (List.range 11).foldl (fun s g => s.sgPowerOff (g + 1)) s
  let s := { s.setMode modeHOLDUP 7 with modeq := [] }
  { s.setFld SYS_MODE_PREV from_ with pwr := { s.pwr with late := [], holdEn := true } }
/-- The closing word is written, or VHOLD has fallen below 6.0 V before; every domain goes off (transition 20) and
HOLD_EN falls. -/
def State.holdupEnd (s : State) (good : Bool) : State :=
  if s.mode ≠ modeHOLDUP then s else
  let s := if good then s.flaskEnd else s
  let straps := s.reg SYS_RSTCAUSE
  let reps := (List.range 48).map (fun b => (b, s.fld (MEM_REPSTAT_SUB b)))
  let s := s.powerLost
  let s := { (s.setReg PWR_DOMSTAT 0).setReg SYS_RSTCAUSE straps with trans := none }
  let s := reps.foldl (fun s e => s.setFld (MEM_REPSTAT_SUB e.1) e.2) s
  ((s.setFlag SYS_MODE_BUSY false).setFld SYS_MODE_CUR modeOFF).fcuShow

/-! ### Start-up (R317) -/

/-- The domains the stored settings switch on, as the word of POWER DOMAINS; none where nothing is stored. (log 37, DEDUCED) -/
def State.bootDomains (s : State) : Option Word := (s.fw.cfg.find? (fun e => e.1 == PWR_DOMSTAT)).bind (·.2)
/-- A domain an instance or a setting uses is powered. -/
def State.bootPower (s : State) (d : Nat) : State := if s.domOn d then s else s.domainUp d
/-- The domains of the stored settings are powered. (log 36, DEDUCED) -/
def State.bootDomainsOn (s : State) : State :=
  match s.bootDomains with
  | none => s
  | some w =>
    let s := (List.range 4).foldl (fun s k => if w.getLsbD k then s.bootPower (3 + k) else s) s
    let s := if w.getLsbD 4 then s.bootPower 8 else s
    let s := if w.getLsbD 5 then s.bootPower 10 else s
    (List.range 11).foldl (fun s g => if w.getLsbD (6 + g) then s else s.sgPowerOff (g + 1)) s
/-- A stored instance starts, the domains it uses powered first; a failure is reported to the host. -/
def State.bootInst (s : State) (e : Nat × Nat × InstCfg) : State :=
  let c := e.2.2
  let s := match (imgSpec c.image).bind (fun x => (s.engGroup x.engs).map (fun g => (g, x.engs))) with
    | some (g, n) => (List.range n).foldl (fun (t : State) k => t.bootPower (engDom (g + k))) s
    | none => s
  let s := if c.ports % 4096 = 0 then s else s.bootPower 8
  let s := if c.can.isSome ∨ c.cells ≠ 0 then s.bootPower 10 else s
  let r := s.instBegin c e.2.1
  match r.2 with
  | .inl _ => r.1
  | .inr x => r.1.fwNotice 0x04F0 ([b8 e.1, 0] ++ leBytes 2 x.1 ++ List.replicate 8 0)
/-- The line-master service starts from the image in MRAM where AUTOSTART is set (R375). -/
def State.bootLine (s : State) : State :=
  match s.line.mram with
  | none => s
  | some img =>
    let t := s.setLine { s.line with image := some img }
    if lineImageOk img && t.lineFlag 0 && lineMin (ofLe (slice img 2 2)) ≤ t.lineCycleNs && (List.range 8).all (fun k => !s.engUsed (8 + k))
    then (((s.bootPower 5).bootPower 6).lineTake img).lineRun
    else s
/-- The outcome of the start check: none for PREOP, else the CAUSE of transition 4 (R26, R275). -/
def State.bootCause (s : State) (fail : Option Nat) (bad : Bool) : Option Nat :=
  let latched : Option Nat := if s.saf.latched then some 5 else none
  match fail with
  | some _ => some 5
  | none =>
    match s.saf.recA, s.saf.recB with
    | some a, some b => if crcF a.1 = a.2 ∧ crcF b.1 = b.2 ∧ a.2 = b.2 ∧ !bad ∧ !s.saf.recBad then latched else some 9
    | _, _ => some 10
/-- The image in MRAM is known to be good: a BOOT or an UPDATE verified it as it wrote it, no core has written over the image area since,
and no word of it is lost. -/
def State.imageGood (s : State) : Bool :=
  s.sys.fwImg.isSome && !s.sys.own.any (fun x => decide (x < 0x30180000)) && !s.ecc.any (fun e => decide (0x30000000 ≤ e.1 ∧ e.1 < 0x30180000 ∧ 2 ≤ e.2))
/-- Step 3: the check of the configuration area. What firmware does where its CRC fails the manual does not say: an open bit names
whether it starts from what is stored or from nothing. (log 163, DESIGN CHOICE) -/
def State.bootConfig (s : State) (bad : Bool) : State :=
  if !bad then s
  else if s.freeW.toNat % 2 = 0 then s.drew
  else { s.drew with sys := { s.sys with cfg := ⟨[], [], 0, [], [], []⟩ } }
/-- Step 3: firmware runs with the working configuration that MRAM holds. -/
def State.bootFirmware (s : State) : State :=
  let cfg : List (Nat × Option Word) := s.sys.cfg.regs.foldl (fun l (e : Nat × Word) => storeSet (fun _ => none) l e.1 (some e.2)) []
  { s with fw := { FwSt.reset with running := true, cfg := cfg, tabs := s.sys.cfg.tabs }, sys := { s.sys with bootAt := s.time.now, newFw := false, kept := s.sys.cfg.units } }
/-- The stored entries of the forwarding database and the VLAN table, and the stored tables. -/
def State.bootEntries (s : State) : State :=
  let l := s.sys.cfg
  { s with swx := { s.swx with fdb := l.fdb.map (fun (e : Nat × List Byte × Nat) => (⟨e.1, e.2.1, e.2.2, true, s.regN (TIME_DOM_SEC_LO 0)⟩ : FdbEnt)), vlan := l.vlan } }.fwTables
/-- Step 4: the configured domains are powered, and the stored settings are written. -/
def State.bootSettings (s : State) : State :=
  let t := ((s.bootPower 9).setDom2 11 1).bootDomainsOn.bootEntries
  t.sys.cfg.regs.foldl (fun (s : State) (e : Nat × Word) => s.busWrite (.core 0) e.1 4 e.2.toNat) t
/-- The software units that BOOT sets (R170). -/
def State.bootUnits (s : State) : Nat :=
  min 192 (s.sys.cfg.insts.foldl (fun (n : Nat) (e : Nat × Nat × InstCfg) => n + ((imgSpec e.2.2.image).map (fun x => x.units)).getD 0) s.sys.cfg.units)
/-- Step 5: Hamper's test; the pool without the retired cells of the frame pool (R306). -/
def State.bootHamper (s : State) (repaired : Nat) (retired : List Nat) : State :=
  let n := s.bootUnits
  let t := { s with pwr := { s.pwr with retired := retired } }
  ((t.hampTest repaired retired).setFld BUF_SWCELLS_UNITS n).poolInit
/-- Steps 6 and 7: the stored instances and the line-master service start. -/
def State.bootInsts (s : State) : State := (s.sys.cfg.insts.foldl (fun (t : State) (e : Nat × Nat × InstCfg) => t.bootInst e) s).bootLine
/-- Step 11: ARMED is set, transition 3 or 4 ends in PREOP or SAFESTOP, the host hears of it (R28). -/
def State.bootEnd (s : State) (fail : Option Nat) (bad : Bool) : State :=
  let s := (s.setFlag FCU_CTRL_ARMED true).fcuShow
  let s := match s.bootCause fail bad with
    | some c => ((s.setTrans 4 modeSAFESTOP c).fwAssert.setMode modeSAFESTOP c).modeEntered 4 modeSAFESTOP modeBOOT
    | none => (s.setTrans 3 modePREOP 2).fwAssert.setMode modePREOP 2
  { s.modeNotice with modeq := [], pwr := { s.pwr with late := [] } }
/-- Steps 3 to 11 of start-up: firmware runs from a valid image. (log 34, DESIGN CHOICE) -/
def State.startFrom (s : State) (r : BootRes) : State :=
  let s := ((s.safRestartDue.setTrans 3 modePREOP 2).txnModeChange.bootConfig r.cfgBad).bootFirmware.bootSettings
  let s := (s.bootHamper r.repaired r.retired).bootInsts.takeRaises 1024
  (((s.safStartCheck r.selfTest r.badRec).takeRaises 256).flaskLocate).bootEnd r.selfTest r.badRec
/-- The ROM finds no valid image, or is told to wait for one: transition 5. -/
def State.noImage (s : State) : State :=
  (((s.setTrans 5 modeBOOT 0x0C).txnModeChange.fwAssert.setMode modeBOOT 0x0C).modeNotice).modeLate
/-- START_UP: from the first ROM instruction. (log 34, DESIGN CHOICE) -/
def State.startUp (s : State) (r : BootRes) : State :=
  if s.mode ≠ modeBOOT ∨ s.trans.isSome ∨ s.fw.running then s
  else if !(r.image || s.imageGood) || s.flag SYS_RSTCAUSE_BOOTHOLD then s.noImage
  else s.startFrom r

/-! ### Causes from outside (R315) -/

/-- A host port reset: warm where HOSTRST is set. -/
def State.hostPortReset (s : State) : State :=
  if s.flag PWR_RSTCFG_HOSTRST then { s with modeq := s.modeq ++ [(21, 4, 8)] } else s.hostReset
/-- The watchdog expires. -/
def State.wdogExpiry (s : State) : State := { s.raise 13 with modeq := s.modeq ++ [(21, 2, 8)] }

end Sys2Proof.Machine
end

