-- ==== Sys2Proof/Machine/Settle.lean ====
section
/-! DEFINITION. How a command ends: the fault collector takes the raises it made, the mode machine the transitions it asked for,
firmware sends what waits (R28, R29, R278, R349). -/

namespace Sys2Proof.Machine

open Sys2Proof

/-- Raises first, oldest first, then the requests of transitions, until none is left. (log 4, DESIGN CHOICE) -/
def State.settleN : Nat → State → State
  | 0, s => s
  | n + 1, s =>
    match s.raises with
    | r :: t => State.settleN n ({ s with raises := t }.fcuRaise r.1 r.2.1 r.2.2)
    | [] =>
      match s.modeq with
      | m :: t => State.settleN n ({ s with modeq := t }.modeRequest m.1 m.2.1 m.2.2)
      | [] => s
/-- A reset that a command has asked for acts 1 ms after its response (R361). (log 54, DEDUCED) -/
def State.resetDue (s : State) : State :=
  match s.sys.resetAt with
  | some t => if t ≤ s.time.now then { s with modeq := s.modeq ++ [(21, 3, 8)], sys := { s.sys with resetAt := none } } else s
  | none => s
/-- Everything a command has set off inside the block comes about. (log 4, DESIGN CHOICE) -/
def State.settle (s : State) : State := (State.settleN 4096 s.resetDue).fwDrain
/-- The outcome of a command whose own effect gives `s`. -/
def done (s : State) : Host.Outcome State Fault Refusal := ok s.settle

end Sys2Proof.Machine
end

