-- ==== Sys2Proof/Machine/ItinIssue.lean ====
section
/-! DEFINITION. The issue of Itinerary actions (R51, R53 to R55, R57) and the post queue (R54). -/

namespace Sys2Proof.Machine

open Sys2Proof

/-- The post queue takes a value; POSTQ follows. -/
def State.setPostQ (s : State) (q : List (Nat × Item)) : State := { s with itin := { s.itin with postQ := q } }.setFld ITIN_STAT_POSTQ q.length
/-- The item of slot `n`'s post (R126). -/
def State.slotItem (s : State) (n : Nat) : Item :=
  let a := s.regN (ITIN_SLOT_ARG n)
  { s.srcItem (a / 2 ^ 24 % 16) 1 (a % 2 ^ 24) n false with level := a / 2 ^ 29 }
/-- The oldest queued post whose level has room enters it, and leaves the rest of the queue. -/
def postNext (room : Item → Bool) : List (Nat × Item) → Option (Item × List (Nat × Item))
  | [] => none
  | (n, x) :: t => if room x then some (x, t) else (postNext room t).map (fun r => (r.1, (n, x) :: r.2))
/-- The delay of an issue, due since cycle `t`, is the largest yet (R53). -/
def State.lagShow (s : State) (t : Nat) : State :=
  s.setFld ITIN_STAT_MAXLAG (max (s.fld ITIN_STAT_MAXLAG) (min 255 (s.time.now - t)))
/-- The slot that has waited longest in ISSUING takes a free place of the post queue: its action is issued, and it re-arms (R54). -/
def State.postAdmit (s : State) : Option State :=
  if 16 ≤ s.itin.postQ.length then none
  else (s.itin.dueQ.find? (fun e => s.fld (ITIN_SLOT_STAT_STATE e.2) == 6)).map (fun e =>
    ((((s.lagShow e.1).setPostQ (s.itin.postQ ++ [(e.2, s.slotItem e.2)])).dueDrop e.2).slotRearm e.2))
/-- Every queued post whose level has room enters it, the oldest first, and blocked slots take the places that get free (R54). -/
def State.postDrain : Nat → State → State
  | 0, s => s
  | k + 1, s =>
    match postNext s.itemRoom s.itin.postQ with
    | some r => ((s.enqueue r.1).setPostQ r.2).postDrain k
    | none => match s.postAdmit with
      | some t => t.postDrain k
      | none => s
/-- Slot `n` posts, behind the queued posts that have room and the blocked slots: false where its level and the post queue are full. -/
def State.slotPost (s : State) (n : Nat) : State × Bool :=
  let s := s.postDrain 1024
  let x := s.slotItem n
  if s.srcToken x.cluster 1 then (s.srcTok x.cluster 1, true)
  else if s.itemRoom x then (s.enqueue x, true)
  else if s.itin.postQ.length < 16 then ((s.heldCount 1).setPostQ (s.itin.postQ ++ [(n, x)]), true)
  else (if s.fld (ITIN_SLOT_STAT_STATE n) = 6 then s else s.heldCount 1, false)
/-- The Nutmeg cells of a mask start, by an action due at time `t` (R212). -/
def State.startCells (s : State) (mask t : Nat) : State :=
  (List.range 32).foldl (fun s c =>
    if mask.testBit c ∧ s.domOn 10 then s.setNut c { s.nutSt c with starts := (s.nutSt c).starts ++ [t] } else s) s
/-- The action of slot `n`, due since time `t`: false where it is blocked (R51). -/
def State.slotAct (s : State) (t n : Nat) : State × Bool :=
  let a := s.regN (ITIN_SLOT_ARG n)
  match s.fld (ITIN_SLOT_CTRL_ACT n) with
  | 0 =>
    if (s.slotSt n).handed then (s, true)
    else ((s.edgeHand (a % 16) (a / 16 % 4) ((s.now8 + 128) % 2 ^ 35)).setFlag (ITIN_SLOT_STAT_LATE n) true, true)
  | 1 => (s.heldRelease (a % 256), true)
  | 2 => s.slotPost n
  | 3 => (s.groupTrigger (a % 64), true)
  | 4 => (s.captureSet (a % 16) n, true)
  | 5 => (s.ring (a % 256) (a / 256 % 32), true)
  | 6 => (s.startCells a t, true)
  | _ => ((List.range 12).foldl (fun s p => if a.testBit p then s.gateStart p else s) s, true)
/-- Slot `n`, due since cycle `t`, issues. -/
def State.slotIssue (s : State) (t n : Nat) : State :=
  let s := if (s.slotSt n).late then s.setFlag (ITIN_SLOT_STAT_LATE n) true else s
  let r := s.slotAct t n
  if r.2 then ((r.1.lagShow t).dueDrop n).slotRearm n else r.1.setFld (ITIN_SLOT_STAT_STATE n) 6
/-- One TIME_CLK cycle issues at most four slots; a blocked slot delays no other (R53, R54). -/
def State.itinIssue (s : State) : State :=
  if s.asleep ∨ s.isHeld .itin then s else
  let ready := (s.itin.dueQ.filter (fun e => s.fld (ITIN_SLOT_STAT_STATE e.2) != 6)).take 4
  ready.foldl (fun s e => s.slotIssue e.1 e.2) s
/-- The oldest queued post whose level has room enters it; the blocked slot that waits longest takes a free place (R54). -/
def State.itinDrain (s : State) : State :=
  if s.asleep ∨ s.isHeld .itin then s else
  let t := match postNext s.itemRoom s.itin.postQ with
    | some r => (s.enqueue r.1).setPostQ r.2
    | none => s
  t.postAdmit.getD t

end Sys2Proof.Machine
end

