-- ==== Sys2Proof/Machine/Operands.lean ====
section
/-! DEFINITION. The operand forms the commands share: a write of one field of a register by a master, an event inside a power domain or a
block, an access of the host through BAR0. -/

namespace Sys2Proof.Machine

open Sys2Proof

/-- The word a master writes to set one field of a register to `n`: its other writable fields keep their values, and no other bit that
acts on a 1 is set. -/
def State.fieldWord (s : State) (f : Fld) (n : Nat) : Word :=
  let keep := match findReg f.addr with
    | some r => accMask r .rw ||| accMask r .rwl ||| accMask r .rwt
    | none => 0
  setBits (s.reg f.addr &&& keep) f.hi f.lo n
/-- A master writes one field of a register. -/
def State.fieldWrite (s : State) (m : Master) (f : Fld) (n : Nat) : State := s.busWrite m f.addr 4 (s.fieldWord f n).toNat
/-- A master writes a register. -/
def State.wordWrite (s : State) (m : Master) (a : Nat) (v : Word) : State := s.busWrite m a 4 v.toNat
/-- An event inside power domain `d`: nothing happens while the domain is not on. -/
def State.inDom (s : State) (d : Nat) (f : State → State) : State := if s.domOn d then f s else s
/-- An event inside a block: nothing happens while its domain is not on, or the block is held in reset (R287, R403). -/
def State.inBlk (s : State) (d : Nat) (b : Blk) (f : State → State) : State :=
  if s.domOn d && !decide (b ∈ s.fcu.resetting ++ s.fcu.held) then f s else s
/-- A write as a command gives it: an address of the host below 64 KiB is an offset of BAR0 (R324). -/
def State.anyWrite (s : State) (m : Master) (a n v : Nat) : State :=
  if m = .host ∧ a < 0x10000 then s.bar0Writes a n v
  else s.busWrite m a n v
/-- A read as a command gives it. -/
def State.anyRead (s : State) (m : Master) (a n : Nat) : State :=
  if m = .host ∧ a < 0x10000 then s.bar0Reads a n
  else s.busRead m a n

end Sys2Proof.Machine
end

