-- ==== Sys2Proof/Machine/LinkOps.lean ====
section
/-! DEFINITION. Events of the LAUs, the ports and the switch that stand between their operations and the commands. -/

namespace Sys2Proof.Machine

open Sys2Proof

/-- LAU `u` stands at its apply boundary: its shadow is checked and becomes active, or is kept (R49, R359). -/
def State.lauBoundary (s : State) (u : Nat) : State :=
  if s.lauAtBoundary u then s.unitBoundary (.lau u) (lauCheck s (fun a => s.candFor [.lau u] [] a) u) (fun s => s.lauApply u) else s
/-- A MAC control frame that is received whole, 64 bytes long: it counts as a good frame does (R82), and acts. -/
def State.ctlFrame (s : State) (p : Nat) (f : State → State) : State := f (s.ctlCount p 0)
/-- What a MAC control frame does at port `p`, which takes one only while its receiver is on and its link up. -/
def State.linkHeld (s : State) (p : Nat) (f : State → State) : State :=
  if s.flag (MAC_CTRL_RXEN p) && s.flag (MAC_STAT_LINK p) then f s else s
/-- Half of TXQUANTA has passed since a generated PAUSE or PFC of port `p`: it is sent again (R76). -/
def State.macRepeat (s : State) (p : Nat) : State :=
  if s.flag (MAC_FCCFG_GEN p) && s.flag (MAC_FCSTAT_XOFFSENT p) && decide (s.fld (MAC_FCTHR_XON p) < s.fld (MAC_FCTHR_XOFF p)) &&
      decide (s.fld (MAC_FCTHR_XON p) ≤ s.macUsed p) then
    s.macSendFc p (s.fld (MAC_FCCFG_PFCGEN p)) (s.fld (MAC_FCCFG_TXQUANTA p))
  else s
/-- Output `p` selects: an external port, an engine's port, or one of 28 to 31. -/
def State.anySelect (s : State) (p : Nat) : State :=
  if p < 12 then s.outSelect p else if p < 28 then s.engineSend (p - 12) else s.internalSelect p
/-- The link of port `p` is lost; firmware reports the paths over it to Saffron (R81, R369). -/
def State.linkLost (s : State) (p : Nat) : State :=
  if s.flag (MAC_STAT_LINK p) then (s.linkDown p).fwPath p false else s
/-- Link setup of port `p` ends; a path over it returns. -/
def State.linkCame (s : State) (p : Nat) (lp : Word) (v : Nat) (ms : Bool) : State :=
  let t := s.linkSetup p lp v ms
  if t.flag (MAC_STAT_LINK p) && !s.flag (MAC_STAT_LINK p) then t.fwPath p true else t
/-- RESETMS have passed without an accepted frame of context `f` (R109). -/
def State.cbReset (s : State) (f : Nat) : State :=
  let x := s.fcSt f
  let cb := s.fld (SWX_FC_CFG_CB f)
  if s.flag (SWX_FC_CFG_VALID f) && (cb == 1 || cb == 2) && x.hist.isSome then
    (s.setFcSt f { x with hist := none }).setFlag (SWX_FC_STAT_CBRESET f) true
  else s
/-- Learned entries of the forwarding database that are AGE seconds old are removed (R92). (log 45, DEDUCED) -/
def State.fdbAge (s : State) : State :=
  let age := s.fld SWX_FDBCFG_AGE
  let now := s.regN (TIME_DOM_SEC_LO 0)
  if age = 0 then s
  else { s with swx := { s.swx with fdb := s.swx.fdb.filter (fun e => e.isStatic || decide ((now + 2 ^ 32 - e.stamp) % 2 ^ 32 < age)) } }

end Sys2Proof.Machine
end

