-- ==== Sys2Proof/Machine/EvtOps.lean ====
section
/-! DEFINITION. Events of the supplies, the memories, the cells and the host port that stand between their operations and the commands. -/

namespace Sys2Proof.Machine

open Sys2Proof

/-- A rail is back in its operating range, which for VDD_SAF lies inside both windows of R250 (R380). (log 41, DEDUCED) -/
def State.supplyBack (s : State) (r : Nat) : State :=
  let t := s.rail r true
  if r = 7 then t.safSupplyBack else t
/-- One scrub read of each powered bank; the scrubber rests once it has voted and while the device is asleep (R297, R309). (log 43, DEDUCED) -/
def State.scrubTick (s : State) (found : List (Fin 48 × Bool)) : State :=
  if s.asleep || s.pwr.vote.any (fun l => l.contains 10) then s else s.scrubRead found
/-- The instruction word is a legal one of op `k` (R207). -/
def isLegal (k w : Nat) : Bool := isOp k w && !isIllegal w
/-- Cell `c` issues the instruction at its PC where `is` says it is the one meant. -/
def State.nutRun (s : State) (c : Nat) (is : Nat → Bool) (op : State → Nat → Nat → State) : State :=
  s.inBlk 10 .nut (fun s => s.nutIssue c is op)
/-- Filtered edges at the pins of cell `c`: a live cell counts in STROLL too (R205, R314). -/
def State.cellEdge (s : State) (c pins : Nat) : State :=
  if s.mode = modeSTROLL ∧ s.pwr.cells.any (fun e => e.1 == c) ∧ !s.isHeld .nut then s.countEdge c pins
  else s.inBlk 10 .nut (fun s => s.countEdge c pins)
/-- The management frame ends: a read stores what the PHY gave, and GO clears (R396). -/
def State.mdioEnd (s : State) (d : Nat) : State :=
  if !s.flag PIN_MDIO_GO then s
  else
    let s := s.setFlag PIN_MDIO_GO false
    if s.flag PIN_MDIO_OP then s else s.setFld PIN_MDIO_DATA d
/-- The PCIe link goes down, or SPI framing is lost (R344). (log 42, DEDUCED) -/
def State.hostLoss (s : State) : State :=
  let s := if s.spi then s else ((s.setFlag HOST_STAT_LINKUP false).setFld HOST_STAT_WIDTH 0).setFld HOST_STAT_SPEED 0
  if s.spi then s.raise 352 else s.assertSrc 352
/-- An SPI write of words from address `a` (R327). -/
def State.spiWrite (s : State) (a : Nat) (l : List Word) : State := if !s.spi ∨ s.isHeld .host then s else s.spiWords a l
/-- An SPI status frame: HOST_ERR is returned and not cleared. -/
def State.spiStatus (s : State) : State := if s.spi then s.emit (.spiStat (s.reg HOST_ERR)) else s
/-- An SPI reset frame. -/
def State.spiReset (s : State) : State := if s.spi then s.hostPortReset else s
/-- A frame that ends short, after the whole words of a write (1) or a read (2) have been transferred, or whose command byte is unknown
(0) (R328). -/
def State.spiBad (s : State) (k a n : Nat) (l : List Word) : State :=
  if !s.spi then s
  else if k = 0 then (s.setFlag HOST_ERR_SPICMD true).raise 352
  else ((if k = 1 then s.spiWrite a l else s.spiRead a n).setFlag HOST_ERR_SPIFRAME true).raise 352
/-- The pair of source `src` changes: to fault, with what its detector gives as INFO, or back (R278); a reserved source has no detector (R280), nor have
those of banks 0 to 3 (R295), and in OFF none is powered (R294).
An uncorrectable PCIe error is also held in HOST_ERR. An error of SRAM or MRAM stands in the word that INFO names, one of Hamper's
software region in some word of the cell it names (R296, R302, R305). (log 98, DEDUCED; 160, DEDUCED) -/
def State.srcChange (s : State) (src info : Nat) (fault : Bool) : State :=
  if s.mode = modeOFF ∨ !srcListed src ∨ (256 ≤ src ∧ src < 260) then s
  else if !fault then s.clearSrc src
  else if s.condNow src then s
  else
    let s := if src = 353 ∧ !s.spi then s.setFlag HOST_ERR_AERUNC true else s
    match faultWord src info with
    | some (a, k) => if inMram a || s.sgOn (sramBank a / 4) then ((s.setEcc a k).eccRead a none).1 else s
    | none =>
    let c := info % 2 ^ 18
    let s := if src = 81 then s.cellError c else s
    let s := if (src = 80 ∨ src = 81) ∧ s.inSw (256 * c) then (s.setEcc (0x80000000 + 256 * c + 8 * (s.freeW.toNat % 32)) (src - 79)).drew else s
    { s with fcu := { s.fcu with cond := storeSet (fun _ => false) s.fcu.cond src true } }.raiseI src info
/-- The blocks whose reset has a duration, by number: 0 to 15 engines, 16 to 27 ports, 28 to 31 CAN, 32 Nutmeg, 33 Cardamom (R287). -/
def blkNo (k : Nat) : Blk :=
  if k < 16 then .eng k else if k < 28 then .mac (k - 16) else if k < 32 then .can (k - 28) else if k = 32 then .nut else .loop
/-- Every response refused at a full return channel is offered again, oldest first (R347). -/
def State.respRetry (s : State) : State :=
  if s.asleep || !s.fw.running then s
  else s.fw.retry.foldl (fun (s : State) (e : Nat × List Byte) => s.fwOffer e.1 e.2) { s with fw := { s.fw with retry := [] } }

/-- One cycle of the time spine: TIME_CLK, or REFCLK in RETAIN and STROLL until PLL1 has relocked (R17, R31, R37, R43). (log 3, DESIGN CHOICE; 94, DESIGN CHOICE) -/
def State.tick (s : State) : State :=
  if s.mode = modeOFF then s else
  let k := if s.timeSlow then 40 else 1
  let s := s.nutMarks
  let s := (List.range 4).foldl (fun s d => s.domTick k d) s
  let s := { s with time := { s.time with now := s.time.now + k, ppsAge := s.time.ppsAge + k } }
  if s.asleep then s else (List.range 2).foldl (fun s u => s.lauTick u) s

end Sys2Proof.Machine
end

