-- ==== Sys2Proof/Machine/CmdBus.lean ====
section
/-! DEFINITION. The meanings of the register accesses, and the resets and mode events. -/

namespace Sys2Proof.Machine

open Sys2Proof

/-- REGISTER_WRITE (R13): A write to a register or table word that has no row of its own takes effect per its field access codes, R10, R12, R14 and R23. -/
def execRegisterWrite (m : Master) (a : Word) (n : Fin 9) (v : BitVec 64) (s : State) : Host.Outcome State Fault Refusal :=
  done (s.anyWrite m a.toNat n v.toNat)
/-- READ_CLEAR (R13): A read of an RC register or field returns the value and clears it, keeping an event that arrives in the clearing cycle. -/
def execReadClear (m : Master) (a : Word) (n : Fin 9) (s : State) : Host.Outcome State Fault Refusal := done (s.anyRead m a.toNat n)
/-- PAIR_LO_READ (R11): A read of a _LO register captures its _HI partner into the reading master's snapshot. -/
def execPairLoRead (m : Master) (a : Word) (s : State) : Host.Outcome State Fault Refusal := done (s.anyRead m a.toNat 4)
/-- PAIR_LO_WRITE (R11): A write of a _LO register is held per master until that master writes the _HI partner. -/
def execPairLoWrite (m : Master) (a : Word) (v : Word) (s : State) : Host.Outcome State Fault Refusal := done (s.anyWrite m a.toNat 4 v.toNat)
/-- PAIR_HI_WRITE (R11): A write of a _HI register commits it together with the low word held by the same master in one cycle. -/
def execPairHiWrite (m : Master) (a : Word) (v : Word) (s : State) : Host.Outcome State Fault Refusal := done (s.anyWrite m a.toNat 4 v.toNat)
/-- RWT_WRITE (R359): An RWT write goes to the open transaction's log, or to the unit's shadow, or is ignored when the unit is armed. -/
def execRwtWrite (m : Master) (a : Word) (v : Word) (s : State) : Host.Outcome State Fault Refusal := done (s.anyWrite m a.toNat 4 v.toNat)
/-- PORESET (R315): PORESET_N low resets every domain, and its release latches the straps and starts transition 1 or 2. -/
def execPoreset (test spi hold : Bool) (fuses : List (Fin 48 × Fin 4096)) (s : State) : Host.Outcome State Fault Refusal :=
  done (s.poreset test spi hold fuses)
/-- START_UP (R317): From the first ROM instruction, the image is checked, firmware starts, domains power, instances start and the Saffron start check decides PREOP or SAFESTOP. -/
def execStartUp (r : BootRes) (s : State) : Host.Outcome State Fault Refusal := done (s.startUp r)
/-- SYS_WDOG_EXPIRY (R315): The Huafegal watchdog expires, raising SYS_WDOG and starting the warm reset of transition 21. -/
def execSysWdogExpiry (s : State) : Host.Outcome State Fault Refusal := done (s.wdogExpiry)
/-- HOST_PORT_RESET (R315): A PCIe fundamental or hot reset or an SPI reset frame resets the host port, or acts as a warm reset when HOSTRST = 1. -/
def execHostPortReset (s : State) : Host.Outcome State Fault Refusal := done (s.hostPortReset)
/-- NETWORK_CYCLE_BOUNDARY (R27): A boundary of the pacing instance's cycle, or of the 1 ms domain-0 cycle, completes a waiting transition 8 to 11 or fixes the OPERATIONAL apply point. -/
def execNetworkCycleBoundary (i : Option (Fin 4)) (s : State) : Host.Outcome State Fault Refusal :=
  done (s.cycleBoundary ((i.map (fun x => x.val)).getD 4))
/-- MODE_TRANSITION_COMPLETE (R28): The block actions of a transition end, firmware re-asserts its settings, CUR, PREV and CAUSE update, BUSY clears and the MODE notice is sent. -/
def execModeTransitionComplete (s : State) : Host.Outcome State Fault Refusal := done (s.modeComplete)
/-- REFCLK_LOSS (R18): REFCLK stops for more than 400 ns, setting REFLOSS and raising CLK_REFLOSS. -/
def execRefclkLoss (s : State) : Host.Outcome State Fault Refusal := done (s.refLost)
/-- PLL_LOSS_OF_LOCK (R18): A PLL loses lock while in use, setting its sticky bit and raising the matching FCU source. -/
def execPllLossOfLock (k : Fin 6) (s : State) : Host.Outcome State Fault Refusal := done (s.pllLost k)
/-- SUPPLY_OUT_OF_RANGE (R380): A rail leaves its operating range, clearing its PIN_IOSTAT bit and raising PWR_SUPPLY for a core rail. -/
def execSupplyOutOfRange (r : Fin 10) (s : State) : Host.Outcome State Fault Refusal := done (s.rail r false)
/-- TEMP_UPDATE (R399): Every 1 ms SYS_TEMP takes the highest sensor reading and SYS_TEMPHI or SYS_TEMPCRIT rise when it crosses their limits. -/
def execTempUpdate (t : BitVec 16) (s : State) : Host.Outcome State Fault Refusal := done (s.tempRead t)
/-- PLL_RELOCK (R18): A PLL that lost lock regains it, so its FCU source reads no fault again and TIME and other clients return to normal stepping. -/
def execPllRelock (k : Fin 6) (s : State) : Host.Outcome State Fault Refusal := done (s.pllLocked k)
/-- REFCLK_RESTORE (R385): REFCLK starts running again after a loss, so the ALIVE timing and REFCLK-clocked logic resume. -/
def execRefclkRestore (s : State) : Host.Outcome State Fault Refusal := done (s.refBack)
/-- SUPPLY_IN_RANGE (R380): A rail that had left its operating range returns to it, setting its PIN_IOSTAT bit and ending the PWR_SUPPLY fault state. -/
def execSupplyInRange (r : Fin 10) (s : State) : Host.Outcome State Fault Refusal := done (s.supplyBack r)
/-- DOMAIN_SWITCH_COMPLETE (R307): A power domain switched on by firmware finishes its 20 to 40 µs power-up and its registers become accessible at their reset values. -/
def execDomainSwitchComplete (d : Fin 12) (s : State) : Host.Outcome State Fault Refusal := done (s.domainReady d)

end Sys2Proof.Machine
end

