-- ==== Sys2Proof/Machine/CmdEng.lean ====
section
/-! DEFINITION. The meanings of the Bluset engines' control and the Dispatcher. -/

namespace Sys2Proof.Machine

open Sys2Proof

/-- ENG_MEMDATA_WRITE (R114): A write of MEMDATA stores a word at MEMADDR, or is ignored for I, microcode or table space while RUN = 1. -/
def execEngMemdataWrite (m : Master) (n : Fin 16) (v : Word) (s : State) : Host.Outcome State Fault Refusal := done (s.wordWrite m (ENG_MEMDATA n) v)
/-- ENG_MEMDATA_READ (R114): A read of MEMDATA returns the word at MEMADDR and advances ADDR by 4. -/
def execEngMemdataRead (m : Master) (n : Fin 16) (s : State) : Host.Outcome State Fault Refusal := done (s.busRead m (ENG_MEMDATA n) 4)
/-- ENG_RUN (R115): A write of ENG CTRL.RUN starts or stops the enabled threads, with INIT starting thread 0 at instruction 0. -/
def execEngRun (m : Master) (n : Fin 16) (v : Word) (s : State) : Host.Outcome State Fault Refusal := done (s.wordWrite m (ENG_CTRL n) v)
/-- ENG_RESET (R134): ENG CTRL.RST = 1 halts the threads, frees bound copies and stops frames in progress. -/
def execEngReset (m : Master) (n : Fin 16) (s : State) : Host.Outcome State Fault Refusal := done (s.fieldWrite m (ENG_CTRL_RST n) 1)
/-- ENG_RESET_RELEASE (R134): RST returning to 0 restarts the engine as when RUN goes from 0 to 1. -/
def execEngResetRelease (m : Master) (n : Fin 16) (s : State) : Host.Outcome State Fault Refusal := done (s.fieldWrite m (ENG_CTRL_RST n) 0)
/-- ENGINE_COPY_SEND (R118): The output of an engine's fabric port sends a copy when OUTST and the kind-0 level allow, posting its item. -/
def execEngineCopySend (n : Fin 16) (s : State) : Host.Outcome State Fault Refusal := done (s.inDom 7 (fun s => s.engineSend n))
/-- DISPATCH_ITEM (R128): The Dispatcher hands the oldest eligible item of the highest level to the first eligible idle thread of a cluster. -/
def execDispatchItem (k : Fin 16) (s : State) : Host.Outcome State Fault Refusal := done (s.inDom 7 (fun s => s.dispatch k))
/-- HELD_POST_RELEASE (R132): A source's held item is posted when its level has room. -/
def execHeldPostRelease (kind : Fin 8) (i : Fin 4608) (s : State) : Host.Outcome State Fault Refusal :=
  done (s.inDom 7 (fun s => s.heldRelease1 kind i))
/-- DISP_CLCFG_WRITE (R127): A write of DISP_CLCFG joins engines into clusters or is ignored with CLREF. -/
def execDispClcfgWrite (m : Master) (v : Word) (s : State) : Host.Outcome State Fault Refusal := done (s.wordWrite m DISP_CLCFG v)
/-- DISP_TIMER_EXPIRY (R132): A Dispatcher timer expires and posts a kind-4 item, or counts the expiry while its post is held. -/
def execDispTimerExpiry (i : Fin 16) (s : State) : Host.Outcome State Fault Refusal := done (s.inDom 7 (fun s => s.timerExpiry i))
/-- DISP_SWPOST (R132): A write of DISP_SWPOST[3] posts a kind-7 item or records level full in DISP_SWRES. -/
def execDispSwpost (m : Master) (v : Word) (s : State) : Host.Outcome State Fault Refusal := done (s.wordWrite m (DISP_SWPOST 3) v)
/-- NODE_FIRE (R131): A ready graph node whose level has room takes a token from each input and posts its kind-6 item. -/
def execNodeFire (k : Fin 16) (s : State) : Host.Outcome State Fault Refusal := done (s.inDom 7 (fun s => s.nodeFire k))
/-- DISP_APPLY_BOUNDARY (R133): At each schedule count that is a multiple of 1,024 the Dispatcher shadow is checked and becomes active. -/
def execDispApplyBoundary (s : State) : Host.Outcome State Fault Refusal := done (s.inDom 7 (fun s => s.dispBoundary))

end Sys2Proof.Machine
end

