-- ==== Sys2Proof/Machine/CmdFcu.lean ====
section
/-! DEFINITION. The meanings of fault collection, the memories and power. -/

namespace Sys2Proof.Machine

open Sys2Proof

/-- FCU_RAISE (R278): A source pair changes to fault, and the FCU records it and starts its class's reaction or merges it. -/
def execFcuRaise (src : Fin 512) (fault : Bool) (info : Word) (s : State) : Host.Outcome State Fault Refusal :=
  done (s.srcChange src info.toNat fault)
/-- WIRING_FAULT (R279): A pair reads equal for 4 cycles and is handled as a raise with WIRING = 1. -/
def execWiringFault (src : Fin 512) (s : State) : Host.Outcome State Fault Refusal := done (s.wireFault src)
/-- WIRING_FAULT_CLEARED (R279): A pair that showed a wiring fault reads a valid no-fault or fault state for 4 consecutive cycles, and its indications are taken again. -/
def execWiringFaultCleared (src : Fin 512) (s : State) : Host.Outcome State Fault Refusal := done (s.wireOk src)
/-- BLOCK_RESET_END (R287): A block reset's duration ends and the block restarts. -/
def execBlockResetEnd (k : Fin 34) (s : State) : Host.Outcome State Fault Refusal := done (s.blkEnd (blkNo k))
/-- REACTION_WINDOW_END (R286): A reaction window closes and later raises take new records. -/
def execReactionWindowEnd (src : Fin 512) (s : State) : Host.Outcome State Fault Refusal := done (s.winEnd src)
/-- FCU_ACK (R288): A write of FCU_ACK clears PENDING of a record or sets ACKREF. -/
def execFcuAck (m : Master) (r : Fin 32) (s : State) : Host.Outcome State Fault Refusal := done (s.fieldWrite m FCU_ACK_REC r)
/-- FCU_FORCE (R291): A write of FCU_FORCE drives source pairs into fault or wiring fault. -/
def execFcuForce (m : Master) (j : Fin 16) (v : Word) (s : State) : Host.Outcome State Fault Refusal := done (s.wordWrite m (FCU_FORCE j) v)
/-- FCU_SRCCFG_WRITE (R283): A write of FCU_SRCCFG sets a source's class and reaction in BOOT or COMMISSION, or is ignored. -/
def execFcuSrccfgWrite (m : Master) (i : Fin 512) (v : Word) (s : State) : Host.Outcome State Fault Refusal := done (s.wordWrite m (FCU_SRCCFG i) v)
/-- ARMED (R289): Setting FCU_CTRL.ARMED starts ALIVE toggling and releases FAULT_N where nothing pends. -/
def execArmed (m : Master) (s : State) : Host.Outcome State Fault Refusal := done (s.fieldWrite m FCU_CTRL_ARMED 1)
/-- ALIVE_TOGGLE (R289): Every 500 µs ALIVE_A and ALIVE_B toggle together. -/
def execAliveToggle (s : State) : Host.Outcome State Fault Refusal := done (s.aliveToggle)
/-- COLLECTOR_SELF_FAULT (R293): A copy mismatch or parity error requests the safe state, stops ALIVE and sets SELF. -/
def execCollectorSelfFault (off : BitVec 16) (mismatch parity : Bool) (s : State) : Host.Outcome State Fault Refusal :=
  done (s.selfFault off.toNat mismatch parity)
/-- SCRUB_READ (R297): Every SCRUBPER ns the scrubber reads one word of each powered bank. -/
def execScrubRead (found : List (Fin 48 × Bool)) (s : State) : Host.Outcome State Fault Refusal := done (s.scrubTick found)
/-- ECC_WRITEBACK (R296): A corrected word is written back in the bank's next idle cycle. -/
def execEccWriteback (b : Fin 48) (s : State) : Host.Outcome State Fault Refusal := done (s.eccWriteback b)
/-- SRAM_GROUP_READY (R301): A group powering on or waking completes and stalled requests proceed. -/
def execSramGroupReady (g : Fin 12) (s : State) : Host.Outcome State Fault Refusal := done (s.sgReady g)
/-- VOTE_CAST (R309): A voting block quiesces and votes yes or refuses with a reason. -/
def execVoteCast (v : Fin 12) (hostBusy : Bool) (s : State) : Host.Outcome State Fault Refusal := done (s.voteCast v hostBusy)
/-- VOTE_WINDOW_EXPIRY (R310): The vote window ends with a silent voter and the entry aborts. -/
def execVoteWindowExpiry (s : State) : Host.Outcome State Fault Refusal := done (s.voteExpiry)
/-- LOW_POWER_COMMIT (R310): With every vote yes, domains save to retention, clocks stop and supplies fall. -/
def execLowPowerCommit (s : State) : Host.Outcome State Fault Refusal := done (s.lowCommit)
/-- WAKE_EVENT (R312): A wake source sets its bit and starts transition 18, or aborts a vote in prepare. -/
def execWakeEvent (i : Fin 7) (s : State) : Host.Outcome State Fault Refusal := done (s.wake i)
/-- WAKE_COMPLETE (R312): The wake sequence ends with firmware resumed, CUR restored and the WAKE notice sent. -/
def execWakeComplete (s : State) : Host.Outcome State Fault Refusal := done (s.wakeDone)
/-- STROLL_SAMPLE (R313): Every PWR_SPER ms the sampler checks its conditions and wakes the device on a match. -/
def execStrollSample (link : Byte) (balls : BitVec 64) (temp vin : BitVec 16) (s : State) : Host.Outcome State Fault Refusal :=
  done (s.strollSample link.toNat balls.toNat temp.toInt vin.toNat)
/-- WAKESEC_REACHED (R312): Domain-0 seconds reach PWR_WAKESEC and wake the device. -/
def execWakesecReached (s : State) : Host.Outcome State Fault Refusal := done (s.wakeSec)
/-- VIN_TRIP (R318): VIN below TRIP for 2 µs starts HOLDUP: domains stop, Saffron reacts and the Flask record is captured and written. -/
def execVinTrip (vh0 vh1 : BitVec 16) (ns : Word) (s : State) : Host.Outcome State Fault Refusal := done (s.vinTrip vh0.toNat vh1.toNat ns.toNat)
/-- HOLDUP_COMPLETE (R318): The closing word is written and every domain goes OFF. -/
def execHoldupComplete (good : Bool) (s : State) : Host.Outcome State Fault Refusal := done (s.holdupEnd good)
/-- VIN_RESTART (R320): VIN above TRIP + 400 mV for 10 ms after HOLDUP starts the device as at power-on with VINRST. -/
def execVinRestart (s : State) : Host.Outcome State Fault Refusal := done (s.vinRestart)

end Sys2Proof.Machine
end

