-- ==== Sys2Proof/Machine/FwCmd.lean ====
section
/-! DEFINITION. How firmware takes a command from a channel, checks it and answers it (R345 to R351, R360). -/

namespace Sys2Proof.Machine

open Sys2Proof

/-! ### Channels and senders (R345) -/

/-- The core that serves channel `c`, as a bus master. -/
def servCore (c : Nat) : Fin 4 := Fin.ofNat 4 (if c ≤ 3 then c else c - 56)
def servMaster (c : Nat) : Master := .core (servCore c)
/-- The sender of channel `c`, as a bus master. -/
def sentBy (c : Nat) : Master := if c ≤ 3 then .host else .thread (Fin.ofNat 16 (c - 56)) 0
/-- The sender's transaction channel (R352). -/
def sentTxn (c : Nat) : Nat := if c ≤ 3 then 0 else 5 + (c - 56)

/-- The modes of the Modes column (R350). -/
def anyMode : List Nat := [modeCOMMISSION, modePREOP, modeSAFEOP, modeOPERATIONAL, modeSAFESTOP, modeDEGRADED]
def modesPSOXD : List Nat := [modePREOP, modeSAFEOP, modeOPERATIONAL, modeSAFESTOP, modeDEGRADED]
def modesPSOD : List Nat := [modePREOP, modeSAFEOP, modeOPERATIONAL, modeDEGRADED]
def modesPX : List Nat := [modePREOP, modeSAFESTOP]

/-- The opcodes of the command tables (R360 to R371, R375). (log 52, DEDUCED) -/
def knownOps : List Nat :=
  [0x0101, 0x0102, 0x0103, 0x0104, 0x0105, 0x0106, 0x0201, 0x0202, 0x0203, 0x0204, 0x0205, 0x0301, 0x0302, 0x0303, 0x0304, 0x0305,
   0x0401, 0x0402, 0x0403, 0x0404, 0x0405, 0x0406, 0x0407, 0x0408, 0x0409, 0x0501, 0x0502, 0x0503, 0x0504, 0x0505, 0x0506, 0x0507] ++
  [0x0601, 0x0602, 0x0603, 0x0604, 0x0605, 0x0606, 0x0607, 0x0608, 0x0681, 0x0682, 0x0683, 0x0684, 0x0685, 0x0686, 0x0687, 0x0688,
   0x0701, 0x0702, 0x0703, 0x0704, 0x0705, 0x0801, 0x0802, 0x0803, 0x0804] ++
  [0x0901, 0x0902, 0x0903, 0x0904, 0x0905, 0x0906, 0x0907, 0x0908, 0x0909, 0x090A, 0x090B, 0x0A01, 0x0A02, 0x0A03, 0x0A04, 0x0A05,
   0x0A06, 0x0B01, 0x0B02, 0x0B03, 0x0B04, 0x0B05, 0x0B06, 0x0B07]

/-! ### Answers -/

/-- Firmware takes the command from its channel and answers it. -/
def State.fwAns (s : State) (c : Nat) (m : List Byte) (code da db : Nat) (pl : List Byte) : State := (s.chanPop c).fwReply c m code da db pl
def State.fwOk (s : State) (c : Nat) (m pl : List Byte) : State := s.fwAns c m 0 0 0 pl
/-- Firmware refuses the command. (log 49, DESIGN CHOICE) -/
def State.fwNo (s : State) (c : Nat) (m : List Byte) (code da : Nat) : State := s.fwAns c m code (da % 256) 0 []
/-- Firmware writes a register as the serving core; with `fwSet` the value is a setting it keeps (R23). -/
def State.fwPut (s : State) (c a v : Nat) : State := s.busWrite (servMaster c) a 4 (v % 2 ^ 32)
def State.fwSet (s : State) (c a v : Nat) : State := (s.fwPut c a v).fwKeep a (w32 v)
/-- Firmware reads registers as the serving core, with the effects of R13, and lays their words out. (log 63, DEDUCED) -/
def State.fwGets (s : State) (c : Nat) : List Nat → State × List Byte
  | [] => (s, [])
  | a :: t =>
    let r := s.busRead (servMaster c) a 4
    let q := { r with rdata := s.rdata }.fwGets c t
    (q.1, leBytes 4 r.rdata.toNat ++ q.2)
/-- Firmware reads registers and answers with their words. (log 63, DEDUCED) -/
def State.fwShow (s : State) (c : Nat) (m : List Byte) (l : List Nat) : State :=
  let r := s.fwGets c l
  r.1.fwOk c m r.2

/-! ### Taking a command (R346, R347, R350) -/

/-- The commands that ask for a mode, SAFE's apart: one that finds a transition in progress is refused as busy (R30). -/
def modeOps : List Nat := [0x0102, 0x0B01]
/-- The commands of kind W of the command tables (R347). -/
def wOps : List Nat :=
  [0x0102, 0x0103, 0x0105, 0x0106, 0x0202, 0x0203, 0x0204, 0x0205, 0x0301, 0x0302, 0x0303, 0x0305, 0x0401, 0x0402, 0x0404, 0x0405,
   0x0407, 0x0408, 0x0501, 0x0502, 0x0504, 0x0505, 0x0507, 0x0601, 0x0603, 0x0604, 0x0605, 0x0606, 0x0607] ++ [0x0681, 0x0682, 0x0683, 0x0684, 0x0685, 0x0686, 0x0701, 0x0702, 0x0704,
   0x0705, 0x0801, 0x0802, 0x0804, 0x0902, 0x0903, 0x0905, 0x0906, 0x0907, 0x0908, 0x0909, 0x090A, 0x090B, 0x0A02, 0x0A04, 0x0A06] ++
  [0x0B01, 0x0B02, 0x0B03, 0x0B05, 0x0B06, 0x0B07]
/-- A command of kind W was sent earlier to another channel than `c`, and waits there (R347). (log 51, DEDUCED) -/
def State.earlierW (s : State) (c : Nat) : Bool :=
  let before := s.arrive.takeWhile (fun d => d != c)
  before.zipIdx.any (fun e =>
    match (s.chan e.1)[(before.take e.2).count e.1]? with
    | some m => wOps.contains (plN m 4 2)
    | none => false)

/-- Every response owed for a command that waits for something. -/
def State.owing (s : State) : List Owed :=
  s.pwr.owed.toList ++ s.txn.flatMap (fun e => e.2.owed.toList ++ (e.2.armed.bind (fun a => a.owed)).toList)
/-- The refusals that a command earns before its payload is looked at, with their details: a sender that may not use it, a wrong length, a
transition in progress, a mode that does not accept it (R30, R345, R346, R350, R351). -/
def State.refusals (s : State) (c op : Nat) (eng : Bool) (modes : List Nat) (fits : Bool) : List (Nat × Nat) :=
  (if 56 ≤ c ∧ !eng then [(0x8004, 0)] else []) ++ (if fits then [] else [(0x8002, 0)]) ++
    (if modeOps.contains op && s.busy then [(0x8007, s.fld SYS_MODE_TARGET)] else []) ++
    (if modes.contains s.mode then [] else [(0x8006, s.mode)])
/-- Firmware can take the next command of channel `c`: it runs, no vote is open, the answer before is accepted, and for a command of kind
W none is in progress and none was sent earlier. (log 51, DEDUCED) -/
def State.fwFree (s : State) (c : Nat) (w : Bool) : Bool :=
  s.fw.running && anyMode.contains s.mode && s.pwr.vote.isNone && !s.fw.retry.any (fun e => e.1 == c) &&
    !s.owing.any (fun o => o.chan == c) && (!w || (s.owing.isEmpty && !s.earlierW c))
/-- Firmware serves the command with opcode `op` at the head of channel `c`: `eng` where engines may send it, `w` of kind W, `len` the
payload length its payload asks for, `act` what it does, `no` how it is refused. A command with an unknown opcode is refused whenever its
channel is served. Where a command earns several refusals, a free value names the one that is sent. (log 50, DESIGN CHOICE; 52, DEDUCED) -/
def State.fwServe (s : State) (c op : Nat) (eng w : Bool) (modes : List Nat) (len : List Byte → Nat)
    (act : State → Nat → List Byte → List Byte → State) (no : State → Nat → List Byte → Nat → Nat → State := State.fwNo) : State :=
  if !cmdChan c || !s.fwFree c w then s
  else match s.chan c with
    | [] => s
    | m :: _ =>
      let o := plN m 4 2
      if !knownOps.contains o then s.fwNo c m 0x8001 0
      else if o ≠ op then s
      else
        let l := s.refusals c op eng modes (plN m 6 2 == len (msgPl m))
        match l[0]? with
        | none => act s c m (msgPl m)
        | some e =>
          if l.length = 1 then no s c m e.1 e.2
          else
            let f := l.getD (s.freeW.toNat % l.length) e
            no s.drew c m f.1 f.2
/-- A payload of fixed length. -/
def fixLen (n : Nat) (_ : List Byte) : Nat := n

/-! ### Buffers (R348) -/

/-- A buffer reference at offset `o` of a payload: address and length. -/
def bufAt (p : List Byte) (o : Nat) : Nat × Nat := (plN p o 4, plN p (o + 4) 4)
/-- A buffer lies wholly in the software region or in SRAM banks 32 to 34, on a word boundary. -/
def State.bufOk (s : State) (b : Nat × Nat) : Bool :=
  decide (b.1 % 4 = 0) &&
    (decide (0x20800000 ≤ b.1 ∧ b.1 + b.2 ≤ 0x208C0000) ||
     decide (0x80000000 ≤ b.1 ∧ b.1 + b.2 ≤ 0x80000000 + 262144 * s.fld BUF_SWCELLS_UNITS))

/-! ### RWT writes of a command (R360) -/

/-- The writes of a command go into the open transaction its handle names, or are run as a transaction of the serving core's channel,
which is answered when every unit has applied. (log 56, DEDUCED) -/
def State.fwRwt (s : State) (c : Nat) (m : List Byte) (ws : List (Nat × Word)) : State :=
  let put (who : Master) (s : State) : State := ws.foldl (fun (s : State) (e : Nat × Word) => s.rwtWrite who e.1 e.2) s
  let h := plN m 8 4
  if h ≠ 0 then
    let k := sentTxn c
    if !s.flag (TXN_CH_STAT_OPEN k) ∨ (s.txnCh k).handle ≠ h then s.fwNo c m 0x8010 0
    else
      let t := put (sentBy c) s
      if t.flag (TXN_CH_STAT_LOGFULL k) then t.fwNo c m 0x8013 0 else t.fwOk c m []
  else
    let k := 1 + (servCore c).val
    if s.flag (TXN_CH_STAT_OPEN k) ∨ (s.txnCh k).armed.isSome then s.fwNo c m 0x8011 0
    else
      let s := put (servMaster c) ((s.chanPop c).txnOpen k false)
      let s := s.setReg (TXN_CH_APPLY k) 0
      (s.setTxn k { s.txnCh k with owed := some ⟨c, m⟩ }).txnCommit k

end Sys2Proof.Machine
end

