-- ==== Sys2Proof/Machine/FwNet.lean ====
section
/-! DEFINITION. Firmware's NET, TIME/ANGLE and AXIS/LOOP commands (R364 to R366). -/

namespace Sys2Proof.Machine

open Sys2Proof

/-! ### Instances (R364, R166 to R173) -/

/-- INST_START: `cfg` is what the stored configuration or the buffer holds. (log 62, DEDUCED) -/
def State.cmdInstStart (cfg : InstCfg) (s : State) (c : Nat) (m p : List Byte) : State :=
  let n := plN p 0 1
  let d := plN p 1 1
  let stored := s.sys.cfg.insts.find? (fun e => e.1 == n)
  let start (x : InstCfg) : State :=
    let r := s.instBegin x d
    match r.2 with
    | .inr e => s.fwAns c m e.1 e.2.1 e.2.2 []
    | .inl i =>
      match r.1.inst i with
      | none => r.1.fwOk c m []
      | some y => r.1.fwOk c m [b8 i, b8 y.eng, b8 y.engs, b8 (y.fcs.foldl (fun a b => min a b) 255), b8 y.fcs.length, b8 y.units]
  if 15 < n ∧ n ≠ 0xFF then s.fwNo c m 0x8005 0
  else if 3 < d ∧ d ≠ 0xFF then s.fwNo c m 0x8005 1
  else if n = 0xFF then (if s.bufOk (bufAt p 4) then start cfg else s.fwNo c m 0x8003 0)
  else match stored with
    | none => s.fwNo c m 0x8005 0
    | some e => start e.2.2
/-- INST_STOP. -/
def State.cmdInstStop (s : State) (c : Nat) (m p : List Byte) : State :=
  let i := plN p 0 1
  if 3 < i ∨ (s.inst i).isNone then s.fwNo c m 0x8005 0 else (s.instStop i).fwOk c m []
/-- INST_STATUS. -/
def State.cmdInstStatus (s : State) (c : Nat) (m p : List Byte) : State :=
  let i := plN p 0 1
  if 3 < i then s.fwNo c m 0x8005 0
  else match s.inst i with
    | none => s.fwOk c m ([0, 0, 0, 0xFF#8] ++ List.replicate 6 0 ++ [0xFF#8, 0xFF#8] ++ List.replicate 12 0)
    | some x =>
      let can := match x.cfg.can with
        | some n => n
        | none => 0xFF
      s.fwOk c m (leBytes 2 x.cfg.image ++ [b8 x.st, b8 x.dom] ++ leBytes 4 (netCycle x.cfg) ++ leBytes 2 (x.cfg.ports % 4096) ++
        [b8 can, b8 (if x.cfg.cells = 0 then 0xFF else x.cfg.cell)] ++ leBytes 4 x.lost ++ leBytes 4 x.tries ++ leBytes 4 x.late)

/-! ### The forwarding database and the VLAN table (R364, R92) -/

def vidBad (v : Nat) : Bool := v == 0 || decide (4095 ≤ v)
/-- The database without an entry. -/
def State.fdbDrop (s : State) (v : Nat) (a : List Byte) : State :=
  { s with swx := { s.swx with fdb := s.swx.fdb.filter (fun e => !(e.vid == v && e.addr == a)) } }
/-- FDB_SET. Which entries share a set is the hash's, which the manual does not give: a free value says whether a full set holds static
entries only, and names the oldest learned entry it holds otherwise. (log 46, DESIGN CHOICE) -/
def State.cmdFdbSet (s : State) (c : Nat) (m p : List Byte) : State :=
  let a := slice p 0 6
  let v := plN p 6 2
  let q := plN p 8 1
  let st := (plN p 9 1).testBit 0
  let e : FdbEnt := ⟨v, a, q, st, s.regN (TIME_DOM_SEC_LO 0)⟩
  let put (s : State) : State := { s with swx := { s.swx with fdb := s.swx.fdb ++ [e] } }
  if vidBad v then s.fwNo c m 0x8005 6
  else if 31 < q then s.fwNo c m 0x8005 8
  else if (s.fdbFind v a).isSome then (put (s.fdbDrop v a)).fwOk c m []
  else
    let n := s.swx.fdb.length
    if n < 4 then (put s).fwOk c m []
    else if n < 16384 && !Config.freeBool s.free then (put s).drew.fwOk c m []
    else
      let k := s.freeW.toNat
      let learned := s.swx.fdb.filter (fun x => !x.isStatic)
      let only := decide (4 ≤ n - learned.length) && k.testBit 31
      match (if st && !only then learned[k % max 1 learned.length]? else none) with
      | some x => (put (s.fdbDrop x.vid x.addr)).drew.fwOk c m []
      | none => s.drew.fwNo c m 0x8009 k
/-- FDB_DEL. -/
def State.cmdFdbDel (s : State) (c : Nat) (m p : List Byte) : State :=
  if vidBad (plN p 6 2) then s.fwNo c m 0x8005 6 else (s.fdbDrop (plN p 6 2) (slice p 0 6)).fwOk c m []
/-- FDB_GET. -/
def State.cmdFdbGet (s : State) (c : Nat) (m p : List Byte) : State :=
  if vidBad (plN p 6 2) then s.fwNo c m 0x8005 6
  else match s.fdbFind (plN p 6 2) (slice p 0 6) with
    | some e => s.fwOk c m [b8 e.port, b8 (1 + 2 * bit e.isStatic)]
    | none => s.fwOk c m [0, 0]
/-- FDB_FLUSH. -/
def State.cmdFdbFlush (s : State) (c : Nat) (m p : List Byte) : State :=
  let mask := plN p 0 4
  let all := (plN p 4 1).testBit 0
  { s with swx := { s.swx with fdb := s.swx.fdb.filter (fun e => !(mask.testBit e.port && (all || !e.isStatic))) } }.fwOk c m []
/-- VLAN_SET. -/
def State.cmdVlanSet (s : State) (c : Nat) (m p : List Byte) : State :=
  let v := plN p 0 2
  if vidBad v then s.fwNo c m 0x8005 0
  else { s with swx := { s.swx with vlan := storeSet (fun _ => (0xFFFFFFFF, 0)) s.swx.vlan v (plN p 4 4, plN p 8 2 % 4096) } }.fwOk c m []
/-- VLAN_GET. -/
def State.cmdVlanGet (s : State) (c : Nat) (m p : List Byte) : State :=
  let v := plN p 0 2
  if vidBad v then s.fwNo c m 0x8005 0 else s.fwOk c m (leBytes 4 (s.vlanOf v).1 ++ leBytes 2 (s.vlanOf v).2)

/-! ### TIME/ANGLE (R365) -/

/-- An instance follows domain `d` (R172). -/
def State.followed (s : State) (d : Nat) : Bool :=
  s.insts.any (fun x => x.2.dom == d && ((imgSpec x.2.cfg.image).map (fun i => i.follows)).getD false)
/-- ACQUIRE: CTRL.ACQ, then for source 0 the step. -/
def State.cmdAcquire (s : State) (c : Nat) (m p : List Byte) : State :=
  let d := plN p 0 1
  let src := plN p 1 1
  if 3 < d then s.fwNo c m 0x8005 0
  else if 1 < src then s.fwNo c m 0x8005 1
  else if s.followed d then s.fwNo c m 0x8004 d
  else
    let s := s.fwPut c (TIME_DOM_CTRL d) (2 + src)
    let s := if src = 0 then
        (((s.fwPut c (TIME_DOM_STEP_NS d) (plN p 4 4)).fwPut c (TIME_DOM_STEP_SEC_LO d) (plN p 8 4)).fwPut c (TIME_DOM_STEP_SEC_HI d) (plN p 12 4)).fwPut c
          (TIME_DOM_CTRL d) 8
      else s
    let st := s.fld (TIME_DOM_STAT_STEPST d)
    if src = 0 ∧ st ≠ 1 then s.fwAns c m 0x8020 st 0 [b8 st] else s.fwOk c m [b8 st]
/-- REARM: the domain returns to FREE. (log 61, DEDUCED) -/
def State.cmdRearm (s : State) (c : Nat) (m p : List Byte) : State :=
  let d := plN p 0 1
  if 3 < d then s.fwNo c m 0x8005 0
  else if s.followed d then s.fwNo c m 0x8004 d
  else (s.fwPut c (TIME_DOM_CTRL d) (4 + s.fld (TIME_DOM_CTRL_STEPSRC d))).fwOk c m []
/-- TIME_GET. -/
def State.cmdTimeGet (s : State) (c : Nat) (m p : List Byte) : State :=
  let d := plN p 0 1
  if 3 < d then s.fwNo c m 0x8005 0
  else
    let r := s.fwGets c [TIME_DOM_NS d, TIME_DOM_SEC_LO d, TIME_DOM_SEC_HI d, TIME_DOM_FRAC d, TIME_DOM_ADJ d]
    r.1.fwOk c m (slice r.2 4 8 ++ slice r.2 0 4 ++ slice r.2 12 2 ++ [b8 (s.fld (TIME_DOM_STAT_STATE d)), 0] ++ slice r.2 16 4)
/-- PPS. -/
def State.cmdPps (s : State) (c : Nat) (m p : List Byte) : State :=
  (((s.fwSet c TIME_PPS_SEC_LO (plN p 4 4)).fwSet c TIME_PPS_SEC_HI (plN p 8 4)).fwSet c TIME_PPS_CTRL (plN p 0 4)).fwOk c m []
/-- ANGLE_SET. -/
def State.cmdAngleSet (s : State) (c : Nat) (m p : List Byte) : State :=
  let u := plN p 0 1
  if 1 < u then s.fwNo c m 0x8005 0
  else if s.lineHasLau u then s.fwNo c m 0x8004 u
  else
    let refused := s.angleSlotOn u
    let s := ((s.fwPut c (LAU_SET_LO u) (plN p 4 4)).fwPut c (LAU_SET_HI u) (plN p 8 4)).fwPut c (LAU_CTRL u) (2 + s.fld (LAU_CTRL_EN u))
    if refused then s.fwNo c m 0x8021 0 else s.fwOk c m []
/-- ANGLE_GET. -/
def State.cmdAngleGet (s : State) (c : Nat) (m p : List Byte) : State :=
  let u := plN p 0 1
  if 1 < u then s.fwNo c m 0x8005 0 else s.fwShow c m [LAU_ANG_LO u, LAU_ANG_HI u, LAU_SPD u, LAU_ACC u, LAU_STAT u]
/-- VM_SPEED. -/
def State.cmdVmSpeed (s : State) (c : Nat) (m p : List Byte) : State :=
  let u := plN p 0 1
  if 1 < u then s.fwNo c m 0x8005 0
  else if s.lineHasLau u then s.fwNo c m 0x8004 u
  else (s.fwSet c (LAU_VM_SPD u) (plN p 4 4)).fwOk c m []

/-! ### AXIS/LOOP (R366) -/

/-- The payload length of a CTX_WRITE. -/
def ctxLen (p : List Byte) : Nat := 4 + 4 * plN p 2 1
/-- CTX_WRITE. -/
def State.cmdCtxWrite (s : State) (c : Nat) (m p : List Byte) : State :=
  let k := plN p 0 1
  let i := plN p 1 1
  let n := plN p 2 1
  if 256 < i + n then s.fwNo c m 0x8005 1
  else if n < 1 ∨ 10 < n then s.fwNo c m 0x8005 2
  else s.fwRwt c m ((List.range n).map (fun j => (LOOP_COEF k (i + j), w32 (plN p (4 + 4 * j) 4))))
/-- CTX_READ. -/
def State.cmdCtxRead (s : State) (c : Nat) (m p : List Byte) : State :=
  let k := plN p 0 1
  let i := plN p 1 1
  let n := plN p 2 1
  if 256 < i + n then s.fwNo c m 0x8005 1
  else if n < 1 ∨ 12 < n then s.fwNo c m 0x8005 2
  else if 1 < plN p 3 1 then s.fwNo c m 0x8005 3
  else s.fwOk c m ((List.range n).flatMap (fun j =>
    let a := LOOP_COEF k (i + j)
    leBytes 4 (if plN p 3 1 = 0 then s.actWord a else s.cand a).toNat))
/-- CTX_CTRL: EN, AUTO and STCLR in one write of CTRL. -/
def State.cmdCtxCtrl (s : State) (c : Nat) (m p : List Byte) : State :=
  let k := plN p 0 1
  let b := plN p 1 1
  let s := (s.fwSet c (LOOP_CTX_MANOUT k) (plN p 4 4)).fwPut c (LOOP_CTX_CTRL k) (b % 4 + 8 * (b / 4 % 2))
  (s.fwKeep (LOOP_CTX_CTRL k) (w32 (b % 4))).fwOk c m []
/-- CTX_CFG. -/
def State.cmdCtxCfg (s : State) (c : Nat) (m p : List Byte) : State :=
  let k := plN p 0 1
  s.fwRwt c m [(LOOP_CTX_CFG k, w32 (plN p 4 4)), (LOOP_CTX_RATE k, w32 (plN p 8 4)), (LOOP_CTX_TIMING k, w32 (plN p 12 4))]
/-- The tables of a kind: the address of the first, bytes of each, their number (R220). -/
def tableOf (kind : Nat) : Nat × Nat × Nat :=
  match kind with
  | 0 => (0x20900000, 0x4000, 64)
  | 1 => (0x20A00000, 0x1000, 64)
  | 2 => (0x20A40000, 0x400, 64)
  | _ => (0x20A50000, 0x100, 256)
/-- Context `k` names table `t` of a kind in the coefficient set `w`, with the stages of the CFG word `cfg` (R229, R232, R233). -/
def setNames (w : Nat → Nat) (cfg kind t : Nat) : Bool :=
  let stage (o : Nat) : Bool :=
    (kind == 0 && w o % 8 == 2 && w (o + 1) % 64 == t) || (kind == 3 && w o % 8 == 1 && (w o).testBit 28 && w (o + 9) / 256 % 256 == t)
  (List.range (min 4 (cfg % 8))).any (fun i => stage (16 + 48 * i)) ||
    (kind == 1 && (w 228).testBit 0 && w 228 / 4 % 64 == t) || (kind == 2 && (w 228).testBit 1 && w 228 / 256 % 64 == t)
/-- An enabled context names a table in its active or shadow set. -/
def State.tableUsed (s : State) (kind t : Nat) : Bool :=
  s.enabledCtx.any (fun k =>
    setNames (fun i => (s.actWord (LOOP_COEF k i)).toNat) (s.regN (LOOP_CTX_CFG k)) kind t ||
    setNames (fun i => (s.cand (LOOP_COEF k i)).toNat) (s.cand (LOOP_CTX_CFG k)).toNat kind t)
/-- Firmware's configuration takes a table. (log 57, DEDUCED) -/
def State.fwTable (s : State) (a : Nat) (b : List Byte) : State :=
  { s with fw := { s.fw with tabs := s.fw.tabs.filter (fun e => e.1 != a) ++ [(a, b)] } }
/-- TABLE. -/
def State.cmdTable (s : State) (c : Nat) (m p : List Byte) : State :=
  let kind := plN p 0 1
  let t := plN p 1 1
  let r := bufAt p 4
  let d := tableOf kind
  if 3 < kind then s.fwNo c m 0x8005 0
  else if d.2.2 ≤ t then s.fwNo c m 0x8005 1
  else if !s.bufOk r || r.2 != d.2.1 then s.fwNo c m 0x8003 0
  else if s.tableUsed kind t then s.fwNo c m 0x8009 t
  else
    let a := d.1 + t * d.2.1
    let b := s.getBlock r.1 r.2
    ((if s.sgOff (sramBank a / 4) then s.note else s.setBlock a b).fwTable a b).fwOk c m []
/-- CAPTURE. -/
def State.cmdCapture (s : State) (c : Nat) (m p : List Byte) : State :=
  ((((s.fwPut c LOOP_CAP_SEL (plN p 4 4)).fwPut c LOOP_CAP_BASE (plN p 8 4)).fwPut c LOOP_CAP_LEN (plN p 12 4)).fwPut c LOOP_CAP_CTRL
    (plN p 0 4)).fwOk c m []
/-- TESTSIG. -/
def State.cmdTestsig (s : State) (c : Nat) (m p : List Byte) : State :=
  (((((s.fwPut c LOOP_TSG_AMP (plN p 4 4)).fwPut c LOOP_TSG_F0 (plN p 8 4)).fwPut c LOOP_TSG_F1 (plN p 12 4)).fwPut c LOOP_TSG_N
    (plN p 16 4)).fwPut c LOOP_TSG_CTRL (plN p 0 4)).fwOk c m []
/-- CTX_STATUS. -/
def State.cmdCtxStatus (s : State) (c : Nat) (m p : List Byte) : State :=
  let k := plN p 0 1
  s.fwShow c m ([LOOP_CTX_STAT k, LOOP_CTX_LASTTS k, LOOP_CTX_LASTDUR k] ++ (List.range 4).map (fun j => LOOP_CTX_CNT k j))

end Sys2Proof.Machine
end

