-- ==== Sys2Proof/Machine/FwSys.lean ====
section
/-! DEFINITION. Firmware's SYS, FW and TXN commands (R360 to R363). -/

namespace Sys2Proof.Machine

open Sys2Proof

/-! ### SYS (R361) -/

/-- INFO. -/
def State.cmdInfo (s : State) (c : Nat) (m _p : List Byte) : State :=
  s.fwOk c m (leBytes 4 (s.regN SYS_ID) ++ leBytes 2 0x0402 ++ leBytes 2 (Config.fwBuild 0).toNat ++ leBytes 4 (s.regN SYS_MODE) ++
    leBytes 4 (s.regN SYS_RSTCAUSE) ++ leBytes 4 ((s.time.now - s.sys.bootAt) / 1000000000) ++ leBytes 2 s.fw.notLost ++
    [b8 s.insts.length, b8 (bit s.line.running)])
/-- The transition from one mode to another that MODE covers (R26). -/
def modeCmd (from_ dest : Nat) : Option Nat :=
  if from_ = modePREOP ∧ dest = modeSAFEOP then some 8
  else if from_ = modeSAFEOP ∧ dest = modeOPERATIONAL then some 9
  else if from_ = modeOPERATIONAL ∧ dest = modeSAFEOP then some 10
  else if (from_ = modeSAFEOP ∨ from_ = modeOPERATIONAL) ∧ dest = modePREOP then some 11
  else if from_ = modeDEGRADED ∧ dest = modePREOP then some 14
  else none
/-- A record of a DEGRADED reaction is pending: its fault is not cleared (R26, 14). (log 53, DEDUCED) -/
def State.degradedPending (s : State) : Bool :=
  (List.range 32).any (fun r => s.flag (FCU_REC_W2_PENDING r) && s.fld (FCU_REC_W0_REACT r) == 3)
/-- MODE (R26, R30). (log 32, DEDUCED; 53, DEDUCED) -/
def State.cmdMode (s : State) (c : Nat) (m p : List Byte) : State :=
  let t := plN p 0 1
  if t < 4 ∨ 6 < t then s.fwNo c m 0x8005 0
  else if s.busy then s.fwNo c m 0x8007 (s.fld SYS_MODE_TARGET)
  else match modeCmd s.mode t with
    | none => s.fwNo c m 0x8008 t
    | some n =>
      if n = 8 ∧ s.activeBad.isSome then
        let e := s.activeBad.getD (0, 0, 0)
        s.fwAns c m 0x8012 e.1 e.2.1 []
      else if n = 9 ∧ !s.permit then s.fwNo c m 0x8060 1
      else if n = 9 ∧ !s.allCyclic then s.fwNo c m 0x8060 2
      else if n = 14 ∧ s.degradedPending then s.fwNo c m 0x8008 t
      else
        let s := s.modeRequest n t (if c ≤ 3 then 1 else 2)
        s.fwOk c m (leBytes 4 (s.regN SYS_MODE))
/-- RESET: the warm reset follows 1 ms after the response. (log 54, DEDUCED) -/
def State.cmdReset (s : State) (c : Nat) (m p : List Byte) : State :=
  if plN p 0 4 ≠ 0x7216 then s.fwNo c m 0x8005 0
  else
    let s := s.fwOk c m []
    { s with sys := { s.sys with resetAt := some (s.time.now + 1000000) } }
/-- ENV. -/
def State.cmdEnv (s : State) (c : Nat) (m _p : List Byte) : State :=
  let s := s.supplyRead
  s.fwOk c m (leBytes 2 (s.fld SYS_TEMP_TEMP) ++ leBytes 2 (s.fld PWR_HOLDSTAT_VIN) ++ leBytes 2 (s.fld PWR_HOLDSTAT_VHOLD))
/-- CFG_SAVE: the working configuration goes to MRAM. -/
def State.cmdCfgSave (s : State) (c : Nat) (m _p : List Byte) : State :=
  let l := s.fw.cfg.filterMap (fun e => e.2.map (fun v => (e.1, v)))
  let f := (s.swx.fdb.filter (fun e => e.isStatic)).map (fun e => (e.vid, e.addr, e.port))
  ({ s with sys := { s.sys with cfg := { s.sys.cfg with regs := l, fdb := f, vlan := s.swx.vlan, tabs := s.fw.tabs } } }.mramStored 0x30180000 0x30200000).fwOk c m []
/-- CFG_LOAD: `img` is the configuration image the buffer holds. -/
def State.cmdCfgLoad (img : CfgImg) (s : State) (c : Nat) (m p : List Byte) : State :=
  if !s.bufOk (bufAt p 0) then s.fwNo c m 0x8003 0
  else ({ s with sys := { s.sys with cfg := img } }.mramStored 0x30180000 0x30200000).fwOk c m []

/-! ### FW (R362, R363) -/

/-- LIST. -/
def State.cmdFwList (s : State) (c : Nat) (m _p : List Byte) : State :=
  let l := s.sys.imgs.take 23
  s.fwOk c m ([b8 l.length, 0] ++ l.flatMap (fun e => leBytes 2 e.1))
/-- An engine image's header is well formed and names an image of R165. -/
def engImgOk (b : List Byte) : Bool :=
  let n (o k : Nat) : Nat := plN b o k
  let body := 4 * (n 12 2 + n 20 1 + n 14 2) + n 16 4
  decide (32 ≤ b.length) && n 0 4 == 0x4D524549 && (imgSpec (n 4 2)).isSome && n 8 4 == body && b.length == 32 + body &&
    decide (1 ≤ n 12 2 ∧ n 12 2 ≤ 16384) && decide (n 14 2 ≤ 512) && decide (n 16 4 ≤ 131072 ∧ n 16 4 % 4 = 0) && decide (n 20 1 ≤ 32) &&
    n 21 3 == 0 && n 28 4 == 0
/-- LOAD; `room` says whether the image area has room, which the sizes of the images shipped decide. (log 55, DESIGN CHOICE) -/
def State.cmdFwLoad (room : Bool) (s : State) (c : Nat) (m p : List Byte) : State :=
  let r := bufAt p 0
  if !s.bufOk r then s.fwNo c m 0x8003 0
  else
    let b := s.getBlock r.1 r.2
    if !engImgOk b then s.fwNo c m 0x8040 0
    else if plN b 24 4 ≠ (crc32 (b.drop 32)).toNat then s.fwNo c m 0x8041 0
    else if !room then s.fwNo c m 0x8042 0
    else
      let id := plN b 4 2
      let l := if s.sys.imgs.any (fun e => e.1 == id) then s.sys.imgs.map (fun e => if e.1 = id then (id, some b) else e)
               else s.sys.imgs ++ [(id, some b)]
      ({ s with sys := { s.sys with imgs := l } }.mramStored 0x30000000 0x30180000).fwOk c m (leBytes 2 id)
/-- DELETE. -/
def State.cmdFwDelete (s : State) (c : Nat) (m p : List Byte) : State :=
  let id := plN p 0 2
  match s.insts.find? (fun x => x.2.cfg.image == id) with
  | some x => s.fwNo c m 0x8009 x.1
  | none =>
    if !s.sys.imgs.any (fun e => e.1 == id) then s.fwNo c m 0x8005 0
    else ({ s with sys := { s.sys with imgs := s.sys.imgs.filter (fun e => e.1 != id) } }.mramStored 0x30000000 0x30180000).fwOk c m []
/-- A firmware image: 0 where it is valid, else the code of what is wrong with it. -/
def fwImgBad (b : List Byte) : Nat :=
  if b.length < 16 ∨ plN b 0 4 ≠ 0x4D524657 ∨ b.length ≠ 16 + plN b 4 4 then 0x8040
  else if plN b 12 4 ≠ (crc32 (b.drop 16)).toNat then 0x8041 else 0
/-- UPDATE. (log 55, DESIGN CHOICE) -/
def State.cmdFwUpdate (room : Bool) (s : State) (c : Nat) (m p : List Byte) : State :=
  let r := bufAt p 0
  if !s.bufOk r then s.fwNo c m 0x8003 0
  else
    let b := s.getBlock r.1 r.2
    let e := fwImgBad b
    if e ≠ 0 then s.fwNo c m e 0
    else if !room then s.fwNo c m 0x8042 0
    else ({ s with sys := { s.sys with newFw := true, fwImg := some b } }.mramStored 0x30000000 0x30180000).fwOk c m []
/-- BOOT: the ROM, which alone answers in BOOT, checks the image in Hamper and goes on from step 3 of R317. (log 67, DEDUCED) -/
def State.cmdFwBoot (r : BootRes) (s : State) (c : Nat) : State :=
  if s.fw.running then s.fwServe c 0x0205 false true [] (fixLen 4) (fun s _ _ _ => s)
  else if 3 < c ∨ s.mode ≠ modeBOOT ∨ s.trans.isSome then s
  else match s.chan c with
    | [] => s
    | m :: _ =>
      if plN m 4 2 ≠ 0x0205 then s
      else if plN m 6 2 ≠ 4 then s.fwNo c m 0x8002 0
      else
        let n := plN (msgPl m) 0 4
        let b := s.getBlock 0x80000000 n
        let e := if 262144 * 256 < n then 0x8005 else fwImgBad b
        if e ≠ 0 then s.fwNo c m e 0 else
        let t := { s with sys := { s.sys with fwImg := some b } }.mramStored 0x30000000 0x30180000
        (t.fwOk c m []).startFrom r

/-! ### TXN (R360) -/

/-- OPEN. -/
def State.cmdOpen (s : State) (c : Nat) (m _p : List Byte) : State :=
  let k := sentTxn c
  if s.flag (TXN_CH_STAT_OPEN k) then (s.txnOpen k true).fwNo c m 0x8011 0
  else
    let s := s.txnOpen k true
    s.fwOk c m (leBytes 4 (s.txnCh k).handle)
/-- The handle of a command names the open transaction of its sender's channel. -/
def State.handleOk (s : State) (c : Nat) (m : List Byte) : Bool :=
  s.flag (TXN_CH_STAT_OPEN (sentTxn c)) && (s.txnCh (sentTxn c)).handle == plN m 8 4
/-- COMMIT: answered when the check ends. -/
def State.cmdCommit (s : State) (c : Nat) (m p : List Byte) : State :=
  let k := sentTxn c
  if !s.handleOk c m then s.fwNo c m 0x8010 0
  else if 3 < plN p 0 1 then s.fwNo c m 0x8005 0
  else if 3 < plN p 1 1 then s.fwNo c m 0x8005 1
  else
    let s := s.chanPop c
    let s := s.setRegs [(TXN_CH_APPLY k, w32 (plN p 0 1 + 16 * plN p 1 1)), (TXN_CH_APPLY_LO k, w32 (plN p 4 4)), (TXN_CH_APPLY_HI k, w32 (plN p 8 4))]
    (s.setTxn k { s.txnCh k with owed := some ⟨c, m⟩ }).txnCommit k
/-- ROLLBACK. -/
def State.cmdRollback (s : State) (c : Nat) (m _p : List Byte) : State :=
  if !s.handleOk c m then s.fwNo c m 0x8010 0 else (s.txnRollback (sentTxn c)).fwOk c m []
/-- STATUS. -/
def State.cmdTxnStatus (s : State) (c : Nat) (m _p : List Byte) : State :=
  let k := sentTxn c
  s.fwOk c m (leBytes 4 (s.regN (TXN_CH_STAT k)) ++ leBytes 4 (s.regN (TXN_CH_HANDLE k)) ++ leBytes 4 (s.regN (TXN_CH_DETAIL k)))
/-- The pairs of a WRITE. -/
def writePairs (p : List Byte) : List (Nat × Word) := (List.range (p.length / 8)).map (fun i => (plN p (8 * i) 4, w32 (plN p (8 * i + 4) 4)))
/-- WRITE: a pair that names no RWT register refuses the command, and nothing of it is logged. -/
def State.cmdWrite (s : State) (c : Nat) (m p : List Byte) : State :=
  let l := writePairs p
  match (List.range l.length).find? (fun i => rwtMask (plN p (8 * i) 4) == 0) with
  | some i => s.fwNo c m 0x8005 (8 * i)
  | none => s.fwRwt c m l
/-- The payload length of a WRITE: 1 to 6 pairs. -/
def writeLen (p : List Byte) : Nat := min 48 (max 8 (8 * ((p.length + 7) / 8)))

end Sys2Proof.Machine
end

