-- ==== Sys2Proof/Machine/CmdFw.lean ====
section
/-! DEFINITION. The meanings of firmware's SYS, FW, TXN, NET, TIME/ANGLE and AXIS/LOOP commands. -/

namespace Sys2Proof.Machine

open Sys2Proof

/-- INFO (R361): SYS INFO returns identity, release, mode, reset cause and counts. -/
def execInfo (c : Fin 96) (s : State) : Host.Outcome State Fault Refusal := done (s.fwServe c 0x0101 true false anyMode (fixLen 0) State.cmdInfo)
/-- SYS_MODE (R361): SYS MODE requests transition 8 to 11 or 14. -/
def execSysMode (c : Fin 96) (s : State) : Host.Outcome State Fault Refusal := done (s.fwServe c 0x0102 false true modesPSOD (fixLen 1) State.cmdMode)
/-- RESET (R361): SYS RESET with the key starts a warm reset 1 ms after its response. -/
def execReset (c : Fin 96) (s : State) : Host.Outcome State Fault Refusal := done (s.fwServe c 0x0103 false true anyMode (fixLen 4) State.cmdReset)
/-- ENV (R361): SYS ENV returns temperature, VIN and VHOLD. -/
def execEnv (c : Fin 96) (s : State) : Host.Outcome State Fault Refusal := done (s.fwServe c 0x0104 true false anyMode (fixLen 0) State.cmdEnv)
/-- CFG_SAVE (R361): SYS CFG_SAVE writes the working configuration to MRAM. -/
def execCfgSave (c : Fin 96) (s : State) : Host.Outcome State Fault Refusal :=
  done (s.fwServe c 0x0105 false true modesPX (fixLen 0) State.cmdCfgSave)
/-- CFG_LOAD (R361): SYS CFG_LOAD replaces the MRAM configuration area from a buffer. -/
def execCfgLoad (c : Fin 96) (img : CfgImg) (s : State) : Host.Outcome State Fault Refusal :=
  done (s.fwServe c 0x0106 false true modesPX (fixLen 8) (State.cmdCfgLoad img))
/-- FW_LIST (R362): FW LIST returns the image IDs in MRAM. -/
def execFwList (c : Fin 96) (s : State) : Host.Outcome State Fault Refusal := done (s.fwServe c 0x0201 false false anyMode (fixLen 0) State.cmdFwList)
/-- FW_LOAD (R362): FW LOAD stores an engine image in MRAM. -/
def execFwLoad (c : Fin 96) (room : Bool) (s : State) : Host.Outcome State Fault Refusal :=
  done (s.fwServe c 0x0202 false true modesPX (fixLen 8) (State.cmdFwLoad room))
/-- FW_DELETE (R362): FW DELETE removes an engine image not in use. -/
def execFwDelete (c : Fin 96) (s : State) : Host.Outcome State Fault Refusal :=
  done (s.fwServe c 0x0203 false true modesPX (fixLen 2) State.cmdFwDelete)
/-- FW_UPDATE (R362): FW UPDATE writes and verifies a new firmware image for the next warm reset. -/
def execFwUpdate (c : Fin 96) (room : Bool) (s : State) : Host.Outcome State Fault Refusal :=
  done (s.fwServe c 0x0204 false true modesPX (fixLen 8) (State.cmdFwUpdate room))
/-- FW_BOOT (R362): FW BOOT makes the ROM check an image placed in Hamper and write it to MRAM. -/
def execFwBoot (c : Fin 96) (r : BootRes) (s : State) : Host.Outcome State Fault Refusal := done (State.cmdFwBoot r s c)
/-- OPEN (R360): The OPEN command opens a transaction and returns its handle. -/
def execOpenC (c : Fin 96) (s : State) : Host.Outcome State Fault Refusal := done (s.fwServe c 0x0301 true true anyMode (fixLen 0) State.cmdOpen)
/-- COMMIT (R360): The COMMIT command commits the handle's transaction with an apply point. -/
def execCommit (c : Fin 96) (s : State) : Host.Outcome State Fault Refusal := done (s.fwServe c 0x0302 true true anyMode (fixLen 12) State.cmdCommit)
/-- ROLLBACK (R360): The ROLLBACK command rolls back the handle's transaction. -/
def execRollback (c : Fin 96) (s : State) : Host.Outcome State Fault Refusal :=
  done (s.fwServe c 0x0303 true true anyMode (fixLen 0) State.cmdRollback)
/-- TXN_STATUS (R360): The STATUS command returns the sender's transaction channel state. -/
def execTxnStatus (c : Fin 96) (s : State) : Host.Outcome State Fault Refusal :=
  done (s.fwServe c 0x0304 true false anyMode (fixLen 0) State.cmdTxnStatus)
/-- WRITE (R360): The WRITE command logs 1 to 6 RWT register writes. -/
def execWrite (c : Fin 96) (s : State) : Host.Outcome State Fault Refusal := done (s.fwServe c 0x0305 true true anyMode writeLen State.cmdWrite)
/-- INST_START (R364): NET INST_START places and starts a protocol instance or refuses it. -/
def execInstStart (c : Fin 96) (cfg : InstCfg) (s : State) : Host.Outcome State Fault Refusal :=
  done (s.fwServe c 0x0401 false true [modePREOP] (fixLen 12) (State.cmdInstStart cfg))
/-- INST_STOP (R364): NET INST_STOP stops an instance and returns its resources. -/
def execInstStop (c : Fin 96) (s : State) : Host.Outcome State Fault Refusal :=
  done (s.fwServe c 0x0402 false true [modePREOP] (fixLen 1) State.cmdInstStop)
/-- INST_STATUS (R364): NET INST_STATUS returns an instance's state and counts. -/
def execInstStatus (c : Fin 96) (s : State) : Host.Outcome State Fault Refusal :=
  done (s.fwServe c 0x0403 true false anyMode (fixLen 1) State.cmdInstStatus)
/-- FDB_SET (R364): NET FDB_SET writes a forwarding database entry. -/
def execFdbSet (c : Fin 96) (s : State) : Host.Outcome State Fault Refusal :=
  done (s.fwServe c 0x0404 false true modesPSOXD (fixLen 10) State.cmdFdbSet)
/-- FDB_DEL (R364): NET FDB_DEL removes a forwarding database entry. -/
def execFdbDel (c : Fin 96) (s : State) : Host.Outcome State Fault Refusal :=
  done (s.fwServe c 0x0405 false true modesPSOXD (fixLen 8) State.cmdFdbDel)
/-- FDB_GET (R364): NET FDB_GET returns a forwarding database entry. -/
def execFdbGet (c : Fin 96) (s : State) : Host.Outcome State Fault Refusal := done (s.fwServe c 0x0406 false false anyMode (fixLen 8) State.cmdFdbGet)
/-- FDB_FLUSH (R364): NET FDB_FLUSH removes entries of the named ports. -/
def execFdbFlush (c : Fin 96) (s : State) : Host.Outcome State Fault Refusal :=
  done (s.fwServe c 0x0407 false true modesPSOXD (fixLen 5) State.cmdFdbFlush)
/-- VLAN_SET (R364): NET VLAN_SET writes a VLAN's membership. -/
def execVlanSet (c : Fin 96) (s : State) : Host.Outcome State Fault Refusal :=
  done (s.fwServe c 0x0408 false true modesPSOXD (fixLen 10) State.cmdVlanSet)
/-- VLAN_GET (R364): NET VLAN_GET returns a VLAN's membership. -/
def execVlanGet (c : Fin 96) (s : State) : Host.Outcome State Fault Refusal :=
  done (s.fwServe c 0x0409 false false anyMode (fixLen 2) State.cmdVlanGet)
/-- ACQUIRE (R365): ACQUIRE puts a domain in ACQ and steps it, or arms a PPS step. -/
def execAcquire (c : Fin 96) (s : State) : Host.Outcome State Fault Refusal :=
  done (s.fwServe c 0x0501 true true modesPSOXD (fixLen 16) State.cmdAcquire)
/-- REARM (R365): REARM returns a domain to FREE. -/
def execRearm (c : Fin 96) (s : State) : Host.Outcome State Fault Refusal :=
  done (s.fwServe c 0x0502 false true [modePREOP, modeSAFESTOP, modeDEGRADED] (fixLen 1) State.cmdRearm)
/-- TIME_GET (R365): TIME_GET returns a domain's time, state and ADJ. -/
def execTimeGet (c : Fin 96) (s : State) : Host.Outcome State Fault Refusal :=
  done (s.fwServe c 0x0503 true false anyMode (fixLen 1) State.cmdTimeGet)
/-- PPS (R365): The PPS command writes TIME_PPS_CTRL and the PPS step seconds. -/
def execPps (c : Fin 96) (s : State) : Host.Outcome State Fault Refusal := done (s.fwServe c 0x0504 false true modesPSOXD (fixLen 12) State.cmdPps)
/-- ANGLE_SET (R365): ANGLE_SET sets an LAU's angle. -/
def execAngleSet (c : Fin 96) (s : State) : Host.Outcome State Fault Refusal :=
  done (s.fwServe c 0x0505 true true modesPSOXD (fixLen 12) State.cmdAngleSet)
/-- ANGLE_GET (R365): ANGLE_GET returns an LAU's estimates and status. -/
def execAngleGet (c : Fin 96) (s : State) : Host.Outcome State Fault Refusal :=
  done (s.fwServe c 0x0506 true false anyMode (fixLen 1) State.cmdAngleGet)
/-- VM_SPEED (R365): VM_SPEED writes an LAU's virtual-master target speed. -/
def execVmSpeed (c : Fin 96) (s : State) : Host.Outcome State Fault Refusal :=
  done (s.fwServe c 0x0507 true true modesPSOXD (fixLen 8) State.cmdVmSpeed)
/-- CTX_WRITE (R366): CTX_WRITE writes coefficient words of a context. -/
def execCtxWrite (c : Fin 96) (s : State) : Host.Outcome State Fault Refusal := done (s.fwServe c 0x0601 true true anyMode ctxLen State.cmdCtxWrite)
/-- CTX_READ (R366): CTX_READ returns coefficient words of the active or shadow set. -/
def execCtxRead (c : Fin 96) (s : State) : Host.Outcome State Fault Refusal :=
  done (s.fwServe c 0x0602 true false anyMode (fixLen 4) State.cmdCtxRead)
/-- CTX_CTRL (R366): CTX_CTRL writes a context's EN, AUTO, STCLR and MANOUT. -/
def execCtxCtrl (c : Fin 96) (s : State) : Host.Outcome State Fault Refusal := done (s.fwServe c 0x0603 true true anyMode (fixLen 8) State.cmdCtxCtrl)
/-- CTX_CFG (R366): CTX_CFG writes a context's CFG, RATE and TIMING. -/
def execCtxCfg (c : Fin 96) (s : State) : Host.Outcome State Fault Refusal := done (s.fwServe c 0x0604 true true anyMode (fixLen 16) State.cmdCtxCfg)
/-- TABLE (R366): TABLE writes a cam, cogging, friction or gain table not in use. -/
def execTable (c : Fin 96) (s : State) : Host.Outcome State Fault Refusal :=
  done (s.fwServe c 0x0605 false true modesPSOXD (fixLen 12) State.cmdTable)
/-- CAPTURE (R366): CAPTURE configures and starts Cardamom capture. -/
def execCapture (c : Fin 96) (s : State) : Host.Outcome State Fault Refusal :=
  done (s.fwServe c 0x0606 true true modesPSOXD (fixLen 16) State.cmdCapture)
/-- TESTSIG (R366): TESTSIG configures the test generator. -/
def execTestsig (c : Fin 96) (s : State) : Host.Outcome State Fault Refusal :=
  done (s.fwServe c 0x0607 true true modesPSOXD (fixLen 20) State.cmdTestsig)
/-- CTX_STATUS (R366): CTX_STATUS returns a context's status and counters. -/
def execCtxStatus (c : Fin 96) (s : State) : Host.Outcome State Fault Refusal :=
  done (s.fwServe c 0x0608 true false anyMode (fixLen 1) State.cmdCtxStatus)

end Sys2Proof.Machine
end

