-- ==== Sys2Proof/Machine/FwDev.lean ====
section
/-! DEFINITION. Firmware's CAN, NUT, SAFE, DIAG, POWER and line-master commands (R367 to R375). -/

namespace Sys2Proof.Machine

open Sys2Proof

/-! ### CAN (R367) -/

/-- An instance holds controller `n`. -/
def State.canHeld (s : State) (n : Nat) : Bool := s.insts.any (fun x => x.2.cfg.can == some n)
/-- CAN_CFG: INIT is set; with INITACK the registers are written and INIT = 0. Until the frame in progress has ended the command waits. (log 58, DEDUCED) -/
def State.cmdCanCfg (s : State) (c : Nat) (m p : List Byte) : State :=
  let n := plN p 0 1
  let v := plN p 4 4
  if 3 < n then s.fwNo c m 0x8005 0
  else if s.canHeld n then s.fwNo c m 0x8004 n
  else
    let s := if s.flag (CAN_CTRL_INIT n) then s else s.fwPut c (CAN_CTRL n) ((s.reg (CAN_CTRL n) ||| 1#32) &&& 0xDB#32).toNat
    if !s.flag (CAN_STAT_INITACK n) then s
    else
      let s := ((s.fwSet c (CAN_NBT n) (plN p 8 4)).fwSet c (CAN_DBT n) (plN p 12 4)).fwSet c (CAN_TDC n) (plN p 16 4)
      let s := (s.fwPut c (CAN_CTRL n) (v / 2 * 2 + 1)).fwSet c (CAN_CTRL n) (v / 2 * 2)
      if s.flag (CAN_STAT_BADTIM n) then s.fwNo c m 0x8005 8 else s.fwOk c m []
/-- The registers TT_LOAD writes, in the order of the buffer. -/
def ttRegs (n : Nat) : List Nat :=
  [CAN_TT_CFG n, CAN_TT_TIME n, CAN_TT_START n] ++ (List.range 32).map (fun w => CAN_TT_WIN n w) ++
    (List.range 32).flatMap (fun w => [CAN_GT_MARK n w, CAN_GT_MASK_LO n w, CAN_GT_MASK_HI n w]) ++
    (List.range 1024).map (fun i => CAN_TT_CELL n (i / 16) (i % 16))
/-- TT_LOAD: the buffer holds the first 131 words at least, then cells. (log 58, DEDUCED) -/
def State.cmdTtLoad (s : State) (c : Nat) (m p : List Byte) : State :=
  let n := plN p 0 1
  let r := bufAt p 4
  if 3 < n then s.fwNo c m 0x8005 0
  else if s.canHeld n then s.fwNo c m 0x8004 n
  else if !s.bufOk r || r.2 % 4 != 0 || decide (r.2 < 524) || decide (4620 < r.2) then s.fwNo c m 0x8003 0
  else
    let b := s.getBlock r.1 r.2
    s.fwRwt c m (((ttRegs n).take (r.2 / 4)).zipIdx.map (fun e => (e.1, w32 (plN b (4 * e.2) 4))))
/-- CAN_STATUS. -/
def State.cmdCanStatus (s : State) (c : Nat) (m p : List Byte) : State :=
  let n := plN p 0 1
  if 3 < n then s.fwNo c m 0x8005 0 else s.fwShow c m [CAN_STAT n, CAN_ERR n, CAN_TT_STAT n, CAN_TT_DRIFT n]
/-- TT_RESTART and BOREC: a write of CTRL with one more bit set. -/
def State.cmdCanCtrl (bitN : Nat) (s : State) (c : Nat) (m p : List Byte) : State :=
  let n := plN p 0 1
  if 3 < n then s.fwNo c m 0x8005 0
  else if s.canHeld n then s.fwNo c m 0x8004 n
  else (s.fwPut c (CAN_CTRL n) ((s.reg (CAN_CTRL n) &&& 0xDB#32).toNat + 2 ^ bitN)).fwOk c m []

/-! ### NUT (R368) -/

/-- An instance or a STROLL setting holds cell `k`. -/
def State.cellHeld (s : State) (k : Nat) : Bool :=
  s.insts.any (fun x => decide (x.2.cfg.cell ≤ k ∧ k < x.2.cfg.cell + x.2.cfg.cells)) || (s.regN PWR_SCELLS).testBit k
/-- CELL_LOAD: the cell is halted, written and left halted. -/
def State.cmdCellLoad (s : State) (c : Nat) (m p : List Byte) : State :=
  let k := plN p 0 1
  let r := bufAt p 4
  if 31 < k then s.fwNo c m 0x8005 0
  else if s.cellHeld k then s.fwNo c m 0x8009 k
  else if !s.bufOk r || r.2 != 180 then s.fwNo c m 0x8003 0
  else
    let b := s.getBlock r.1 180
    let s := s.fwPut c (NUT_CTRL k) (s.regN (NUT_CTRL k) / 2 ^ 16 * 2 ^ 16)
    let s := (List.range 13).foldl (fun s i => s.fwSet c (NUT_CFG k + 4 * i) (plN b (4 * i) 4)) s
    let s := (List.range 32).foldl (fun s i => s.fwSet c (NUT_PROG k i) (plN b (52 + 4 * i) 4)) s
    s.fwOk c m []
/-- CELL_RUN: halt, enable, arm or start the cells of a mask; a held cell refuses it. -/
def State.cmdCellRun (s : State) (c : Nat) (m p : List Byte) : State :=
  let a := plN p 4 1
  let mask := plN p 0 4
  if 3 < a then s.fwNo c m 0x8005 4
  else match (bitsOf 32 mask).find? (fun k => s.cellHeld k) with
  | some k => s.fwNo c m 0x8009 k
  | none =>
    let one (s : State) (k : Nat) : State :=
      let w := s.regN (NUT_CTRL k)
      let hi := w / 2 ^ 16 * 2 ^ 16
      s.fwPut c (NUT_CTRL k) (if a = 0 then hi else if a = 1 then hi + 1 else if a = 2 then hi + 3 else hi + w % 4 + 4)
    ((bitsOf 32 mask).foldl one s).fwOk c m []
/-- CELL_STATUS: POS first, which captures its timestamp. -/
def State.cmdCellStatus (s : State) (c : Nat) (m p : List Byte) : State :=
  let k := plN p 0 1
  if 31 < k then s.fwNo c m 0x8005 0 else s.fwShow c m [NUT_STAT k, NUT_FLAGS k, NUT_POS k, NUT_POSTS k]
/-- CELL_INJECT. -/
def State.cmdCellInject (s : State) (c : Nat) (m p : List Byte) : State :=
  let k := plN p 0 1
  if 31 < k then s.fwNo c m 0x8005 0
  else if s.cellHeld k || s.flag (NUT_INJ_PEND k) then s.fwNo c m 0x8009 k
  else (s.fwPut c (NUT_INJ k) (plN p 2 2 + 65536 * (plN p 1 1 % 2))).fwOk c m []

/-! ### SAFE (R251, R369, R405) -/

/-- Firmware refuses a SAFE command before it relays it: both codes are the refusal's, for every response opens with them (R369). (log 167, DEDUCED) -/
def State.safeNo (s : State) (c : Nat) (m : List Byte) (code da : Nat) : State :=
  s.fwAns c m code (da % 256) 0 (leBytes 2 code ++ leBytes 2 code)
/-- A SAFE command at the head of channel `c`: of a Saffron channel's mailbox the channel takes it itself; of a command channel firmware
relays it to both channels, and the answer carries both codes. (log 59, DEDUCED) -/
def State.safeServe (s : State) (c op : Nat) (stored : Bool := true) : State :=
  if c = 88 ∨ c = 90 ∨ c = 92 ∨ c = 94 then
    match s.chan c with
    | [] => s
    | m :: _ =>
      let o := plN m 4 2
      if s.asleep ∨ (o ≠ op ∧ 0x0901 ≤ o ∧ o ≤ 0x090B) then s else s.safTake ((c - 88) / 2 % 2) ((c - 88) / 4) stored
  else s.fwServe c op false (safeIsW op) anyMode (fun p => safeLen op p) (fun s c m p =>
    let lone (a b : Nat × Nat × Nat) : Nat × Nat × Nat := if a.1 = 0 ∧ b.1 ≠ 0 ∧ safeIsW op then (0x8064, 0, 0) else a
    let a0 := s.safeCheck 0 op p
    let b0 := s.safeCheck 1 op p
    let a := lone a0 b0
    let b := lone b0 a0
    let codes (x y : Nat) : List Byte := leBytes 2 x ++ leBytes 2 y
    let code := if a.1 ≠ 0 then a else b
    if code.1 ≠ 0 then (s.safeRefused op p).fwAns c m code.1 code.2.1 code.2.2 (codes a.1 b.1)
    else if !safeIsW op then s.fwOk c m (codes 0 0 ++ s.safeFields 0 op p)
    else
      let s := (s.safUnpair 0 1).safUnpair 1 1
      let e := s.safeEnd op stored
      let s := s.safeAct op p 1 stored
      if e = 0 then s.fwOk c m (codes 0 0 ++ s.safeFields 0 op p) else s.fwAns c m e 0 0 (codes e e ++ s.safeFields 0 op p))
    State.safeNo

/-! ### DIAG/FAULT (R370) -/

/-- LOG_READ. (log 66, DEDUCED) -/
def State.cmdLogRead (s : State) (c : Nat) (m p : List Byte) : State :=
  let r := plN p 0 1
  let n := plN p 1 1
  if 31 < r then s.fwNo c m 0x8005 0
  else if n < 1 ∨ 3 < n ∨ 32 < r + n then s.fwNo c m 0x8005 1
  else s.fwShow c m ((List.range (4 * n)).map (fun i => FCU_REC_W0 r + 4 * i))
/-- ACK. (log 66, DEDUCED) -/
def State.cmdDiagAck (s : State) (c : Nat) (m p : List Byte) : State :=
  let r := plN p 0 1
  if 31 < r then s.fwNo c m 0x8070 r
  else
    let t := s.fwPut c FCU_ACK r
    if s.recPending r && !t.recPending r then t.fwOk c m [] else t.fwNo c m 0x8070 r
/-- SAVED_READ. -/
def State.cmdSavedRead (s : State) (c : Nat) (m p : List Byte) : State :=
  let r := plN p 0 1
  let n := plN p 1 1
  if 31 < r then s.fwNo c m 0x8005 0
  else if n < 1 ∨ 3 < n ∨ 32 < r + n then s.fwNo c m 0x8005 1
  else match s.pwr.offer with
    | none => s.fwNo c m 0x8071 0
    | some a => s.fwOk c m (s.bytes (a + 0x200 + 16 * r) (16 * n))
/-- MAP. -/
def State.cmdMap (s : State) (c : Nat) (m p : List Byte) : State :=
  let i := plN p 0 2
  let cl := plN p 2 1
  let re := plN p 3 1
  if 511 < i then s.fwNo c m 0x8005 0
  else if 4 < cl then s.fwNo c m 0x8005 2
  else if 4 < re then s.fwNo c m 0x8005 3
  else if s.flag (FCU_SRCCFG_FIXED i) then s.fwNo c m 0x8004 i
  else (s.fwSet c (FCU_SRCCFG i) (cl + 16 * re)).fwOk c m []
/-- READ. -/
def State.cmdRead (s : State) (c : Nat) (m p : List Byte) : State :=
  let a := plN p 0 4
  let n := plN p 4 1
  if n < 1 ∨ 12 < n then s.fwNo c m 0x8005 4
  else s.fwShow c m ((List.range n).map (fun i => (a + 4 * i) % 2 ^ 32))
/-- FORCE. -/
def State.cmdForce (s : State) (c : Nat) (m p : List Byte) : State :=
  let i := plN p 0 2
  let b := plN p 2 1
  if 511 < i then s.fwNo c m 0x8005 0
  else if 1 < b then s.fwNo c m 0x8005 2
  else (s.fwPut c (FCU_FORCE (i / 32)) (setBits (s.reg (FCU_FORCE (i / 32))) (i % 32) (i % 32) b).toNat).fwOk c m []

/-! ### POWER (R371) -/

/-- ENTER: answered at the outcome of the vote. (log 64, DEDUCED) -/
def State.cmdEnter (s : State) (c : Nat) (m p : List Byte) : State :=
  let t := plN p 0 1
  if t ≠ modeSTROLL ∧ t ≠ modeRETAIN then s.fwNo c m 0x8005 0
  else if s.busy then s.fwNo c m 0x8007 (s.fld SYS_MODE_TARGET)
  else
    let s := s.chanPop c
    let s := { s with pwr := { s.pwr with owed := some ⟨c, m⟩ } }
    s.modeRequest (if t = modeRETAIN then 16 else 17) t (if c ≤ 3 then 1 else 2)
/-- A domain that POWER DOMAINS may not switch off: it holds an instance, the line-master service or a live cell. -/
def State.domHeld (s : State) (d : Nat) : Bool :=
  if 3 ≤ d ∧ d ≤ 6 then (List.range 4).any (fun i => s.engUsed (4 * (d - 3) + i))
  else if d = 8 then s.insts.any (fun x => x.2.cfg.ports % 4096 != 0)
  else s.insts.any (fun x => x.2.cfg.can.isSome || x.2.cfg.cells != 0) || s.regN PWR_SCELLS != 0
/-- The domains of DOMAINS by their bit. -/
def domBits : List (Nat × Nat) := [(0, 3), (1, 4), (2, 5), (3, 6), (4, 8), (5, 10)]
/-- DOMAINS. (log 64, DEDUCED) -/
def State.cmdDomains (s : State) (c : Nat) (m p : List Byte) : State :=
  let w := plN p 0 4
  match domBits.find? (fun e => !w.testBit e.1 && s.domSt e.2 != 0 && s.domHeld e.2) with
  | some e => s.fwNo c m 0x8009 e.2
  | none =>
    let s := domBits.foldl (fun s e => s.domainSet e.2 (w.testBit e.1)) s
    let s := (List.range 11).foldl (fun s g =>
      if w.testBit (6 + g) then s.sgPowerOn (g + 1) else if s.sgOff (g + 1) then s else s.sgPowerOff (g + 1)) s
    (s.fwKeep PWR_DOMSTAT (w32 w)).fwOk c m []
/-- STROLL_CFG. (log 44, DEDUCED) -/
def State.cmdStrollCfg (s : State) (c : Nat) (m p : List Byte) : State :=
  if 65535 < plN p 40 4 then s.fwNo c m 0x8005 40
  else
    let l := [PWR_SPER, PWR_SCFG, PWR_SNPMASK_LO, PWR_SNPMASK_HI, PWR_SNPLVL_LO, PWR_SNPLVL_HI, PWR_SCELLS, PWR_SCNTTHR]
    let s := l.zipIdx.foldl (fun s e => s.fwSet c e.1 (plN p (4 * e.2) 4)) s
    (((s.fwSet c PWR_WAKE (plN p 32 4 % 128)).fwSet c PWR_WAKESEC (plN p 36 4)).fwSet c PWR_VOTE (plN p 40 4 * 65536)).fwOk c m []
/-- FLASK_INFO. -/
def State.cmdFlaskInfo (s : State) (c : Nat) (m _p : List Byte) : State :=
  let f := leBytes 4 (s.regN MEM_FLASK)
  if !s.flag MEM_FLASK_VALID then s.fwOk c m (f ++ List.replicate 13 0)
  else
    let a := slotAt (s.fld MEM_FLASK_LAST)
    let st := if s.pwr.offer.isSome then 1 else if s.mem32 (a + 4) ∈ s.pwr.used then 2 else 0
    s.fwOk c m (f ++ s.bytes (a + 4) 4 ++ s.bytes (a + 0x10) 4 ++ s.bytes (a + 0x0C) 4 ++ [b8 st])
/-- RESUME, before the first SAFEOP. (log 67, DEDUCED) -/
def State.cmdResume (s : State) (c : Nat) (m _p : List Byte) : State :=
  if s.pwr.safeop then s.fwNo c m 0x8006 s.mode
  else if s.pwr.offer.isNone then s.fwNo c m 0x8071 0
  else s.flaskResume.fwOk c m []
/-- DISCARD. -/
def State.cmdDiscard (s : State) (c : Nat) (m _p : List Byte) : State :=
  if s.pwr.offer.isNone then s.fwNo c m 0x8071 0 else s.flaskUse.fwOk c m []
/-- VIN. -/
def State.cmdVin (s : State) (c : Nat) (m p : List Byte) : State := (s.fwSet c PWR_VINCFG (plN p 0 4)).fwOk c m []

/-! ### The line-master service (R372 to R375) -/

/-- An instance holds one of engines 8 to 15. -/
def State.lineBlocked (s : State) : Bool := s.insts.any (fun x => decide (8 < x.2.eng + x.2.engs))
/-- The cycle of the instance an image names is too short for its axes. -/
def State.lineFast (s : State) (img : List Byte) : Bool :=
  let cyc := match s.inst (plN img 6 1) with
    | some x => netCycle x.cfg
    | none => 0
  decide (cyc < lineMin (plN img 2 2))
/-- LINE_CONFIG. (log 65, DEDUCED) -/
def State.cmdLineConfig (s : State) (c : Nat) (m p : List Byte) : State :=
  let r := bufAt p 0
  if s.line.running then s.fwNo c m 0x8082 0
  else if !s.bufOk r || decide (r.2 < 32) then s.fwNo c m 0x8003 0
  else
    let b := s.getBlock r.1 r.2
    if !lineImageOk b then s.fwNo c m 0x8005 0
    else if b.length ≠ 32 + 16 * plN b 2 2 then s.fwNo c m 0x8003 0
    else if s.lineBlocked then s.fwNo c m 0x8031 0
    else if s.lineFast b then s.fwNo c m 0x8080 0
    else
      let s := s.lineTake b
      (if (plN p 8 1).testBit 0 then (s.setLine { s.line with mram := some b }).mramStored 0x30180000 0x30200000 else s).fwOk c m []
/-- LINE_START. -/
def State.cmdLineStart (s : State) (c : Nat) (m _p : List Byte) : State :=
  match s.line.image.or s.line.mram with
  | none => s.fwNo c m 0x8082 0
  | some b =>
    if s.line.running then s.fwNo c m 0x8082 0
    else if s.lineFast b then s.fwNo c m 0x8080 0
    else if s.lineBlocked then s.fwNo c m 0x8031 0
    else (if s.line.holds then s else s.lineTake b).lineRun.fwOk c m []
/-- LINE_STOP, at standstill. (log 65, DEDUCED) -/
def State.cmdLineStop (s : State) (c : Nat) (m _p : List Byte) : State :=
  let w := (s.lauSt s.lineLau).omega
  if !s.line.running ∨ spdOf (s.regN (LAU_MINSPD s.lineLau)) ≤ (if w < 0 then -w else w) then s.fwNo c m 0x8082 0
  else s.lineHalt.fwOk c m []
/-- LINE_SPEED: stored in SAFESTOP, else written to VM_SPD. -/
def State.cmdLineSpeed (s : State) (c : Nat) (m p : List Byte) : State :=
  let v := w32 (plN p 0 4)
  if !s.line.running then s.fwNo c m 0x8082 0
  else if s.mode = modeSAFESTOP then (s.setLine { s.line with stored := some v }).fwOk c m []
  else (s.lineSpeed v).fwOk c m []
/-- LINE_ENGAGE. -/
def State.cmdLineEngage (s : State) (c : Nat) (m p : List Byte) : State :=
  let a := plN p 0 2
  if !s.line.running then s.fwNo c m 0x8082 0
  else if s.line.axes.length ≤ a then s.fwNo c m 0x8005 0
  else if 1 < plN p 2 1 then s.fwNo c m 0x8005 2
  else
    let r := s.axisEngage a (plN p 2 1 == 1)
    if r.2 then r.1.fwOk c m [] else s.fwAns c m 0x8081 (a % 256) (a / 256) []
/-- LINE_PHASE. (log 69, DEDUCED) -/
def State.cmdLinePhase (s : State) (c : Nat) (m p : List Byte) : State :=
  let a := plN p 0 2
  let v := sgn 32 (plN p 4 4)
  let set := plN p 2 1 == 1
  if !s.line.running then s.fwNo c m 0x8082 0
  else if a ≠ 0xFFFF ∧ s.line.axes.length ≤ a then s.fwNo c m 0x8005 0
  else if 1 < plN p 2 1 then s.fwNo c m 0x8005 2
  else
    let axes := s.line.axes.zipIdx.map (fun e =>
      if a = 0xFFFF ∨ a = e.2 then { e.1 with phase := if set then v else e.1.phase + v } else e.1)
    (s.setLine { s.line with axes := axes }).fwOk c m []
/-- LINE_STATUS. -/
def State.cmdLineStatus (s : State) (c : Nat) (m _p : List Byte) : State :=
  let u := s.lineLau
  s.fwOk c m (leBytes 8 ((s.lauSt u).theta / 2 ^ 32) ++ leBytes 4 (s.regN (LAU_SPD u)) ++
    leBytes 2 (s.line.axes.filter (fun x => x.engaged)).length ++ leBytes 2 (s.line.axes.filter (fun x => x.moving)).length ++
    leBytes 4 s.line.ovr ++ leBytes 4 s.line.maxNs)
/-- LINE_AXIS. -/
def State.cmdLineAxis (s : State) (c : Nat) (m p : List Byte) : State :=
  match s.line.axes[plN p 0 2]? with
  | none => s.fwNo c m 0x8005 0
  | some x =>
    s.fwOk c m (leBytes 8 x.last ++ leBytes 4 (uns 32 (x.phi / 2 ^ 96)) ++ leBytes 4 (q1616 x.spd 1000000000) ++
      [b8 (bit x.engaged + 2 * bit x.moving)])

end Sys2Proof.Machine
end

