-- ==== Sys2Proof/Machine/CmdFwDev.lean ====
section
/-! DEFINITION. The meanings of firmware's CAN, NUT, SAFE, DIAG, POWER and line-master commands. -/

namespace Sys2Proof.Machine

open Sys2Proof

/-- CAN_CFG (R367): CAN_CFG writes a controller's configuration through INIT. -/
def execCanCfg (c : Fin 96) (s : State) : Host.Outcome State Fault Refusal :=
  done (s.fwServe c 0x0701 false true [modePREOP] (fixLen 20) State.cmdCanCfg)
/-- TT_LOAD (R367): TT_LOAD writes a controller's time-triggered registers and matrix. -/
def execTtLoad (c : Fin 96) (s : State) : Host.Outcome State Fault Refusal :=
  done (s.fwServe c 0x0702 false true modesPSOXD (fixLen 12) State.cmdTtLoad)
/-- CAN_STATUS (R367): CAN_STATUS returns a controller's status. -/
def execCanStatus (c : Fin 96) (s : State) : Host.Outcome State Fault Refusal :=
  done (s.fwServe c 0x0703 true false anyMode (fixLen 1) State.cmdCanStatus)
/-- TT_RESTART (R367): The TT_RESTART command leaves STARTFAIL. -/
def execTtRestart (c : Fin 96) (s : State) : Host.Outcome State Fault Refusal :=
  done (s.fwServe c 0x0704 false true anyMode (fixLen 1) (State.cmdCanCtrl 8))
/-- CAN_BOREC (R367): The BOREC command starts bus-off recovery. -/
def execCanBorec (c : Fin 96) (s : State) : Host.Outcome State Fault Refusal :=
  done (s.fwServe c 0x0705 false true anyMode (fixLen 1) (State.cmdCanCtrl 5))
/-- CELL_LOAD (R368): CELL_LOAD halts a cell and writes its registers and program. -/
def execCellLoad (c : Fin 96) (s : State) : Host.Outcome State Fault Refusal :=
  done (s.fwServe c 0x0801 false true [modePREOP, modeSAFEOP, modeSAFESTOP, modeDEGRADED] (fixLen 12) State.cmdCellLoad)
/-- CELL_RUN (R368): CELL_RUN halts, enables, arms or starts the cells of a mask. -/
def execCellRun (c : Fin 96) (s : State) : Host.Outcome State Fault Refusal :=
  done (s.fwServe c 0x0802 false true anyMode (fixLen 5) State.cmdCellRun)
/-- CELL_STATUS (R368): CELL_STATUS returns a cell's status, flags and position. -/
def execCellStatus (c : Fin 96) (s : State) : Host.Outcome State Fault Refusal :=
  done (s.fwServe c 0x0803 true false anyMode (fixLen 1) State.cmdCellStatus)
/-- CELL_INJECT (R368): CELL_INJECT injects an instruction into a cell. -/
def execCellInject (c : Fin 96) (s : State) : Host.Outcome State Fault Refusal :=
  done (s.fwServe c 0x0804 false true anyMode (fixLen 4) State.cmdCellInject)
/-- SAFE_STATUS (R369): SAFE STATUS returns Saffron's status, reason, inputs, outputs and check values. -/
def execSafeStatus (c : Fin 96) (s : State) : Host.Outcome State Fault Refusal := done (s.safeServe c 0x0901)
/-- COMMISSION (R274): SAFE COMMISSION with the stored CCV enters COMMISSION (transition 6). -/
def execCommission (c : Fin 96) (s : State) : Host.Outcome State Fault Refusal := done (s.safeServe c 0x0902)
/-- SPB_WRITE (R369): SAFE SPB_WRITE writes bytes of the safety parameter block. -/
def execSpbWrite (c : Fin 96) (s : State) : Host.Outcome State Fault Refusal := done (s.safeServe c 0x0903)
/-- SPB_READ (R369): SAFE SPB_READ returns bytes of the safety parameter block. -/
def execSpbRead (c : Fin 96) (s : State) : Host.Outcome State Fault Refusal := done (s.safeServe c 0x0904)
/-- CCV (R274): SAFE CCV applies R271 and computes the check value in both channels. -/
def execCcv (c : Fin 96) (s : State) : Host.Outcome State Fault Refusal := done (s.safeServe c 0x0905)
/-- CONFIRM (R274): SAFE CONFIRM stores the SPB and CCV in MRAM and leaves COMMISSION by warm reset. -/
def execConfirm (c : Fin 96 × Bool) (s : State) : Host.Outcome State Fault Refusal := done (s.safeServe c.1 0x0906 c.2)
/-- LEAVE (R274): SAFE LEAVE discards the written SPB and restarts Saffron on the stored set. -/
def execLeave (c : Fin 96) (s : State) : Host.Outcome State Fault Refusal := done (s.safeServe c 0x0907)
/-- SAFE_ACK (R256): SAFE ACK leaves the safe state (transition 15) if every condition holds. -/
def execSafeAck (c : Fin 96) (s : State) : Host.Outcome State Fault Refusal := done (s.safeServe c 0x0908)
/-- BRAKE_TEST (R268): SAFE BRAKE_TEST starts a brake test or refuses it. -/
def execBrakeTest (c : Fin 96) (s : State) : Host.Outcome State Fault Refusal := done (s.safeServe c 0x0909)
/-- PATH (R266): SAFE PATH reports a path down or up to the consumer connections. -/
def execPath (c : Fin 96) (s : State) : Host.Outcome State Fault Refusal := done (s.safeServe c 0x090A)
/-- CLEAR (R369): SAFE CLEAR clears the Saffron status counters. -/
def execClear (c : Fin 96) (s : State) : Host.Outcome State Fault Refusal := done (s.safeServe c 0x090B)
/-- LOG_READ (R370): LOG_READ returns fault records. -/
def execLogRead (c : Fin 96) (s : State) : Host.Outcome State Fault Refusal :=
  done (s.fwServe c 0x0A01 true false anyMode (fixLen 2) State.cmdLogRead)
/-- DIAG_ACK (R370): DIAG ACK acknowledges a fault record. -/
def execDiagAck (c : Fin 96) (s : State) : Host.Outcome State Fault Refusal :=
  done (s.fwServe c 0x0A02 false true anyMode (fixLen 1) State.cmdDiagAck)
/-- SAVED_READ (R370): SAVED_READ returns fault records from the offered Flask record. -/
def execSavedRead (c : Fin 96) (s : State) : Host.Outcome State Fault Refusal :=
  done (s.fwServe c 0x0A03 false false [modePREOP] (fixLen 2) State.cmdSavedRead)
/-- MAP (R370): MAP sets a source's class and reaction in COMMISSION. -/
def execMapC (c : Fin 96) (s : State) : Host.Outcome State Fault Refusal :=
  done (s.fwServe c 0x0A04 false true [modeCOMMISSION] (fixLen 4) State.cmdMap)
/-- READ (R370): DIAG READ returns register words read by the serving core. -/
def execReadC (c : Fin 96) (s : State) : Host.Outcome State Fault Refusal := done (s.fwServe c 0x0A05 true false anyMode (fixLen 5) State.cmdRead)
/-- FORCE (R370): DIAG FORCE sets or clears a source's force bit. -/
def execForce (c : Fin 96) (s : State) : Host.Outcome State Fault Refusal := done (s.fwServe c 0x0A06 false true anyMode (fixLen 3) State.cmdForce)
/-- ENTER (R371): POWER ENTER starts transition 16 or 17 and answers at the vote's outcome. -/
def execEnter (c : Fin 96) (s : State) : Host.Outcome State Fault Refusal := done (s.fwServe c 0x0B01 false true modesPX (fixLen 1) State.cmdEnter)
/-- DOMAINS (R371): POWER DOMAINS switches configured domains and SRAM groups. -/
def execDomains (c : Fin 96) (s : State) : Host.Outcome State Fault Refusal :=
  done (s.fwServe c 0x0B02 false true [modePREOP] (fixLen 4) State.cmdDomains)
/-- STROLL_CFG (R371): STROLL_CFG writes the STROLL, wake and vote settings. -/
def execStrollCfg (c : Fin 96) (s : State) : Host.Outcome State Fault Refusal :=
  done (s.fwServe c 0x0B03 false true modesPX (fixLen 44) State.cmdStrollCfg)
/-- FLASK_INFO (R371): FLASK_INFO returns the Flask record's state. -/
def execFlaskInfo (c : Fin 96) (s : State) : Host.Outcome State Fault Refusal :=
  done (s.fwServe c 0x0B04 false false anyMode (fixLen 0) State.cmdFlaskInfo)
/-- RESUME (R322): POWER RESUME restores the offered Flask record and marks it consumed. -/
def execResume (c : Fin 96) (s : State) : Host.Outcome State Fault Refusal :=
  done (s.fwServe c 0x0B05 false true [modePREOP] (fixLen 0) State.cmdResume)
/-- DISCARD (R322): POWER DISCARD marks the offered Flask record consumed. -/
def execDiscard (c : Fin 96) (s : State) : Host.Outcome State Fault Refusal :=
  done (s.fwServe c 0x0B06 false true [modePREOP] (fixLen 0) State.cmdDiscard)
/-- VIN (R371): POWER VIN writes the VIN thresholds. -/
def execVin (c : Fin 96) (s : State) : Host.Outcome State Fault Refusal := done (s.fwServe c 0x0B07 false true anyMode (fixLen 4) State.cmdVin)
/-- LINE_CONFIG (R373): LINE_CONFIG loads the line-shaft master image and takes engines 8–15 and the LAU. -/
def execLineConfig (c : Fin 96) (s : State) : Host.Outcome State Fault Refusal :=
  done (s.fwServe c 0x0681 false true [modePREOP] (fixLen 9) State.cmdLineConfig)
/-- LINE_START (R373): LINE_START starts the line-shaft master service. -/
def execLineStart (c : Fin 96) (s : State) : Host.Outcome State Fault Refusal :=
  done (s.fwServe c 0x0682 false true [modePREOP] (fixLen 0) State.cmdLineStart)
/-- LINE_STOP (R375): LINE_STOP stops the service at standstill and frees its engines. -/
def execLineStop (c : Fin 96) (s : State) : Host.Outcome State Fault Refusal :=
  done (s.fwServe c 0x0683 false true [modePREOP] (fixLen 0) State.cmdLineStop)
/-- LINE_SPEED (R375): LINE_SPEED sets the virtual master's target speed, or stores it in SAFESTOP. -/
def execLineSpeed (c : Fin 96) (s : State) : Host.Outcome State Fault Refusal :=
  done (s.fwServe c 0x0684 true true modesPSOXD (fixLen 4) State.cmdLineSpeed)
/-- LINE_ENGAGE (R374): LINE_ENGAGE engages or disengages an axis. -/
def execLineEngage (c : Fin 96) (s : State) : Host.Outcome State Fault Refusal :=
  done (s.fwServe c 0x0685 true true modesPSOD (fixLen 3) State.cmdLineEngage)
/-- LINE_PHASE (R374): LINE_PHASE adds to or sets an axis's target phase. -/
def execLinePhase (c : Fin 96) (s : State) : Host.Outcome State Fault Refusal :=
  done (s.fwServe c 0x0686 true true modesPSOD (fixLen 8) State.cmdLinePhase)
/-- LINE_STATUS (R375): LINE_STATUS returns the line angle, speed and counts. -/
def execLineStatus (c : Fin 96) (s : State) : Host.Outcome State Fault Refusal :=
  done (s.fwServe c 0x0687 true false anyMode (fixLen 0) State.cmdLineStatus)
/-- LINE_AXIS (R375): LINE_AXIS returns an axis's set-point, phase and state. -/
def execLineAxis (c : Fin 96) (s : State) : Host.Outcome State Fault Refusal :=
  done (s.fwServe c 0x0688 true false anyMode (fixLen 2) State.cmdLineAxis)
/-- LINE_CYCLE (R373): At each cycle start of INST the service projects the angle and writes every axis set-point. -/
def execLineCycle (ns : Word) (s : State) : Host.Outcome State Fault Refusal := done (s.lineCycle ns.toNat)
/-- LINE_OVERRUN (R373): A set-point not written by the frame deadline counts an overrun and sends a LINE notice. -/
def execLineOverrun (s : State) : Host.Outcome State Fault Refusal := done (s.lineOverrun)

end Sys2Proof.Machine
end

