-- ==== Sys2Proof/Machine/CmdHost.lean ====
section
/-! DEFINITION. The meanings of the host port, the mailboxes and the transaction channels. -/

namespace Sys2Proof.Machine

open Sys2Proof

/-- BAR2_WRITE (R325): A host write through BAR2 reaches the Hamper software region, or is ignored with B2WREF. -/
def execBar2Write (o : BitVec 28) (b : List Byte) (s : State) : Host.Outcome State Fault Refusal := done (s.bar2Write o.toNat b)
/-- BAR2_READ (R325): A host read through BAR2 returns Hamper data, zero or a poisoned completion. -/
def execBar2Read (o : BitVec 28) (n : BitVec 13) (bad : Bool) (s : State) : Host.Outcome State Fault Refusal := done (s.bar2Read o.toNat n.toNat bad)
/-- RWDATA_ACCESS (R326): A host access of HOST_RWDATA moves 32 bits at RWADDR and may advance it. -/
def execRwdataAccess (w : Option Word) (s : State) : Host.Outcome State Fault Refusal := done (s.rwAccess w)
/-- SPI_WRITE (R327): An SPI frame with command 0x02 writes words from an address. -/
def execSpiWrite (a : Word) (l : List Word) (s : State) : Host.Outcome State Fault Refusal := done (s.spiWrite a.toNat l)
/-- SPI_READ (R327): An SPI frame with command 0x0B reads words in blocks with status bytes. -/
def execSpiRead (a : Word) (n : BitVec 16) (s : State) : Host.Outcome State Fault Refusal := done (s.spiRead a.toNat n.toNat)
/-- SPI_STATUS (R327): An SPI frame with command 0x05 returns HOST_ERR. -/
def execSpiStatus (s : State) : Host.Outcome State Fault Refusal := done (s.spiStatus)
/-- SPI_RESET (R327): An SPI frame with command 0x99 resets the host port. -/
def execSpiReset (s : State) : Host.Outcome State Fault Refusal := done (s.spiReset)
/-- SPI_FRAME_ERROR (R328): A frame with a partial word, address or unknown command is discarded and raises HOST_LINK. -/
def execSpiFrameError (k : Fin 3) (a : Word) (n : BitVec 16) (l : List Word) (s : State) : Host.Outcome State Fault Refusal :=
  done (s.spiBad k a.toNat n.toNat l)
/-- HOST_LINK_LOSS (R344): A PCIe link-down or lost SPI framing raises HOST_LINK and changes no channel. -/
def execHostLinkLoss (s : State) : Host.Outcome State Fault Refusal := done (s.hostLoss)
/-- FRAME_RING_ENABLE (R329): A write of HOST_FQ CFG.EN starts a ring or stops it and clears its indices. -/
def execFrameRingEnable (m : Master) (q : Fin 2) (v : Word) (s : State) : Host.Outcome State Fault Refusal := done (s.wordWrite m (HOST_FQ_CFG q) v)
/-- PROD_WRITE (R330): A host write of the transmit ring's PROD hands slots to the port. -/
def execProdWrite (m : Master) (v : Word) (s : State) : Host.Outcome State Fault Refusal := done (s.wordWrite m (HOST_FQ_PROD 0) v)
/-- TX_RING_SLOT_SEND (R330): The port sends the frame of the next owned transmit slot into the switch and advances CONS. -/
def execTxRingSlotSend (s : State) : Host.Outcome State Fault Refusal := done (s.fqSend)
/-- CONS_WRITE (R331): A host write of the receive ring's CONS returns slots to the port. -/
def execConsWrite (m : Master) (v : Word) (s : State) : Host.Outcome State Fault Refusal := done (s.wordWrite m (HOST_FQ_CONS 1) v)
/-- SEND (R336): MBX CMD.SEND appends the staging to the channel and stamps it, or is refused. -/
def execSend (m : Master) (c : Fin 96) (s : State) : Host.Outcome State Fault Refusal := done (s.fieldWrite m (MBX_CH_CMD_SEND c) 1)
/-- POP (R336): MBX CMD.POP removes the oldest message, or sets POPEMPTY. -/
def execPop (m : Master) (c : Fin 96) (s : State) : Host.Outcome State Fault Refusal := done (s.fieldWrite m (MBX_CH_CMD_POP c) 1)
/-- FLUSH (R336): MBX CMD.FLUSH empties the channel. -/
def execFlush (m : Master) (c : Fin 96) (s : State) : Host.Outcome State Fault Refusal := done (s.fieldWrite m (MBX_CH_CMD_FLUSH c) 1)
/-- MSIX_MESSAGE (R342): A vector becoming active, or unmasked while pending, sends its MSI-X message. -/
def execMsixMessage (v : Fin 32) (cfg : Fin 8) (s : State) : Host.Outcome State Fault Refusal := done (s.msixSend v cfg)
/-- MDIO_GO (R396): A write of PIN_MDIO.GO runs one clause 22 frame. -/
def execMdioGo (m : Master) (v : Word) (s : State) : Host.Outcome State Fault Refusal := done (s.wordWrite m PIN_MDIO (v ||| 0x80000000#32))
/-- MDIO_FRAME_END (R396): An MDIO frame ends, storing read data and clearing GO. -/
def execMdioFrameEnd (d : BitVec 16) (s : State) : Host.Outcome State Fault Refusal := done (s.mdioEnd d.toNat)
/-- RESPONSE_RETRY (R347): Every 100 µs a response refused at a full return channel is offered again. -/
def execResponseRetry (s : State) : Host.Outcome State Fault Refusal := done (s.respRetry)
/-- TXN_CH_OPEN (R352): TXN CTRL.OPEN opens a transaction on the master's channel. -/
def execTxnChOpen (m : Master) (c : Fin 21) (s : State) : Host.Outcome State Fault Refusal := done (s.fieldWrite m (TXN_CH_CTRL_OPEN c) 1)
/-- TXN_CH_COMMIT (R355): TXN CTRL.COMMIT starts the check of the open transaction. -/
def execTxnChCommit (m : Master) (c : Fin 21) (s : State) : Host.Outcome State Fault Refusal := done (s.fieldWrite m (TXN_CH_CTRL_COMMIT c) 1)
/-- TXN_CH_ROLLBACK (R358): TXN CTRL.ROLLBACK discards the open log or cancels the armed set. -/
def execTxnChRollback (m : Master) (c : Fin 21) (s : State) : Host.Outcome State Fault Refusal := done (s.fieldWrite m (TXN_CH_CTRL_ROLLBACK c) 1)
/-- TXN_CHECK_END (R355): The commit check ends, arming the units or leaving the transaction open with a failure. -/
def execTxnCheckEnd (c : Fin 21) (s : State) : Host.Outcome State Fault Refusal := done (s.txnCheckEnd c)
/-- TXN_APPLY_POINT (R356): An armed set's apply point is reached and its units become eligible. -/
def execTxnApplyPoint (c : Fin 21) (s : State) : Host.Outcome State Fault Refusal := done (s.txnReach c)
/-- ARMMAX_EXPIRY (R357): An angle or network-cycle apply point not reached within ARMMAX seconds cancels the armed set. -/
def execArmmaxExpiry (c : Fin 21) (s : State) : Host.Outcome State Fault Refusal := done (s.txnArmMax c)
/-- TXN_TIMEOUT (R358): An open transaction reaches TIMEOUT ms and rolls back, raising TXN_TIMEOUT. -/
def execTxnTimeout (c : Fin 21) (s : State) : Host.Outcome State Fault Refusal := done (s.txnTimeout c)

end Sys2Proof.Machine
end

