-- ==== Sys2Proof/Machine/EngPort.lean ====
section
/-! DEFINITION. The port space of the engines (R116 to R125, R128, R131, R339, R341): receive window, transmit header, frame control,
dispatcher, mailbox, Itinerary, time, LAU and loop-value regions, the bridge; beats of forwarded frames and originated frames. -/

namespace Sys2Proof.Machine

open Sys2Proof

/-- A private port register of a thread, by its offset. -/
def State.port (s : State) (n t o : Nat) : Word := storeGet (fun _ => 0) (s.thr n t).port o
def State.setPort (s : State) (n t o : Nat) (v : Word) : State :=
  let h := s.thr n t
  s.setThr n t { h with port := storeSet (fun _ => 0) h.port o v }
/-- Thread `t` of engine `n` as a master of the bus. -/
def thrMaster (n t : Nat) : Master := .thread (Fin.ofNat 16 n) (Fin.ofNat 4 t)

/-! ### The receive window (R119 to R122, R139) -/

/-- The bytes of a bound copy that have arrived, as the output sends them (R109). (log 82, DEDUCED) -/
def State.winBytes (s : State) (n : Nat) (w : Win) : List Byte :=
  match s.frm w.copy.frm with
  | none => []
  | some f =>
    if f.ended && !f.failed then withFcs (s.shape (12 + n) w.copy f.data) else s.shape (12 + n) w.copy (f.data ++ [0, 0, 0, 0])
/-- The frame of a bound copy has ended, well or aborted; has failed a check. -/
def State.winEnded (s : State) (w : Win) : Bool := ((s.frm w.copy.frm).map (·.ended)).getD true
def State.winFailed (s : State) (w : Win) : Bool := ((s.frm w.copy.frm).map (·.failed)).getD true
/-- Byte `b` of a bound copy with the thread's accepted writes. (log 81, DEDUCED) -/
def Win.byte (w : Win) (d : List Byte) (b : Nat) : Byte := storeGet (fun i => d.getD i 0) w.wr b
/-- The window of a thread while its item runs. -/
def State.bound (s : State) (n t : Nat) : Option Win := (s.thr n t).win.bind (fun w => if w.done then none else some w)
/-- A window of a thread is changed. -/
def State.setWin (s : State) (n t : Nat) (w : Win) : State := s.setThr n t { s.thr n t with win := some w }

/-- A read of `k` bytes at offset `o` of the receive window; none where it stalls. Nothing is said of a window without a copy: its value is
open. (log 80, DESIGN CHOICE; 81, DEDUCED) -/
def State.winRead (s : State) (n t o k : Nat) : State × Option Word :=
  match s.bound n t with
  | none => (s.drew, some (w32 (s.freeW.toNat % 256 ^ k)))
  | some w =>
    let d := s.winBytes n w
    let b := (s.port n t 0x300).toNat + o
    if d.length ≤ b + k - 1 ∧ !s.winEnded w then (s, none)
    else (s, some (w32 (ofLe ((List.range k).map (fun i => if b + i < d.length then w.byte d (b + i) else 0)))))
/-- A write of `k` bytes at offset `o` of the receive window: accepted, ignored and counted, or false where it stalls, to be accepted once its
highest byte arrives (R120, R139). (log 80, DESIGN CHOICE) -/
def State.winWrite (s : State) (n t o k : Nat) (v : Word) : State × Bool :=
  match s.bound n t with
  | none => (s, true)
  | some w =>
    let L := (s.winBytes n w).length
    let b := (s.port n t 0x300).toNat + o
    let e := b + k - 1
    if L ≤ e ∧ !s.winEnded w then (s.setWin n t { w with hold := some e }, false)
    else if e < L ∧ (L ≤ b + 64 ∨ w.hold = some e) ∧ w.beats ≤ b / 32 then
      let l := (leBytes k v.toNat).zipIdx
      (s.setWin n t { w with hold := none, wr := l.foldl (fun (m : List (Nat × Byte)) e =>
        storeSet (fun i => (s.winBytes n w).getD i 0) m (b + e.2) e.1) w.wr }, true)
    else
      let s := s.setWin n t { w with hold := none }
      let s := s.setPort n t 0x304 (s.port n t 0x304 ||| 0x4000000#32)
      ((s.setFlag (ENG_STAT_LATEWR n) true).countSat (ENG_CNT n 1) 1, true)
/-- RXSTAT. -/
def State.rxStat (s : State) (n t : Nat) : Word :=
  match (s.thr n t).win with
  | none => s.port n t 0x304
  | some w =>
    let e := s.winEnded w && !s.winFailed w
    s.port n t 0x304 ||| w32 (2 ^ 31 * bit (!w.done) + 2 ^ 30 * bit e + 2 ^ 29 * bit (s.winFailed w) + 2 ^ 28 * bit (w.fwd && !w.drained)
      + 2 ^ 27 * bit w.drained + (s.winBytes n w).length % 16384)
/-- RXINFO and RXITS of the bound copy. -/
def State.rxInfo (s : State) (n t : Nat) : Word :=
  match (s.thr n t).win with
  | none => 0
  | some w => w32 (2 ^ 29 * w.copy.itsFrac + 2 ^ 12 * w.copy.src + 2 ^ 9 * w.copy.cls + 2 ^ 8 * bit w.copy.fc.isSome + w.copy.fc.getD 0)
def State.rxIts (s : State) (n t : Nat) : Word := w32 (((s.thr n t).win.map (·.copy.its)).getD 0)
/-- A write of RXBASE: only upward; where bytes that have arrived come into the window it stalls first (R119). -/
def State.rxBase (s : State) (n t : Nat) (v : Word) (again : Bool) : State × Bool :=
  let b := bits v 13 5 * 32
  let old := (s.port n t 0x300).toNat
  if b ≤ old then (s, true)
  else if !again && decide (old + 512 < ((s.bound n t).map (fun w => (s.winBytes n w).length)).getD 0) then (s, false)
  else (s.setPort n t 0x300 (w32 b), true)
/-- A write of RXCMD: FWD starts a forward of the bound copy, again once an earlier one has drained (R121). (log 83, DEDUCED) -/
def State.rxCmd (s : State) (n t : Nat) (v : Word) : State :=
  match s.bound n t with
  | none => s
  | some w => if !v.getLsbD 0 || (w.fwd && !w.drained) || s.winFailed w then s else s.setWin n t { w with fwd := true, drained := false, beats := 0 }

/-! ### Frames that leave an engine (R121 to R124) -/

/-- The source number of what thread `t` of engine `n` sends into the switch. -/
def engKey (n t : Nat) : Nat := 100 + 4 * n + t
/-- A frame that thread `t` of engine `n` starts to send, with the metadata of TXMETA0 to 2. -/
def State.engIngr (s : State) (n t : Nat) : Ingr :=
  let m := s.port n t 0x320
  let mode := bits m 14 13
  let lt := (s.port n t 0x324).toNat + 2 ^ 32 * (s.port n t 0x328).toNat
  { s.ingrNew (12 + n) 0 0 with
    learn := true, fcNamed := if m.getLsbD 8 then some (bits m 7 0) else none,
    clsNamed := if m.getLsbD 12 then some (bits m 11 9) else none,
    ltNamed := if mode = 1 ∨ mode = 2 then (mode, lt, bits m 15 15) else (0, 0, 0) }
/-- The context a forward names sends it through stages 2 to 6 at byte 64. -/
def State.lateStage (s : State) (g : Ingr) : Bool :=
  match g.fcNamed with
  | some c => decide (s.fld (SWX_FC_CFG_CB c) = 1 ∨ s.fld (SWX_FC_CFG_CB c) = 2)
  | none => false
/-- The forwarded frame: the received one with the accepted writes; its FCS is the engine's once the frame has ended. -/
def State.fwdBytes (s : State) (n : Nat) (w : Win) : List Byte :=
  let d := s.winBytes n w
  let x := (List.range d.length).map (fun b => w.byte d b)
  if s.winEnded w then withFcs (noFcs x) else x
/-- Engine `n`'s threads issue: it is powered, out of reset, and runs (R114, R115). -/
def State.engLive (s : State) (n : Nat) : Bool := s.flag (ENG_CTRL_RUN n) && !s.engOff n
/-- A beat of thread `t`'s forward is ready: no write waits for it whose bytes have arrived. -/
def State.fwdReady (s : State) (n t : Nat) : Bool :=
  match (s.thr n t).win with
  | some w => w.fwd && !w.drained && (s.winEnded w || decide (32 * w.beats + 96 ≤ (s.winBytes n w).length))
      && !(s.engLive n && (w.hold.map (fun e => decide (e < (s.winBytes n w).length ∧ e < 32 * w.beats + 36))).getD false)
      && (decide (0 < w.beats) || (s.rxOf (engKey n t)).isNone)
  | none => false
/-- A beat of thread `t`'s originated frame is ready: none of its forward's is on the way (R124). -/
def State.origReady (s : State) (n t : Nat) : Bool :=
  (s.thr n t).tx.isSome && ((s.rxOf (engKey n t)).map (·.learn)).getD true
/-- Thread `t` has a beat ready to release. -/
def State.beatReady (s : State) (n t : Nat) : Bool := s.fwdReady n t || s.origReady n t
/-- Bytes of a beat enter the ingress of source `k`, in the cells they need; none where a cell is not free and the release stalls (R112, R121). -/
def State.beatIn (s : State) (k : Nat) (g : Ingr) (b : List Byte) : Option State :=
  let need := if g.fail then 0 else cellsOf (g.data.length + b.length) - (g.used + g.lent)
  let r := State.takeCells k need (s.setRx k (some { g with data := g.data ++ b }))
  if !r.2 then none
  else match r.1.rxOf k with
    | none => some r.1
    | some h => some ((if h.fail then r.1 else r.1.cellPut h.chain g.data.length b).frmSync k)
/-- Stages 2 to 6 act on the frame of source `k` where it has not passed them and `now` says so; the maximum SDU check follows. -/
def State.beatStage (s : State) (k : Nat) (now : Bool) : State :=
  match s.rxOf k with
  | none => s
  | some g => (if !g.staged && now then s.stage k g.data else s).sduCheck k
/-- The forward of thread `t` has left: the window is drained. -/
def State.winGone (s : State) (n t : Nat) : State :=
  match (s.thr n t).win with
  | some w => (s.setWin n t { w with drained := true }).winFree n t
  | none => s
/-- A beat of thread `t`'s forward is released into staging; the frame ends with its last one. A ring with no cell for it stalls it. A forward
of a frame that has failed ends as R98 gives. (log 84, DEDUCED) -/
def State.beatOf (s : State) (n t : Nat) : State :=
  match (s.thr n t).win with
  | none => s
  | some w =>
    let k := engKey n t
    if s.winFailed w then
      (s.rxDrop k).winGone n t
    else
      let d := s.fwdBytes n w
      let b := slice d (32 * w.beats) 32
      let c := ((s.sentTo (12 + n)).find? (fun y => y.frm == w.copy.frm)).getD w.copy
      let g := (s.rxOf k).getD { s.engIngr n t with learn := false, src := c.src, its := c.its, itsFrac := c.itsFrac,
                                                    rate := if c.src < 12 then some (s.portRate c.src) else none,
                                                    ptpOf := if c.ptp && decide (c.src < 12) then some (c.tdom, c.tin) else none }
      match s.beatIn k g b with
      | none => s
      | some s =>
        let s := s.beatStage k (!s.lateStage g || decide (64 ≤ g.data.length + b.length))
        let s := s.setWin n t { w with beats := w.beats + 1 }
        if s.winEnded w ∧ d.length ≤ 32 * w.beats + 32 then (s.ingrDone k).winGone n t else s
/-- A beat of thread `t`'s originated frame enters staging; with its last one BUSY clears (R123). -/
def State.origBeat (s : State) (n t : Nat) : State :=
  match (s.thr n t).tx with
  | none => s
  | some (f, g0) =>
    let k := engKey n t
    let g := (s.rxOf k).getD g0
    match s.beatIn k g (slice f g.data.length 32) with
    | none => s
    | some s =>
      let s := s.beatStage k (decide (64 ≤ g.data.length + 32))
      if g.data.length + 32 < f.length then s
      else
        let s := s.ingrDone k
        s.setThr n t { s.thr n t with tx := none }
/-- The next beat of engine `n`'s fabric port: threads in turn, of those that have one ready (R124). (log 83, DEDUCED) -/
def State.beatRelease (s : State) (n : Nat) : State :=
  match ((List.range 4).map (fun i => ((s.engSt n).turn + 1 + i) % 4)).find? (fun t => s.beatReady n t) with
  | none => s
  | some t =>
    let s := s.setEng n { s.engSt n with turn := t }
    if s.fwdReady n t then s.beatOf n t else s.origBeat n t

/-- A write of TXCMD: the frame starts to enter staging, or BADLEN; false while one is entering (R123). (log 84, DEDUCED) -/
def State.txCmd (s : State) (n t : Nat) (v : Word) : State × Bool :=
  let h := s.thr n t
  if h.tx.isSome then (s, false) else
  let m := s.port n t 0x32C
  let hl := min 256 (bits m 24 16)
  let len := bits m 13 0
  let a := bits v 16 0
  if 9728 < hl + len + 4 ∨ 131072 < a + len then (s.setPort n t 0x334 2#32, true)
  else
    let b := (List.range hl).map (fun i => storeGet (fun _ => 0) h.hdr i) ++ (s.engSt n).dBytes a len
    let f := withFcs (b ++ List.replicate (60 - b.length) 0)
    (s.setThr n t { h with tx := some (f, s.engIngr n t) }, true)
/-- The fabric port of engine `n` goes on releasing beats, threads in turn, until the last of thread `t`'s originated frame has entered staging,
or no beat of that thread is ready (R112, R123, R124). -/
def State.origRest (n t : Nat) : Nat → State → State
  | 0, s => s
  | m + 1, s => if (s.thr n t).tx.isSome && s.beatReady n t then State.origRest n t m (s.beatRelease n) else s
/-- The last byte of thread `t`'s originated frame enters staging. -/
def State.txStaged (s : State) (n t : Nat) : State := State.origRest n t 2500 s

/-! ### Dispatcher and mailbox regions (R128, R131, R132, R339) -/

/-- The item that POST0 to POST2 spell. -/
def State.postItem (s : State) (n t : Nat) : Item := itemOf 5 (s.port n t 0x414) (s.port n t 0x418) (s.port n t 0x41C)
/-- POSTGO: false, and counted at the first try, where the level is full. -/
def State.postGo (s : State) (n t : Nat) (again : Bool) : State × Bool :=
  let x := s.postItem n t
  if s.itemRoom x then ((s.enqueue x).setPort n t 0x428 0, true) else (if again then s else s.heldCount 5, false)
/-- TRYGO. -/
def State.tryGo (s : State) (n t : Nat) : State :=
  let r := s.swPost (s.postItem n t)
  r.1.setPort n t 0x428 (w32 r.2)
/-- TOKEN. -/
def State.tokenGo (s : State) (n t : Nat) (v : Word) : State :=
  let r := s.addToken (bits v 8 0) (bits v 11 9)
  r.1.setPort n t 0x430 (w32 r.2)

/-- The channels of engine `n`'s send and receive slots. -/
def sendChan (n i : Nat) : Option Nat := if i = 0 then some (24 + n) else if i = 1 then some (56 + n) else if n < 15 then some (72 + n) else none
def recvChan (n i : Nat) : Option Nat := if i = 0 then some (8 + n) else if i = 1 then some (40 + n) else if 0 < n then some (71 + n) else none
/-- A D address a mailbox transfer takes. -/
def mbAddrOk (v : Word) : Bool := decide (bits v 16 0 % 4 = 0 ∧ bits v 16 0 ≤ 131008)
/-- Two bits of a result word. -/
def setRes (w i r : Nat) : Nat := w - w / 4 ^ i % 4 * 4 ^ i + r * 4 ^ i
def State.setSres (s : State) (n i r : Nat) : State := s.setEng n { s.engSt n with sres := setRes (s.engSt n).sres i r }
def State.setRres (s : State) (n i r : Nat) : State := s.setEng n { s.engSt n with rres := setRes (s.engSt n).rres i r }
/-- MBSEND: the message is sent, refused, or there is nothing to do; a copy that starts stalls first. -/
def State.mbSend (s : State) (n i : Nat) (v : Word) (again : Bool) : State × Bool :=
  match sendChan n i, mbAddrOk v with
  | some c, true =>
    if s.chanFull c then ((s.chanRefuse c).setSres n i 1, true)
    else if !again then (s, false)
    else ((s.mbxPush c ((s.engSt n).dBytes (bits v 16 0) 64)).setSres n i 0, true)
  | _, _ => (s.setSres n i 2, true)
/-- MBRECV: the oldest message is copied and popped, as one operation. -/
def State.mbRecv (s : State) (n i : Nat) (v : Word) (again : Bool) : State × Bool :=
  match recvChan n i, mbAddrOk v with
  | some c, true =>
    match s.chan c with
    | [] => (s.setRres n i 1, true)
    | m :: _ =>
      if !again then (s, false)
      else (((s.setEng n ((s.engSt n).setD (bits v 16 0) m)).chanPop c).setRres n i 0, true)
  | _, _ => (s.setRres n i 2, true)
/-- MBCNT. -/
def State.mbCnt (s : State) (n : Nat) : Word :=
  let c (i : Nat) : Nat := match recvChan n i with
    | some k => (s.chan k).length
    | none => 0
  w32 (c 0 + 2 ^ 8 * c 1 + 2 ^ 16 * c 2)
/-- DBRING. -/
def State.dbRing (s : State) (v : Word) : State :=
  s.ring (bits v 7 0) (bits v 12 8)

/-! ### The whole port space (R116) -/

/-- The register a port of the Itinerary, LAU and loop-value regions reaches, with the permission bit of its writes. -/
def State.mirror (s : State) (n t a : Nat) : Option (Nat × Nat) :=
  if 0x4A0 ≤ a ∧ a < 0x4C0 then some (ITIN_SLOT_CTRL ((s.port n t 0x480).toNat) + (a - 0x4A0), 6)
  else if 0x4E0 ≤ a ∧ a < 0x500 ∧ a % 16 < 12 then some (LAU_NET_ANG_LO ((a - 0x4E0) / 16) + a % 16, 5)
  else if 0x500 ≤ a ∧ a < 0x600 then some (LOOP_NV (s.fld (LOOP_NVMAP_BASE n) * 64 + (a - 0x500) / 4), 13)
  else none

/-- A 32-bit read of a port register; none where it stalls. -/
def State.portWord (s : State) (n t a : Nat) (again : Bool) : State × Option Word :=
  if a = 0x304 then (s, some (s.rxStat n t))
  else if a = 0x308 then (s, some (s.rxInfo n t))
  else if a = 0x30C then (s, some (s.rxIts n t))
  else if a = 0x300 ∨ (0x320 ≤ a ∧ a ≤ 0x32C) ∨ (0x414 ≤ a ∧ a ≤ 0x41C) ∨ a = 0x428 ∨ a = 0x430 ∨ a = 0x480 ∨ a = 0x600 then
    (s, some (s.port n t a))
  else if a = 0x334 then (s, some (s.port n t 0x334 ||| w32 (bit (s.thr n t).tx.isSome)))
  else if 0x400 ≤ a ∧ a < 0x410 then (s, some ((((s.thr n t).item.map Item.words).getD []).getD ((a - 0x400) / 4) 0))
  else if a = 0x44C then (s, some (w32 (s.engSt n).sres))
  else if a = 0x45C then (s, some (w32 (s.engSt n).rres))
  else if a = 0x460 then (s, some (s.mbCnt n))
  else if a = 0x464 then (s, some (s.reg (MBX_DB (5 + n))))
  else if 0x4C0 ≤ a ∧ a < 0x4D0 then (s, some (s.reg (TIME_DOM_CYC ((a - 0x4C0) / 4))))
  else if a = 0x604 then
    if again then (let r := s.accRead (thrMaster n t) (s.port n t 0x600).toNat 4; (r.1, some (w32 r.2))) else (s, none)
  else match s.mirror n t a with
    | some (x, _) => (let r := s.regRead (thrMaster n t) x; (r.1, some r.2))
    | none => (s, some 0)
/-- A read of `k` bytes of port space; `again` where the thread has already stalled on it. -/
def State.portRead (s : State) (n t a k : Nat) (again : Bool) : State × Option Word :=
  if a % k ≠ 0 then (s, some 0)
  else if a < 0x200 then s.winRead n t a k
  else if a < 0x300 then (s, some (w32 (ofLe ((List.range k).map (fun i => storeGet (fun _ => 0) (s.thr n t).hdr (a - 0x200 + i))))))
  else if k ≠ 4 then (s, some 0)
  else s.portWord n t a again

/-- A 32-bit write of a port register; false where it stalls. -/
def State.portSet (s : State) (n t a : Nat) (v : Word) (again : Bool) : State × Bool :=
  if a = 0x300 then s.rxBase n t v again
  else if a = 0x304 then (s.setPort n t 0x304 (s.port n t 0x304 &&& ~~~(v &&& 0x4000000#32)), true)
  else if a = 0x310 then (s.rxCmd n t v, true)
  else if a = 0x320 then (s.setPort n t a (v &&& 0xFFFF#32), true)
  else if a = 0x324 ∨ a = 0x328 ∨ a = 0x414 ∨ a = 0x418 ∨ a = 0x41C ∨ a = 0x600 then (s.setPort n t a v, true)
  else if a = 0x32C then (s.setPort n t a (v &&& 0x1FF3FFF#32), true)
  else if a = 0x330 then s.txCmd n t v
  else if a = 0x334 then (s.setPort n t a (s.port n t a &&& ~~~v), true)
  else if a = 0x410 then (s.itemDone n t, true)
  else if a = 0x420 then s.postGo n t again
  else if a = 0x424 then (s.tryGo n t, true)
  else if a = 0x42C then (s.tokenGo n t v, true)
  else if 0x440 ≤ a ∧ a ≤ 0x448 then s.mbSend n ((a - 0x440) / 4) v again
  else if 0x450 ≤ a ∧ a ≤ 0x458 then s.mbRecv n ((a - 0x450) / 4) v again
  else if a = 0x464 then (s.setReg (MBX_DB (5 + n)) (s.reg (MBX_DB (5 + n)) &&& ~~~v), true)
  else if a = 0x470 then (s.dbRing v, true)
  else if a = 0x480 then
    if (s.regN (ENG_PERMW n)).testBit 6 then (s.setPort n t a (v &&& 0x1FF#32), true) else (s.permDeny (thrMaster n t), true)
  else if a = 0x604 then
    if again then (s.accWrite (thrMaster n t) (s.port n t 0x600).toNat 4 v.toNat, true) else (s, false)
  else match s.mirror n t a with
    | some (x, k) =>
      (if (s.regN (ENG_PERMW n)).testBit k then s.regWrite (thrMaster n t) x v else s.permDeny (thrMaster n t), true)
    | none => (if (0x480 ≤ a ∧ a < 0x4C0 ∧ !(s.regN (ENG_PERMW n)).testBit 6) ∨ (0x4E0 ≤ a ∧ a < 0x500 ∧ !(s.regN (ENG_PERMW n)).testBit 5)
      then s.permDeny (thrMaster n t) else s, true)
/-- A write of the low `k` bytes of `v` to port space. (log 85, DEDUCED) -/
def State.portWrite (s : State) (n t a k : Nat) (v : Word) (again : Bool) : State × Bool :=
  if a % k ≠ 0 then (s, true)
  else if a < 0x200 then s.winWrite n t a k v
  else if a < 0x300 then
    let h := s.thr n t
    (s.setThr n t { h with hdr := (leBytes k v.toNat).zipIdx.foldl (fun (m : List (Nat × Byte)) e =>
      storeSet (fun _ => 0) m (a - 0x200 + e.2) e.1) h.hdr }, true)
  else if k ≠ 4 then (s, true)
  else s.portSet n t a v again

/-! ### Threads and port accesses -/

/-- Thread `t` of engine `n` issues in its next slot. -/
def State.canIssue (s : State) (n t : Nat) : Bool :=
  let h := s.thr n t
  s.engLive n && h.run && !h.dead && h.stall.isNone
/-- A stall of thread `t` ends: the slots lost to it are counted (R151, R114). (log 79, DEDUCED) -/
def State.stallOver (s : State) (n t : Nat) : State :=
  let s := s.stallSync n t
  s.setThr n t { s.thr n t with stall := none }
/-- A thread's own access of a port register, outside an instruction: a write of `w`, or a read whose word is answered. It may stall. (log 78, DESIGN CHOICE) -/
def State.portAccess (s : State) (n t a : Nat) (w : Option Word) : State :=
  if !s.canIssue n t then s else
  let wait (s : State) : State := s.setThr n t { s.thr n t with stall := some (.port a w), since := s.time.now }
  match w with
  | some v =>
    let r := s.portWrite n t a 4 v false
    if r.2 then r.1 else wait r.1
  | none =>
    let r := s.portRead n t a 4 false
    match r.2 with
    | some x => { r.1 with rdata := BitVec.ofNat 64 x.toNat }
    | none => wait r.1
/-- A ring by master `m`: a thread's through its own port, another's through MBX_DBRING (R341). -/
def State.dbRingBy (s : State) (m : Master) (v : Word) : State :=
  match m with
  | .thread e t => s.portAccess e t 0x470 (some v)
  | _ => s.wordWrite m MBX_DBRING v
/-- The access that thread `t` stalls on is tried again; the stall ends where it completes. (log 78, DESIGN CHOICE) -/
def State.portRetry (s : State) (n t a : Nat) (w : Option Word) : State :=
  let f := s.stallOver n t
  match w with
  | some v =>
    let r := f.portWrite n t a 4 v true
    if r.2 then r.1 else s
  | none =>
    let r := f.portRead n t a 4 true
    match r.2 with
    | some x => { r.1 with rdata := BitVec.ofNat 64 x.toNat }
    | none => s

end Sys2Proof.Machine
end

