-- ==== Sys2Proof/Machine/Isa.lean ====
section
/-! DEFINITION. How a Bluset thread executes an instruction (R135 to R141, R149 to R159): registers, the load delay, fetch, repetition, traps,
the end of a stall; and the operations its instructions share. -/

namespace Sys2Proof.Machine

open Sys2Proof

/-! ### Encodings (R140, R141) -/

abbrev insOp (w : Word) : Nat := bits w 31 26
abbrev insRd (w : Word) : Nat := bits w 25 21
abbrev insRa (w : Word) : Nat := bits w 20 16
abbrev insRb (w : Word) : Nat := bits w 15 11
/-- fn [10:6], the amount. -/
abbrev insAmt (w : Word) : Nat := bits w 10 6
/-- sx(imm16) and zx(imm16). -/
def insSx (w : Word) : Word := (w.extractLsb' 0 16).signExtend 32
def insZx (w : Word) : Word := (w.extractLsb' 0 16).zeroExtend 32

/-- The number that stands for a reserved encoding. -/
abbrev kIllegal : Nat := 4096
/-- Which instruction a word encodes: 64·op, plus its function in the register formats and its sub in a prefix (R141 to R148, R153). -/
def insKey (w : Word) : Nat :=
  let op := insOp w
  let fn := bits w 5 0
  let sub := insRd w
  if op = 0 then (if fn ≤ 0x12 ∨ (0x20 ≤ fn ∧ fn ≤ 0x25) then fn else kIllegal)
  else if op = 1 ∨ op = 2 then (if fn ≤ 7 then 64 * op + fn else kIllegal)
  else if op = 3 then (if fn ≤ 3 then 64 * op + fn else kIllegal)
  else if op = 4 then (if fn ≤ 4 then 64 * op + fn else kIllegal)
  else if (8 ≤ op ∧ op ≤ 0x2B) ∨ op = 0x3E then 64 * op
  else if op = 0x3F then (if sub ≤ 1 then 64 * op + sub else kIllegal)
  else kIllegal
/-- The instructions a prefix may not stand before (R153). -/
def noRepeat (w : Word) : Bool :=
  let k := insKey w
  decide ((0x20 * 64 ≤ k ∧ k ≤ 0x27 * 64) ∨ k = 4 * 64 + 3 ∨ k = 4 * 64 + 4 ∨ insOp w = 0x3F)

/-! ### Registers and loads (R135, R150) -/

/-- General register `i` of a thread. -/
def Thr.g (x : Thr) (i : Nat) : Word := if i = 0 then 0 else storeGet (fun _ => 0) x.regs i
/-- A load whose value lands before the third instruction after it. -/
def Thr.load (x : Thr) (i : Nat) (v : Word) : Thr := { x with loads := x.loads ++ [(3, i, v)] }
/-- An instruction starts: the loads whose turn has come land, in program order. -/
def Thr.tickLoads (x : Thr) : Thr :=
  let l := x.loads.map (fun e => (e.1 - 1, e.2))
  (l.filter (fun e => e.1 == 0)).foldl (fun (x : Thr) e => x.setG e.2.1 e.2.2) { x with loads := l.filter (fun e => e.1 != 0) }

def State.g (s : State) (n t i : Nat) : Word := (s.thr n t).g i
def State.setG (s : State) (n t i : Nat) (v : Word) : State := s.setThr n t ((s.thr n t).setG i v)
def State.loadG (s : State) (n t i : Nat) (v : Word) : State := s.setThr n t ((s.thr n t).load i v)

/-! ### How an instruction ends -/

/-- What an instruction makes of the state: it is done and the next one follows, done with the program counter given, done with everything
set; it traps with a cause and value; it stalls, on the bridge or not. -/
inductive IRes where
  | next (s : State)
  | goto (s : State) (pc : Nat)
  | set (s : State)
  | trap (cause : Nat) (v : Word)
  | stall (s : State) (bridge : Bool)

/-- The meaning of an instruction word for thread `t` of engine `n`: `bad` where its data read meets an uncorrectable error, `again` where it
has stalled before. -/
abbrev Act := Nat → Nat → Bool → Bool → State → Word → IRes

/-- The instruction is complete: the next one, or the next repetition; the value MTS left for rc is taken with the last (R153, R154). -/
def State.retire (s : State) (n t : Nat) : State :=
  let x := s.thr n t
  if !x.run then s else
  match x.rep with
  | some (k, w) =>
    if k ≤ 1 then s.setThr n t { x with pc := x.pc + 1, rep := none, rc := x.rcNext.getD x.rc, rcNext := none, uop := none }
    else s.setThr n t { x with rep := some (k - 1, w), uop := none }
  | none => s.setThr n t { x with pc := x.pc + 1, uop := none }
/-- The thread goes on at `p`. -/
def State.jumpTo (s : State) (n t p : Nat) : State :=
  s.setThr n t { s.thr n t with pc := p, rep := none, rcNext := none, uop := none }

/-- A trap condition at instruction `epc`, in micro-op `u` of a custom instruction or not (R155, R156); in handler state a double trap (R158). -/
def State.trapAt (s : State) (n t cause : Nat) (v : Word) (epc : Nat) (u : Option Nat) : State :=
  let h := s.thr n t
  let s := if cause = 9 then s.raise (97 + 4 * n) else s
  if h.handler then (s.setThr n t { h with dead := true, run := false, stall := none }).raise (98 + 4 * n)
  else
    let rep := bit h.rep.isSome
    let ec := cause + 256 * rep + (match u with
      | some j => 512 * j + 8192
      | none => 0)
    s.setThr n t { h.landAll with
      handler := true, stall := none, pc := if cause = 6 then 8 else if cause = 7 then 12 else 4, epc := w32 epc, ecause := w32 ec,
      eval := v, erc := (h.rep.map (fun r => w32 r.1)).getD h.erc, rep := none, rcNext := none, uop := none }

/-- The word that thread executes next: the one latched for the repetitions, or the one in instruction memory (R152, R153). (log 87, DESIGN CHOICE) -/
def State.fetchWord (s : State) (n t : Nat) : Word :=
  let h := s.thr n t
  ((h.rep.bind (·.2)).getD (storeGet (fun _ => 0) (s.engSt n).imem h.pc))
/-- The repeated word is latched where it is first fetched. (log 88, DEDUCED) -/
def Thr.latch (x : Thr) (w : Word) : Thr := { x with rep := x.rep.map (fun r => (r.1, some w)) }

/-- Instruction word `w` runs. (log 87, DESIGN CHOICE) -/
def State.runWord (s : State) (n t : Nat) (bad again : Bool) (w : Word) (act : Act) : State :=
  let h := (s.thr n t).latch w
  match act n t bad again (s.setThr n t h.tickLoads) w with
  | .next s => s.retire n t
  | .goto s p => s.jumpTo n t p
  | .set s => s
  | .trap c v => (s.setThr n t h).trapAt n t c v (if c = 8 then h.pc + 1 else h.pc) none
  | .stall r b => r.setThr n t { h with stall := some (.instr w b), since := s.time.now, win := (r.thr n t).win }

/-- Thread `t` of engine `n` issues: nothing where it cannot, or where its next word encodes another instruction than `key`; fetches outside
the memory and lost words trap (R138, R155). -/
def State.issueWith (s : State) (n t key : Nat) (fe : Bool) (run : State → Word → State) : State :=
  if !s.canIssue n t then s else
  let h := s.thr n t
  if (h.rep.bind (·.2)).isNone ∧ 16384 ≤ h.pc then s.trapAt n t 2 (w32 h.pc) h.pc none
  else if (h.rep.bind (·.2)).isNone ∧ fe then s.trapAt n t 9 (w32 h.pc) h.pc none
  else
    let w := s.fetchWord n t
    if insKey w ≠ key then s else run s w
/-- An instruction of thread `t`. -/
def State.issue (s : State) (n t : Nat) (ecc : EccAt) (key : Nat) (act : Act) : State :=
  s.issueWith n t key (ecc == .fetch) (fun s w => s.runWord n t (ecc == .data) false w act)

/-! ### Arithmetic (R142 to R144, R147) -/

/-- An instruction of the register format: rd from ra, rb, the old rd and the word. -/
def aluR (f : Word → Word → Word → Word → Word) : Act := fun n t _ _ s w =>
  .next (s.setG n t (insRd w) (f (s.g n t (insRa w)) (s.g n t (insRb w)) (s.g n t (insRd w)) w))
/-- An instruction of the immediate format: rd from ra and the word. -/
def aluI (f : Word → Word → Word) : Act := fun n t _ _ s w => .next (s.setG n t (insRd w) (f (s.g n t (insRa w)) w))
/-- 1 or 0. -/
def flagW (b : Bool) : Word := if b then 1 else 0
/-- The shift amount in bits [4:0]. -/
def amt5 (b : Word) : Nat := b.toNat % 32
/-- The high word of a product of integers. -/
def mulHi (a b : Int) : Word := w32 (uns 64 (a * b) / 2 ^ 32)
/-- Quotients and remainders (R143). -/
def divS (a b : Word) : Word := if b = 0 then 0xFFFFFFFF#32 else w32 (uns 32 (a.toInt.tdiv b.toInt))
def divU (a b : Word) : Word := if b = 0 then 0xFFFFFFFF#32 else w32 (a.toNat / b.toNat)
def remS (a b : Word) : Word := if b = 0 then a else w32 (uns 32 (a.toInt.tmod b.toInt))
def remU (a b : Word) : Word := if b = 0 then a else w32 (a.toNat % b.toNat)
/-- The bytes of a word in reverse order. -/
def bswap (a : Word) : Word := w32 (ofBe (leBytes 4 a.toNat))
/-- The bytes of each half-word exchanged. -/
def bswapH (a : Word) : Word := w32 (ofBe (leBytes 2 a.toNat) + 65536 * ofBe (leBytes 2 (a.toNat / 65536)))
/-- The number of leading zeros; of ones. -/
def clz32 (a : Word) : Nat := ((List.range 32).find? (fun i => a.getLsbD (31 - i))).getD 32
def popc32 (a : Word) : Nat := (List.range 32).foldl (fun n i => n + bit (a.getLsbD i)) 0
/-- The field of `ra` that EXTU and EXTS read, and its width. -/
def extField (a w : Word) : Nat := a.toNat / 2 ^ insAmt w % 2 ^ (insRb w + 1)
def extU (a w : Word) : Word := w32 (extField a w)
def extS (a w : Word) : Word := w32 (uns 32 (sgn (insRb w + 1) (extField a w)))
/-- INS. -/
def insW (a d w : Word) : Word :=
  let m := w32 ((2 ^ (insRb w + 1) - 1) * 2 ^ insAmt w)
  (d &&& ~~~ m) ||| (w32 (a.toNat * 2 ^ insAmt w) &&& m)
/-- One bit, and one byte, of CRCB. -/
def crcbBit (p d : Word) : Word := (d >>> 1) ^^^ (if d.getLsbD 0 then p else 0)
def crcb (a p d : Word) : Word := (List.range 8).foldl (fun d _ => crcbBit p d) (d ^^^ (a &&& 0xFF#32))

/-! ### D space and instruction memory (R138, R145, R147) -/

/-- The trap an access of `k` bytes of D space at `a` meets. -/
def dTrap (a k : Nat) : Option Nat := if a % k ≠ 0 then some 4 else if 131071 < a then some 3 else none
/-- The bytes of D space as a number. -/
def State.dRead (s : State) (n a k : Nat) : Nat := ofLe ((s.engSt n).dBytes a k)
def State.dWrite (s : State) (n a k : Nat) (v : Word) : State := s.setEng n ((s.engSt n).setD a (leBytes k v.toNat))
/-- A read value of `k` bytes as a register takes it. -/
def extend (sx : Bool) (k v : Nat) : Word := if sx then w32 (uns 32 (sgn (8 * k) v)) else w32 v
/-- The address of a data instruction. -/
def State.ea (s : State) (n t : Nat) (w : Word) : Word := s.g n t (insRa w) + insSx w
/-- A load of `k` bytes from D space. -/
def loadD (k : Nat) (sx : Bool) : Act := fun n t bad _ s w =>
  let a := s.ea n t w
  match dTrap a.toNat k with
  | some c => .trap c a
  | none => if bad then .trap 9 a else .next (s.loadG n t (insRd w) (extend sx k (s.dRead n a.toNat k)))
/-- A store of `k` bytes to D space. -/
def storeD (k : Nat) : Act := fun n t _ _ s w =>
  let a := s.ea n t w
  match dTrap a.toNat k with
  | some c => .trap c a
  | none => .next (s.dWrite n a.toNat k (s.g n t (insRd w)))
/-- LDP and STP. -/
def loadPost : Act := fun n t bad _ s w =>
  let a := s.g n t (insRa w)
  match dTrap a.toNat 4 with
  | some c => .trap c a
  | none => if bad then .trap 9 a else
      .next ((s.loadG n t (insRd w) (w32 (s.dRead n a.toNat 4))).setG n t (insRa w) (a + insSx w))
def storePost : Act := fun n t _ _ s w =>
  let a := s.g n t (insRa w)
  match dTrap a.toNat 4 with
  | some c => .trap c a
  | none => .next ((s.dWrite n a.toNat 4 (s.g n t (insRd w))).setG n t (insRa w) (a + insSx w))
/-- An ATOM instruction: the old word to rd, the new one to D[ra]. -/
def atom (f : Word → Word → Word) : Act := fun n t bad _ s w =>
  let a := s.g n t (insRa w)
  match dTrap a.toNat 4 with
  | some c => .trap c a
  | none => if bad then .trap 9 a else
      let old := w32 (s.dRead n a.toNat 4)
      .next ((s.dWrite n a.toNat 4 (f old (s.g n t (insRb w)))).loadG n t (insRd w) old)
/-- LDI and STI. -/
def loadI : Act := fun n t bad _ s w =>
  let a := s.ea n t w
  if 16384 ≤ a.toNat then .trap 2 a else if bad then .trap 9 a else
  .next (s.loadG n t (insRd w) (storeGet (fun _ => 0) (s.engSt n).imem a.toNat))
def storeI : Act := fun n t _ _ s w =>
  let a := s.ea n t w
  if 16384 ≤ a.toNat then .trap 2 a else .next (s.setEng n ((s.engSt n).setWord 0 (4 * a.toNat) (s.g n t (insRd w))))

/-! ### Port space (R116, R138, R139, R147) -/

/-- A read of `k` bytes of port space at `a` into rd, then `post`. -/
def inAt (n t k : Nat) (again : Bool) (s : State) (a : Word) (rd : Nat) (post : State → State) : IRes :=
  if 4095 < a.toNat then .trap 5 a else
  let r := s.portRead n t a.toNat k again
  match r.2 with
  | some v => .next (post (r.1.loadG n t rd v))
  | none => .stall r.1 (a.toNat == 0x604)
/-- A write of `k` bytes of port space at `a`, then `post`. -/
def outAt (n t k : Nat) (again : Bool) (s : State) (a v : Word) (post : State → State) : IRes :=
  if 4095 < a.toNat then .trap 5 a else
  let r := s.portWrite n t a.toNat k v again
  if r.2 then .next (post r.1) else .stall r.1 (a.toNat == 0x604)
/-- INB, INH, IN; OUTB, OUTH, OUT. -/
def inP (k : Nat) : Act := fun n t _ again s w => inAt n t k again s (s.ea n t w) (insRd w) (fun s => s)
def outP (k : Nat) : Act := fun n t _ again s w => outAt n t k again s (s.ea n t w) (s.g n t (insRd w)) (fun s => s)
/-- INP and OUTP. -/
def inPost : Act := fun n t _ again s w =>
  let a := s.g n t (insRa w)
  inAt n t 4 again s a (insRd w) (fun s => s.setG n t (insRa w) (a + insSx w))
def outPost : Act := fun n t _ again s w =>
  let a := s.g n t (insRa w)
  outAt n t 4 again s a (s.g n t (insRd w)) (fun s => s.setG n t (insRa w) (a + insSx w))

/-! ### Control transfers (R148, R159) -/

/-- The target of a branch; outside the memory it traps. -/
def branchTo (s : State) (n t : Nat) (w : Word) : IRes :=
  let p := w32 ((s.thr n t).pc + 1) + insSx w
  if 16384 ≤ p.toNat then .trap 2 p else .goto s p.toNat
/-- BZ and BNZ. -/
def branchIf (c : Word → Bool) : Act := fun n t _ _ s w => if c (s.g n t (insRa w)) then branchTo s n t w else .next s
/-- DBNZ. -/
def dbnz : Act := fun n t _ _ s w =>
  let v := s.g n t (insRd w) - 1
  let s := s.setG n t (insRd w) v
  if (s.g n t (insRd w)) ≠ 0 then branchTo s n t w else .next s
/-- A jump to the number `p`. -/
def jumpN (s : State) (p : Nat) : IRes := if 16384 ≤ p then .trap 2 (w32 p) else .goto s p
/-- A call of `p`. (log 90, DEDUCED) -/
def callN (s : State) (n t p : Nat) : IRes :=
  let x := s.thr n t
  if 16384 ≤ p then .trap 2 (w32 p)
  else if 32 ≤ x.rs.length then .trap 6 (w32 p)
  else .goto (s.setThr n t { x with rs := (x.pc + 1) % 16384 :: x.rs }) p
/-- imm26 of the J format. -/
def imm26 (w : Word) : Nat := bits w 25 0
def jumpI : Act := fun _ _ _ _ s w => jumpN s (imm26 w)
def jumpR : Act := fun n t _ _ s w => jumpN s (s.g n t (insRa w)).toNat
def callI : Act := fun n t _ _ s w => callN s n t (imm26 w)
def callReg : Act := fun n t _ _ s w => callN s n t (s.g n t (insRa w)).toNat
def retI : Act := fun n t _ _ s _ =>
  let x := s.thr n t
  match x.rs with
  | [] => .trap 7 0
  | p :: l => .goto (s.setThr n t { x with rs := l }) p

/-! ### Specials, traps, prefixes (R136, R146, R153 to R157) -/

/-- The ENG_CLK cycle of thread `t`'s slot: 0.8 cycles per ns since the release of reset. (log 91, DEDUCED) -/
def State.engCyc (s : State) (n t : Nat) : Word := w32 ((s.time.now - (s.engSt n).born) * 4 / 5 / 4 * 4 + t)
/-- The thread identity. -/
def State.tid (s : State) (n t : Nat) : Word :=
  w32 (4096 * clusterLog (s.regN DISP_CLCFG) n + 256 * s.clusterOf n + 16 * n + t)
/-- A read of special `i`: its value, and what the read does. -/
def State.special (s : State) (n t i : Nat) : State × Word :=
  let x := s.thr n t
  match i with
  | 0 => (s, x.rc)
  | 1 => (s, s.tid n t)
  | 2 => (s, s.engCyc n t)
  | 3 => (s, x.ts)
  | 4 => (s, w32 x.tsf)
  | 8 => (s, x.epc)
  | 9 => (s, x.ecause)
  | 10 => (s, x.eval)
  | 11 => (s, x.erc)
  | 12 => (s, w32 x.rs.length)
  | 13 => (s.setThr n t { x with rs := x.rs.dropLast }, w32 (x.rs.getLastD 0))
  | _ => (s, 0)
/-- A write of special `i`. A repeated write of rc waits for the last repetition (R154). -/
def Thr.setSpecial (x : Thr) (i : Nat) (v : Word) : Thr :=
  match i with
  | 0 => if x.rep.isSome then { x with rcNext := some v } else { x with rc := v }
  | 8 => { x with epc := v }
  | 9 => { x with ecause := v &&& 0x3FFF#32 }
  | 10 => { x with eval := v }
  | 11 => { x with erc := v }
  | 13 => if 32 ≤ x.rs.length then x else { x with rs := x.rs ++ [bits v 13 0] }
  | _ => x
def mfs : Act := fun n t _ _ s w =>
  let r := s.special n t (insRa w)
  .next (r.1.setG n t (insRd w) r.2)
def mts : Act := fun n t _ _ s w => .next (s.setThr n t ((s.thr n t).setSpecial (insRd w) (s.g n t (insRa w))))
def snap : Act := fun n t _ _ s _ => .next (s.setThr n t (s.latchTs (s.thr n t)))
def trapI : Act := fun _ _ _ _ _ w => .trap 8 (w32 (insAmt w))
def illegal : Act := fun _ _ _ _ _ w => .trap 1 w
/-- RETT. -/
def rett : Act := fun n t _ _ s w =>
  let x := (s.thr n t).landAll
  if !x.handler then .trap 1 w else
  let rep := x.ecause.getLsbD 8
  let skip := rep && decide (x.erc = 0)
  .set (s.setThr n t { x with
    handler := false, ecause := x.ecause &&& 0xFFFFDEFF#32, pc := x.epc.toNat + bit skip,
    rep := if rep && !skip then some (x.erc.toNat, none) else none, rcNext := none,
    uop := if x.ecause.getLsbD 13 && !skip then some (bits x.ecause 12 9, false) else none })
/-- A prefix with count `c`: `bad` where the word that follows is lost. (log 88, DEDUCED) -/
def repeatN (c : State → Nat → Nat → Word → Nat) : Act := fun n t bad _ s w =>
  let x := s.thr n t
  let p := x.pc + 1
  if bad then .trap 9 (w32 p) else if 16384 ≤ p then .trap 2 (w32 p) else
  let i : Word := storeGet (fun _ => 0) (s.engSt n).imem p
  if noRepeat i then .trap 1 i else
  let k := c s n t w
  .set (s.setThr n t { x with pc := if k = 0 then p + 1 else p, rep := if k = 0 then none else some (k, some i), uop := none })

end Sys2Proof.Machine
end

