-- ==== Sys2Proof/Machine/IsaCust.lean ====
section
/-! DEFINITION. Custom instructions (R160 to R163), and the end of a thread's stall (R151). -/

namespace Sys2Proof.Machine

open Sys2Proof

/-- What selector `i` reads, for the custom instruction word `w` (R161). -/
def Thr.sel (x : Thr) (w : Word) (i : Nat) : Word :=
  match i with
  | 1 => x.g (bits w 20 16)
  | 2 => x.g (bits w 15 11)
  | 3 => x.g (bits w 10 6)
  | 4 => storeGet (fun _ => 0) x.temps 0
  | 5 => storeGet (fun _ => 0) x.temps 1
  | 6 => storeGet (fun _ => 0) x.temps 2
  | 7 => storeGet (fun _ => 0) x.temps 3
  | 8 => w32 (bits w 5 0)
  | 9 => w32 (uns 32 (sgn 6 (bits w 5 0)))
  | _ => 0
/-- The register a selector writes, where it is one: the temporaries stand above the general registers, as 32 to 35. -/
def selReg (w : Word) (i : Nat) : Option Nat :=
  match i with
  | 1 => some (bits w 20 16)
  | 2 => some (bits w 15 11)
  | 3 => some (bits w 10 6)
  | 4 => some 32
  | 5 => some 33
  | 6 => some 34
  | 7 => some 35
  | _ => none
/-- A selector takes a value. -/
def Thr.setSel (x : Thr) (w : Word) (i : Nat) (v : Word) : Thr :=
  match selReg w i with
  | some r => x.setG r v
  | none => x
/-- A load through a selector: after three instructions it lands. -/
def Thr.loadSel (x : Thr) (w : Word) (i : Nat) (v : Word) : Thr :=
  match selReg w i with
  | some r => x.load r v
  | none => x

/-- What the micro-op word `u` does where it is an ALU operation (R162). -/
def uAlu (op : Nat) (a b : Word) : Option Word :=
  match op with
  | 0x00 => some (a + b)
  | 0x01 => some (a - b)
  | 0x02 => some (a &&& b)
  | 0x03 => some (a ||| b)
  | 0x04 => some (a ^^^ b)
  | 0x05 => some (a <<< amt5 b)
  | 0x06 => some (a >>> amt5 b)
  | 0x07 => some (a.sshiftRight (amt5 b))
  | 0x08 => some (flagW (a == b))
  | 0x09 => some (flagW (a.slt b))
  | 0x0A => some (flagW (a.ult b))
  | 0x0B => some (a * b)
  | 0x0C => some (bswap a)
  | _ => none

/-- How a micro-op ends: done, and the next one skipped or not; a trap; a stall. -/
inductive URes where
  | next (s : State) (skip : Bool)
  | trap (cause : Nat) (v : Word)
  | stall (s : State) (bridge : Bool)

/-- A data micro-op of `k` bytes at address `a`. -/
def uData (s : State) (n t : Nat) (w u a : Word) (op : Nat) (bad : Bool) : URes :=
  let k := if op = 0x0D ∨ op = 0x0E then 4 else 1
  match dTrap a.toNat k with
  | some c => .trap c a
  | none =>
    let x := s.thr n t
    if op = 0x0D ∨ op = 0x0F then
      if bad then .trap 9 a else .next (s.setThr n t (x.loadSel w (bits u 26 23) (w32 (s.dRead n a.toNat k)))) false
    else .next (s.dWrite n a.toNat k (x.sel w (bits u 18 15))) false
/-- A port micro-op at address `a`. -/
def uPort (s : State) (n t : Nat) (w u a : Word) (op : Nat) (again : Bool) : URes :=
  let k := if op = 0x11 ∨ op = 0x12 then 4 else 1
  if 4095 < a.toNat then .trap 5 a
  else if op = 0x11 ∨ op = 0x13 then
    let r := s.portRead n t a.toNat k again
    match r.2 with
    | some v => .next (r.1.setThr n t ((r.1.thr n t).loadSel w (bits u 26 23) v)) false
    | none => .stall r.1 (a.toNat == 0x604)
  else
    let r := s.portWrite n t a.toNat k ((s.thr n t).sel w (bits u 18 15)) again
    if r.2 then .next r.1 false else .stall r.1 (a.toNat == 0x604)
/-- Micro-op word `u` of custom instruction `w`. (log 89, DEDUCED) -/
def microOp (s : State) (n t : Nat) (w u : Word) (bad again : Bool) : URes :=
  let x := s.thr n t
  let op := bits u 31 27
  let a := x.sel w (bits u 22 19)
  let k := w32 (uns 32 (sgn 14 (bits u 13 0)))
  let b := if u.getLsbD 14 then k else x.sel w (bits u 18 15)
  match uAlu op a b with
  | some v => .next (s.setThr n t (x.setSel w (bits u 26 23) v)) false
  | none =>
    if op ≤ 0x10 then uData s n t w u (a + k) op bad
    else if op ≤ 0x14 then uPort s n t w u (a + k) op again
    else if op = 0x15 then .next s (a == 0)
    else if op = 0x16 then .next s (a != 0)
    else .trap 1 u

/-- Micro-ops from `j`, the last being `last`, of the sequence at `start`: `um` names the micro-op whose microcode word, or data read, meets an
uncorrectable error. Loads count each micro-op (R150, R163). -/
def microRun (n t : Nat) (w : Word) (start last : Nat) (um : Option (Fin 16 × Bool)) : Nat → State → Nat → Bool → Bool → State
  | 0, s, _, _, _ => s.retire n t
  | f + 1, s, j, skip, again =>
    if last < j then s.retire n t else
    let lost := um.map (fun x => (x.1.val, x.2))
    if lost = some (j, false) then s.trapAt n t 9 (w32 (4 * (start + j))) (s.thr n t).pc (some j) else
    let h := s.thr n t
    let u : Word := storeGet (fun _ => 0) (s.engSt n).ucode (start + j)
    let r := s.setThr n t h.tickLoads
    if skip then microRun n t w start last um f r (j + 1) false false
    else
      match microOp r n t w u (lost == some (j, true)) again with
      | .next s2 k =>
        if (s2.thr n t).run then microRun n t w start last um f s2 (j + 1) k false else s2
      | .trap c v => s.trapAt n t c v h.pc (some j)
      | .stall s2 b => s2.setThr n t { h with stall := some (.instr w b), since := s.time.now, uop := some (j, false), win := (s2.thr n t).win }
/-- The custom instruction `w` runs, from its first micro-op or from the one at which a trap or a stall left it (R157, R160, R163). (log 89, DEDUCED) -/
def State.custom (s : State) (n t : Nat) (w : Word) (um : Option (Fin 16 × Bool)) (again : Bool) : State :=
  let h := (s.thr n t).latch w
  let e : Word := storeGet (fun _ => 0) (s.engSt n).table (bits w 25 21)
  let start := bits e 8 0
  let last := bits e 12 9
  if !e.getLsbD 13 ∨ 511 < start + last then (s.setThr n t h).trapAt n t 1 w h.pc none
  else match h.uop with
    | some (j, k) => microRun n t w start last um 17 (s.setThr n t h) j k again
    | none => microRun n t w start last um 17 (s.setThr n t { h with temps := [] }) 0 false again

/-- The port instruction with primary opcode `op`. -/
def portAct (op : Nat) : Option Act :=
  match op with
  | 0x1A => some (inP 1)
  | 0x1B => some (inP 2)
  | 0x1C => some (inP 4)
  | 0x1D => some (outP 1)
  | 0x1E => some (outP 2)
  | 0x1F => some (outP 4)
  | 0x2A => some inPost
  | 0x2B => some outPost
  | _ => none
/-- The first slot of a stalled thread after what it awaits: its access is tried again, and nothing happens where it stalls still (R151). (log 79, DEDUCED; 91, DEDUCED) -/
def State.stallEnd (s : State) (n t : Nat) (um : Option (Fin 16 × Bool)) : State :=
  let h := s.thr n t
  if !s.engLive n || !h.run || h.dead then s else
  match h.stall with
  | none => s
  | some (.port a w) => s.portRetry n t a w
  | some (.instr w _) =>
    let f := s.stallOver n t
    let r := if insOp w = 0x3E then f.custom n t w um true else match portAct (insOp w) with
      | some act => f.runWord n t false true w act
      | none => f
    if (r.thr n t).stall.isSome && (r.thr n t).uop == h.uop then s else r

end Sys2Proof.Machine
end

