-- ==== Sys2Proof/Machine/CmdIsa.lean ====
section
/-! DEFINITION. The meanings of the Bluset instructions of the register formats, and of a stall's end. -/

namespace Sys2Proof.Machine

open Sys2Proof

/-- THREAD_STALL_END (R151): A stalled thread's instruction completes in its first slot after the awaited byte, room or bridge completion. -/
def execThreadStallEnd (e : Fin 16) (t : Fin 4) (um : Option (Fin 16 × Bool)) (s : State) : Host.Outcome State Fault Refusal :=
  done (s.stallEnd e t um)
/-- ADD (R142): rd = ra + rb. -/
def execAddC (e : Fin 16) (t : Fin 4) (ecc : EccAt) (s : State) : Host.Outcome State Fault Refusal :=
  done (s.issue e t ecc 0 (aluR (fun a b _ _ => a + b)))
/-- SUB (R142): rd = ra − rb. -/
def execSubC (e : Fin 16) (t : Fin 4) (ecc : EccAt) (s : State) : Host.Outcome State Fault Refusal :=
  done (s.issue e t ecc 1 (aluR (fun a b _ _ => a - b)))
/-- AND (R142): rd = ra & rb. -/
def execAndC (e : Fin 16) (t : Fin 4) (ecc : EccAt) (s : State) : Host.Outcome State Fault Refusal :=
  done (s.issue e t ecc 2 (aluR (fun a b _ _ => a &&& b)))
/-- OR (R142): rd = ra | rb. -/
def execOrC (e : Fin 16) (t : Fin 4) (ecc : EccAt) (s : State) : Host.Outcome State Fault Refusal :=
  done (s.issue e t ecc 3 (aluR (fun a b _ _ => a ||| b)))
/-- XOR (R142): rd = ra ^ rb. -/
def execXorC (e : Fin 16) (t : Fin 4) (ecc : EccAt) (s : State) : Host.Outcome State Fault Refusal :=
  done (s.issue e t ecc 4 (aluR (fun a b _ _ => a ^^^ b)))
/-- ANDN (R142): rd = ra & ~rb. -/
def execAndn (e : Fin 16) (t : Fin 4) (ecc : EccAt) (s : State) : Host.Outcome State Fault Refusal :=
  done (s.issue e t ecc 5 (aluR (fun a b _ _ => a &&& ~~~b)))
/-- SLL (R142): rd = ra shifted left by rb [4:0]. -/
def execSll (e : Fin 16) (t : Fin 4) (ecc : EccAt) (s : State) : Host.Outcome State Fault Refusal :=
  done (s.issue e t ecc 6 (aluR (fun a b _ _ => a <<< amt5 b)))
/-- SRL (R142): rd = ra shifted right by rb [4:0] with zero fill. -/
def execSrl (e : Fin 16) (t : Fin 4) (ecc : EccAt) (s : State) : Host.Outcome State Fault Refusal :=
  done (s.issue e t ecc 7 (aluR (fun a b _ _ => a >>> amt5 b)))
/-- SRA (R142): rd = ra shifted right by rb [4:0] with sign fill. -/
def execSra (e : Fin 16) (t : Fin 4) (ecc : EccAt) (s : State) : Host.Outcome State Fault Refusal :=
  done (s.issue e t ecc 8 (aluR (fun a b _ _ => a.sshiftRight (amt5 b))))
/-- ROR (R142): rd = ra rotated right by rb [4:0]. -/
def execRor (e : Fin 16) (t : Fin 4) (ecc : EccAt) (s : State) : Host.Outcome State Fault Refusal :=
  done (s.issue e t ecc 9 (aluR (fun a b _ _ => a.rotateRight (amt5 b))))
/-- SLLI (R142): rd = ra shifted left by fn [10:6]. -/
def execSlli (e : Fin 16) (t : Fin 4) (ecc : EccAt) (s : State) : Host.Outcome State Fault Refusal :=
  done (s.issue e t ecc 10 (aluR (fun a _ _ w => a <<< insAmt w)))
/-- SRLI (R142): rd = ra shifted right by fn [10:6] with zero fill. -/
def execSrli (e : Fin 16) (t : Fin 4) (ecc : EccAt) (s : State) : Host.Outcome State Fault Refusal :=
  done (s.issue e t ecc 11 (aluR (fun a _ _ w => a >>> insAmt w)))
/-- SRAI (R142): rd = ra shifted right by fn [10:6] with sign fill. -/
def execSrai (e : Fin 16) (t : Fin 4) (ecc : EccAt) (s : State) : Host.Outcome State Fault Refusal :=
  done (s.issue e t ecc 12 (aluR (fun a _ _ w => a.sshiftRight (insAmt w))))
/-- RORI (R142): rd = ra rotated right by fn [10:6]. -/
def execRori (e : Fin 16) (t : Fin 4) (ecc : EccAt) (s : State) : Host.Outcome State Fault Refusal :=
  done (s.issue e t ecc 13 (aluR (fun a _ _ w => a.rotateRight (insAmt w))))
/-- MIN (R142): rd = signed minimum of ra and rb. -/
def execMin (e : Fin 16) (t : Fin 4) (ecc : EccAt) (s : State) : Host.Outcome State Fault Refusal :=
  done (s.issue e t ecc 14 (aluR (fun a b _ _ => if a.slt b then a else b)))
/-- MAX (R142): rd = signed maximum of ra and rb. -/
def execMax (e : Fin 16) (t : Fin 4) (ecc : EccAt) (s : State) : Host.Outcome State Fault Refusal :=
  done (s.issue e t ecc 15 (aluR (fun a b _ _ => if a.slt b then b else a)))
/-- MINU (R142): rd = unsigned minimum of ra and rb. -/
def execMinu (e : Fin 16) (t : Fin 4) (ecc : EccAt) (s : State) : Host.Outcome State Fault Refusal :=
  done (s.issue e t ecc 16 (aluR (fun a b _ _ => if a.ult b then a else b)))
/-- MAXU (R142): rd = unsigned maximum of ra and rb. -/
def execMaxu (e : Fin 16) (t : Fin 4) (ecc : EccAt) (s : State) : Host.Outcome State Fault Refusal :=
  done (s.issue e t ecc 17 (aluR (fun a b _ _ => if a.ult b then b else a)))
/-- SEL (R142): rd = ra if the old rd is nonzero, otherwise rb. -/
def execSel (e : Fin 16) (t : Fin 4) (ecc : EccAt) (s : State) : Host.Outcome State Fault Refusal :=
  done (s.issue e t ecc 18 (aluR (fun a b d _ => if d = 0 then b else a)))
/-- CEQ (R142): rd = 1 if ra equals rb, else 0. -/
def execCeq (e : Fin 16) (t : Fin 4) (ecc : EccAt) (s : State) : Host.Outcome State Fault Refusal :=
  done (s.issue e t ecc 32 (aluR (fun a b _ _ => flagW (a == b))))
/-- CNE (R142): rd = 1 if ra differs from rb, else 0. -/
def execCne (e : Fin 16) (t : Fin 4) (ecc : EccAt) (s : State) : Host.Outcome State Fault Refusal :=
  done (s.issue e t ecc 33 (aluR (fun a b _ _ => flagW (a != b))))
/-- CLT (R142): rd = 1 if ra < rb signed, else 0. -/
def execClt (e : Fin 16) (t : Fin 4) (ecc : EccAt) (s : State) : Host.Outcome State Fault Refusal :=
  done (s.issue e t ecc 34 (aluR (fun a b _ _ => flagW (a.slt b))))
/-- CLTU (R142): rd = 1 if ra < rb unsigned, else 0. -/
def execCltu (e : Fin 16) (t : Fin 4) (ecc : EccAt) (s : State) : Host.Outcome State Fault Refusal :=
  done (s.issue e t ecc 35 (aluR (fun a b _ _ => flagW (a.ult b))))
/-- CLE (R142): rd = 1 if ra ≤ rb signed, else 0. -/
def execCle (e : Fin 16) (t : Fin 4) (ecc : EccAt) (s : State) : Host.Outcome State Fault Refusal :=
  done (s.issue e t ecc 36 (aluR (fun a b _ _ => flagW (a.sle b))))
/-- CLEU (R142): rd = 1 if ra ≤ rb unsigned, else 0. -/
def execCleu (e : Fin 16) (t : Fin 4) (ecc : EccAt) (s : State) : Host.Outcome State Fault Refusal :=
  done (s.issue e t ecc 37 (aluR (fun a b _ _ => flagW (a.ule b))))
/-- MUL (R143): rd = low 32 bits of ra × rb. -/
def execMulC (e : Fin 16) (t : Fin 4) (ecc : EccAt) (s : State) : Host.Outcome State Fault Refusal :=
  done (s.issue e t ecc 64 (aluR (fun a b _ _ => a * b)))
/-- MULH (R143): rd = high 32 bits of signed ra × signed rb. -/
def execMulh (e : Fin 16) (t : Fin 4) (ecc : EccAt) (s : State) : Host.Outcome State Fault Refusal :=
  done (s.issue e t ecc 65 (aluR (fun a b _ _ => mulHi a.toInt b.toInt)))
/-- MULHU (R143): rd = high 32 bits of unsigned ra × unsigned rb. -/
def execMulhu (e : Fin 16) (t : Fin 4) (ecc : EccAt) (s : State) : Host.Outcome State Fault Refusal :=
  done (s.issue e t ecc 66 (aluR (fun a b _ _ => mulHi a.toNat b.toNat)))
/-- MULHSU (R143): rd = high 32 bits of signed ra × unsigned rb. -/
def execMulhsu (e : Fin 16) (t : Fin 4) (ecc : EccAt) (s : State) : Host.Outcome State Fault Refusal :=
  done (s.issue e t ecc 67 (aluR (fun a b _ _ => mulHi a.toInt b.toNat)))
/-- DIV (R143): rd = signed ra / rb in 8 slots, with defined results for zero and overflow. -/
def execDivC (e : Fin 16) (t : Fin 4) (ecc : EccAt) (s : State) : Host.Outcome State Fault Refusal :=
  done (s.issue e t ecc 68 (aluR (fun a b _ _ => divS a b)))
/-- DIVU (R143): rd = unsigned ra / rb in 8 slots. -/
def execDivu (e : Fin 16) (t : Fin 4) (ecc : EccAt) (s : State) : Host.Outcome State Fault Refusal :=
  done (s.issue e t ecc 69 (aluR (fun a b _ _ => divU a b)))
/-- REM (R143): rd = signed remainder of ra / rb in 8 slots. -/
def execRem (e : Fin 16) (t : Fin 4) (ecc : EccAt) (s : State) : Host.Outcome State Fault Refusal :=
  done (s.issue e t ecc 70 (aluR (fun a b _ _ => remS a b)))
/-- REMU (R143): rd = unsigned remainder of ra / rb in 8 slots. -/
def execRemu (e : Fin 16) (t : Fin 4) (ecc : EccAt) (s : State) : Host.Outcome State Fault Refusal :=
  done (s.issue e t ecc 71 (aluR (fun a b _ _ => remU a b)))
/-- BSWAP (R144): rd = ra with its four bytes reversed. -/
def execBswap (e : Fin 16) (t : Fin 4) (ecc : EccAt) (s : State) : Host.Outcome State Fault Refusal :=
  done (s.issue e t ecc 128 (aluR (fun a _ _ _ => bswap a)))
/-- BSWAPH (R144): rd = ra with the bytes of each half-word exchanged. -/
def execBswaph (e : Fin 16) (t : Fin 4) (ecc : EccAt) (s : State) : Host.Outcome State Fault Refusal :=
  done (s.issue e t ecc 129 (aluR (fun a _ _ _ => bswapH a)))
/-- CLZ (R144): rd = number of leading zero bits of ra. -/
def execClz (e : Fin 16) (t : Fin 4) (ecc : EccAt) (s : State) : Host.Outcome State Fault Refusal :=
  done (s.issue e t ecc 130 (aluR (fun a _ _ _ => w32 (clz32 a))))
/-- POPC (R144): rd = number of one bits of ra. -/
def execPopc (e : Fin 16) (t : Fin 4) (ecc : EccAt) (s : State) : Host.Outcome State Fault Refusal :=
  done (s.issue e t ecc 131 (aluR (fun a _ _ _ => w32 (popc32 a))))
/-- EXTU (R144): rd = w bits of ra from pos, zero-extended. -/
def execExtu (e : Fin 16) (t : Fin 4) (ecc : EccAt) (s : State) : Host.Outcome State Fault Refusal :=
  done (s.issue e t ecc 132 (aluR (fun a _ _ w => extU a w)))
/-- EXTS (R144): rd = w bits of ra from pos, sign-extended. -/
def execExts (e : Fin 16) (t : Fin 4) (ecc : EccAt) (s : State) : Host.Outcome State Fault Refusal :=
  done (s.issue e t ecc 133 (aluR (fun a _ _ w => extS a w)))
/-- INS (R144): Inserts the low w bits of ra into rd at pos. -/
def execIns (e : Fin 16) (t : Fin 4) (ecc : EccAt) (s : State) : Host.Outcome State Fault Refusal :=
  done (s.issue e t ecc 134 (aluR (fun a _ d w => insW a d w)))
/-- CRCB (R144): Advances a reflected CRC in rd by one byte of ra with polynomial rb. -/
def execCrcb (e : Fin 16) (t : Fin 4) (ecc : EccAt) (s : State) : Host.Outcome State Fault Refusal :=
  done (s.issue e t ecc 135 (aluR (fun a b d _ => crcb a b d)))
/-- XCHG (R145): Atomically exchanges D[ra] with rb, returning the old word in rd. -/
def execXchg (e : Fin 16) (t : Fin 4) (ecc : EccAt) (s : State) : Host.Outcome State Fault Refusal := done (s.issue e t ecc 192 (atom (fun _ b => b)))
/-- FADD (R145): Atomically adds rb to D[ra], returning the old word in rd. -/
def execFadd (e : Fin 16) (t : Fin 4) (ecc : EccAt) (s : State) : Host.Outcome State Fault Refusal :=
  done (s.issue e t ecc 193 (atom (fun o b => o + b)))
/-- FAND (R145): Atomically ANDs rb into D[ra], returning the old word in rd. -/
def execFand (e : Fin 16) (t : Fin 4) (ecc : EccAt) (s : State) : Host.Outcome State Fault Refusal :=
  done (s.issue e t ecc 194 (atom (fun o b => o &&& b)))
/-- FOR (R145): Atomically ORs rb into D[ra], returning the old word in rd. -/
def execForC (e : Fin 16) (t : Fin 4) (ecc : EccAt) (s : State) : Host.Outcome State Fault Refusal :=
  done (s.issue e t ecc 195 (atom (fun o b => o ||| b)))
/-- MFS (R146): rd = the named special register. -/
def execMfs (e : Fin 16) (t : Fin 4) (ecc : EccAt) (s : State) : Host.Outcome State Fault Refusal := done (s.issue e t ecc 256 mfs)
/-- MTS (R146): Writes ra to the named special register. -/
def execMts (e : Fin 16) (t : Fin 4) (ecc : EccAt) (s : State) : Host.Outcome State Fault Refusal := done (s.issue e t ecc 257 mts)
/-- SNAP (R146): Latches ts and tsf from domain 0. -/
def execSnap (e : Fin 16) (t : Fin 4) (ecc : EccAt) (s : State) : Host.Outcome State Fault Refusal := done (s.issue e t ecc 258 snap)
/-- TRAP (R146): Raises trap SWTRAP with the 5-bit code in eval. -/
def execTrap (e : Fin 16) (t : Fin 4) (ecc : EccAt) (s : State) : Host.Outcome State Fault Refusal := done (s.issue e t ecc 259 trapI)
/-- RETT (R157): Returns from a trap, resuming at epc with any pending repetitions or micro-ops. -/
def execRett (e : Fin 16) (t : Fin 4) (ecc : EccAt) (s : State) : Host.Outcome State Fault Refusal := done (s.issue e t ecc 260 rett)
/-- ILLEGAL_INSTRUCTION (R155): A reserved encoding traps ILLEGAL. -/
def execIllegalInstruction (e : Fin 16) (t : Fin 4) (ecc : EccAt) (s : State) : Host.Outcome State Fault Refusal :=
  done (s.issue e t ecc kIllegal illegal)

end Sys2Proof.Machine
end

