-- ==== Sys2Proof/Machine/CmdIsaMem.lean ====
section
/-! DEFINITION. The meanings of the Bluset instructions of the immediate, jump, prefix and custom formats. -/

namespace Sys2Proof.Machine

open Sys2Proof

/-- ADDI (R147): rd = ra + sx(imm16). -/
def execAddi (e : Fin 16) (t : Fin 4) (ecc : EccAt) (s : State) : Host.Outcome State Fault Refusal :=
  done (s.issue e t ecc (64 * 8) (aluI (fun a w => a + insSx w)))
/-- ANDI (R147): rd = ra & zx(imm16). -/
def execAndi (e : Fin 16) (t : Fin 4) (ecc : EccAt) (s : State) : Host.Outcome State Fault Refusal :=
  done (s.issue e t ecc (64 * 9) (aluI (fun a w => a &&& insZx w)))
/-- ORI (R147): rd = ra | zx(imm16). -/
def execOri (e : Fin 16) (t : Fin 4) (ecc : EccAt) (s : State) : Host.Outcome State Fault Refusal :=
  done (s.issue e t ecc (64 * 10) (aluI (fun a w => a ||| insZx w)))
/-- XORI (R147): rd = ra ^ zx(imm16). -/
def execXori (e : Fin 16) (t : Fin 4) (ecc : EccAt) (s : State) : Host.Outcome State Fault Refusal :=
  done (s.issue e t ecc (64 * 11) (aluI (fun a w => a ^^^ insZx w)))
/-- CEQI (R147): rd = 1 if ra equals sx(imm16), else 0. -/
def execCeqi (e : Fin 16) (t : Fin 4) (ecc : EccAt) (s : State) : Host.Outcome State Fault Refusal :=
  done (s.issue e t ecc (64 * 12) (aluI (fun a w => flagW (a == insSx w))))
/-- CLTI (R147): rd = 1 if ra < sx(imm16) signed, else 0. -/
def execClti (e : Fin 16) (t : Fin 4) (ecc : EccAt) (s : State) : Host.Outcome State Fault Refusal :=
  done (s.issue e t ecc (64 * 13) (aluI (fun a w => flagW (a.slt (insSx w)))))
/-- CLTUI (R147): rd = 1 if ra < sx(imm16) unsigned, else 0. -/
def execCltui (e : Fin 16) (t : Fin 4) (ecc : EccAt) (s : State) : Host.Outcome State Fault Refusal :=
  done (s.issue e t ecc (64 * 14) (aluI (fun a w => flagW (a.ult (insSx w)))))
/-- LUI (R147): rd = imm16 << 16. -/
def execLui (e : Fin 16) (t : Fin 4) (ecc : EccAt) (s : State) : Host.Outcome State Fault Refusal :=
  done (s.issue e t ecc (64 * 15) (aluI (fun _ w => insZx w <<< 16)))
/-- LDB (R147): Loads a sign-extended byte from D space. -/
def execLdb (e : Fin 16) (t : Fin 4) (ecc : EccAt) (s : State) : Host.Outcome State Fault Refusal := done (s.issue e t ecc (64 * 16) (loadD 1 true))
/-- LDBU (R147): Loads a zero-extended byte from D space. -/
def execLdbu (e : Fin 16) (t : Fin 4) (ecc : EccAt) (s : State) : Host.Outcome State Fault Refusal := done (s.issue e t ecc (64 * 17) (loadD 1 false))
/-- LDH (R147): Loads a sign-extended half-word from D space. -/
def execLdh (e : Fin 16) (t : Fin 4) (ecc : EccAt) (s : State) : Host.Outcome State Fault Refusal := done (s.issue e t ecc (64 * 18) (loadD 2 true))
/-- LDHU (R147): Loads a zero-extended half-word from D space. -/
def execLdhu (e : Fin 16) (t : Fin 4) (ecc : EccAt) (s : State) : Host.Outcome State Fault Refusal := done (s.issue e t ecc (64 * 19) (loadD 2 false))
/-- LD (R147): Loads a word from D space. -/
def execLd (e : Fin 16) (t : Fin 4) (ecc : EccAt) (s : State) : Host.Outcome State Fault Refusal := done (s.issue e t ecc (64 * 20) (loadD 4 false))
/-- STB (R147): Stores the low byte of rd to D space. -/
def execStb (e : Fin 16) (t : Fin 4) (ecc : EccAt) (s : State) : Host.Outcome State Fault Refusal := done (s.issue e t ecc (64 * 21) (storeD 1))
/-- STH (R147): Stores the low half-word of rd to D space. -/
def execSth (e : Fin 16) (t : Fin 4) (ecc : EccAt) (s : State) : Host.Outcome State Fault Refusal := done (s.issue e t ecc (64 * 22) (storeD 2))
/-- ST (R147): Stores rd to D space. -/
def execSt (e : Fin 16) (t : Fin 4) (ecc : EccAt) (s : State) : Host.Outcome State Fault Refusal := done (s.issue e t ecc (64 * 23) (storeD 4))
/-- LDI (R147): Loads an instruction word into rd. -/
def execLdi (e : Fin 16) (t : Fin 4) (ecc : EccAt) (s : State) : Host.Outcome State Fault Refusal := done (s.issue e t ecc (64 * 24) loadI)
/-- STI (R152): Stores rd into instruction memory, seen by later fetches. -/
def execSti (e : Fin 16) (t : Fin 4) (ecc : EccAt) (s : State) : Host.Outcome State Fault Refusal := done (s.issue e t ecc (64 * 25) storeI)
/-- INB (R147): Reads a byte from port space, stalling in the receive window as R119 gives. -/
def execInb (e : Fin 16) (t : Fin 4) (ecc : EccAt) (s : State) : Host.Outcome State Fault Refusal := done (s.issue e t ecc (64 * 26) (inP 1))
/-- INH (R139): Reads a half-word from port space. -/
def execInh (e : Fin 16) (t : Fin 4) (ecc : EccAt) (s : State) : Host.Outcome State Fault Refusal := done (s.issue e t ecc (64 * 27) (inP 2))
/-- IN (R139): Reads a word from port space. -/
def execInC (e : Fin 16) (t : Fin 4) (ecc : EccAt) (s : State) : Host.Outcome State Fault Refusal := done (s.issue e t ecc (64 * 28) (inP 4))
/-- OUTB (R147): Writes a byte to port space, subject to R120 in the receive window. -/
def execOutb (e : Fin 16) (t : Fin 4) (ecc : EccAt) (s : State) : Host.Outcome State Fault Refusal := done (s.issue e t ecc (64 * 29) (outP 1))
/-- OUTH (R139): Writes a half-word to port space. -/
def execOuth (e : Fin 16) (t : Fin 4) (ecc : EccAt) (s : State) : Host.Outcome State Fault Refusal := done (s.issue e t ecc (64 * 30) (outP 2))
/-- OUT (R139): Writes a word to port space. -/
def execOut (e : Fin 16) (t : Fin 4) (ecc : EccAt) (s : State) : Host.Outcome State Fault Refusal := done (s.issue e t ecc (64 * 31) (outP 4))
/-- LDP (R147): Loads D[ra] into rd, then advances ra. -/
def execLdp (e : Fin 16) (t : Fin 4) (ecc : EccAt) (s : State) : Host.Outcome State Fault Refusal := done (s.issue e t ecc (64 * 40) loadPost)
/-- STP (R147): Stores rd to D[ra], then advances ra. -/
def execStp (e : Fin 16) (t : Fin 4) (ecc : EccAt) (s : State) : Host.Outcome State Fault Refusal := done (s.issue e t ecc (64 * 41) storePost)
/-- INP (R147): Reads P[ra] into rd, then advances ra. -/
def execInp (e : Fin 16) (t : Fin 4) (ecc : EccAt) (s : State) : Host.Outcome State Fault Refusal := done (s.issue e t ecc (64 * 42) inPost)
/-- OUTP (R147): Writes rd to P[ra], then advances ra. -/
def execOutp (e : Fin 16) (t : Fin 4) (ecc : EccAt) (s : State) : Host.Outcome State Fault Refusal := done (s.issue e t ecc (64 * 43) outPost)
/-- BZ (R148): Branches when ra is zero. -/
def execBz (e : Fin 16) (t : Fin 4) (ecc : EccAt) (s : State) : Host.Outcome State Fault Refusal :=
  done (s.issue e t ecc (64 * 32) (branchIf (fun a => a == 0)))
/-- BNZ (R148): Branches when ra is nonzero. -/
def execBnz (e : Fin 16) (t : Fin 4) (ecc : EccAt) (s : State) : Host.Outcome State Fault Refusal :=
  done (s.issue e t ecc (64 * 33) (branchIf (fun a => a != 0)))
/-- J (R148): Jumps to imm26 [13:0]. -/
def execJ (e : Fin 16) (t : Fin 4) (ecc : EccAt) (s : State) : Host.Outcome State Fault Refusal := done (s.issue e t ecc (64 * 34) jumpI)
/-- CALL (R159): Pushes PC + 1 and jumps, trapping RSOVF at depth 32. -/
def execCall (e : Fin 16) (t : Fin 4) (ecc : EccAt) (s : State) : Host.Outcome State Fault Refusal := done (s.issue e t ecc (64 * 35) callI)
/-- JR (R148): Jumps to ra [13:0]. -/
def execJr (e : Fin 16) (t : Fin 4) (ecc : EccAt) (s : State) : Host.Outcome State Fault Refusal := done (s.issue e t ecc (64 * 36) jumpR)
/-- CALLR (R159): Pushes PC + 1 and jumps to ra [13:0]. -/
def execCallr (e : Fin 16) (t : Fin 4) (ecc : EccAt) (s : State) : Host.Outcome State Fault Refusal := done (s.issue e t ecc (64 * 37) callReg)
/-- RET (R159): Pops the return stack into PC, trapping RSUNF at depth 0. -/
def execRet (e : Fin 16) (t : Fin 4) (ecc : EccAt) (s : State) : Host.Outcome State Fault Refusal := done (s.issue e t ecc (64 * 38) retI)
/-- DBNZ (R148): Decrements rd and branches if it is nonzero. -/
def execDbnz (e : Fin 16) (t : Fin 4) (ecc : EccAt) (s : State) : Host.Outcome State Fault Refusal := done (s.issue e t ecc (64 * 39) dbnz)
/-- REP_IMM (R153): Repeats the next instruction imm16 times. -/
def execRepImm (e : Fin 16) (t : Fin 4) (ecc : EccAt) (s : State) : Host.Outcome State Fault Refusal :=
  done (s.issue e t ecc (64 * 63) (repeatN (fun _ _ _ w => bits w 15 0)))
/-- REP_RC (R153): Repeats the next instruction rc times. -/
def execRepRc (e : Fin 16) (t : Fin 4) (ecc : EccAt) (s : State) : Host.Outcome State Fault Refusal :=
  done (s.issue e t ecc (64 * 63 + 1) (repeatN (fun s n t _ => (s.thr n t).rc.toNat)))
/-- CUSTOM_INSTRUCTION (R163): Runs the micro-op sequence named by a decode-table entry. -/
def execCustomInstruction (e : Fin 16) (t : Fin 4) (fe : Bool) (um : Option (Fin 16 × Bool)) (s : State) : Host.Outcome State Fault Refusal :=
  done (s.issueWith e t (64 * 62) fe (fun s w => s.custom e t w um false))

end Sys2Proof.Machine
end

