-- ==== Sys2Proof/Machine/CmdLoop.lean ====
section
/-! DEFINITION. The meanings of Cardamom. -/

namespace Sys2Proof.Machine

open Sys2Proof

/-- LOOP_NV_WRITE (R223): A write to a network value triggers every enabled context bound to it. -/
def execLoopNvWrite (m : Master) (i : Fin 4096) (v : Word) (s : State) : Host.Outcome State Fault Refusal := done (s.wordWrite m (LOOP_NV i) v)
/-- SWTRIG (R223): A write of CTRL.SWTRIG triggers the context. -/
def execSwtrig (m : Master) (k : Fin 256) (s : State) : Host.Outcome State Fault Refusal := done (s.fieldWrite m (LOOP_CTX_CTRL_SWTRIG k) 1)
/-- LOOP_EVAL_START (R224): Cardamom takes the next context from the high or low queue, skipping it past its deadline or performing a swap. -/
def execLoopEvalStart (s : State) : Host.Outcome State Fault Refusal := done (s.inBlk 9 .loop (fun s => s.evalStart.loopSample))
/-- LOOP_EVAL_END (R237): An evaluation writes its output slots, capture record and status. -/
def execLoopEvalEnd (s : State) : Host.Outcome State Fault Refusal := done (s.inBlk 9 .loop (fun s => s.evalEnd))
/-- LOOP_BANK_COPY_END (R240): The copy of the new active set into the other bank completes and SYNCING clears. -/
def execLoopBankCopyEnd (k : Fin 256) (s : State) : Host.Outcome State Fault Refusal := done (s.inBlk 9 .loop (fun s => s.bankCopy k))
/-- STCLR (R247): CTRL.STCLR sets all states and exponents of a disabled context to 0. -/
def execStclr (m : Master) (k : Fin 256) (s : State) : Host.Outcome State Fault Refusal := done (s.fieldWrite m (LOOP_CTX_CTRL_STCLR k) 1)
/-- LOOP_CTX_ENABLE (R223): A write of context CTRL.EN enables the context or discards its pending trigger. -/
def execLoopCtxEnable (m : Master) (k : Fin 256) (v : Word) (s : State) : Host.Outcome State Fault Refusal := done (s.wordWrite m (LOOP_CTX_CTRL k) v)
/-- LOOP_COEF_WRITE (R240): A LOOP_COEF write goes to the inactive set, subject to the lock. -/
def execLoopCoefWrite (m : Master) (k i : Fin 256) (v : Word) (s : State) : Host.Outcome State Fault Refusal := done (s.wordWrite m (LOOP_COEF k i) v)
/-- COEF_BANK_SRAM_WRITE (R243): An SRAM write to a coefficient bank acts as a LOOP_COEF write or is ignored for the active set. -/
def execCoefBankSramWrite (m : Master) (a : Word) (n : Fin 9) (v : BitVec 64) (s : State) : Host.Outcome State Fault Refusal :=
  done (s.anyWrite m a.toNat n v.toNat)
/-- CAPTURE_START (R245): Setting LOOP_CAP_CTRL.EN starts capture or refuses it with BADBUF. -/
def execCaptureStart (m : Master) (v : Word) (s : State) : Host.Outcome State Fault Refusal := done (s.wordWrite m LOOP_CAP_CTRL (v ||| 1#32))
/-- BRAKE_TEST_TORQUE (R246): Saffron's request makes the named context deliver the test torque in manual. -/
def execBrakeTestTorque (s : State) : Host.Outcome State Fault Refusal := done (s.inBlk 9 .loop (fun s => s.testTake))

end Sys2Proof.Machine
end

