-- ==== Sys2Proof/Machine/CmdMac.lean ====
section
/-! DEFINITION. The meanings of the MACs and the switch. -/

namespace Sys2Proof.Machine

open Sys2Proof

/-- MAC_MODE_WRITE (R62): A write to MAC MODE takes the link down and restarts link setup, or disables the port with BADMODE. -/
def execMacModeWrite (m : Master) (p : Fin 12) (v : Word) (s : State) : Host.Outcome State Fault Refusal := done (s.wordWrite m (MAC_MODE p) v)
/-- ANRESTART (R64): CTRL.ANRESTART restarts autonegotiation on the port. -/
def execAnrestart (m : Master) (p : Fin 12) (s : State) : Host.Outcome State Fault Refusal := done (s.fieldWrite m (MAC_CTRL_ANRESTART p) 1)
/-- MAC_CNTCLR (R82): CTRL.CNTCLR clears every counter of the port. -/
def execMacCntclr (m : Master) (p : Fin 12) (s : State) : Host.Outcome State Fault Refusal := done (s.fieldWrite m (MAC_CTRL_CNTCLR p) 1)
/-- MAC_RXEN (R66): Setting or clearing RXEN takes the staging ring from the free pool or returns it. -/
def execMacRxen (m : Master) (p : Fin 12) (on : Bool) (s : State) : Host.Outcome State Fault Refusal :=
  done (s.fieldWrite m (MAC_CTRL_RXEN p) (bit on))
/-- FRAME_RECEIVE (R65): A frame arriving at a port passes the MAC checks and the ingress stages and is charged to every admitting output, or is discarded. -/
def execFrameReceive (p : Fin 12) (e8 : Fin 8) (b : List Byte) (fin : RxEnd) (s : State) : Host.Outcome State Fault Refusal :=
  done (s.inBlk 7 (.mac p) (fun s => s.macRx p e8 fin.frag b fin.kind))
/-- PAUSE_RECEIVE (R74): A received PAUSE frame holds or releases the transmitter for its quanta. -/
def execPauseReceive (p : Fin 12) (q : BitVec 16) (s : State) : Host.Outcome State Fault Refusal :=
  done (s.inBlk 7 (.mac p) (fun s => s.linkHeld p (fun s => s.ctlFrame p (fun s => s.macPause p q.toNat))))
/-- PFC_RECEIVE (R75): A received 802.1Qbb frame pauses traffic classes at this port's output for their quanta. -/
def execPfcReceive (p : Fin 12) (vec : BitVec 16) (qs : List (BitVec 16)) (s : State) : Host.Outcome State Fault Refusal :=
  done (s.inBlk 7 (.mac p) (fun s => s.linkHeld p (fun s => s.ctlFrame p (fun s => s.macPfc p vec.toNat (qs.map (fun q => q.toNat))))))
/-- PAUSE_HOLD_EXPIRY (R74): The quanta of a PAUSE or PFC hold run out and the port or class resumes. -/
def execPauseHoldExpiry (p : Fin 12) (k : Fin 9) (s : State) : Host.Outcome State Fault Refusal :=
  done (s.inBlk 7 (.mac p) (fun s => s.macHold p k 0))
/-- FLOW_CONTROL_REPEAT (R76): Every TXQUANTA / 2 quanta while staging stays at XON or above, the generated PAUSE or PFC is sent again. -/
def execFlowControlRepeat (p : Fin 12) (s : State) : Host.Outcome State Fault Refusal := done (s.inBlk 7 (.mac p) (fun s => s.macRepeat p))
/-- FCTX (R76): A write to FCTX sends one flow control frame after the frame in flight. -/
def execFctx (m : Master) (p : Fin 12) (v : Word) (s : State) : Host.Outcome State Fault Refusal := done (s.wordWrite m (MAC_FCTX p) v)
/-- TSF_HDR_READ (R73): A read of TSF_HDR moves the oldest egress timestamp into the reader's snapshot. -/
def execTsfHdrRead (m : Master) (p : Fin 12) (s : State) : Host.Outcome State Fault Refusal := done (s.busRead m (MAC_TSF_HDR p) 4)
/-- TRANSMISSION_SELECT (R100): An idle output with its link up picks the highest candidate class, discarding aged or late heads, and starts its head copy. -/
def execTransmissionSelect (p : Fin 32) (s : State) : Host.Outcome State Fault Refusal := done (s.inDom 7 (fun s => s.anySelect p))
/-- LAUNCH_TIME_DUE (R104): A launch time or angle of a queued copy is reached and the class becomes a candidate. -/
def execLaunchTimeDue (p : Fin 32) (c : Fin 8) (s : State) : Host.Outcome State Fault Refusal := done (s.inDom 7 (fun s => s.launchDue p c))
/-- TRANSMISSION_END (R72): A frame finishes at an egress MAC, with its one-step or two-step timestamp action and the release of its copy. -/
def execTransmissionEnd (p : Fin 12) (e8 : Fin 8) (s : State) : Host.Outcome State Fault Refusal := done (s.inDom 7 (fun s => s.txEnd p e8))
/-- LINK_DOWN (R81): At link down the MAC discards frames in flight, ends holds, and the queues freeze or flush. -/
def execLinkDown (p : Fin 12) (s : State) : Host.Outcome State Fault Refusal := done (s.inDom 7 (fun s => s.linkLost p))
/-- LINK_UP (R107): At link up the queues drain, passed launches are discarded and preemption verification restarts. -/
def execLinkUp (p : Fin 12) (lp : Word) (v : Fin 8) (ms : Bool) (s : State) : Host.Outcome State Fault Refusal :=
  done (s.inBlk 7 (.mac p) (fun s => s.linkCame p lp v ms))
/-- AUTOSPEED_IDLE (R78): The idle time of a 1000 Mb/s port reaches IDLE ms and it renegotiates at 100 Mb/s. -/
def execAutospeedIdle (p : Fin 12) (s : State) : Host.Outcome State Fault Refusal := done (s.inBlk 7 (.mac p) (fun s => s.aspdIdle p))
/-- AUTOSPEED_RESTORE (R78): A lowered port whose queue occupancy exceeds HITHR renegotiates with the full ANADV. -/
def execAutospeedRestore (p : Fin 12) (s : State) : Host.Outcome State Fault Refusal := done (s.inBlk 7 (.mac p) (fun s => s.aspdRestore p))
/-- AUTOSPEED_FAIL (R78): A lowered link that has not come up within 5 s renegotiates fully, clears EN and sets FAIL. -/
def execAutospeedFail (p : Fin 12) (s : State) : Host.Outcome State Fault Refusal := done (s.inBlk 7 (.mac p) (fun s => s.aspdFail p))
/-- LPI_ENTRY (R79): A transmit side idle for TXIDLE µs enters low-power idle. -/
def execLpiEntry (p : Fin 12) (s : State) : Host.Outcome State Fault Refusal := done (s.inBlk 7 (.mac p) (fun s => s.lpiEnter p))
/-- PREEMPT_VERIFY (R80): Each VTIME interval a verify frame is sent, and after three unanswered the verification fails. -/
def execPreemptVerify (p : Fin 12) (s : State) : Host.Outcome State Fault Refusal := done (s.inBlk 7 (.mac p) (fun s => s.verifyTick p))
/-- BUF_SWCELLS_WRITE (R84): A write of BUF_SWCELLS sets the software region when all receivers are off and queues empty, or is ignored. -/
def execBufSwcellsWrite (m : Master) (v : Word) (s : State) : Host.Outcome State Fault Refusal := done (s.wordWrite m BUF_SWCELLS v)
/-- STAGING_REFILL (R85): A waiting staging refill is made from the free pool when cells return. -/
def execStagingRefill (s : State) : Host.Outcome State Fault Refusal := done (s.inDom 7 (fun s => s.refill))
/-- GATE_ENTRY_END (R102): The interval of a gate-list entry ends and the next entry, a restart or the last gates take effect. -/
def execGateEntryEnd (p : Fin 12) (s : State) : Host.Outcome State Fault Refusal := done (s.inDom 7 (fun s => s.gateEnd p))
/-- CB_RECOVERY_RESET (R109): RESETMS ms without an accepted frame resets the recovery history and sets CBRESET. -/
def execCbRecoveryReset (f : Fin 256) (s : State) : Host.Outcome State Fault Refusal := done (s.inDom 7 (fun s => s.cbReset f))
/-- FDB_AGE_OUT (R92): A learned forwarding entry older than AGE seconds is removed. -/
def execFdbAgeOut (s : State) : Host.Outcome State Fault Refusal := done (s.inDom 7 (fun s => s.fdbAge))
/-- SWX_CNTCLR (R111): SWX_PORTCFG.CNTCLR clears the output's counters. -/
def execSwxCntclr (m : Master) (p : Fin 32) (s : State) : Host.Outcome State Fault Refusal := done (s.fieldWrite m (SWX_PORTCFG_CNTCLR p) 1)
/-- SWITCH_APPLY_BOUNDARY (R110): At each domain-0 schedule count that is a multiple of 1,024 the switch shadow set is checked and becomes active. -/
def execSwitchApplyBoundary (s : State) : Host.Outcome State Fault Refusal := done (s.inDom 7 (fun s => s.swxBoundary))
/-- PREEMPT_VERIFY_RESPONSE (R80): The link partner answers a verify frame, so verification succeeds and preemption becomes active. -/
def execPreemptVerifyResponse (p : Fin 12) (s : State) : Host.Outcome State Fault Refusal := done (s.inBlk 7 (.mac p) (fun s => s.verifyOk p))
/-- RECEIVE_LPI (R79): The link partner enters or leaves low-power idle on the receive side, setting STAT.LPIRX and counting RX_LPIENTRY. -/
def execReceiveLpi (p : Fin 12) (on : Bool) (s : State) : Host.Outcome State Fault Refusal := done (s.inBlk 7 (.mac p) (fun s => s.lpiRecv p on))

end Sys2Proof.Machine
end

