-- ==== Sys2Proof/Machine/CmdNet.lean ====
section
/-! DEFINITION. The meanings of the protocol instances and the CAN controllers. -/

namespace Sys2Proof.Machine

open Sys2Proof

/-- PROT_LOSS (R177): LOSSCNT consecutive cycles without valid data make an instance leave cyclic exchange, causing transition 10 in OPERATIONAL. -/
def execProtLoss (i : Fin 4) (s : State) : Host.Outcome State Fault Refusal := done (s.protLoss i)
/-- PROT_TIMEOUT (R176): An upper-level timeout of an image expires, cancelling retries and raising PROT_TIMEOUT. -/
def execProtTimeout (i : Fin 4) (tries late : BitVec 16) (s : State) : Host.Outcome State Fault Refusal :=
  done (s.protTimeout i tries.toNat late.toNat)
/-- CYCLIC_EXCHANGE_START (R177): A protocol instance enters or regains cyclic exchange, which the INSTANCE notice, the permit for transition 9 and the SAFE path-up report follow. -/
def execCyclicExchangeStart (i : Fin 4) (s : State) : Host.Outcome State Fault Refusal := done (s.cyclicStart i)
/-- CAN_INIT_SET (R179): A write of CAN CTRL.INIT = 1 requests INIT, taking effect at the end of the frame or at once. -/
def execCanInitSet (m : Master) (n : Fin 4) (s : State) : Host.Outcome State Fault Refusal := done (s.fieldWrite m (CAN_CTRL_INIT n) 1)
/-- CAN_INIT_ACK (R179): The frame in progress ends and the controller enters INIT with INITACK = 1. -/
def execCanInitAck (n : Fin 4) (s : State) : Host.Outcome State Fault Refusal := done (s.inBlk 10 (.can n) (fun s => s.initAck n))
/-- CAN_INIT_LEAVE (R179): A write of INIT = 0 leaves INIT unless BADTIM, clearing TEC and REC. -/
def execCanInitLeave (m : Master) (n : Fin 4) (s : State) : Host.Outcome State Fault Refusal := done (s.fieldWrite m (CAN_CTRL_INIT n) 0)
/-- CAN_INTEGRATION (R179): 11 consecutive recessive bits complete integration and the controller takes part in frames. -/
def execCanIntegration (n : Fin 4) (s : State) : Host.Outcome State Fault Refusal := done (s.inBlk 10 (.can n) (fun s => s.integrated n))
/-- CAN_FRAME_RECEIVE (R182): A valid frame on the bus is stored in the receive ring at NEXT. -/
def execCanFrameReceive (n : Fin 4) (f : Option CanFrm) (err : Option CanErr) (s : State) : Host.Outcome State Fault Refusal :=
  done (s.inBlk 10 (.can n) (fun s => match f, err with | _, some e => s.canRxErr n e | some f, none => s.canReceive n f | none, none => s.canRxSof n))
/-- CAN_TX_START (R185): Before a start of frame the controller picks the pending object with the lowest arbitration field. -/
def execCanTxStart (n : Fin 4) (s : State) : Host.Outcome State Fault Refusal := done (s.inBlk 10 (.can n) (fun s => s.canTxStart n))
/-- CAN_TX_END (R186): A transmit attempt ends in success, arbitration loss or error, updating the request and counters. -/
def execCanTxEnd (n : Fin 4) (e : CanEnd) (s : State) : Host.Outcome State Fault Refusal := done (s.inBlk 10 (.can n) (fun s => s.canTxEnd n e))
/-- BOREC (R187): A write of CTRL.BOREC starts bus-off recovery. -/
def execBorec (m : Master) (n : Fin 4) (s : State) : Host.Outcome State Fault Refusal := done (s.fieldWrite m (CAN_CTRL_BOREC n) 1)
/-- BUS_OFF_RECOVERY_END (R187): 128 occurrences of 11 recessive bits end recovery and return to error active. -/
def execBusOffRecoveryEnd (n : Fin 4) (s : State) : Host.Outcome State Fault Refusal := done (s.inBlk 10 (.can n) (fun s => s.boEnd n))
/-- TTRESTART (R193): A write of CTRL.TTRESTART moves the controller from STARTFAIL to LISTEN. -/
def execTtrestart (m : Master) (n : Fin 4) (s : State) : Host.Outcome State Fault Refusal := done (s.fieldWrite m (CAN_CTRL_TTRESTART n) 1)
/-- LOCK (R183): MO CMD.LOCK locks a message object. -/
def execLock (m : Master) (n : Fin 4) (o : Fin 128) (s : State) : Host.Outcome State Fault Refusal := done (s.fieldWrite m (CAN_MO_CMD_LOCK n o) 1)
/-- UNLOCK (R183): MO CMD.UNLOCK unlocks an object, publishing a transmit object or moving in a shadow frame. -/
def execUnlock (m : Master) (n : Fin 4) (o : Fin 128) (s : State) : Host.Outcome State Fault Refusal :=
  done (s.fieldWrite m (CAN_MO_CMD_UNLOCK n o) 1)
/-- RELEASE (R183): MO CMD.RELEASE with UNLOCK clears FULL before the unlock. -/
def execRelease (m : Master) (n : Fin 4) (o : Fin 128) (s : State) : Host.Outcome State Fault Refusal := done (s.wordWrite m (CAN_MO_CMD n o) 6#32)
/-- TXREQ (R186): MO CMD.TXREQ requests transmission of the object. -/
def execTxreq (m : Master) (n : Fin 4) (o : Fin 128) (s : State) : Host.Outcome State Fault Refusal := done (s.fieldWrite m (CAN_MO_CMD_TXREQ n o) 1)
/-- TXABORT (R186): MO CMD.TXABORT ends a pending request or stops its retransmission. -/
def execTxabort (m : Master) (n : Fin 4) (o : Fin 128) (s : State) : Host.Outcome State Fault Refusal :=
  done (s.fieldWrite m (CAN_MO_CMD_TXABORT n o) 1)
/-- STARTWAIT_EXPIRY (R193): STARTWAIT NTU without a reference makes a potential master send a reference. -/
def execStartwaitExpiry (n : Fin 4) (s : State) : Host.Outcome State Fault Refusal := done (s.inBlk 10 (.can n) (fun s => s.startWait n))
/-- REFERENCE_MISS (R193): No reference by the expected mark + 32 NTU counts REFMISS, and a second miss returns to LISTEN. -/
def execReferenceMiss (n : Fin 4) (s : State) : Host.Outcome State Fault Refusal := done (s.inBlk 10 (.can n) (fun s => s.refMiss n))
/-- TAKEOVER (R195): A BACKUP of rank r sends its reference at mark + 2 × (r + 1) NTU. -/
def execTakeover (n : Fin 4) (s : State) : Host.Outcome State Fault Refusal := done (s.inBlk 10 (.can n) (fun s => s.takeover n))
/-- TT_WINDOW_START (R191): At a window mark + GUARD the node sends its exclusive frame or competes in an arbitrating window, or withholds. -/
def execTtWindowStart (n : Fin 4) (w : Fin 32) (s : State) : Host.Outcome State Fault Refusal := done (s.inBlk 10 (.can n) (fun s => s.ttWindow n w))
/-- TT_WINDOW_END (R192): An exclusive window ends without a start of frame and TT_EMPTY counts it. -/
def execTtWindowEnd (n : Fin 4) (w : Fin 32) (s : State) : Host.Outcome State Fault Refusal := done (s.inBlk 10 (.can n) (fun s => s.ttWindowEnd n w))
/-- GUARDIAN_MEASURE (R198): At each basic cycle the guardian oscillator is measured against REFCLK and may close every opening. -/
def execGuardianMeasure (n : Fin 4) (khz : Word) (s : State) : Host.Outcome State Fault Refusal :=
  done (s.inBlk 10 (.can n) (fun s => s.guardMeasure n khz.toNat))
/-- GUARDIAN_CUT (R199): An opening closes during a transmission, cutting CANn_TXEN and raising CAN_GUARD. -/
def execGuardianCut (n : Fin 4) (s : State) : Host.Outcome State Fault Refusal := done (s.inBlk 10 (.can n) (fun s => s.guardCut n))
/-- BASIC_CYCLE_START (R191): A time-triggered MASTER starts each basic cycle, CYCLEN NTU after its last reference, by sending its reference with the cycle count incremented. -/
def execBasicCycleStart (n : Fin 4) (s : State) : Host.Outcome State Fault Refusal := done (s.inBlk 10 (.can n) (fun s => s.basicCycle n))

end Sys2Proof.Machine
end

