-- ==== Sys2Proof/Machine/CmdNut.lean ====
section
/-! DEFINITION. The meanings of the Nutmeg cells. -/

namespace Sys2Proof.Machine

open Sys2Proof

/-- NUT_NOP (R207): Does nothing for one cycle. -/
def execNutNop (c : Fin 32) (s : State) : Host.Outcome State Fault Refusal := done (s.nutRun c (isSub 0) State.opNop)
/-- NUT_HALT (R207): Clears CTRL.EN. -/
def execNutHalt (c : Fin 32) (s : State) : Host.Outcome State Fault Refusal := done (s.nutRun c (isSub 1) State.opHalt)
/-- WSTART (R212): Waits for a start, completing at once on a pending start. -/
def execWstart (c : Fin 32) (s : State) : Host.Outcome State Fault Refusal := done (s.nutRun c (isSub 2) State.opWstart)
/-- MARK (R207): Sets MARKTS to the time of the next bit-clock pulse. -/
def execMark (c : Fin 32) (s : State) : Host.Outcome State Fault Refusal := done (s.nutRun c (isSub 3) State.opMark)
/-- CRCCLR (R215): Loads CRCST with INIT. -/
def execCrcclr (c : Fin 32) (s : State) : Host.Outcome State Fault Refusal := done (s.nutRun c (isSub 4) State.opCrcclr)
/-- SRCLR (R207): Sets SR and SRN to 0. -/
def execSrclr (c : Fin 32) (s : State) : Host.Outcome State Fault Refusal := done (s.nutRun c (isSub 5) State.opSrclr)
/-- SHIN (R208): Shifts in n or X bits at sample ticks. -/
def execShin (c : Fin 32) (s : State) : Host.Outcome State Fault Refusal := done (s.nutRun c (isLegal 1) State.opShin)
/-- SHOUT (R208): Shifts out n or X bits at bit boundaries. -/
def execShout (c : Fin 32) (s : State) : Host.Outcome State Fault Refusal := done (s.nutRun c (isLegal 2) State.opShout)
/-- SHIFT_END (R208): A shift completes at its last tick or boundary. -/
def execShiftEnd (c : Fin 32) (samples : List (Fin 8)) (s : State) : Host.Outcome State Fault Refusal :=
  done (s.inBlk 10 .nut (fun s => s.shiftEnd c samples))
/-- PULL (R209): Moves the oldest TXQ word to a destination, stalling or setting TXUNF when empty. -/
def execPull (c : Fin 32) (s : State) : Host.Outcome State Fault Refusal := done (s.nutRun c (isLegal 3) State.opPull)
/-- PUSH (R209): Appends a source word to RXQ, stalling or setting RXOVF when full. -/
def execPush (c : Fin 32) (s : State) : Host.Outcome State Fault Refusal := done (s.nutRun c (isLegal 4) State.opPush)
/-- NUT_QUEUE_STALL_END (R209): A blocked pull, push or shift resumes when its queue has a word or room. -/
def execNutQueueStallEnd (c : Fin 32) (s : State) : Host.Outcome State Fault Refusal := done (s.inBlk 10 .nut (fun s => s.nutStallEnd c))
/-- SETP (R207): Sets the level registers of pins A and B. -/
def execSetp (c : Fin 32) (s : State) : Host.Outcome State Fault Refusal := done (s.nutRun c (isLegal 5) State.opSetp)
/-- WAITP (R204): Waits for a pin level or edge, optionally capturing and locking the sample phase. -/
def execWaitp (c : Fin 32) (s : State) : Host.Outcome State Fault Refusal := done (s.nutRun c (isLegal 6) State.opWaitp)
/-- WAITP_MET (R204): The condition of a WAITP is met and it completes. -/
def execWaitpMet (c : Fin 32) (pins : Fin 8) (s : State) : Host.Outcome State Fault Refusal := done (s.inBlk 10 .nut (fun s => s.waitpMet c pins))
/-- WAITT (R207): Waits for n bit boundaries. -/
def execWaitt (c : Fin 32) (s : State) : Host.Outcome State Fault Refusal := done (s.nutRun c (isLegal 7) State.opWaitt)
/-- WAITT_END (R207): The nth bit boundary after a WAITT completes it. -/
def execWaittEnd (c : Fin 32) (s : State) : Host.Outcome State Fault Refusal := done (s.inBlk 10 .nut (fun s => s.waittEnd c))
/-- WAITC (R207): Waits for the first compare match. -/
def execWaitc (c : Fin 32) (s : State) : Host.Outcome State Fault Refusal := done (s.nutRun c (isLegal 8) State.opWaitc)
/-- LDX (R207): Loads X with an immediate. -/
def execLdx (c : Fin 32) (s : State) : Host.Outcome State Fault Refusal := done (s.nutRun c (isLegal 9) State.opLdx)
/-- JMP (R207): Sets the cell's PC. -/
def execJmp (c : Fin 32) (s : State) : Host.Outcome State Fault Refusal := done (s.nutRun c (isLegal 10) State.opJmp)
/-- DJNZ (R207): Decrements X and jumps if nonzero. -/
def execDjnz (c : Fin 32) (s : State) : Host.Outcome State Fault Refusal := done (s.nutRun c (isLegal 11) State.opDjnz)
/-- JCOND (R207): Jumps on a pin or CRC condition. -/
def execJcond (c : Fin 32) (s : State) : Host.Outcome State Fault Refusal := done (s.nutRun c (isLegal 12) State.opJcond)
/-- FLAG (R217): Posts a kind-3 Dispatcher item with the flag bits. -/
def execFlag (c : Fin 32) (s : State) : Host.Outcome State Fault Refusal := done (s.nutRun c (isLegal 13) State.opFlag)
/-- POS (R216): Copies SR or CNT into HOLD and publishes HOLD with its timestamp to POS and the LAU. -/
def execPos (c : Fin 32) (s : State) : Host.Outcome State Fault Refusal := done (s.nutRun c (isLegal 14) State.opPos)
/-- NUT_ILLEGAL (R218): An ILLEGAL encoding halts the cell and sets ILLEGAL. -/
def execNutIllegal (c : Fin 32) (s : State) : Host.Outcome State Fault Refusal := done (s.nutRun c isIllegal (fun s c _ => s.nutIllegal c))
/-- NUT_COUNT_EDGE (R205): A filtered input edge changes CNT in an edge counting mode. -/
def execNutCountEdge (c : Fin 32) (pins : Fin 8) (s : State) : Host.Outcome State Fault Refusal := done (s.cellEdge c pins)
/-- NUT_MATCH (R205): CNT takes the value of CMP and the compare output takes its match action. -/
def execNutMatch (c : Fin 32) (s : State) : Host.Outcome State Fault Refusal := done (s.inBlk 10 .nut (fun s => s.freeMatch c))
/-- NUT_WRAP (R205): CNT returns from PER − 1 to 0, applying the wrap action and the CMP and PER shadows. -/
def execNutWrap (c : Fin 32) (s : State) : Host.Outcome State Fault Refusal := done (s.inBlk 10 .nut (fun s => s.freeWrap c))
/-- ZCAP (R205): A filtered rising edge of AUX copies CNT into CAPT with its time and sets ZEV. -/
def execZcap (c : Fin 32) (s : State) : Host.Outcome State Fault Refusal := done (s.inBlk 10 .nut (fun s => s.zcap c))
/-- NUT_RELEASE (R212): A start takes effect in the release cycle, running, releasing or pending the cell. -/
def execNutRelease (s : State) : Host.Outcome State Fault Refusal := done (s.inBlk 10 .nut (fun s => s.nutStarts))
/-- SWSTART (R212): A write of CTRL.SWSTART starts the cell. -/
def execSwstart (m : Master) (c : Fin 32) (s : State) : Host.Outcome State Fault Refusal := done (s.fieldWrite m (NUT_CTRL_SWSTART c) 1)
/-- NUT_ENABLE (R212): A write of CTRL.EN starts, arms or halts the cell. -/
def execNutEnable (m : Master) (c : Fin 32) (v : Word) (s : State) : Host.Outcome State Fault Refusal := done (s.wordWrite m (NUT_CTRL c) v)
/-- QCLR (R211): CTRL.QCLR empties both queues. -/
def execQclr (m : Master) (c : Fin 32) (s : State) : Host.Outcome State Fault Refusal := done (s.fieldWrite m (NUT_CTRL_QCLR c) 1)
/-- INJ (R213): A write of INJ queues an instruction for injection, aborting the instruction in progress with FORCE. -/
def execInj (m : Master) (c : Fin 32) (v : Word) (s : State) : Host.Outcome State Fault Refusal := done (s.wordWrite m (NUT_INJ c) v)
/-- INJECT_ISSUE (R213): The injected instruction issues at the next instruction boundary or cycle. -/
def execInjectIssue (c : Fin 32) (s : State) : Host.Outcome State Fault Refusal := done (s.inBlk 10 .nut (fun s => s.injIssue c))
/-- NUT_WDOG_TIMEOUT (R214): A wait or stall lasting LIMIT bit boundaries is aborted, setting TIMEOUT and continuing at VEC. -/
def execNutWdogTimeout (c : Fin 32) (s : State) : Host.Outcome State Fault Refusal := done (s.inBlk 10 .nut (fun s => s.wdogFire c))
/-- TXQ_WRITE (R209): A write of NUT TXQ appends a word or sets TXOVF. -/
def execTxqWrite (m : Master) (c : Fin 32) (v : Word) (s : State) : Host.Outcome State Fault Refusal := done (s.wordWrite m (NUT_TXQ c) v)
/-- RXQ_READ (R209): A read of NUT RXQ returns and removes the oldest word or sets RXUNF. -/
def execRxqRead (m : Master) (c : Fin 32) (s : State) : Host.Outcome State Fault Refusal := done (s.busRead m (NUT_RXQ c) 4)
/-- NUT_POS_READ (R216): A read of NUT POS captures POSTS into the reader's snapshot. -/
def execNutPosRead (m : Master) (c : Fin 32) (s : State) : Host.Outcome State Fault Refusal := done (s.busRead m (NUT_POS c) 4)
/-- JOIN_WRITE (R210): A write changing CFG.JOIN joins the pair's queues and empties all four, or is ignored. -/
def execJoinWrite (m : Master) (c : Fin 32) (v : Word) (s : State) : Host.Outcome State Fault Refusal := done (s.wordWrite m (NUT_CFG c) v)

end Sys2Proof.Machine
end

