-- ==== Sys2Proof/Machine/CmdPort.lean ====
section
/-! DEFINITION. The meanings of the engines' port registers and the frames they send. -/

namespace Sys2Proof.Machine

open Sys2Proof

/-- BEAT_RELEASE (R121): A beat of a forwarded frame is released into staging once the leading edge is 96 bytes ahead or the frame has ended. -/
def execBeatRelease (e : Fin 16) (s : State) : Host.Outcome State Fault Refusal := done (s.inDom (engDom e) (fun s => s.beatRelease e))
/-- RXBASE (R119): A write of ENG_PS_RXBASE moves the receive window upward, stalling until the bytes are fetched. -/
def execRxbase (e : Fin 16) (t : Fin 4) (v : Word) (s : State) : Host.Outcome State Fault Refusal := done (s.portAccess e t 0x300 (some v))
/-- FWD (R121): A write of RXCMD.FWD forwards the bound copy on the fly as a new frame from the engine's port. -/
def execFwd (e : Fin 16) (t : Fin 4) (s : State) : Host.Outcome State Fault Refusal := done (s.portAccess e t 0x310 (some 1))
/-- TXCMD (R123): A write of ENG_PS_TXCMD sends an originated frame from the header and D space, or sets BADLEN. -/
def execTxcmd (e : Fin 16) (t : Fin 4) (v : Word) (s : State) : Host.Outcome State Fault Refusal := done (s.portAccess e t 0x330 (some v))
/-- DONE (R128): A write of ENG_PS_DONE ends the thread's item, emitting tokens for a kind-6 item. -/
def execDone (e : Fin 16) (t : Fin 4) (s : State) : Host.Outcome State Fault Refusal := done (s.portAccess e t 0x410 (some 0))
/-- POSTGO (R132): A write of ENG_PS_POSTGO posts the staged item, stalling while its level is full. -/
def execPostgo (e : Fin 16) (t : Fin 4) (s : State) : Host.Outcome State Fault Refusal := done (s.portAccess e t 0x420 (some 0))
/-- TRYGO (R132): A write of ENG_PS_TRYGO posts the staged item if its level has room, never stalling. -/
def execTrygo (e : Fin 16) (t : Fin 4) (s : State) : Host.Outcome State Fault Refusal := done (s.portAccess e t 0x424 (some 0))
/-- TOKEN (R131): A write of ENG_PS_TOKEN adds one token to a node input or is refused. -/
def execToken (e : Fin 16) (t : Fin 4) (v : Word) (s : State) : Host.Outcome State Fault Refusal := done (s.portAccess e t 0x42C (some v))
/-- BRDATA_ACCESS (R117): An access to BRDATA moves 32 bits at BRADDR through the bridge under the permission masks. -/
def execBrdataAccess (e : Fin 16) (t : Fin 4) (w : Option Word) (s : State) : Host.Outcome State Fault Refusal := done (s.portAccess e t 0x604 w)
/-- MBSEND (R339): A write of ENG_PS_MBSEND sends a 64-byte message from D space on a send slot. -/
def execMbsend (e : Fin 16) (t : Fin 4) (i : Fin 3) (v : Word) (s : State) : Host.Outcome State Fault Refusal :=
  done (s.portAccess e t (0x440 + 4 * i) (some v))
/-- MBRECV (R339): A write of ENG_PS_MBRECV copies the oldest message of a receive slot to D space and pops it. -/
def execMbrecv (e : Fin 16) (t : Fin 4) (i : Fin 3) (v : Word) (s : State) : Host.Outcome State Fault Refusal :=
  done (s.portAccess e t (0x450 + 4 * i) (some v))
/-- DBRING (R341): A write of ENG_PS_DBRING or MBX_DBRING rings a receiver's doorbell. -/
def execDbring (m : Master) (v : Word) (s : State) : Host.Outcome State Fault Refusal := done (s.dbRingBy m v)
/-- ORIGINATED_FRAME_STAGED (R123): The last byte of an originated frame enters staging and TXSTAT.BUSY clears. -/
def execOriginatedFrameStaged (e : Fin 16) (t : Fin 4) (s : State) : Host.Outcome State Fault Refusal :=
  done (s.inDom (engDom e) (fun s => s.txStaged e t))

end Sys2Proof.Machine
end

