-- ==== Sys2Proof/Machine/CmdSaf.lean ====
section
/-! DEFINITION. The meanings of Saffron. -/

namespace Sys2Proof.Machine

open Sys2Proof

/-- SAFETY_CYCLE (R249): At each 100 µs each Saffron channel exchanges and compares cycle records. -/
def execSafetyCycle (r : SafRec) (s : State) : Host.Outcome State Fault Refusal := done (s.safetyCycle r)
/-- SAF_CLOCK_FAULT (R250): A deviation above 8 % between the Saffron clocks gives reason 0x0C. -/
def execSafClockFault (s : State) : Host.Outcome State Fault Refusal := done (s.safClock)
/-- SAF_SUPPLY_FAULT (R250): The SAF supply outside its window for 2 µs gives reason 0x0D. -/
def execSafSupplyFault (ch : Fin 2) (s : State) : Host.Outcome State Fault Refusal := done (s.safSupply ch)
/-- OUTPUT_DELAY_EXPIRY (R252): An output's DELAY after a decision or a non-reaction exit ends and it is de-energised. -/
def execOutputDelayExpiry (o : Fin 4) (s : State) : Host.Outcome State Fault Refusal := done (s.delayEnd o)
/-- SAF_CONTACT_CHANGE (R258): A filtered contact level change moves its pair's state. -/
def execSafContactChange (ix : Fin 8 × Fin 3) (c1 c2 : Bool) (s : State) : Host.Outcome State Fault Refusal := done (s.contactChange ix.1 c1 c2 ix.2)
/-- DISCREPANCY_EXPIRY (R258): DISC expires with the contacts disagreeing and the pair enters FAULT. -/
def execDiscrepancyExpiry (i : Fin 8) (s : State) : Host.Outcome State Fault Refusal := done (s.discExpiry i)
/-- FAULT_OPEN_TIME (R258): Both contacts of a FAULT pair read open for DISC and it returns to OPEN. -/
def execFaultOpenTime (i : Fin 8) (s : State) : Host.Outcome State Fault Refusal := done (s.faultOpen i)
/-- TEST_PULSE (R259): A test pulse runs and a contact not read open in its last 100 µs gives reason 0x03. -/
def execTestPulse (i : Fin 8) (isOpen : Bool) (s : State) : Host.Outcome State Fault Refusal := done (s.testPulse i isOpen)
/-- FEEDBACK_TIMEOUT (R260): A feedback input not matching its command within FBTIME, or losing it, latches FBFLT with reason 0x08. -/
def execFeedbackTimeout (f : Fin 4) (lvl : Bool) (s : State) : Host.Outcome State Fault Refusal := done (s.feedback f lvl)
/-- SWITCH_TEST (R261): A safe output or brake switch is test-pulsed and a failed test gives reason 0x09. -/
def execSwitchTest (o : Fin 4) (passed : Bool) (s : State) : Host.Outcome State Fault Refusal := done (s.switchTest o passed)
/-- BRAKE_RELEASE (R257): RELDLY ms after the OPERATIONAL apply point each brake is released. -/
def execBrakeRelease (b : Fin 2) (s : State) : Host.Outcome State Fault Refusal := done (s.brakeRelease b)
/-- PRODUCER_SEND (R264): Each PERIOD or on a change of byte 0 a producer connection sends its PDU copies. -/
def execProducerSend (k : Fin 16 × Bool) (s : State) : Host.Outcome State Fault Refusal := done (s.producerSend k.1 k.2)
/-- PDU_RECEIVE (R265): An arriving safety PDU copy is checked and delivered or handled by the consumer state machine. -/
def execPduReceive (s : State) : Host.Outcome State Fault Refusal := done (s.pduReceive)
/-- COMPARE_WINDOW_EXPIRY (R266): A PAIR compare window expires, failing with reason 0x05 or falling back to SINGLE. -/
def execCompareWindowExpiry (k : Fin 16) (s : State) : Host.Outcome State Fault Refusal := done (s.cmpExpiry k)
/-- CONNECTION_WATCHDOG (R266): A connection watchdog expires and it fails with reason 0x04. -/
def execConnectionWatchdog (k : Fin 16) (s : State) : Host.Outcome State Fault Refusal := done (s.connWdog k)
/-- BRAKE_TEST_TORQUE_REQUEST (R268): 10 ms after acceptance Saffron sends the torque request to Cardamom. -/
def execBrakeTestTorqueRequest (s : State) : Host.Outcome State Fault Refusal := done (s.testTorque)
/-- BRAKE_TEST_END (R268): BTTIME ends the torque request, and 20 ms later BTSO is de-energised and the result recorded. -/
def execBrakeTestEnd (s : State) : Host.Outcome State Fault Refusal := done (s.testEnd)
/-- BRAKE_HOUR (R269): Each powered hour increments a brake's hours and may set BTDUE or BTOVER. -/
def execBrakeHour (b : Fin 2) (s : State) : Host.Outcome State Fault Refusal := done (s.brakeHour b)
/-- SAFE_PAIRING_TIMEOUT (R405): 100 ms pass without an identical copy in the other channel and the held command ends with SAFE_UNPAIRED. -/
def execSafePairingTimeout (ch snd : Fin 2) (s : State) : Host.Outcome State Fault Refusal := done (s.safUnpair ch snd)
/-- SAFFRON_RESTART (R276): After a warm reset reaction, with every output off, Saffron restarts as at power-on. -/
def execSaffronRestart (s : State) : Host.Outcome State Fault Refusal := done (s.safRestartDue)

end Sys2Proof.Machine
end

