-- ==== Sys2Proof/Machine/CmdTime.lean ====
section
/-! DEFINITION. The meanings of the time spine, the Line Angle Units, the Itinerary and the edge placers. -/

namespace Sys2Proof.Machine

open Sys2Proof

/-- TIME_STEP (R33): CTRL.STEP adds the step offset to a domain in ACQ and enters TRACK, or is refused with STEPST set. -/
def execTimeStep (m : Master) (d : Fin 4) (s : State) : Host.Outcome State Fault Refusal := done (s.fieldWrite m (TIME_DOM_CTRL_STEP d) 1)
/-- TIME_FREE (R33): CTRL.FREE returns a domain to FREE, raising TIME_REARM when it was in TRACK. -/
def execTimeFree (m : Master) (d : Fin 4) (s : State) : Host.Outcome State Fault Refusal := done (s.fieldWrite m (TIME_DOM_CTRL_FREE d) 1)
/-- TIME_ACQ (R33): CTRL.ACQ moves a domain from FREE to ACQ to wait for its acquisition step. -/
def execTimeAcq (m : Master) (d : Fin 4) (s : State) : Host.Outcome State Fault Refusal := done (s.fieldWrite m (TIME_DOM_CTRL_ACQ d) 1)
/-- TIME_ADJ_WRITE (R32): A write of ADJ is clamped to ±1,000 ppm, setting ADJCLAMP, and takes effect at the next TIME_CLK cycle. -/
def execTimeAdjWrite (m : Master) (d : Fin 4) (v : Word) (s : State) : Host.Outcome State Fault Refusal := done (s.wordWrite m (TIME_DOM_ADJ d) v)
/-- TIME_NS_READ (R35): A read of TIME_DOM NS captures seconds, FRAC and CYC of the same cycle into the reader's snapshot. -/
def execTimeNsRead (m : Master) (d : Fin 4) (s : State) : Host.Outcome State Fault Refusal := done (s.busRead m (TIME_DOM_NS d) 4)
/-- PPS_EDGE (R37): A rising PPS_IN edge captures all four domains and is accepted or rejected by its interval. -/
def execPpsEdge (e8 : Fin 8) (s : State) : Host.Outcome State Fault Refusal := done (s.ppsEdge e8)
/-- PPS_LOST (R39): 2.5 s without an accepted edge sets LOST and raises TIME_PPSLOST, leaving the domain in holdover. -/
def execPpsLost (s : State) : Host.Outcome State Fault Refusal := done (s.ppsLost)
/-- NET_TS (R45): A write of LAU NET_TS submits the network angle measurement, or counts a rejection. -/
def execNetTs (m : Master) (u : Fin 2) (ts : Word) (s : State) : Host.Outcome State Fault Refusal := done (s.wordWrite m (LAU_NET_TS u) ts)
/-- LAU_ENABLE (R47): A write of LAU CTRL.EN starts or stops the LAU, its silence count and its estimate. -/
def execLauEnable (m : Master) (u : Fin 2) (en : Bool) (s : State) : Host.Outcome State Fault Refusal :=
  done (s.fieldWrite m (LAU_CTRL_EN u) (bit en))
/-- REACQ (R45): CTRL.REACQ discards the estimate so the next accepted measurement re-initialises it. -/
def execReacq (m : Master) (u : Fin 2) (s : State) : Host.Outcome State Fault Refusal := done (s.fieldWrite m (LAU_CTRL_REACQ u) 1)
/-- SETANG (R48): CTRL.SETANG moves θ̂ to the set angle through OFFSET, or is refused with SETREF when an armed angle slot references the LAU. -/
def execSetang (m : Master) (u : Fin 2) (s : State) : Host.Outcome State Fault Refusal := done (s.fieldWrite m (LAU_CTRL_SETANG u) 1)
/-- SRCLOST (R47): MAXAGE µs of silence sets SRCLOST, raises LAU_SRCLOST, zeroes α̂ and may hold the LAU's angle slots. -/
def execSrclost (u : Fin 2) (s : State) : Host.Outcome State Fault Refusal := done (s.inBlk 7 (.lau u) (fun s => s.lauLost u))
/-- LAU_APPLY_BOUNDARY (R49): At an LAU's apply boundary its RWT shadow is checked and becomes active. -/
def execLauApplyBoundary (u : Fin 2) (s : State) : Host.Outcome State Fault Refusal := done (s.inBlk 7 (.lau u) (fun s => s.lauBoundary u))
/-- ITIN_SLOT_ARM (R50): A CTRL write with ARM = 1 to an idle slot checks its configuration, argument, LAU and target and arms it or sets RESULT. -/
def execItinSlotArm (m : Master) (n : Fin 512) (v : Word) (s : State) : Host.Outcome State Fault Refusal :=
  done (s.wordWrite m (ITIN_SLOT_CTRL n) (v ||| 0x80000000#32))
/-- ITIN_SLOT_DISARM (R52): A CTRL write with ARM = 0 disarms the slot and cancels any action not yet issued. -/
def execItinSlotDisarm (m : Master) (n : Fin 512) (v : Word) (s : State) : Host.Outcome State Fault Refusal :=
  done (s.wordWrite m (ITIN_SLOT_CTRL n) (v &&& 0x7FFFFFFF#32))
/-- ITIN_SLOT_DUE (R41): A time slot's due count is reached by the signed-difference rule and its action is queued for issue. -/
def execItinSlotDue (n : Fin 512) (s : State) : Host.Outcome State Fault Refusal := done (s.inDom 7 (fun s => s.slotDue n))
/-- ANGLE_PREDICT (R53): At each schedule count that is a multiple of 32, every angle slot re-predicts, waits, commits or fires on a crossing. -/
def execAnglePredict (s : State) : Host.Outcome State Fault Refusal := done (s.inDom 7 (fun s => s.anglePredict))
/-- ITIN_ISSUE (R53): Up to four due actions per cycle issue in order of due cycle and slot number, and periodic slots re-arm. -/
def execItinIssue (s : State) : Host.Outcome State Fault Refusal := done (s.inDom 7 (fun s => s.itinIssue))
/-- ITIN_POST_QUEUE_DRAIN (R54): A post action held in the post queue is posted when its Dispatcher level has room. -/
def execItinPostQueueDrain (s : State) : Host.Outcome State Fault Refusal := done (s.inDom 7 (fun s => s.itinDrain))
/-- MISSCLR (R57): Writing STAT.MISSCLR clears the slot's MISS count. -/
def execMissclr (m : Master) (n : Fin 512) (s : State) : Host.Outcome State Fault Refusal := done (s.fieldWrite m (ITIN_SLOT_STAT_MISSCLR n) 1)
/-- EDGE_HANDOVER (R55): 16 ns before its due time, or at a late issue, an edge action is handed to its placer or discarded. -/
def execEdgeHandover (n : Fin 512) (s : State) : Host.Outcome State Fault Refusal := done (s.inDom 7 (fun s => s.slotHand n))
/-- EDGE_PLACE (R59): A pending edge reaches the ball at its time, changing the placer's level and LAST. -/
def execEdgePlace (n : Fin 16) (s : State) : Host.Outcome State Fault Refusal := done (s.inBlk 7 .edge (fun s => s.edgePlace n))

end Sys2Proof.Machine
end

