-- ==== Sys2Proof/Machine/Dispatch.lean ====
section
/-! DEFINITION. The one dispatch of a command to its meaning, one arm per constructor of Instr. -/

namespace Sys2Proof.Machine

open Sys2Proof

/-- The effect of a command on everything but the queue. (log 1, DESIGN CHOICE) -/
def exec (i : Instr) (s : State) : Host.Outcome State Fault Refusal :=
  match i with
  | .registerWrite m a n v => Sys2Proof.Machine.execRegisterWrite m a n v s
  | .readClear m a n => Sys2Proof.Machine.execReadClear m a n s
  | .pairLoRead m a => Sys2Proof.Machine.execPairLoRead m a s
  | .pairLoWrite m a v => Sys2Proof.Machine.execPairLoWrite m a v s
  | .pairHiWrite m a v => Sys2Proof.Machine.execPairHiWrite m a v s
  | .rwtWrite m a v => Sys2Proof.Machine.execRwtWrite m a v s
  | .poreset test spi hold fuses => Sys2Proof.Machine.execPoreset test spi hold fuses s
  | .startUp r => Sys2Proof.Machine.execStartUp r s
  | .sysWdogExpiry => Sys2Proof.Machine.execSysWdogExpiry s
  | .hostPortReset => Sys2Proof.Machine.execHostPortReset s
  | .networkCycleBoundary ix => Sys2Proof.Machine.execNetworkCycleBoundary ix s
  | .modeTransitionComplete => Sys2Proof.Machine.execModeTransitionComplete s
  | .refclkLoss => Sys2Proof.Machine.execRefclkLoss s
  | .pllLossOfLock k => Sys2Proof.Machine.execPllLossOfLock k s
  | .supplyOutOfRange r => Sys2Proof.Machine.execSupplyOutOfRange r s
  | .tempUpdate t => Sys2Proof.Machine.execTempUpdate t s
  | .timeStep m d => Sys2Proof.Machine.execTimeStep m d s
  | .timeFree m d => Sys2Proof.Machine.execTimeFree m d s
  | .timeAcq m d => Sys2Proof.Machine.execTimeAcq m d s
  | .timeAdjWrite m d v => Sys2Proof.Machine.execTimeAdjWrite m d v s
  | .timeNsRead m d => Sys2Proof.Machine.execTimeNsRead m d s
  | .ppsEdge e8 => Sys2Proof.Machine.execPpsEdge e8 s
  | .ppsLost => Sys2Proof.Machine.execPpsLost s
  | .netTs m u ts => Sys2Proof.Machine.execNetTs m u ts s
  | .lauEnable m u en => Sys2Proof.Machine.execLauEnable m u en s
  | .reacq m u => Sys2Proof.Machine.execReacq m u s
  | .setang m u => Sys2Proof.Machine.execSetang m u s
  | .srclost u => Sys2Proof.Machine.execSrclost u s
  | .lauApplyBoundary u => Sys2Proof.Machine.execLauApplyBoundary u s
  | .itinSlotArm m n v => Sys2Proof.Machine.execItinSlotArm m n v s
  | .itinSlotDisarm m n v => Sys2Proof.Machine.execItinSlotDisarm m n v s
  | .itinSlotDue n => Sys2Proof.Machine.execItinSlotDue n s
  | .anglePredict => Sys2Proof.Machine.execAnglePredict s
  | .itinIssue => Sys2Proof.Machine.execItinIssue s
  | .itinPostQueueDrain => Sys2Proof.Machine.execItinPostQueueDrain s
  | .missclr m n => Sys2Proof.Machine.execMissclr m n s
  | .edgeHandover n => Sys2Proof.Machine.execEdgeHandover n s
  | .edgePlace n => Sys2Proof.Machine.execEdgePlace n s
  | .macModeWrite m p v => Sys2Proof.Machine.execMacModeWrite m p v s
  | .anrestart m p => Sys2Proof.Machine.execAnrestart m p s
  | .macCntclr m p => Sys2Proof.Machine.execMacCntclr m p s
  | .macRxen m p on => Sys2Proof.Machine.execMacRxen m p on s
  | .frameReceive p e8 b fin => Sys2Proof.Machine.execFrameReceive p e8 b fin s
  | .pauseReceive p q => Sys2Proof.Machine.execPauseReceive p q s
  | .pfcReceive p vec qs => Sys2Proof.Machine.execPfcReceive p vec qs s
  | .pauseHoldExpiry p k => Sys2Proof.Machine.execPauseHoldExpiry p k s
  | .flowControlRepeat p => Sys2Proof.Machine.execFlowControlRepeat p s
  | .fctx m p v => Sys2Proof.Machine.execFctx m p v s
  | .tsfHdrRead m p => Sys2Proof.Machine.execTsfHdrRead m p s
  | .transmissionSelect p => Sys2Proof.Machine.execTransmissionSelect p s
  | .launchTimeDue p c => Sys2Proof.Machine.execLaunchTimeDue p c s
  | .transmissionEnd p e8 => Sys2Proof.Machine.execTransmissionEnd p e8 s
  | .linkDown p => Sys2Proof.Machine.execLinkDown p s
  | .linkUp p lp v ms => Sys2Proof.Machine.execLinkUp p lp v ms s
  | .autospeedIdle p => Sys2Proof.Machine.execAutospeedIdle p s
  | .autospeedRestore p => Sys2Proof.Machine.execAutospeedRestore p s
  | .autospeedFail p => Sys2Proof.Machine.execAutospeedFail p s
  | .lpiEntry p => Sys2Proof.Machine.execLpiEntry p s
  | .preemptVerify p => Sys2Proof.Machine.execPreemptVerify p s
  | .bufSwcellsWrite m v => Sys2Proof.Machine.execBufSwcellsWrite m v s
  | .stagingRefill => Sys2Proof.Machine.execStagingRefill s
  | .gateEntryEnd p => Sys2Proof.Machine.execGateEntryEnd p s
  | .cbRecoveryReset f => Sys2Proof.Machine.execCbRecoveryReset f s
  | .fdbAgeOut => Sys2Proof.Machine.execFdbAgeOut s
  | .swxCntclr m p => Sys2Proof.Machine.execSwxCntclr m p s
  | .switchApplyBoundary => Sys2Proof.Machine.execSwitchApplyBoundary s
  | .engMemdataWrite m n v => Sys2Proof.Machine.execEngMemdataWrite m n v s
  | .engMemdataRead m n => Sys2Proof.Machine.execEngMemdataRead m n s
  | .engRun m n v => Sys2Proof.Machine.execEngRun m n v s
  | .engReset m n => Sys2Proof.Machine.execEngReset m n s
  | .engResetRelease m n => Sys2Proof.Machine.execEngResetRelease m n s
  | .engineCopySend n => Sys2Proof.Machine.execEngineCopySend n s
  | .dispatchItem k => Sys2Proof.Machine.execDispatchItem k s
  | .heldPostRelease kind ix => Sys2Proof.Machine.execHeldPostRelease kind ix s
  | .threadStallEnd e t um => Sys2Proof.Machine.execThreadStallEnd e t um s
  | .beatRelease e => Sys2Proof.Machine.execBeatRelease e s
  | .dispClcfgWrite m v => Sys2Proof.Machine.execDispClcfgWrite m v s
  | .dispTimerExpiry ix => Sys2Proof.Machine.execDispTimerExpiry ix s
  | .dispSwpost m v => Sys2Proof.Machine.execDispSwpost m v s
  | .nodeFire k => Sys2Proof.Machine.execNodeFire k s
  | .dispApplyBoundary => Sys2Proof.Machine.execDispApplyBoundary s
  | .rxbase e t v => Sys2Proof.Machine.execRxbase e t v s
  | .fwd e t => Sys2Proof.Machine.execFwd e t s
  | .txcmd e t v => Sys2Proof.Machine.execTxcmd e t v s
  | .done e t => Sys2Proof.Machine.execDone e t s
  | .postgo e t => Sys2Proof.Machine.execPostgo e t s
  | .trygo e t => Sys2Proof.Machine.execTrygo e t s
  | .token e t v => Sys2Proof.Machine.execToken e t v s
  | .brdataAccess e t w => Sys2Proof.Machine.execBrdataAccess e t w s
  | .mbsend e t ix v => Sys2Proof.Machine.execMbsend e t ix v s
  | .mbrecv e t ix v => Sys2Proof.Machine.execMbrecv e t ix v s
  | .dbring m v => Sys2Proof.Machine.execDbring m v s
  | .addC e t ecc => Sys2Proof.Machine.execAddC e t ecc s
  | .subC e t ecc => Sys2Proof.Machine.execSubC e t ecc s
  | .andC e t ecc => Sys2Proof.Machine.execAndC e t ecc s
  | .orC e t ecc => Sys2Proof.Machine.execOrC e t ecc s
  | .xorC e t ecc => Sys2Proof.Machine.execXorC e t ecc s
  | .andn e t ecc => Sys2Proof.Machine.execAndn e t ecc s
  | .sll e t ecc => Sys2Proof.Machine.execSll e t ecc s
  | .srl e t ecc => Sys2Proof.Machine.execSrl e t ecc s
  | .sra e t ecc => Sys2Proof.Machine.execSra e t ecc s
  | .ror e t ecc => Sys2Proof.Machine.execRor e t ecc s
  | .slli e t ecc => Sys2Proof.Machine.execSlli e t ecc s
  | .srli e t ecc => Sys2Proof.Machine.execSrli e t ecc s
  | .srai e t ecc => Sys2Proof.Machine.execSrai e t ecc s
  | .rori e t ecc => Sys2Proof.Machine.execRori e t ecc s
  | .min e t ecc => Sys2Proof.Machine.execMin e t ecc s
  | .max e t ecc => Sys2Proof.Machine.execMax e t ecc s
  | .minu e t ecc => Sys2Proof.Machine.execMinu e t ecc s
  | .maxu e t ecc => Sys2Proof.Machine.execMaxu e t ecc s
  | .sel e t ecc => Sys2Proof.Machine.execSel e t ecc s
  | .ceq e t ecc => Sys2Proof.Machine.execCeq e t ecc s
  | .cne e t ecc => Sys2Proof.Machine.execCne e t ecc s
  | .clt e t ecc => Sys2Proof.Machine.execClt e t ecc s
  | .cltu e t ecc => Sys2Proof.Machine.execCltu e t ecc s
  | .cle e t ecc => Sys2Proof.Machine.execCle e t ecc s
  | .cleu e t ecc => Sys2Proof.Machine.execCleu e t ecc s
  | .mulC e t ecc => Sys2Proof.Machine.execMulC e t ecc s
  | .mulh e t ecc => Sys2Proof.Machine.execMulh e t ecc s
  | .mulhu e t ecc => Sys2Proof.Machine.execMulhu e t ecc s
  | .mulhsu e t ecc => Sys2Proof.Machine.execMulhsu e t ecc s
  | .divC e t ecc => Sys2Proof.Machine.execDivC e t ecc s
  | .divu e t ecc => Sys2Proof.Machine.execDivu e t ecc s
  | .rem e t ecc => Sys2Proof.Machine.execRem e t ecc s
  | .remu e t ecc => Sys2Proof.Machine.execRemu e t ecc s
  | .bswap e t ecc => Sys2Proof.Machine.execBswap e t ecc s
  | .bswaph e t ecc => Sys2Proof.Machine.execBswaph e t ecc s
  | .clz e t ecc => Sys2Proof.Machine.execClz e t ecc s
  | .popc e t ecc => Sys2Proof.Machine.execPopc e t ecc s
  | .extu e t ecc => Sys2Proof.Machine.execExtu e t ecc s
  | .exts e t ecc => Sys2Proof.Machine.execExts e t ecc s
  | .ins e t ecc => Sys2Proof.Machine.execIns e t ecc s
  | .crcb e t ecc => Sys2Proof.Machine.execCrcb e t ecc s
  | .xchg e t ecc => Sys2Proof.Machine.execXchg e t ecc s
  | .fadd e t ecc => Sys2Proof.Machine.execFadd e t ecc s
  | .fand e t ecc => Sys2Proof.Machine.execFand e t ecc s
  | .forC e t ecc => Sys2Proof.Machine.execForC e t ecc s
  | .mfs e t ecc => Sys2Proof.Machine.execMfs e t ecc s
  | .mts e t ecc => Sys2Proof.Machine.execMts e t ecc s
  | .snap e t ecc => Sys2Proof.Machine.execSnap e t ecc s
  | .trap e t ecc => Sys2Proof.Machine.execTrap e t ecc s
  | .rett e t ecc => Sys2Proof.Machine.execRett e t ecc s
  | .illegalInstruction e t ecc => Sys2Proof.Machine.execIllegalInstruction e t ecc s
  | .addi e t ecc => Sys2Proof.Machine.execAddi e t ecc s
  | .andi e t ecc => Sys2Proof.Machine.execAndi e t ecc s
  | .ori e t ecc => Sys2Proof.Machine.execOri e t ecc s
  | .xori e t ecc => Sys2Proof.Machine.execXori e t ecc s
  | .ceqi e t ecc => Sys2Proof.Machine.execCeqi e t ecc s
  | .clti e t ecc => Sys2Proof.Machine.execClti e t ecc s
  | .cltui e t ecc => Sys2Proof.Machine.execCltui e t ecc s
  | .lui e t ecc => Sys2Proof.Machine.execLui e t ecc s
  | .ldb e t ecc => Sys2Proof.Machine.execLdb e t ecc s
  | .ldbu e t ecc => Sys2Proof.Machine.execLdbu e t ecc s
  | .ldh e t ecc => Sys2Proof.Machine.execLdh e t ecc s
  | .ldhu e t ecc => Sys2Proof.Machine.execLdhu e t ecc s
  | .ld e t ecc => Sys2Proof.Machine.execLd e t ecc s
  | .stb e t ecc => Sys2Proof.Machine.execStb e t ecc s
  | .sth e t ecc => Sys2Proof.Machine.execSth e t ecc s
  | .st e t ecc => Sys2Proof.Machine.execSt e t ecc s
  | .ldi e t ecc => Sys2Proof.Machine.execLdi e t ecc s
  | .sti e t ecc => Sys2Proof.Machine.execSti e t ecc s
  | .inb e t ecc => Sys2Proof.Machine.execInb e t ecc s
  | .inh e t ecc => Sys2Proof.Machine.execInh e t ecc s
  | .inC e t ecc => Sys2Proof.Machine.execInC e t ecc s
  | .outb e t ecc => Sys2Proof.Machine.execOutb e t ecc s
  | .outh e t ecc => Sys2Proof.Machine.execOuth e t ecc s
  | .out e t ecc => Sys2Proof.Machine.execOut e t ecc s
  | .ldp e t ecc => Sys2Proof.Machine.execLdp e t ecc s
  | .stp e t ecc => Sys2Proof.Machine.execStp e t ecc s
  | .inp e t ecc => Sys2Proof.Machine.execInp e t ecc s
  | .outp e t ecc => Sys2Proof.Machine.execOutp e t ecc s
  | .bz e t ecc => Sys2Proof.Machine.execBz e t ecc s
  | .bnz e t ecc => Sys2Proof.Machine.execBnz e t ecc s
  | .j e t ecc => Sys2Proof.Machine.execJ e t ecc s
  | .call e t ecc => Sys2Proof.Machine.execCall e t ecc s
  | .jr e t ecc => Sys2Proof.Machine.execJr e t ecc s
  | .callr e t ecc => Sys2Proof.Machine.execCallr e t ecc s
  | .ret e t ecc => Sys2Proof.Machine.execRet e t ecc s
  | .dbnz e t ecc => Sys2Proof.Machine.execDbnz e t ecc s
  | .repImm e t ecc => Sys2Proof.Machine.execRepImm e t ecc s
  | .repRc e t ecc => Sys2Proof.Machine.execRepRc e t ecc s
  | .customInstruction e t fe um => Sys2Proof.Machine.execCustomInstruction e t fe um s
  | .protLoss ix => Sys2Proof.Machine.execProtLoss ix s
  | .protTimeout ix tries late => Sys2Proof.Machine.execProtTimeout ix tries late s
  | .canInitSet m n => Sys2Proof.Machine.execCanInitSet m n s
  | .canInitAck n => Sys2Proof.Machine.execCanInitAck n s
  | .canInitLeave m n => Sys2Proof.Machine.execCanInitLeave m n s
  | .canIntegration n => Sys2Proof.Machine.execCanIntegration n s
  | .canFrameReceive n f err => Sys2Proof.Machine.execCanFrameReceive n f err s
  | .canTxStart n => Sys2Proof.Machine.execCanTxStart n s
  | .canTxEnd n e => Sys2Proof.Machine.execCanTxEnd n e s
  | .borec m n => Sys2Proof.Machine.execBorec m n s
  | .busOffRecoveryEnd n => Sys2Proof.Machine.execBusOffRecoveryEnd n s
  | .ttrestart m n => Sys2Proof.Machine.execTtrestart m n s
  | .lock m n o => Sys2Proof.Machine.execLock m n o s
  | .unlock m n o => Sys2Proof.Machine.execUnlock m n o s
  | .release m n o => Sys2Proof.Machine.execRelease m n o s
  | .txreq m n o => Sys2Proof.Machine.execTxreq m n o s
  | .txabort m n o => Sys2Proof.Machine.execTxabort m n o s
  | .startwaitExpiry n => Sys2Proof.Machine.execStartwaitExpiry n s
  | .referenceMiss n => Sys2Proof.Machine.execReferenceMiss n s
  | .takeover n => Sys2Proof.Machine.execTakeover n s
  | .ttWindowStart n w => Sys2Proof.Machine.execTtWindowStart n w s
  | .ttWindowEnd n w => Sys2Proof.Machine.execTtWindowEnd n w s
  | .guardianMeasure n khz => Sys2Proof.Machine.execGuardianMeasure n khz s
  | .guardianCut n => Sys2Proof.Machine.execGuardianCut n s
  | .nutNop c => Sys2Proof.Machine.execNutNop c s
  | .nutHalt c => Sys2Proof.Machine.execNutHalt c s
  | .wstart c => Sys2Proof.Machine.execWstart c s
  | .mark c => Sys2Proof.Machine.execMark c s
  | .crcclr c => Sys2Proof.Machine.execCrcclr c s
  | .srclr c => Sys2Proof.Machine.execSrclr c s
  | .shin c => Sys2Proof.Machine.execShin c s
  | .shout c => Sys2Proof.Machine.execShout c s
  | .shiftEnd c samples => Sys2Proof.Machine.execShiftEnd c samples s
  | .pull c => Sys2Proof.Machine.execPull c s
  | .push c => Sys2Proof.Machine.execPush c s
  | .nutQueueStallEnd c => Sys2Proof.Machine.execNutQueueStallEnd c s
  | .setp c => Sys2Proof.Machine.execSetp c s
  | .waitp c => Sys2Proof.Machine.execWaitp c s
  | .waitpMet c pins => Sys2Proof.Machine.execWaitpMet c pins s
  | .waitt c => Sys2Proof.Machine.execWaitt c s
  | .waittEnd c => Sys2Proof.Machine.execWaittEnd c s
  | .waitc c => Sys2Proof.Machine.execWaitc c s
  | .ldx c => Sys2Proof.Machine.execLdx c s
  | .jmp c => Sys2Proof.Machine.execJmp c s
  | .djnz c => Sys2Proof.Machine.execDjnz c s
  | .jcond c => Sys2Proof.Machine.execJcond c s
  | .flag c => Sys2Proof.Machine.execFlag c s
  | .pos c => Sys2Proof.Machine.execPos c s
  | .nutIllegal c => Sys2Proof.Machine.execNutIllegal c s
  | .nutCountEdge c pins => Sys2Proof.Machine.execNutCountEdge c pins s
  | .nutMatch c => Sys2Proof.Machine.execNutMatch c s
  | .nutWrap c => Sys2Proof.Machine.execNutWrap c s
  | .zcap c => Sys2Proof.Machine.execZcap c s
  | .nutRelease => Sys2Proof.Machine.execNutRelease s
  | .swstart m c => Sys2Proof.Machine.execSwstart m c s
  | .nutEnable m c v => Sys2Proof.Machine.execNutEnable m c v s
  | .qclr m c => Sys2Proof.Machine.execQclr m c s
  | .inj m c v => Sys2Proof.Machine.execInj m c v s
  | .injectIssue c => Sys2Proof.Machine.execInjectIssue c s
  | .nutWdogTimeout c => Sys2Proof.Machine.execNutWdogTimeout c s
  | .txqWrite m c v => Sys2Proof.Machine.execTxqWrite m c v s
  | .rxqRead m c => Sys2Proof.Machine.execRxqRead m c s
  | .nutPosRead m c => Sys2Proof.Machine.execNutPosRead m c s
  | .joinWrite m c v => Sys2Proof.Machine.execJoinWrite m c v s
  | .loopNvWrite m ix v => Sys2Proof.Machine.execLoopNvWrite m ix v s
  | .swtrig m k => Sys2Proof.Machine.execSwtrig m k s
  | .loopEvalStart => Sys2Proof.Machine.execLoopEvalStart s
  | .loopEvalEnd => Sys2Proof.Machine.execLoopEvalEnd s
  | .loopBankCopyEnd k => Sys2Proof.Machine.execLoopBankCopyEnd k s
  | .stclr m k => Sys2Proof.Machine.execStclr m k s
  | .loopCtxEnable m k v => Sys2Proof.Machine.execLoopCtxEnable m k v s
  | .loopCoefWrite m k ix v => Sys2Proof.Machine.execLoopCoefWrite m k ix v s
  | .coefBankSramWrite m a n v => Sys2Proof.Machine.execCoefBankSramWrite m a n v s
  | .captureStart m v => Sys2Proof.Machine.execCaptureStart m v s
  | .brakeTestTorque => Sys2Proof.Machine.execBrakeTestTorque s
  | .safetyCycle r => Sys2Proof.Machine.execSafetyCycle r s
  | .safClockFault => Sys2Proof.Machine.execSafClockFault s
  | .safSupplyFault ch => Sys2Proof.Machine.execSafSupplyFault ch s
  | .outputDelayExpiry o => Sys2Proof.Machine.execOutputDelayExpiry o s
  | .safContactChange ix c1 c2 => Sys2Proof.Machine.execSafContactChange ix c1 c2 s
  | .discrepancyExpiry ix => Sys2Proof.Machine.execDiscrepancyExpiry ix s
  | .faultOpenTime ix => Sys2Proof.Machine.execFaultOpenTime ix s
  | .testPulse ix isOpen => Sys2Proof.Machine.execTestPulse ix isOpen s
  | .feedbackTimeout f lvl => Sys2Proof.Machine.execFeedbackTimeout f lvl s
  | .switchTest o passed => Sys2Proof.Machine.execSwitchTest o passed s
  | .brakeRelease b => Sys2Proof.Machine.execBrakeRelease b s
  | .producerSend k => Sys2Proof.Machine.execProducerSend k s
  | .pduReceive => Sys2Proof.Machine.execPduReceive s
  | .compareWindowExpiry k => Sys2Proof.Machine.execCompareWindowExpiry k s
  | .connectionWatchdog k => Sys2Proof.Machine.execConnectionWatchdog k s
  | .brakeTestTorqueRequest => Sys2Proof.Machine.execBrakeTestTorqueRequest s
  | .brakeTestEnd => Sys2Proof.Machine.execBrakeTestEnd s
  | .brakeHour b => Sys2Proof.Machine.execBrakeHour b s
  | .safePairingTimeout ch snd => Sys2Proof.Machine.execSafePairingTimeout ch snd s
  | .saffronRestart => Sys2Proof.Machine.execSaffronRestart s
  | .fcuRaise src fault info => Sys2Proof.Machine.execFcuRaise src fault info s
  | .wiringFault src => Sys2Proof.Machine.execWiringFault src s
  | .blockResetEnd k => Sys2Proof.Machine.execBlockResetEnd k s
  | .reactionWindowEnd src => Sys2Proof.Machine.execReactionWindowEnd src s
  | .fcuAck m r => Sys2Proof.Machine.execFcuAck m r s
  | .fcuForce m j v => Sys2Proof.Machine.execFcuForce m j v s
  | .fcuSrccfgWrite m ix v => Sys2Proof.Machine.execFcuSrccfgWrite m ix v s
  | .armed m => Sys2Proof.Machine.execArmed m s
  | .aliveToggle => Sys2Proof.Machine.execAliveToggle s
  | .collectorSelfFault off mismatch parity => Sys2Proof.Machine.execCollectorSelfFault off mismatch parity s
  | .scrubRead found => Sys2Proof.Machine.execScrubRead found s
  | .eccWriteback b => Sys2Proof.Machine.execEccWriteback b s
  | .sramGroupReady g => Sys2Proof.Machine.execSramGroupReady g s
  | .voteCast v hostBusy => Sys2Proof.Machine.execVoteCast v hostBusy s
  | .voteWindowExpiry => Sys2Proof.Machine.execVoteWindowExpiry s
  | .lowPowerCommit => Sys2Proof.Machine.execLowPowerCommit s
  | .wakeEvent ix => Sys2Proof.Machine.execWakeEvent ix s
  | .wakeComplete => Sys2Proof.Machine.execWakeComplete s
  | .strollSample link balls temp vin => Sys2Proof.Machine.execStrollSample link balls temp vin s
  | .wakesecReached => Sys2Proof.Machine.execWakesecReached s
  | .vinTrip vh0 vh1 ns => Sys2Proof.Machine.execVinTrip vh0 vh1 ns s
  | .holdupComplete good => Sys2Proof.Machine.execHoldupComplete good s
  | .vinRestart => Sys2Proof.Machine.execVinRestart s
  | .bar2Write o b => Sys2Proof.Machine.execBar2Write o b s
  | .bar2Read o n bad => Sys2Proof.Machine.execBar2Read o n bad s
  | .rwdataAccess w => Sys2Proof.Machine.execRwdataAccess w s
  | .spiWrite a l => Sys2Proof.Machine.execSpiWrite a l s
  | .spiRead a n => Sys2Proof.Machine.execSpiRead a n s
  | .spiStatus => Sys2Proof.Machine.execSpiStatus s
  | .spiReset => Sys2Proof.Machine.execSpiReset s
  | .spiFrameError k a n l => Sys2Proof.Machine.execSpiFrameError k a n l s
  | .hostLinkLoss => Sys2Proof.Machine.execHostLinkLoss s
  | .frameRingEnable m q v => Sys2Proof.Machine.execFrameRingEnable m q v s
  | .prodWrite m v => Sys2Proof.Machine.execProdWrite m v s
  | .txRingSlotSend => Sys2Proof.Machine.execTxRingSlotSend s
  | .consWrite m v => Sys2Proof.Machine.execConsWrite m v s
  | .send m c => Sys2Proof.Machine.execSend m c s
  | .pop m c => Sys2Proof.Machine.execPop m c s
  | .flush m c => Sys2Proof.Machine.execFlush m c s
  | .msixMessage v cfg => Sys2Proof.Machine.execMsixMessage v cfg s
  | .mdioGo m v => Sys2Proof.Machine.execMdioGo m v s
  | .mdioFrameEnd d => Sys2Proof.Machine.execMdioFrameEnd d s
  | .responseRetry => Sys2Proof.Machine.execResponseRetry s
  | .txnChOpen m c => Sys2Proof.Machine.execTxnChOpen m c s
  | .txnChCommit m c => Sys2Proof.Machine.execTxnChCommit m c s
  | .txnChRollback m c => Sys2Proof.Machine.execTxnChRollback m c s
  | .txnCheckEnd c => Sys2Proof.Machine.execTxnCheckEnd c s
  | .txnApplyPoint c => Sys2Proof.Machine.execTxnApplyPoint c s
  | .armmaxExpiry c => Sys2Proof.Machine.execArmmaxExpiry c s
  | .txnTimeout c => Sys2Proof.Machine.execTxnTimeout c s
  | .info c => Sys2Proof.Machine.execInfo c s
  | .sysMode c => Sys2Proof.Machine.execSysMode c s
  | .reset c => Sys2Proof.Machine.execReset c s
  | .env c => Sys2Proof.Machine.execEnv c s
  | .cfgSave c => Sys2Proof.Machine.execCfgSave c s
  | .cfgLoad c img => Sys2Proof.Machine.execCfgLoad c img s
  | .fwList c => Sys2Proof.Machine.execFwList c s
  | .fwLoad c room => Sys2Proof.Machine.execFwLoad c room s
  | .fwDelete c => Sys2Proof.Machine.execFwDelete c s
  | .fwUpdate c room => Sys2Proof.Machine.execFwUpdate c room s
  | .fwBoot c r => Sys2Proof.Machine.execFwBoot c r s
  | .openC c => Sys2Proof.Machine.execOpenC c s
  | .commit c => Sys2Proof.Machine.execCommit c s
  | .rollback c => Sys2Proof.Machine.execRollback c s
  | .txnStatus c => Sys2Proof.Machine.execTxnStatus c s
  | .write c => Sys2Proof.Machine.execWrite c s
  | .instStart c cfg => Sys2Proof.Machine.execInstStart c cfg s
  | .instStop c => Sys2Proof.Machine.execInstStop c s
  | .instStatus c => Sys2Proof.Machine.execInstStatus c s
  | .fdbSet c => Sys2Proof.Machine.execFdbSet c s
  | .fdbDel c => Sys2Proof.Machine.execFdbDel c s
  | .fdbGet c => Sys2Proof.Machine.execFdbGet c s
  | .fdbFlush c => Sys2Proof.Machine.execFdbFlush c s
  | .vlanSet c => Sys2Proof.Machine.execVlanSet c s
  | .vlanGet c => Sys2Proof.Machine.execVlanGet c s
  | .acquire c => Sys2Proof.Machine.execAcquire c s
  | .rearm c => Sys2Proof.Machine.execRearm c s
  | .timeGet c => Sys2Proof.Machine.execTimeGet c s
  | .pps c => Sys2Proof.Machine.execPps c s
  | .angleSet c => Sys2Proof.Machine.execAngleSet c s
  | .angleGet c => Sys2Proof.Machine.execAngleGet c s
  | .vmSpeed c => Sys2Proof.Machine.execVmSpeed c s
  | .ctxWrite c => Sys2Proof.Machine.execCtxWrite c s
  | .ctxRead c => Sys2Proof.Machine.execCtxRead c s
  | .ctxCtrl c => Sys2Proof.Machine.execCtxCtrl c s
  | .ctxCfg c => Sys2Proof.Machine.execCtxCfg c s
  | .table c => Sys2Proof.Machine.execTable c s
  | .capture c => Sys2Proof.Machine.execCapture c s
  | .testsig c => Sys2Proof.Machine.execTestsig c s
  | .ctxStatus c => Sys2Proof.Machine.execCtxStatus c s
  | .canCfg c => Sys2Proof.Machine.execCanCfg c s
  | .ttLoad c => Sys2Proof.Machine.execTtLoad c s
  | .canStatus c => Sys2Proof.Machine.execCanStatus c s
  | .ttRestart c => Sys2Proof.Machine.execTtRestart c s
  | .canBorec c => Sys2Proof.Machine.execCanBorec c s
  | .cellLoad c => Sys2Proof.Machine.execCellLoad c s
  | .cellRun c => Sys2Proof.Machine.execCellRun c s
  | .cellStatus c => Sys2Proof.Machine.execCellStatus c s
  | .cellInject c => Sys2Proof.Machine.execCellInject c s
  | .safeStatus c => Sys2Proof.Machine.execSafeStatus c s
  | .commission c => Sys2Proof.Machine.execCommission c s
  | .spbWrite c => Sys2Proof.Machine.execSpbWrite c s
  | .spbRead c => Sys2Proof.Machine.execSpbRead c s
  | .ccv c => Sys2Proof.Machine.execCcv c s
  | .confirm c => Sys2Proof.Machine.execConfirm c s
  | .leave c => Sys2Proof.Machine.execLeave c s
  | .safeAck c => Sys2Proof.Machine.execSafeAck c s
  | .brakeTest c => Sys2Proof.Machine.execBrakeTest c s
  | .path c => Sys2Proof.Machine.execPath c s
  | .clear c => Sys2Proof.Machine.execClear c s
  | .logRead c => Sys2Proof.Machine.execLogRead c s
  | .diagAck c => Sys2Proof.Machine.execDiagAck c s
  | .savedRead c => Sys2Proof.Machine.execSavedRead c s
  | .mapC c => Sys2Proof.Machine.execMapC c s
  | .readC c => Sys2Proof.Machine.execReadC c s
  | .force c => Sys2Proof.Machine.execForce c s
  | .enter c => Sys2Proof.Machine.execEnter c s
  | .domains c => Sys2Proof.Machine.execDomains c s
  | .strollCfg c => Sys2Proof.Machine.execStrollCfg c s
  | .flaskInfo c => Sys2Proof.Machine.execFlaskInfo c s
  | .resume c => Sys2Proof.Machine.execResume c s
  | .discard c => Sys2Proof.Machine.execDiscard c s
  | .vin c => Sys2Proof.Machine.execVin c s
  | .lineConfig c => Sys2Proof.Machine.execLineConfig c s
  | .lineStart c => Sys2Proof.Machine.execLineStart c s
  | .lineStop c => Sys2Proof.Machine.execLineStop c s
  | .lineSpeed c => Sys2Proof.Machine.execLineSpeed c s
  | .lineEngage c => Sys2Proof.Machine.execLineEngage c s
  | .linePhase c => Sys2Proof.Machine.execLinePhase c s
  | .lineStatus c => Sys2Proof.Machine.execLineStatus c s
  | .lineAxis c => Sys2Proof.Machine.execLineAxis c s
  | .lineCycle ns => Sys2Proof.Machine.execLineCycle ns s
  | .lineOverrun => Sys2Proof.Machine.execLineOverrun s
  | .pllRelock k => Sys2Proof.Machine.execPllRelock k s
  | .refclkRestore => Sys2Proof.Machine.execRefclkRestore s
  | .supplyInRange r => Sys2Proof.Machine.execSupplyInRange r s
  | .basicCycleStart n => Sys2Proof.Machine.execBasicCycleStart n s
  | .cyclicExchangeStart ix => Sys2Proof.Machine.execCyclicExchangeStart ix s
  | .domainSwitchComplete d => Sys2Proof.Machine.execDomainSwitchComplete d s
  | .wiringFaultCleared src => Sys2Proof.Machine.execWiringFaultCleared src s
  | .originatedFrameStaged e t => Sys2Proof.Machine.execOriginatedFrameStaged e t s
  | .preemptVerifyResponse p => Sys2Proof.Machine.execPreemptVerifyResponse p s
  | .receiveLpi p on => Sys2Proof.Machine.execReceiveLpi p on s

end Sys2Proof.Machine
end

