-- ==== Sys2Proof/Machine/Step.lean ====
section
/-! DEFINITION. A step of the block: the command at the front of its queue, or a cycle of its clock. -/

namespace Sys2Proof.Machine

open Sys2Proof

/-- One step: the command at the front of the queue takes effect on the state with the queue's rest. DESIGN CHOICE: on an empty queue one
cycle of TIME_CLK passes (R17, R31). (log 1, DESIGN CHOICE; 3, DESIGN CHOICE) -/
def step (s : State) : Host.Outcome State Fault Refusal :=
  match s.pending with
  | [] => .next s.tick.settle
  | c :: rest => exec c { s with pending := rest }

/-- The state with the command a table word spells at the front of its queue; unchanged where it spells none. (log 2, DESIGN CHOICE) -/
def State.withFetchWord (s : State) (nbits w : Nat) : State :=
  match decodeTableWord nbits w with
  | some c => { s with pending := c :: s.pending }
  | none => s

end Sys2Proof.Machine
end

