-- ==== Sys2Proof/Machine/Balls.lean ====
section
/-! DEFINITION. What the balls carry between two steps (R178, R202, R289, R290, R342, R376, R384, R396). -/

namespace Sys2Proof.Machine

open Sys2Proof

/-- The balls of R384: edge placer, Nutmeg pin, CAN transmit and transmit enable, the high and low side of an output of Saffron (0 and 1 the
safe outputs, 2 and 3 the brakes), test-pulse feed, ALIVE, FAULT_N, HOLD_EN, the data of the quad-SPI form and its interrupt, MDC, MDIO, the
pairs of a port. -/
inductive Ball where
  | ep (n : Nat)
  | np (k : Nat)
  | canTx (n : Nat)
  | canTxEn (n : Nat)
  | safHigh (o : Nat)
  | safLow (o : Nat)
  | feed (k : Nat)
  | aliveA
  | aliveB
  | faultN
  | holdEn
  | hostIo (j : Nat)
  | hostIrqN
  | mdc
  | mdio
  | pair (p : Nat)
deriving DecidableEq, Repr

/-- The supply of a ball is absent: its bits of PIN_IOSTAT, and VDD_AO for FAULT_N (R376, R383, R384). (log 168, DESIGN CHOICE) -/
def State.unsupplied (s : State) (b : Ball) : Bool :=
  let lost (r : Nat) : Bool := !(s.reg PIN_IOSTAT).getLsbD r
  match b with
  | .ep _ | .hostIo _ | .hostIrqN => lost 1
  | .safHigh _ | .safLow _ | .feed _ => lost 7
  | .faultN => s.pwr.rails.testBit 1
  | .pair p => if p < 8 then lost 2 else lost 3 || lost 4
  | .np _ | .canTx _ | .canTxEn _ | .aliveA | .aliveB | .holdEn | .mdc | .mdio => lost 0
/-- The pull of PIN_NP (R384). -/
def State.npPull (s : State) (k : Nat) : Pad :=
  match s.fld (PIN_NP_PULL k) with
  | 0 => .open_
  | 2 => .pullUp
  | _ => .pullDown
/-- A port is configured: its PHY or SerDes runs and its MAC sends or receives (R384). (log 168, DESIGN CHOICE) -/
def State.portConf (s : State) (p : Nat) : Bool := s.domOn 8 && (s.flag (MAC_CTRL_TXEN p) || s.flag (MAC_CTRL_RXEN p))

/-- What ball `b` carries at nanosecond `t` (R384): none where it follows its block inside a frame, and in TEST, where the manual defines no
ball. -/
def State.ball (s : State) (t : Nat) (b : Ball) : Option Pad :=
  let off := s.mode == modeOFF
  if s.mode = modeTEST then none
  else if s.unsupplied b then some .open_
  else match b with
  | .ep n => s.edgeBall n
  | .np k => some (if off then .pullDown else ((s.nutBall (k / 2) (k % 2) t).map padOf).getD (s.npPull k))
  | .canTx n => if off then some .pullUp else if s.canDrives n then none else some .high
  | .canTxEn n => some (if off then .pullDown else padOf (s.canTxEn n (s.canSt n).rx.isSome))
  | .safHigh o => some (if off then .pullDown else padOf (s.saf.swA.testBit o))
  | .safLow o => some (if off then .pullDown else padOf (s.saf.swB.testBit o))
  | .feed _ => some (if off then .pullDown else .high)
  | .aliveA => some (padOf (!off && s.fcu.aliveA))
  | .aliveB => some (padOf (!off && s.fcu.aliveB))
  | .faultN => some (if s.flag FCU_STAT_FAULTN then .low else .open_)
  | .holdEn => some (if off then .pullDown else padOf s.pwr.holdEn)
  | .hostIo _ => some .open_
  | .hostIrqN => some (if !off && s.hostIrq then .low else .open_)
  | .mdc => if off ∨ s.mode = modeHOLDUP ∨ (s.mode = modeBOOT ∧ !s.flag PIN_MDIO_GO) then some .low else none
  | .mdio => if off then some .pullUp else none
  | .pair p => if off ∨ s.mode = modeHOLDUP ∨ (s.mode = modeBOOT ∧ !s.portConf p) then some .open_ else none

end Sys2Proof.Machine
end

