-- ==== Sys2Proof/Safety.lean ====
section
/-! DEFINITION. What claims about runs are stated in: a run of commands, runs that never stop, states in which a command sets nothing more
off, and the canonical form that every step keeps. -/

namespace Sys2Proof.Machine

open Sys2Proof

/-- Every store the state holds its memory, registers and shadows in is in canonical form. -/
def State.Canonical (s : State) : Prop :=
  Memory.wf s.mem ∧ storeWf regReset s.regs = true ∧ storeWf (fun _ => none) s.shadow = true

/-- Nothing waits inside the block: no raise for the collector, no transition for the mode machine, no reset that firmware has promised, no
notice that firmware has still to send. -/
abbrev State.Calm (s : State) : Prop := s.raises = [] ∧ s.modeq = [] ∧ s.sys.resetAt = none ∧ s.fw.notices = []

/-- `s` runs the commands of its queue, one a step, and reaches `t` with the queue empty. -/
inductive Drains : State → State → Prop where
  | done (s : State) (h : s.pending = []) : Drains s s
  | step (s s' t : State) (c : Instr) (l : List Instr) (h : s.pending = c :: l) (h1 : Machine.step s = .next s') (h2 : Drains s' t) :
      Drains s t

/-- No step from `s` on stops. -/
def Safe (s : State) : Prop := ∀ k, ∃ t, Sys2Proof.core.run k s = .next t

/-! ### The terms of statements about one command -/

/-- From `s` to `u` memory comes to hold the bytes `l` from address `a` up, and every other byte is as it was. -/
def Stored (s u : State) (a : Nat) (l : List Byte) : Prop :=
  ∀ b, u.byte b = if a ≤ b ∧ b < a + l.length then l.getD (b - a) 0 else s.byte b
/-- Nothing but memory differs between `s` and `u`. -/
def MemOnly (s u : State) : Prop := { u with mem := s.mem } = s
/-- Which half of a pair the register at an address is: 0 none, 1 low, 2 high, 3 no register (R11). -/
def halfAt (a : Nat) : Nat := ((findReg a).map (fun r => r.half)).getD 3
/-- An access of an aligned word at `a` by `m` arrives: the master's path reaches it, its block runs, nothing bars the master. -/
def State.arrives (s : State) (m : Master) (a : Nat) (wr : Bool) : Bool :=
  m != .cardamom && inRegs a && a % 4 == 0 && a != HOST_RWDATA && !(m == .host && s.isHeld .host) && !s.bridgeDenied m a wr && !s.unreached a && !barred m a
/-- Master `m` may write `v` to the register at `a`, which is no half of a pair. -/
def State.grants (s : State) (m : Master) (a : Nat) (v : Word) : Bool := s.arrives m a true && halfAt a == 0 && !s.locked m a v
/-- Master `m` may write field `f` to `n`. -/
def State.grantsF (s : State) (m : Master) (f : Fld) (n : Nat) : Bool := s.grants m f.addr (s.fieldWord f n)
/-- Master `m` may read the register at `a`. -/
def State.reads (s : State) (m : Master) (a : Nat) : Bool := s.arrives m a false && halfAt a != 3
/-- Block `b` in domain `d` runs: the domain is on and the block is neither held nor in a block reset (R287, R307, R403). -/
def State.runs (s : State) (d : Nat) (b : Blk) : Bool := s.domOn d && !decide (b ∈ s.fcu.resetting ++ s.fcu.held)

/-- From `s` to `u` no register but those of `chg` reads otherwise, no byte of memory, the queue is the same, and the raises made are `new`. -/
def Only (s u : State) (chg : List Nat) (new : List (Nat × Nat × Bool)) : Prop :=
  (∀ a, a ∉ chg → u.reg a = s.reg a) ∧ (∀ a, u.byte a = s.byte a) ∧ u.pending = s.pending ∧ u.raises = s.raises ++ new
/-- Command `c` completes from `s`: its own effect, before what it sets off settles, changes the registers of `chg` alone, raises `new`, and
leaves a state with `P`. -/
def Effect (c : Instr) (s : State) (chg : List Nat) (new : List (Nat × Nat × Bool)) (P : State → Prop) : Prop :=
  ∃ u, Machine.exec c s = .next u.settle ∧ Only s u chg new ∧ P u
/-- Command `c` completes from `s`: its own effect, before what it sets off settles, is a state with `P`. -/
def Leaves (c : Instr) (s : State) (P : State → Prop) : Prop := ∃ u, Machine.exec c s = .next u.settle ∧ P u
/-- Command `c` completes from `s`, and its own effect, before what it sets off settles, is `u`. -/
def Yields (c : Instr) (s u : State) : Prop := Machine.exec c s = .next u.settle
/-- The registers of SYS, EDGE and MEM, of PWR but VOTE, WAKE, SPER and VINCFG, the STEP registers of the time domains, and those of the LAUs
but CTRL, NET_ANG_HI and NET_TS: a write of one does what its access codes say and nothing more. -/
def plain (a : Nat) : Bool :=
  decide (a < 0x40100000 ∨ (0x40600000 ≤ a ∧ a < 0x40800000) ∨ (0x41700000 ≤ a ∧ a < 0x41800000)) ||
  (decide (0x40100000 ≤ a ∧ a < 0x40200000) && !decide (a ∈ [PWR_VOTE, PWR_WAKE, PWR_SPER, PWR_VINCFG])) ||
  decide (0x40400000 ≤ a ∧ a < 0x40400400 ∧ 0x20 ≤ a % 0x100) ||
  (decide (0x40500000 ≤ a ∧ a < 0x40580000) && !decide (a % 0x10000 ∈ [0, 0x44, 0x48]))
/-- The registers of SYS, PWR, LAU, ITIN, EDGE and MEM but PWR_HOLDSTAT and the captured SPD and ACC of an LAU: a read of one returns what
the register holds. -/
def plainRead (a : Nat) : Bool :=
  a != PWR_HOLDSTAT && !decide (0x40500000 ≤ a ∧ a < 0x40520000 ∧ a % 0x10000 ∈ [0x28, 0x2C]) && decide (a < 0x40200000 ∨ (0x40500000 ≤ a ∧ a < 0x40800000) ∨ (0x41700000 ≤ a ∧ a < 0x41800000))
/-- Every bit of the register at an address carries the RW code. -/
def rwAll (a : Nat) : Bool := (findReg a).any (fun r => accMask r .rw == 0xFFFFFFFF#32)
/-- An RWT register of a LAU. -/
def lauRwt (a : Nat) : Bool :=
  decide (0x40500000 ≤ a ∧ a < 0x40580000) && (findReg a).any (fun r => accMask r .rwt != 0#32)
/-- The time the STEP registers give domain `d` (R33). -/
def State.stepTime (s : State) (d : Nat) : Int :=
  s.domNs d + sgn 64 (s.pair (TIME_DOM_STEP_SEC_LO d)) * 1000000000 + sgn 32 (s.regN (TIME_DOM_STEP_NS d))
/-- The registers a count in counter `i` of port `p` may change: the counter, its half-range flags, the interrupt flags (R82, R83). -/
def macCntRegs (p i : Nat) : List Nat := [macCnt p i, MAC_CNTHALF p 0, MAC_CNTHALF p 1, MAC_IRQ p]
/-- The registers the count of a MAC control frame at port `p` may change, from base 0 (received) or 32 (sent): frames of 64 bytes, octets,
multicast (R82). -/
def ctlCntRegs (p base : Nat) : List Nat := macCntRegs p base ++ [macCnt p (base + 7), macCnt p (base + 9)]
/-- No port is in isochronous use, and none is marked so. -/
def State.noIso (s : State) : Bool :=
  s.fcValid.isEmpty && (List.range 12).all (fun p => !s.flag (MAC_CTRL_ISOPROT p) && !s.flag (MAC_STAT_ISOCUSE p))
/-- Port `p` sends and receives nothing: no transmission, none preempted, no frame entering. -/
def State.wireIdle (s : State) (p : Nat) : Bool := (s.outSt p).tx.isNone && (s.outSt p).pre.isNone && (s.rxOf p).isNone
/-- Port `p` sends a flow control frame at once: its link is up, its transmitter on, no frame in flight (R76). -/
def State.sendsFc (s : State) (p : Nat) : Bool := s.flag (MAC_STAT_LINK p) && s.flag (MAC_CTRL_TXEN p) && (s.outSt p).tx.isNone
/-- No transaction is open, in its check, or armed. -/
def State.noTxn (s : State) : Bool :=
  (List.range 21).all (fun k => !s.flag (TXN_CH_STAT_OPEN k) && !s.flag (TXN_CH_STAT_CHECKING k) && (s.txnCh k).armed.isNone)

/-! ### The terms of statements about the engines' instructions -/

/-- Thread `t` of engine `e` can issue, repeats nothing, and its next instruction is the word `w`. -/
def State.fetches (s : State) (e t : Nat) (w : Word) : Bool :=
  s.canIssue e t && (s.thr e t).rep.isNone && decide ((s.thr e t).pc < 16384) && storeGet (fun _ => 0) (s.engSt e).imem (s.thr e t).pc == w
/-- Byte `a` of engine `e`'s D space, and word `i` of its instruction memory. -/
def State.dByte (s : State) (e a : Nat) : Byte := storeGet (fun _ => 0) (s.engSt e).dmem a
def State.iWord (s : State) (e i : Nat) : Word := storeGet (fun _ => 0) (s.engSt e).imem i
/-- Command `c` completes from `s`, and its own effect, before what it sets off settles, is this: thread `t` of engine `e` becomes `x`, the D
space of the engine reads `d`, its instruction memory `i`, the engine's status register may change, and nothing else does. -/
def ThreadM (c : Instr) (s : State) (e t : Nat) (x : Thr) (d : Nat → Byte) (i : Nat → Word) : Prop :=
  ∃ u : State, Machine.exec c s = .next u.settle ∧ { u with eng := s.eng, regs := s.regs } = s ∧ (∀ a, a ≠ ENG_STAT e → u.reg a = s.reg a) ∧
    u.thr e t = x ∧ (∀ e' t', (e' ≠ e ∨ t' ≠ t) → u.thr e' t' = s.thr e' t') ∧
    (∀ n, { u.engSt n with thr := [], dmem := [], imem := [] } = { s.engSt n with thr := [], dmem := [], imem := [] }) ∧
    (∀ n a, u.dByte n a = if n = e then d a else s.dByte n a) ∧ (∀ n a, u.iWord n a = if n = e then i a else s.iWord n a)
/-- As `ThreadM`, with the engine's memories as they were. -/
def Thread (c : Instr) (s : State) (e t : Nat) (x : Thr) : Prop := ThreadM c s e t x (s.dByte e) (s.iWord e)
/-- The thread goes on at `p`. -/
def Thr.goes (x : Thr) (p : Nat) : Thr := { x with pc := p, uop := none }
/-- The thread meets trap `cause` with value `v` at instruction `epc`, not in handler state and in no repetition (R155, R156). -/
def Thr.trapped (x : Thr) (cause epc : Nat) (v : Word) : Thr :=
  { x.landAll with handler := true, stall := none, pc := if cause = 6 then 8 else if cause = 7 then 12 else 4, epc := w32 epc, ecause := w32 cause,
                   eval := v, rep := none, rcNext := none, uop := none }
/-- Instruction `c` with primary opcode `op` and function `fn` puts `f` of ra, rb, the old rd and its own word in rd, and nothing else changes but
the loads that land at it and the program counter. -/
def Alu (c : Fin 16 → Fin 4 → EccAt → Instr) (op fn : Nat) (f : Word → Word → Word → Word → Word) : Prop :=
  ∀ (e : Fin 16) (t : Fin 4) (w : Word) (s : State), s.fetches e t w = true → bits w 31 26 = op → bits w 5 0 = fn →
    let x := (s.thr e t).tickLoads
    Thread (c e t .none_) s e t ((x.setG (bits w 25 21) (f (x.g (bits w 20 16)) (x.g (bits w 15 11)) (x.g (bits w 25 21)) w)).goes (x.pc + 1))
/-- The same for an instruction of the immediate format: rd from ra and the word. -/
def Imm (c : Fin 16 → Fin 4 → EccAt → Instr) (op : Nat) (f : Word → Word → Word) : Prop :=
  ∀ (e : Fin 16) (t : Fin 4) (w : Word) (s : State), s.fetches e t w = true → bits w 31 26 = op →
    let x := (s.thr e t).tickLoads
    Thread (c e t .none_) s e t ((x.setG (bits w 25 21) (f (x.g (bits w 20 16)) w)).goes (x.pc + 1))
/-- The number sx(imm16), and the address ra + sx(imm16) in 32-bit arithmetic (R138). -/
def simm (w : Word) : Int := sgn 16 (bits w 15 0)
def Thr.addr (x : Thr) (w : Word) : Nat := uns 32 ((x.g (bits w 20 16)).toNat + simm w)
/-- The little-endian number of `k` bytes of engine `e`'s D space from `a`. -/
def State.dNum (s : State) (e a k : Nat) : Nat := (List.range k).foldl (fun (n : Nat) i => n + 256 ^ i * (s.dByte e (a + i)).toNat) 0
/-- The D space with the `k` low bytes of `v` at `a`. -/
def State.dPut (s : State) (e a k : Nat) (v : Word) : Nat → Byte :=
  fun b => if a ≤ b ∧ b < a + k then BitVec.ofNat 8 (v.toNat / 256 ^ (b - a)) else s.dByte e b
/-- A load in flight: its value lands just before the third instruction after it reads (R150). -/
def Thr.awaits (x : Thr) (r : Nat) (v : Word) : Thr := { x with loads := x.loads ++ [(3, r, v)] }
/-- Load `c` of `k` bytes with primary opcode `op`: at an aligned address of D space, `f` of the number there is on its way to rd. -/
def Load (c : Fin 16 → Fin 4 → EccAt → Instr) (op k : Nat) (f : Nat → Word) : Prop :=
  ∀ (e : Fin 16) (t : Fin 4) (w : Word) (s : State), s.fetches e t w = true → bits w 31 26 = op →
    let x := (s.thr e t).tickLoads
    x.addr w % k = 0 → x.addr w ≤ 131071 →
    Thread (c e t .none_) s e t ((x.awaits (bits w 25 21) (f (s.dNum e (x.addr w) k))).goes (x.pc + 1))
/-- Store `c` of `k` bytes: the low bytes of rd stand at the address, every other byte of D space is as before. -/
def Store (c : Fin 16 → Fin 4 → EccAt → Instr) (op k : Nat) : Prop :=
  ∀ (e : Fin 16) (t : Fin 4) (w : Word) (s : State), s.fetches e t w = true → bits w 31 26 = op →
    let x := (s.thr e t).tickLoads
    x.addr w % k = 0 → x.addr w ≤ 131071 →
    ThreadM (c e t .none_) s e t (x.goes (x.pc + 1)) (s.dPut e (x.addr w) k (x.g (bits w 25 21))) (s.iWord e)
/-- Atomic instruction `c` with function `fn`: the old word of D[ra] is on its way to rd, `f` of it and rb stands at D[ra] (R145). -/
def Atom (c : Fin 16 → Fin 4 → EccAt → Instr) (fn : Nat) (f : Word → Word → Word) : Prop :=
  ∀ (e : Fin 16) (t : Fin 4) (w : Word) (s : State), s.fetches e t w = true → bits w 31 26 = 3 → bits w 5 0 = fn →
    let x := (s.thr e t).tickLoads
    let a := (x.g (bits w 20 16)).toNat
    let old := w32 (s.dNum e a 4)
    a % 4 = 0 → a ≤ 131071 →
    ThreadM (c e t .none_) s e t ((x.awaits (bits w 25 21) old).goes (x.pc + 1)) (s.dPut e a 4 (f old (x.g (bits w 15 11)))) (s.iWord e)
/-- Conditional branch `c`: where `p` of ra it goes on at the next index plus sx(imm16), else at the next (R148). -/
def Branch (c : Fin 16 → Fin 4 → EccAt → Instr) (op : Nat) (p : Word → Bool) : Prop :=
  ∀ (e : Fin 16) (t : Fin 4) (w : Word) (s : State), s.fetches e t w = true → bits w 31 26 = op →
    let x := (s.thr e t).tickLoads
    let q : Int := x.pc + 1 + simm w
    (p (x.g (bits w 20 16)) = false → Thread (c e t .none_) s e t (x.goes (x.pc + 1))) ∧
    (p (x.g (bits w 20 16)) = true → 0 ≤ q → q < 16384 → Thread (c e t .none_) s e t { x.goes q.toNat with rcNext := none })
/-- Read `c` of `k` bytes of port space: where the address is one of the space and it reads `v`, `v` is on its way to rd; the rest of the state
is what the port read leaves. -/
def PortIn (c : Fin 16 → Fin 4 → EccAt → Instr) (op k : Nat) : Prop :=
  ∀ (e : Fin 16) (t : Fin 4) (w : Word) (s s1 : State) (v : Word), s.fetches e t w = true → bits w 31 26 = op →
    let s0 := s.setThr e t (s.thr e t).tickLoads
    let a := (s0.thr e t).addr w
    a ≤ 4095 → s0.portRead e t a k false = (s1, some v) → (s1.thr e t).run = true → (s1.thr e t).rep = none →
    Leaves (c e t .none_) s (fun u => u.thr e t = ((s1.thr e t).awaits (bits w 25 21) v).goes ((s1.thr e t).pc + 1) ∧
      u.pending = s1.pending ∧ u.raises = s1.raises ∧ (∀ b, b ≠ ENG_STAT e → u.reg b = s1.reg b) ∧ ∀ b, u.dByte e b = s1.dByte e b)
/-- Write `c` of `k` bytes of port space: where the port takes it, the thread goes on with the state the port write leaves. -/
def PortOut (c : Fin 16 → Fin 4 → EccAt → Instr) (op k : Nat) : Prop :=
  ∀ (e : Fin 16) (t : Fin 4) (w : Word) (s s1 : State), s.fetches e t w = true → bits w 31 26 = op →
    let s0 := s.setThr e t (s.thr e t).tickLoads
    let a := (s0.thr e t).addr w
    a ≤ 4095 → s0.portWrite e t a k ((s0.thr e t).g (bits w 25 21)) false = (s1, true) → (s1.thr e t).run = true → (s1.thr e t).rep = none →
    Leaves (c e t .none_) s (fun u => u.thr e t = (s1.thr e t).goes ((s1.thr e t).pc + 1) ∧
      u.pending = s1.pending ∧ u.raises = s1.raises ∧ (∀ b, b ≠ ENG_STAT e → u.reg b = s1.reg b) ∧ ∀ b, u.dByte e b = s1.dByte e b)
/-- What special register `i` reads, but for rsb (R136): the thread identity with its cluster's size and number, the cycle of its slot, and the rest
as the thread holds them. -/
def State.specialOf (s : State) (e t i : Nat) : Word :=
  let x := s.thr e t
  if i = 0 then x.rc else if i = 1 then w32 (t + 16 * e + 256 * s.clusterOf e + 4096 * clusterLog (s.regN DISP_CLCFG) e)
  else if i = 2 then w32 (4 * ((s.time.now - (s.engSt e).born) * 4 / 5 / 4) + t)
  else if i = 3 then x.ts else if i = 4 then w32 x.tsf else if i = 8 then x.epc else if i = 9 then x.ecause else if i = 10 then x.eval
  else if i = 11 then x.erc else if i = 12 then w32 x.rs.length else 0

/-! ### The terms of statements about the cells -/

/-- Cell `c` runs, is between instructions with none injected, and the one at its PC is `w` (R206). -/
def State.nutAt (s : State) (c w : Nat) : Bool :=
  s.runs 10 .nut && s.nutRuns c && (s.nutSt c).ip.isNone && (s.nutSt c).inj.isNone && s.nutWord c == w
/-- From `s` to `u` cell `c`, run up to this cycle with no phase lock to come, becomes `x` and its PC `p`; every other cell is as it was. -/
def State.nutBecomes (s u : State) (c : Nat) (x : NutSt) (p : Nat) : Bool :=
  decide (u.nutSt c = { x with clkAt := s.time.now, plock := none }) && u.fld (NUT_STAT_PC c) == p % 32 &&
    (List.range 32).all (fun k => k == c || decide (u.nutSt k = s.nutSt k))
/-- Cell `c` has run up to this cycle, with no phase lock to come. -/
def State.nutFresh (s : State) (c : Nat) : Bool := decide ((s.nutSt c).clkAt = s.time.now) && (s.nutSt c).plock.isNone
/-- Every cell has run up to the cycle before this one. -/
def State.nutNow (s : State) : Bool := (List.range 32).all (fun k => decide (s.time.now - 1 ≤ (s.nutSt k).clkAt))
/-- The registers of a cell that any change of its state may write: STAT and INJ. -/
def nutRegs (c : Nat) : List Nat := [NUT_STAT c, NUT_INJ c]

/-- The registers of Saffron's window that a reaction may change (R252). -/
def reactRegs : List Nat := [SAF_STAT, SAF_REASON, SAF_REASONTS, SAF_OUTPUTS, SAF_BTEST 0, SAF_BTEST 1]
/-- From `s` to `u` Saffron has reacted for a reason and an index: latched, with its time, its mode request to SAFESTOP queued, and where the
reason's delay is zero every output off (R252, R253). -/
def State.reacted (s u : State) (code idx : Nat) : Bool :=
  u.saf.latched && u.fld SAF_REASON_CODE == code && u.fld SAF_REASON_INDEX == idx && u.reg SAF_REASONTS == s.cyc0 &&
  decide (u.modeq = s.modeq ++ [(12, modeSAFESTOP, if code = 0x0E then 4 else 5)]) && (!zeroDelay code || u.regN SAF_OUTPUTS % 16 == 0)

/-! ### The terms of statements about firmware's commands -/

/-- Channel `c` holds at its head the command `m` with opcode `op` and `n` bytes of payload, firmware can take it, one of kind W where `w`, and the
return channel has room (R345 to R350). -/
def State.asks (s : State) (c : Nat) (m : List Byte) (op n : Nat) (w : Bool) : Bool :=
  cmdChan c && s.fwFree c w && (s.chan c).head? == some m && plN m 4 2 == op && plN m 6 2 == n && !s.chanFull (retChan c)
/-- Command `cmd` completes from `s`: firmware takes the message `m` from channel `c`, its answer stands last in the return channel, every other
channel is as before, and the command's own effect, before what it sets off settles, is a state with `P` (R346, R351). -/
def Answers (cmd : Instr) (s : State) (c : Nat) (m : List Byte) (code da db : Nat) (pl : List Byte) (P : State → Prop) : Prop :=
  ∃ u, Machine.exec cmd s = .next u.settle ∧ u.chan c = (s.chan c).drop 1 ∧
    u.chan (retChan c) = s.chan (retChan c) ++ [stampMsg (retChan c) (respMsg m code da db pl)] ∧
    (∀ k, k ≠ c → k ≠ retChan c → u.chan k = s.chan k) ∧ u.pending = s.pending ∧ P u
/-- The registers that an answer may change: those of the mailboxes, the host's pending bits, and those of the Dispatcher, to which an engine's
answer is announced. -/
def replyReg (a : Nat) : Bool :=
  decide ((0x40300000 ≤ a ∧ a < 0x40400000) ∨ (0x41100000 ≤ a ∧ a < 0x41200000) ∨ a ∈ [HOST_MBPEND 0, HOST_MBPEND 1, HOST_MBPEND 2])
/-- From `s` to `u` nothing but the channels, their order of arrival, what shows them, and the announcement of a message differs. -/
def State.mailOnly (s u : State) (c : Nat) : Prop :=
  { u with regs := s.regs, chans := s.chans, arrive := s.arrive, disp := s.disp, out := s.out, raises := s.raises } = s ∧
    (∀ a, replyReg a = false → u.reg a = s.reg a) ∧ (c ≤ 3 → u.raises = s.raises)
/-- Firmware takes the command, answers it so, and does nothing else. -/
def Told (cmd : Instr) (s : State) (c : Nat) (m : List Byte) (code da db : Nat) (pl : List Byte) : Prop :=
  Answers cmd s c m code da db pl (fun u => s.mailOnly u c)
/-- `code` with its detail is a refusal that a command with opcode `op` from channel `c`, sent by engines where `eng`, with `n` bytes of payload in
place of `len`, accepted in the modes of `modes`, earns (R30, R346, R350, R351). -/
def State.earns (s : State) (c op n len : Nat) (eng : Bool) (modes : List Nat) (code det : Nat) : Prop :=
  (code = 0x8004 ∧ det = 0 ∧ 56 ≤ c ∧ eng = false) ∨ (code = 0x8002 ∧ det = 0 ∧ n ≠ len) ∨
    (code = 0x8007 ∧ det = s.fld SYS_MODE_TARGET ∧ op ∈ modeOps ∧ s.busy = true) ∨ (code = 0x8006 ∧ det = s.mode ∧ s.mode ∉ modes)
/-- What firmware answers before it looks at the payload of command `cmd` with opcode `op`, sent by engines where `eng`, of kind W where `w`,
accepted in the modes of `modes`, with a payload of `len` bytes. -/
def Checked (cmd : Fin 96 → Instr) (op : Nat) (eng w : Bool) (modes : List Nat) (len : Nat) : Prop :=
  ∀ (c : Fin 96) (s : State),
    ((cmdChan c = false ∨ s.fwFree c w = false ∨ s.chan c = []) → Yields (cmd c) s s) ∧
    (∀ (m : List Byte) (o n : Nat), s.asks c m o n w = true →
      (o ∉ knownOps → Told (cmd c) s c m 0x8001 0 0 []) ∧
      (o ∈ knownOps → o ≠ op → Yields (cmd c) s s) ∧
      (∀ code det : Nat, o = op → s.earns c op n len eng modes code det → (∀ x y : Nat, s.earns c op n len eng modes x y → x = code) →
        Told (cmd c) s c m code det 0 []) ∧
      (o = op → (∃ a b x y : Nat, s.earns c op n len eng modes a b ∧ s.earns c op n len eng modes x y ∧ a ≠ x) →
        ∃ code det : Nat, s.earns c op n len eng modes code det ∧ Answers (cmd c) s c m code det 0 [] (fun u => s.drew.mailOnly u c)))

/-! ### The terms of statements about the whole block -/

/-- An address of a range that the map calls unmapped (R19). -/
def unmapped (a : Nat) : Bool :=
  decide ((0x40000 ≤ a ∧ a < 0x20000000) ∨ (0x20C00000 ≤ a ∧ a < 0x30000000) ∨ (0x30800000 ≤ a ∧ a < 0x40000000) ∨
    (0x42000000 ≤ a ∧ a < 0x80000000) ∨ (0x84000000 ≤ a ∧ a < 0x100000000))
/-- No notice of firmware waits while the host's channel 4 takes messages. -/
abbrev State.NoticesOut (s : State) : Prop := s.fw.notices = [] ∨ s.chanFull 4 = true
/-- What the evaluation of context `k` from the latch `l` starts from: its inputs from the latched sources, and no stage done (R227, R229). -/
def State.evalEnv (s : State) (k : Nat) (l : LoopLatch) : LEnv :=
  let e : LEnv := { s := s, k := k, ins := [], raws := [], gen := coefNum s.loop.tv, outs := [], fin := Num.zero,
                    src := fun c => ((l.srcs.find? (fun p => p.1 == c)).map (·.2)).getD 0 }
  let inp := (List.range 8).map (fun i => e.input i)
  { e with ins := inp.map (·.2), raws := inp.map (·.1) }
/-- An evaluation that has gathered nothing. -/
def acc0 : LAcc := ⟨0, false, false, []⟩
/-- Source `src` has a detector that works and whose pair reads no fault (R278, R280, R294, R295). -/
def State.detects (s : State) (src : Nat) : Bool :=
  srcListed src && s.mode != modeOFF && !decide (256 ≤ src ∧ src < 260) && !s.condNow src

end Sys2Proof.Machine
end

