-- ==== Sys2Proof/WellFormed.lean ====
section
/-! DEFINITION. Which commands are well formed: the operands an outside party can give (R10, R22, R65, R75, R178, R213, R324). The meanings
are total and do not rest on it. -/

namespace Sys2Proof

/-- An access moves 1, 2, 4 or 8 bytes (R10, R22). -/
def sizeWf (n : Nat) : Bool := n == 1 || n == 2 || n == 4 || n == 8
/-- A piece of a received frame holds bytes where it is one, and none where the line shows an error between frames (R65). -/
def pieceWf (b : List Byte) : RxKind → Bool
  | .idle => b.isEmpty
  | .smd => b.isEmpty
  | _ => !b.isEmpty
/-- A CAN frame carries at most 64 bytes of data (R178). -/
def canFrmWf (f : CanFrm) : Bool := decide (f.data.length ≤ 16)
/-- The ports, cells and flow contexts of an instance's configuration exist, and LOSSCNT is in its range (R165, R174, R177). -/
def instCfgWf (c : InstCfg) : Bool :=
  decide (c.ports < 4096) && decide (c.cell + c.cells ≤ 32) && decide (c.fcs.length ≤ 256) && decide (c.loss ≤ 255) && c.can.all (fun n => decide (n < 4))

/-- A well-formed command. -/
def Instr.wf : Instr → Bool
  | .registerWrite _ _ n _ => sizeWf n
  | .readClear _ _ n => sizeWf n
  | .coefBankSramWrite _ _ n _ => sizeWf n
  | .frameReceive _ _ b fin => pieceWf b fin.kind
  | .pfcReceive _ _ q => decide (q.length = 8)
  | .canFrameReceive _ (some f) _ => canFrmWf f
  | .shiftEnd _ l => decide (l.length ≤ 32)
  | .instStart _ c => instCfgWf c
  | .cfgLoad _ i => i.insts.all (fun e => instCfgWf e.2.2)
  | .bar2Write _ b => decide (0 < b.length ∧ b.length ≤ 4096)
  | .bar2Read _ n _ => decide (0 < n.toNat ∧ n.toNat ≤ 4096)
  | .spiWrite _ l => !l.isEmpty
  | _ => true

end Sys2Proof
end

