-- ==== Sys2Proof/Certificates/Slice0/Obligations.lean ====
section
/-! DEFINITION. The statements about the block, one for each rule or group of commands of one shape. -/

open Sys2Proof Sys2Proof.Machine

/-- For every command c and state s, a step of s with c at the front of its queue is exec of c on s with the queue's rest. -/
def Obligations.StepRunsFrontCommand : Prop :=
  ∀ (c : Instr) (s : State), step { s with pending := c :: s.pending } = exec c s

/-- The model's choice (log entry 3): on an empty queue a step is one TIME_CLK cycle of the time spine, and what it sets off settles; with the device on, the cycle count rises by one (by 40 while REFCLK paces it, in RETAIN and STROLL with PLL1 not locked) and the queue stays empty; in OFF nothing changes. -/
def Obligations.IdleStepIsOneTick : Prop :=
  (∀ (s : State),
      s.pending = [] →
      s.mode ≠ modeOFF →
      step s = .next s.tick.settle ∧ s.tick.time.now = s.time.now + (if s.asleep = true ∧ s.flag SYS_CLKSTAT_PLL1LK = false then 40 else 1) ∧ s.tick.pending = []) ∧
  (∀ (s : State),
      s.pending = [] →
      s.mode = modeOFF →
      step s = .next s.settle)

/-- A state with no raise, no request of a transition, no promised reset and no queued notice is the outcome of its own settling, so that a command whose own effect leaves such a state answers exactly that state. That notices and raises are told as a command settles is the model's choice (log 4). -/
def Obligations.QuietStateSettles : Prop :=
  ∀ (s : State),
      s.Calm →
      s.settle = s

/-- For a register whose writes have no rule beyond their access codes (terms plain, rwAll): a granted word write gives each bit by its code (RW the written bit, W1C cleared by a 1, W1S set by a 1, else kept), a read answers the readable bits and clears the RC bits except for the JTAG reader, a _LO read takes the _HI word into the reader's snapshot, a _LO write is held for its master, and a _HI write commits both halves or, with none held, itself alone; no other register, no memory byte and no queue changes. A write by a master that is barred, locked out or met by a block that does not run changes nothing and is reported as a class 0 note; Cardamom, which has no bus view, writes nothing. The model's choices: log 11, log 12 (the note of a refused write), log 108 (held halves and the snapshots of JTAG), log 155 (Cardamom). Every command named here completes, from every state and with all operands: the last clauses give the operation that is its own effect. -/
def Obligations.RegisterAccess : Prop :=
  (∀ (m : Master) (a : Word) (v : BitVec 64) (r : RegSpec) (s : State),
      plain a.toNat = true →
      findReg a.toNat = some r →
      s.grants m a.toNat (w32 v.toNat) = true →
      accMask r .rwt = 0 →
      ((s.rwlLocked = false ∨ accMask r .rwl = 0)) →
      Effect (.registerWrite m a 4 v) s ([a.toNat]) ([]) (fun u => ∀ i : Fin 32, (u.reg a.toNat).getLsbD i =
  if (accMask r .rw).getLsbD i || (!s.rwlLocked && (accMask r .rwl).getLsbD i) then v.getLsbD i
  else if (accMask r .w1c).getLsbD i then (s.reg a.toNat).getLsbD i && !v.getLsbD i
  else if (accMask r .w1s).getLsbD i then (s.reg a.toNat).getLsbD i || v.getLsbD i else (s.reg a.toNat).getLsbD i)) ∧
  (∀ (m : Master) (a : Word) (v : BitVec 64) (s : State),
      s.arrives m a.toNat true = true →
      halfAt a.toNat ≠ 3 →
      s.locked m a.toNat (w32 v.toNat) = true →
      Effect (.registerWrite m a 4 v) s ([]) ([(14, 0, false)]) (fun u => True)) ∧
  (∀ (m : Master) (a : Word) (v : BitVec 64) (r : RegSpec) (s : State),
      inRegs a.toNat = true ∧ a.toNat % 4 = 0 ∧ a.toNat ≠ HOST_RWDATA →
      findReg a.toNat = some r →
      m ≠ .cardamom →
      (m = .host → s.isHeld .host = false) →
      s.bridgeDenied m a.toNat true = false →
      (s.unreached a.toNat = true ∨ barred m a.toNat = true) →
      Effect (.registerWrite m a 4 v) s ([]) ([(14, 0, false)]) (fun u => True)) ∧
  (∀ (a : Word) (v : BitVec 64) (s : State),
      Yields (.registerWrite .cardamom a 4 v) s (s)) ∧
  (∀ (m : Master) (a : Word) (r : RegSpec) (s : State),
      plainRead a.toNat = true →
      findReg a.toNat = some r →
      s.reads m a.toNat = true →
      r.half = 0 →
      Effect (.readClear m a 4) s ([a.toNat]) ([]) (fun u => u.rdata = (s.reg a.toNat &&& ~~~accMask r .wo &&& (accMask r .rw ||| accMask r .ro ||| accMask r .w1c |||
  accMask r .w1s ||| accMask r .rc ||| accMask r .rwt ||| accMask r .rwl)).setWidth 64 ∧
  u.reg a.toNat = (if m = .jtag then s.reg a.toNat else s.reg a.toNat &&& ~~~accMask r .rc))) ∧
  (∀ (m : Master) (a : Word) (r : RegSpec) (s : State),
      plainRead a.toNat = true →
      findReg a.toNat = some r →
      s.reads m a.toNat = true →
      r.half = 1 →
      accMask r .rc = 0 →
      Effect (.pairLoRead m a) s ([]) ([]) (fun u => u.snap m (a.toNat + 4) = s.reg (a.toNat + 4) ∧ u.rdata = (s.reg a.toNat &&& ~~~accMask r .wo &&& (accMask r .rw ||| accMask r .ro |||
  accMask r .w1c ||| accMask r .w1s ||| accMask r .rwt ||| accMask r .rwl)).setWidth 64)) ∧
  (∀ (m : Master) (a v : Word) (s : State),
      s.arrives m a.toNat true = true →
      halfAt a.toNat = 1 →
      s.locked m a.toNat v = false →
      Effect (.pairLoWrite m a v) s ([]) ([]) (fun u => u.low m (a.toNat + 4) = some v)) ∧
  (∀ (m : Master) (a v lo : Word) (s : State),
      plain a.toNat = true →
      rwAll a.toNat = true →
      rwAll (a.toNat - 4) = true →
      s.arrives m a.toNat true = true →
      halfAt a.toNat = 2 →
      s.locked m a.toNat v = false →
      s.low m a.toNat = some lo →
      Effect (.pairHiWrite m a v) s ([a.toNat - 4, a.toNat]) ([]) (fun u => u.reg (a.toNat - 4) = lo ∧ u.reg a.toNat = v ∧ u.low m a.toNat = none)) ∧
  (∀ (m : Master) (a v : Word) (s : State),
      plain a.toNat = true →
      rwAll a.toNat = true →
      s.arrives m a.toNat true = true →
      halfAt a.toNat = 2 →
      s.locked m a.toNat v = false →
      s.low m a.toNat = none →
      Effect (.pairHiWrite m a v) s ([a.toNat]) ([]) (fun u => u.reg a.toNat = v)) ∧
  (∀ (m : Master) (a : Word) (n : Fin 9) (s : State), Yields (.readClear m a n) s (s.anyRead m a.toNat n)) ∧
  (∀ (m : Master) (a : Word) (s : State), Yields (.pairLoRead m a) s (s.anyRead m a.toNat 4)) ∧
  (∀ (m : Master) (a : Word) (v : Word) (s : State), Yields (.pairLoWrite m a v) s (s.anyWrite m a.toNat 4 v.toNat)) ∧
  (∀ (m : Master) (a : Word) (v : Word) (s : State), Yields (.pairHiWrite m a v) s (s.anyWrite m a.toNat 4 v.toNat))

/-- For a LAU's RWT registers, with no commit check running: in the writer's open transaction a first write of the address is appended to the log and neither the register nor the shadow changes; outside a transaction, where no armed set holds the unit, the shadow takes the word and the register still reads its active value; where an armed set holds the unit, the write is ignored, TXN_STAT.ARMREF is set and a class 0 note is raised. Every command named here completes, from every state and with all operands: the last clauses give the operation that is its own effect. -/
def Obligations.ShadowWrites : Prop :=
  (∀ (m : Master) (k : Nat) (a v : Word) (s : State),
      lauRwt a.toNat = true →
      s.grants m a.toNat v = true →
      txnOf m = some k →
      s.flag (TXN_CH_STAT_OPEN k) = true →
      (∀ e ∈ (s.txnCh k).log, e.1 ≠ a.toNat) →
      (s.txnCh k).log.length < 1024 →
      ((List.range 21).map (fun j => (s.txnCh j).log.length)).sum < 4096 →
      Effect (.rwtWrite m a v) s ([a.toNat, TXN_CH_STAT k, TXN_CH_HANDLE k]) ([]) (fun u => u.reg a.toNat = s.reg a.toNat ∧ u.shadow = s.shadow ∧ (u.txnCh k).log = (s.txnCh k).log ++ [(a.toNat, v &&& rwtMask a.toNat)])) ∧
  (∀ (m : Master) (a v : Word) (s : State),
      lauRwt a.toNat = true →
      s.grants m a.toNat v = true →
      (∀ k : Fin 21, s.flag (TXN_CH_STAT_OPEN k) = false ∧ s.flag (TXN_CH_STAT_CHECKING k) = false ∧ (s.txnCh k).armed = none) →
      Effect (.rwtWrite m a v) s ([a.toNat]) ([]) (fun u => u.reg a.toNat &&& rwtMask a.toNat = s.reg a.toNat &&& rwtMask a.toNat ∧ u.shad a.toNat = some (v &&& rwtMask a.toNat))) ∧
  (∀ (m : Master) (a v : Word) (s : State),
      lauRwt a.toNat = true →
      s.grants m a.toNat v = true →
      (∀ k : Fin 21, s.flag (TXN_CH_STAT_OPEN k) = false ∧ s.flag (TXN_CH_STAT_CHECKING k) = false) →
      (s.armedBy (.lau ((a.toNat - 0x40500000) / 65536))).isSome = true →
      Effect (.rwtWrite m a v) s ([a.toNat, TXN_STAT]) ([(14, 0, false)]) (fun u => u.flag TXN_STAT_ARMREF = true ∧ u.shadow = s.shadow ∧ u.reg a.toNat &&& rwtMask a.toNat = s.reg a.toNat &&& rwtMask a.toNat)) ∧
  (∀ (m : Master) (a : Word) (v : Word) (s : State), Yields (.rwtWrite m a v) s (s.anyWrite m a.toNat 4 v.toNat))

/-- PORESET, whatever the fuses hold, latches the straps, names its cause, starts transition 1 or 2 and leaves every register but those, the brake hours and the repair words at its reset value; a start-up with no valid image or with BOOTHOLD stays in BOOT with CAUSE 0x0C; one with an image ends in PREOP or SAFESTOP with no transition in progress; the watchdog raises SYS_WDOG and asks for transition 21 with cause bit 2; a host port reset with HOSTRST asks for transition 21 with cause bit 4, and without it empties the host's channels, the MSI-X table and every host port register but the link configuration and its strap. The model's choices: START_UP is one command (log 34), the fuses and straps come as operands (log 7), MRAM holds what log 9 says before a start. Every command named here completes, from every state and with all operands: the last clauses give the operation that is its own effect. -/
def Obligations.ResetsAndStart : Prop :=
  (∀ (test spi hold : Bool) (fuses : List (Fin 48 × Fin 4096)) (s : State),
      Leaves (.poreset test spi hold fuses) s (fun u => u.flag SYS_RSTCAUSE_TESTMODE = test ∧ u.flag SYS_RSTCAUSE_HOSTSEL = spi ∧ u.flag SYS_RSTCAUSE_BOOTHOLD = hold ∧
  bits (u.reg SYS_RSTCAUSE) 4 0 = 1 ∧ u.busy = true ∧ u.fld SYS_MODE_TARGET = (if test then modeTEST else modeBOOT) ∧ u.pending = s.pending ∧
  (∀ e ∈ u.regs, e.1 ∈ [SYS_RSTCAUSE, SYS_MODE, HOST_STAT, SAF_BTEST 0, SAF_BTEST 1, MEM_REPSUM, MEM_STAT] ∨ 0x41700100 ≤ e.1 ∧ e.1 < 0x417001C0))) ∧
  (∀ (r : BootRes) (s : State),
      s.mode = modeBOOT →
      s.trans = none →
      s.fw.running = false →
      s.pwr.late = [] →
      ((((r.image = false ∧ s.sys.fwImg = none) ∨ s.flag SYS_RSTCAUSE_BOOTHOLD = true) ∧ s.noTxn = true)) →
      Effect (.startUp r) s ([SYS_MODE]) ([]) (fun u => u.mode = modeBOOT ∧ u.fld SYS_MODE_CAUSE = 0x0C ∧ u.busy = false)) ∧
  (∀ (r : BootRes) (s : State),
      s.mode = modeBOOT →
      s.trans = none →
      s.fw.running = false →
      r.image = true →
      s.flag SYS_RSTCAUSE_BOOTHOLD = false →
      Leaves (.startUp r) s (fun u => (u.mode = modePREOP ∨ u.mode = modeSAFESTOP) ∧ u.trans = none ∧ u.busy = false)) ∧
  (∀ (s : State),
      Yields (.sysWdogExpiry) s ({ s with raises := s.raises ++ [(13, 0, false)], modeq := s.modeq ++ [(21, 2, 8)] })) ∧
  (∀ (s : State),
      s.flag PWR_RSTCFG_HOSTRST = true →
      Yields (.hostPortReset) s ({ s with modeq := s.modeq ++ [(21, 4, 8)] })) ∧
  (∀ (s : State),
      s.flag PWR_RSTCFG_HOSTRST = false →
      Leaves (.hostPortReset) s (fun u => (∀ c ∈ hostChans, u.chan c = []) ∧ u.host = HostSt.reset ∧ u.reg (MBX_DB 0) = 0 ∧ u.pending = s.pending ∧
  (∀ e ∈ u.regs, 0x41800000 ≤ e.1 → e.1 < 0x41900000 → e.1 = HOST_LINKCFG ∨ e.1 = HOST_STAT))) ∧
  (∀ (r : BootRes) (s : State), Yields (.startUp r) s (s.startUp r)) ∧
  (∀ (s : State), Yields (.hostPortReset) s (s.hostPortReset))

/-- With no instance running, no setting that firmware keeps to assert again and no cause kept waiting: a boundary of the pacing cycle (of the pacing instance, or with none where domain 0 is at a whole millisecond) ends transition 8, 9, 11 or a commanded 10, the block actions' end ends transition 6, 12, 13, 14 or 15, and each leaves CUR at the target, PREV at the mode before, CAUSE at the cause, BUSY 0 and no transition; the end of reset leaves BOOT with the core PLLs locked and, by the model's choice (log 37), the fabric and Hamper domains on. Every command named here completes, from every state and with all operands: the last clauses give the operation that is its own effect. -/
def Obligations.TransitionsEnd : Prop :=
  (∀ (i : Option (Fin 4)) (t : Trans) (s : State),
      s.trans = some t →
      ((t.num = 8 ∨ t.num = 9 ∨ t.num = 11 ∨ (t.num = 10 ∧ t.cause ≠ 0x0B))) →
      (i.map (fun x => x.val)).getD 4 = s.pwr.pace →
      ((i.isSome = true ∨ s.gridAt 1000000 = true)) →
      t.target < 12 →
      t.cause < 256 →
      s.insts = [] →
      s.fw.cfg = [] →
      s.pwr.late = [] →
      Leaves (.networkCycleBoundary i) s (fun u => u.mode = t.target ∧ u.fld SYS_MODE_PREV = s.mode ∧ u.fld SYS_MODE_CAUSE = t.cause ∧ u.busy = false ∧ u.trans = none)) ∧
  (∀ (t : Trans) (s : State),
      s.trans = some t →
      ((t.num = 6 ∨ t.num = 12 ∨ t.num = 13 ∨ t.num = 14 ∨ t.num = 15)) →
      t.target < 12 →
      t.cause < 256 →
      s.insts = [] →
      s.fw.cfg = [] →
      s.pwr.late = [] →
      s.line.stored = none →
      Leaves (.modeTransitionComplete) s (fun u => u.mode = t.target ∧ u.fld SYS_MODE_PREV = s.mode ∧ u.fld SYS_MODE_CAUSE = t.cause ∧ u.busy = false ∧ u.trans = none)) ∧
  (∀ (t : Trans) (s : State),
      s.trans = some t →
      ((t.num = 1 ∨ t.num = 21)) →
      t.target = modeBOOT →
      t.cause < 256 →
      s.pwr.late = [] →
      Leaves (.modeTransitionComplete) s (fun u => u.mode = modeBOOT ∧ u.busy = false ∧ u.trans = none ∧ u.domOn 7 = true ∧ u.domOn 11 = true ∧
  u.flag SYS_CLKSTAT_PLL0LK = true ∧ u.flag SYS_CLKSTAT_PLL1LK = true ∧ u.flag SYS_CLKSTAT_PLL2LK = true)) ∧
  (∀ (i : Option (Fin 4)) (s : State), Yields (.networkCycleBoundary i) s (s.cycleBoundary ((i.map (fun x => x.val)).getD 4))) ∧
  (∀ (s : State), Yields (.modeTransitionComplete) s (s.modeComplete))

/-- Loss of REFCLK sets REFLOSS, of a PLL clears its lock and sets its sticky bit, each raising its source where it does not stand already; their return ends the source's state. A digital rail's bit of PIN_IOSTAT follows the rail, and a core rail raises PWR_SUPPLY. A temperature update stores the reading with VALID set, raising SYS_TEMPHI above the grade's warning and SYS_TEMPCRIT above its limit where they do not stand already. A domain that was being powered up is on afterwards, and Cardamom's or the cells' and CAN's registers then read their reset values. Nothing else changes. In OFF, BOOT and HOLDUP the balls stand as R384 lists them, and a ball without its supply is not driven. The model's choices: loss and relock of a PLL act on the PLL named whether or not it is in use (log 109), VDD_SAF is one supply of both channels (log 41), a rail out of range counts as absent for its balls (log 168). Every command named here completes, from every state and with all operands: the last clauses give the operation that is its own effect. -/
def Obligations.ClocksRailsAndTemperature : Prop :=
  (∀ (s : State),
      Effect (.refclkLoss) s ([SYS_CLKSTAT, FCU_STAT]) (if storeGet (fun _ => false) s.fcu.cond 0 then [] else [(0, 0, false)]) (fun u => u.flag SYS_CLKSTAT_REFLOSS = true ∧ u.flag FCU_STAT_ALIVESTOP = true ∧ u.flag FCU_STAT_FAULTN = true ∧ u.pwr.refOff = true ∧ storeGet (fun _ => false) u.fcu.cond 0 = true)) ∧
  (∀ (s : State),
      Effect (.refclkRestore) s ([FCU_STAT]) ([]) (fun u => u.pwr.refOff = false ∧ storeGet (fun _ => false) u.fcu.cond 0 = false ∧ u.flag FCU_STAT_ALIVESTOP = (!s.flag FCU_CTRL_ARMED || s.refBack.aliveStop))) ∧
  (∀ (k : Fin 6) (s : State),
      Effect (.pllLossOfLock k) s ([SYS_CLKSTAT]) (if storeGet (fun _ => false) s.fcu.cond (1 + k) then [] else [(1 + k.val, 0, false)]) (fun u => u.flag (pllLock k) = false ∧
  (∀ f, pllSticky k = some f → u.flag f = true) ∧ storeGet (fun _ => false) u.fcu.cond (1 + k) = true)) ∧
  (∀ (k : Fin 6) (s : State),
      Effect (.pllRelock k) s ([SYS_CLKSTAT]) ([]) (fun u => u.flag (pllLock k) = true ∧ storeGet (fun _ => false) u.fcu.cond (1 + k) = false)) ∧
  (∀ (r : Fin 10) (s : State),
      r.val < 8 →
      Effect (.supplyOutOfRange r) s ([PIN_IOSTAT]) ([]) (fun u => (u.reg PIN_IOSTAT).getLsbD r = false ∧ (∀ j : Fin 32, j.val ≠ r.val → (u.reg PIN_IOSTAT).getLsbD j = (s.reg PIN_IOSTAT).getLsbD j))) ∧
  (∀ (r : Fin 10) (s : State),
      8 ≤ r.val →
      Effect (.supplyOutOfRange r) s ([]) (if storeGet (fun _ => false) s.fcu.cond 9 then [] else [(9, 0, false)]) (fun u => storeGet (fun _ => false) u.fcu.cond 9 = true ∧ u.pwr.rails = s.pwr.rails ||| 2 ^ (r.val - 8))) ∧
  (∀ (r : Fin 10) (s : State),
      r.val < 8 →
      Effect (.supplyInRange r) s ([PIN_IOSTAT]) ([]) (fun u => (u.reg PIN_IOSTAT).getLsbD r = true ∧ (∀ j : Fin 32, j.val ≠ r.val → (u.reg PIN_IOSTAT).getLsbD j = (s.reg PIN_IOSTAT).getLsbD j))) ∧
  (∀ (r : Fin 10) (s : State),
      (8 ≤ r.val ∧ s.pwr.rails = 2 ^ (r.val - 8)) →
      Effect (.supplyInRange r) s ([]) ([]) (fun u => storeGet (fun _ => false) u.fcu.cond 9 = false ∧ u.pwr.rails = 0)) ∧
  (∀ (r : Fin 10) (s : State),
      (8 ≤ r.val ∧ s.pwr.rails = 3 ∧ storeGet (fun _ => false) s.fcu.cond 9 = true) →
      Effect (.supplyInRange r) s ([]) ([]) (fun u => storeGet (fun _ => false) u.fcu.cond 9 = true ∧ u.pwr.rails = 3 - 2 ^ (r.val - 8))) ∧
  (∀ (t : BitVec 16) (s : State),
      Effect (.tempUpdate t) s ([SYS_TEMP]) ((if gradeLimit - 50 < t.toInt ∧ storeGet (fun _ => false) s.fcu.cond 11 = false then [(11, 0, false)] else []) ++
  (if gradeLimit < t.toInt ∧ storeGet (fun _ => false) s.fcu.cond 12 = false then [(12, 0, false)] else [])) (fun u => u.fld SYS_TEMP_TEMP = t.toNat ∧
  u.flag SYS_TEMP_VALID = true ∧ storeGet (fun _ => false) u.fcu.cond 11 = decide (gradeLimit - 50 < t.toInt) ∧ storeGet (fun _ => false) u.fcu.cond 12 = decide (gradeLimit < t.toInt))) ∧
  (∀ (d : Fin 12) (s : State),
      s.domSt d = 3 →
      Leaves (.domainSwitchComplete d) s (fun u => u.domOn d = true ∧ (d = 9 → ∀ e ∈ u.regs, ¬ (0x41200000 ≤ e.1 ∧ e.1 < 0x41400000)) ∧
  (d = 10 → ∀ e ∈ u.regs, ¬ (0x41400000 ≤ e.1 ∧ e.1 < 0x41600000)))) ∧
  (∀ (t : Nat) (b : Machine.Ball) (s : State),
      s.mode ≠ modeTEST →
      s.unsupplied b = true →
      s.ball t b = some .open_) ∧
  (∀ (n t : Nat) (s : State),
      s.mode = modeOFF →
      s.reg PIN_IOSTAT = 0xFF#32 →
      s.ball t (.ep n) = some (if s.flag (PIN_EP_PULLDIS n) then .open_ else .pullDown) ∧ s.ball t (.np n) = some .pullDown ∧ s.ball t (.canTx n) = some .pullUp ∧
  s.ball t (.canTxEn n) = some .pullDown ∧ s.ball t (.safHigh n) = some .pullDown ∧ s.ball t (.safLow n) = some .pullDown ∧ s.ball t (.feed n) = some .pullDown ∧
  s.ball t .aliveA = some .low ∧ s.ball t .aliveB = some .low ∧ s.ball t .holdEn = some .pullDown ∧ s.ball t (.hostIo n) = some .open_ ∧
  s.ball t .hostIrqN = some .open_ ∧ s.ball t .mdc = some .low ∧ s.ball t .mdio = some .pullUp ∧ s.ball t (.pair n) = some .open_) ∧
  (∀ (n t : Nat) (s : State),
      s.mode = modeBOOT →
      s.reg PIN_IOSTAT = 0xFF#32 →
      s.canDrives n = false →
      s.flag PIN_MDIO_GO = false →
      s.domOn 8 = false →
      s.ball t (.ep n) = some (padOf (s.flag (EDGE_EP_CTRL_SAFELVL n))) ∧ s.ball t (.np n) = some (s.npPull n) ∧ s.ball t (.canTx n) = some .high ∧
  s.ball t (.canTxEn n) = some .low ∧ s.ball t (.feed n) = some .high ∧ s.ball t (.hostIo n) = some .open_ ∧ s.ball t .mdc = some .low ∧ s.ball t (.pair n) = some .open_) ∧
  (∀ (n t : Nat) (s : State),
      s.mode = modeHOLDUP →
      s.reg PIN_IOSTAT = 0xFF#32 →
      s.domOn 10 = false →
      s.ball t (.ep n) = some .low ∧ s.ball t (.np n) = some (s.npPull n) ∧ s.ball t (.canTx n) = some .high ∧ s.ball t (.canTxEn n) = some .low ∧
  s.ball t (.feed n) = some .high ∧ s.ball t .holdEn = some (padOf s.pwr.holdEn) ∧ s.ball t .mdc = some .low ∧ s.ball t (.pair n) = some .open_) ∧
  (∀ (r : Fin 10) (s : State), Yields (.supplyOutOfRange r) s (s.rail r false)) ∧
  (∀ (r : Fin 10) (s : State), Yields (.supplyInRange r) s (s.supplyBack r)) ∧
  (∀ (d : Fin 12) (s : State), Yields (.domainSwitchComplete d) s (s.domainReady d))

/-- With no slot armed: an acquisition step of a domain in ACQ with STEPSRC clear adds the STEP registers to its time and enters TRACK with STEPST 1 (0 s, 0 ns and STEPCLAMP where the sum lies below 0 s), in another state it is refused with STEPST 2, with STEPSRC set with STEPST 3; FREE enters FREE and raises TIME_REARM from TRACK only; ACQ enters ACQ from FREE only; ADJ takes the value clamped to ±4294967, setting ADJCLAMP where it was clamped; a read of NS takes SEC, FRAC and CYC into the reader's snapshot; with EN, an edge of PPS_IN while no reference edge exists and no step or servo is due captures the four domains, sets EDGE and clears LOST, and the loss of PPS sets LOST and raises TIME_PPSLOST; an edge outside the tolerance window after fewer than three rejections is counted and moves nothing else; an accepted edge of a domain in ACQ with STEPSRC set steps it to PPS_SEC and TRACK; an accepted edge with the servo on of a domain in TRACK writes ERR, and ADJ less the frequency and phase terms of R38, clamped; with EN clear neither an edge nor the loss does anything. No other register changes and no memory. The model's choices: which error is the one before (logs 137, 113). Every command named here completes, from every state and with all operands: the last clauses give the operation that is its own effect. -/
def Obligations.TimeDomainCommands : Prop :=
  (∀ (m : Master) (d : Fin 4) (s : State),
      s.grantsF m (TIME_DOM_CTRL_STEP d) 1 = true →
      s.domState d = 1 →
      s.flag (TIME_DOM_CTRL_STEPSRC d) = false →
      s.itin.armed = [] →
      s.stepTime d < 2 ^ 64 * 1000000000 →
      Effect (.timeStep m d) s ([TIME_DOM_CTRL d, TIME_DOM_STAT d, TIME_DOM_NS d, TIME_DOM_FRAC d, TIME_DOM_SEC_LO d, TIME_DOM_SEC_HI d, TIME_DOM_CYC d]) ([]) (fun u => u.domState d = 2 ∧ u.fld (TIME_DOM_STAT_STEPST d) = 1 ∧ u.domNs d = max 0 (s.stepTime d) ∧ (s.stepTime d < 0 → u.flag (TIME_DOM_STAT_STEPCLAMP d) = true))) ∧
  (∀ (m : Master) (d : Fin 4) (s : State),
      s.grantsF m (TIME_DOM_CTRL_STEP d) 1 = true →
      s.domState d ≠ 1 →
      Effect (.timeStep m d) s ([TIME_DOM_STAT d]) ([]) (fun u => u.domState d = s.domState d ∧ u.fld (TIME_DOM_STAT_STEPST d) = 2)) ∧
  (∀ (m : Master) (d : Fin 4) (s : State),
      s.grantsF m (TIME_DOM_CTRL_STEP d) 1 = true →
      s.domState d = 1 →
      s.flag (TIME_DOM_CTRL_STEPSRC d) = true →
      Effect (.timeStep m d) s ([TIME_DOM_STAT d]) ([]) (fun u => u.domState d = 1 ∧ u.fld (TIME_DOM_STAT_STEPST d) = 3)) ∧
  (∀ (m : Master) (d : Fin 4) (s : State),
      s.grantsF m (TIME_DOM_CTRL_FREE d) 1 = true →
      Effect (.timeFree m d) s ([TIME_DOM_STAT d]) (if s.domState d = 2 then [(17 + d.val, 0, false)] else []) (fun u => u.domState d = 0)) ∧
  (∀ (m : Master) (d : Fin 4) (s : State),
      s.grantsF m (TIME_DOM_CTRL_ACQ d) 1 = true →
      Effect (.timeAcq m d) s ([TIME_DOM_STAT d]) ([]) (fun u => u.domState d = (if s.domState d = 0 then 1 else s.domState d))) ∧
  (∀ (m : Master) (d : Fin 4) (v : Word) (s : State),
      s.grants m (TIME_DOM_ADJ d) v = true →
      Effect (.timeAdjWrite m d v) s ([TIME_DOM_ADJ d, TIME_DOM_STAT d]) ([]) (fun u => (u.reg (TIME_DOM_ADJ d)).toInt = max (-4294967) (min 4294967 v.toInt) ∧
  u.flag (TIME_DOM_STAT_ADJCLAMP d) = (s.flag (TIME_DOM_STAT_ADJCLAMP d) || decide (v.toInt < -4294967 ∨ 4294967 < v.toInt)) ∧ u.domState d = s.domState d)) ∧
  (∀ (m : Master) (d : Fin 4) (s : State),
      s.reads m (TIME_DOM_NS d) = true →
      Effect (.timeNsRead m d) s ([]) ([]) (fun u => u.rdata = (s.fld (TIME_DOM_NS_NS d)) ∧
  (∀ a ∈ [TIME_DOM_SEC_LO d, TIME_DOM_SEC_HI d, TIME_DOM_FRAC d, TIME_DOM_CYC d], u.snap m a = s.reg a))) ∧
  (∀ (e8 : Fin 8) (s : State),
      s.flag TIME_PPS_CTRL_EN = true →
      s.time.ppsRef = false →
      s.domState (s.fld TIME_PPS_CTRL_DOM) = 0 →
      Effect (.ppsEdge e8) s ([TIME_PPS_STAT, TIME_PPS_CAPFRAC, TIME_PPS_CAP_NS 0, TIME_PPS_CAP_NS 1, TIME_PPS_CAP_NS 2, TIME_PPS_CAP_NS 3, TIME_PPS_CAP_SEC_LO 0,
  TIME_PPS_CAP_SEC_LO 1, TIME_PPS_CAP_SEC_LO 2, TIME_PPS_CAP_SEC_LO 3, TIME_PPS_CAP_SEC_HI 0, TIME_PPS_CAP_SEC_HI 1, TIME_PPS_CAP_SEC_HI 2, TIME_PPS_CAP_SEC_HI 3]) ([]) (fun u => u.flag TIME_PPS_STAT_EDGE = true ∧ u.flag TIME_PPS_STAT_LOST = false ∧ u.time.ppsRef = true ∧ u.time.ppsAge = 0 ∧
  (∀ d : Fin 4, (u.pair (TIME_PPS_CAP_SEC_LO d) * 1000000000 + u.regN (TIME_PPS_CAP_NS d)) * 8 + u.regN TIME_PPS_CAPFRAC / 8 ^ d.val % 8 = s.domAt8 d e8))) ∧
  (∀ (e8 : Fin 8) (s : State),
      s.flag TIME_PPS_CTRL_EN = false →
      Yields (.ppsEdge e8) s (s)) ∧
  (∀ (s : State),
      s.flag TIME_PPS_CTRL_EN = true →
      s.flag TIME_PPS_STAT_LOST = false →
      Effect (.ppsLost) s ([TIME_PPS_STAT]) ([(16, 0, false)]) (fun u => u.flag TIME_PPS_STAT_LOST = true ∧ u.time.ppsRef = false)) ∧
  (∀ (s : State),
      s.flag TIME_PPS_CTRL_EN = false →
      Yields (.ppsLost) s (s)) ∧
  (∀ (e8 : Fin 8) (s : State),
      s.flag TIME_PPS_CTRL_EN = true →
      s.time.ppsRef = true →
      s.time.ppsRej < 3 →
      (s.time.ppsAge + max 1 (s.fld TIME_PPS_CTRL_TOL) * 1000 < 1000000000 ∨ 1000000000 + max 1 (s.fld TIME_PPS_CTRL_TOL) * 1000 < s.time.ppsAge) →
      Effect (.ppsEdge e8) s ([TIME_PPS_STAT, TIME_PPS_CAPFRAC, TIME_PPS_CAP_NS 0, TIME_PPS_CAP_NS 1, TIME_PPS_CAP_NS 2, TIME_PPS_CAP_NS 3, TIME_PPS_CAP_SEC_LO 0,
  TIME_PPS_CAP_SEC_LO 1, TIME_PPS_CAP_SEC_LO 2, TIME_PPS_CAP_SEC_LO 3, TIME_PPS_CAP_SEC_HI 0, TIME_PPS_CAP_SEC_HI 1, TIME_PPS_CAP_SEC_HI 2, TIME_PPS_CAP_SEC_HI 3]) ([]) (fun u => u.fld TIME_PPS_STAT_REJ = min 255 (s.fld TIME_PPS_STAT_REJ + 1) ∧ u.time.ppsRej = s.time.ppsRej + 1 ∧ u.time.ppsAge = s.time.ppsAge ∧
  u.flag TIME_PPS_STAT_EDGE = s.flag TIME_PPS_STAT_EDGE)) ∧
  (∀ (d : Fin 4) (e8 : Fin 8) (s : State),
      s.flag TIME_PPS_CTRL_EN = true →
      s.time.ppsRef = false →
      s.fld TIME_PPS_CTRL_DOM = d →
      s.domState d = 1 →
      s.flag (TIME_DOM_CTRL_STEPSRC d) = true →
      s.itin.armed = [] →
      Effect (.ppsEdge e8) s ([TIME_PPS_STAT, TIME_DOM_STAT d, TIME_DOM_NS d, TIME_DOM_FRAC d, TIME_DOM_SEC_LO d, TIME_DOM_SEC_HI d, TIME_DOM_CYC d, TIME_PPS_CAPFRAC, TIME_PPS_CAP_NS 0, TIME_PPS_CAP_NS 1, TIME_PPS_CAP_NS 2, TIME_PPS_CAP_NS 3, TIME_PPS_CAP_SEC_LO 0,
  TIME_PPS_CAP_SEC_LO 1, TIME_PPS_CAP_SEC_LO 2, TIME_PPS_CAP_SEC_LO 3, TIME_PPS_CAP_SEC_HI 0, TIME_PPS_CAP_SEC_HI 1, TIME_PPS_CAP_SEC_HI 2, TIME_PPS_CAP_SEC_HI 3]) ([]) (fun u => u.domNs d = (s.pair TIME_PPS_SEC_LO * 1000000000 : Nat) ∧ u.domState d = 2 ∧ u.fld (TIME_DOM_STAT_STEPST d) = 1 ∧ u.flag TIME_PPS_STAT_STEPPED = true ∧
  u.flag TIME_PPS_STAT_EDGE = true ∧ u.time.ppsErr = none)) ∧
  (∀ (d : Fin 4) (e8 : Fin 8) (e e0 : Int) (s : State),
      s.flag TIME_PPS_CTRL_EN = true →
      s.flag TIME_PPS_CTRL_SERVO = true →
      s.time.ppsRef = true →
      s.time.ppsRej < 3 →
      s.time.ppsAge = 1000000000 →
      s.fld TIME_PPS_CTRL_DOM = d →
      s.domState d = 2 →
      s.time.ppsErr = some (d.val, e0) →
      e = (if 500000000 ≤ s.domAt8 d e8 / 8 % 1000000000 then ((s.domAt8 d e8 / 8 % 1000000000 : Nat) : Int) - 1000000000 else (s.domAt8 d e8 / 8 % 1000000000 : Nat)) →
      Effect (.ppsEdge e8) s ([TIME_PPS_STAT, TIME_PPS_ERR, TIME_DOM_ADJ d, TIME_DOM_STAT d, TIME_PPS_CAPFRAC, TIME_PPS_CAP_NS 0, TIME_PPS_CAP_NS 1, TIME_PPS_CAP_NS 2, TIME_PPS_CAP_NS 3, TIME_PPS_CAP_SEC_LO 0,
  TIME_PPS_CAP_SEC_LO 1, TIME_PPS_CAP_SEC_LO 2, TIME_PPS_CAP_SEC_LO 3, TIME_PPS_CAP_SEC_HI 0, TIME_PPS_CAP_SEC_HI 1, TIME_PPS_CAP_SEC_HI 2, TIME_PPS_CAP_SEC_HI 3]) ([]) (fun u => (u.reg TIME_PPS_ERR).toInt = e ∧ u.time.ppsErr = some (d.val, e) ∧ u.time.ppsAge = 0 ∧ u.flag TIME_PPS_STAT_EDGE = true ∧
  (u.reg (TIME_DOM_ADJ d)).toInt = max (-4294967) (min 4294967 ((s.reg (TIME_DOM_ADJ d)).toInt - rdiv (4294967296 * (e - e0)) 1000000000 -
    rdiv (4294967296 * e) (1000000000 * 2 ^ s.fld TIME_PPS_CTRL_PSHIFT))))) ∧
  (∀ (m : Master) (d : Fin 4) (s : State), Yields (.timeStep m d) s (s.fieldWrite m (TIME_DOM_CTRL_STEP d) 1)) ∧
  (∀ (m : Master) (d : Fin 4) (s : State), Yields (.timeFree m d) s (s.fieldWrite m (TIME_DOM_CTRL_FREE d) 1)) ∧
  (∀ (m : Master) (d : Fin 4) (s : State), Yields (.timeAcq m d) s (s.fieldWrite m (TIME_DOM_CTRL_ACQ d) 1)) ∧
  (∀ (m : Master) (d : Fin 4) (v : Word) (s : State), Yields (.timeAdjWrite m d v) s (s.wordWrite m (TIME_DOM_ADJ d) v)) ∧
  (∀ (m : Master) (d : Fin 4) (s : State), Yields (.timeNsRead m d) s (s.busRead m (TIME_DOM_NS d) 4)) ∧
  (∀ (e8 : Fin 8) (s : State), Yields (.ppsEdge e8) s (s.ppsEdge e8)) ∧
  (∀ (s : State), Yields (.ppsLost) s (s.ppsLost))

/-- EN starts a stopped LAU with a fresh initialisation to come, or stops a running one with speed and acceleration 0; REACQ zeroes them, clears SETTLED and asks for a new initialisation; SETANG moves the estimate to the set angle with OFFSET following, or with an armed angle slot of the LAU only sets SETREF; a network write with the source not the network, or no new angle, counts one rejection up to 255, and the first measurement accepted after a start takes the angle plus OFFSET as the estimate and sets REACQ; the loss of a measured source sets SRCLOST, zeroes the acceleration and raises its source; a boundary with nothing shadowed changes nothing, and one with a shadow that breaks rule 1 of the LAU only reports it. The model's choice: EN = 0 clears SETTLED (log 117). Every command named here completes, from every state and with all operands: the last clauses give the operation that is its own effect. -/
def Obligations.LauCommands : Prop :=
  (∀ (m : Master) (v : Fin 2) (s : State),
      s.grantsF m (LAU_CTRL_EN v) 1 = true →
      s.flag (LAU_CTRL_EN v) = false →
      Effect (.lauEnable m v true) s ([LAU_CTRL v, LAU_ANG_LO v, LAU_ANG_HI v, LAU_SPD v, LAU_ACC v]) ([]) (fun u => u.flag (LAU_CTRL_EN v) = true ∧ (u.lauSt v).init = (if (s.lauSt v).init = 3 then 3 else 1))) ∧
  (∀ (m : Master) (v : Fin 2) (s : State),
      s.grantsF m (LAU_CTRL_EN v) 0 = true →
      s.flag (LAU_CTRL_EN v) = true →
      (∀ k : Fin 21, (s.txnCh k).armed = none) →
      Effect (.lauEnable m v false) s ([LAU_CTRL v, LAU_ANG_LO v, LAU_ANG_HI v, LAU_SPD v, LAU_ACC v, LAU_STAT v]) ([]) (fun u => u.flag (LAU_CTRL_EN v) = false ∧ (u.lauSt v).omega = 0 ∧ (u.lauSt v).alpha = 0 ∧
  u.flag (LAU_STAT_SETTLED v) = false)) ∧
  (∀ (m : Master) (v : Fin 2) (s : State),
      s.grantsF m (LAU_CTRL_REACQ v) 1 = true →
      s.flag (LAU_CTRL_EN v) = true →
      Effect (.reacq m v) s ([LAU_CTRL v, LAU_ANG_LO v, LAU_ANG_HI v, LAU_SPD v, LAU_ACC v, LAU_STAT v]) ([]) (fun u => (u.lauSt v).omega = 0 ∧ (u.lauSt v).alpha = 0 ∧ (u.lauSt v).init = 3 ∧
  u.flag (LAU_STAT_SETTLED v) = false ∧ (u.lauSt v).theta = (s.lauSt v).theta)) ∧
  (∀ (m : Master) (v : Fin 2) (s : State),
      s.grantsF m (LAU_CTRL_SETANG v) 1 = true →
      s.flag (LAU_CTRL_EN v) = true →
      s.itin.armed = [] →
      Effect (.setang m v) s ([LAU_CTRL v, LAU_ANG_LO v, LAU_ANG_HI v, LAU_SPD v, LAU_ACC v]) ([]) (fun u => u.pair (LAU_ANG_LO v) = s.pair (LAU_SET_LO v) ∧
  (u.lauSt v).theta = s.pair (LAU_SET_LO v) * 2 ^ 32 ∧ (u.lauSt v).omega = (s.lauSt v).omega ∧
  (u.lauSt v).offset - (s.lauSt v).offset = sgn 64 (uns 64 ((s.pair (LAU_SET_LO v) : Int) - ((s.lauSt v).theta / 2 ^ 32 : Nat))))) ∧
  (∀ (m : Master) (v : Fin 2) (s : State),
      s.grantsF m (LAU_CTRL_SETANG v) 1 = true →
      s.flag (LAU_CTRL_EN v) = true →
      s.angleSlotOn v = true →
      Effect (.setang m v) s ([LAU_STAT v]) ([]) (fun u => u.flag (LAU_STAT_SETREF v) = true)) ∧
  (∀ (m : Master) (v : Fin 2) (ts : Word) (s : State),
      s.grants m (LAU_NET_TS v) ts = true →
      ((s.fld (LAU_CFG_SRC v) ≠ 2 ∨ (s.lauSt v).netFresh = false)) →
      s.isHeld (.lau v) = false →
      Effect (.netTs m v ts) s ([LAU_STAT v]) ([]) (fun u => u.fld (LAU_STAT_REJ v) = min 255 (s.fld (LAU_STAT_REJ v) + 1) ∧ (u.lauSt v).theta = (s.lauSt v).theta)) ∧
  (∀ (m : Master) (v : Fin 2) (ts : Word) (s : State),
      s.grants m (LAU_NET_TS v) ts = true →
      s.fld (LAU_CFG_SRC v) = 2 →
      s.lauOn v = true →
      (s.lauSt v).netFresh = true →
      (s.lauSt v).init = 1 →
      (s.lauSt v).tPrev = none →
      s.reg (TIME_DOM_CYC (s.fld (LAU_CFG_DOM v))) = ts →
      Effect (.netTs m v ts) s ([LAU_STAT v, LAU_ANG_LO v, LAU_ANG_HI v, LAU_SPD v, LAU_ACC v]) ([]) (fun u => (u.lauSt v).theta = uns 96 (((s.pair (LAU_NET_ANG_LO v) : Int) + (s.lauSt v).offset) * 2 ^ 32) ∧
  (u.lauSt v).init = 0 ∧ u.flag (LAU_STAT_REACQ v) = true ∧ u.flag (LAU_STAT_SRCLOST v) = false)) ∧
  (∀ (v : Fin 2) (s : State),
      s.runs 7 (.lau v) = true →
      s.lauOn v = true →
      ((s.fld (LAU_CFG_SRC v) = 1 ∨ s.fld (LAU_CFG_SRC v) = 2)) →
      s.flag (LAU_STAT_SRCLOST v) = false →
      s.flag (LAU_CFG_LOSSACT v) = false →
      (∀ k : Fin 21, (s.txnCh k).armed = none) →
      Effect (.srclost v) s ([LAU_STAT v, LAU_ANG_LO v, LAU_ANG_HI v, LAU_SPD v, LAU_ACC v]) ([(21 + v.val, 0, false)]) (fun u => u.flag (LAU_STAT_SRCLOST v) = true ∧ (u.lauSt v).alpha = 0)) ∧
  (∀ (v : Fin 2) (s : State),
      s.runs 7 (.lau v) = true →
      s.shadOf (.lau v) = [] →
      Yields (.lauApplyBoundary v) s (s)) ∧
  (∀ (v : Fin 2) (s : State),
      s.runs 7 (.lau v) = true →
      s.lauAtBoundary v = true →
      s.shad (LAU_CPT_NUM v) = some 0 →
      (∀ k : Fin 21, (s.txnCh k).armed = none) →
      Effect (.lauApplyBoundary v) s ([TXN_STAT, TXN_INCADDR]) ([(355, 0, false)]) (fun u => u.reg (LAU_CPT_NUM v) = s.reg (LAU_CPT_NUM v) ∧ u.fld TXN_STAT_RULE = 1 ∧ u.shadow = s.shadow)) ∧
  (∀ (m : Master) (u : Fin 2) (ts : Word) (s : State), Yields (.netTs m u ts) s (s.wordWrite m (LAU_NET_TS u) ts)) ∧
  (∀ (m : Master) (u : Fin 2) (en : Bool) (s : State), Yields (.lauEnable m u en) s (s.fieldWrite m (LAU_CTRL_EN u) (bit en))) ∧
  (∀ (m : Master) (u : Fin 2) (s : State), Yields (.reacq m u) s (s.fieldWrite m (LAU_CTRL_REACQ u) 1)) ∧
  (∀ (m : Master) (u : Fin 2) (s : State), Yields (.setang m u) s (s.fieldWrite m (LAU_CTRL_SETANG u) 1)) ∧
  (∀ (u : Fin 2) (s : State), Yields (.srclost u) s (s.inBlk 7 (.lau u) (fun s => s.lauLost u))) ∧
  (∀ (u : Fin 2) (s : State), Yields (.lauApplyBoundary u) s (s.inBlk 7 (.lau u) (fun s => s.lauBoundary u)))

/-- A one-shot time slot with a legal argument whose time lies inside the window is armed with its due count; a write with ARM to an armed slot only sets WIGN; ARM = 0 disarms; a due slot waits for issue; with nothing armed a prediction pass, with nothing due an issue, and with an empty queue a drain change nothing; a pass predicts an armed angle slot ahead of its LAU, giving its due time and committing it within 1,000 ns, and lets one of a slow LAU wait; a periodic slot that issues is armed for the first period that is not past, the others counted in MISS; a capture action latches time and both angles, a post enters its level, a trigger and a gate action start their groups and lists, each with the slot disarmed and the delay in MAXLAG; a one-shot due slot whose action places an edge that was handed over already is disarmed at its issue; a post with room enters its level; MISSCLR zeroes MISS; a slot 15 to 16 ns before its due time hands its edge to an enabled placer; a pending edge whose time has come sets the placer's level and LAST. Every command named here completes, from every state and with all operands: the last clauses give the operation that is its own effect. -/
def Obligations.SlotCommands : Prop :=
  (∀ (m : Master) (n : Fin 512) (v : Word) (s : State),
      s.grants m (ITIN_SLOT_CTRL n) (v ||| 0x80000000#32) = true →
      s.flag (ITIN_SLOT_CTRL_ARM n) = false →
      s.isHeld .itin = false →
      (bits v 30 28 = 0 ∧ bits v 23 21 = 0) →
      s.regN (ITIN_SLOT_TRIG_LO n) ≤ 999999999 →
      0 ≤ s.timeAhead (bits v 27 26) (s.regN (ITIN_SLOT_TRIG_LO n)) (s.regN (ITIN_SLOT_TRIG_HI n)) →
      s.timeAhead (bits v 27 26) (s.regN (ITIN_SLOT_TRIG_LO n)) (s.regN (ITIN_SLOT_TRIG_HI n)) ≤ 2147483647 →
      Effect (.itinSlotArm m n v) s ([ITIN_SLOT_CTRL n, ITIN_SLOT_STAT n, ITIN_SLOT_DUE n, ITIN_STAT]) ([]) (fun u => u.flag (ITIN_SLOT_CTRL_ARM n) = true ∧ u.fld (ITIN_SLOT_STAT_STATE n) = 1 ∧
  u.fld (ITIN_SLOT_STAT_RESULT n) = 0 ∧ n.val ∈ u.itin.armed ∧ u.fld (ITIN_SLOT_STAT_DUEFRAC n) = bits v 2 0 ∧
  u.regN (ITIN_SLOT_DUE n) = uns 32 ((s.regN (TIME_DOM_CYC (bits v 27 26)) : Int) + s.timeAhead (bits v 27 26) (s.regN (ITIN_SLOT_TRIG_LO n)) (s.regN (ITIN_SLOT_TRIG_HI n))))) ∧
  (∀ (m : Master) (n : Fin 512) (v : Word) (s : State),
      s.grants m (ITIN_SLOT_CTRL n) (v ||| 0x80000000#32) = true →
      s.flag (ITIN_SLOT_CTRL_ARM n) = true →
      Effect (.itinSlotArm m n v) s ([ITIN_SLOT_STAT n]) ([]) (fun u => u.flag (ITIN_SLOT_STAT_WIGN n) = true ∧ u.itin = s.itin)) ∧
  (∀ (m : Master) (n : Fin 512) (v : Word) (s : State),
      s.grants m (ITIN_SLOT_CTRL n) (v &&& 0x7FFFFFFF#32) = true →
      s.flag (ITIN_SLOT_CTRL_ARM n) = true →
      Effect (.itinSlotDisarm m n v) s ([ITIN_SLOT_CTRL n, ITIN_SLOT_STAT n, ITIN_STAT]) ([]) (fun u => u.flag (ITIN_SLOT_CTRL_ARM n) = false ∧ u.fld (ITIN_SLOT_STAT_STATE n) = 0 ∧ n.val ∉ u.itin.armed ∧
  (∀ e ∈ u.itin.dueQ, e.2 ≠ n.val))) ∧
  (∀ (n : Fin 512) (s : State),
      s.domOn 7 = true →
      s.fld (ITIN_SLOT_STAT_STATE n) = 1 →
      s.slotReached n = true →
      s.asleep = false →
      s.isHeld .itin = false →
      Effect (.itinSlotDue n) s ([]) ([]) (fun u => ∃ e ∈ u.itin.dueQ, e.2 = n.val)) ∧
  (∀ (s : State),
      s.domOn 7 = true →
      s.itin.armed = [] →
      Yields (.anglePredict) s (s)) ∧
  (∀ (s : State),
      s.domOn 7 = true →
      s.itin.dueQ = [] →
      Yields (.itinIssue) s (s)) ∧
  (∀ (n t : Nat) (s : State),
      s.domOn 7 = true →
      s.asleep = false →
      s.isHeld .itin = false →
      n < 512 →
      s.itin.dueQ = [(t, n)] →
      s.fld (ITIN_SLOT_STAT_STATE n) = 1 →
      s.fld (ITIN_SLOT_CTRL_ACT n) = 0 →
      s.flag (ITIN_SLOT_CTRL_PER n) = false →
      (s.slotSt n).handed = true →
      (s.slotSt n).late = false →
      Effect (.itinIssue) s ([ITIN_SLOT_CTRL n, ITIN_SLOT_STAT n, ITIN_STAT]) ([]) (fun u => u.flag (ITIN_SLOT_CTRL_ARM n) = false ∧ u.fld (ITIN_SLOT_STAT_STATE n) = 0 ∧ u.itin.dueQ = [] ∧
  u.fld ITIN_STAT_MAXLAG = max (s.fld ITIN_STAT_MAXLAG) (min 255 (s.time.now - t)))) ∧
  (∀ (n v : Nat) (p : Nat × Nat) (s : State),
      s.domOn 7 = true →
      s.asleep = false →
      s.isHeld .itin = false →
      s.cyc0.toNat % 32 = 0 →
      n < 512 →
      s.itin.armed = [n] →
      s.fld (ITIN_SLOT_CTRL_TRIG n) = 1 →
      s.fld (ITIN_SLOT_STAT_STATE n) = 2 →
      s.fld (ITIN_SLOT_CTRL_DIR n) = 0 →
      s.fld (ITIN_SLOT_CTRL_SRC n) = v →
      s.lauOn v = true →
      s.flag (LAU_STAT_SRCLOST v) = false →
      0 < s.tickAhead v (s.slotSt n).tgt →
      s.slowLau v = false →
      0 ≤ (s.lauSt v).omega →
      predict8 (s.tickAhead v (s.slotSt n).tgt) (s.lauSt v).omega (s.lauSt v).alpha = some p →
      Effect (.anglePredict) s ([ITIN_SLOT_STAT n, ITIN_SLOT_DUE n]) ([]) (fun u => u.due8 n = s.predictAt p ∧ u.fld (ITIN_SLOT_STAT_STATE n) = (if p.1 < 8000 * p.2 then 3 else 2) ∧ u.itin.armed = s.itin.armed)) ∧
  (∀ (n v : Nat) (s : State),
      s.domOn 7 = true →
      s.asleep = false →
      s.isHeld .itin = false →
      s.cyc0.toNat % 32 = 0 →
      n < 512 →
      s.itin.armed = [n] →
      s.fld (ITIN_SLOT_CTRL_TRIG n) = 1 →
      s.fld (ITIN_SLOT_STAT_STATE n) = 2 →
      s.fld (ITIN_SLOT_CTRL_DIR n) = 0 →
      s.fld (ITIN_SLOT_CTRL_SRC n) = v →
      s.lauOn v = true →
      s.flag (LAU_STAT_SRCLOST v) = false →
      0 < s.tickAhead v (s.slotSt n).tgt →
      ((s.slowLau v = true ∨ (s.lauSt v).omega < 0)) →
      Effect (.anglePredict) s ([ITIN_SLOT_STAT n]) ([]) (fun u => u.fld (ITIN_SLOT_STAT_STATE n) = 4 ∧ u.itin.armed = s.itin.armed)) ∧
  (∀ (n t k : Nat) (s : State),
      s.domOn 7 = true →
      s.asleep = false →
      s.isHeld .itin = false →
      n < 512 →
      s.itin.dueQ = [(t, n)] →
      s.fld (ITIN_SLOT_STAT_STATE n) = 1 →
      (s.slotSt n).late = false →
      s.fld (ITIN_SLOT_CTRL_ACT n) = 0 →
      (s.slotSt n).handed = true →
      s.flag (ITIN_SLOT_CTRL_PER n) = true →
      s.fld (ITIN_SLOT_CTRL_TRIG n) = 0 →
      k = (if dist8 (s.due8 n + s.slotPer n) (s.slotNow8 n) < 0 then stepsAhead (dist8 (s.due8 n + s.slotPer n) (s.slotNow8 n)) (s.slotPer n) else 0) →
      Effect (.itinIssue) s ([ITIN_SLOT_STAT n, ITIN_SLOT_DUE n, ITIN_STAT, ITIN_MISS (n / 32)]) ([]) (fun u => u.due8 n = (s.due8 n + s.slotPer n + k * s.slotPer n) % 2 ^ 35 ∧
  u.fld (ITIN_SLOT_STAT_STATE n) = 1 ∧ u.flag (ITIN_SLOT_CTRL_ARM n) = s.flag (ITIN_SLOT_CTRL_ARM n) ∧ u.fld (ITIN_SLOT_STAT_MISS n) = min 65535 (s.fld (ITIN_SLOT_STAT_MISS n) + k) ∧
  u.itin.dueQ = [])) ∧
  (∀ (n t k : Nat) (s : State),
      s.domOn 7 = true →
      s.asleep = false →
      s.isHeld .itin = false →
      n < 512 →
      s.itin.dueQ = [(t, n)] →
      s.fld (ITIN_SLOT_STAT_STATE n) = 1 →
      (s.slotSt n).late = false →
      s.fld (ITIN_SLOT_CTRL_ACT n) = 4 →
      s.flag (ITIN_SLOT_CTRL_PER n) = false →
      k = s.regN (ITIN_SLOT_ARG n) % 16 →
      Effect (.itinIssue) s ([ITIN_SLOT_CTRL n, ITIN_SLOT_STAT n, ITIN_STAT, ITIN_CAP_FLAGS k, ITIN_CAP_NS k, ITIN_CAP_SEC_LO k, ITIN_CAP_SEC_HI k, ITIN_CAP_LAU0_LO k, ITIN_CAP_LAU0_HI k,
  ITIN_CAP_LAU1_LO k, ITIN_CAP_LAU1_HI k]) ([]) (fun u => u.reg (ITIN_CAP_NS k) = s.reg (TIME_DOM_NS 0) ∧ u.reg (ITIN_CAP_SEC_LO k) = s.reg (TIME_DOM_SEC_LO 0) ∧
  u.reg (ITIN_CAP_SEC_HI k) = s.reg (TIME_DOM_SEC_HI 0) ∧ u.reg (ITIN_CAP_LAU0_LO k) = s.reg (LAU_ANG_LO 0) ∧ u.reg (ITIN_CAP_LAU0_HI k) = s.reg (LAU_ANG_HI 0) ∧
  u.reg (ITIN_CAP_LAU1_LO k) = s.reg (LAU_ANG_LO 1) ∧ u.reg (ITIN_CAP_LAU1_HI k) = s.reg (LAU_ANG_HI 1) ∧ u.flag (ITIN_CAP_FLAGS_VALID k) = true ∧
  u.flag (ITIN_CAP_FLAGS_OVWR k) = (s.flag (ITIN_CAP_FLAGS_OVWR k) || s.flag (ITIN_CAP_FLAGS_VALID k)) ∧ u.fld (ITIN_CAP_FLAGS_SLOT k) = n ∧ u.flag (ITIN_SLOT_CTRL_ARM n) = false ∧ u.fld (ITIN_SLOT_STAT_STATE n) = 0 ∧ u.itin.dueQ = [] ∧ u.fld ITIN_STAT_MAXLAG = max (s.fld ITIN_STAT_MAXLAG) (min 255 (s.time.now - t)))) ∧
  (∀ (n t : Nat) (x : Item) (s : State),
      s.domOn 7 = true →
      s.asleep = false →
      s.isHeld .itin = false →
      n < 512 →
      s.itin.dueQ = [(t, n)] →
      s.fld (ITIN_SLOT_STAT_STATE n) = 1 →
      (s.slotSt n).late = false →
      s.fld (ITIN_SLOT_CTRL_ACT n) = 2 →
      s.flag (ITIN_SLOT_CTRL_PER n) = false →
      s.itin.postQ = [] →
      x = s.slotItem n →
      s.srcToken x.cluster 1 = false →
      s.itemRoom x = true →
      Effect (.itinIssue) s ([ITIN_SLOT_CTRL n, ITIN_SLOT_STAT n, ITIN_STAT, DISP_CAP (s.clusterOf x.cluster) x.level, DISP_STAT]) ([]) (fun u => u.level (s.clusterOf x.cluster) x.level = s.level (s.clusterOf x.cluster) x.level ++ [{ x with stamp := s.cyc0.toNat }] ∧ u.flag (ITIN_SLOT_CTRL_ARM n) = false ∧ u.fld (ITIN_SLOT_STAT_STATE n) = 0 ∧ u.itin.dueQ = [])) ∧
  (∀ (n t : Nat) (s : State),
      s.domOn 7 = true →
      s.asleep = false →
      s.isHeld .itin = false →
      n < 512 →
      s.itin.dueQ = [(t, n)] →
      s.fld (ITIN_SLOT_STAT_STATE n) = 1 →
      (s.slotSt n).late = false →
      s.fld (ITIN_SLOT_CTRL_ACT n) = 3 →
      Yields (.itinIssue) s ((((s.groupTrigger (s.regN (ITIN_SLOT_ARG n) % 64)).lagShow t).dueDrop n).slotRearm n)) ∧
  (∀ (n t : Nat) (s : State),
      s.domOn 7 = true →
      s.asleep = false →
      s.isHeld .itin = false →
      n < 512 →
      s.itin.dueQ = [(t, n)] →
      s.fld (ITIN_SLOT_STAT_STATE n) = 1 →
      (s.slotSt n).late = false →
      s.fld (ITIN_SLOT_CTRL_ACT n) = 7 →
      s.regN (ITIN_SLOT_ARG n) = 1 →
      Yields (.itinIssue) s ((((s.gateStart 0).lagShow t).dueDrop n).slotRearm n)) ∧
  (∀ (s : State),
      s.domOn 7 = true →
      s.itin.postQ = [] →
      (∀ e ∈ s.itin.dueQ, s.fld (ITIN_SLOT_STAT_STATE e.2) ≠ 6) →
      Yields (.itinPostQueueDrain) s (s)) ∧
  (∀ (x : Item) (n : Nat) (s : State),
      s.domOn 7 = true →
      s.itin.postQ = [(n, x)] →
      s.itemRoom x = true →
      (s.itin.dueQ = [] ∧ s.asleep = false ∧ s.isHeld .itin = false) →
      Effect (.itinPostQueueDrain) s ([ITIN_STAT, DISP_CAP (s.clusterOf x.cluster) x.level, DISP_STAT]) ([]) (fun u => u.itin.postQ = [] ∧
  u.level (s.clusterOf x.cluster) x.level = s.level (s.clusterOf x.cluster) x.level ++ [{ x with stamp := s.cyc0.toNat }])) ∧
  (∀ (m : Master) (n : Fin 512) (s : State),
      s.grantsF m (ITIN_SLOT_STAT_MISSCLR n) 1 = true →
      Effect (.missclr m n) s ([ITIN_SLOT_STAT n]) ([]) (fun u => u.fld (ITIN_SLOT_STAT_MISS n) = 0 ∧ u.fld (ITIN_SLOT_STAT_STATE n) = s.fld (ITIN_SLOT_STAT_STATE n))) ∧
  (∀ (n : Fin 512) (s : State),
      s.domOn 7 = true →
      s.asleep = false →
      s.isHeld .itin = false →
      s.isHeld .edge = false →
      s.fld (ITIN_SLOT_CTRL_ACT n) = 0 →
      s.fld (ITIN_SLOT_STAT_STATE n) = 1 →
      s.slotSt n = SlotSt.reset →
      s.fld (ITIN_SLOT_CTRL_TRIG n) = 0 →
      s.fld (ITIN_SLOT_CTRL_SRC n) = 0 →
      bits (s.reg (ITIN_SLOT_ARG n)) 5 4 = 0 →
      s.flag (EDGE_EP_CTRL_EN (bits (s.reg (ITIN_SLOT_ARG n)) 3 0)) = true →
      s.edgeSt (bits (s.reg (ITIN_SLOT_ARG n)) 3 0) = EdgeSt.reset →
      s.due8 n = (s.now8 + 128) % 2 ^ 35 →
      Effect (.edgeHandover n) s ([EDGE_EP_STAT (bits (s.reg (ITIN_SLOT_ARG n)) 3 0)]) ([]) (fun u => (u.slotSt n).handed = true ∧ u.fld (EDGE_EP_STAT_PEND (bits (s.reg (ITIN_SLOT_ARG n)) 3 0)) = 1 ∧
  (u.edgeSt (bits (s.reg (ITIN_SLOT_ARG n)) 3 0)).pend = [(s.due8 n, 0)])) ∧
  (∀ (n : Fin 16) (t : Nat) (s : State),
      s.runs 7 .edge = true →
      (s.edgeSt n).pend = [(t, 0)] →
      dist8 t (s.now8 + 7) ≤ 0 →
      t < 2 ^ 35 →
      s.flag (EDGE_EP_STAT_LEVEL n) = false →
      Effect (.edgePlace n) s ([EDGE_EP_STAT n, EDGE_EP_LAST n]) ([]) (fun u => u.flag (EDGE_EP_STAT_LEVEL n) = true ∧ u.regN (EDGE_EP_LAST n) = t / 8 ∧ u.fld (EDGE_EP_STAT_LASTFRAC n) = t % 8 ∧
  u.fld (EDGE_EP_STAT_PEND n) = 0)) ∧
  (∀ (m : Master) (n : Fin 512) (v : Word) (s : State), Yields (.itinSlotArm m n v) s (s.wordWrite m (ITIN_SLOT_CTRL n) (v ||| 0x80000000#32))) ∧
  (∀ (m : Master) (n : Fin 512) (v : Word) (s : State), Yields (.itinSlotDisarm m n v) s (s.wordWrite m (ITIN_SLOT_CTRL n) (v &&& 0x7FFFFFFF#32))) ∧
  (∀ (n : Fin 512) (s : State), Yields (.itinSlotDue n) s (s.inDom 7 (fun s => s.slotDue n))) ∧
  (∀ (s : State), Yields (.anglePredict) s (s.inDom 7 (fun s => s.anglePredict))) ∧
  (∀ (s : State), Yields (.itinIssue) s (s.inDom 7 (fun s => s.itinIssue))) ∧
  (∀ (s : State), Yields (.itinPostQueueDrain) s (s.inDom 7 (fun s => s.itinDrain))) ∧
  (∀ (m : Master) (n : Fin 512) (s : State), Yields (.missclr m n) s (s.fieldWrite m (ITIN_SLOT_STAT_MISSCLR n) 1)) ∧
  (∀ (n : Fin 512) (s : State), Yields (.edgeHandover n) s (s.inDom 7 (fun s => s.slotHand n))) ∧
  (∀ (n : Fin 16) (s : State), Yields (.edgePlace n) s (s.inBlk 7 .edge (fun s => s.edgePlace n)))

/-- A MODE write on a port whose link is down stores the word and marks an invalid selection with BADMODE; ANRESTART takes the link of a port that autonegotiates down, raising the port's link source where it was up, and does nothing at another; CNTCLR zeroes the 64 counters; RXEN takes the port's ring of 64 or 128 cells from a pool that has them; a link that goes down ends holds, sets LINKCHG and raises the port's source; a fixed-mode link comes up at its speed; AUTOSPEED lowers an idle 1000 Mb/s port, restores a filling one and gives up with FAIL after 5 s; low-power idle is entered and counted on both sides; verification sends up to three verify frames, fails after the third, succeeds when answered. A MODE write is stated for a port whose link is down. The model's choice: a MODE write clears HDXREF (log 120). Every command named here completes, from every state and with all operands: the last clauses give the operation that is its own effect. -/
def Obligations.MacLinkCommands : Prop :=
  (∀ (m : Master) (p : Fin 12) (v : Word) (s : State),
      s.grants m (MAC_MODE p) v = true →
      s.flag (MAC_STAT_LINK p) = false →
      Effect (.macModeWrite m p v) s ([MAC_MODE p, MAC_STAT p, SYS_CLKSTAT]) ([]) (fun u => u.reg SYS_CLKSTAT ||| 0x30#32 = s.reg SYS_CLKSTAT ||| 0x30#32 ∧ u.reg (MAC_MODE p) = v &&& 0x737#32 ∧ u.flag (MAC_STAT_BADMODE p) = !selOk p (bits v 2 0) ∧
  u.flag (MAC_STAT_HDXREF p) = false ∧ u.flag (MAC_STAT_ASPDLOW p) = false ∧ u.flag (MAC_STAT_LINK p) = false)) ∧
  (∀ (m : Master) (p : Fin 12) (s : State),
      s.grantsF m (MAC_CTRL_ANRESTART p) 1 = true →
      s.noIso = true →
      (s.autonegs p = true ∧ s.wireIdle p = true) →
      s.flag (SWX_PORTCFG_FLUSHDOWN p) = false →
      Leaves (.anrestart m p) s (fun u => u.flag (MAC_STAT_LINK p) = false ∧ u.flag (MAC_CTRL_TXEN p) = s.flag (MAC_CTRL_TXEN p) ∧
  u.raises = s.raises ++ (if s.flag (MAC_STAT_LINK p) then [(32 + 4 * p.val, 0, false)] else []) ∧ u.mem = s.mem ∧ u.pending = s.pending)) ∧
  (∀ (m : Master) (p : Fin 12) (s : State),
      s.grantsF m (MAC_CTRL_ANRESTART p) 1 = true →
      s.noIso = true →
      s.autonegs p = false →
      Effect (.anrestart m p) s ([]) ([]) (fun u => u.flag (MAC_STAT_LINK p) = s.flag (MAC_STAT_LINK p))) ∧
  (∀ (m : Master) (p : Fin 12) (s : State),
      s.grantsF m (MAC_CTRL_CNTCLR p) 1 = true →
      s.noIso = true →
      Effect (.macCntclr m p) s ((List.range 64).map (macCnt p)) ([]) (fun u => ∀ i : Fin 64, u.reg (macCnt p i) = 0)) ∧
  (∀ (m : Master) (p : Fin 12) (s : State),
      s.grantsF m (MAC_CTRL_RXEN p) 1 = true →
      s.noIso = true →
      s.flag (MAC_CTRL_RXEN p) = false →
      s.flag (MAC_FCCFG_GEN p) = false →
      (if p.val ≤ 9 then 64 else 128) + s.protFree ≤ s.fld BUF_FREE_CELLS →
      Effect (.macRxen m p true) s ([MAC_CTRL p, BUF_FREE, BUF_LOW]) ([]) (fun u => u.flag (MAC_CTRL_RXEN p) = true ∧ u.fld BUF_FREE_CELLS = s.fld BUF_FREE_CELLS - (if p.val ≤ 9 then 64 else 128) ∧
  (u.macSt p).ring = (if p.val ≤ 9 then 64 else 128) ∧ u.ringFree p = s.ringFree p + (if p.val ≤ 9 then 64 else 128))) ∧
  (∀ (p : Fin 12) (s : State),
      s.domOn 7 = true →
      s.flag (MAC_STAT_LINK p) = false →
      Yields (.linkDown p) s (s)) ∧
  (∀ (p : Fin 12) (s : State),
      s.domOn 7 = true →
      s.flag (MAC_STAT_LINK p) = true →
      s.wireIdle p = true →
      s.flag (SWX_PORTCFG_FLUSHDOWN p) = false →
      s.fw.running = false →
      Effect (.linkDown p) s (macCntRegs p 60 ++ macCntRegs p 61 ++ macCntRegs p 62 ++ [MAC_STAT p, MAC_FCSTAT p, MAC_PREEMPT_STAT p]) ([(32 + 4 * p.val, 0, false)]) (fun u => u.flag (MAC_STAT_LINK p) = false ∧ u.flag (MAC_IRQ_LINKCHG p) = true ∧ (u.macSt p).holds = [] ∧ u.flag (MAC_STAT_RXPAUSED p) = false)) ∧
  (∀ (p : Fin 12) (lp : Word) (v : Fin 8) (ms : Bool) (s : State),
      s.runs 7 (.mac p) = true →
      s.fld (MAC_MODE_SEL p) = 2 →
      s.flag (MAC_STAT_BADMODE p) = false →
      s.flag (MAC_STAT_LINK p) = false →
      (∀ c : Fin 8, (s.qSt p c).q = []) →
      s.fw.running = false →
      Effect (.linkUp p lp v ms) s ([MAC_STAT p, MAC_IRQ p, MAC_PREEMPT_STAT p] ++ (List.range 8).map (SWX_QSTAT p)) ([]) (fun u => u.flag (MAC_STAT_LINK p) = true ∧ u.fld (MAC_STAT_SPEED p) = 1 ∧ u.flag (MAC_IRQ_LINKCHG p) = true)) ∧
  (∀ (p : Fin 12) (s : State),
      s.runs 7 (.mac p) = true →
      s.aspdOn p = true →
      s.flag (MAC_STAT_LINK p) = true →
      s.fld (MAC_STAT_SPEED p) = 2 →
      s.dwellOver p = true →
      s.occupancy p < s.fld (MAC_ASPD_THR_LOTHR p) →
      s.macUsed p < s.fld (MAC_ASPD_THR_LOTHR p) →
      s.wireIdle p = true →
      s.flag (SWX_PORTCFG_FLUSHDOWN p) = false →
      Leaves (.autospeedIdle p) s (fun u => u.flag (MAC_STAT_ASPDLOW p) = true ∧ u.flag (MAC_STAT_LINK p) = false ∧ u.flag (MAC_IRQ_ASPD p) = true ∧
  u.raises = s.raises ++ [(32 + 4 * p.val, 0, false)] ∧ u.regN (macCnt p 63) = (s.regN (macCnt p 63) + 1) % 2 ^ 32 ∧ u.mem = s.mem)) ∧
  (∀ (p : Fin 12) (s : State),
      s.runs 7 (.mac p) = true →
      s.flag (MAC_STAT_ASPDLOW p) = true →
      s.dwellOver p = true →
      s.fld (MAC_ASPD_THR_HITHR p) < s.occupancy p →
      s.wireIdle p = true →
      s.flag (SWX_PORTCFG_FLUSHDOWN p) = false →
      Leaves (.autospeedRestore p) s (fun u => u.flag (MAC_STAT_ASPDLOW p) = false ∧ u.flag (MAC_STAT_LINK p) = false ∧ u.flag (MAC_IRQ_ASPD p) = true ∧ u.mem = s.mem ∧ u.pending = s.pending)) ∧
  (∀ (p : Fin 12) (s : State),
      s.runs 7 (.mac p) = true →
      s.flag (MAC_STAT_ASPDLOW p) = true →
      s.flag (MAC_STAT_LINK p) = false →
      Effect (.autospeedFail p) s (macCntRegs p 63 ++ [MAC_STAT p, MAC_ASPD p]) ([]) (fun u => u.flag (MAC_STAT_ASPDLOW p) = false ∧ u.flag (MAC_ASPD_EN p) = false ∧ u.flag (MAC_ASPD_FAIL p) = true ∧
  u.flag (MAC_IRQ_ASPD p) = true)) ∧
  (∀ (p : Fin 12) (s : State),
      s.runs 7 (.mac p) = true →
      s.eeeOn p = true →
      s.flag (MAC_STAT_LINK p) = true →
      s.flag (MAC_STAT_LPITX p) = false →
      (s.outSt p).tx = none →
      (s.fld (MAC_STAT_SPEED p) = 1 ∧ s.flag (MAC_EEE_ADV100 p) = true ∧ (s.fld (MAC_ANLP_EEE p)).testBit 0 = true) →
      Effect (.lpiEntry p) s (macCntRegs p 58 ++ [MAC_STAT p]) ([]) (fun u => u.flag (MAC_STAT_LPITX p) = true ∧ (u.macSt p).lpiTx = s.time.now ∧ u.regN (macCnt p 58) = (s.regN (macCnt p 58) + 1) % 2 ^ 32)) ∧
  (∀ (p : Fin 12) (s : State),
      s.runs 7 (.mac p) = true →
      s.eeeOn p = true →
      s.flag (MAC_STAT_LINK p) = true →
      s.flag (MAC_STAT_LPIRX p) = false →
      Effect (.receiveLpi p true) s (macCntRegs p 59 ++ [MAC_STAT p]) ([]) (fun u => u.flag (MAC_STAT_LPIRX p) = true ∧ (u.macSt p).lpiRx = s.time.now)) ∧
  (∀ (p : Fin 12) (s : State),
      s.runs 7 (.mac p) = true →
      s.flag (MAC_STAT_LINK p) = true →
      ((s.fld (MAC_PREEMPT_STAT_VSTATE p) = 1 ∨ s.fld (MAC_PREEMPT_STAT_VSTATE p) = 2)) →
      Effect (.preemptVerify p) s (macCntRegs p 60 ++ [MAC_PREEMPT_STAT p, MAC_STAT p]) ([]) (fun u => if (s.macSt p).tries < 3 then u.flag (MAC_STAT_LPITX p) = false ∧ u.fld (MAC_PREEMPT_STAT_VSTATE p) = 2 ∧ u.out = .mac p 3 0 :: s.out ∧ (u.macSt p).tries = (s.macSt p).tries + 1
  else u.fld (MAC_PREEMPT_STAT_VSTATE p) = 4 ∧ u.flag (MAC_IRQ_PEVFAIL p) = true ∧ u.out = s.out)) ∧
  (∀ (p : Fin 12) (s : State),
      s.runs 7 (.mac p) = true →
      s.fld (MAC_PREEMPT_STAT_VSTATE p) = 2 →
      Effect (.preemptVerifyResponse p) s ([MAC_PREEMPT_STAT p, MAC_STAT p]) ([]) (fun u => u.fld (MAC_PREEMPT_STAT_VSTATE p) = 3 ∧ u.flag (MAC_PREEMPT_STAT_ACTIVE p) = true ∧ u.flag (MAC_STAT_PEACT p) = true)) ∧
  (∀ (m : Master) (p : Fin 12) (v : Word) (s : State), Yields (.macModeWrite m p v) s (s.wordWrite m (MAC_MODE p) v)) ∧
  (∀ (m : Master) (p : Fin 12) (s : State), Yields (.anrestart m p) s (s.fieldWrite m (MAC_CTRL_ANRESTART p) 1)) ∧
  (∀ (m : Master) (p : Fin 12) (s : State), Yields (.macCntclr m p) s (s.fieldWrite m (MAC_CTRL_CNTCLR p) 1)) ∧
  (∀ (m : Master) (p : Fin 12) (on : Bool) (s : State), Yields (.macRxen m p on) s (s.fieldWrite m (MAC_CTRL_RXEN p) (bit on))) ∧
  (∀ (p : Fin 12) (s : State), Yields (.linkDown p) s (s.inDom 7 (fun s => s.linkLost p))) ∧
  (∀ (p : Fin 12) (lp : Word) (v : Fin 8) (ms : Bool) (s : State), Yields (.linkUp p lp v ms) s (s.inBlk 7 (.mac p) (fun s => s.linkCame p lp v ms))) ∧
  (∀ (p : Fin 12) (s : State), Yields (.autospeedIdle p) s (s.inBlk 7 (.mac p) (fun s => s.aspdIdle p))) ∧
  (∀ (p : Fin 12) (s : State), Yields (.autospeedRestore p) s (s.inBlk 7 (.mac p) (fun s => s.aspdRestore p))) ∧
  (∀ (p : Fin 12) (s : State), Yields (.autospeedFail p) s (s.inBlk 7 (.mac p) (fun s => s.aspdFail p))) ∧
  (∀ (p : Fin 12) (s : State), Yields (.lpiEntry p) s (s.inBlk 7 (.mac p) (fun s => s.lpiEnter p))) ∧
  (∀ (p : Fin 12) (s : State), Yields (.preemptVerify p) s (s.inBlk 7 (.mac p) (fun s => s.verifyTick p))) ∧
  (∀ (p : Fin 12) (s : State), Yields (.preemptVerifyResponse p) s (s.inBlk 7 (.mac p) (fun s => s.verifyOk p))) ∧
  (∀ (p : Fin 12) (on : Bool) (s : State), Yields (.receiveLpi p on) s (s.inBlk 7 (.mac p) (fun s => s.lpiRecv p on)))

/-- An error between frames counts; the last piece of a received frame counts in the first check it fails or is counted as received and goes on to the outputs, or, a MAC control frame, acts; a PAUSE or PFC frame sets or clears the hold of the transmitter or of each class its vector names, with its quanta; a hold that runs out clears its flag; flow control is repeated while staging stays at XON, below XOFF, and is sent by FCTX, as a PAUSE or in PFC mode a PFC frame, at once from an idle output, waking its line, or after the frame in flight; a read of TSF_HDR takes the oldest timestamp into the reader's snapshot; an idle output starts the head copy of the highest class that may send and has one, and starts none where no class may; a launch that is reached makes its head copy due; a transmission that ends leaves the output with its frame sent with a good FCS, or with a bad one where it was spoilt. The model's choices: FCTX outside PAUSE and PFC mode sends a PAUSE (log 121). Every command named here completes, from every state and with all operands: the last clauses give the operation that is its own effect. -/
def Obligations.FrameCommands : Prop :=
  (∀ (p : Fin 12) (e8 : Fin 8) (frag : Bool) (b : List Byte) (s : State),
      s.runs 7 (.mac p) = true →
      s.flag (MAC_CTRL_RXEN p) = true →
      s.flag (MAC_STAT_LINK p) = true →
      Effect (.frameReceive p e8 b ⟨frag, .idle⟩) s (macCntRegs p 20) ([]) (fun u => u.regN (macCnt p 20) = (s.regN (macCnt p 20) + 1) % 2 ^ 32)) ∧
  (∀ (p : Fin 12) (e8 : Fin 8) (frag : Bool) (b : List Byte) (s : State),
      s.runs 7 (.mac p) = true →
      s.flag (MAC_CTRL_RXEN p) = true →
      s.flag (MAC_STAT_LINK p) = true →
      s.rxOf (rxKey p frag) = none →
      b.length < 64 →
      fcsGood b = true →
      Leaves (.frameReceive p e8 b ⟨frag, .endOk 0⟩) s (fun u => u.regN (macCnt p 16) = (s.regN (macCnt p 16) + 1) % 2 ^ 32 ∧ u.rxOf (rxKey p frag) = none ∧ u.swx.qs = s.swx.qs ∧ u.raises = s.raises ∧ u.mem = s.mem)) ∧
  (∀ (p : Fin 12) (e8 : Fin 8) (frag : Bool) (b : List Byte) (n : Nat) (g : Ingr) (t : State) (s : State),
      s.runs 7 (.mac p) = true →
      s.flag (MAC_CTRL_RXEN p) = true →
      s.flag (MAC_STAT_LINK p) = true →
      t = s.macTake p e8 frag b →
      (t.rxOf (rxKey p frag) = some g ∧ g.port = p.val) →
      t.macCheck p g false false = none →
      Yields (.frameReceive p e8 b ⟨frag, .endOk n⟩) s ((fun (w : State) => if g.ctl then (w.ingrGone (rxKey p frag)).macControl p g.data else w.ingrDone (rxKey p frag))
  ((fun (w : State) => w.macCountFrame p 0 g.data (w.macPtp p g.data).isSome) (if 0 < n then (t.macCount p 53 n).macCount p 54 1 else t)))) ∧
  (∀ (p : Fin 12) (e8 : Fin 8) (frag : Bool) (b : List Byte) (g : Ingr) (c : Nat) (t : State) (s : State),
      s.runs 7 (.mac p) = true →
      s.flag (MAC_CTRL_RXEN p) = true →
      s.flag (MAC_STAT_LINK p) = true →
      t = s.macTake p e8 frag b →
      (t.rxOf (rxKey p frag) = some g ∧ g.port = p.val) →
      c = (if g.data.length < 64 then (if fcsGood g.data then 16 else 17) else if g.filt then 22
  else if t.fld (MAC_MAXLEN_MAXLEN p) < g.data.length then (if fcsGood g.data then 18 else 19) else if fcsGood g.data then 21 else 15) →
      (c ≠ 21 ∨ g.nobuf = true) →
      Leaves (.frameReceive p e8 b ⟨frag, .endOk 0⟩) s (fun u => u.regN (macCnt p c) = (t.regN (macCnt p c) + 1) % 2 ^ 32 ∧ u.rxOf (rxKey p frag) = none ∧ u.pending = s.pending)) ∧
  (∀ (p : Fin 12) (q : BitVec 16) (s : State),
      s.runs 7 (.mac p) = true →
      s.flag (MAC_CTRL_RXEN p) = true →
      s.flag (MAC_STAT_LINK p) = true →
      s.fld (MAC_FCCFG_MODE p) = 1 →
      s.flag (MAC_FCCFG_RXEN p) = true →
      Effect (.pauseReceive p q) s (ctlCntRegs p 0 ++ macCntRegs p 11 ++ macCntRegs p 50 ++ [MAC_STAT p, MAC_FCSTAT p]) ([]) (fun u => u.flag (MAC_FCSTAT_PAUSED p) = decide (q ≠ 0) ∧ u.flag (MAC_STAT_RXPAUSED p) = decide (q ≠ 0) ∧
  storeGet (fun _ => 0) (u.macSt p).holds 8 = q.toNat)) ∧
  (∀ (p : Fin 12) (vec : BitVec 16) (qs : List (BitVec 16)) (s : State),
      s.runs 7 (.mac p) = true →
      s.flag (MAC_CTRL_RXEN p) = true →
      s.flag (MAC_STAT_LINK p) = true →
      s.fld (MAC_FCCFG_MODE p) = 2 →
      s.flag (MAC_FCCFG_RXEN p) = true →
      qs.length = 8 →
      Effect (.pfcReceive p vec qs) s (ctlCntRegs p 0 ++ macCntRegs p 12 ++ macCntRegs p 50 ++ [MAC_FCSTAT p]) ([]) (fun u => ∀ c : Fin 8, u.bitAt (MAC_FCSTAT p) c =
  if vec.getLsbD c then decide (qs.getD c 0 ≠ 0) else s.bitAt (MAC_FCSTAT p) c)) ∧
  (∀ (p : Fin 12) (k : Fin 9) (s : State),
      s.runs 7 (.mac p) = true →
      Effect (.pauseHoldExpiry p k) s ([MAC_STAT p, MAC_FCSTAT p]) ([]) (fun u => storeGet (fun _ => 0) (u.macSt p).holds k = 0 ∧ u.bitAt (MAC_FCSTAT p) k = false ∧ (k = 8 → u.flag (MAC_STAT_RXPAUSED p) = false))) ∧
  (∀ (p : Fin 12) (s : State),
      s.runs 7 (.mac p) = true →
      s.flag (MAC_FCCFG_GEN p) = true →
      s.flag (MAC_FCSTAT_XOFFSENT p) = true →
      s.fld (MAC_FCTHR_XON p) < s.fld (MAC_FCTHR_XOFF p) →
      s.fld (MAC_FCTHR_XON p) ≤ s.macUsed p →
      s.sendsFc p = true →
      Effect (.flowControlRepeat p) s (ctlCntRegs p 32 ++ macCntRegs p 43 ++ macCntRegs p 44 ++ macCntRegs p 60 ++ [MAC_STAT p]) ([]) (fun u => u.flag (MAC_STAT_LPITX p) = false ∧ u.out = (if s.fld (MAC_FCCFG_MODE p) = 2 then .mac p 2 (s.fld (MAC_FCCFG_TXQUANTA p) + 65536 * s.fld (MAC_FCCFG_PFCGEN p))
    else .mac p 1 (s.fld (MAC_FCCFG_TXQUANTA p))) :: s.out)) ∧
  (∀ (m : Master) (p : Fin 12) (v : Word) (s : State),
      s.grants m (MAC_FCTX p) v = true →
      s.sendsFc p = true →
      Effect (.fctx m p v) s (ctlCntRegs p 32 ++ macCntRegs p 43 ++ macCntRegs p 44 ++ macCntRegs p 60 ++ [MAC_STAT p]) ([]) (fun u => u.flag (MAC_STAT_LPITX p) = false ∧ u.out = (if s.fld (MAC_FCCFG_MODE p) = 2 then .mac p 2 (bits v 31 16 + 65536 * bits v 7 0) else .mac p 1 (bits v 31 16)) :: s.out)) ∧
  (∀ (m : Master) (p : Fin 12) (v : Word) (s : State),
      s.grants m (MAC_FCTX p) v = true →
      (s.flag (MAC_STAT_LINK p) = true ∧ s.flag (MAC_CTRL_TXEN p) = true ∧ (s.outSt p).tx.isSome = true) →
      Effect (.fctx m p v) s ([]) ([]) (fun u => u.out = s.out ∧ (u.macSt p).fcq = (s.macSt p).fcq ++ [(bits v 7 0, bits v 31 16)])) ∧
  (∀ (m : Master) (p : Fin 12) (h sec ns : Nat) (t : List (Nat × Nat × Nat)) (s : State),
      s.reads m (MAC_TSF_HDR p) = true →
      (s.macSt p).tsf = (h, sec, ns) :: t →
      h < 2 ^ 26 →
      t.length < 16 →
      Effect (.tsfHdrRead m p) s ([MAC_IRQ p]) ([]) (fun u => u.rdata = BitVec.ofNat 64 (2 ^ 31 + t.length * 2 ^ 26 + h) ∧ u.snap m (MAC_TSF_SEC p) = w32 sec ∧ u.snap m (MAC_TSF_NS p) = w32 ns ∧
  (u.macSt p).tsf = t ∧ u.flag (MAC_IRQ_TSAVAIL p) = !t.isEmpty)) ∧
  (∀ (p : Fin 12) (c : Fin 8) (x : Copy) (l : List Copy) (s : State),
      s.domOn 7 = true →
      s.outReady p = true →
      (s.outSt p).tx = none →
      (s.outSt p).pre = none →
      (s.qSt p c).q = x :: l →
      (∀ d : Fin 8, c < d → (s.qSt p d).q = [] ∨ s.classOpen p d = false) →
      s.fld (SWX_PORTCFG_CBSEN p) = 0 →
      (s.gclOn p = false ∧ s.flag (SWX_GCLSTAT_HOLD p) = false) →
      (s.fld (MAC_FCSTAT_CLASS p)).testBit c = false →
      s.copyAged p x = false →
      (x.ltMode = 0 ∧ x.held = false) →
      s.flag (MAC_STAT_LPITX p) = false →
      Effect (.transmissionSelect ⟨p.val, by omega⟩) s ([SWX_QSTAT p c]) ([]) (fun u => (u.outSt p).tx = some ⟨x, s.time.now, false, 0, [s.domAt8 0 0, s.domAt8 1 0, s.domAt8 2 0, s.domAt8 3 0]⟩ ∧
  (u.qSt p c).q = l ∧ u.fld (SWX_QSTAT_FRAMES p c) = min 16383 l.length)) ∧
  (∀ (p : Fin 12) (s : State),
      s.domOn 7 = true →
      s.outUp p = true →
      (s.outSt p).tx = none →
      (s.outSt p).pre = none →
      s.fld (SWX_PORTCFG_CBSEN p) = 0 →
      (∀ d : Fin 8, (s.qSt p d).q = [] ∨ s.classOpen p d = false) →
      Effect (.transmissionSelect ⟨p.val, by omega⟩) s ([]) ([]) (fun u => (u.outSt p).tx = none)) ∧
  (∀ (p : Fin 32) (c : Fin 8) (x : Copy) (t : List Copy) (s : State),
      s.domOn 7 = true →
      (s.qSt p c).q = x :: t →
      (((x.ltMode = 1 ∨ x.ltMode = 2) ∧ 0 ≤ s.launchPast p x)) →
      Effect (.launchTimeDue p c) s ([SWX_QSTAT p c]) ([]) (fun u => (u.qSt p c).q = { x with due := true } :: t)) ∧
  (∀ (p : Fin 12) (e8 : Fin 8) (t : Tx) (f : Machine.Frm) (s : State),
      s.domOn 7 = true →
      (s.outSt p).tx = some t →
      s.frm t.copy.frm = some f →
      f.ended = true →
      s.macPtp p (s.shape p t.copy f.data) = none →
      (s.macSt p).fcq = [] →
      Leaves (.transmissionEnd p e8) s (fun u => (u.outSt p).tx = none ∧ u.out = .frame p (if t.stomp || f.failed then withBadFcs (s.shape p t.copy f.data) else withFcs (s.shape p t.copy f.data)) :: s.out ∧
  u.mem = s.mem ∧ u.raises = s.raises ∧ u.pending = s.pending)) ∧
  (∀ (p : Fin 12) (e8 : Fin 8) (b : List Byte) (fin : RxEnd) (s : State), Yields (.frameReceive p e8 b fin) s (s.inBlk 7 (.mac p) (fun s => s.macRx p e8 fin.frag b fin.kind))) ∧
  (∀ (p : Fin 12) (q : BitVec 16) (s : State), Yields (.pauseReceive p q) s (s.inBlk 7 (.mac p) (fun s => s.linkHeld p (fun s => s.ctlFrame p (fun s => s.macPause p q.toNat))))) ∧
  (∀ (p : Fin 12) (vec : BitVec 16) (qs : List (BitVec 16)) (s : State), Yields (.pfcReceive p vec qs) s (s.inBlk 7 (.mac p) (fun s => s.linkHeld p (fun s => s.ctlFrame p (fun s => s.macPfc p vec.toNat (qs.map (fun q => q.toNat))))))) ∧
  (∀ (p : Fin 12) (k : Fin 9) (s : State), Yields (.pauseHoldExpiry p k) s (s.inBlk 7 (.mac p) (fun s => s.macHold p k 0))) ∧
  (∀ (p : Fin 12) (s : State), Yields (.flowControlRepeat p) s (s.inBlk 7 (.mac p) (fun s => s.macRepeat p))) ∧
  (∀ (m : Master) (p : Fin 12) (v : Word) (s : State), Yields (.fctx m p v) s (s.wordWrite m (MAC_FCTX p) v)) ∧
  (∀ (m : Master) (p : Fin 12) (s : State), Yields (.tsfHdrRead m p) s (s.busRead m (MAC_TSF_HDR p) 4)) ∧
  (∀ (p : Fin 32) (s : State), Yields (.transmissionSelect p) s (s.inDom 7 (fun s => s.anySelect p))) ∧
  (∀ (p : Fin 32) (c : Fin 8) (s : State), Yields (.launchTimeDue p c) s (s.inDom 7 (fun s => s.launchDue p c))) ∧
  (∀ (p : Fin 12) (e8 : Fin 8) (s : State), Yields (.transmissionEnd p e8) s (s.inDom 7 (fun s => s.txEnd p e8)))

/-- BUF_SWCELLS takes at most 192 units and gives or takes their cells to or from the pool while receivers are off and queues empty, else it is refused with a note; a waiting refill is made from a pool that has it; the interval of a gate entry that ends brings the next entry's gates; a recovery without frames is reset with CBRESET; learned entries of AGE seconds and more (the model's choice, log 45) leave the forwarding database; CNTCLR zeroes the output's counters; the switch applies only at a schedule count that is a multiple of 1,024: a consistent shadow is emptied, an inconsistent one is reported with its rule and stays. Every command named here completes, from every state and with all operands: the last clauses give the operation that is its own effect. -/
def Obligations.SwitchCommands : Prop :=
  (∀ (m : Master) (v : Word) (s : State),
      s.grants m BUF_SWCELLS v = true →
      ((s.mode = modeBOOT ∨ s.mode = modePREOP)) →
      (∀ p : Fin 12, s.flag (MAC_CTRL_RXEN p) = false) →
      (∀ p : Fin 32, ∀ c : Fin 8, (s.qSt p c).q = []) →
      s.domOn 11 = true →
      s.fld BUF_FREE_CELLS + 1024 * s.fld BUF_SWCELLS_UNITS ≤ 262144 →
      1024 * min (bits v 7 0) 192 ≤ s.fld BUF_FREE_CELLS + 1024 * s.fld BUF_SWCELLS_UNITS →
      Effect (.bufSwcellsWrite m v) s ([BUF_SWCELLS, BUF_FREE, BUF_LOW]) ([]) (fun u => u.fld BUF_SWCELLS_UNITS = min (bits v 7 0) 192 ∧
  u.fld BUF_FREE_CELLS + 1024 * u.fld BUF_SWCELLS_UNITS = s.fld BUF_FREE_CELLS + 1024 * s.fld BUF_SWCELLS_UNITS)) ∧
  (∀ (m : Master) (v : Word) (p : Fin 12) (s : State),
      s.grants m BUF_SWCELLS v = true →
      s.flag (MAC_CTRL_RXEN p) = true →
      Effect (.bufSwcellsWrite m v) s ([]) ([(14, 0, false)]) (fun u => u.regs = s.regs)) ∧
  (∀ (p : Fin 32) (n : Nat) (s : State),
      s.domOn 7 = true →
      12 ≤ p.val →
      s.waiting p = (0, n) →
      (∀ k : Fin 32, k ≠ p → s.waiting k = (0, 0)) →
      0 < n →
      n + s.protFree ≤ s.fld BUF_FREE_CELLS →
      Effect (.stagingRefill) s ([BUF_FREE, BUF_LOW]) ([]) (fun u => u.waiting p = (0, 0) ∧ u.ringFree p = s.ringFree p + n ∧ u.fld BUF_FREE_CELLS = s.fld BUF_FREE_CELLS - n)) ∧
  (∀ (p : Fin 12) (s : State),
      s.domOn 7 = true →
      s.gclOn p = true →
      (s.outSt p).gEnd = false →
      s.fld (SWX_GCLSTAT_ENTRY p) + 1 < min 256 (s.fld (SWX_GCLCFG_LEN p)) →
      s.fld (SWX_GCL_CTL_OP p (s.fld (SWX_GCLSTAT_ENTRY p) + 1)) = 0 →
      Effect (.gateEntryEnd p) s ([SWX_GCLSTAT p]) ([]) (fun u => u.fld (SWX_GCLSTAT_ENTRY p) = s.fld (SWX_GCLSTAT_ENTRY p) + 1 ∧
  u.fld (SWX_GCLSTAT_GATES p) = s.fld (SWX_GCL_CTL_GATES p (s.fld (SWX_GCLSTAT_ENTRY p) + 1)) ∧ (u.outSt p).gAt = s.time.now)) ∧
  (∀ (f : Fin 256) (h : Nat) (s : State),
      s.domOn 7 = true →
      s.flag (SWX_FC_CFG_VALID f) = true →
      s.fld (SWX_FC_CFG_CB f) = 1 →
      (s.fcSt f).hist = some h →
      Effect (.cbRecoveryReset f) s ([SWX_FC_STAT f]) ([]) (fun u => u.flag (SWX_FC_STAT_CBRESET f) = true ∧ (u.fcSt f).hist = none)) ∧
  (∀ (s : State),
      s.domOn 7 = true →
      s.fld SWX_FDBCFG_AGE ≠ 0 →
      Effect (.fdbAgeOut) s ([]) ([]) (fun u => u.swx.fdb = s.swx.fdb.filter (fun e => e.isStatic || decide ((s.regN (TIME_DOM_SEC_LO 0) + 2 ^ 32 - e.stamp) % 2 ^ 32 < s.fld SWX_FDBCFG_AGE)))) ∧
  (∀ (m : Master) (p : Fin 32) (s : State),
      s.grantsF m (SWX_PORTCFG_CNTCLR p) 1 = true →
      s.noTxn = true →
      Effect (.swxCntclr m p) s (SWX_PORTCFG p :: (List.range 8).map (SWX_CNT p)) ([]) (fun u => ∀ i : Fin 8, u.reg (SWX_CNT p i) = 0)) ∧
  (∀ (s : State),
      s.domOn 7 = true →
      ((s.cyc0.toNat % 1024 ≠ 0 ∨ s.shadOf .switch = [])) →
      Yields (.switchApplyBoundary) s (s)) ∧
  (∀ (r a : Nat) (s : State),
      s.domOn 7 = true →
      s.cyc0.toNat % 1024 = 0 →
      s.shadOf .switch ≠ [] →
      s.noTxn = true →
      swxBad s (fun a => s.candFor [.switch] [] a) = some (r, a) →
      Effect (.switchApplyBoundary) s ([TXN_STAT, TXN_INCADDR]) ([(355, 0, false)]) (fun u => u.shadow = s.shadow ∧ u.fld TXN_STAT_RULE = r % 256 ∧ u.regN TXN_INCADDR = a % 2 ^ 32)) ∧
  (∀ (s : State),
      s.domOn 7 = true →
      s.cyc0.toNat % 1024 = 0 →
      s.shadOf .switch ≠ [] →
      s.noTxn = true →
      swxBad s (fun a => s.candFor [.switch] [] a) = none →
      Leaves (.switchApplyBoundary) s (fun u => u.shadOf .switch = [])) ∧
  (∀ (m : Master) (v : Word) (s : State), Yields (.bufSwcellsWrite m v) s (s.wordWrite m BUF_SWCELLS v)) ∧
  (∀ (s : State), Yields (.stagingRefill) s (s.inDom 7 (fun s => s.refill))) ∧
  (∀ (p : Fin 12) (s : State), Yields (.gateEntryEnd p) s (s.inDom 7 (fun s => s.gateEnd p))) ∧
  (∀ (f : Fin 256) (s : State), Yields (.cbRecoveryReset f) s (s.inDom 7 (fun s => s.cbReset f))) ∧
  (∀ (s : State), Yields (.fdbAgeOut) s (s.inDom 7 (fun s => s.fdbAge))) ∧
  (∀ (m : Master) (p : Fin 32) (s : State), Yields (.swxCntclr m p) s (s.fieldWrite m (SWX_PORTCFG_CNTCLR p) 1)) ∧
  (∀ (s : State), Yields (.switchApplyBoundary) s (s.inDom 7 (fun s => s.swxBoundary)))

/-- A MEMDATA write stores its word in the space MEMADDR names, or with RUN set outside D space only sets MEMREF; a read answers the word; both advance ADDR by 4. RUN starts the engine, thread 0 at instruction 0 where INIT says so, or stops it. RST resets every thread and keeps the memories; its release restarts the cycle count. The model's choices: log 91, log 93. Every command named here completes, from every state and with all operands: the last clauses give the operation that is its own effect. -/
def Obligations.EngineControl : Prop :=
  (∀ (m : Master) (n : Fin 16) (v : Word) (s : State),
      s.grants m (ENG_MEMDATA n) v = true →
      ((s.flag (ENG_CTRL_RUN n) = false ∨ s.fld (ENG_MEMADDR_SPACE n) = 1)) →
      ((s.engSt n).word (s.fld (ENG_MEMADDR_SPACE n)) (s.fld (ENG_MEMADDR_ADDR n))).isSome = true →
      Effect (.engMemdataWrite m n v) s ([ENG_MEMADDR n]) ([]) (fun u => (u.engSt n).word (s.fld (ENG_MEMADDR_SPACE n)) (s.fld (ENG_MEMADDR_ADDR n)) = some v ∧
  u.fld (ENG_MEMADDR_ADDR n) = (s.fld (ENG_MEMADDR_ADDR n) + 4) % 2 ^ 17 ∧ (u.engSt n).thr = (s.engSt n).thr)) ∧
  (∀ (m : Master) (n : Fin 16) (v : Word) (s : State),
      s.grants m (ENG_MEMDATA n) v = true →
      s.flag (ENG_CTRL_RUN n) = true →
      s.fld (ENG_MEMADDR_SPACE n) ≠ 1 →
      Effect (.engMemdataWrite m n v) s ([ENG_MEMADDR n, ENG_STAT n]) ([]) (fun u => u.flag (ENG_STAT_MEMREF n) = true ∧ u.eng = s.eng ∧ u.fld (ENG_MEMADDR_ADDR n) = (s.fld (ENG_MEMADDR_ADDR n) + 4) % 2 ^ 17)) ∧
  (∀ (m : Master) (n : Fin 16) (s : State),
      s.reads m (ENG_MEMDATA n) = true →
      Effect (.engMemdataRead m n) s ([ENG_MEMADDR n]) ([]) (fun u => u.rdata = (((s.engSt n).word (s.fld (ENG_MEMADDR_SPACE n)) (s.fld (ENG_MEMADDR_ADDR n))).getD 0).setWidth 64 ∧ u.eng = s.eng ∧
  u.fld (ENG_MEMADDR_ADDR n) = (s.fld (ENG_MEMADDR_ADDR n) + 4) % 2 ^ 17)) ∧
  (∀ (m : Master) (n : Fin 16) (v : Word) (s : State),
      s.grants m (ENG_CTRL n) v = true →
      (v.getLsbD 0 = true ∧ v.getLsbD 1 = false ∧ v.getLsbD 2 = true) →
      s.flag (ENG_CTRL_RUN n) = false →
      s.flag (ENG_CTRL_RST n) = false →
      ((s.thr n 0).run = false ∧ (s.thr n 0).dead = false) →
      Effect (.engRun m n v) s ([ENG_CTRL n, ENG_STAT n]) ([]) (fun u => u.flag (ENG_CTRL_RUN n) = true ∧ (u.thr n 0).run = true ∧ (u.thr n 0).pc = 0 ∧ (u.engSt n).imem = (s.engSt n).imem)) ∧
  (∀ (m : Master) (n : Fin 16) (v : Word) (s : State),
      s.grants m (ENG_CTRL n) v = true →
      (v.getLsbD 0 = false ∧ v.getLsbD 1 = false) →
      s.flag (ENG_CTRL_RST n) = false →
      Effect (.engRun m n v) s ([ENG_CTRL n]) ([]) (fun u => u.flag (ENG_CTRL_RUN n) = false ∧ u.eng = s.eng)) ∧
  (∀ (m : Master) (n : Fin 16) (s : State),
      s.grantsF m (ENG_CTRL_RST n) 1 = true →
      s.flag (ENG_CTRL_RST n) = false →
      (∀ t : Fin 4, (s.thr n t).win = none ∧ s.rxOf (100 + 4 * n + t) = none) →
      Effect (.engReset m n) s ([ENG_CTRL n, ENG_STAT n]) ([]) (fun u => u.flag (ENG_CTRL_RST n) = true ∧ (∀ t : Fin 4, u.thr n t = Thr.reset) ∧ (u.engSt n).imem = (s.engSt n).imem ∧
  (u.engSt n).dmem = (s.engSt n).dmem ∧ u.disp = s.disp)) ∧
  (∀ (m : Master) (n : Fin 16) (s : State),
      s.grantsF m (ENG_CTRL_RST n) 0 = true →
      s.flag (ENG_CTRL_RST n) = true →
      s.flag (ENG_CTRL_RUN n) = false →
      Effect (.engResetRelease m n) s ([ENG_CTRL n]) ([]) (fun u => u.flag (ENG_CTRL_RST n) = false ∧ (u.engSt n).born = s.time.now ∧ (u.engSt n).thr = (s.engSt n).thr)) ∧
  (∀ (m : Master) (n : Fin 16) (v : Word) (s : State), Yields (.engMemdataWrite m n v) s (s.wordWrite m (ENG_MEMDATA n) v)) ∧
  (∀ (m : Master) (n : Fin 16) (s : State), Yields (.engMemdataRead m n) s (s.busRead m (ENG_MEMDATA n) 4)) ∧
  (∀ (m : Master) (n : Fin 16) (v : Word) (s : State), Yields (.engRun m n v) s (s.wordWrite m (ENG_CTRL n) v)) ∧
  (∀ (m : Master) (n : Fin 16) (s : State), Yields (.engReset m n) s (s.fieldWrite m (ENG_CTRL_RST n) 1)) ∧
  (∀ (m : Master) (n : Fin 16) (s : State), Yields (.engResetRelease m n) s (s.fieldWrite m (ENG_CTRL_RST n) 0))

/-- An engine's output with room at its kind-0 level sends its head copy and posts the item; the first idle thread, by engine and thread number, that is eligible for any item of its cluster takes the oldest item it is eligible for of the highest level that holds one, and starts at its entry; with no eligible thread nothing happens; a held post, a timer's post and a software post with room enter their level, stamped, and without room a timer's post is held and counted; a ready node with room takes one token from each input and posts its item; a legal cluster configuration is taken while engines are stopped and levels empty, an illegal one sets CLREF; the Dispatcher applies at multiples of 1,024. The model's choices: an open vote hands out no item (log 86), the descriptor and charge of a copy end when its frame has been sent whole (log 145). Every command named here completes, from every state and with all operands: the last clauses give the operation that is its own effect. -/
def Obligations.DispatcherCommands : Prop :=
  (∀ (n : Fin 16) (x : Copy) (s : State),
      s.domOn 7 = true →
      s.engOff n = false →
      (s.sentTo (12 + n)).length < 64 →
      s.itemRoom (s.srcItem n 0 0 0 true) = true →
      (s.qSt (12 + n) 7).q = [x] →
      s.copyAged (12 + n) x = false →
      (x.held = false ∧ x.ltMode = 0) →
      (s.sentTo (12 + n)).all (fun y => y.frm != x.frm) = true →
      x.uses = false →
      Effect (.engineCopySend n) s ([SWX_QSTAT (12 + n) 7, ENG_STAT n, SWX_CNT (12 + n) 7, DISP_STAT, DISP_CAP (s.clusterOf n) (s.srcItem n 0 0 0 true).level]) ([]) (fun u => u.sentTo (12 + n) = s.sentTo (12 + n) ++ [x] ∧ (u.qSt (12 + n) 7).q = [] ∧ u.level (s.clusterOf n) (s.srcItem n 0 0 0 true).level =
    s.level (s.clusterOf n) (s.srcItem n 0 0 0 true).level ++ [{ s.srcItem n 0 0 0 true with frm := x.frm, aux := x.idx, stamp := s.cyc0.toNat }])) ∧
  (∀ (n : Fin 16) (x : Copy) (s : State),
      s.domOn 7 = true →
      s.engOff n = false →
      s.sentTo (12 + n) = [] →
      s.itemRoom (s.srcItem n 0 0 0 true) = true →
      (s.qSt (12 + n) 7).q = [x] →
      s.copyAged (12 + n) x = false →
      (x.held = false ∧ x.ltMode = 0) →
      x.uses = true →
      ((s.frm x.frm).map (fun f => f.ended)).getD true = true →
      s.fld BUF_DESC_FREE < 65536 →
      Leaves (.engineCopySend n) s (fun u => u.sentTo (12 + n) = [{ x with n := 0, uses := false }] ∧ u.fld BUF_DESC_FREE = s.fld BUF_DESC_FREE + 1 ∧ (u.qSt (12 + n) 7).q = [] ∧
  u.level (s.clusterOf n) (s.srcItem n 0 0 0 true).level =
    s.level (s.clusterOf n) (s.srcItem n 0 0 0 true).level ++ [{ s.srcItem n 0 0 0 true with frm := x.frm, aux := x.idx, stamp := s.cyc0.toNat }] ∧ u.mem = s.mem)) ∧
  (∀ (k e : Fin 16) (h : Fin 4) (l : Fin 8) (j : Nat) (x : Item) (s : State),
      s.domOn 7 = true →
      s.clusterOf e = k →
      (s.level k l)[j]? = some x →
      s.eligible e h x = true →
      (∀ i : Fin 64, i.val < 4 * e.val + h.val → s.clusterOf (i.val / 4) = k → ∀ q : Fin 8, ∀ y ∈ s.level k q, s.eligible (i.val / 4) (i.val % 4) y = false) →
      (∀ q : Fin 8, l < q → ∀ y ∈ s.level k q, s.eligible e h y = false) →
      (∀ y ∈ (s.level k l).take j, s.eligible e h y = false) →
      (x.kind ≠ 0 ∧ x.kind ≤ 7) →
      Effect (.dispatchItem k) s ([DISP_CAP k l, DISP_STAT, ENG_STAT e]) ([]) (fun u => (u.thr e h).item = some x ∧ (u.thr e h).run = true ∧ (u.thr e h).pc = x.entry ∧ (u.thr e h).handler = false ∧
  (u.thr e h).rc = 0 ∧ (u.thr e h).ts = s.cyc0 ∧ u.level k l = (s.level k l).eraseIdx j)) ∧
  (∀ (k : Fin 16) (s : State),
      s.domOn 7 = true →
      (∀ i : Fin 64, s.clusterOf (i.val / 4) = k → ∀ q : Fin 8, ∀ y ∈ s.level k q, s.eligible (i.val / 4) (i.val % 4) y = false) →
      Yields (.dispatchItem k) s (s)) ∧
  (∀ (kind : Fin 8) (i : Fin 4608) (x : Item) (s : State),
      s.domOn 7 = true →
      ((kind.val = 3 ∨ kind.val = 4)) →
      s.heldPost kind i = some x →
      s.itemRoom x = true →
      Effect (.heldPostRelease kind i) s ([DISP_CAP (s.clusterOf x.cluster) x.level, DISP_STAT]) ([]) (fun u => u.heldPost kind i = none ∧
  u.level (s.clusterOf x.cluster) x.level = s.level (s.clusterOf x.cluster) x.level ++ [{ x with stamp := s.cyc0.toNat }])) ∧
  (∀ (i : Fin 16) (s : State),
      s.domOn 7 = true →
      s.flag (DISP_TMR_CFG_EN i) = true →
      s.srcToken (s.fld (DISP_TMR_CFG_CLUSTER i)) 4 = false →
      s.heldPost 4 i = none →
      s.itemRoom (s.srcItem (s.fld (DISP_TMR_CFG_CLUSTER i)) 4 (s.fld (DISP_TMR_CFG_ARG i)) i false) = true →
      Effect (.dispTimerExpiry i) s ([DISP_CAP (s.clusterOf (s.fld (DISP_TMR_CFG_CLUSTER i))) (s.fld (DISP_ENTRY_LEVEL (s.clusterOf (s.fld (DISP_TMR_CFG_CLUSTER i))) 4)), DISP_STAT]) ([]) (fun u => let x := s.srcItem (s.fld (DISP_TMR_CFG_CLUSTER i)) 4 (s.fld (DISP_TMR_CFG_ARG i)) i false
  x.kind = 4 ∧ x.arg = s.fld (DISP_TMR_CFG_ARG i) ∧ x.aux = i.val ∧ u.level (s.clusterOf x.cluster) x.level = s.level (s.clusterOf x.cluster) x.level ++ [{ x with stamp := s.cyc0.toNat }])) ∧
  (∀ (i : Fin 16) (s : State),
      s.domOn 7 = true →
      s.flag (DISP_TMR_CFG_EN i) = true →
      s.srcToken (s.fld (DISP_TMR_CFG_CLUSTER i)) 4 = false →
      s.heldPost 4 i = none →
      s.itemRoom (s.srcItem (s.fld (DISP_TMR_CFG_CLUSTER i)) 4 (s.fld (DISP_TMR_CFG_ARG i)) i false) = false →
      Effect (.dispTimerExpiry i) s ([DISP_HELD 4]) ([]) (fun u => u.heldPost 4 i = some (s.srcItem (s.fld (DISP_TMR_CFG_CLUSTER i)) 4 (s.fld (DISP_TMR_CFG_ARG i)) i false) ∧
  u.regN (DISP_HELD 4) = min 0xFFFFFFFF (s.regN (DISP_HELD 4) + 1))) ∧
  (∀ (m : Master) (v w0 w1 w2 : Word) (s : State),
      s.grants m (DISP_SWPOST 3) v = true →
      storeGet (fun _ => 0) s.disp.sw (4 * masterNo m) = w0 →
      storeGet (fun _ => 0) s.disp.sw (4 * masterNo m + 1) = w1 →
      storeGet (fun _ => 0) s.disp.sw (4 * masterNo m + 2) = w2 →
      s.itemRoom (itemOf 7 w0 w1 w2) = true →
      Effect (.dispSwpost m v) s ([DISP_CAP (s.clusterOf (bits w0 27 24)) (bits w0 18 16), DISP_STAT]) ([]) (fun u => storeGet (fun _ => 0) u.disp.swres (masterNo m) = 0 ∧
  u.level (s.clusterOf (bits w0 27 24)) (bits w0 18 16) = s.level (s.clusterOf (bits w0 27 24)) (bits w0 18 16) ++ [{ itemOf 7 w0 w1 w2 with stamp := s.cyc0.toNat }])) ∧
  (∀ (k : Fin 16) (n : Fin 512) (s : State),
      s.domOn 7 = true →
      s.isGraph k = true →
      s.clusterOf (s.fld (DISP_NODE_W0_CLUSTER n)) = k →
      s.nodeReady n = true →
      (∀ j : Fin 512, j ≠ n → s.nodeValid j = false) →
      s.itemRoom (s.nodeItem n) = true →
      Effect (.nodeFire k) s ([DISP_TOK n, DISP_CAP k (s.fld (DISP_NODE_W0_LEVEL n)), DISP_STAT]) ([]) (fun u => (∀ i : Fin 8, u.tok n i = if i.val ≤ s.fld (DISP_NODE_W0_NIN n) then s.tok n i - 1 else s.tok n i) ∧ u.heldPost 6 n = none ∧
  u.level k (s.fld (DISP_NODE_W0_LEVEL n)) = s.level k (s.fld (DISP_NODE_W0_LEVEL n)) ++ [{ s.nodeItem n with stamp := s.cyc0.toNat }])) ∧
  (∀ (m : Master) (v : Word) (s : State),
      s.grants m DISP_CLCFG v = true →
      clcfgOk (v.toNat % 32768) = true →
      (∀ e : Fin 16, s.flag (ENG_CTRL_RUN e) = false ∧ ∀ l : Fin 8, s.level e l = []) →
      Effect (.dispClcfgWrite m v) s ([DISP_CLCFG]) ([]) (fun u => u.regN DISP_CLCFG = v.toNat % 32768)) ∧
  (∀ (m : Master) (v : Word) (s : State),
      s.grants m DISP_CLCFG v = true →
      clcfgOk (v.toNat % 32768) = false →
      Effect (.dispClcfgWrite m v) s ([DISP_STAT]) ([]) (fun u => u.flag DISP_STAT_CLREF = true)) ∧
  (∀ (s : State),
      s.domOn 7 = true →
      ((s.cyc0.toNat % 1024 ≠ 0 ∨ (s.shadOf .disp = [] ∧ s.armedBy .disp = none))) →
      Yields (.dispApplyBoundary) s (s)) ∧
  (∀ (s : State),
      s.domOn 7 = true →
      s.cyc0.toNat % 1024 = 0 →
      s.shadOf .disp ≠ [] →
      s.noTxn = true →
      dispBad s (fun a => s.candFor [.disp] [] a) = none →
      Leaves (.dispApplyBoundary) s (fun u => u.shadOf .disp = [] ∧ u.mem = s.mem ∧ u.pending = s.pending)) ∧
  (∀ (n : Fin 16) (s : State), Yields (.engineCopySend n) s (s.inDom 7 (fun s => s.engineSend n))) ∧
  (∀ (k : Fin 16) (s : State), Yields (.dispatchItem k) s (s.inDom 7 (fun s => s.dispatch k))) ∧
  (∀ (kind : Fin 8) (i : Fin 4608) (s : State), Yields (.heldPostRelease kind i) s (s.inDom 7 (fun s => s.heldRelease1 kind i))) ∧
  (∀ (m : Master) (v : Word) (s : State), Yields (.dispClcfgWrite m v) s (s.wordWrite m DISP_CLCFG v)) ∧
  (∀ (i : Fin 16) (s : State), Yields (.dispTimerExpiry i) s (s.inDom 7 (fun s => s.timerExpiry i))) ∧
  (∀ (m : Master) (v : Word) (s : State), Yields (.dispSwpost m v) s (s.wordWrite m (DISP_SWPOST 3) v)) ∧
  (∀ (k : Fin 16) (s : State), Yields (.nodeFire k) s (s.inDom 7 (fun s => s.nodeFire k))) ∧
  (∀ (s : State), Yields (.dispApplyBoundary) s (s.inDom 7 (fun s => s.dispBoundary)))

/-- For a thread that can issue: RXBASE moves its window up at once where no bytes have to be fetched; FWD starts the forward of its bound copy; TXCMD captures a legal frame with its metadata or sets BADLEN; DONE ends its item and counts it; POSTGO posts its staged item or stalls, TRYGO posts or answers 1, TOKEN adds a token; BRDATA stalls on the bridge; MBSEND and MBRECV with a good address stall for their copy, with a bad one answer 2; DBRING sets the receiver's doorbell bit; a beat is released for the next ready thread in turn; a staged originated frame leaves the thread free to send. The model's choices: log 78 (a row is one access of a running thread), log 79, log 84 (beats of an originated frame). Every command named here completes, from every state and with all operands: the last clauses give the operation that is its own effect. -/
def Obligations.EnginePortCommands : Prop :=
  (∀ (e : Fin 16) (t : Fin 4) (v : Word) (s : State),
      s.canIssue e t = true →
      bits v 13 5 * 32 ≤ (s.port e t 0x300).toNat →
      Yields (.rxbase e t v) s (s)) ∧
  (∀ (e : Fin 16) (t : Fin 4) (v : Word) (s : State),
      s.canIssue e t = true →
      (s.port e t 0x300).toNat < bits v 13 5 * 32 →
      s.bound e t = none →
      Effect (.rxbase e t v) s ([ENG_STAT e]) ([]) (fun u => u.port e t 0x300 = w32 (bits v 13 5 * 32) ∧ (u.thr e t).stall = none)) ∧
  (∀ (e : Fin 16) (t : Fin 4) (w : Win) (s : State),
      s.canIssue e t = true →
      s.bound e t = some w →
      w.fwd = false →
      s.winFailed w = false →
      Effect (.fwd e t) s ([ENG_STAT e]) ([]) (fun u => (u.thr e t).win = some { w with fwd := true })) ∧
  (∀ (e : Fin 16) (t : Fin 4) (v : Word) (s : State),
      s.canIssue e t = true →
      (s.thr e t).tx = none →
      min 256 (bits (s.port e t 0x32C) 24 16) + bits (s.port e t 0x32C) 13 0 + 4 ≤ 9728 →
      bits v 16 0 + bits (s.port e t 0x32C) 13 0 ≤ 131072 →
      Effect (.txcmd e t v) s ([ENG_STAT e]) ([]) (fun u => (u.thr e t).tx.map (fun x => (x.2, fcsGood x.1, decide (64 ≤ x.1.length))) = some (s.engIngr e t, true, true))) ∧
  (∀ (e : Fin 16) (t : Fin 4) (v : Word) (s : State),
      s.canIssue e t = true →
      (s.thr e t).tx = none →
      131072 < bits v 16 0 + bits (s.port e t 0x32C) 13 0 →
      Effect (.txcmd e t v) s ([ENG_STAT e]) ([]) (fun u => (u.thr e t).tx = none ∧ u.port e t 0x334 = 2)) ∧
  (∀ (e : Fin 16) (t : Fin 4) (x : Item) (s : State),
      s.canIssue e t = true →
      (s.thr e t).item = some x →
      (x.kind ≠ 0 ∧ x.kind ≠ 6) →
      (s.thr e t).win = none →
      Effect (.done e t) s ([ENG_CNT e 0, ENG_STAT e]) ([]) (fun u => (u.thr e t).item = none ∧ (u.thr e t).run = false ∧ u.regN (ENG_CNT e 0) = min 0xFFFFFFFF (s.regN (ENG_CNT e 0) + 1))) ∧
  (∀ (e : Fin 16) (t : Fin 4) (s : State),
      s.canIssue e t = true →
      s.itemRoom (s.postItem e t) = true →
      Effect (.postgo e t) s ([DISP_CAP (s.clusterOf (s.postItem e t).cluster) (s.postItem e t).level, DISP_STAT, ENG_STAT e]) ([]) (fun u => u.port e t 0x428 = 0 ∧ (u.thr e t).stall = none ∧
  u.level (s.clusterOf (s.postItem e t).cluster) (s.postItem e t).level =
    s.level (s.clusterOf (s.postItem e t).cluster) (s.postItem e t).level ++ [{ s.postItem e t with stamp := s.cyc0.toNat }])) ∧
  (∀ (e : Fin 16) (t : Fin 4) (s : State),
      s.canIssue e t = true →
      s.itemRoom (s.postItem e t) = false →
      Effect (.postgo e t) s ([DISP_HELD 5, ENG_STAT e]) ([]) (fun u => (u.thr e t).stall = some (.port 0x420 (some 0)) ∧ u.regN (DISP_HELD 5) = min 0xFFFFFFFF (s.regN (DISP_HELD 5) + 1))) ∧
  (∀ (e : Fin 16) (t : Fin 4) (s : State),
      s.canIssue e t = true →
      Effect (.trygo e t) s ([DISP_CAP (s.clusterOf (s.postItem e t).cluster) (s.postItem e t).level, DISP_STAT, DISP_HELD 5, ENG_STAT e]) ([]) (fun u => if s.itemRoom (s.postItem e t) then (u.thr e t).stall = none ∧ u.port e t 0x428 = 0 ∧ u.level (s.clusterOf (s.postItem e t).cluster) (s.postItem e t).level =
    s.level (s.clusterOf (s.postItem e t).cluster) (s.postItem e t).level ++ [{ s.postItem e t with stamp := s.cyc0.toNat }]
  else (u.thr e t).stall = none ∧ u.port e t 0x428 = 1 ∧ u.disp = s.disp)) ∧
  (∀ (e : Fin 16) (t : Fin 4) (v : Word) (s : State),
      s.canIssue e t = true →
      s.nodeValid (bits v 8 0) = true →
      bits v 11 9 ≤ s.fld (DISP_NODE_W0_NIN (bits v 8 0)) →
      s.tok (bits v 8 0) (bits v 11 9) < 15 →
      Effect (.token e t v) s ([DISP_TOK (bits v 8 0), ENG_STAT e]) ([]) (fun u => u.tok (bits v 8 0) (bits v 11 9) = s.tok (bits v 8 0) (bits v 11 9) + 1 ∧ u.port e t 0x430 = 0)) ∧
  (∀ (e : Fin 16) (t : Fin 4) (w : Option Word) (s : State),
      s.canIssue e t = true →
      Effect (.brdataAccess e t w) s ([ENG_STAT e]) ([]) (fun u => (u.thr e t).stall = some (.port 0x604 w) ∧ (u.thr e t).since = s.time.now ∧ bits (u.reg (ENG_STAT e)) (3 * t.val + 2) (3 * t.val) = 4)) ∧
  (∀ (e : Fin 16) (t : Fin 4) (i : Fin 3) (v : Word) (c : Nat) (s : State),
      s.canIssue e t = true →
      sendChan e i = some c →
      s.chanFull c = false →
      Effect (.mbsend e t i v) s ([ENG_STAT e]) ([]) (fun u => if mbAddrOk v then (u.thr e t).stall = some (.port (0x440 + 4 * i.val) (some v)) else (u.engSt e).sres = setRes (s.engSt e).sres i 2)) ∧
  (∀ (e : Fin 16) (t : Fin 4) (i : Fin 3) (v : Word) (c : Nat) (s : State),
      s.canIssue e t = true →
      recvChan e i = some c →
      Effect (.mbrecv e t i v) s ([ENG_STAT e]) ([]) (fun u => if !mbAddrOk v then (u.engSt e).rres = setRes (s.engSt e).rres i 2 else if s.chan c = [] then (u.engSt e).rres = setRes (s.engSt e).rres i 1
  else (u.thr e t).stall = some (.port (0x450 + 4 * i.val) (some v)))) ∧
  (∀ (m : Master) (v : Word) (k : Nat) (s : State),
      (∀ e t, m ≠ .thread e t) →
      s.grants m MBX_DBRING v = true →
      dbSlot (bits v 7 0) = some k →
      ¬ (0x10 ≤ bits v 7 0 ∧ bits v 7 0 ≤ 0x2F) →
      (s.asleep = false ∧ s.pwr.vote = none) →
      Effect (.dbring m v) s ([MBX_DB k]) ([]) (fun u => (u.reg (MBX_DB k)).getLsbD (bits v 12 8) = true)) ∧
  (∀ (e : Fin 16) (t : Nat) (s : State),
      s.domOn (engDom e) = true →
      ((List.range 4).map (fun i => ((s.engSt e).turn + 1 + i) % 4)).find? (fun t => s.beatReady e t) = some t →
      Yields (.beatRelease e) s ((fun (w : State) => if w.fwdReady e t then w.beatOf e t else w.origBeat e t) (s.setEng e { s.engSt e with turn := t }))) ∧
  (∀ (e : Fin 16) (t : Fin 4) (f : List Byte) (g : Ingr) (s : State),
      s.domOn (engDom e) = true →
      (s.thr e t).tx = some (f, g) →
      s.rxOf (engKey e t) = none →
      (s.inject (engKey e t) g f).2 = true →
      (g.learn = true ∧ g.data = [] ∧ g.used = 0 ∧ g.lent = 0 ∧ g.fail = false ∧ g.staged = false ∧ f.length ≤ 16384) →
      s.fwdReady e t = false →
      (∀ h : Fin 4, h ≠ t → s.beatReady e h = false) →
      Leaves (.originatedFrameStaged e t) s (fun u => (u.thr e t).tx = none ∧ u.pending = s.pending)) ∧
  (∀ (e : Fin 16) (s : State), Yields (.beatRelease e) s (s.inDom (engDom e) (fun s => s.beatRelease e))) ∧
  (∀ (e : Fin 16) (t : Fin 4) (v : Word) (s : State), Yields (.rxbase e t v) s (s.portAccess e t 0x300 (some v))) ∧
  (∀ (e : Fin 16) (t : Fin 4) (s : State), Yields (.fwd e t) s (s.portAccess e t 0x310 (some 1))) ∧
  (∀ (e : Fin 16) (t : Fin 4) (v : Word) (s : State), Yields (.txcmd e t v) s (s.portAccess e t 0x330 (some v))) ∧
  (∀ (e : Fin 16) (t : Fin 4) (s : State), Yields (.done e t) s (s.portAccess e t 0x410 (some 0))) ∧
  (∀ (e : Fin 16) (t : Fin 4) (s : State), Yields (.postgo e t) s (s.portAccess e t 0x420 (some 0))) ∧
  (∀ (e : Fin 16) (t : Fin 4) (s : State), Yields (.trygo e t) s (s.portAccess e t 0x424 (some 0))) ∧
  (∀ (e : Fin 16) (t : Fin 4) (v : Word) (s : State), Yields (.token e t v) s (s.portAccess e t 0x42C (some v))) ∧
  (∀ (e : Fin 16) (t : Fin 4) (w : Option Word) (s : State), Yields (.brdataAccess e t w) s (s.portAccess e t 0x604 w)) ∧
  (∀ (e : Fin 16) (t : Fin 4) (i : Fin 3) (v : Word) (s : State), Yields (.mbsend e t i v) s (s.portAccess e t (0x440 + 4 * i) (some v))) ∧
  (∀ (e : Fin 16) (t : Fin 4) (i : Fin 3) (v : Word) (s : State), Yields (.mbrecv e t i v) s (s.portAccess e t (0x450 + 4 * i) (some v))) ∧
  (∀ (m : Master) (v : Word) (s : State), Yields (.dbring m v) s (s.dbRingBy m v)) ∧
  (∀ (e : Fin 16) (t : Fin 4) (s : State), Yields (.originatedFrameStaged e t) s (s.inDom (engDom e) (fun s => s.txStaged e t)))

/-- Each ALU instruction (opcode 0) puts its result of ra, rb and the old rd in rd and goes on at the next index: sums, logic, shifts and rotations by rb [4:0] or by fn [10:6], minima and maxima, SEL, and the comparisons. Loads due at it land first. Nothing else changes. g0 takes no value. Every command named here completes, from every state and with all operands: the last clauses give the operation that is its own effect. -/
def Obligations.AluInstructions : Prop :=
  Alu Instr.addC 0 0x00 (fun a b _ _ => w32 (a.toNat + b.toNat)) ∧
  Alu Instr.subC 0 0x01 (fun a b _ _ => w32 (uns 32 ((a.toNat : Int) - b.toNat))) ∧
  Alu Instr.andC 0 0x02 (fun a b _ _ => w32 (a.toNat &&& b.toNat)) ∧
  Alu Instr.orC 0 0x03 (fun a b _ _ => w32 (a.toNat ||| b.toNat)) ∧
  Alu Instr.xorC 0 0x04 (fun a b _ _ => w32 (a.toNat ^^^ b.toNat)) ∧
  Alu Instr.andn 0 0x05 (fun a b _ _ => w32 (a.toNat - (a.toNat &&& b.toNat))) ∧
  Alu Instr.sll 0 0x06 (fun a b _ _ => w32 (a.toNat * 2 ^ bits b 4 0)) ∧
  Alu Instr.srl 0 0x07 (fun a b _ _ => w32 (a.toNat / 2 ^ bits b 4 0)) ∧
  Alu Instr.sra 0 0x08 (fun a b _ _ => w32 (uns 32 (a.toInt / (2 ^ bits b 4 0 : Nat)))) ∧
  Alu Instr.ror 0 0x09 (fun a b _ _ => w32 (a.toNat / 2 ^ bits b 4 0 + a.toNat * 2 ^ (32 - bits b 4 0))) ∧
  Alu Instr.slli 0 0x0A (fun a _ _ w => w32 (a.toNat * 2 ^ bits w 10 6)) ∧
  Alu Instr.srli 0 0x0B (fun a _ _ w => w32 (a.toNat / 2 ^ bits w 10 6)) ∧
  Alu Instr.srai 0 0x0C (fun a _ _ w => w32 (uns 32 (a.toInt / (2 ^ bits w 10 6 : Nat)))) ∧
  Alu Instr.rori 0 0x0D (fun a _ _ w => w32 (a.toNat / 2 ^ bits w 10 6 + a.toNat * 2 ^ (32 - bits w 10 6))) ∧
  Alu Instr.min 0 0x0E (fun a b _ _ => w32 (uns 32 (min a.toInt b.toInt))) ∧
  Alu Instr.max 0 0x0F (fun a b _ _ => w32 (uns 32 (max a.toInt b.toInt))) ∧
  Alu Instr.minu 0 0x10 (fun a b _ _ => w32 (min a.toNat b.toNat)) ∧
  Alu Instr.maxu 0 0x11 (fun a b _ _ => w32 (max a.toNat b.toNat)) ∧
  Alu Instr.sel 0 0x12 (fun a b d _ => if d.toNat = 0 then b else a) ∧
  Alu Instr.ceq 0 0x20 (fun a b _ _ => if a.toNat = b.toNat then 1#32 else 0#32) ∧
  Alu Instr.cne 0 0x21 (fun a b _ _ => if a.toNat = b.toNat then 0#32 else 1#32) ∧
  Alu Instr.clt 0 0x22 (fun a b _ _ => if a.toInt < b.toInt then 1#32 else 0#32) ∧
  Alu Instr.cltu 0 0x23 (fun a b _ _ => if a.toNat < b.toNat then 1#32 else 0#32) ∧
  Alu Instr.cle 0 0x24 (fun a b _ _ => if a.toInt ≤ b.toInt then 1#32 else 0#32) ∧
  Alu Instr.cleu 0 0x25 (fun a b _ _ => if a.toNat ≤ b.toNat then 1#32 else 0#32) ∧
  (∀ (e : Fin 16) (t : Fin 4) (ecc : EccAt) (s : State), Yields (.addC e t ecc) s (s.issue e t ecc 0 (aluR (fun a b _ _ => a + b)))) ∧
  (∀ (e : Fin 16) (t : Fin 4) (ecc : EccAt) (s : State), Yields (.subC e t ecc) s (s.issue e t ecc 1 (aluR (fun a b _ _ => a - b)))) ∧
  (∀ (e : Fin 16) (t : Fin 4) (ecc : EccAt) (s : State), Yields (.andC e t ecc) s (s.issue e t ecc 2 (aluR (fun a b _ _ => a &&& b)))) ∧
  (∀ (e : Fin 16) (t : Fin 4) (ecc : EccAt) (s : State), Yields (.orC e t ecc) s (s.issue e t ecc 3 (aluR (fun a b _ _ => a ||| b)))) ∧
  (∀ (e : Fin 16) (t : Fin 4) (ecc : EccAt) (s : State), Yields (.xorC e t ecc) s (s.issue e t ecc 4 (aluR (fun a b _ _ => a ^^^ b)))) ∧
  (∀ (e : Fin 16) (t : Fin 4) (ecc : EccAt) (s : State), Yields (.andn e t ecc) s (s.issue e t ecc 5 (aluR (fun a b _ _ => a &&& ~~~b)))) ∧
  (∀ (e : Fin 16) (t : Fin 4) (ecc : EccAt) (s : State), Yields (.sll e t ecc) s (s.issue e t ecc 6 (aluR (fun a b _ _ => a <<< amt5 b)))) ∧
  (∀ (e : Fin 16) (t : Fin 4) (ecc : EccAt) (s : State), Yields (.srl e t ecc) s (s.issue e t ecc 7 (aluR (fun a b _ _ => a >>> amt5 b)))) ∧
  (∀ (e : Fin 16) (t : Fin 4) (ecc : EccAt) (s : State), Yields (.sra e t ecc) s (s.issue e t ecc 8 (aluR (fun a b _ _ => a.sshiftRight (amt5 b))))) ∧
  (∀ (e : Fin 16) (t : Fin 4) (ecc : EccAt) (s : State), Yields (.ror e t ecc) s (s.issue e t ecc 9 (aluR (fun a b _ _ => a.rotateRight (amt5 b))))) ∧
  (∀ (e : Fin 16) (t : Fin 4) (ecc : EccAt) (s : State), Yields (.slli e t ecc) s (s.issue e t ecc 10 (aluR (fun a _ _ w => a <<< insAmt w)))) ∧
  (∀ (e : Fin 16) (t : Fin 4) (ecc : EccAt) (s : State), Yields (.srli e t ecc) s (s.issue e t ecc 11 (aluR (fun a _ _ w => a >>> insAmt w)))) ∧
  (∀ (e : Fin 16) (t : Fin 4) (ecc : EccAt) (s : State), Yields (.srai e t ecc) s (s.issue e t ecc 12 (aluR (fun a _ _ w => a.sshiftRight (insAmt w))))) ∧
  (∀ (e : Fin 16) (t : Fin 4) (ecc : EccAt) (s : State), Yields (.rori e t ecc) s (s.issue e t ecc 13 (aluR (fun a _ _ w => a.rotateRight (insAmt w))))) ∧
  (∀ (e : Fin 16) (t : Fin 4) (ecc : EccAt) (s : State), Yields (.min e t ecc) s (s.issue e t ecc 14 (aluR (fun a b _ _ => if a.slt b then a else b)))) ∧
  (∀ (e : Fin 16) (t : Fin 4) (ecc : EccAt) (s : State), Yields (.max e t ecc) s (s.issue e t ecc 15 (aluR (fun a b _ _ => if a.slt b then b else a)))) ∧
  (∀ (e : Fin 16) (t : Fin 4) (ecc : EccAt) (s : State), Yields (.minu e t ecc) s (s.issue e t ecc 16 (aluR (fun a b _ _ => if a.ult b then a else b)))) ∧
  (∀ (e : Fin 16) (t : Fin 4) (ecc : EccAt) (s : State), Yields (.maxu e t ecc) s (s.issue e t ecc 17 (aluR (fun a b _ _ => if a.ult b then b else a)))) ∧
  (∀ (e : Fin 16) (t : Fin 4) (ecc : EccAt) (s : State), Yields (.sel e t ecc) s (s.issue e t ecc 18 (aluR (fun a b d _ => if d = 0 then b else a)))) ∧
  (∀ (e : Fin 16) (t : Fin 4) (ecc : EccAt) (s : State), Yields (.ceq e t ecc) s (s.issue e t ecc 32 (aluR (fun a b _ _ => flagW (a == b))))) ∧
  (∀ (e : Fin 16) (t : Fin 4) (ecc : EccAt) (s : State), Yields (.cne e t ecc) s (s.issue e t ecc 33 (aluR (fun a b _ _ => flagW (a != b))))) ∧
  (∀ (e : Fin 16) (t : Fin 4) (ecc : EccAt) (s : State), Yields (.clt e t ecc) s (s.issue e t ecc 34 (aluR (fun a b _ _ => flagW (a.slt b))))) ∧
  (∀ (e : Fin 16) (t : Fin 4) (ecc : EccAt) (s : State), Yields (.cltu e t ecc) s (s.issue e t ecc 35 (aluR (fun a b _ _ => flagW (a.ult b))))) ∧
  (∀ (e : Fin 16) (t : Fin 4) (ecc : EccAt) (s : State), Yields (.cle e t ecc) s (s.issue e t ecc 36 (aluR (fun a b _ _ => flagW (a.sle b))))) ∧
  (∀ (e : Fin 16) (t : Fin 4) (ecc : EccAt) (s : State), Yields (.cleu e t ecc) s (s.issue e t ecc 37 (aluR (fun a b _ _ => flagW (a.ule b)))))

/-- Each instruction of opcodes 1 and 2 puts its result in rd and goes on at the next index: halves of products, quotients and remainders with their results for rb = 0 and for the overflow, byte reversals, counts of leading zeros and of ones, extracted and inserted fields, one byte of a reflected CRC. Every command named here completes, from every state and with all operands: the last clauses give the operation that is its own effect. -/
def Obligations.MulDivAndBitInstructions : Prop :=
  Alu Instr.mulC 1 0x00 (fun a b _ _ => w32 (a.toNat * b.toNat % 2 ^ 32)) ∧
  Alu Instr.mulh 1 0x01 (fun a b _ _ => w32 (uns 32 (a.toInt * b.toInt / (2 ^ 32 : Nat)))) ∧
  Alu Instr.mulhu 1 0x02 (fun a b _ _ => w32 (a.toNat * b.toNat / 2 ^ 32)) ∧
  Alu Instr.mulhsu 1 0x03 (fun a b _ _ => w32 (uns 32 (a.toInt * b.toNat / (2 ^ 32 : Nat)))) ∧
  Alu Instr.divC 1 0x04 (fun a b _ _ => if b.toNat = 0 then 0xFFFFFFFF#32 else if a = 0x80000000#32 ∧ b.toInt = -1 then 0x80000000#32 else w32 (uns 32 (a.toInt.tdiv b.toInt))) ∧
  Alu Instr.divu 1 0x05 (fun a b _ _ => if b.toNat = 0 then 0xFFFFFFFF#32 else w32 (a.toNat / b.toNat)) ∧
  Alu Instr.rem 1 0x06 (fun a b _ _ => if b.toNat = 0 then a else if a = 0x80000000#32 ∧ b.toInt = -1 then 0#32 else w32 (uns 32 (a.toInt - b.toInt * a.toInt.tdiv b.toInt))) ∧
  Alu Instr.remu 1 0x07 (fun a b _ _ => if b.toNat = 0 then a else w32 (a.toNat % b.toNat)) ∧
  Alu Instr.bswap 2 0x00 (fun a _ _ _ => w32 (bits a 7 0 * 2 ^ 24 + bits a 15 8 * 2 ^ 16 + bits a 23 16 * 2 ^ 8 + bits a 31 24)) ∧
  Alu Instr.bswaph 2 0x01 (fun a _ _ _ => w32 (bits a 23 16 * 2 ^ 24 + bits a 31 24 * 2 ^ 16 + bits a 7 0 * 2 ^ 8 + bits a 15 8)) ∧
  Alu Instr.clz 2 0x02 (fun a _ _ _ => w32 (if a.toNat = 0 then 32 else 31 - a.toNat.log2)) ∧
  Alu Instr.popc 2 0x03 (fun a _ _ _ => w32 ((List.range 32).countP (fun i => a.getLsbD i))) ∧
  Alu Instr.extu 2 0x04 (fun a _ _ w => w32 (a.toNat / 2 ^ bits w 10 6 % 2 ^ (bits w 15 11 + 1))) ∧
  Alu Instr.exts 2 0x05 (fun a _ _ w => w32 (uns 32 (sgn (bits w 15 11 + 1) (a.toNat / 2 ^ bits w 10 6)))) ∧
  Alu Instr.ins 2 0x06 (fun a _ d w => setBits d (min 31 (bits w 10 6 + bits w 15 11)) (bits w 10 6) a.toNat) ∧
  Alu Instr.crcb 2 0x07 (fun a b d _ => w32 (Nat.repeat (fun r => (r / 2) ^^^ (if r % 2 = 1 then b.toNat else 0)) 8 (d.toNat ^^^ (a.toNat % 256)))) ∧
  (∀ (e : Fin 16) (t : Fin 4) (ecc : EccAt) (s : State), Yields (.mulC e t ecc) s (s.issue e t ecc 64 (aluR (fun a b _ _ => a * b)))) ∧
  (∀ (e : Fin 16) (t : Fin 4) (ecc : EccAt) (s : State), Yields (.mulh e t ecc) s (s.issue e t ecc 65 (aluR (fun a b _ _ => mulHi a.toInt b.toInt)))) ∧
  (∀ (e : Fin 16) (t : Fin 4) (ecc : EccAt) (s : State), Yields (.mulhu e t ecc) s (s.issue e t ecc 66 (aluR (fun a b _ _ => mulHi a.toNat b.toNat)))) ∧
  (∀ (e : Fin 16) (t : Fin 4) (ecc : EccAt) (s : State), Yields (.mulhsu e t ecc) s (s.issue e t ecc 67 (aluR (fun a b _ _ => mulHi a.toInt b.toNat)))) ∧
  (∀ (e : Fin 16) (t : Fin 4) (ecc : EccAt) (s : State), Yields (.divC e t ecc) s (s.issue e t ecc 68 (aluR (fun a b _ _ => divS a b)))) ∧
  (∀ (e : Fin 16) (t : Fin 4) (ecc : EccAt) (s : State), Yields (.divu e t ecc) s (s.issue e t ecc 69 (aluR (fun a b _ _ => divU a b)))) ∧
  (∀ (e : Fin 16) (t : Fin 4) (ecc : EccAt) (s : State), Yields (.rem e t ecc) s (s.issue e t ecc 70 (aluR (fun a b _ _ => remS a b)))) ∧
  (∀ (e : Fin 16) (t : Fin 4) (ecc : EccAt) (s : State), Yields (.remu e t ecc) s (s.issue e t ecc 71 (aluR (fun a b _ _ => remU a b)))) ∧
  (∀ (e : Fin 16) (t : Fin 4) (ecc : EccAt) (s : State), Yields (.bswap e t ecc) s (s.issue e t ecc 128 (aluR (fun a _ _ _ => bswap a)))) ∧
  (∀ (e : Fin 16) (t : Fin 4) (ecc : EccAt) (s : State), Yields (.bswaph e t ecc) s (s.issue e t ecc 129 (aluR (fun a _ _ _ => bswapH a)))) ∧
  (∀ (e : Fin 16) (t : Fin 4) (ecc : EccAt) (s : State), Yields (.clz e t ecc) s (s.issue e t ecc 130 (aluR (fun a _ _ _ => w32 (clz32 a))))) ∧
  (∀ (e : Fin 16) (t : Fin 4) (ecc : EccAt) (s : State), Yields (.popc e t ecc) s (s.issue e t ecc 131 (aluR (fun a _ _ _ => w32 (popc32 a))))) ∧
  (∀ (e : Fin 16) (t : Fin 4) (ecc : EccAt) (s : State), Yields (.extu e t ecc) s (s.issue e t ecc 132 (aluR (fun a _ _ w => extU a w)))) ∧
  (∀ (e : Fin 16) (t : Fin 4) (ecc : EccAt) (s : State), Yields (.exts e t ecc) s (s.issue e t ecc 133 (aluR (fun a _ _ w => extS a w)))) ∧
  (∀ (e : Fin 16) (t : Fin 4) (ecc : EccAt) (s : State), Yields (.ins e t ecc) s (s.issue e t ecc 134 (aluR (fun a _ d w => insW a d w)))) ∧
  (∀ (e : Fin 16) (t : Fin 4) (ecc : EccAt) (s : State), Yields (.crcb e t ecc) s (s.issue e t ecc 135 (aluR (fun a b d _ => crcb a b d))))

/-- ADDI, ANDI, ORI, XORI, CEQI, CLTI, CLTUI and LUI put their result of ra and imm16, sign-extended or zero-extended as the table says, in rd and go on at the next index. Nothing else changes. Every command named here completes, from every state and with all operands: the last clauses give the operation that is its own effect. -/
def Obligations.ImmediateInstructions : Prop :=
  Imm Instr.addi 0x08 (fun a w => w32 (uns 32 (a.toNat + simm w))) ∧
  Imm Instr.andi 0x09 (fun a w => w32 (a.toNat &&& bits w 15 0)) ∧
  Imm Instr.ori 0x0A (fun a w => w32 (a.toNat ||| bits w 15 0)) ∧
  Imm Instr.xori 0x0B (fun a w => w32 (a.toNat ^^^ bits w 15 0)) ∧
  Imm Instr.ceqi 0x0C (fun a w => if a.toInt = simm w then 1#32 else 0#32) ∧
  Imm Instr.clti 0x0D (fun a w => if a.toInt < simm w then 1#32 else 0#32) ∧
  Imm Instr.cltui 0x0E (fun a w => if a.toNat < uns 32 (simm w) then 1#32 else 0#32) ∧
  Imm Instr.lui 0x0F (fun _ w => w32 (bits w 15 0 * 2 ^ 16)) ∧
  (∀ (e : Fin 16) (t : Fin 4) (ecc : EccAt) (s : State), Yields (.addi e t ecc) s (s.issue e t ecc (64 * 8) (aluI (fun a w => a + insSx w)))) ∧
  (∀ (e : Fin 16) (t : Fin 4) (ecc : EccAt) (s : State), Yields (.andi e t ecc) s (s.issue e t ecc (64 * 9) (aluI (fun a w => a &&& insZx w)))) ∧
  (∀ (e : Fin 16) (t : Fin 4) (ecc : EccAt) (s : State), Yields (.ori e t ecc) s (s.issue e t ecc (64 * 10) (aluI (fun a w => a ||| insZx w)))) ∧
  (∀ (e : Fin 16) (t : Fin 4) (ecc : EccAt) (s : State), Yields (.xori e t ecc) s (s.issue e t ecc (64 * 11) (aluI (fun a w => a ^^^ insZx w)))) ∧
  (∀ (e : Fin 16) (t : Fin 4) (ecc : EccAt) (s : State), Yields (.ceqi e t ecc) s (s.issue e t ecc (64 * 12) (aluI (fun a w => flagW (a == insSx w))))) ∧
  (∀ (e : Fin 16) (t : Fin 4) (ecc : EccAt) (s : State), Yields (.clti e t ecc) s (s.issue e t ecc (64 * 13) (aluI (fun a w => flagW (a.slt (insSx w)))))) ∧
  (∀ (e : Fin 16) (t : Fin 4) (ecc : EccAt) (s : State), Yields (.cltui e t ecc) s (s.issue e t ecc (64 * 14) (aluI (fun a w => flagW (a.ult (insSx w)))))) ∧
  (∀ (e : Fin 16) (t : Fin 4) (ecc : EccAt) (s : State), Yields (.lui e t ecc) s (s.issue e t ecc (64 * 15) (aluI (fun _ w => insZx w <<< 16))))

/-- At an aligned address of D space a load has its little-endian value, extended as its name says, on its way to rd; a store writes the low bytes of rd there and no other byte; an ATOM instruction does both, with the old word to rd and the new word at D[ra]; LDP and STP use ra as the address and advance it by sx(imm16); LDI and STI read and write a word of instruction memory. A load's value takes three instructions to land; everything else is in place at once. Every command named here completes, from every state and with all operands: the last clauses give the operation that is its own effect. -/
def Obligations.DataMemoryInstructions : Prop :=
  Load Instr.ldb 0x10 1 (fun n => w32 (uns 32 (sgn 8 n))) ∧
  Load Instr.ldbu 0x11 1 (fun n => w32 n) ∧
  Load Instr.ldh 0x12 2 (fun n => w32 (uns 32 (sgn 16 n))) ∧
  Load Instr.ldhu 0x13 2 (fun n => w32 n) ∧
  Load Instr.ld 0x14 4 (fun n => w32 n) ∧
  Store Instr.stb 0x15 1 ∧
  Store Instr.sth 0x16 2 ∧
  Store Instr.st 0x17 4 ∧
  Atom Instr.xchg 0x00 (fun _ b => b) ∧
  Atom Instr.fadd 0x01 (fun o b => w32 (o.toNat + b.toNat)) ∧
  Atom Instr.fand 0x02 (fun o b => w32 (o.toNat &&& b.toNat)) ∧
  Atom Instr.forC 0x03 (fun o b => w32 (o.toNat ||| b.toNat)) ∧
  (∀ (e : Fin 16) (t : Fin 4) (w : Word) (x : Thr) (a : Nat) (s : State),
      s.fetches e t w = true →
      bits w 31 26 = 0x28 →
      x = (s.thr e t).tickLoads →
      a = (x.g (bits w 20 16)).toNat →
      (a % 4 = 0 ∧ a ≤ 131071) →
      Thread (.ldp e t .none_) s e t (((x.awaits (bits w 25 21) (w32 (s.dNum e a 4))).setG (bits w 20 16) (w32 (uns 32 (a + simm w)))).goes (x.pc + 1))) ∧
  (∀ (e : Fin 16) (t : Fin 4) (w : Word) (x : Thr) (a : Nat) (s : State),
      s.fetches e t w = true →
      bits w 31 26 = 0x29 →
      x = (s.thr e t).tickLoads →
      a = (x.g (bits w 20 16)).toNat →
      (a % 4 = 0 ∧ a ≤ 131071) →
      ThreadM (.stp e t .none_) s e t ((x.setG (bits w 20 16) (w32 (uns 32 (a + simm w)))).goes (x.pc + 1)) (s.dPut e a 4 (x.g (bits w 25 21))) (s.iWord e)) ∧
  (∀ (e : Fin 16) (t : Fin 4) (w : Word) (x : Thr) (s : State),
      s.fetches e t w = true →
      bits w 31 26 = 0x18 →
      x = (s.thr e t).tickLoads →
      x.addr w < 16384 →
      Thread (.ldi e t .none_) s e t ((x.awaits (bits w 25 21) (s.iWord e (x.addr w))).goes (x.pc + 1))) ∧
  (∀ (e : Fin 16) (t : Fin 4) (w : Word) (x : Thr) (s : State),
      s.fetches e t w = true →
      bits w 31 26 = 0x19 →
      x = (s.thr e t).tickLoads →
      x.addr w < 16384 →
      ThreadM (.sti e t .none_) s e t (x.goes (x.pc + 1)) (s.dByte e) ((fun k => if k = x.addr w then x.g (bits w 25 21) else s.iWord e k))) ∧
  (∀ (e : Fin 16) (t : Fin 4) (ecc : EccAt) (s : State), Yields (.xchg e t ecc) s (s.issue e t ecc 192 (atom (fun _ b => b)))) ∧
  (∀ (e : Fin 16) (t : Fin 4) (ecc : EccAt) (s : State), Yields (.fadd e t ecc) s (s.issue e t ecc 193 (atom (fun o b => o + b)))) ∧
  (∀ (e : Fin 16) (t : Fin 4) (ecc : EccAt) (s : State), Yields (.fand e t ecc) s (s.issue e t ecc 194 (atom (fun o b => o &&& b)))) ∧
  (∀ (e : Fin 16) (t : Fin 4) (ecc : EccAt) (s : State), Yields (.forC e t ecc) s (s.issue e t ecc 195 (atom (fun o b => o ||| b)))) ∧
  (∀ (e : Fin 16) (t : Fin 4) (ecc : EccAt) (s : State), Yields (.ldb e t ecc) s (s.issue e t ecc (64 * 16) (loadD 1 true))) ∧
  (∀ (e : Fin 16) (t : Fin 4) (ecc : EccAt) (s : State), Yields (.ldbu e t ecc) s (s.issue e t ecc (64 * 17) (loadD 1 false))) ∧
  (∀ (e : Fin 16) (t : Fin 4) (ecc : EccAt) (s : State), Yields (.ldh e t ecc) s (s.issue e t ecc (64 * 18) (loadD 2 true))) ∧
  (∀ (e : Fin 16) (t : Fin 4) (ecc : EccAt) (s : State), Yields (.ldhu e t ecc) s (s.issue e t ecc (64 * 19) (loadD 2 false))) ∧
  (∀ (e : Fin 16) (t : Fin 4) (ecc : EccAt) (s : State), Yields (.ld e t ecc) s (s.issue e t ecc (64 * 20) (loadD 4 false))) ∧
  (∀ (e : Fin 16) (t : Fin 4) (ecc : EccAt) (s : State), Yields (.stb e t ecc) s (s.issue e t ecc (64 * 21) (storeD 1))) ∧
  (∀ (e : Fin 16) (t : Fin 4) (ecc : EccAt) (s : State), Yields (.sth e t ecc) s (s.issue e t ecc (64 * 22) (storeD 2))) ∧
  (∀ (e : Fin 16) (t : Fin 4) (ecc : EccAt) (s : State), Yields (.st e t ecc) s (s.issue e t ecc (64 * 23) (storeD 4))) ∧
  (∀ (e : Fin 16) (t : Fin 4) (ecc : EccAt) (s : State), Yields (.ldi e t ecc) s (s.issue e t ecc (64 * 24) loadI)) ∧
  (∀ (e : Fin 16) (t : Fin 4) (ecc : EccAt) (s : State), Yields (.sti e t ecc) s (s.issue e t ecc (64 * 25) storeI)) ∧
  (∀ (e : Fin 16) (t : Fin 4) (ecc : EccAt) (s : State), Yields (.ldp e t ecc) s (s.issue e t ecc (64 * 40) loadPost)) ∧
  (∀ (e : Fin 16) (t : Fin 4) (ecc : EccAt) (s : State), Yields (.stp e t ecc) s (s.issue e t ecc (64 * 41) storePost))

/-- A read of port space with an address below 4,096 has what the port read gives on its way to rd and goes on; a write that the port takes goes on; INP and OUTP use ra as the address and advance it; where the port holds the access back the thread stalls at the same index with its registers as they were. The header region of the port space reads back what was written to it. Every command named here completes, from every state and with all operands: the last clauses give the operation that is its own effect. -/
def Obligations.PortInstructions : Prop :=
  PortIn Instr.inb 0x1A 1 ∧
  PortIn Instr.inh 0x1B 2 ∧
  PortIn Instr.inC 0x1C 4 ∧
  PortOut Instr.outb 0x1D 1 ∧
  PortOut Instr.outh 0x1E 2 ∧
  PortOut Instr.out 0x1F 4 ∧
  (∀ (e : Fin 16) (t : Fin 4) (w : Word) (v : Word) (x : Thr) (s s1 : State),
      s.fetches e t w = true →
      bits w 31 26 = 0x2A →
      x = (s.thr e t).tickLoads →
      (x.g (bits w 20 16)).toNat ≤ 4095 →
      (s.setThr e t x).portRead e t (x.g (bits w 20 16)).toNat 4 false = (s1, some v) →
      ((s1.thr e t).run = true ∧ (s1.thr e t).rep = none) →
      Leaves (.inp e t .none_) s (fun u => u.thr e t = (((s1.thr e t).awaits (bits w 25 21) v).setG (bits w 20 16) (w32 (uns 32 ((x.g (bits w 20 16)).toNat + simm w)))).goes ((s1.thr e t).pc + 1) ∧ u.raises = s1.raises)) ∧
  (∀ (e : Fin 16) (t : Fin 4) (w : Word) (x : Thr) (s s1 : State),
      s.fetches e t w = true →
      bits w 31 26 = 0x2B →
      x = (s.thr e t).tickLoads →
      (x.g (bits w 20 16)).toNat ≤ 4095 →
      (s.setThr e t x).portWrite e t (x.g (bits w 20 16)).toNat 4 (x.g (bits w 25 21)) false = (s1, true) →
      ((s1.thr e t).run = true ∧ (s1.thr e t).rep = none) →
      Leaves (.outp e t .none_) s (fun u => u.thr e t = ((s1.thr e t).setG (bits w 20 16) (w32 (uns 32 ((x.g (bits w 20 16)).toNat + simm w)))).goes ((s1.thr e t).pc + 1) ∧ u.raises = s1.raises)) ∧
  (∀ (e : Fin 16) (t : Fin 4) (w : Word) (x : Thr) (s : State),
      s.fetches e t w = true →
      bits w 31 26 = 0x1C →
      x = (s.thr e t).tickLoads →
      x.addr w = 0x604 →
      Thread (.inC e t .none_) s e t ({ s.thr e t with stall := some (.instr w true), since := s.time.now })) ∧
  (∀ (e : Fin 16) (t : Fin 4) (w : Word) (x : Thr) (s : State),
      s.fetches e t w = true →
      bits w 31 26 = 0x1F →
      x = (s.thr e t).tickLoads →
      (0x200 ≤ x.addr w ∧ x.addr w < 0x300 ∧ x.addr w % 4 = 0) →
      Leaves (.out e t .none_) s (fun u => (u.portRead e t (x.addr w) 4 false).2 = some (x.g (bits w 25 21)) ∧ u.raises = s.raises)) ∧
  (∀ (e : Fin 16) (t : Fin 4) (ecc : EccAt) (s : State), Yields (.inb e t ecc) s (s.issue e t ecc (64 * 26) (inP 1))) ∧
  (∀ (e : Fin 16) (t : Fin 4) (ecc : EccAt) (s : State), Yields (.inh e t ecc) s (s.issue e t ecc (64 * 27) (inP 2))) ∧
  (∀ (e : Fin 16) (t : Fin 4) (ecc : EccAt) (s : State), Yields (.inC e t ecc) s (s.issue e t ecc (64 * 28) (inP 4))) ∧
  (∀ (e : Fin 16) (t : Fin 4) (ecc : EccAt) (s : State), Yields (.outb e t ecc) s (s.issue e t ecc (64 * 29) (outP 1))) ∧
  (∀ (e : Fin 16) (t : Fin 4) (ecc : EccAt) (s : State), Yields (.outh e t ecc) s (s.issue e t ecc (64 * 30) (outP 2))) ∧
  (∀ (e : Fin 16) (t : Fin 4) (ecc : EccAt) (s : State), Yields (.out e t ecc) s (s.issue e t ecc (64 * 31) (outP 4))) ∧
  (∀ (e : Fin 16) (t : Fin 4) (ecc : EccAt) (s : State), Yields (.inp e t ecc) s (s.issue e t ecc (64 * 42) inPost)) ∧
  (∀ (e : Fin 16) (t : Fin 4) (ecc : EccAt) (s : State), Yields (.outp e t ecc) s (s.issue e t ecc (64 * 43) outPost))

/-- BZ and BNZ branch on ra, DBNZ decrements rd and branches where the new value is not 0, by sx(imm16) from the next index; J and CALL take imm26 and JR and CALLR take ra as the index; a call pushes the next index, a return pops it. No register but DBNZ's rd changes. A branch whose target lies outside the memory, a jump or call to 16,384 and above, a call at depth 32 and a return at depth 0 trap and do nothing else. The model's choice: log 90. Every command named here completes, from every state and with all operands: the last clauses give the operation that is its own effect. -/
def Obligations.ControlTransfers : Prop :=
  Branch Instr.bz 0x20 (fun a => decide (a.toNat = 0)) ∧
  Branch Instr.bnz 0x21 (fun a => decide (a.toNat ≠ 0)) ∧
  (∀ (e : Fin 16) (t : Fin 4) (w v : Word) (x : Thr) (s : State),
      s.fetches e t w = true →
      bits w 31 26 = 0x27 →
      x = (s.thr e t).tickLoads →
      v = w32 (uns 32 ((x.g (bits w 25 21)).toNat - 1)) →
      ((bits w 25 21 = 0 ∨ v.toNat = 0)) →
      Thread (.dbnz e t .none_) s e t ((x.setG (bits w 25 21) v).goes (x.pc + 1))) ∧
  (∀ (e : Fin 16) (t : Fin 4) (w v : Word) (x : Thr) (q : Int) (s : State),
      s.fetches e t w = true →
      bits w 31 26 = 0x27 →
      x = (s.thr e t).tickLoads →
      v = w32 (uns 32 ((x.g (bits w 25 21)).toNat - 1)) →
      (bits w 25 21 ≠ 0 ∧ v.toNat ≠ 0) →
      q = x.pc + 1 + simm w →
      (0 ≤ q ∧ q < 16384) →
      Thread (.dbnz e t .none_) s e t ({ (x.setG (bits w 25 21) v).goes q.toNat with rcNext := none })) ∧
  (∀ (e : Fin 16) (t : Fin 4) (w : Word) (x : Thr) (s : State),
      s.fetches e t w = true →
      bits w 31 26 = 0x22 →
      x = (s.thr e t).tickLoads →
      bits w 25 0 < 16384 →
      Thread (.j e t .none_) s e t ({ x.goes (bits w 25 0) with rcNext := none })) ∧
  (∀ (e : Fin 16) (t : Fin 4) (w : Word) (x : Thr) (s : State),
      s.fetches e t w = true →
      bits w 31 26 = 0x24 →
      x = (s.thr e t).tickLoads →
      (x.g (bits w 20 16)).toNat < 16384 →
      Thread (.jr e t .none_) s e t ({ x.goes (x.g (bits w 20 16)).toNat with rcNext := none })) ∧
  (∀ (e : Fin 16) (t : Fin 4) (w : Word) (x : Thr) (s : State),
      s.fetches e t w = true →
      bits w 31 26 = 0x23 →
      x = (s.thr e t).tickLoads →
      bits w 25 0 < 16384 →
      x.rs.length < 32 →
      Thread (.call e t .none_) s e t ({ x.goes (bits w 25 0) with rcNext := none, rs := (x.pc + 1) % 16384 :: x.rs })) ∧
  (∀ (e : Fin 16) (t : Fin 4) (w : Word) (x : Thr) (s : State),
      s.fetches e t w = true →
      bits w 31 26 = 0x25 →
      x = (s.thr e t).tickLoads →
      (x.g (bits w 20 16)).toNat < 16384 →
      x.rs.length < 32 →
      Thread (.callr e t .none_) s e t ({ x.goes (x.g (bits w 20 16)).toNat with rcNext := none, rs := (x.pc + 1) % 16384 :: x.rs })) ∧
  (∀ (e : Fin 16) (t : Fin 4) (w : Word) (x : Thr) (p : Nat) (l : List Nat) (s : State),
      s.fetches e t w = true →
      bits w 31 26 = 0x26 →
      x = (s.thr e t).tickLoads →
      x.rs = p :: l →
      Thread (.ret e t .none_) s e t ({ x.goes p with rcNext := none, rs := l })) ∧
  (∀ (e : Fin 16) (t : Fin 4) (w : Word) (s : State),
      s.fetches e t w = true →
      bits w 31 26 = 0x22 →
      16384 ≤ bits w 25 0 →
      (s.thr e t).handler = false →
      Thread (.j e t .none_) s e t ((s.thr e t).trapped 2 (s.thr e t).pc (w32 (bits w 25 0)))) ∧
  (∀ (e : Fin 16) (t : Fin 4) (w : Word) (q : Int) (s : State),
      s.fetches e t w = true →
      bits w 31 26 = 0x20 →
      ((s.thr e t).tickLoads.g (bits w 20 16)).toNat = 0 →
      q = (s.thr e t).pc + 1 + simm w →
      ((q < 0 ∨ 16384 ≤ q)) →
      (s.thr e t).handler = false →
      Thread (.bz e t .none_) s e t ((s.thr e t).trapped 2 (s.thr e t).pc (w32 (uns 32 q)))) ∧
  (∀ (e : Fin 16) (t : Fin 4) (w : Word) (s : State),
      s.fetches e t w = true →
      bits w 31 26 = 0x23 →
      bits w 25 0 < 16384 →
      (s.thr e t).rs.length = 32 →
      (s.thr e t).handler = false →
      Thread (.call e t .none_) s e t ((s.thr e t).trapped 6 (s.thr e t).pc (w32 (bits w 25 0)))) ∧
  (∀ (e : Fin 16) (t : Fin 4) (w : Word) (s : State),
      s.fetches e t w = true →
      bits w 31 26 = 0x26 →
      (s.thr e t).rs = [] →
      (s.thr e t).handler = false →
      Thread (.ret e t .none_) s e t ((s.thr e t).trapped 7 (s.thr e t).pc 0)) ∧
  (∀ (e : Fin 16) (t : Fin 4) (w : Word) (s : State),
      s.fetches e t w = true →
      bits w 31 26 = 0x23 →
      16384 ≤ bits w 25 0 →
      (s.thr e t).handler = false →
      Thread (.call e t .none_) s e t ((s.thr e t).trapped 2 (s.thr e t).pc (w32 (bits w 25 0)))) ∧
  (∀ (e : Fin 16) (t : Fin 4) (w : Word) (s : State),
      s.fetches e t w = true →
      bits w 31 26 = 0x24 →
      16384 ≤ ((s.thr e t).tickLoads.g (bits w 20 16)).toNat →
      (s.thr e t).handler = false →
      Thread (.jr e t .none_) s e t ((s.thr e t).trapped 2 (s.thr e t).pc ((s.thr e t).tickLoads.g (bits w 20 16)))) ∧
  (∀ (e : Fin 16) (t : Fin 4) (w : Word) (s : State),
      s.fetches e t w = true →
      bits w 31 26 = 0x25 →
      16384 ≤ ((s.thr e t).tickLoads.g (bits w 20 16)).toNat →
      (s.thr e t).handler = false →
      Thread (.callr e t .none_) s e t ((s.thr e t).trapped 2 (s.thr e t).pc ((s.thr e t).tickLoads.g (bits w 20 16)))) ∧
  (∀ (e : Fin 16) (t : Fin 4) (w : Word) (s : State),
      s.fetches e t w = true →
      bits w 31 26 = 0x25 →
      ((s.thr e t).tickLoads.g (bits w 20 16)).toNat < 16384 →
      (s.thr e t).rs.length = 32 →
      (s.thr e t).handler = false →
      Thread (.callr e t .none_) s e t ((s.thr e t).trapped 6 (s.thr e t).pc (w32 ((s.thr e t).tickLoads.g (bits w 20 16)).toNat))) ∧
  (∀ (e : Fin 16) (t : Fin 4) (w : Word) (q : Int) (s : State),
      s.fetches e t w = true →
      bits w 31 26 = 0x21 →
      ((s.thr e t).tickLoads.g (bits w 20 16)).toNat ≠ 0 →
      q = (s.thr e t).pc + 1 + simm w →
      ((q < 0 ∨ 16384 ≤ q)) →
      (s.thr e t).handler = false →
      Thread (.bnz e t .none_) s e t ((s.thr e t).trapped 2 (s.thr e t).pc (w32 (uns 32 q)))) ∧
  (∀ (e : Fin 16) (t : Fin 4) (w : Word) (q : Int) (s : State),
      s.fetches e t w = true →
      bits w 31 26 = 0x27 →
      bits w 25 21 ≠ 0 →
      ((s.thr e t).tickLoads.g (bits w 25 21)).toNat ≠ 1 →
      q = (s.thr e t).pc + 1 + simm w →
      ((q < 0 ∨ 16384 ≤ q)) →
      (s.thr e t).handler = false →
      Thread (.dbnz e t .none_) s e t ((s.thr e t).trapped 2 (s.thr e t).pc (w32 (uns 32 q)))) ∧
  (∀ (e : Fin 16) (t : Fin 4) (ecc : EccAt) (s : State), Yields (.bz e t ecc) s (s.issue e t ecc (64 * 32) (branchIf (fun a => a == 0)))) ∧
  (∀ (e : Fin 16) (t : Fin 4) (ecc : EccAt) (s : State), Yields (.bnz e t ecc) s (s.issue e t ecc (64 * 33) (branchIf (fun a => a != 0)))) ∧
  (∀ (e : Fin 16) (t : Fin 4) (ecc : EccAt) (s : State), Yields (.j e t ecc) s (s.issue e t ecc (64 * 34) jumpI)) ∧
  (∀ (e : Fin 16) (t : Fin 4) (ecc : EccAt) (s : State), Yields (.call e t ecc) s (s.issue e t ecc (64 * 35) callI)) ∧
  (∀ (e : Fin 16) (t : Fin 4) (ecc : EccAt) (s : State), Yields (.jr e t ecc) s (s.issue e t ecc (64 * 36) jumpR)) ∧
  (∀ (e : Fin 16) (t : Fin 4) (ecc : EccAt) (s : State), Yields (.callr e t ecc) s (s.issue e t ecc (64 * 37) callReg)) ∧
  (∀ (e : Fin 16) (t : Fin 4) (ecc : EccAt) (s : State), Yields (.ret e t ecc) s (s.issue e t ecc (64 * 38) retI)) ∧
  (∀ (e : Fin 16) (t : Fin 4) (ecc : EccAt) (s : State), Yields (.dbnz e t ecc) s (s.issue e t ecc (64 * 39) dbnz))

/-- MFS brings a special register to rd, rsb losing its oldest entry; MTS writes a writable one; SNAP latches ts and tsf; TRAP enters the handler with SWTRAP and the index after it; a reserved encoding traps ILLEGAL with its word; RETT leaves the handler at epc, with the repetitions and the micro-op that ecause and erc give; a prefix latches its count and the word that follows, and skips it where the count is 0. The model's choices: log 88 (the prefix fetches the word it repeats), log 91 (CYC follows the engine's release). Every command named here completes, from every state and with all operands: the last clauses give the operation that is its own effect. -/
def Obligations.SpecialAndTrapInstructions : Prop :=
  (∀ (e : Fin 16) (t : Fin 4) (w : Word) (x : Thr) (s : State),
      s.fetches e t w = true →
      (bits w 31 26 = 4 ∧ bits w 5 0 = 0) →
      x = (s.thr e t).tickLoads →
      bits w 20 16 ≠ 13 →
      Thread (.mfs e t .none_) s e t ((x.setG (bits w 25 21) (s.specialOf e t (bits w 20 16))).goes (x.pc + 1))) ∧
  (∀ (e : Fin 16) (t : Fin 4) (w : Word) (x : Thr) (s : State),
      s.fetches e t w = true →
      (bits w 31 26 = 4 ∧ bits w 5 0 = 0) →
      x = (s.thr e t).tickLoads →
      bits w 20 16 = 13 →
      Thread (.mfs e t .none_) s e t (({ x with rs := x.rs.dropLast }.setG (bits w 25 21) (w32 (x.rs.getLastD 0))).goes (x.pc + 1))) ∧
  (∀ (e : Fin 16) (t : Fin 4) (w : Word) (i : Nat) (v : Word) (x : Thr) (s : State),
      s.fetches e t w = true →
      (bits w 31 26 = 4 ∧ bits w 5 0 = 1) →
      x = (s.thr e t).tickLoads →
      (i = bits w 25 21 ∧ v = x.g (bits w 20 16)) →
      Thread (.mts e t .none_) s e t ({ x with rc := if i = 0 then v else x.rc, epc := if i = 8 then v else x.epc, ecause := if i = 9 then w32 (bits v 13 0) else x.ecause, eval := if i = 10 then v else x.eval, erc := if i = 11 then v else x.erc, rs := if i = 13 ∧ x.rs.length < 32 then x.rs ++ [bits v 13 0] else x.rs, pc := x.pc + 1, uop := none })) ∧
  (∀ (e : Fin 16) (t : Fin 4) (w : Word) (x : Thr) (s : State),
      s.fetches e t w = true →
      (bits w 31 26 = 4 ∧ bits w 5 0 = 2) →
      x = (s.thr e t).tickLoads →
      Thread (.snap e t .none_) s e t ({ x.goes (x.pc + 1) with ts := s.cyc0, tsf := s.fld (TIME_DOM_FRAC_FRAC 0) / 8192 })) ∧
  (∀ (e : Fin 16) (t : Fin 4) (w : Word) (s : State),
      s.fetches e t w = true →
      (bits w 31 26 = 4 ∧ bits w 5 0 = 3) →
      (s.thr e t).handler = false →
      Thread (.trap e t .none_) s e t ((s.thr e t).trapped 8 ((s.thr e t).pc + 1) (w32 (bits w 10 6)))) ∧
  (∀ (e : Fin 16) (t : Fin 4) (w : Word) (s : State),
      s.fetches e t w = true →
      ((bits w 31 26 ∈ [5, 6, 7, 0x2C, 0x30, 0x3D] ∨ (bits w 31 26 = 0 ∧ 0x26 ≤ bits w 5 0) ∨ (bits w 31 26 = 0 ∧ 0x12 < bits w 5 0 ∧ bits w 5 0 < 0x20) ∨ ((bits w 31 26 = 1 ∨ bits w 31 26 = 2) ∧ 7 < bits w 5 0) ∨ (bits w 31 26 = 3 ∧ 3 < bits w 5 0) ∨ (bits w 31 26 = 4 ∧ 4 < bits w 5 0) ∨ (bits w 31 26 = 0x3F ∧ 1 < bits w 25 21))) →
      (s.thr e t).handler = false →
      Thread (.illegalInstruction e t .none_) s e t ((s.thr e t).trapped 1 (s.thr e t).pc w)) ∧
  (∀ (e : Fin 16) (t : Fin 4) (w : Word) (x : Thr) (s : State),
      s.fetches e t w = true →
      (bits w 31 26 = 4 ∧ bits w 5 0 = 4) →
      x = (s.thr e t).landAll →
      x.handler = true →
      (x.ecause.getLsbD 8 = false ∧ x.ecause.getLsbD 13 = false) →
      Thread (.rett e t .none_) s e t ({ x with handler := false, ecause := setBits (setBits x.ecause 8 8 0) 12 12 (bits x.ecause 12 12), pc := x.epc.toNat, rep := none, rcNext := none, uop := none })) ∧
  (∀ (e : Fin 16) (t : Fin 4) (w : Word) (x : Thr) (s : State),
      s.fetches e t w = true →
      (bits w 31 26 = 4 ∧ bits w 5 0 = 4) →
      x = (s.thr e t).landAll →
      x.handler = true →
      (x.ecause.getLsbD 8 = true ∧ x.ecause.getLsbD 13 = true ∧ x.erc ≠ 0) →
      Thread (.rett e t .none_) s e t ({ x with handler := false, ecause := setBits (setBits x.ecause 8 8 0) 13 13 0, pc := x.epc.toNat, rep := some (x.erc.toNat, none), rcNext := none, uop := some (bits x.ecause 12 9, false) })) ∧
  (∀ (e : Fin 16) (t : Fin 4) (w i : Word) (x : Thr) (s : State),
      s.fetches e t w = true →
      (bits w 31 26 = 0x3F ∧ bits w 25 21 = 0) →
      x = (s.thr e t).tickLoads →
      x.pc + 1 < 16384 →
      i = s.iWord e (x.pc + 1) →
      ((bits i 31 26 < 0x20 ∨ bits i 31 26 = 0x28 ∨ bits i 31 26 = 0x3E)) →
      bits i 31 26 ≠ 4 →
      Thread (.repImm e t .none_) s e t ({ x with pc := if bits w 15 0 = 0 then x.pc + 2 else x.pc + 1, rep := if bits w 15 0 = 0 then none else some (bits w 15 0, some i), uop := none })) ∧
  (∀ (e : Fin 16) (t : Fin 4) (w i : Word) (x : Thr) (s : State),
      s.fetches e t w = true →
      (bits w 31 26 = 0x3F ∧ bits w 25 21 = 1) →
      x = (s.thr e t).tickLoads →
      x.pc + 1 < 16384 →
      i = s.iWord e (x.pc + 1) →
      ((bits i 31 26 < 0x20 ∨ bits i 31 26 = 0x28 ∨ bits i 31 26 = 0x3E)) →
      bits i 31 26 ≠ 4 →
      Thread (.repRc e t .none_) s e t ({ x with pc := if x.rc.toNat = 0 then x.pc + 2 else x.pc + 1, rep := if x.rc.toNat = 0 then none else some (x.rc.toNat, some i), uop := none })) ∧
  (∀ (e : Fin 16) (t : Fin 4) (w i : Word) (s : State),
      s.fetches e t w = true →
      (bits w 31 26 = 0x3F ∧ bits w 25 21 = 0) →
      (s.thr e t).pc + 1 < 16384 →
      i = s.iWord e ((s.thr e t).pc + 1) →
      ((0x20 ≤ bits i 31 26 ∧ bits i 31 26 ≤ 0x27 ∨ bits i 31 26 = 0x3F)) →
      (s.thr e t).handler = false →
      Thread (.repImm e t .none_) s e t ((s.thr e t).trapped 1 (s.thr e t).pc i)) ∧
  (∀ (e : Fin 16) (t : Fin 4) (ecc : EccAt) (s : State), Yields (.mfs e t ecc) s (s.issue e t ecc 256 mfs)) ∧
  (∀ (e : Fin 16) (t : Fin 4) (ecc : EccAt) (s : State), Yields (.mts e t ecc) s (s.issue e t ecc 257 mts)) ∧
  (∀ (e : Fin 16) (t : Fin 4) (ecc : EccAt) (s : State), Yields (.snap e t ecc) s (s.issue e t ecc 258 snap)) ∧
  (∀ (e : Fin 16) (t : Fin 4) (ecc : EccAt) (s : State), Yields (.trap e t ecc) s (s.issue e t ecc 259 trapI)) ∧
  (∀ (e : Fin 16) (t : Fin 4) (ecc : EccAt) (s : State), Yields (.rett e t ecc) s (s.issue e t ecc 260 rett)) ∧
  (∀ (e : Fin 16) (t : Fin 4) (ecc : EccAt) (s : State), Yields (.illegalInstruction e t ecc) s (s.issue e t ecc kIllegal illegal)) ∧
  (∀ (e : Fin 16) (t : Fin 4) (ecc : EccAt) (s : State), Yields (.repImm e t ecc) s (s.issue e t ecc (64 * 63) (repeatN (fun _ _ _ w => bits w 15 0)))) ∧
  (∀ (e : Fin 16) (t : Fin 4) (ecc : EccAt) (s : State), Yields (.repRc e t ecc) s (s.issue e t ecc (64 * 63 + 1) (repeatN (fun s n t _ => (s.thr n t).rc.toNat))))

/-- Outside a handler a fetch beyond the memory, a lost fetch, a misaligned or absent D address, an absent port address, an LDI beyond the memory, a lost data read, RETT and a custom instruction whose entry is not valid each trap with their cause and value, write nothing and complete the loads in flight; inside a handler the condition halts the thread and raises ENG_DTRAP. An instruction of another name than the thread's next word does nothing. The model's choice: a row runs only where it is the thread's next word (log 87). Every command named here completes, from every state and with all operands: the last clauses give the operation that is its own effect. -/
def Obligations.TrapConditions : Prop :=
  (∀ (e : Fin 16) (t : Fin 4) (s : State),
      s.canIssue e t = true →
      ((s.thr e t).rep = none ∧ 16384 ≤ (s.thr e t).pc) →
      (s.thr e t).handler = false →
      Thread (.addC e t .none_) s e t ((s.thr e t).trapped 2 (s.thr e t).pc (w32 (s.thr e t).pc))) ∧
  (∀ (e : Fin 16) (t : Fin 4) (s : State),
      s.canIssue e t = true →
      ((s.thr e t).rep = none ∧ (s.thr e t).pc < 16384) →
      (s.thr e t).handler = false →
      Effect (.addC e t .fetch) s ([ENG_STAT e]) ([(97 + 4 * e.val, 0, false)]) (fun u => u.thr e t = (s.thr e t).trapped 9 (s.thr e t).pc (w32 (s.thr e t).pc))) ∧
  (∀ (e : Fin 16) (t : Fin 4) (w : Word) (s : State),
      s.fetches e t w = true →
      bits w 31 26 = 0x14 →
      (s.thr e t).tickLoads.addr w % 4 ≠ 0 →
      (s.thr e t).handler = false →
      Thread (.ld e t .none_) s e t ((s.thr e t).trapped 4 (s.thr e t).pc (w32 ((s.thr e t).tickLoads.addr w)))) ∧
  (∀ (e : Fin 16) (t : Fin 4) (w : Word) (s : State),
      s.fetches e t w = true →
      bits w 31 26 = 0x15 →
      131071 < (s.thr e t).tickLoads.addr w →
      (s.thr e t).handler = false →
      Thread (.stb e t .none_) s e t ((s.thr e t).trapped 3 (s.thr e t).pc (w32 ((s.thr e t).tickLoads.addr w)))) ∧
  (∀ (e : Fin 16) (t : Fin 4) (w : Word) (s : State),
      s.fetches e t w = true →
      bits w 31 26 = 0x1F →
      4095 < (s.thr e t).tickLoads.addr w →
      (s.thr e t).handler = false →
      Thread (.out e t .none_) s e t ((s.thr e t).trapped 5 (s.thr e t).pc (w32 ((s.thr e t).tickLoads.addr w)))) ∧
  (∀ (e : Fin 16) (t : Fin 4) (w : Word) (s : State),
      s.fetches e t w = true →
      bits w 31 26 = 0x18 →
      16384 ≤ (s.thr e t).tickLoads.addr w →
      (s.thr e t).handler = false →
      Thread (.ldi e t .none_) s e t ((s.thr e t).trapped 2 (s.thr e t).pc (w32 ((s.thr e t).tickLoads.addr w)))) ∧
  (∀ (e : Fin 16) (t : Fin 4) (w : Word) (s : State),
      s.fetches e t w = true →
      bits w 31 26 = 0x10 →
      (s.thr e t).tickLoads.addr w ≤ 131071 →
      (s.thr e t).handler = false →
      Effect (.ldb e t .data) s ([ENG_STAT e]) ([(97 + 4 * e.val, 0, false)]) (fun u => u.thr e t = (s.thr e t).trapped 9 (s.thr e t).pc (w32 ((s.thr e t).tickLoads.addr w)))) ∧
  (∀ (e : Fin 16) (t : Fin 4) (w : Word) (s : State),
      s.fetches e t w = true →
      (bits w 31 26 = 4 ∧ bits w 5 0 = 4) →
      (s.thr e t).handler = false →
      Thread (.rett e t .none_) s e t ((s.thr e t).trapped 1 (s.thr e t).pc w)) ∧
  (∀ (e : Fin 16) (t : Fin 4) (w i : Word) (s : State),
      s.fetches e t w = true →
      bits w 31 26 = 0x3E →
      i = storeGet (fun _ => 0) (s.engSt e).table (bits w 25 21) →
      ((bits i 13 13 = 0 ∨ 511 < bits i 8 0 + bits i 12 9)) →
      (s.thr e t).handler = false →
      Thread (.customInstruction e t false none) s e t ((s.thr e t).trapped 1 (s.thr e t).pc w)) ∧
  (∀ (e : Fin 16) (t : Fin 4) (w : Word) (s : State),
      s.fetches e t w = true →
      (bits w 31 26 = 4 ∧ bits w 5 0 = 3) →
      (s.thr e t).handler = true →
      Effect (.trap e t .none_) s ([ENG_STAT e]) ([(98 + 4 * e.val, 0, false)]) (fun u => u.thr e t = { s.thr e t with dead := true, run := false, stall := none })) ∧
  (∀ (e : Fin 16) (t : Fin 4) (w : Word) (s : State),
      s.fetches e t w = true →
      bits w 31 26 ≠ 0x0F →
      Yields (.lui e t .none_) s (s)) ∧
  (∀ (e : Fin 16) (t : Fin 4) (fe : Bool) (um : Option (Fin 16 × Bool)) (s : State), Yields (.customInstruction e t fe um) s (s.issueWith e t (64 * 62) fe (fun s w => s.custom e t w um false)))

/-- An instruction that repeats runs without being fetched and stays at its index until the last run, when the program counter moves past it and a value MTS left for rc is taken; a trap in it leaves the runs to go in erc and REP in ecause. A custom instruction of one micro-op UADD or UMUL with a constant writes the register its selector names. A stalled POSTGO completes once its level has room, and the slots lost are counted. The model's choices: log 88, log 91. Every command named here completes, from every state and with all operands: the last clauses give the operation that is its own effect. -/
def Obligations.RepetitionCustomAndStall : Prop :=
  (∀ (e : Fin 16) (t : Fin 4) (w : Word) (k : Nat) (x : Thr) (s : State),
      s.canIssue e t = true →
      (s.thr e t).rep = some (k, some w) →
      2 ≤ k →
      bits w 31 26 = 8 →
      x = (s.thr e t).tickLoads →
      Thread (.addi e t .none_) s e t ({ x.setG (bits w 25 21) (w32 (uns 32 ((x.g (bits w 20 16)).toNat + simm w))) with rep := some (k - 1, some w), uop := none })) ∧
  (∀ (e : Fin 16) (t : Fin 4) (w : Word) (x : Thr) (s : State),
      s.canIssue e t = true →
      (s.thr e t).rep = some (1, some w) →
      bits w 31 26 = 8 →
      x = (s.thr e t).tickLoads →
      Thread (.addi e t .none_) s e t ({ x.setG (bits w 25 21) (w32 (uns 32 ((x.g (bits w 20 16)).toNat + simm w))) with rep := none, rc := x.rcNext.getD x.rc, rcNext := none, pc := x.pc + 1, uop := none })) ∧
  (∀ (e : Fin 16) (t : Fin 4) (w : Word) (k : Nat) (x : Thr) (s : State),
      s.canIssue e t = true →
      (s.thr e t).rep = some (k, some w) →
      2 ≤ k →
      (bits w 31 26 = 4 ∧ bits w 5 0 = 1 ∧ bits w 25 21 = 0) →
      x = (s.thr e t).tickLoads →
      Thread (.mts e t .none_) s e t ({ x with rcNext := some (x.g (bits w 20 16)), rep := some (k - 1, some w), uop := none })) ∧
  (∀ (e : Fin 16) (t : Fin 4) (w : Word) (k : Nat) (s : State),
      s.canIssue e t = true →
      (s.thr e t).rep = some (k, some w) →
      bits w 31 26 = 0x14 →
      (s.thr e t).tickLoads.addr w % 4 ≠ 0 →
      (s.thr e t).handler = false →
      Thread (.ld e t .none_) s e t ({ (s.thr e t).trapped 4 (s.thr e t).pc (w32 ((s.thr e t).tickLoads.addr w)) with ecause := 0x104#32, erc := w32 k })) ∧
  (∀ (e : Fin 16) (t : Fin 4) (w i m v : Word) (r : Nat) (x : Thr) (s : State),
      s.fetches e t w = true →
      (bits w 31 26 = 0x3E ∧ (s.thr e t).uop = none) →
      i = storeGet (fun _ => 0) (s.engSt e).table (bits w 25 21) →
      (bits i 13 13 = 1 ∧ bits i 12 9 = 0) →
      m = storeGet (fun _ => 0) (s.engSt e).ucode (bits i 8 0) →
      ((bits m 31 27 = 0 ∨ bits m 31 27 = 0x0B)) →
      (bits m 14 14 = 1 ∧ 1 ≤ bits m 26 23 ∧ bits m 26 23 ≤ 3 ∧ bits m 22 19 = bits m 26 23) →
      r = (if bits m 26 23 = 1 then bits w 20 16 else if bits m 26 23 = 2 then bits w 15 11 else bits w 10 6) →
      x = { s.thr e t with temps := [] }.tickLoads →
      v = w32 (uns 32 (if bits m 31 27 = 0 then ((x.g r).toNat : Int) + sgn 14 (bits m 13 0) else ((x.g r).toNat : Int) * sgn 14 (bits m 13 0))) →
      Thread (.customInstruction e t false none) s e t ((x.setG r v).goes (x.pc + 1))) ∧
  (∀ (e : Fin 16) (t : Fin 4) (v : Word) (s : State),
      (s.engLive e = true ∧ (s.thr e t).run = true ∧ (s.thr e t).dead = false) →
      (s.thr e t).stall = some (.port 0x420 (some v)) →
      s.itemRoom (s.postItem e t) = true →
      Effect (.threadStallEnd e t none) s ([ENG_CNT e 2, DISP_CAP (s.clusterOf (s.postItem e t).cluster) (s.postItem e t).level, DISP_STAT, ENG_STAT e]) ([]) (fun u => (u.thr e t).stall = none ∧ u.port e t 0x428 = 0 ∧
  u.regN (ENG_CNT e 2) = min 0xFFFFFFFF (s.regN (ENG_CNT e 2) + (s.time.now - (s.thr e t).since) / 5) ∧
  u.level (s.clusterOf (s.postItem e t).cluster) (s.postItem e t).level =
    s.level (s.clusterOf (s.postItem e t).cluster) (s.postItem e t).level ++ [{ s.postItem e t with stamp := s.cyc0.toNat }])) ∧
  (∀ (e : Fin 16) (t : Fin 4) (um : Option (Fin 16 × Bool)) (s : State), Yields (.threadStallEnd e t um) s (s.stallEnd e t um))

/-- INIT is entered at once where no frame runs and left, with TEC and REC 0, unless BADTIM; integration makes the bus idle; a start of frame sets RXING; a received frame goes to the object at NEXT, full or shadowed, with the count at its start; errors are logged and counted in TEC and REC; the pending object starts and ends as sent, lost or failed, and the loop delay measured on an FD frame goes to TDCV, at most 127; past TEC 255 the controller goes bus-off and raises its source; LOCK, UNLOCK, RELEASE, TXREQ and TXABORT do to their object what R183 and R186 give. That the counts step as ISO 11898-1 has it is presumed (logs 92 and 47), and the measured loop delay is a free value (log 106, the model's choice). Every command named here completes, from every state and with all operands: the last clauses give the operation that is its own effect. -/
def Obligations.CanControllerCommands : Prop :=
  (∀ (m : Master) (n : Fin 4) (s : State),
      s.grantsF m (CAN_CTRL_INIT n) 1 = true →
      s.runs 10 (.can n) = true →
      (s.flag (CAN_STAT_INITACK n) = false ∧ (s.canSt n).tx = none) →
      s.flag (CAN_NOTIFY_EN n) = false →
      Effect (.canInitSet m n) s ([CAN_CTRL n, CAN_STAT n, CAN_TT_STAT n, CAN_IRQ n]) ([]) (fun u => u.flag (CAN_CTRL_INIT n) = true ∧ u.flag (CAN_STAT_INITACK n) = true ∧ u.flag (CAN_STAT_IDLE n) = false ∧ u.ttState n = 0 ∧ u.fld (CAN_ERR_TEC n) = s.fld (CAN_ERR_TEC n))) ∧
  (∀ (m : Master) (n : Fin 4) (x : CanTx) (s : State),
      s.grantsF m (CAN_CTRL_INIT n) 1 = true →
      s.runs 10 (.can n) = true →
      (s.flag (CAN_STAT_INITACK n) = false ∧ (s.canSt n).tx = some x) →
      Effect (.canInitSet m n) s ([CAN_CTRL n, CAN_STAT n]) ([]) (fun u => u.flag (CAN_CTRL_INIT n) = true ∧ u.flag (CAN_STAT_INITACK n) = false ∧ (u.canSt n).tx = some x)) ∧
  (∀ (n : Fin 4) (s : State),
      s.runs 10 (.can n) = true →
      (s.flag (CAN_CTRL_INIT n) = true ∧ s.flag (CAN_STAT_INITACK n) = false ∧ (s.canSt n).tx = none) →
      s.flag (CAN_NOTIFY_EN n) = false →
      Effect (.canInitAck n) s ([CAN_STAT n, CAN_TT_STAT n, CAN_IRQ n]) ([]) (fun u => u.flag (CAN_STAT_INITACK n) = true ∧ u.flag (CAN_STAT_IDLE n) = false ∧ u.ttState n = 0)) ∧
  (∀ (m : Master) (n : Fin 4) (s : State),
      s.grantsF m (CAN_CTRL_INIT n) 0 = true →
      s.runs 10 (.can n) = true →
      (s.flag (CAN_CTRL_INIT n) = true ∧ (s.badTim n).flag (CAN_STAT_BADTIM n) = false) →
      s.flag (CAN_NOTIFY_EN n) = false →
      Effect (.canInitLeave m n) s ([CAN_CTRL n, CAN_STAT n, CAN_ERR n, CAN_IRQ n, CAN_RXRING n, CAN_TT_STAT n]) ([]) (fun u => u.flag (CAN_CTRL_INIT n) = false ∧ u.flag (CAN_STAT_INITACK n) = false ∧ u.fld (CAN_ERR_TEC n) = 0 ∧ u.fld (CAN_ERR_REC n) = 0 ∧ (u.canSt n).integ = true)) ∧
  (∀ (m : Master) (n : Fin 4) (s : State),
      s.grantsF m (CAN_CTRL_INIT n) 0 = true →
      s.runs 10 (.can n) = true →
      (s.flag (CAN_CTRL_INIT n) = true ∧ (s.badTim n).flag (CAN_STAT_BADTIM n) = true) →
      Effect (.canInitLeave m n) s ([CAN_STAT n]) ([]) (fun u => u.flag (CAN_CTRL_INIT n) = true ∧ u.flag (CAN_STAT_INITACK n) = s.flag (CAN_STAT_INITACK n))) ∧
  (∀ (n : Fin 4) (s : State),
      s.runs 10 (.can n) = true →
      (s.canSt n).integ = true →
      Effect (.canIntegration n) s ([CAN_STAT n]) ([]) (fun u => u.flag (CAN_STAT_IDLE n) = true ∧ (u.canSt n).integ = false)) ∧
  (∀ (n : Fin 4) (f : CanFrm) (o : Nat) (s : State),
      s.runs 10 (.can n) = true →
      (s.flag (CAN_STAT_INITACK n) = false ∧ (s.canSt n).integ = false ∧ s.flag (CAN_CTRL_TTEN n) = false) →
      (((s.canSt n).tx = none ∧ (s.canSt n).rx = none ∧ (f.fmt.getLsbD 4 = false ∨ s.flag (CAN_CTRL_FDEN n) = true))) →
      (s.fld (CAN_STAT_FCS n) ≠ 2 ∧ s.fld (CAN_ERR_TEC n) ≤ 255 ∧ s.fld (CAN_ERR_REC n) ≤ 127) →
      o = s.fld (CAN_RXRING_NEXT n) →
      s.rxObjs n ≠ [] →
      (s.flag (CAN_MO_STAT_LOCKED n o) = false ∧ s.flag (CAN_MO_STAT_FULL n o) = false) →
      s.flag (CAN_NOTIFY_EN n) = false →
      Effect (.canFrameReceive n (some f) none) s ([CAN_CNT n 0, CAN_ERR n, CAN_STAT n, CAN_IRQ n, CAN_RXRING n, CAN_MO_ID n o, CAN_MO_FMT n o, CAN_MO_TS n o, CAN_MO_TTS n o, CAN_MO_STAT n o] ++ (List.range 16).map (CAN_MO_DATA n o)) ([]) (fun u => u.reg (CAN_MO_ID n o) = f.id &&& 0x7FFFFFFF#32 ∧ u.reg (CAN_MO_FMT n o) = f.fmt &&& 0x7F#32 ∧ u.reg (CAN_MO_TS n o) = s.cyc0 ∧ u.reg (CAN_MO_DATA n o 0) = dataWord f (frmBytes f) 0 ∧
  u.flag (CAN_MO_STAT_FULL n o) = true ∧ u.fld (CAN_ERR_REC n) = s.fld (CAN_ERR_REC n) - 1 ∧ u.regN (CAN_CNT n 0) = min 0xFFFFFFFF (s.regN (CAN_CNT n 0) + 1) ∧ u.fld (CAN_RXRING_NEXT n) = s.rxNext n o ∧ (u.reg (CAN_IRQ n)).getLsbD 0 = true)) ∧
  (∀ (n : Fin 4) (f : CanFrm) (o : Nat) (s : State),
      s.runs 10 (.can n) = true →
      (s.flag (CAN_STAT_INITACK n) = false ∧ (s.canSt n).integ = false ∧ s.flag (CAN_CTRL_TTEN n) = false) →
      (((s.canSt n).tx = none ∧ (s.canSt n).rx = none ∧ (f.fmt.getLsbD 4 = false ∨ s.flag (CAN_CTRL_FDEN n) = true))) →
      (s.fld (CAN_STAT_FCS n) ≠ 2 ∧ s.fld (CAN_ERR_TEC n) ≤ 255 ∧ s.fld (CAN_ERR_REC n) = 0) →
      o = s.fld (CAN_RXRING_NEXT n) →
      s.rxObjs n ≠ [] →
      (s.flag (CAN_MO_STAT_LOCKED n o) = true ∧ s.flag (CAN_MO_STAT_SHADOW n o) = false) →
      Effect (.canFrameReceive n (some f) none) s ([CAN_CNT n 0, CAN_RXRING n, CAN_STAT n, CAN_MO_STAT n o]) ([]) (fun u => u.moShadow n o = some (f, s.cyc0, 0) ∧ u.flag (CAN_MO_STAT_SHADOW n o) = true ∧ u.flag (CAN_MO_STAT_FULL n o) = s.flag (CAN_MO_STAT_FULL n o))) ∧
  (∀ (n : Fin 4) (s : State),
      s.runs 10 (.can n) = true →
      (s.flag (CAN_STAT_INITACK n) = false ∧ (s.canSt n).integ = false ∧ (s.canSt n).tx = none ∧ (s.canSt n).rx = none ∧ s.fld (CAN_STAT_FCS n) ≠ 2) →
      Effect (.canFrameReceive n none none) s ([CAN_STAT n]) ([]) (fun u => u.flag (CAN_STAT_IDLE n) = false ∧ u.flag (CAN_STAT_RXING n) = true ∧ (u.canSt n).rx.map (fun z => (z.ts, z.at_)) = some (s.cyc0, s.time.now))) ∧
  (∀ (n : Fin 4) (e : CanErr) (f : Option CanFrm) (s : State),
      s.runs 10 (.can n) = true →
      (s.flag (CAN_STAT_INITACK n) = false ∧ (s.canSt n).integ = false ∧ (s.canSt n).tx = none) →
      (s.fld (CAN_STAT_FCS n) ≠ 2 ∧ s.fld (CAN_ERR_TEC n) ≤ 255) →
      e.code = 1 →
      s.flag (CAN_NOTIFY_EN n) = false →
      Effect (.canFrameReceive n f (some e)) s ([CAN_CNT n 3, CAN_ERR n, CAN_STAT n, CAN_IRQ n, CAN_ERRLOG n]) ([]) (fun u => u.fld (CAN_ERR_REC n) = min 255 (s.fld (CAN_ERR_REC n) + if e.alt then 8 else 1) ∧ u.fld (CAN_ERRLOG_LEC n) = 1 ∧
  u.regN (CAN_CNT n 3) = min 0xFFFFFFFF (s.regN (CAN_CNT n 3) + 1) ∧ u.fld (CAN_ERR_TEC n) = s.fld (CAN_ERR_TEC n))) ∧
  (∀ (n : Fin 4) (o : Fin 128) (s : State),
      s.runs 10 (.can n) = true →
      s.canMayStart n = true →
      s.flag (CAN_CTRL_TTEN n) = false →
      (s.flag (CAN_MO_STAT_TXREQ n o) = true ∧ s.flag (CAN_MO_CFG_VALID n o) = true ∧ s.flag (CAN_MO_CFG_DIR n o) = true ∧ s.fld (CAN_MO_CFG_TTMODE n o) = 0) →
      (∀ k : Fin 128, k ≠ o → s.flag (CAN_MO_STAT_TXREQ n k) = false) →
      Effect (.canTxStart n) s ([CAN_STAT n]) ([]) (fun u => u.flag (CAN_STAT_TXING n) = true ∧ u.flag (CAN_STAT_IDLE n) = false ∧ (u.canSt n).tx.map (fun x => (x.obj, x.frame, x.ts, x.abort)) = some (some o.val, s.asSent n (s.pubFrame n o), s.cyc0, false))) ∧
  (∀ (n : Fin 4) (o : Nat) (x : CanTx) (s : State),
      s.runs 10 (.can n) = true →
      (s.canSt n).tx = some x →
      (x.obj = some o ∧ x.abort = false ∧ x.shut = false) →
      (s.fld (CAN_ERR_TEC n) ≤ 255 ∧ s.fld (CAN_STAT_FCS n) ≠ 2) →
      s.flag (CAN_CTRL_SELFRX n) = false →
      s.flag (CAN_NOTIFY_EN n) = false →
      Effect (.canTxEnd n .sent) s ([CAN_STAT n, CAN_CNT n 1, CAN_ERR n, CAN_IRQ n, CAN_MO_TS n o, CAN_MO_TTS n o, CAN_MO_STAT n o, CAN_TDC n]) ([]) (fun u => (x.frame.fmt.getLsbD 4 = false → u.reg (CAN_TDC n) = s.reg (CAN_TDC n)) ∧ u.fld (CAN_TDC_TDCO n) = s.fld (CAN_TDC_TDCO n) ∧ u.flag (CAN_TDC_EN n) = s.flag (CAN_TDC_EN n) ∧ (u.flag (CAN_STAT_TDCSAT n) = true → s.flag (CAN_STAT_TDCSAT n) = true ∨ u.fld (CAN_TDC_TDCV n) = 127) ∧ (u.canSt n).tx = none ∧ u.flag (CAN_MO_STAT_TXREQ n o) = false ∧ u.fld (CAN_MO_STAT_TXRES n o) = 1 ∧
  u.fld (CAN_ERR_TEC n) = s.fld (CAN_ERR_TEC n) - 1 ∧ u.reg (CAN_MO_TS n o) = x.ts ∧ u.flag (CAN_STAT_IDLE n) = true ∧ (u.reg (CAN_IRQ n)).getLsbD 1 = true ∧ u.out.length = s.out.length + 1)) ∧
  (∀ (n : Fin 4) (o : Nat) (x : CanTx) (s : State),
      s.runs 10 (.can n) = true →
      (s.canSt n).tx = some x →
      (x.obj = some o ∧ x.abort = false ∧ x.shut = false) →
      Effect (.canTxEnd n .lost) s ([CAN_STAT n, CAN_CNT n 2]) ([]) (fun u => (u.canSt n).tx = none ∧ u.reg (CAN_MO_STAT n o) = s.reg (CAN_MO_STAT n o) ∧ u.flag (CAN_STAT_IDLE n) = false ∧ u.flag (CAN_STAT_RXING n) = true ∧ (u.canSt n).rx.map (fun z => (z.ts, z.at_)) = some (x.ts, x.at_))) ∧
  (∀ (n : Fin 4) (o : Nat) (x : CanTx) (e : CanErr) (won : Bool) (s : State),
      s.runs 10 (.can n) = true →
      (s.canSt n).tx = some x →
      (x.obj = some o ∧ x.abort = false ∧ x.excl = false ∧ x.shut = false) →
      (e.code = 3 ∧ e.alt = false) →
      (s.fld (CAN_ERR_TEC n) ≤ 247 ∧ s.fld (CAN_STAT_FCS n) ≠ 2 ∧ s.fld (CAN_MO_CFG_RETRY n o) = 0) →
      s.flag (CAN_NOTIFY_EN n) = false →
      Effect (.canTxEnd n (.err e won)) s ([CAN_STAT n, CAN_CNT n 5, CAN_ERR n, CAN_IRQ n, CAN_ERRLOG n, CAN_MO_STAT n o, CAN_TDC n]) ([]) (fun u => (x.frame.fmt.getLsbD 4 = false → u.reg (CAN_TDC n) = s.reg (CAN_TDC n)) ∧ u.fld (CAN_TDC_TDCO n) = s.fld (CAN_TDC_TDCO n) ∧ u.flag (CAN_TDC_EN n) = s.flag (CAN_TDC_EN n) ∧ u.fld (CAN_ERR_TEC n) = s.fld (CAN_ERR_TEC n) + 8 ∧ u.flag (CAN_MO_STAT_TXREQ n o) = s.flag (CAN_MO_STAT_TXREQ n o) ∧
  u.fld (CAN_ERRLOG_LEC n) = 3)) ∧
  (∀ (n : Fin 4) (o : Nat) (x : CanTx) (e : CanErr) (won : Bool) (s : State),
      s.runs 10 (.can n) = true →
      (s.canSt n).tx = some x →
      (x.obj = some o ∧ x.abort = false ∧ x.excl = false ∧ x.shut = false) →
      (e.code = 3 ∧ e.alt = false) →
      (248 ≤ s.fld (CAN_ERR_TEC n) ∧ s.fld (CAN_STAT_FCS n) ≠ 2 ∧ s.flag (CAN_CTRL_TTEN n) = false ∧ s.fld (CAN_MO_CFG_RETRY n o) = 0) →
      s.flag (CAN_NOTIFY_EN n) = false →
      Effect (.canTxEnd n (.err e won)) s ([CAN_STAT n, CAN_CNT n 5, CAN_CNT n 9, CAN_ERR n, CAN_IRQ n, CAN_ERRLOG n, CAN_MO_STAT n o, CAN_TDC n]) ([(192 + 8 * n.val, 0, false)]) (fun u => u.fld (CAN_STAT_FCS n) = 2 ∧ u.flag (CAN_STAT_IDLE n) = false ∧
  u.flag (CAN_STAT_BORUN n) = (s.flag (CAN_STAT_BORUN n) || s.flag (CAN_CTRL_ABOM n)) ∧ (u.reg (CAN_IRQ n)).getLsbD 4 = true)) ∧
  (∀ (m : Master) (n : Fin 4) (s : State),
      s.grantsF m (CAN_CTRL_BOREC n) 1 = true →
      s.runs 10 (.can n) = true →
      (s.fld (CAN_STAT_FCS n) = 2 ∧ s.flag (CAN_CTRL_INIT n) = false) →
      Effect (.borec m n) s ([CAN_STAT n]) ([]) (fun u => u.flag (CAN_STAT_BORUN n) = true ∧ u.fld (CAN_STAT_FCS n) = 2)) ∧
  (∀ (n : Fin 4) (s : State),
      s.runs 10 (.can n) = true →
      s.flag (CAN_STAT_BORUN n) = true →
      (s.flag (CAN_NOTIFY_EN n) = false ∧ s.flag (CAN_CTRL_TTEN n) = false) →
      Effect (.busOffRecoveryEnd n) s ([CAN_STAT n, CAN_ERR n, CAN_IRQ n]) ([]) (fun u => u.flag (CAN_STAT_BORUN n) = false ∧ u.fld (CAN_STAT_FCS n) = 0 ∧ u.fld (CAN_ERR_TEC n) = 0 ∧ u.fld (CAN_ERR_REC n) = 0 ∧ u.flag (CAN_STAT_IDLE n) = true ∧ (u.reg (CAN_IRQ n)).getLsbD 5 = true)) ∧
  (∀ (m : Master) (n : Fin 4) (o : Fin 128) (s : State),
      s.grantsF m (CAN_MO_CMD_LOCK n o) 1 = true →
      s.runs 10 (.can n) = true →
      Effect (.lock m n o) s ([CAN_MO_STAT n o]) ([]) (fun u => u.flag (CAN_MO_STAT_LOCKED n o) = true ∧ u.can = s.can)) ∧
  (∀ (m : Master) (n : Fin 4) (o : Fin 128) (s : State),
      s.grantsF m (CAN_MO_CMD_UNLOCK n o) 1 = true →
      s.runs 10 (.can n) = true →
      (s.flag (CAN_MO_STAT_LOCKED n o) = true ∧ s.flag (CAN_MO_CFG_DIR n o) = true) →
      Effect (.unlock m n o) s ([CAN_MO_STAT n o]) ([]) (fun u => u.flag (CAN_MO_STAT_LOCKED n o) = false ∧ u.pubFrame n o = ⟨s.reg (CAN_MO_ID n o), s.reg (CAN_MO_FMT n o), (List.range 16).map (fun k => s.reg (CAN_MO_DATA n o k))⟩)) ∧
  (∀ (m : Master) (n : Fin 4) (o : Fin 128) (f : CanFrm) (ts : Word) (s : State),
      s.grantsF m (CAN_MO_CMD_UNLOCK n o) 1 = true →
      s.runs 10 (.can n) = true →
      (s.flag (CAN_MO_STAT_LOCKED n o) = true ∧ s.flag (CAN_MO_CFG_DIR n o) = false ∧ s.flag (CAN_MO_STAT_SHADOW n o) = true ∧ s.flag (CAN_MO_STAT_FULL n o) = false) →
      s.moShadow n o = some (f, ts, 0) →
      s.flag (CAN_NOTIFY_EN n) = false →
      Effect (.unlock m n o) s ([CAN_IRQ n, CAN_MO_ID n o, CAN_MO_FMT n o, CAN_MO_TS n o, CAN_MO_TTS n o, CAN_MO_STAT n o] ++ (List.range 16).map (CAN_MO_DATA n o)) ([]) (fun u => u.flag (CAN_MO_STAT_LOCKED n o) = false ∧ u.flag (CAN_MO_STAT_FULL n o) = true ∧
  u.flag (CAN_MO_STAT_SHADOW n o) = false ∧ u.reg (CAN_MO_ID n o) = f.id &&& 0x7FFFFFFF#32 ∧ u.reg (CAN_MO_TS n o) = ts)) ∧
  (∀ (m : Master) (n : Fin 4) (o : Fin 128) (s : State),
      s.grants m (CAN_MO_CMD n o) 6#32 = true →
      s.runs 10 (.can n) = true →
      (s.flag (CAN_MO_STAT_LOCKED n o) = true ∧ s.flag (CAN_MO_CFG_DIR n o) = false ∧ s.flag (CAN_MO_STAT_SHADOW n o) = false) →
      Effect (.release m n o) s ([CAN_MO_STAT n o]) ([]) (fun u => u.flag (CAN_MO_STAT_LOCKED n o) = false ∧ u.flag (CAN_MO_STAT_FULL n o) = false)) ∧
  (∀ (m : Master) (n : Fin 4) (o : Fin 128) (s : State),
      s.grantsF m (CAN_MO_CMD_TXREQ n o) 1 = true →
      s.runs 10 (.can n) = true →
      (s.flag (CAN_MO_CFG_VALID n o) = true ∧ s.flag (CAN_MO_CFG_DIR n o) = true ∧ s.flag (CAN_MO_STAT_TXREQ n o) = false ∧ s.fld (CAN_MO_CFG_TTMODE n o) ≠ 1) →
      Effect (.txreq m n o) s ([CAN_MO_STAT n o]) ([]) (fun u => u.flag (CAN_MO_STAT_TXREQ n o) = true ∧ u.fld (CAN_MO_STAT_TRIES n o) = 0 ∧ u.fld (CAN_MO_STAT_TXRES n o) = 0)) ∧
  (∀ (m : Master) (n : Fin 4) (o : Fin 128) (s : State),
      s.grantsF m (CAN_MO_CMD_TXABORT n o) 1 = true →
      s.runs 10 (.can n) = true →
      (s.flag (CAN_MO_STAT_TXREQ n o) = true ∧ (s.canSt n).tx = none) →
      s.flag (CAN_NOTIFY_EN n) = false →
      Effect (.txabort m n o) s ([CAN_MO_STAT n o, CAN_IRQ n]) ([]) (fun u => u.flag (CAN_MO_STAT_TXREQ n o) = false ∧ u.fld (CAN_MO_STAT_TXRES n o) = 3 ∧ (u.reg (CAN_IRQ n)).getLsbD 1 = true)) ∧
  (∀ (m : Master) (n : Fin 4) (o : Fin 128) (x : CanTx) (s : State),
      s.grantsF m (CAN_MO_CMD_TXABORT n o) 1 = true →
      s.runs 10 (.can n) = true →
      (s.flag (CAN_MO_STAT_TXREQ n o) = true ∧ (s.canSt n).tx = some x ∧ x.obj = some o.val) →
      Effect (.txabort m n o) s ([]) ([]) (fun u => (u.canSt n).tx = some { x with abort := true })) ∧
  (∀ (m : Master) (n : Fin 4) (s : State), Yields (.canInitSet m n) s (s.fieldWrite m (CAN_CTRL_INIT n) 1)) ∧
  (∀ (n : Fin 4) (s : State), Yields (.canInitAck n) s (s.inBlk 10 (.can n) (fun s => s.initAck n))) ∧
  (∀ (m : Master) (n : Fin 4) (s : State), Yields (.canInitLeave m n) s (s.fieldWrite m (CAN_CTRL_INIT n) 0)) ∧
  (∀ (n : Fin 4) (s : State), Yields (.canIntegration n) s (s.inBlk 10 (.can n) (fun s => s.integrated n))) ∧
  (∀ (n : Fin 4) (f : Option CanFrm) (err : Option CanErr) (s : State), Yields (.canFrameReceive n f err) s (s.inBlk 10 (.can n) (fun s => match f, err with | _, some e => s.canRxErr n e | some f, none => s.canReceive n f | none, none => s.canRxSof n))) ∧
  (∀ (n : Fin 4) (s : State), Yields (.canTxStart n) s (s.inBlk 10 (.can n) (fun s => s.canTxStart n))) ∧
  (∀ (n : Fin 4) (e : CanEnd) (s : State), Yields (.canTxEnd n e) s (s.inBlk 10 (.can n) (fun s => s.canTxEnd n e))) ∧
  (∀ (m : Master) (n : Fin 4) (s : State), Yields (.borec m n) s (s.fieldWrite m (CAN_CTRL_BOREC n) 1)) ∧
  (∀ (n : Fin 4) (s : State), Yields (.busOffRecoveryEnd n) s (s.inBlk 10 (.can n) (fun s => s.boEnd n))) ∧
  (∀ (m : Master) (n : Fin 4) (o : Fin 128) (s : State), Yields (.lock m n o) s (s.fieldWrite m (CAN_MO_CMD_LOCK n o) 1)) ∧
  (∀ (m : Master) (n : Fin 4) (o : Fin 128) (s : State), Yields (.unlock m n o) s (s.fieldWrite m (CAN_MO_CMD_UNLOCK n o) 1)) ∧
  (∀ (m : Master) (n : Fin 4) (o : Fin 128) (s : State), Yields (.release m n o) s (s.wordWrite m (CAN_MO_CMD n o) 6#32)) ∧
  (∀ (m : Master) (n : Fin 4) (o : Fin 128) (s : State), Yields (.txreq m n o) s (s.fieldWrite m (CAN_MO_CMD_TXREQ n o) 1)) ∧
  (∀ (m : Master) (n : Fin 4) (o : Fin 128) (s : State), Yields (.txabort m n o) s (s.fieldWrite m (CAN_MO_CMD_TXABORT n o) 1))

/-- TTRESTART leaves STARTFAIL for LISTEN; a potential master in LISTEN, a backup at its take-over and a master at its basic cycle send the reference; a missed reference counts, advances the cycle and at the second miss returns to LISTEN; an own exclusive window sends its object or withholds a frame that does not fit; an exclusive window with no start of frame since its mark adds one to its count of empty windows, which stops at 65,535, and one with a start of frame adds none; the guardian closes on a bad measurement, which it reports once, and cuts a transmission. That an own exclusive FD frame with FDEN 0 does not start is the model's choice (log 154); a set applies at the start of frame it stood at, and counts follow ISO 11898-1 (logs 107 and 92). Every command named here completes, from every state and with all operands: the last clauses give the operation that is its own effect. -/
def Obligations.TimeTriggeredCanCommands : Prop :=
  (∀ (m : Master) (n : Fin 4) (s : State),
      s.grantsF m (CAN_CTRL_TTRESTART n) 1 = true →
      s.runs 10 (.can n) = true →
      (s.ttState n = 6 ∧ s.flag (CAN_CTRL_INIT n) = false) →
      s.flag (CAN_NOTIFY_EN n) = false →
      Effect (.ttrestart m n) s ([CAN_STAT n, CAN_TT_STAT n, CAN_IRQ n]) ([]) (fun u => u.ttState n = 1 ∧ u.fld (CAN_TT_STAT_COLL n) = 0 ∧ (u.reg (CAN_IRQ n)).getLsbD 7 = true)) ∧
  (∀ (n : Fin 4) (s : State),
      s.runs 10 (.can n) = true →
      s.canMayStart n = true →
      (s.ttState n = 1 ∧ s.flag (CAN_TT_CFG_PM n) = true ∧ s.shadOf (.tt n) = []) →
      Effect (.startwaitExpiry n) s ([CAN_STAT n]) ([]) (fun u => (u.canSt n).tx.map (fun x => (x.obj, x.frame.id, x.frame.data.map (fun w => bits w 5 0))) = some (none, w32 (s.fld (CAN_TT_CFG_REFID n) * 2 ^ 18), [0]) ∧ u.flag (CAN_STAT_TXING n) = true)) ∧
  (∀ (n : Fin 4) (s : State),
      s.runs 10 (.can n) = true →
      s.canMayStart n = true →
      (s.ttState n = 3 ∧ s.sofSince n (s.fld (CAN_TT_TIME_CYCLEN n)) = false ∧ s.shadOf (.tt n) = []) →
      Effect (.takeover n) s ([CAN_STAT n]) ([]) (fun u => (u.canSt n).tx.map (fun x => (x.obj, x.frame.data.map (fun w => bits w 5 0))) = some (none, [(s.fld (CAN_TT_STAT_CYC n) + 1) % basicCycles (s.reg (CAN_TT_CFG n)) % 64]))) ∧
  (∀ (n : Fin 4) (t : Nat) (s : State),
      s.runs 10 (.can n) = true →
      ((s.canSt n).sofAt = some t ∧ 2 * (s.canSt n).ctAt + 25 * s.nomBit n * s.fld (CAN_TT_TIME_CYCLEN n) ≤ 2 * t) →
      Effect (.takeover n) s ([]) ([]) (fun u => u.can = s.can)) ∧
  (∀ (n : Fin 4) (s : State),
      s.runs 10 (.can n) = true →
      s.canMayStart n = true →
      (s.ttState n = 3 ∧ (s.canSt n).sofAt = none) →
      Leaves (.takeover n) s (fun u => (u.canSt n).tx.map (fun x => (x.obj, x.frame.data.map (fun w => bits w 5 0))) = some (none, [(s.fld (CAN_TT_STAT_CYC n) + 1) % basicCycles (s.reg (CAN_TT_CFG n)) % 64]))) ∧
  (∀ (n : Fin 4) (s : State),
      s.runs 10 (.can n) = true →
      s.canMayStart n = true →
      (s.ttState n = 2) →
      Leaves (.basicCycleStart n) s (fun u => (u.canSt n).tx.map (fun x => (x.obj, x.frame.data.map (fun w => bits w 5 0))) = some (none, [(s.fld (CAN_TT_STAT_CYC n) + 1) % basicCycles (s.reg (CAN_TT_CFG n)) % 64]))) ∧
  (∀ (n : Fin 4) (s : State),
      s.runs 10 (.can n) = true →
      s.canMayStart n = true →
      (s.ttState n = 2 ∧ s.shadOf (.tt n) = []) →
      Effect (.basicCycleStart n) s ([CAN_STAT n]) ([]) (fun u => (u.canSt n).tx.map (fun x => (x.obj, x.frame.data.map (fun w => bits w 5 0))) = some (none, [(s.fld (CAN_TT_STAT_CYC n) + 1) % basicCycles (s.reg (CAN_TT_CFG n)) % 64]))) ∧
  (∀ (n : Fin 4) (s : State),
      s.runs 10 (.can n) = true →
      ((s.ttState n = 3 ∨ s.ttState n = 4)) →
      s.flag (CAN_NOTIFY_EN n) = false →
      Effect (.referenceMiss n) s ([CAN_CNT n 13, CAN_IRQ n, CAN_TT_STAT n]) ([]) (fun u => u.fld (CAN_TT_STAT_CYC n) = (s.fld (CAN_TT_STAT_CYC n) + 1) % basicCycles (s.reg (CAN_TT_CFG n)) % 64 ∧ (u.reg (CAN_IRQ n)).getLsbD 13 = true ∧
  u.ttState n = (if (s.canSt n).misses = 0 then s.ttState n else 1) ∧ u.regN (CAN_CNT n 13) = min 0xFFFFFFFF (s.regN (CAN_CNT n 13) + 1))) ∧
  (∀ (n : Fin 4) (w : Fin 32) (o : Nat) (s : State),
      s.runs 10 (.can n) = true →
      s.canMayStart n = true →
      (s.flag (CAN_CTRL_TTEN n) = true ∧ 2 ≤ s.ttState n ∧ s.ttState n ≤ 4 ∧ 1 ≤ w.val ∧ w.val ≤ s.fld (CAN_TT_TIME_NWINM1 n)) →
      ttCell s.reg n (s.fld (CAN_TT_STAT_CYC n)) w = (2, o) →
      (((s.pubFrame n o).fmt.getLsbD 4 = false ∨ s.flag (CAN_CTRL_FDEN n) = true)) →
      s.canClk n + (s.fld (CAN_TT_TIME_GUARD n) + s.frmL n (s.pubFrame n o)) * s.nomBit n ≤ winEnd s.reg n w * s.nomBit n →
      Effect (.ttWindowStart n w) s ([CAN_STAT n]) ([]) (fun u => (u.canSt n).tx.map (fun x => (x.obj, x.frame, x.excl)) = some (some o, s.asSent n (s.pubFrame n o), true) ∧ (u.canSt n).win = w.val)) ∧
  (∀ (n : Fin 4) (w : Fin 32) (o : Nat) (s : State),
      s.runs 10 (.can n) = true →
      s.canMayStart n = true →
      (s.flag (CAN_CTRL_TTEN n) = true ∧ 2 ≤ s.ttState n ∧ s.ttState n ≤ 4 ∧ 1 ≤ w.val ∧ w.val ≤ s.fld (CAN_TT_TIME_NWINM1 n)) →
      ttCell s.reg n (s.fld (CAN_TT_STAT_CYC n)) w = (2, o) →
      (((s.pubFrame n o).fmt.getLsbD 4 = false ∨ s.flag (CAN_CTRL_FDEN n) = true)) →
      winEnd s.reg n w * s.nomBit n < s.canClk n + (s.fld (CAN_TT_TIME_GUARD n) + s.frmL n (s.pubFrame n o)) * s.nomBit n →
      s.flag (CAN_NOTIFY_EN n) = false →
      Effect (.ttWindowStart n w) s ([CAN_MO_STAT n o, CAN_CNT n 15, CAN_IRQ n]) ([]) (fun u => (u.canSt n).tx = none ∧ u.fld (CAN_MO_STAT_TXRES n o) = 4)) ∧
  (∀ (n : Fin 4) (w : Fin 32) (s : State),
      s.runs 10 (.can n) = true →
      (s.ttSync n = true ∧ s.sofSince n (s.fld (CAN_TT_WIN_MARK n w)) = false) →
      (((ttCell s.reg n (s.fld (CAN_TT_STAT_CYC n)) w).1 = 1 ∨ ((ttCell s.reg n (s.fld (CAN_TT_STAT_CYC n)) w).1 = 2 ∧ (s.canSt n).exclDue = false))) →
      s.flag (CAN_NOTIFY_EN n) = false →
      Effect (.ttWindowEnd n w) s ([CAN_TT_EMPTY n w, CAN_IRQ n]) ([]) (fun u => (u.reg (CAN_IRQ n)).getLsbD 8 = true ∧ u.fld (CAN_TT_EMPTY_CNT n w) = min 65535 (s.fld (CAN_TT_EMPTY_CNT n w) + 1))) ∧
  (∀ (n : Fin 4) (w : Fin 32) (s : State),
      s.runs 10 (.can n) = true →
      (s.ttSync n = true ∧ s.sofSince n (s.fld (CAN_TT_WIN_MARK n w)) = true ∧ (s.canSt n).exclDue = false) →
      Effect (.ttWindowEnd n w) s ([]) ([]) (fun u => u.fld (CAN_TT_EMPTY_CNT n w) = s.fld (CAN_TT_EMPTY_CNT n w))) ∧
  (∀ (n : Fin 4) (khz : Word) (s : State),
      s.runs 10 (.can n) = true →
      s.flag (CAN_CTRL_TTEN n) = true →
      (((khz.toNat < 30000 ∨ 50000 < khz.toNat) ∧ (s.canSt n).gClosed = false)) →
      Effect (.guardianMeasure n khz) s ([]) ([(195 + 8 * n.val, 0, false)]) (fun u => (u.canSt n).gClosed = true ∧ (u.canSt n).gFreq = some khz.toNat ∧ u.guardOpen n = false)) ∧
  (∀ (n : Fin 4) (khz : Word) (s : State),
      s.runs 10 (.can n) = true →
      s.flag (CAN_CTRL_TTEN n) = true →
      (((khz.toNat < 30000 ∨ 50000 < khz.toNat) ∧ (s.canSt n).gClosed = true)) →
      Effect (.guardianMeasure n khz) s ([]) ([]) (fun u => (u.canSt n).gClosed = true ∧ (u.canSt n).gPass = 0)) ∧
  (∀ (n : Fin 4) (khz : Word) (s : State),
      s.runs 10 (.can n) = true →
      s.flag (CAN_CTRL_TTEN n) = true →
      (30000 ≤ khz.toNat ∧ khz.toNat ≤ 50000) →
      (s.canSt n).gFreq = some khz.toNat →
      Effect (.guardianMeasure n khz) s ([]) ([]) (fun u => (u.canSt n).gPass = (s.canSt n).gPass + 1 ∧ (u.canSt n).gClosed = ((s.canSt n).gClosed && decide ((s.canSt n).gPass = 0)))) ∧
  (∀ (n : Fin 4) (x : CanTx) (s : State),
      s.runs 10 (.can n) = true →
      s.flag (CAN_CTRL_TTEN n) = true →
      (s.canSt n).tx = some x →
      (x.obj = none ∧ s.ttState n ≠ 1 ∧ s.fld (CAN_ERR_TEC n) ≤ 247 ∧ s.fld (CAN_STAT_FCS n) ≠ 2) →
      s.flag (CAN_NOTIFY_EN n) = false →
      Effect (.guardianCut n) s ([CAN_CNT n 14, CAN_CNT n 6, CAN_IRQ n, CAN_ERRLOG n, CAN_ERR n, CAN_STAT n]) ([(196 + 8 * n.val, 0, false)]) (fun u => (u.canSt n).tx = none ∧ u.fld (CAN_ERR_TEC n) = s.fld (CAN_ERR_TEC n) + 8 ∧ (u.reg (CAN_IRQ n)).getLsbD 9 = true)) ∧
  (∀ (m : Master) (n : Fin 4) (s : State), Yields (.ttrestart m n) s (s.fieldWrite m (CAN_CTRL_TTRESTART n) 1)) ∧
  (∀ (n : Fin 4) (s : State), Yields (.startwaitExpiry n) s (s.inBlk 10 (.can n) (fun s => s.startWait n))) ∧
  (∀ (n : Fin 4) (s : State), Yields (.referenceMiss n) s (s.inBlk 10 (.can n) (fun s => s.refMiss n))) ∧
  (∀ (n : Fin 4) (s : State), Yields (.takeover n) s (s.inBlk 10 (.can n) (fun s => s.takeover n))) ∧
  (∀ (n : Fin 4) (w : Fin 32) (s : State), Yields (.ttWindowStart n w) s (s.inBlk 10 (.can n) (fun s => s.ttWindow n w))) ∧
  (∀ (n : Fin 4) (w : Fin 32) (s : State), Yields (.ttWindowEnd n w) s (s.inBlk 10 (.can n) (fun s => s.ttWindowEnd n w))) ∧
  (∀ (n : Fin 4) (khz : Word) (s : State), Yields (.guardianMeasure n khz) s (s.inBlk 10 (.can n) (fun s => s.guardMeasure n khz.toNat))) ∧
  (∀ (n : Fin 4) (s : State), Yields (.guardianCut n) s (s.inBlk 10 (.can n) (fun s => s.guardCut n))) ∧
  (∀ (n : Fin 4) (s : State), Yields (.basicCycleStart n) s (s.inBlk 10 (.can n) (fun s => s.basicCycle n)))

/-- An instance that enters cyclic exchange in a mode that runs it is in state 3; one that has a loss count and loses LOSSCNT cycles goes to state 4, adds them to its count and raises its source, and in OPERATIONAL asks for transition 10; an upper-level timeout adds its attempts and late successes and raises its source with both in INFO. Every command named here completes, from every state and with all operands: the last clauses give the operation that is its own effect. -/
def Obligations.ProtocolInstanceEvents : Prop :=
  (∀ (i : Fin 4) (x : InstSt) (s : State),
      s.inst i = some x →
      (s.cyclicMode = true ∧ x.st ≠ 3) →
      s.fw.running = false →
      Leaves (.cyclicExchangeStart i) s (fun u => u.inst i = some { x with st := 3 } ∧ u.pending = s.pending ∧ u.raises = s.raises)) ∧
  (∀ (i : Fin 4) (x : InstSt) (s : State),
      s.inst i = some x →
      (x.st = 3 ∧ x.hasLoss = true) →
      (s.mode = modeOPERATIONAL ∧ s.fw.running = false) →
      Leaves (.protLoss i) s (fun u => u.inst i = some { x with st := 4, lost := x.lost + lossCnt x.cfg } ∧ u.modeq = s.modeq ++ [(10, modeSAFEOP, 0x0B)] ∧ (372 + i.val, 0, false) ∈ u.raises)) ∧
  (∀ (i : Fin 4) (tries late : BitVec 16) (x : InstSt) (s : State),
      s.inst i = some x →
      s.fw.running = false →
      Effect (.protTimeout i tries late) s ([]) ([(368 + i.val, tries.toNat + 65536 * late.toNat, false)]) (fun u => u.inst i = some { x with tries := x.tries + tries.toNat, late := x.late + late.toNat })) ∧
  (∀ (i : Fin 4) (s : State), Yields (.protLoss i) s (s.protLoss i)) ∧
  (∀ (i : Fin 4) (tries late : BitVec 16) (s : State), Yields (.protTimeout i tries late) s (s.protTimeout i tries.toNat late.toNat)) ∧
  (∀ (i : Fin 4) (s : State), Yields (.cyclicExchangeStart i) s (s.cyclicStart i))

/-- A running cell between instructions issues the word at its PC: each instruction has the effect R207 gives and, unless it waits, stalls or jumps, goes on at PC + 1 modulo 32. A pull from an empty and a push to a full queue stall with BLK and set TXUNF or RXOVF without; a wait that is not met stays in progress; an ILLEGAL word halts the cell and raises its source. No other cell changes. Which boundaries and ticks count, that a written CNT equal to CMP is a match, and what POSTS reads without a snapshot are deduced (logs 102, 128 and 114). Every command named here completes, from every state and with all operands: the last clauses give the operation that is its own effect. -/
def Obligations.CellInstructions : Prop :=
  (∀ (c : Fin 32) (w : Nat) (s : State),
      s.nutAt c w = true →
      w / 256 = 0 →
      Effect (.nutNop c) s (nutRegs c) ([]) (fun u => s.nutBecomes u c (s.nutSt c) (s.fld (NUT_STAT_PC c) + 1) = true)) ∧
  (∀ (c : Fin 32) (w : Nat) (s : State),
      s.nutAt c w = true →
      w / 256 = 1 →
      Effect (.nutHalt c) s ([NUT_CTRL c] ++ nutRegs c) ([]) (fun u => u.flag (NUT_CTRL_EN c) = false ∧ s.nutBecomes u c { s.nutSt c with ip := none, armed := false } (s.fld (NUT_STAT_PC c) + 1) = true)) ∧
  (∀ (c : Fin 32) (w : Nat) (s : State),
      s.nutAt c w = true →
      w / 256 = 2 →
      ((s.nutSt c).pend = true ∧ s.flag (NUT_CFG_CNTRST c) = false) →
      Effect (.wstart c) s ([NUT_CNT c, NUT_STARTTS c] ++ nutRegs c) ([]) (fun u => s.nutBecomes u c { s.nutSt c with pend := false, armed := false, relAt := s.time.now, cntAt := s.time.now } (s.fld (NUT_STAT_PC c) + 1) = true ∧ u.reg (NUT_STARTTS c) = s.cyc0)) ∧
  (∀ (c : Fin 32) (w : Nat) (s : State),
      s.nutAt c w = true →
      w / 256 = 2 →
      (s.nutSt c).pend = false →
      Effect (.wstart c) s (nutRegs c) ([]) (fun u => s.nutBecomes u c { s.nutSt c with ip := some (w, false, false) } (s.fld (NUT_STAT_PC c)) = true)) ∧
  (∀ (c : Fin 32) (w : Nat) (s : State),
      s.nutAt c w = true →
      w / 256 = 3 →
      Effect (.mark c) s (nutRegs c) ([]) (fun u => s.nutBecomes u c { s.nutSt c with mark := true } (s.fld (NUT_STAT_PC c) + 1) = true)) ∧
  (∀ (c : Fin 32) (w : Nat) (s : State),
      s.nutAt c w = true →
      w / 256 = 4 →
      Effect (.crcclr c) s ([NUT_CRCST c] ++ nutRegs c) ([]) (fun u => s.nutBecomes u c (s.nutSt c) (s.fld (NUT_STAT_PC c) + 1) = true ∧ u.fld (NUT_CRCST_CRCST c) = s.fld (NUT_CRCVAL_INIT c) % 2 ^ (s.fld (NUT_CRCCFG_LENM1 c) + 1))) ∧
  (∀ (c : Fin 32) (w : Nat) (s : State),
      s.nutAt c w = true →
      w / 256 = 5 →
      Effect (.srclr c) s ([NUT_SR c] ++ nutRegs c) ([]) (fun u => s.nutBecomes u c (s.nutSt c) (s.fld (NUT_STAT_PC c) + 1) = true ∧ u.reg (NUT_SR c) = 0 ∧ u.fld (NUT_STAT_SRN c) = 0)) ∧
  (∀ (c : Fin 32) (w n : Nat) (s : State),
      s.nutAt c w = true →
      w / 4096 = 1 →
      n = (if w.testBit 9 then s.fld (NUT_X_X c) else w % 32 + 1) →
      n ≠ 0 →
      Effect (.shin c) s ([NUT_BC c] ++ nutRegs c) ([]) (fun u => s.nutBecomes u c { s.nutSt c with ip := some (w, false, false) } (s.fld (NUT_STAT_PC c)) = true ∧ u.fld (NUT_BC_BC c) = n % 65536)) ∧
  (∀ (c : Fin 32) (w n : Nat) (s : State),
      s.nutAt c w = true →
      w / 4096 = 2 →
      n = (if w.testBit 9 then s.fld (NUT_X_X c) else w % 32 + 1) →
      n ≠ 0 →
      Effect (.shout c) s ([NUT_BC c] ++ nutRegs c) ([]) (fun u => s.nutBecomes u c { s.nutSt c with ip := some (w, false, false) } (s.fld (NUT_STAT_PC c)) = true ∧ u.fld (NUT_BC_BC c) = n % 65536)) ∧
  (∀ (c : Fin 32) (w : Nat) (s : State),
      s.nutAt c w = true →
      (w / 4096 = 2 ∧ w.testBit 9 = true ∧ s.fld (NUT_X_X c) = 0) →
      Effect (.shout c) s ([NUT_BC c] ++ nutRegs c) ([]) (fun u => s.nutBecomes u c (s.nutSt c) (s.fld (NUT_STAT_PC c) + 1) = true)) ∧
  (∀ (c : Fin 32) (w : Nat) (v : Word) (l : List Word) (s : State),
      s.nutAt c w = true →
      (w / 4096 = 3 ∧ w % 8 = 0) →
      (s.nutSt c).txq = v :: l →
      Effect (.pull c) s ([NUT_SR c] ++ nutRegs c) ([]) (fun u => s.nutBecomes u c { s.nutSt c with txq := l } (s.fld (NUT_STAT_PC c) + 1) = true ∧ u.reg (NUT_SR c) = v ∧ u.fld (NUT_STAT_SRN c) = 32 ∧ u.fld (NUT_STAT_TXN c) = l.length % 32)) ∧
  (∀ (c : Fin 32) (w : Nat) (v : Word) (l : List Word) (s : State),
      s.nutAt c w = true →
      (w / 4096 = 3 ∧ w % 8 = 4) →
      (s.nutSt c).txq = v :: l →
      Effect (.pull c) s ([NUT_X c] ++ nutRegs c) ([]) (fun u => s.nutBecomes u c { s.nutSt c with txq := l } (s.fld (NUT_STAT_PC c) + 1) = true ∧ u.fld (NUT_X_X c) = bits v 15 0)) ∧
  (∀ (c : Fin 32) (w : Nat) (s : State),
      s.nutAt c w = true →
      (w / 4096 = 3 ∧ w % 8 ≤ 4 ∧ w.testBit 11 = true) →
      ((s.nutSt c).txq = [] ∧ s.nutJoin c = 0) →
      Effect (.pull c) s (nutRegs c) ([]) (fun u => s.nutBecomes u c { s.nutSt c with ip := some (w, false, true) } (s.fld (NUT_STAT_PC c)) = true)) ∧
  (∀ (c : Fin 32) (w : Nat) (s : State),
      s.nutAt c w = true →
      (w / 4096 = 3 ∧ w % 8 ≤ 4 ∧ w.testBit 11 = false) →
      (s.nutSt c).txq = [] →
      Effect (.pull c) s ([NUT_FLAGS c] ++ nutRegs c) ([]) (fun u => s.nutBecomes u c (s.nutSt c) (s.fld (NUT_STAT_PC c) + 1) = true ∧ u.flag (NUT_FLAGS_TXUNF c) = true)) ∧
  (∀ (c : Fin 32) (w : Nat) (s : State),
      s.nutAt c w = true →
      (w / 4096 = 4 ∧ w % 8 ≤ 3 ∧ w % 8 ≠ 1) →
      (s.nutSt c).rxq.length < s.rxCap c →
      Effect (.push c) s (nutRegs c) ([]) (fun u => s.nutBecomes u c { s.nutSt c with rxq := (s.nutSt c).rxq ++ [if w % 8 = 0 then s.reg (NUT_SR c) else if w % 8 = 2 then s.reg (NUT_CAPT c) else (s.nutSt c).hold] } (s.fld (NUT_STAT_PC c) + 1) = true ∧
  u.fld (NUT_STAT_SRN c) = (if w % 8 = 0 then 0 else s.fld (NUT_STAT_SRN c)))) ∧
  (∀ (c : Fin 32) (w : Nat) (s : State),
      s.nutAt c w = true →
      (w / 4096 = 4 ∧ w % 8 ≤ 3 ∧ w.testBit 11 = false) →
      s.rxCap c ≤ (s.nutSt c).rxq.length →
      Effect (.push c) s ([NUT_FLAGS c] ++ nutRegs c) ([]) (fun u => s.nutBecomes u c (s.nutSt c) (s.fld (NUT_STAT_PC c) + 1) = true ∧ u.flag (NUT_FLAGS_RXOVF c) = true)) ∧
  (∀ (c : Fin 32) (w : Nat) (s : State),
      s.nutAt c w = true →
      (w / 4096 = 4 ∧ w % 8 ≤ 3 ∧ w.testBit 11 = true) →
      (0 < s.rxCap c ∧ s.rxCap c ≤ (s.nutSt c).rxq.length) →
      Effect (.push c) s (nutRegs c) ([]) (fun u => s.nutBecomes u c { s.nutSt c with ip := some (w, false, true) } (s.fld (NUT_STAT_PC c)) = true)) ∧
  (∀ (c : Fin 32) (w : Nat) (s : State),
      s.nutAt c w = true →
      w / 4096 = 5 →
      Effect (.setp c) s (nutRegs c) ([]) (fun u => s.nutBecomes u c { s.nutSt c with lvlA := (if w / 4 % 4 = 1 then false else if w / 4 % 4 = 2 then true else if w / 4 % 4 = 3 then !(s.nutSt c).lvlA else (s.nutSt c).lvlA), lvlB := (if w % 4 = 1 then false else if w % 4 = 2 then true else if w % 4 = 3 then !(s.nutSt c).lvlB else (s.nutSt c).lvlB) } (s.fld (NUT_STAT_PC c) + 1) = true)) ∧
  (∀ (c : Fin 32) (w : Nat) (s : State),
      s.nutAt c w = true →
      (w / 4096 = 6 ∧ w / 1024 % 4 < 3 ∧ w / 256 % 4 < 2 ∧ w / 32 % 8 = 0) →
      Effect (.waitp c) s (nutRegs c) ([]) (fun u => if s.pinLvl c (w / 1024 % 4) = decide (w / 256 % 4 = 1) then s.nutBecomes u c { s.nutSt c with wp := s.pinsNow c } (s.fld (NUT_STAT_PC c) + 1) = true else s.nutBecomes u c { s.nutSt c with ip := some (w, false, false), wp := s.pinsNow c } (s.fld (NUT_STAT_PC c)) = true)) ∧
  (∀ (c : Fin 32) (w : Nat) (s : State),
      s.nutAt c w = true →
      (w / 4096 = 7 ∧ w.testBit 11 = false) →
      Effect (.waitt c) s (nutRegs c) ([]) (fun u => s.nutBecomes u c { s.nutSt c with ip := some (w, false, false) } (s.fld (NUT_STAT_PC c)) = true)) ∧
  (∀ (c : Fin 32) (w : Nat) (s : State),
      s.nutAt c w = true →
      (w / 4096 = 8 ∧ (s.nutSt c).matchAt ≠ some s.time.now) →
      Effect (.waitc c) s (nutRegs c) ([]) (fun u => s.nutBecomes u c { s.nutSt c with ip := some (w, false, false) } (s.fld (NUT_STAT_PC c)) = true)) ∧
  (∀ (c : Fin 32) (w : Nat) (s : State),
      s.nutAt c w = true →
      w / 4096 = 9 →
      Effect (.ldx c) s ([NUT_X c] ++ nutRegs c) ([]) (fun u => s.nutBecomes u c (s.nutSt c) (s.fld (NUT_STAT_PC c) + 1) = true ∧ u.fld (NUT_X_X c) = w % 4096)) ∧
  (∀ (c : Fin 32) (w : Nat) (s : State),
      s.nutAt c w = true →
      w / 4096 = 10 →
      Effect (.jmp c) s (nutRegs c) ([]) (fun u => s.nutBecomes u c (s.nutSt c) w = true)) ∧
  (∀ (c : Fin 32) (w : Nat) (s : State),
      s.nutAt c w = true →
      w / 4096 = 11 →
      Effect (.djnz c) s ([NUT_X c] ++ nutRegs c) ([]) (fun u => u.fld (NUT_X_X c) = (s.fld (NUT_X_X c) + 65535) % 65536 ∧ s.nutBecomes u c (s.nutSt c) (if s.fld (NUT_X_X c) = 1 then s.fld (NUT_STAT_PC c) + 1 else w) = true)) ∧
  (∀ (c : Fin 32) (w : Nat) (s : State),
      s.nutAt c w = true →
      (w / 4096 = 12 ∧ w / 512 % 8 < 6) →
      Effect (.jcond c) s (nutRegs c) ([]) (fun u => s.nutBecomes u c (s.nutSt c) (if s.pinLvl c (w / 1024 % 4) = decide (w / 512 % 2 = 1) then w else s.fld (NUT_STAT_PC c) + 1) = true)) ∧
  (∀ (c : Fin 32) (w : Nat) (s : State),
      s.nutAt c w = true →
      (w / 4096 = 12 ∧ 6 ≤ w / 512 % 8) →
      Effect (.jcond c) s (nutRegs c) ([]) (fun u => s.nutBecomes u c (s.nutSt c) (if decide (s.fld (NUT_CRCST_CRCST c) % 2 ^ (s.fld (NUT_CRCCFG_LENM1 c) + 1) = s.fld (NUT_CRCVAL_CHK c) % 2 ^ (s.fld (NUT_CRCCFG_LENM1 c) + 1)) = decide (w / 512 % 8 = 6) then w else s.fld (NUT_STAT_PC c) + 1) = true)) ∧
  (∀ (c : Fin 32) (w : Nat) (x : Item) (s : State),
      s.nutAt c w = true →
      w / 4096 = 13 →
      x = s.srcItem (s.fld (NUT_CFG_CLUSTER c)) 3 (w % 256) c false →
      (s.domOn 7 = true ∧ s.srcToken (s.fld (NUT_CFG_CLUSTER c)) 3 = false ∧ s.heldPost 3 c = none ∧ s.itemRoom x = true) →
      Effect (.flag c) s ([DISP_CAP (s.clusterOf x.cluster) x.level, DISP_STAT] ++ nutRegs c) ([]) (fun u => s.nutBecomes u c (s.nutSt c) (s.fld (NUT_STAT_PC c) + 1) = true ∧ x.kind = 3 ∧ x.arg = w % 256 ∧ x.aux = c.val ∧
  u.level (s.clusterOf x.cluster) x.level = s.level (s.clusterOf x.cluster) x.level ++ [{ x with stamp := s.cyc0.toNat }])) ∧
  (∀ (c : Fin 32) (w : Nat) (s : State),
      s.nutAt c w = true →
      (w / 4096 = 14 ∧ w / 1024 % 4 < 1) →
      Effect (.pos c) s (nutRegs c) ([]) (fun u => s.nutBecomes u c { s.nutSt c with hold := s.reg (NUT_SR c), holdTs := if w.testBit 9 then s.reg (NUT_MARKTS c) else s.cyc0 } (s.fld (NUT_STAT_PC c) + 1) = true)) ∧
  (∀ (c : Fin 32) (w : Nat) (s : State),
      s.nutAt c w = true →
      (w / 4096 = 14 ∧ w / 1024 % 4 = 2 ∧ s.flag (NUT_CFG_POSOUT c) = false) →
      Effect (.pos c) s ([NUT_POS c, NUT_POSTS c] ++ nutRegs c) ([]) (fun u => u.reg (NUT_POS c) = (s.nutSt c).hold ∧ u.reg (NUT_POSTS c) = (s.nutSt c).holdTs ∧ s.nutBecomes u c (s.nutSt c) (s.fld (NUT_STAT_PC c) + 1) = true)) ∧
  (∀ (c : Fin 32) (w : Nat) (s : State),
      s.nutAt c w = true →
      ((w / 4096 = 15 ∨ (w / 4096 = 0 ∧ 6 ≤ w / 256) ∨ (w / 4096 = 3 ∧ 5 ≤ w % 8) ∨ (w / 4096 = 4 ∧ 4 ≤ w % 8) ∨ (w / 4096 = 6 ∧ w / 1024 % 4 = 3))) →
      Effect (.nutIllegal c) s ([NUT_CTRL c, NUT_FLAGS c] ++ nutRegs c) ([(224 + c.val, 0, false)]) (fun u => u.flag (NUT_CTRL_EN c) = false ∧ u.flag (NUT_FLAGS_ILLEGAL c) = true ∧ s.nutBecomes u c { s.nutSt c with ip := none, armed := false } (s.fld (NUT_STAT_PC c)) = true)) ∧
  (∀ (c : Fin 32) (s : State), Yields (.nutNop c) s (s.nutRun c (isSub 0) State.opNop)) ∧
  (∀ (c : Fin 32) (s : State), Yields (.nutHalt c) s (s.nutRun c (isSub 1) State.opHalt)) ∧
  (∀ (c : Fin 32) (s : State), Yields (.wstart c) s (s.nutRun c (isSub 2) State.opWstart)) ∧
  (∀ (c : Fin 32) (s : State), Yields (.mark c) s (s.nutRun c (isSub 3) State.opMark)) ∧
  (∀ (c : Fin 32) (s : State), Yields (.crcclr c) s (s.nutRun c (isSub 4) State.opCrcclr)) ∧
  (∀ (c : Fin 32) (s : State), Yields (.srclr c) s (s.nutRun c (isSub 5) State.opSrclr)) ∧
  (∀ (c : Fin 32) (s : State), Yields (.shin c) s (s.nutRun c (isLegal 1) State.opShin)) ∧
  (∀ (c : Fin 32) (s : State), Yields (.shout c) s (s.nutRun c (isLegal 2) State.opShout)) ∧
  (∀ (c : Fin 32) (s : State), Yields (.pull c) s (s.nutRun c (isLegal 3) State.opPull)) ∧
  (∀ (c : Fin 32) (s : State), Yields (.push c) s (s.nutRun c (isLegal 4) State.opPush)) ∧
  (∀ (c : Fin 32) (s : State), Yields (.setp c) s (s.nutRun c (isLegal 5) State.opSetp)) ∧
  (∀ (c : Fin 32) (s : State), Yields (.waitp c) s (s.nutRun c (isLegal 6) State.opWaitp)) ∧
  (∀ (c : Fin 32) (s : State), Yields (.waitt c) s (s.nutRun c (isLegal 7) State.opWaitt)) ∧
  (∀ (c : Fin 32) (s : State), Yields (.waitc c) s (s.nutRun c (isLegal 8) State.opWaitc)) ∧
  (∀ (c : Fin 32) (s : State), Yields (.ldx c) s (s.nutRun c (isLegal 9) State.opLdx)) ∧
  (∀ (c : Fin 32) (s : State), Yields (.jmp c) s (s.nutRun c (isLegal 10) State.opJmp)) ∧
  (∀ (c : Fin 32) (s : State), Yields (.djnz c) s (s.nutRun c (isLegal 11) State.opDjnz)) ∧
  (∀ (c : Fin 32) (s : State), Yields (.jcond c) s (s.nutRun c (isLegal 12) State.opJcond)) ∧
  (∀ (c : Fin 32) (s : State), Yields (.flag c) s (s.nutRun c (isLegal 13) State.opFlag)) ∧
  (∀ (c : Fin 32) (s : State), Yields (.pos c) s (s.nutRun c (isLegal 14) State.opPos)) ∧
  (∀ (c : Fin 32) (s : State), Yields (.nutIllegal c) s (s.nutRun c isIllegal (fun s c _ => s.nutIllegal c)))

/-- A shift in takes its samples, first bit highest without LSBF, and completes at its last; a shift out presents the bits that leave SR in their order, zeros after the 32nd; a stalled pull goes on once a word is there; a WAITP that is met captures where it says and completes, as a WAITT does at its last boundary; counting edges, matches and ZCAP do what R205 gives; a wrap makes CNT 0 and the shadows of CMP and PER active, a match there acts before the wrap's own action; a start releases an armed cell; LIMIT boundaries of a wait abort it at VEC and raise the source. Which boundaries and ticks count, that a written CNT equal to CMP is a match, and what POSTS reads without a snapshot are deduced (logs 102, 128 and 114). Every command named here completes, from every state and with all operands: the last clauses give the operation that is its own effect. -/
def Obligations.CellEvents : Prop :=
  (∀ (c : Fin 32) (w : Nat) (p : Fin 8) (b : Bool) (inj : Bool) (s : State),
      (s.runs 10 .nut = true ∧ s.nutFresh c = true ∧ b = (s.setLvls c p).shInput c s.time.now) →
      ((s.nutSt c).ip = some (w, inj, false) ∧ s.fld (NUT_BC_BC c) = 1) →
      (w / 4096 = 1 ∧ w.testBit 10 = false ∧ w.testBit 8 = false) →
      Effect (.shiftEnd c [p]) s ([NUT_SR c, NUT_BC c] ++ nutRegs c) ([]) (fun u => u.reg (NUT_SR c) = (if s.flag (NUT_CFG_LSBF c) then w32 (s.regN (NUT_SR c) / 2 + 2 ^ 31 * bit b) else w32 (s.regN (NUT_SR c) * 2 + bit b)) ∧ u.fld (NUT_BC_BC c) = 0 ∧
  u.fld (NUT_STAT_SRN c) = min 32 (s.fld (NUT_STAT_SRN c) + 1) ∧ s.nutBecomes u c { s.nutSt c with ip := none } (s.fld (NUT_STAT_PC c) + if inj then 0 else 1) = true)) ∧
  (∀ (c : Fin 32) (w : Nat) (p : Fin 8) (l : List (Fin 8)) (s : State),
      (s.runs 10 .nut = true ∧ s.nutFresh c = true) →
      ((s.nutSt c).ip = some (w, false, false) ∧ s.fld (NUT_BC_BC c) = l.length + 1) →
      (w / 4096 = 1 ∧ w.testBit 10 = false ∧ w.testBit 8 = false ∧ s.flag (NUT_CFG_LSBF c) = false) →
      Leaves (.shiftEnd c (p :: l)) s (fun u => u.reg (NUT_SR c) = (p :: l).foldl (fun (r : Word) (x : Fin 8) => w32 (r.toNat * 2 + bit ((s.setLvls c x).shInput c s.time.now))) (s.reg (NUT_SR c)) ∧ u.fld (NUT_BC_BC c) = 0 ∧ (u.nutSt c).ip = none ∧ u.pending = s.pending)) ∧
  (∀ (c : Fin 32) (w n : Nat) (l : List (Fin 8)) (s : State),
      (s.runs 10 .nut = true ∧ s.nutFresh c = true) →
      ((s.nutSt c).ip = some (w, false, false) ∧ s.fld (NUT_BC_BC c) = n + 1) →
      (w / 4096 = 2 ∧ w.testBit 10 = false ∧ w.testBit 8 = false ∧ s.flag (NUT_CFG_LSBF c) = false) →
      Effect (.shiftEnd c l) s ([NUT_SR c, NUT_BC c] ++ nutRegs c) ([]) (fun u => u.reg (NUT_SR c) = s.reg (NUT_SR c) <<< (n + 1) ∧ u.fld (NUT_STAT_SRN c) = s.fld (NUT_STAT_SRN c) - (n + 1) ∧ u.fld (NUT_BC_BC c) = 0 ∧
  u.out = .nut c ((List.range (n + 1)).map (fun i => (s.reg (NUT_SR c)).getMsbD i)) :: s.out ∧
  s.nutBecomes u c { s.nutSt c with ip := none, sout := (s.reg (NUT_SR c)).getMsbD n } (s.fld (NUT_STAT_PC c) + 1) = true)) ∧
  (∀ (c : Fin 32) (w n : Nat) (l : List (Fin 8)) (s : State),
      (s.runs 10 .nut = true ∧ s.nutFresh c = true) →
      ((s.nutSt c).ip = some (w, false, false) ∧ s.fld (NUT_BC_BC c) = n + 1) →
      (w / 4096 = 2 ∧ w.testBit 10 = false ∧ w.testBit 8 = false ∧ s.flag (NUT_CFG_LSBF c) = true) →
      Effect (.shiftEnd c l) s ([NUT_SR c, NUT_BC c] ++ nutRegs c) ([]) (fun u => u.reg (NUT_SR c) = s.reg (NUT_SR c) >>> (n + 1) ∧ u.out = .nut c ((List.range (n + 1)).map (fun i => (s.reg (NUT_SR c)).getLsbD i)) :: s.out ∧
  s.nutBecomes u c { s.nutSt c with ip := none, sout := (s.reg (NUT_SR c)).getLsbD n } (s.fld (NUT_STAT_PC c) + 1) = true)) ∧
  (∀ (c : Fin 32) (w : Nat) (v : Word) (l : List Word) (s : State),
      (s.runs 10 .nut = true ∧ (s.nutSt c).plock = none) →
      (s.nutSt c).ip = some (w, false, true) →
      (w / 4096 = 3 ∧ w % 8 = 4) →
      (s.nutSt c).txq = v :: l →
      Effect (.nutQueueStallEnd c) s ([NUT_X c] ++ nutRegs c) ([]) (fun u => u.fld (NUT_X_X c) = bits v 15 0 ∧ s.nutBecomes u c { s.nutSt c with ip := none, txq := l } (s.fld (NUT_STAT_PC c) + 1) = true)) ∧
  (∀ (c : Fin 32) (w : Nat) (s : State),
      s.runs 10 .nut = true →
      (s.nutSt c).ip = some (w, false, true) →
      (w / 4096 = 3 ∧ (s.nutSt c).txq = [] ∧ w.testBit 11 = true ∧ s.nutJoin c = 0 ∧ w % 8 ≤ 4) →
      Effect (.nutQueueStallEnd c) s (nutRegs c) ([]) (fun u => u.nutSt c = { s.nutSt c with clkAt := s.time.now })) ∧
  (∀ (c : Fin 32) (p : Fin 8) (w : Nat) (s : State),
      (s.runs 10 .nut = true ∧ s.nutNow = true ∧ s.nutFresh c = true) →
      (s.nutSt c).ip = some (w, false, false) →
      (w / 4096 = 6 ∧ w / 1024 % 4 = 0 ∧ w / 256 % 4 = 2 ∧ w.testBit 5 = true ∧ w.testBit 6 = false) →
      ((s.setLvls c p).pinLvl c 0 = true ∧ (s.nutSt c).wp.testBit 0 = false) →
      Effect (.waitpMet c p) s ([NUT_CNT c, NUT_CAPT c, NUT_CAPTTS c] ++ nutRegs c) ([]) (fun u => u.reg (NUT_CAPT c) = w32 (s.nutCnt c) ∧ u.reg (NUT_CAPTTS c) = s.cyc0 ∧ u.np = (s.setLvls c p).np ∧
  s.nutBecomes u c { s.nutSt c with ip := none, cntAt := s.time.now, wp := (s.setLvls c p).pinsNow c } (s.fld (NUT_STAT_PC c) + 1) = true)) ∧
  (∀ (c : Fin 32) (w : Nat) (s : State),
      (s.runs 10 .nut = true ∧ s.nutFresh c = true) →
      ((s.nutSt c).ip = some (w, false, false) ∧ w / 4096 = 7) →
      Effect (.waittEnd c) s (nutRegs c) ([]) (fun u => s.nutBecomes u c { s.nutSt c with ip := none } (s.fld (NUT_STAT_PC c) + 1) = true)) ∧
  (∀ (c : Fin 32) (p : Fin 8) (s : State),
      (s.runs 10 .nut = true ∧ s.nutNow = true ∧ s.filtOk c 0 1 = true ∧ s.filtOk c 1 1 = true) →
      s.fld (NUT_CFG_CMODE c) = 4 →
      ((s.setLvls c p).pinLvl c 0 = true ∧ (s.setLvls c p).pinLvl c 1 = false ∧ (s.nutSt c).fp.testBit 0 = false) →
      w32 (s.regN (NUT_CNT c) + 1) ≠ s.reg (NUT_CMP c) →
      Effect (.nutCountEdge c p) s ([NUT_CNT c] ++ nutRegs c) ([]) (fun u => u.reg (NUT_CNT c) = w32 (s.regN (NUT_CNT c) + 1) ∧ u.np = (s.setLvls c p).np ∧ (u.nutSt c).fp.testBit 0 = true)) ∧
  (∀ (c : Fin 32) (p : Fin 8) (s : State),
      (s.runs 10 .nut = true ∧ s.nutNow = true ∧ s.filtOk c 0 1 = true ∧ s.filtOk c 1 1 = true) →
      s.fld (NUT_CFG_CMODE c) = 3 →
      ((s.setLvls c p).pinLvl c 0 = true ∧ (s.setLvls c p).pinLvl c 1 = true ∧ (s.nutSt c).fp % 4 = 0) →
      Effect (.nutCountEdge c p) s ([NUT_FLAGS c] ++ nutRegs c) ([]) (fun u => u.flag (NUT_FLAGS_QERR c) = true ∧ u.reg (NUT_CNT c) = s.reg (NUT_CNT c))) ∧
  (∀ (c : Fin 32) (s : State),
      s.runs 10 .nut = true →
      (s.fld (NUT_CFG_CMODE c) = 1 ∧ (s.nutSt c).ip = none) →
      Effect (.nutMatch c) s ([NUT_CNT c] ++ nutRegs c) ([]) (fun u => u.reg (NUT_CNT c) = s.reg (NUT_CMP c) ∧ (u.nutSt c).cout = (if s.fld (NUT_CFG_CMPM c) = 1 then false else if s.fld (NUT_CFG_CMPM c) = 2 then true else if s.fld (NUT_CFG_CMPM c) = 3 then !(s.nutSt c).cout else (s.nutSt c).cout))) ∧
  (∀ (c : Fin 32) (w : Nat) (s : State),
      s.runs 10 .nut = true →
      (s.fld (NUT_CFG_CMODE c) = 2 ∧ (s.nutSt c).ip = some (w, false, false) ∧ w / 4096 = 8) →
      Effect (.nutMatch c) s ([NUT_CNT c] ++ nutRegs c) ([]) (fun u => u.reg (NUT_CNT c) = s.reg (NUT_CMP c) ∧ (u.nutSt c).ip = none ∧ u.fld (NUT_STAT_PC c) = (s.fld (NUT_STAT_PC c) + 1) % 32)) ∧
  (∀ (c : Fin 32) (v : Word) (s : State),
      s.runs 10 .nut = true →
      (((s.fld (NUT_CFG_CMODE c) = 1 ∨ s.fld (NUT_CFG_CMODE c) = 2) ∧ s.reg (NUT_PER c) ≠ 0)) →
      (v = (s.nutSt c).cmpS.getD (s.reg (NUT_CMP c)) ∧ v ≠ 0) →
      Effect (.nutWrap c) s ([NUT_CNT c, NUT_CMP c, NUT_PER c] ++ nutRegs c) ([]) (fun u => u.reg (NUT_CNT c) = 0 ∧ u.reg (NUT_CMP c) = v ∧ u.reg (NUT_PER c) = (s.nutSt c).perS.getD (s.reg (NUT_PER c)) ∧ (u.nutSt c).cmpS = none ∧ (u.nutSt c).perS = none ∧ (u.nutSt c).ip = (s.nutSt c).ip ∧
  (u.nutSt c).cout = (if s.fld (NUT_CFG_CMPW c) = 1 then false else if s.fld (NUT_CFG_CMPW c) = 2 then true else if s.fld (NUT_CFG_CMPW c) = 3 then !(s.nutSt c).cout else (s.nutSt c).cout))) ∧
  (∀ (c : Fin 32) (s : State),
      s.runs 10 .nut = true →
      (((s.fld (NUT_CFG_CMODE c) = 1 ∨ s.fld (NUT_CFG_CMODE c) = 2) ∧ s.reg (NUT_PER c) ≠ 0)) →
      ((s.nutSt c).cmpS.getD (s.reg (NUT_CMP c)) = 0 ∧ (s.nutSt c).ip = none) →
      Effect (.nutWrap c) s ([NUT_CNT c, NUT_CMP c, NUT_PER c] ++ nutRegs c) ([]) (fun u => u.reg (NUT_CNT c) = 0 ∧ u.reg (NUT_CMP c) = 0 ∧ (u.nutSt c).cout = (if s.fld (NUT_CFG_CMPW c) = 1 then false else if s.fld (NUT_CFG_CMPW c) = 2 then true else
  if s.fld (NUT_CFG_CMPW c) = 3 then !(if s.fld (NUT_CFG_CMPM c) = 1 then false else if s.fld (NUT_CFG_CMPM c) = 2 then true else if s.fld (NUT_CFG_CMPM c) = 3 then !(s.nutSt c).cout else (s.nutSt c).cout)
  else if s.fld (NUT_CFG_CMPM c) = 1 then false else if s.fld (NUT_CFG_CMPM c) = 2 then true else if s.fld (NUT_CFG_CMPM c) = 3 then !(s.nutSt c).cout else (s.nutSt c).cout))) ∧
  (∀ (c : Fin 32) (s : State),
      (s.runs 10 .nut = true ∧ s.nutNow = true ∧ s.filtOk c 2 2 = true) →
      s.flag (NUT_CFG_ZCAP c) = true →
      Effect (.zcap c) s ([NUT_CNT c, NUT_CAPT c, NUT_CAPTTS c, NUT_FLAGS c] ++ nutRegs c) ([]) (fun u => u.reg (NUT_CAPT c) = w32 (s.nutCnt c) ∧ u.reg (NUT_CAPTTS c) = s.cyc0 ∧ u.flag (NUT_FLAGS_ZEV c) = true)) ∧
  (∀ (c : Fin 32) (t : Nat) (s : State),
      s.runs 10 .nut = true →
      ((s.nutSt c).starts = [t] ∧ t + 10 ≤ s.time.now ∧ (s.nutSt c).plock = none ∧ (s.nutSt c).clkAt ≤ s.time.now ∧ (s.nutSt c).armed = true ∧ (s.nutSt c).stopped = false ∧ s.flag (NUT_CTRL_EN c) = true ∧ s.flag (NUT_CFG_CNTRST c) = false) →
      (∀ k : Fin 32, k ≠ c → (s.nutSt k).starts = []) →
      Effect (.nutRelease) s ([NUT_CNT c, NUT_STARTTS c] ++ nutRegs c) ([]) (fun u => u.reg (NUT_STARTTS c) = s.cyc0 ∧ s.nutBecomes u c { s.nutSt c with starts := [], armed := false, relAt := s.time.now, cntAt := s.time.now } 0 = true)) ∧
  (∀ (c : Fin 32) (w : Nat) (s : State),
      (s.runs 10 .nut = true ∧ s.nutFresh c = true) →
      (s.fld (NUT_WDOG_LIMIT c) ≠ 0 ∧ (s.nutSt c).ip = some (w, false, false) ∧ w / 4096 = 6) →
      Effect (.nutWdogTimeout c) s ([NUT_FLAGS c] ++ nutRegs c) ([(224 + c.val, 0, false)]) (fun u => u.flag (NUT_FLAGS_TIMEOUT c) = true ∧ s.nutBecomes u c { s.nutSt c with ip := none } (s.fld (NUT_WDOG_VEC c)) = true)) ∧
  (∀ (c : Fin 32) (samples : List (Fin 8)) (s : State), Yields (.shiftEnd c samples) s (s.inBlk 10 .nut (fun s => s.shiftEnd c samples))) ∧
  (∀ (c : Fin 32) (s : State), Yields (.nutQueueStallEnd c) s (s.inBlk 10 .nut (fun s => s.nutStallEnd c))) ∧
  (∀ (c : Fin 32) (pins : Fin 8) (s : State), Yields (.waitpMet c pins) s (s.inBlk 10 .nut (fun s => s.waitpMet c pins))) ∧
  (∀ (c : Fin 32) (s : State), Yields (.waittEnd c) s (s.inBlk 10 .nut (fun s => s.waittEnd c))) ∧
  (∀ (c : Fin 32) (pins : Fin 8) (s : State), Yields (.nutCountEdge c pins) s (s.cellEdge c pins)) ∧
  (∀ (c : Fin 32) (s : State), Yields (.nutMatch c) s (s.inBlk 10 .nut (fun s => s.freeMatch c))) ∧
  (∀ (c : Fin 32) (s : State), Yields (.nutWrap c) s (s.inBlk 10 .nut (fun s => s.freeWrap c))) ∧
  (∀ (c : Fin 32) (s : State), Yields (.zcap c) s (s.inBlk 10 .nut (fun s => s.zcap c))) ∧
  (∀ (s : State), Yields (.nutRelease) s (s.inBlk 10 .nut (fun s => s.nutStarts))) ∧
  (∀ (c : Fin 32) (s : State), Yields (.nutWdogTimeout c) s (s.inBlk 10 .nut (fun s => s.wdogFire c)))

/-- SWSTART releases an armed cell, is held pending by a running one and sets STARTOVR where one is pending; EN starts a cell at PC 0 in its release cycle, arms it or halts it; QCLR empties both queues; INJ queues an instruction, FORCE aborts the one in progress, a second sets INJLOST; an injected instruction leaves the PC; TXQ writes append or set TXOVF; RXQ reads remove the oldest word, except through JTAG, or set RXUNF; a JOIN change empties the queues of the pair or is noted while a cell runs. Which boundaries and ticks count, that a written CNT equal to CMP is a match, and what POSTS reads without a snapshot are deduced (logs 102, 128 and 114). Every command named here completes, from every state and with all operands: the last clauses give the operation that is its own effect. -/
def Obligations.CellRegisterCommands : Prop :=
  (∀ (m : Master) (c : Fin 32) (s : State),
      s.grantsF m (NUT_CTRL_SWSTART c) 1 = true →
      (s.runs 10 .nut = true ∧ s.nutFresh c = true) →
      (s.flag (NUT_CTRL_EN c) = true ∧ (s.nutSt c).stopped = false ∧ (s.nutSt c).armed = false ∧ (s.nutSt c).ip = none ∧ (s.nutSt c).pend = false) →
      Effect (.swstart m c) s ([NUT_CTRL c] ++ nutRegs c) ([]) (fun u => s.nutBecomes u c { s.nutSt c with pend := true } (s.fld (NUT_STAT_PC c)) = true ∧ u.flag (NUT_STAT_STARTPEND c) = true)) ∧
  (∀ (m : Master) (c : Fin 32) (s : State),
      s.grantsF m (NUT_CTRL_SWSTART c) 1 = true →
      (s.runs 10 .nut = true ∧ s.nutFresh c = true) →
      (s.flag (NUT_CTRL_EN c) = true ∧ (s.nutSt c).stopped = false ∧ (s.nutSt c).armed = false ∧ (s.nutSt c).ip = none ∧ (s.nutSt c).pend = true) →
      Effect (.swstart m c) s ([NUT_CTRL c, NUT_FLAGS c] ++ nutRegs c) ([]) (fun u => s.nutBecomes u c (s.nutSt c) (s.fld (NUT_STAT_PC c)) = true ∧ u.flag (NUT_FLAGS_STARTOVR c) = true)) ∧
  (∀ (m : Master) (c : Fin 32) (v : Word) (s : State),
      s.grants m (NUT_CTRL c) v = true →
      (s.runs 10 .nut = true ∧ s.nutFresh c = true) →
      (bits v 3 0 = 1 ∧ s.flag (NUT_CTRL_EN c) = false ∧ s.flag (NUT_CFG_CNTRST c) = false) →
      Effect (.nutEnable m c v) s ([NUT_CTRL c, NUT_CNT c, NUT_STARTTS c] ++ nutRegs c) ([]) (fun u => u.flag (NUT_CTRL_EN c) = true ∧ u.reg (NUT_STARTTS c) = s.cyc0 ∧ s.nutBecomes u c { s.nutSt c with armed := false, ip := none, relAt := s.time.now, cntAt := s.time.now } 0 = true)) ∧
  (∀ (m : Master) (c : Fin 32) (v : Word) (s : State),
      s.grants m (NUT_CTRL c) v = true →
      (s.runs 10 .nut = true ∧ s.nutFresh c = true) →
      (bits v 3 0 = 3 ∧ s.flag (NUT_CTRL_EN c) = false) →
      Effect (.nutEnable m c v) s ([NUT_CTRL c] ++ nutRegs c) ([]) (fun u => u.flag (NUT_CTRL_EN c) = true ∧ s.nutBecomes u c { s.nutSt c with armed := true, ip := none } (s.fld (NUT_STAT_PC c)) = true)) ∧
  (∀ (m : Master) (c : Fin 32) (v : Word) (s : State),
      s.grants m (NUT_CTRL c) v = true →
      (s.runs 10 .nut = true ∧ s.nutFresh c = true) →
      (bits v 3 0 = 0 ∧ s.flag (NUT_CTRL_EN c) = true) →
      Effect (.nutEnable m c v) s ([NUT_CTRL c] ++ nutRegs c) ([]) (fun u => u.flag (NUT_CTRL_EN c) = false ∧ s.nutBecomes u c { s.nutSt c with pend := false, ip := none, armed := false } (s.fld (NUT_STAT_PC c)) = true)) ∧
  (∀ (m : Master) (c : Fin 32) (s : State),
      s.grantsF m (NUT_CTRL_QCLR c) 1 = true →
      (s.runs 10 .nut = true ∧ s.nutFresh c = true) →
      (s.nutSt c).ip = none →
      Effect (.qclr m c) s ([NUT_CTRL c] ++ nutRegs c) ([]) (fun u => s.nutBecomes u c { s.nutSt c with txq := [], rxq := [] } (s.fld (NUT_STAT_PC c)) = true)) ∧
  (∀ (m : Master) (c : Fin 32) (v : Word) (w : Nat) (s : State),
      s.grants m (NUT_INJ c) v = true →
      (s.runs 10 .nut = true ∧ s.nutFresh c = true) →
      ((s.nutSt c).inj = none ∧ (s.nutSt c).ip = some (w, false, false)) →
      Effect (.inj m c v) s ([NUT_FLAGS c] ++ nutRegs c) ([]) (fun u => s.nutBecomes u c { s.nutSt c with inj := some (bits v 15 0), ip := if v.getLsbD 16 then none else some (w, false, false) } (s.fld (NUT_STAT_PC c)) = true ∧ u.flag (NUT_FLAGS_ABORTED c) = (s.flag (NUT_FLAGS_ABORTED c) || v.getLsbD 16))) ∧
  (∀ (m : Master) (c : Fin 32) (v : Word) (s : State),
      s.grants m (NUT_INJ c) v = true →
      (s.runs 10 .nut = true ∧ s.nutFresh c = true) →
      (s.nutSt c).inj ≠ none →
      Effect (.inj m c v) s ([NUT_FLAGS c]) ([]) (fun u => u.nut = s.nut ∧ u.flag (NUT_FLAGS_INJLOST c) = true)) ∧
  (∀ (c : Fin 32) (w : Nat) (s : State),
      (s.runs 10 .nut = true ∧ s.nutFresh c = true) →
      ((s.nutSt c).inj = some w ∧ (s.nutSt c).ip = none ∧ (s.nutSt c).stopped = false ∧ w / 4096 = 9) →
      Effect (.injectIssue c) s ([NUT_X c] ++ nutRegs c) ([]) (fun u => u.fld (NUT_X_X c) = w % 4096 ∧ s.nutBecomes u c { s.nutSt c with inj := none } (s.fld (NUT_STAT_PC c)) = true)) ∧
  (∀ (c : Fin 32) (w : Nat) (s : State),
      (s.runs 10 .nut = true ∧ s.nutFresh c = true) →
      ((s.nutSt c).inj = some w ∧ (s.nutSt c).ip = none ∧ (s.nutSt c).stopped = false ∧ w / 4096 = 10) →
      (s.flag (NUT_CTRL_EN c) = false ∧ s.flag (NUT_CFG_CNTRST c) = false) →
      Effect (.injectIssue c) s ([NUT_CTRL c, NUT_CNT c, NUT_STARTTS c] ++ nutRegs c) ([]) (fun u => u.flag (NUT_CTRL_EN c) = true ∧ u.fld (NUT_STAT_PC c) = w % 32 ∧ u.reg (NUT_STARTTS c) = s.cyc0 ∧ (u.nutSt c).inj = none)) ∧
  (∀ (m : Master) (c : Fin 32) (v : Word) (s : State),
      s.grants m (NUT_TXQ c) v = true →
      (s.runs 10 .nut = true ∧ s.nutFresh c = true) →
      (s.nutSt c).txq.length < s.txCap c →
      Effect (.txqWrite m c v) s (nutRegs c) ([]) (fun u => s.nutBecomes u c { s.nutSt c with txq := (s.nutSt c).txq ++ [v] } (s.fld (NUT_STAT_PC c)) = true)) ∧
  (∀ (m : Master) (c : Fin 32) (v : Word) (s : State),
      s.grants m (NUT_TXQ c) v = true →
      (s.runs 10 .nut = true ∧ s.nutFresh c = true) →
      s.txCap c ≤ (s.nutSt c).txq.length →
      Effect (.txqWrite m c v) s ([NUT_FLAGS c]) ([]) (fun u => u.nut = s.nut ∧ u.flag (NUT_FLAGS_TXOVF c) = true)) ∧
  (∀ (m : Master) (c : Fin 32) (v : Word) (l : List Word) (s : State),
      s.reads m (NUT_RXQ c) = true →
      (s.runs 10 .nut = true ∧ s.nutFresh c = true) →
      (s.nutSt c).rxq = v :: l →
      Effect (.rxqRead m c) s (nutRegs c) ([]) (fun u => u.rdata = v.setWidth 64 ∧ (u.nutSt c).rxq = if m = .jtag then v :: l else l)) ∧
  (∀ (m : Master) (c : Fin 32) (s : State),
      s.reads m (NUT_RXQ c) = true →
      (s.runs 10 .nut = true ∧ s.nutFresh c = true) →
      (s.nutSt c).rxq = [] →
      Effect (.rxqRead m c) s ([NUT_FLAGS c] ++ nutRegs c) ([]) (fun u => u.rdata = 0 ∧ u.flag (NUT_FLAGS_RXUNF c) = true)) ∧
  (∀ (m : Master) (c : Fin 32) (s : State),
      s.reads m (NUT_POS c) = true →
      (s.runs 10 .nut = true ∧ s.nutFresh c = true) →
      Effect (.nutPosRead m c) s ([NUT_STAT c]) ([]) (fun u => u.rdata = (s.reg (NUT_POS c)).setWidth 64 ∧ u.nutSt c = s.nutSt c ∧ u.snap m (NUT_POSTS c) = s.reg (NUT_POSTS c))) ∧
  (∀ (m : Master) (c : Fin 32) (v : Word) (s : State),
      s.grants m (NUT_CFG c) v = true →
      (s.runs 10 .nut = true ∧ s.nutFresh c = true) →
      (c.val % 2 = 0 ∧ bits v 17 16 ≠ s.fld (NUT_CFG_JOIN c)) →
      (s.flag (NUT_CTRL_EN c) = false ∧ s.flag (NUT_CTRL_EN (c + 1)) = false) →
      Effect (.joinWrite m c v) s ([NUT_CFG c, NUT_CNT c] ++ nutRegs c ++ nutRegs (c + 1)) ([]) (fun u => u.fld (NUT_CFG_JOIN c) = bits v 17 16 ∧ (u.nutSt c).txq = [] ∧ (u.nutSt c).rxq = [] ∧ (u.nutSt (c + 1)).txq = [] ∧ (u.nutSt (c + 1)).rxq = [])) ∧
  (∀ (m : Master) (c : Fin 32) (v : Word) (s : State),
      s.grants m (NUT_CFG c) v = true →
      (s.runs 10 .nut = true ∧ s.nutFresh c = true) →
      (c.val % 2 = 0 ∧ bits v 17 16 ≠ s.fld (NUT_CFG_JOIN c)) →
      s.flag (NUT_CTRL_EN c) = true →
      Effect (.joinWrite m c v) s ([NUT_CNT c] ++ nutRegs c) ([(14, 0, false)]) (fun u => u.reg (NUT_CFG c) = s.reg (NUT_CFG c))) ∧
  (∀ (m : Master) (c : Fin 32) (s : State), Yields (.swstart m c) s (s.fieldWrite m (NUT_CTRL_SWSTART c) 1)) ∧
  (∀ (m : Master) (c : Fin 32) (v : Word) (s : State), Yields (.nutEnable m c v) s (s.wordWrite m (NUT_CTRL c) v)) ∧
  (∀ (m : Master) (c : Fin 32) (s : State), Yields (.qclr m c) s (s.fieldWrite m (NUT_CTRL_QCLR c) 1)) ∧
  (∀ (m : Master) (c : Fin 32) (v : Word) (s : State), Yields (.inj m c v) s (s.wordWrite m (NUT_INJ c) v)) ∧
  (∀ (c : Fin 32) (s : State), Yields (.injectIssue c) s (s.inBlk 10 .nut (fun s => s.injIssue c))) ∧
  (∀ (m : Master) (c : Fin 32) (v : Word) (s : State), Yields (.txqWrite m c v) s (s.wordWrite m (NUT_TXQ c) v)) ∧
  (∀ (m : Master) (c : Fin 32) (s : State), Yields (.rxqRead m c) s (s.busRead m (NUT_RXQ c) 4)) ∧
  (∀ (m : Master) (c : Fin 32) (s : State), Yields (.nutPosRead m c) s (s.busRead m (NUT_POS c) 4)) ∧
  (∀ (m : Master) (c : Fin 32) (v : Word) (s : State), Yields (.joinWrite m c v) s (s.wordWrite m (NUT_CFG c) v))

/-- A write of a network value stores it, and triggers an enabled context bound to it, which SWTRIG also does: the context queues with its inputs latched, or counts a trigger lost where one is pending. The next context of the queues starts, or is skipped and counted past its deadline. A coefficient write goes to the inactive set, which becomes the active one at the start of the next evaluation where no rule fails; the copy after that swap fills the other; SRAM writes act on the inactive bank alone. STCLR zeroes the states, EN = 0 discards the trigger, capture starts in its buffer or sets BADBUF, a brake test takes its context. Where a shadow word keeps its reserved bits, which locks act and what the bank copy does with a lost word are logs 18, 156, 157 and 159 (the model's reading). Every command named here completes, from every state and with all operands: the last clauses give the operation that is its own effect. -/
def Obligations.LoopTriggersAndSets : Prop :=
  (∀ (m : Master) (i : Fin 4096) (v : Word) (s : State),
      s.grants m (LOOP_NV i) v = true →
      s.runs 9 .loop = true →
      (∀ k : Fin 256, s.flag (LOOP_CTX_CTRL_EN k) = false) →
      Effect (.loopNvWrite m i v) s ([LOOP_NV i]) ([]) (fun u => u.reg (LOOP_NV i) = v ∧ u.loop = s.loop)) ∧
  (∀ (m : Master) (i : Fin 4096) (v : Word) (k : Fin 256) (s : State),
      s.grants m (LOOP_NV i) v = true →
      s.runs 9 .loop = true →
      (∀ j : Fin 256, j ≠ k → s.flag (LOOP_CTX_CTRL_EN j) = false) →
      (s.flag LOOP_CTRL_EN = true ∧ s.flag (LOOP_CTX_CTRL_EN k) = true ∧ s.loopRuns k = true) →
      (s.fld (LOOP_CTX_CFG_TRIG k) = 1 ∧ s.fld (LOOP_CTX_CFG_TRIGNV k) = i.val ∧ s.flag (LOOP_CTX_STAT_PEND k) = false ∧ s.flag (LOOP_CTX_CFG_PRIO k) = true) →
      Effect (.loopNvWrite m i v) s ([LOOP_NV i, LOOP_CTX_STAT k, LOOP_STAT]) ([]) (fun u => u.reg (LOOP_NV i) = v ∧ u.loop.hi = s.loop.hi ++ [k.val] ∧ u.loop.lo = s.loop.lo ∧ u.flag (LOOP_CTX_STAT_PEND k) = true ∧ (u.ctx k).latch = some ((s.setReg (LOOP_NV i) v).loopLatch k))) ∧
  (∀ (m : Master) (k : Fin 256) (s : State),
      s.grantsF m (LOOP_CTX_CTRL_SWTRIG k) 1 = true →
      s.runs 9 .loop = true →
      (s.flag LOOP_CTRL_EN = true ∧ s.flag (LOOP_CTX_CTRL_EN k) = true ∧ s.loopRuns k = true) →
      (s.flag (LOOP_CTX_STAT_PEND k) = false ∧ s.flag (LOOP_CTX_CFG_PRIO k) = false) →
      Effect (.swtrig m k) s ([LOOP_CTX_CTRL k, LOOP_CTX_STAT k, LOOP_STAT]) ([]) (fun u => u.loop.lo = s.loop.lo ++ [k.val] ∧ u.loop.hi = s.loop.hi ∧ u.flag (LOOP_CTX_STAT_PEND k) = true ∧ (u.ctx k).latch = some (s.loopLatch k))) ∧
  (∀ (m : Master) (k : Fin 256) (s : State),
      s.grantsF m (LOOP_CTX_CTRL_SWTRIG k) 1 = true →
      s.runs 9 .loop = true →
      (s.flag LOOP_CTRL_EN = true ∧ s.flag (LOOP_CTX_CTRL_EN k) = true ∧ s.loopRuns k = true) →
      s.flag (LOOP_CTX_STAT_PEND k) = true →
      Effect (.swtrig m k) s ([LOOP_CTX_CTRL k, LOOP_CTX_CNT k 1]) ([]) (fun u => u.regN (LOOP_CTX_CNT k 1) = min 0xFFFFFFFF (s.regN (LOOP_CTX_CNT k 1) + 1) ∧ u.loop.lo = s.loop.lo ∧ u.loop.hi = s.loop.hi ∧ (u.ctx k).latch = some (s.loopLatch k))) ∧
  (∀ (k : Nat) (l : LoopLatch) (s : State),
      s.runs 9 .loop = true →
      (s.loopOn = true ∧ s.loop.run = none ∧ s.trans = none) →
      s.loop.hi ++ s.loop.lo = [k] →
      (s.ctx k).latch = some l →
      ((s.fld (LOOP_CTX_TIMING_DEADLINE k) = 0 ∨ s.time.now - l.at_ ≤ s.fld (LOOP_CTX_TIMING_DEADLINE k))) →
      s.shadOf (.loop k) = [] →
      Effect (.loopEvalStart) s ([LOOP_CTX_STAT k, LOOP_CTX_LASTDUR k, LOOP_STAT]) ([]) (fun u => u.loop.run = some (k, l, false) ∧ u.loop.hi = [] ∧ u.loop.lo = [] ∧ u.flag (LOOP_CTX_STAT_RUN k) = true ∧ u.flag (LOOP_CTX_STAT_PEND k) = false ∧
  u.fld (LOOP_CTX_LASTDUR_WAIT k) = min 65535 (s.time.now - l.at_) ∧ u.flag LOOP_STAT_BUSY = true)) ∧
  (∀ (k : Nat) (l : LoopLatch) (s : State),
      s.runs 9 .loop = true →
      (s.loopOn = true ∧ s.loop.run = none ∧ s.trans = none) →
      s.loop.hi ++ s.loop.lo = [k] →
      (s.ctx k).latch = some l →
      (s.fld (LOOP_CTX_TIMING_DEADLINE k) ≠ 0 ∧ s.fld (LOOP_CTX_TIMING_DEADLINE k) < s.time.now - l.at_) →
      s.fld (LOOP_CTX_TIMING_SKIPLIM k) = 0 →
      Effect (.loopEvalStart) s ([LOOP_CTX_STAT k, LOOP_CTX_CNT k 2, LOOP_STAT]) ([]) (fun u => u.loop.run = none ∧ u.loop.hi = [] ∧ u.loop.lo = [] ∧ u.regN (LOOP_CTX_CNT k 2) = min 0xFFFFFFFF (s.regN (LOOP_CTX_CNT k 2) + 1) ∧ u.flag (LOOP_CTX_STAT_PEND k) = false ∧ (u.ctx k).latch = none)) ∧
  (∀ (k : Fin 256) (l : LoopLatch) (s : State),
      s.runs 9 .loop = true →
      (s.loopOn = true ∧ s.loop.run = none ∧ s.trans = none ∧ s.noTxn = true) →
      s.loop.hi ++ s.loop.lo = [k.val] →
      ((s.ctx k).latch = some l ∧ s.fld (LOOP_CTX_TIMING_DEADLINE k) = 0) →
      (s.shadOf (.loop k) ≠ [] ∧ s.unitEligible (.loop k) = true ∧ s.flag (LOOP_CTX_STAT_SYNCING k) = false ∧ s.fld (LOOP_CTX_STAT_BANK k) ≤ 1) →
      (s.loopBad (fun a => s.candFor [.loop k] [] a) k = none) →
      Leaves (.loopEvalStart) s (fun u => u.loop.run.map (fun r => (r.1, r.2.1.cyc, r.2.2)) = some (k.val, l.cyc, true) ∧ u.fld (LOOP_CTX_STAT_BANK k) = 1 - s.fld (LOOP_CTX_STAT_BANK k) ∧ u.flag (LOOP_CTX_STAT_SYNCING k) = true ∧
  u.shadOf (.loop k) = [] ∧ u.mem = s.mem ∧ u.pending = s.pending ∧ ∀ i : Fin 256, (u.actWord (LOOP_COEF k i)).toNat = s.mem32 (coefMem (LOOP_COEF k i) (1 - s.fld (LOOP_CTX_STAT_BANK k))))) ∧
  (∀ (k : Fin 256) (s : State),
      s.runs 9 .loop = true →
      s.flag (LOOP_CTX_STAT_SYNCING k) = true →
      (∀ i : Fin 256, s.shad (LOOP_COEF k i) = none) →
      Leaves (.loopBankCopyEnd k) s (fun u => (∀ i : Fin 256, u.mem32 (coefMem (LOOP_COEF k i) 0) = u.mem32 (coefMem (LOOP_COEF k i) 1) ∧ u.actWord (LOOP_COEF k i) = s.actWord (LOOP_COEF k i)) ∧ u.flag (LOOP_CTX_STAT_SYNCING k) = false ∧ u.pending = s.pending)) ∧
  (∀ (m : Master) (k : Fin 256) (s : State),
      s.grantsF m (LOOP_CTX_CTRL_STCLR k) 1 = true →
      s.runs 9 .loop = true →
      s.flag (LOOP_CTX_CTRL_EN k) = false →
      Effect (.stclr m k) s ([LOOP_CTX_CTRL k] ++ (List.range 68).map (LOOP_STATE k)) ([]) (fun u => (∀ i : Fin 68, u.reg (LOOP_STATE k i) = 0) ∧ (u.ctx k).fresh = true)) ∧
  (∀ (m : Master) (k : Fin 256) (v : Word) (s : State),
      s.grants m (LOOP_CTX_CTRL k) v = true →
      s.runs 9 .loop = true →
      (bits v 3 0 = 1 ∧ s.flag (LOOP_CTX_CTRL_EN k) = false) →
      Effect (.loopCtxEnable m k v) s ([LOOP_CTX_CTRL k]) ([]) (fun u => u.reg (LOOP_CTX_CTRL k) = 1 ∧ (u.ctx k).fresh = true ∧ u.loop.lo = s.loop.lo)) ∧
  (∀ (m : Master) (k : Fin 256) (v : Word) (s : State),
      s.grants m (LOOP_CTX_CTRL k) v = true →
      s.runs 9 .loop = true →
      (bits v 3 0 = 0 ∧ s.flag (LOOP_CTX_CTRL_EN k) = true) →
      s.shadOf (.loop k) = [] →
      Effect (.loopCtxEnable m k v) s ([LOOP_CTX_CTRL k, LOOP_CTX_STAT k, LOOP_STAT]) ([]) (fun u => u.flag (LOOP_CTX_CTRL_EN k) = false ∧ u.flag (LOOP_CTX_STAT_PEND k) = false ∧ (u.ctx k).latch = none ∧ k.val ∉ u.loop.hi ++ u.loop.lo)) ∧
  (∀ (m : Master) (k i : Fin 256) (v : Word) (s : State),
      s.grants m (LOOP_COEF k i) v = true →
      s.runs 9 .loop = true →
      ((s.noTxn = true ∧ (m = .host ∨ m = .jtag) ∧ s.flag (LOOP_CTX_CTRL_EN k) = true)) →
      (((s.sgServe 11).2 = true ∧ s.ecc = [] ∧ (coefLock (LOOP_COEF k i) = 0 ∨ s.rwlLocked = false))) →
      Leaves (.loopCoefWrite m k i v) s (fun u => u.actWord (LOOP_COEF k i) = s.actWord (LOOP_COEF k i) ∧ (∀ j : Fin 256, u.actWord (LOOP_COEF k j) = s.actWord (LOOP_COEF k j)) ∧ u.shad (LOOP_COEF k i) = some (v &&& coefBits i) ∧ u.mem32 (coefMem (LOOP_COEF k i) (1 - s.coefBank (LOOP_COEF k i))) = (v &&& coefBits i).toNat ∧ u.pending = s.pending)) ∧
  (∀ (m : Master) (a : Word) (v : BitVec 64) (s : State),
      (0x20B00000 ≤ a.toNat ∧ a.toNat < 0x20B80000 ∧ a.toNat % 4 = 0) →
      (memReach m a.toNat = true ∧ isCore m = true ∧ s.bridgeDenied m a.toNat true = false) →
      (a.toNat - 0x20B00000) / 0x40000 = s.coefBank (0x41300000 + (a.toNat - 0x20B00000) % 0x40000) →
      (s.sgServe 11).2 = true →
      Leaves (.coefBankSramWrite m a 4 v) s (fun u => (∀ b : Fin 4, u.byte (a.toNat + b) = s.byte (a.toNat + b)) ∧ (14, 0, false) ∈ u.raises ∧ u.pending = s.pending)) ∧
  (∀ (m : Master) (k i : Fin 256) (a : Word) (v : BitVec 64) (s : State),
      (a.toNat = coefMem (LOOP_COEF k i) (1 - s.coefBank (LOOP_COEF k i)) ∧ s.coefBank (LOOP_COEF k i) ≤ 1) →
      (memReach m a.toNat = true ∧ isCore m = true ∧ s.bridgeDenied m a.toNat true = false) →
      (s.noTxn = true ∧ s.flag (LOOP_CTX_CTRL_EN k) = true) →
      (((s.sgServe 11).2 = true ∧ s.ecc = [] ∧ (coefLock (LOOP_COEF k i) = 0 ∨ s.rwlLocked = false))) →
      Leaves (.coefBankSramWrite m a 4 v) s (fun u => (∀ j : Fin 256, u.actWord (LOOP_COEF k j) = s.actWord (LOOP_COEF k j)) ∧ u.shad (LOOP_COEF k i) = some (v.setWidth 32 &&& coefBits i) ∧ u.mem32 a.toNat = (v.setWidth 32 &&& coefBits i).toNat ∧ u.raises = s.raises ∧ u.pending = s.pending)) ∧
  (∀ (m : Master) (v : Word) (s : State),
      s.grants m LOOP_CAP_CTRL (v ||| 1#32) = true →
      s.runs 9 .loop = true →
      s.flag LOOP_CAP_CTRL_EN = false →
      s.fld LOOP_CAP_BASE_BASE + (s.capLen * 16 + 255) / 256 ≤ s.fld BUF_SWCELLS_UNITS * 1024 →
      s.retiredIn (s.fld LOOP_CAP_BASE_BASE) (s.fld LOOP_CAP_BASE_BASE + (s.capLen * 16 + 255) / 256) = false →
      Effect (.captureStart m v) s ([LOOP_CAP_CTRL, LOOP_CAP_STAT]) ([]) (fun u => u.loop.capOn = true ∧ u.fld LOOP_CAP_STAT_RECS = 0 ∧ u.loop.capWait = u.flag LOOP_CAP_CTRL_ONTSG ∧ u.flag LOOP_CAP_CTRL_EN = true)) ∧
  (∀ (m : Master) (v : Word) (s : State),
      s.grants m LOOP_CAP_CTRL (v ||| 1#32) = true →
      s.runs 9 .loop = true →
      s.flag LOOP_CAP_CTRL_EN = false →
      s.fld BUF_SWCELLS_UNITS * 1024 < s.fld LOOP_CAP_BASE_BASE + (s.capLen * 16 + 255) / 256 →
      Effect (.captureStart m v) s ([LOOP_CAP_CTRL, LOOP_CAP_STAT]) ([]) (fun u => u.loop.capOn = s.loop.capOn ∧ u.flag LOOP_CAP_STAT_BADBUF = true)) ∧
  (∀ (b p0 : Nat) (s : State),
      s.runs 9 .loop = true →
      s.saf.bt = some (b, 1, p0) →
      Effect (.brakeTestTorque) s ([]) ([]) (fun u => u.loop.test = some (s.sp (brakeO b + 16) 1, w32 (s.sp (brakeO b + 8) 4)) ∧ u.saf = s.saf)) ∧
  (∀ (m : Master) (i : Fin 4096) (v : Word) (s : State), Yields (.loopNvWrite m i v) s (s.wordWrite m (LOOP_NV i) v)) ∧
  (∀ (m : Master) (k : Fin 256) (s : State), Yields (.swtrig m k) s (s.fieldWrite m (LOOP_CTX_CTRL_SWTRIG k) 1)) ∧
  (∀ (s : State), Yields (.loopEvalStart) s (s.inBlk 9 .loop (fun s => s.evalStart.loopSample))) ∧
  (∀ (k : Fin 256) (s : State), Yields (.loopBankCopyEnd k) s (s.inBlk 9 .loop (fun s => s.bankCopy k))) ∧
  (∀ (m : Master) (k : Fin 256) (s : State), Yields (.stclr m k) s (s.fieldWrite m (LOOP_CTX_CTRL_STCLR k) 1)) ∧
  (∀ (m : Master) (k : Fin 256) (v : Word) (s : State), Yields (.loopCtxEnable m k v) s (s.wordWrite m (LOOP_CTX_CTRL k) v)) ∧
  (∀ (m : Master) (k i : Fin 256) (v : Word) (s : State), Yields (.loopCoefWrite m k i v) s (s.wordWrite m (LOOP_COEF k i) v)) ∧
  (∀ (m : Master) (a : Word) (n : Fin 9) (v : BitVec 64) (s : State), Yields (.coefBankSramWrite m a n v) s (s.anyWrite m a.toNat n v.toNat)) ∧
  (∀ (m : Master) (v : Word) (s : State), Yields (.captureStart m v) s (s.wordWrite m LOOP_CAP_CTRL (v ||| 1#32))) ∧
  (∀ (s : State), Yields (.brakeTestTorque) s (s.inBlk 9 .loop (fun s => s.testTake)))

/-- The evaluation of a context with no stages, in manual at stage 7, with no compensation, no test signal and no capture, writes in its first output slot the signal of MANOUT times OSCALE, rounded and limited to OMIN and OMAX, to the network value the slot names, counts itself, and stores its cycle in LASTTS. With one stage it writes the stage's output so, stores the stage's states and shows its limiting. A PID without gain table computes R232, and its output and integrator lie in their limits, after the adjustment of a swap too; a cam computes R233 from its four points, a gear, a filter and a feed-forward sum R234, the last within its limits; a ramp at rest on its target stays there. The duration is a free value (log 73, the model's choice); the mantissa range and the saturation flag of a swap are logs 48 and 77. Every command named here completes, from every state and with all operands: the last clauses give the operation that is its own effect. -/
def Obligations.LoopEvaluation : Prop :=
  (∀ (k : Fin 256) (l : LoopLatch) (w : Nat) (s : State),
      s.runs 9 .loop = true →
      s.loop.run = some (k.val, l, false) →
      (s.fld (LOOP_CTX_CFG_NSTG k) = 0 ∧ s.fld (LOOP_CTX_CFG_MANSTG k) = 7 ∧ s.flag (LOOP_CTX_CTRL_AUTO k) = false ∧ s.manForced k = false) →
      (w = (s.coefW k 208).toNat ∧ w % 4 = 1 ∧ w.testBit 14 = false ∧ w / 2 ^ 15 % 256 = 0x30) →
      (s.coefW k 228 = 0 ∧ (s.coefW k 209).toNat % 4 = 0 ∧ (s.coefW k 210).toNat % 4 = 0 ∧ (s.coefW k 211).toNat % 4 = 0) →
      (s.fld LOOP_TSG_CTRL_CTX ≠ k.val ∧ s.fld LOOP_CAP_CTRL_CTX ≠ k.val ∧ s.loop.safe = false ∧ s.ecc = []) →
      (∀ j : Fin 256, s.flag (LOOP_CTX_CTRL_EN j) = true → s.fld (LOOP_CTX_CFG_TRIG j) = 0) →
      Effect (.loopEvalEnd) s ([LOOP_CTX_STAT k, LOOP_CTX_LASTTS k, LOOP_CTX_LASTDUR k, LOOP_CTX_CNT k 0, LOOP_NV (w / 4 % 4096), LOOP_STAT, LOOP_LOAD, LOOP_LOADMAX]) ([]) (fun u => u.reg (LOOP_NV (w / 4 % 4096)) = w32 (uns 32 (clampI (sgn 32 (s.coefW k 216).toNat) (sgn 32 (s.coefW k 220).toNat) (((sumN [coefNum (s.reg (LOOP_CTX_MANOUT k)), Machine.Num.zero, Machine.Num.zero]).sig.mul (coefNum (s.coefW k 212))).v.round))) ∧
  u.loop.run = none ∧ u.reg (LOOP_CTX_LASTTS k) = l.cyc ∧ u.regN (LOOP_CTX_CNT k 0) = min 0xFFFFFFFF (s.regN (LOOP_CTX_CNT k 0) + 1) ∧ u.flag (LOOP_CTX_STAT_RUN k) = false)) ∧
  (∀ (e : LEnv) (o : Nat) (st : Nat → Machine.Num) (u fb : Machine.Num) (fresh : Bool),
      (e.w o % 8 = 1 ∧ (e.c (o + 5)).v.le (e.c (o + 6)).v = true ∧ (e.c (o + 7)).v.le (e.c (o + 8)).v = true) →
      (e.c (o + 7)).v.le (e.stage o st u fb none none fresh).y.v = true ∧ (e.stage o st u fb none none fresh).y.v.le (e.c (o + 8)).v = true ∧ (e.c (o + 5)).v.le (e.stage o st u fb none none fresh).a1.v = true ∧ (e.stage o st u fb none none fresh).a1.v.le (e.c (o + 6)).v = true) ∧
  (∀ (e : LEnv) (o : Nat) (st : Nat → Machine.Num) (u fb p di df ff yu : Machine.Num) (fresh : Bool),
      (e.w o % 8 = 1 ∧ (e.w o).testBit 28 = false ∧ (e.w o).testBit 27 = false) →
      (p = (e.c (o + 1)).mul u ∧ di = (e.c (o + 2)).mul u ∧ ff = e.op (e.w (o + 9) % 256)) →
      df = sumN [st 1, (e.c (o + 4)).mul (sumN [(e.c (o + 3)).mul (sumExact [u, (st 2).neg]).sig, (st 1).neg]).sig] →
      yu = sumN [p, st 0, di, df, ff] →
      (e.stage o st u fb none none fresh).a2 = df ∧ (e.stage o st u fb none none fresh).y = (sumN [p, (e.stage o st u fb none none fresh).a1, df, ff]).limit (e.c (o + 7)) (e.c (o + 8)) ∧ (e.stage o st u fb none none fresh).sts = [(e.stage o st u fb none none fresh).a1, df, u, u, (e.stage o st u fb none none fresh).y, ff] ∧
  (e.stage o st u fb none none fresh).a1 = (sumN [st 0, if ((e.c (o + 8)).v.lt yu.v = true ∧ 0 < di.v.n) ∨ (yu.v.lt (e.c (o + 7)).v = true ∧ di.v.n < 0) then Machine.Num.zero else di]).limit (e.c (o + 5)) (e.c (o + 6))) ∧
  (∀ (e : LEnv) (o : Nat) (st : Nat → Machine.Num),
      (e.c (o + 5)).v.le (e.c (o + 6)).v = true →
      if (e.c (o + 2)).v.n = 0 then (e.pidSwap o st).1 = Machine.Num.zero else (e.c (o + 5)).v.le (e.pidSwap o st).1.v = true ∧ (e.pidSwap o st).1.v.le (e.c (o + 6)).v = true) ∧
  (∀ (e : LEnv) (o phi : Nat) (st : Nat → Machine.Num) (u fb y0 y1 y2 y3 : Machine.Num) (t : Q) (fresh : Bool),
      (e.w o % 8 = 2 ∧ (e.w (o + 1)).testBit 6 = false) →
      (phi = (e.src 0x1040 % 2 ^ 32 * (e.w (o + 1) / 2 ^ 16) + e.w (o + 2)) % 2 ^ 32 ∧ t = ⟨((phi % 2 ^ 20 : Nat) : Int), 2 ^ 20⟩) →
      (y0 = e.tab (0x20900000 + e.w (o + 1) % 64 * 0x4000 + 4 * ((phi / 2 ^ 20 + 4095) % 4096)) ∧ y1 = e.tab (0x20900000 + e.w (o + 1) % 64 * 0x4000 + 4 * (phi / 2 ^ 20))) →
      (y2 = e.tab (0x20900000 + e.w (o + 1) % 64 * 0x4000 + 4 * ((phi / 2 ^ 20 + 1) % 4096)) ∧ y3 = e.tab (0x20900000 + e.w (o + 1) % 64 * 0x4000 + 4 * ((phi / 2 ^ 20 + 2) % 4096))) →
      (e.stage o st u fb none none fresh).y = sumN [(e.c (o + 3)).mul (Machine.Num.sig ⟨y1.v.add (((⟨1, 2⟩ : Q).mul t).mul ((y2.v.sub y0.v).add (t.mul (((((Q.i 2).mul y0.v).sub ((Q.i 5).mul y1.v)).add (((Q.i 4).mul y2.v).sub y3.v)).add (t.mul ((((Q.i 3).mul y1.v).sub ((Q.i 3).mul y2.v)).add (y3.v.sub y0.v))))))), 0, false⟩), e.c (o + 4), u]) ∧
  (∀ (e : LEnv) (o : Nat) (st : Nat → Machine.Num) (u fb : Machine.Num) (fresh : Bool),
      e.w o % 8 = 3 →
      (e.stage o st u fb none none fresh).y = (if (e.w o).testBit 27 = true ∧ fresh = false then sumN [st 0, (e.c (o + 1)).mul (sumExact [u, (st 1).neg]).sig] else sumN [(e.c (o + 1)).mul u, e.c (o + 2)]) ∧ ((e.w o).testBit 27 = true → (e.stage o st u fb none none fresh).sts = [(e.stage o st u fb none none fresh).y, u])) ∧
  (∀ (e : LEnv) (o : Nat) (st : Nat → Machine.Num) (u fb y : Machine.Num) (fresh : Bool),
      e.w o % 8 = 4 →
      y = sumN [(e.c (o + 1)).mul u, (e.c (o + 2)).mul (st 0), (e.c (o + 3)).mul (st 1), ((e.c (o + 4)).mul (st 2)).neg, ((e.c (o + 5)).mul (st 3)).neg] →
      (e.stage o st u fb none none fresh).y = (if (e.w o).testBit 27 = true then sumN [(e.c (o + 6)).mul y.sig, (e.c (o + 7)).mul (st 4), (e.c (o + 8)).mul (st 5), ((e.c (o + 9)).mul (st 6)).neg, ((e.c (o + 10)).mul (st 7)).neg] else y) ∧ (e.stage o st u fb none none fresh).sts.take 4 = [u, st 0, y, st 2]) ∧
  (∀ (e : LEnv) (o : Nat) (st : Nat → Machine.Num) (u fb : Machine.Num) (fresh : Bool),
      (e.w o % 8 = 6 ∧ (e.c (o + 11)).v.le (e.c (o + 12)).v = true) →
      (e.c (o + 11)).v.le (e.stage o st u fb none none fresh).y.v = true ∧ (e.stage o st u fb none none fresh).y.v.le (e.c (o + 12)).v = true ∧ (e.stage o st u fb none none fresh).y = (sumN (u :: (List.range 8).map (fun j => (e.c (o + 3 + j)).mul (e.op (e.w (o + 1 + j / 4) / 2 ^ (8 * (j % 4)) % 256))))).limit (e.c (o + 11)) (e.c (o + 12))) ∧
  (∀ (e : LEnv) (o : Nat) (st : Nat → Machine.Num) (u fb : Machine.Num) (fresh : Bool),
      (e.w o % 8 = 5 ∧ (e.w o).testBit 27 = false) →
      (u.v = (st 0).v ∧ u.v = (st 3).v ∧ (st 1).v.n = 0 ∧ (st 2).v.n = 0 ∧ 0 ≤ (e.c (o + 1)).v.n ∧ 0 ≤ (e.c (o + 2)).v.n ∧ 0 < (e.c (o + 3)).v.n ∧ 0 < (e.c (o + 4)).v.n ∧ u.v.d = 1 ∧ (st 0).e ≤ 31) →
      (e.stage o st u fb none none fresh).y.v.eqv u.v = true ∧ (e.stage o st u fb none none fresh).a1.v.n = 0 ∧ (e.stage o st u fb none none fresh).a2.v.n = 0 ∧ (e.stage o st u fb none none fresh).lim = false) ∧
  (∀ (k : Fin 256) (l : LoopLatch) (w st : Nat) (s : State),
      s.runs 9 .loop = true →
      s.loop.run = some (k.val, l, false) →
      (s.fld (LOOP_CTX_CFG_NSTG k) = 1 ∧ s.flag (LOOP_CTX_CTRL_AUTO k) = true ∧ s.manForced k = false ∧ (s.ctx k).man = none) →
      (w = (s.coefW k 208).toNat ∧ w % 4 = 1 ∧ w.testBit 14 = false ∧ w / 2 ^ 15 % 256 = 0x30) →
      (s.coefW k 228 = 0 ∧ (s.coefW k 209).toNat % 4 = 0 ∧ (s.coefW k 210).toNat % 4 = 0 ∧ (s.coefW k 211).toNat % 4 = 0) →
      (s.fld LOOP_TSG_CTRL_CTX ≠ k.val ∧ s.fld LOOP_CAP_CTRL_CTX ≠ k.val ∧ s.loop.safe = false ∧ s.ecc = []) →
      (∀ j : Fin 256, s.flag (LOOP_CTX_CTRL_EN j) = true → s.fld (LOOP_CTX_CFG_TRIG j) = 0) →
      Leaves (.loopEvalEnd) s (fun u => u.reg (LOOP_NV (w / 4 % 4096)) = w32 (uns 32 (clampI (sgn 32 (s.coefW k 216).toNat) (sgn 32 (s.coefW k 220).toNat)
    (((sumN [(((((s.evalEnv k l).runStage acc0 0 none none false (s.ctx k).fresh Machine.Num.zero).1.outs.getLast?).map (·.1)).getD Machine.Num.zero), Machine.Num.zero, Machine.Num.zero]).sig.mul (coefNum (s.coefW k 212))).v.round))) ∧
  (∀ j : Fin 68, u.reg (LOOP_STATE k j) = ((s.evalEnv k l).runStage acc0 0 none none false (s.ctx k).fresh Machine.Num.zero).1.s.reg (LOOP_STATE k j)) ∧
  u.fld (LOOP_CTX_STAT_SATSTG k) = ((s.evalEnv k l).runStage acc0 0 none none false (s.ctx k).fresh Machine.Num.zero).2.sat % 16 ∧ (u.ctx k).fresh = false ∧ u.mem = s.mem ∧ u.pending = s.pending)) ∧
  (∀ (s : State), Yields (.loopEvalEnd) s (s.inBlk 9 .loop (fun s => s.evalEnd)))

/-- A value that a coefficient word holds is written back as a word of the same value, but for the one word whose mantissa is the lowest at the highest exponent, which is limited; every value is written as a word within half a unit of its last mantissa bit unless it is limited; and a value limited to a range lies in it. Which mantissas a coefficient word may have is deduced (log 48). -/
def Obligations.LoopNumbers : Prop :=
  (∀ (w : Word),
      ¬ (bits w 23 0 = 0x800000 ∧ bits w 29 24 = 31) →
      (coefNum (toCoef (coefNum w).v).1).v.eqv (coefNum w).v = true ∧ (toCoef (coefNum w).v).2 = false) ∧
  (∀ (w a b : Word),
      (coefNum a).v.le (coefNum b).v = true →
      (coefNum a).v.le ((coefNum w).limit (coefNum a) (coefNum b)).v = true ∧ ((coefNum w).limit (coefNum a) (coefNum b)).v.le (coefNum b).v = true) ∧
  (∀ (n : Int) (d : Nat),
      (0 < d ∧ n ≠ 0 ∧ (toCoef ⟨n, d⟩).2 = false) →
      let c := coefNum (toCoef ⟨n, d⟩).1; ((c.v.sub ⟨n, d⟩).abs.le (Q.scale 1 (c.e - 24))) = true)

/-- A safety cycle without the other channel's record, a clock fault and a supply fault react with their reasons, all outputs off; a cycle with equal records changes nothing, a first difference is remembered, a second one in a row reacts with reason 0x0B. Both channels' views follow a contact change that both see, and one channel's view alone one that it alone sees: a demanded closed pair that opens reacts with reason 1; both contacts close an open pair; one contact alone starts the discrepancy timer, whose end makes the pair DISCREP's fault. A failed test pulse, a feedback mismatch and a failed switch test react with theirs; a passed switch test is shown and the next tests the other switch, a waiting brake's switches one after the other. A delay that ends drops its output, a brake whose two switches have been tested is released after its delay. Every command named here completes, from every state and with all operands: the last clauses give the operation that is its own effect. -/
def Obligations.SaffronReactions : Prop :=
  (∀ (s : State),
      (s.saf.latched = false ∧ s.saf.bt = none ∧ s.asleep = false ∧ s.pwr.vote = none) →
      Effect (.safetyCycle .silent) s (reactRegs) ([(336, 0, false)]) (fun u => s.reacted u 0x0B 0 = true ∧ u.saf.halt = true ∧ u.fld SAF_STAT_STATE = 5)) ∧
  (∀ (s : State),
      (s.saf.bt = none ∧ s.cycRecord 0 = s.cycRecord 1) →
      Effect (.safetyCycle .same) s ([SAF_STAT]) ([]) (fun u => u.saf.differ = false ∧ u.saf.latched = s.saf.latched ∧ u.saf.halt = s.saf.halt ∧ u.modeq = s.modeq)) ∧
  (∀ (r : SafRec) (s : State),
      ((r = .differ ∨ (r = .same ∧ s.cycRecord 0 ≠ s.cycRecord 1))) →
      (s.saf.differ = true ∧ s.saf.latched = false ∧ s.saf.bt = none ∧ s.asleep = false ∧ s.pwr.vote = none) →
      Effect (.safetyCycle r) s (reactRegs) ([(336, 0, false)]) (fun u => s.reacted u 0x0B 0 = true ∧ u.fld SAF_STAT_STATE = 5)) ∧
  (∀ (s : State),
      (s.saf.bt = none ∧ s.saf.differ = false) →
      Effect (.safetyCycle .differ) s ([SAF_STAT]) ([]) (fun u => u.saf.differ = true ∧ u.saf.latched = s.saf.latched ∧ u.modeq = s.modeq)) ∧
  (∀ (s : State),
      (s.saf.latched = false ∧ s.saf.bt = none ∧ s.asleep = false ∧ s.pwr.vote = none ∧ s.saf.differ = true) →
      Effect (.safetyCycle .differ) s (reactRegs) ([(336, 0, false)]) (fun u => s.reacted u 0x0B 0 = true ∧ u.saf.halt = true)) ∧
  (∀ (s : State),
      (s.saf.latched = false ∧ s.saf.bt = none ∧ s.asleep = false ∧ s.pwr.vote = none) →
      Effect (.safClockFault) s (reactRegs) ([(7, 0, false), (336, 0, false)]) (fun u => s.reacted u 0x0C 0 = true ∧ u.saf.halt = true)) ∧
  (∀ (ch : Fin 2) (s : State),
      (s.saf.latched = false ∧ s.saf.bt = none ∧ s.asleep = false ∧ s.pwr.vote = none) →
      Effect (.safSupplyFault ch) s (reactRegs) ([(336, 0, false)]) (fun u => s.reacted u 0x0D ch = true ∧ u.saf.sup.testBit ch = true ∧ u.saf.halt = s.saf.halt)) ∧
  (∀ (s : State),
      s.saf.latched = true →
      Effect (.safClockFault) s ([SAF_STAT, SAF_REASON, SAF_OUTPUTS]) ([(7, 0, false)]) (fun u => u.regN SAF_OUTPUTS % 16 = 0 ∧ u.fld SAF_REASON_CODE = s.fld SAF_REASON_CODE ∧ u.modeq = s.modeq ∧ s.fld SAF_REASON_MERGED ≤ u.fld SAF_REASON_MERGED ∧ u.saf.halt = true)) ∧
  (∀ (o : Fin 4) (s : State),
      s.delayOn o = true →
      Effect (.outputDelayExpiry o) s ([SAF_OUTPUTS, SAF_STAT]) ([]) (fun u => u.outOn o = false ∧ u.delayOn o = false ∧ ∀ p : Fin 4, p ≠ o → u.outOn p = s.outOn p)) ∧
  (∀ (i : Fin 8) (s : State),
      (∀ ch : Fin 2, s.pairMode ch i = 1 ∧ (s.safView ch).st i = 1) →
      (s.demand i = true ∧ s.saf.latched = false ∧ s.saf.bt = none ∧ s.asleep = false ∧ s.pwr.vote = none) →
      Effect (.safContactChange (i, 0) true false) s (SAF_INPUTS :: reactRegs) ([(336, 0, false)]) (fun u => s.reacted u 1 i = true ∧ (∀ ch : Fin 2, (u.safView ch).st i = 0 ∧ i.val ∈ (u.safView ch).timers) ∧
  ∀ ch : Fin 2, ∀ j : Fin 8, j ≠ i → (u.safView ch).st j = (s.safView ch).st j)) ∧
  (∀ (i : Fin 8) (s : State),
      (∀ ch : Fin 2, s.pairMode ch i = 1 ∧ (s.safView ch).st i = 0 ∧ i.val ∉ (s.safView ch).timers) →
      s.saf.latched = false →
      Effect (.safContactChange (i, 0) true true) s ([SAF_INPUTS, SAF_STAT]) ([]) (fun u => (∀ ch : Fin 2, (u.safView ch).st i = 1) ∧ u.modeq = s.modeq)) ∧
  (∀ (i : Fin 8) (s : State),
      (∀ ch : Fin 2, s.pairMode ch i = 1 ∧ (s.safView ch).st i = 0 ∧ i.val ∉ (s.safView ch).timers) →
      Effect (.safContactChange (i, 0) true false) s ([SAF_INPUTS, SAF_STAT]) ([]) (fun u => (∀ ch : Fin 2, (u.safView ch).st i = 2 ∧ i.val ∈ (u.safView ch).timers) ∧ u.modeq = s.modeq)) ∧
  (∀ (i : Fin 8) (c1 c2 : Bool) (s : State),
      (s.pairMode 1 i = 1 ∧ (s.safView 1).st i = 2) →
      ((c1 = true ∨ c2 = true)) →
      Effect (.safContactChange (i, 2) c1 c2) s ([SAF_INPUTS, SAF_STAT]) ([]) (fun u => u.safView 0 = s.safView 0 ∧ ((u.safView 1).st i = 1 ∨ (u.safView 1).st i = 2) ∧ u.modeq = s.modeq)) ∧
  (∀ (i : Fin 8) (s : State),
      (s.demand i = false ∧ ∀ ch : Fin 2, i.val ∈ (s.safView ch).timers) →
      Effect (.discrepancyExpiry i) s ([SAF_INPUTS, SAF_STAT]) ([]) (fun u => (∀ ch : Fin 2, (u.safView ch).st i = 3 ∧ i.val ∉ (u.safView ch).timers) ∧ u.saf.latched = s.saf.latched)) ∧
  (∀ (i : Fin 8) (s : State),
      (∀ ch : Fin 2, (s.safView ch).st i = 3 ∧ atClosed (s.pairMode ch i) (s.safView ch).contacts i = (false, false)) →
      Effect (.faultOpenTime i) s ([SAF_INPUTS, SAF_STAT]) ([]) (fun u => ∀ ch : Fin 2, (u.safView ch).st i = 0)) ∧
  (∀ (i : Fin 8) (s : State),
      (s.sp (pairO i) 1 ≠ 0 ∧ s.sp (pairO i + 4) 1 = 1 ∧ s.demand i = true) →
      (s.saf.latched = false ∧ s.saf.bt = none ∧ s.asleep = false ∧ s.pwr.vote = none) →
      Effect (.testPulse i false) s (SAF_INPUTS :: reactRegs) ([(336, 0, false)]) (fun u => s.reacted u 3 i = true ∧ ∀ ch : Fin 2, (u.safView ch).st i = 3)) ∧
  (∀ (i : Fin 8) (s : State),
      Yields (.testPulse i true) s (s)) ∧
  (∀ (f : Fin 4) (lvl : Bool) (o : Nat) (s : State),
      s.fbOwner f = some o →
      lvl = s.outOn o →
      (s.saf.latched = false ∧ s.saf.bt = none ∧ s.asleep = false ∧ s.pwr.vote = none ∧ o < 4) →
      Effect (.feedbackTimeout f lvl) s (reactRegs) ([(336, 0, false)]) (fun u => s.reacted u 8 f = true ∧ (u.reg SAF_OUTPUTS).getLsbD (12 + f) = true ∧ (u.reg SAF_OUTPUTS).getLsbD (8 + f) = lvl)) ∧
  (∀ (f : Fin 4) (lvl : Bool) (o : Nat) (s : State),
      s.fbOwner f = some o →
      (lvl ≠ s.outOn o ∧ o < 4) →
      Effect (.feedbackTimeout f lvl) s ([SAF_OUTPUTS]) ([]) (fun u => (u.reg SAF_OUTPUTS).getLsbD (8 + f) = lvl ∧ u.saf = s.saf)) ∧
  (∀ (o : Fin 4) (s : State),
      (o.val < 2 ∧ s.outOn o = true ∧ s.sp (outO o + 3) 1 ≠ 0) →
      (s.saf.latched = false ∧ s.saf.bt = none ∧ s.asleep = false ∧ s.pwr.vote = none) →
      Effect (.switchTest o false) s (reactRegs) ([(336, 0, false)]) (fun u => s.reacted u 9 o = true)) ∧
  (∀ (o : Fin 4) (s : State),
      (o.val < 2 ∧ s.outOn o = true ∧ s.sp (outO o + 3) 1 ≠ 0) →
      Effect (.switchTest o true) s ([]) ([]) (fun u => u.out = .safTest o (s.swTests o == 1) :: s.out ∧ u.swTests o = 1 - s.swTests o ∧ u.saf.latched = s.saf.latched)) ∧
  (∀ (o : Fin 4) (s : State),
      (2 ≤ o.val ∧ o.val - 2 ∈ s.saf.relWait ∧ s.swTests o < 2) →
      Effect (.switchTest o true) s ([]) ([]) (fun u => u.out = .safTest o (s.swTests o == 1) :: s.out ∧ u.swTests o = s.swTests o + 1 ∧ u.saf.latched = s.saf.latched)) ∧
  (∀ (o : Fin 4) (p : Bool) (s : State),
      (o.val < 2 ∧ s.outOn o = false) →
      Yields (.switchTest o p) s (s)) ∧
  (∀ (b : Fin 2) (s : State),
      (b.val ∈ s.saf.relWait ∧ s.swTests (2 + b) = 2 ∧ s.mode = modeOPERATIONAL ∧ s.saf.latched = false) →
      Effect (.brakeRelease b) s ([SAF_OUTPUTS, SAF_STAT]) ([]) (fun u => u.outOn (2 + b) = true ∧ b.val ∉ u.saf.relWait ∧ u.outOn (3 - b) = s.outOn (3 - b))) ∧
  (∀ (r : SafRec) (s : State), Yields (.safetyCycle r) s (s.safetyCycle r)) ∧
  (∀ (s : State), Yields (.safClockFault) s (s.safClock)) ∧
  (∀ (ch : Fin 2) (s : State), Yields (.safSupplyFault ch) s (s.safSupply ch)) ∧
  (∀ (o : Fin 4) (s : State), Yields (.outputDelayExpiry o) s (s.delayEnd o)) ∧
  (∀ (ix : Fin 8 × Fin 3) (c1 c2 : Bool) (s : State), Yields (.safContactChange ix c1 c2) s (s.contactChange ix.1 c1 c2 ix.2)) ∧
  (∀ (i : Fin 8) (s : State), Yields (.discrepancyExpiry i) s (s.discExpiry i)) ∧
  (∀ (i : Fin 8) (s : State), Yields (.faultOpenTime i) s (s.faultOpen i)) ∧
  (∀ (f : Fin 4) (lvl : Bool) (s : State), Yields (.feedbackTimeout f lvl) s (s.feedback f lvl)) ∧
  (∀ (o : Fin 4) (passed : Bool) (s : State), Yields (.switchTest o passed) s (s.switchTest o passed)) ∧
  (∀ (b : Fin 2) (s : State), Yields (.brakeRelease b) s (s.brakeRelease b))

/-- A producer sends with the next sequence number where both channels agree, and reacts with reason 0x0B without taking a number where they do not; a role-3 device sends its profile's PDU and takes no sequence number; a frame of another EtherType counts as foreign, and so does a sound one whose CONNID names no consumer connection; a held copy whose window ends fails its connection with code 5, a watchdog with code 4, and a demanded connection reacts; a brake test asks for its torque, ends it, and records a pass with its hours at 0; a powered hour counts; a command without its twin answers 0x8064; the due restart starts Saffron anew with its hours and records kept. The state shown after a restart is log 103, a profile's own checks are free (log 71), and a bad copy without a connection is counted nowhere (log 131). Every command named here completes, from every state and with all operands: the last clauses give the operation that is its own effect. -/
def Obligations.SafetyConnectionsAndBrakes : Prop :=
  (∀ (k : Fin 16) (s : State),
      (s.role k = 1 ∧ s.asleep = false ∧ s.sp (connO k + 2) 1 % 4 = 0) →
      Effect (.producerSend (k, true)) s ([SAF_CONN_SEQ k]) ([]) (fun u => u.regN (SAF_CONN_SEQ k) = (s.safConn k).next % 2 ^ 32 ∧ (u.safConn k).next = ((s.safConn k).next + 1) % 2 ^ 32)) ∧
  (∀ (k : Fin 16) (s : State),
      (s.role k = 1 ∧ s.asleep = false ∧ s.pwr.vote = none ∧ s.saf.latched = false ∧ s.saf.bt = none) →
      Effect (.producerSend (k, false)) s (reactRegs) ([(336, 0, false)]) (fun u => s.reacted u 0x0B 0 = true ∧ u.saf.halt = true ∧ (u.safConn k).next = (s.safConn k).next)) ∧
  (∀ (k : Fin 16) (agree : Bool) (s : State),
      (s.role k ≠ 1 ∧ s.role k ≠ 3) →
      Yields (.producerSend (k, agree)) s (s)) ∧
  (∀ (k : Fin 16) (agree : Bool) (s : State),
      (s.role k = 3 ∧ s.asleep = false) →
      Leaves (.producerSend (k, agree)) s (fun u => u.saf = s.saf ∧ u.free = s.free + 1 ∧ u.pending = s.pending)) ∧
  (∀ (f : List Byte) (src : Nat) (l : List (List Byte × Nat)) (s : State),
      s.saf.rx = (f, src) :: l →
      be f (typePos f) 2 ≠ s.sp 4 2 →
      Effect (.pduReceive) s ([SAF_STAT2]) ([]) (fun u => u.saf = { s.saf with rx := l } ∧ u.fld SAF_STAT2_FOREIGN = min 65535 (s.fld SAF_STAT2_FOREIGN + 1))) ∧
  (∀ (f p : List Byte) (src : Nat) (l : List (List Byte × Nat)) (s : State),
      s.saf.rx = (f, src) :: l →
      (be f (typePos f) 2 = s.sp 4 2 ∧ s.saf.halt = false ∧ p = (noFcs f).drop (typePos f + 2)) →
      (be p 0 1 = 0x10 ∧ 20 + pduLen p ≤ p.length ∧ (crcF (p.take (16 + pduLen p))).toNat = be p (16 + pduLen p) 4) →
      s.connOf (be p 4 4) 2 = none →
      Effect (.pduReceive) s ([SAF_STAT2]) ([]) (fun u => u.saf = { s.saf with rx := l } ∧ u.fld SAF_STAT2_FOREIGN = min 65535 (s.fld SAF_STAT2_FOREIGN + 1))) ∧
  (∀ (k : Fin 16) (q path t : Nat) (p : List Byte) (l : List (Nat × Nat × List Byte × Nat)) (s : State),
      (s.connSt k = 3 ∧ s.saf.halt = false ∧ (s.safConn k).held = (q, path, p, t) :: l) →
      (s.pathDown k (1 - path) = false ∧ s.demand (8 + k) = false) →
      Effect (.compareWindowExpiry k) s ([SAF_CONN_STAT k, SAF_STAT]) ([]) (fun u => u.connSt k = 4 ∧ (u.safConn k).held = [] ∧ u.saf.latched = s.saf.latched)) ∧
  (∀ (k : Fin 16) (s : State),
      (((s.connSt k = 2 ∨ s.connSt k = 3) ∧ s.demand (8 + k) = true)) →
      (s.saf.halt = false ∧ s.saf.latched = false ∧ s.saf.bt = none ∧ s.asleep = false ∧ s.pwr.vote = none) →
      Effect (.connectionWatchdog k) s (SAF_CONN_STAT k :: reactRegs) ([(336, 0, false)]) (fun u => s.reacted u 4 k = true ∧ u.connSt k = 4)) ∧
  (∀ (b p0 : Nat) (s : State),
      s.saf.bt = some (b, 0, p0) →
      Effect (.brakeTestTorqueRequest) s ([]) ([]) (fun u => u.saf = { s.saf with bt := some (b, 1, p0) } ∧ u.loop = s.loop)) ∧
  (∀ (b p0 : Nat) (s : State),
      s.saf.bt = some (b, 1, p0) →
      Effect (.brakeTestEnd) s ([]) ([]) (fun u => u.saf = { s.saf with bt := some (b, 2, p0) } ∧ u.loop.test = none)) ∧
  (∀ (b p0 : Nat) (s : State),
      (s.saf.bt = some (b, 2, p0) ∧ b < 2) →
      Effect (.brakeTestEnd) s ([SAF_OUTPUTS, SAF_BTEST b, SAF_STAT]) ([]) (fun u => u.saf = { s.saf with bt := none } ∧ u.fld (SAF_BTEST_RESULT b) = 2 ∧ u.fld (SAF_BTEST_HOURS b) = 0 ∧ u.outOn (s.sp (brakeO b + 3) 1 % 2) = false)) ∧
  (∀ (b : Fin 2) (s : State),
      s.sp 8 2 = 0 →
      Effect (.brakeHour b) s ([SAF_BTEST b, SAF_STAT]) ([]) (fun u => u.fld (SAF_BTEST_HOURS b) = min 65535 (s.fld (SAF_BTEST_HOURS b) + 1) ∧ u.saf = s.saf)) ∧
  (∀ (b : Fin 2) (s : State),
      (s.sp 8 2 ≠ 0 ∧ s.fld (SAF_BTEST_HOURS b) = s.sp 8 2 ∧ s.sp 8 2 < 65535 ∧ s.mode ≠ modeOPERATIONAL ∧ s.flag SAF_STAT_BTDUE = false) →
      Effect (.brakeHour b) s ([SAF_BTEST b, SAF_STAT]) ([(337, 0, false)]) (fun u => u.flag SAF_STAT_BTDUE = true)) ∧
  (∀ (ch snd : Fin 2) (m : List Byte) (s : State),
      s.saf.held = [(ch.val, snd.val, m)] →
      s.chanFull (safChan ch snd + 1) = false →
      Leaves (.safePairingTimeout ch snd) s (fun u => u.saf.held = [] ∧ u.chan (safChan ch snd + 1) = s.chan (safChan ch snd + 1) ++ [stampMsg (safChan ch snd + 1) (respMsg m 0x8064 0 0 [])] ∧ u.pending = s.pending)) ∧
  (∀ (s : State),
      s.saf.restart = false →
      Yields (.saffronRestart) s (s)) ∧
  (∀ (s : State),
      (s.saf.restart = true ∧ s.saf.bt = none ∧ s.saf.halt = false) →
      Leaves (.saffronRestart) s (fun u => u.saf.restart = false ∧ u.saf.base = 1 ∧ u.saf.latched = false ∧ u.saf.recA = s.saf.recA ∧ u.fld (SAF_BTEST_HOURS 0) = s.fld (SAF_BTEST_HOURS 0) ∧ u.fld (SAF_BTEST_HOURS 1) = s.fld (SAF_BTEST_HOURS 1) ∧ u.regN SAF_OUTPUTS = 0 ∧ u.pending = s.pending)) ∧
  (∀ (k : Fin 16 × Bool) (s : State), Yields (.producerSend k) s (s.producerSend k.1 k.2)) ∧
  (∀ (s : State), Yields (.pduReceive) s (s.pduReceive)) ∧
  (∀ (k : Fin 16) (s : State), Yields (.compareWindowExpiry k) s (s.cmpExpiry k)) ∧
  (∀ (k : Fin 16) (s : State), Yields (.connectionWatchdog k) s (s.connWdog k)) ∧
  (∀ (s : State), Yields (.brakeTestTorqueRequest) s (s.testTorque)) ∧
  (∀ (s : State), Yields (.brakeTestEnd) s (s.testEnd)) ∧
  (∀ (b : Fin 2) (s : State), Yields (.brakeHour b) s (s.brakeHour b)) ∧
  (∀ (ch snd : Fin 2) (s : State), Yields (.safePairingTimeout ch snd) s (s.safUnpair ch snd)) ∧
  (∀ (s : State), Yields (.saffronRestart) s (s.safRestartDue))

/-- A detector's pair that changes to fault has its raise taken (term Effect: the raise it makes); outside any window a raise of class up to 3 that only notes or interrupts writes the record NEXT names, with its source, class, reaction, time and INFO, and sets SEEN; a raise whose source owns the open window only counts in REPEAT, one of another source that the record's class covers counts in CONSEQ, one above it makes the record its own class and keeps a reaction that is no lower, and opens nothing; block reset resets the source's block and opens a window. A pair that is forced, reads equal or is already at fault raises nothing, and an index that is reserved, a bank without a source and a chip in OFF change nothing; an uncorrectable error of a word is counted, its address kept, and raised. Which indices are reserved and which conditions last is deduced (logs 98 and 134); that what a raise sets off comes about before the next command is the model's choice (log 4). Every command named here completes, from every state and with all operands: the last clauses give the operation that is its own effect. -/
def Obligations.FaultRecords : Prop :=
  (∀ (src : Fin 512) (info : Word) (s : State),
      (s.detects src = true ∧ src.val ≠ 353 ∧ src.val ≠ 80 ∧ src.val ≠ 81 ∧ faultWord src info.toNat = none) →
      Effect (.fcuRaise src true info) s ([]) ([(src.val, info.toNat, false)]) (fun u => storeGet (fun _ => false) u.fcu.cond src.val = true ∧ { u.fcu with cond := [] } = { s.fcu with cond := [] })) ∧
  (∀ (src : Fin 512) (info : Word) (s : State),
      s.condNow src = true →
      Yields (.fcuRaise src true info) s (s)) ∧
  (∀ (src : Fin 512) (fault : Bool) (info : Word) (s : State),
      ((srcListed src = false ∨ (256 ≤ src.val ∧ src.val < 260) ∨ s.mode = modeOFF)) →
      Yields (.fcuRaise src fault info) s (s)) ∧
  (∀ (src : Fin 512) (info : Word) (a : Nat) (s : State),
      (s.detects src = true ∧ faultWord src info.toNat = some (a, 2) ∧ s.sgOn (sramBank a / 4) = true ∧ inMram a = false) →
      Effect (.fcuRaise src true info) s ([MEM_CNT 1, MEM_UNCADDR]) ([(uncSrc a, errAddr a, false)]) (fun u => u.eccAt a = 2 ∧ u.regN (MEM_CNT 1) = min 0xFFFFFFFF (s.regN (MEM_CNT 1) + 1) ∧ u.regN MEM_UNCADDR = errAddr a)) ∧
  (∀ (info : Word) (s : State),
      (s.detects 353 = true ∧ s.spi = false) →
      Effect (.fcuRaise 353 true info) s ([HOST_ERR]) ([(353, info.toNat, false)]) (fun u => storeGet (fun _ => false) u.fcu.cond 353 = true ∧ u.flag HOST_ERR_AERUNC = true ∧ { u.fcu with cond := [] } = { s.fcu with cond := [] })) ∧
  (∀ (src : Fin 512) (info : Word) (s : State),
      (srcListed src = true ∧ s.mode ≠ modeOFF ∧ ¬(256 ≤ src.val ∧ src.val < 260)) →
      Effect (.fcuRaise src false info) s ([]) ([]) (fun u => storeGet (fun _ => false) u.fcu.cond src.val = false ∧ { u.fcu with cond := [] } = { s.fcu with cond := [] })) ∧
  (∀ (src : Fin 512) (info : Word) (r : Nat) (s : State),
      (s.Calm ∧ s.asleep = false ∧ s.pwr.vote = none ∧ s.fcu.windows = [] ∧ s.flag FCU_STAT_SELF = false) →
      (s.detects src = true ∧ s.pairBad src = false ∧ s.forced src = false ∧ src.val ≠ 353 ∧ src.val ≠ 80 ∧ src.val ≠ 81 ∧ faultWord src info.toNat = none) →
      ((s.srcCfg src).1 ≤ 3 ∧ (s.srcCfg src).2 ≤ 1) →
      (r = s.fld FCU_STAT_NEXT ∧ s.recPending r = false) →
      s.fcu.newest.all (fun k => s.fld (FCU_REC_W0_SRC k) != src) = true →
      Leaves (.fcuRaise src true info) s (fun u => let v := u.settle; v.fld (FCU_REC_W0_SRC r) = src.val ∧ v.fld (FCU_REC_W0_CLASS r) = (s.srcCfg src).1 ∧ v.fld (FCU_REC_W0_REACT r) = (s.srcCfg src).2 ∧
  v.fld (FCU_REC_W0_REPEAT r) = 0 ∧ v.fld (FCU_REC_W0_CONSEQ r) = 0 ∧ v.flag (FCU_REC_W0_WIRING r) = false ∧ v.reg (FCU_REC_TS r) = s.cyc0 ∧ v.reg (FCU_REC_INFO r) = info ∧
  v.flag (FCU_REC_W2_VALID r) = true ∧ v.recPending r = decide (2 ≤ (s.srcCfg src).1) ∧ v.bitAt (FCU_SEEN 0) src = true ∧
  v.flag FCU_STAT_IRQ = (s.flag FCU_STAT_IRQ || (s.srcCfg src).2 == 1) ∧ v.fcu.windows = [] ∧ v.fcu.newest = some r ∧ v.mode = s.mode ∧ v.trans = s.trans ∧ v.pending = s.pending ∧
  (∀ k : Fin 32, k.val ≠ r → v.reg (FCU_REC_W0 k) = s.reg (FCU_REC_W0 k) ∧ v.reg (FCU_REC_TS k) = s.reg (FCU_REC_TS k) ∧ v.reg (FCU_REC_W2 k) = s.reg (FCU_REC_W2 k) ∧ v.reg (FCU_REC_INFO k) = s.reg (FCU_REC_INFO k)))) ∧
  (∀ (src : Fin 512) (info : Word) (w : Window) (r : Nat) (s : State),
      (s.Calm ∧ s.asleep = false ∧ s.pwr.vote = none ∧ s.fcu.windows = [w] ∧ s.flag FCU_STAT_SELF = false) →
      (s.detects src = true ∧ s.pairBad src = false ∧ s.forced src = false ∧ src.val ≠ 353 ∧ src.val ≠ 80 ∧ src.val ≠ 81 ∧ faultWord src info.toNat = none) →
      (w.recd = some r ∧ r < 32 ∧ w.own = src) →
      Leaves (.fcuRaise src true info) s (fun u => let v := u.settle; v.fld (FCU_REC_W0_REPEAT r) = satAdd (2 ^ (((FCU_REC_W0_REPEAT r).hi + 1 - (FCU_REC_W0_REPEAT r).lo)) - 1) (s.fld (FCU_REC_W0_REPEAT r)) 1 ∧
  v.fld (FCU_REC_W0_CONSEQ r) = s.fld (FCU_REC_W0_CONSEQ r) ∧ v.fcu.windows = [w] ∧ v.reg (FCU_REC_INFO r) = s.reg (FCU_REC_INFO r) ∧ v.reg (FCU_REC_W2 r) = s.reg (FCU_REC_W2 r) ∧
  v.bitAt (FCU_SEEN 0) src = true ∧ v.fcu.resetting = s.fcu.resetting ∧ v.fcu.held = s.fcu.held ∧ v.mode = s.mode ∧ v.pending = s.pending)) ∧
  (∀ (src : Fin 512) (info : Word) (w : Window) (r : Nat) (s : State),
      (s.Calm ∧ s.asleep = false ∧ s.pwr.vote = none ∧ s.fcu.windows = [w] ∧ s.flag FCU_STAT_SELF = false) →
      (s.detects src = true ∧ s.pairBad src = false ∧ s.forced src = false ∧ src.val ≠ 353 ∧ src.val ≠ 80 ∧ src.val ≠ 81 ∧ faultWord src info.toNat = none) →
      ((w.recd = some r ∧ r < 32 ∧ w.own ≠ src ∧ ((s.srcCfg src).1 ≤ s.fld (FCU_REC_W0_CLASS r) ∨ src.val ∈ w.shadow))) →
      Leaves (.fcuRaise src true info) s (fun u => let v := u.settle; v.fld (FCU_REC_W0_CONSEQ r) = satAdd (2 ^ (((FCU_REC_W0_CONSEQ r).hi + 1 - (FCU_REC_W0_CONSEQ r).lo)) - 1) (s.fld (FCU_REC_W0_CONSEQ r)) 1 ∧
  v.fld (FCU_REC_W0_REPEAT r) = s.fld (FCU_REC_W0_REPEAT r) ∧ v.fld (FCU_REC_W2_LASTCQ r) = src ∧ v.fld (FCU_REC_W0_CLASS r) = s.fld (FCU_REC_W0_CLASS r) ∧ v.fcu.windows = [w] ∧
  v.flag (FCU_REC_W2_ESC r) = s.flag (FCU_REC_W2_ESC r) ∧ v.fcu.resetting = s.fcu.resetting ∧ v.fcu.held = s.fcu.held ∧ v.mode = s.mode ∧ v.pending = s.pending)) ∧
  (∀ (src : Fin 512) (info : Word) (w : Window) (r : Nat) (s : State),
      (s.Calm ∧ s.asleep = false ∧ s.pwr.vote = none ∧ s.fcu.windows = [w] ∧ s.flag FCU_STAT_SELF = false) →
      (s.detects src = true ∧ s.pairBad src = false ∧ s.forced src = false ∧ src.val ≠ 353 ∧ src.val ≠ 80 ∧ src.val ≠ 81 ∧ faultWord src info.toNat = none) →
      (w.recd = some r ∧ r < 32 ∧ w.own ≠ src ∧ s.fld (FCU_REC_W0_CLASS r) < (s.srcCfg src).1 ∧ src.val ∉ w.shadow ∧ (s.raiseCfg src false).2 ≤ s.fld (FCU_REC_W0_REACT r)) →
      Leaves (.fcuRaise src true info) s (fun u => let v := u.settle; v.fld (FCU_REC_W2_LASTCQ r) = src ∧ v.flag (FCU_REC_W2_ESC r) = true ∧ v.fld (FCU_REC_W2_ESCSRC r) = src ∧ v.fld (FCU_REC_W2_ESCCLASS r) = (s.srcCfg src).1 ∧
  v.fld (FCU_REC_W0_CLASS r) = (s.srcCfg src).1 ∧ v.fld (FCU_REC_W0_REACT r) = s.fld (FCU_REC_W0_REACT r) ∧ v.fcu.windows = [{ w with cls := (s.srcCfg src).1, react := s.fld (FCU_REC_W0_REACT r) }] ∧ v.fcu.resetting = s.fcu.resetting ∧
  v.flag FCU_STAT_IRQ = true ∧ v.mode = s.mode ∧ v.pending = s.pending)) ∧
  (∀ (src : Fin 512) (info : Word) (e : Fin 16) (s : State),
      (s.Calm ∧ s.asleep = false ∧ s.pwr.vote = none ∧ s.fcu.windows = [] ∧ s.flag FCU_STAT_SELF = false) →
      (s.detects src = true ∧ s.pairBad src = false ∧ s.forced src = false) →
      (src.val = 96 + 4 * e ∧ s.srcCfg src = (2, 2) ∧ s.recPending (s.fld FCU_STAT_NEXT) = false) →
      (∀ t : Fin 4, (s.thr e t).win.isNone = true ∧ (s.rxOf (100 + 4 * e + t)).isNone = true) →
      Leaves (.fcuRaise src true info) s (fun u => let v := u.settle; Blk.eng e ∈ v.fcu.resetting ∧ v.fcu.windows = [⟨some (s.fld FCU_STAT_NEXT), src, 2, 2, [96 + 4 * e, 97 + 4 * e, 98 + 4 * e, 160]⟩] ∧ v.engOff e = true ∧
  v.fcu.held = s.fcu.held ∧ v.mode = s.mode ∧ v.pending = s.pending ∧ v.flag FCU_STAT_WINDOW = true)) ∧
  (∀ (src : Fin 512) (fault : Bool) (info : Word) (s : State), Yields (.fcuRaise src fault info) s (s.srcChange src info.toNat fault))

/-- A pair of a listed source that reads equal is taken as a raise of class 3 or more with WIRING set and asks for DEGRADED; a valid pair again clears it; the end of a window takes the windows of its source away; the end of a block reset starts the block unless it is held; ACK clears PENDING of a record whose sources read no fault and sets ACKREF otherwise; FORCE drives the pairs of its bits; SRCCFG is taken in BOOT and COMMISSION for values up to 4 and ignored with a note otherwise; ARMED starts ALIVE, whose balls toggle together unless stopped; two copies that differ set SELF and ask Saffron for the safe state. That a write with FNMIN unchanged makes no note is log 135; reserved sources are log 98. Every command named here completes, from every state and with all operands: the last clauses give the operation that is its own effect. -/
def Obligations.CollectorCommands : Prop :=
  (∀ (src : Fin 512) (r : Nat) (s : State),
      (srcListed src = true ∧ s.mode ≠ modeOFF ∧ s.pairBad src = false ∧ s.asleep = false ∧ s.pwr.vote = none ∧ s.fcu.windows = [] ∧ s.flag FCU_STAT_SELF = false) →
      ((s.srcCfg src).1 ≤ 3 ∧ (s.srcCfg src).2 ≤ 3 ∧ blkOf src = [] ∧ r = s.fld FCU_STAT_NEXT ∧ s.recPending r = false) →
      Leaves (.wiringFault src) s (fun u => u.pairBad src = true ∧ u.pairFault src = false ∧ u.bitAt (FCU_WIRE 0) src = true ∧ u.bitAt (FCU_SEEN 0) src = true ∧ u.fld (FCU_REC_W0_SRC r) = src.val ∧ u.fld (FCU_REC_W0_CLASS r) = 3 ∧
  u.fld (FCU_REC_W0_REACT r) = 3 ∧ u.flag (FCU_REC_W0_WIRING r) = true ∧ u.recPending r = true ∧ u.reg (FCU_REC_TS r) = s.cyc0 ∧ u.modeq = s.modeq ++ [(13, modeDEGRADED, 3)] ∧
  u.fcu.windows = [⟨some r, src, 3, 3, []⟩] ∧ u.raises = s.raises ∧ u.pending = s.pending)) ∧
  (∀ (src : Fin 512) (s : State),
      ((s.pairBad src = true ∨ srcListed src = false)) →
      Yields (.wiringFault src) s (s)) ∧
  (∀ (src : Fin 512) (s : State),
      Effect (.wiringFaultCleared src) s ([]) ([]) (fun u => storeGet (fun _ => false) u.fcu.bad src.val = false ∧ { u.fcu with bad := [] } = { s.fcu with bad := [] })) ∧
  (∀ (k : Fin 34) (s : State),
      blkNo k ∉ s.fcu.resetting →
      Yields (.blockResetEnd k) s (s)) ∧
  (∀ (k : Fin 34) (s : State),
      (blkNo k ∈ s.fcu.resetting ∧ blkNo k ∈ s.fcu.held) →
      Effect (.blockResetEnd k) s ([]) ([]) (fun u => u.fcu = { s.fcu with resetting := s.fcu.resetting.filter (· != blkNo k) })) ∧
  (∀ (k : Fin 34) (s : State),
      (blkNo k ∈ s.fcu.resetting ∧ blkNo k ∉ s.fcu.held ∧ k.val < 16 ∧ s.flag (ENG_CTRL_RUN k) = false) →
      Effect (.blockResetEnd k) s ([]) ([]) (fun u => u.fcu = { s.fcu with resetting := s.fcu.resetting.filter (· != blkNo k) })) ∧
  (∀ (src : Fin 512) (s : State),
      Effect (.reactionWindowEnd src) s ([FCU_STAT]) ([]) (fun u => u.fcu.windows = s.fcu.windows.filter (fun w => w.own != src.val) ∧ u.flag FCU_STAT_WINDOW = !u.fcu.windows.isEmpty ∧
  u.fcu.order = s.fcu.order ∧ u.fcu.cond = s.fcu.cond ∧ u.fcu.resetting = s.fcu.resetting ∧ u.fcu.held = s.fcu.held)) ∧
  (∀ (m : Master) (r : Fin 32) (s : State),
      s.grantsF m FCU_ACK_REC r = true →
      (s.recPending r = true ∧ s.flag (FCU_REC_W2_ESC r) = false) →
      (s.pairFault (s.fld (FCU_REC_W0_SRC r)) = false ∧ s.bitAt (FCU_WIRE 0) (s.fld (FCU_REC_W0_SRC r)) = false) →
      Effect (.fcuAck m r) s ([FCU_REC_W2 r, FCU_STAT]) ([]) (fun u => u.recPending r = false ∧ u.flag FCU_STAT_ACKREF = s.flag FCU_STAT_ACKREF ∧ u.fld FCU_STAT_PENDING = u.pendingRecs.length % 64)) ∧
  (∀ (m : Master) (r : Fin 32) (s : State),
      s.grantsF m FCU_ACK_REC r = true →
      ((s.recPending r = false ∨ s.pairFault (s.fld (FCU_REC_W0_SRC r)) = true ∨ s.bitAt (FCU_WIRE 0) (s.fld (FCU_REC_W0_SRC r)) = true)) →
      Effect (.fcuAck m r) s ([FCU_STAT]) ([]) (fun u => u.flag FCU_STAT_ACKREF = true ∧ u.fcu = s.fcu)) ∧
  (∀ (m : Master) (j : Fin 16) (v : Word) (s : State),
      s.grants m (FCU_FORCE j) v = true →
      ((∀ b : Fin 32, v.getLsbD b = true → s.forced (32 * j + b) = true ∨ s.pairFault (32 * j + b) = true ∧ s.flag FCU_CTRL_FORCEWIR = false)) →
      Effect (.fcuForce m j v) s ([FCU_FORCE j]) ([]) (fun u => u.reg (FCU_FORCE j) = v ∧ ∀ b : Fin 32, v.getLsbD b = true → u.forced (32 * j + b) = true)) ∧
  (∀ (m : Master) (j : Fin 16) (b : Fin 32) (r : Nat) (s : State),
      s.grants m (FCU_FORCE j) (w32 (2 ^ b.val)) = true →
      (s.reg (FCU_FORCE j) = 0 ∧ s.flag FCU_CTRL_FORCEWIR = false ∧ s.pairFault (32 * j + b) = false ∧ s.pairBad (32 * j + b) = false) →
      (s.mode ≠ modeOFF ∧ s.asleep = false ∧ s.pwr.vote = none ∧ s.fcu.windows = [] ∧ s.flag FCU_STAT_SELF = false ∧ s.fcu.newest = none) →
      ((s.srcCfg (32 * j + b)).1 ≤ 3 ∧ (s.srcCfg (32 * j + b)).2 ≤ 1 ∧ r = s.fld FCU_STAT_NEXT ∧ s.recPending r = false) →
      Leaves (.fcuForce m j (w32 (2 ^ b.val))) s (fun u => u.pairFault (32 * j + b) = true ∧ u.bitAt (FCU_SEEN 0) (32 * j + b) = true ∧ u.fld (FCU_REC_W0_SRC r) = 32 * j + b ∧ u.flag (FCU_REC_W2_FORCED r) = true ∧ u.flag (FCU_REC_W0_WIRING r) = false ∧
  u.reg (FCU_REC_INFO r) = 0 ∧ u.raises = s.raises ∧ u.pending = s.pending)) ∧
  (∀ (m : Master) (i : Fin 512) (v : Word) (s : State),
      s.grants m (FCU_SRCCFG i) v = true →
      (((s.mode = modeBOOT ∨ s.mode = modeCOMMISSION) ∧ bits v 2 0 ≤ 4 ∧ bits v 6 4 ≤ 4 ∧ s.flag (FCU_SRCCFG_FIXED i) = false)) →
      Effect (.fcuSrccfgWrite m i v) s ([FCU_SRCCFG i]) ([]) (fun u => u.fld (FCU_SRCCFG_CLASS i) = bits v 2 0 ∧ u.fld (FCU_SRCCFG_REACT i) = (if bits v 2 0 = 4 then 4 else bits v 6 4) ∧ u.flag (FCU_SRCCFG_FIXED i) = false ∧ u.fcu = s.fcu)) ∧
  (∀ (m : Master) (i : Fin 512) (v : Word) (s : State),
      s.grants m (FCU_SRCCFG i) v = true →
      (((s.mode ≠ modeBOOT ∧ s.mode ≠ modeCOMMISSION) ∨ 4 < bits v 2 0 ∨ 4 < bits v 6 4)) →
      Effect (.fcuSrccfgWrite m i v) s ([]) ([(14, 0, false)]) (fun u => u.fcu = s.fcu)) ∧
  (∀ (m : Master) (i : Fin 512) (v : Word) (s : State),
      s.grants m (FCU_SRCCFG i) v = true →
      (((s.mode = modeBOOT ∨ s.mode = modeCOMMISSION) ∧ bits v 2 0 ≤ 4 ∧ bits v 6 4 ≤ 4 ∧ s.flag (FCU_SRCCFG_FIXED i) = true)) →
      Yields (.fcuSrccfgWrite m i v) s (s)) ∧
  (∀ (m : Master) (s : State),
      s.grantsF m FCU_CTRL_ARMED 1 = true →
      s.flag FCU_CTRL_ARMED = false →
      s.pendingRecs = [] →
      (s.flag FCU_STAT_SELF = false ∧ s.pwr.refOff = false) →
      Effect (.armed m) s ([FCU_CTRL, FCU_STAT]) ([]) (fun u => u.flag FCU_CTRL_ARMED = true ∧ u.flag FCU_STAT_ALIVESTOP = false ∧ u.flag FCU_STAT_FAULTN = false ∧ u.fcu = s.fcu)) ∧
  (∀ (s : State),
      (s.flag FCU_CTRL_ARMED = true ∧ s.aliveStop = false) →
      Effect (.aliveToggle) s ([]) ([]) (fun u => u.fcu = { s.fcu with aliveA := !s.fcu.aliveA, aliveB := s.fcu.aliveA })) ∧
  (∀ (s : State),
      ((s.flag FCU_CTRL_ARMED = false ∨ s.aliveStop = true)) →
      Yields (.aliveToggle) s (s)) ∧
  (∀ (off : BitVec 16) (mismatch parity : Bool) (s : State),
      s.flag FCU_STAT_SELF = false →
      Leaves (.collectorSelfFault off mismatch parity) s (fun u => u.flag FCU_STAT_SELF = true ∧ u.flag FCU_STAT_ALIVESTOP = true ∧ u.flag FCU_STAT_FAULTN = true ∧ u.regN FCU_SELFINFO = off.toNat + 65536 * bit parity + 131072 * bit mismatch ∧ u.saf.latched = true ∧ (s.saf.latched = false → u.fld SAF_REASON_CODE = 0x0E) ∧ u.pending = s.pending)) ∧
  (∀ (off : BitVec 16) (mismatch parity : Bool) (s : State),
      s.flag FCU_STAT_SELF = true →
      Yields (.collectorSelfFault off mismatch parity) s (s)) ∧
  (∀ (src : Fin 512) (s : State), Yields (.wiringFault src) s (s.wireFault src)) ∧
  (∀ (k : Fin 34) (s : State), Yields (.blockResetEnd k) s (s.blkEnd (blkNo k))) ∧
  (∀ (m : Master) (r : Fin 32) (s : State), Yields (.fcuAck m r) s (s.fieldWrite m FCU_ACK_REC r)) ∧
  (∀ (m : Master) (j : Fin 16) (v : Word) (s : State), Yields (.fcuForce m j v) s (s.wordWrite m (FCU_FORCE j) v)) ∧
  (∀ (m : Master) (i : Fin 512) (v : Word) (s : State), Yields (.fcuSrccfgWrite m i v) s (s.wordWrite m (FCU_SRCCFG i) v)) ∧
  (∀ (m : Master) (s : State), Yields (.armed m) s (s.fieldWrite m FCU_CTRL_ARMED 1)) ∧
  (∀ (s : State), Yields (.aliveToggle) s (s.aliveToggle)) ∧
  (∀ (off : BitVec 16) (mismatch parity : Bool) (s : State), Yields (.collectorSelfFault off mismatch parity) s (s.selfFault off.toNat mismatch parity))

/-- A bank writes back the oldest corrected word that waits, and the word holds no error after; a scrub read of a sound word changes nothing but the scrubber's address, a corrected error is counted, recorded with its address and reported by source 304, an uncorrectable one by the bank's source; with SCRUBEN clear, asleep, or after voter 10's yes nothing is read; a group that powers on or wakes is on when it is ready. When the scrubber rests and that no two masters ask a bank in one cycle are the model's reading (logs 43 and 136); where an error lies outside frames is log 160. Every command named here completes, from every state and with all operands: the last clauses give the operation that is its own effect. -/
def Obligations.MemoryErrors : Prop :=
  (∀ (b : Fin 48) (a : Nat) (l : List Nat) (s : State),
      s.pwr.wb = a :: l →
      (sramBank a = b.val ∧ a % 8 = 0) →
      Effect (.eccWriteback b) s ([]) ([]) (fun u => u.eccAt a = 0 ∧ a ∉ u.pwr.wb ∧ (∀ k : Fin 8, k.val ≠ 0 → u.eccAt (a + 8 * k) = s.eccAt (a + 8 * k)) ∧ u.mem = s.mem)) ∧
  (∀ (b : Fin 48) (s : State),
      s.pwr.wb = [] →
      Yields (.eccWriteback b) s (s)) ∧
  (∀ (l : List (Fin 48 × Bool)) (s : State),
      (s.asleep = true ∨ s.pwr.vote.any (fun l => l.contains 10) = true ∨ s.flag MEM_CTRL_SCRUBEN = false) →
      Yields (.scrubRead l) s (s)) ∧
  (∀ (s : State),
      (s.asleep = false ∧ s.pwr.vote = none ∧ s.flag MEM_CTRL_SCRUBEN = true) →
      (∀ b : Fin 48, s.eccAt (0x20000000 + b * 0x40000 + s.pwr.scrub * 8) = 0) →
      Effect (.scrubRead []) s ([]) ([]) (fun u => u.pwr = { s.pwr with scrub := (s.pwr.scrub + 1) % 32768 } ∧ u.ecc = s.ecc ∧ u.mem = s.mem)) ∧
  (∀ (b : Fin 48) (s : State),
      (s.asleep = false ∧ s.pwr.vote = none ∧ s.flag MEM_CTRL_SCRUBEN = true ∧ s.sgOn (b / 4) = true ∧ s.ecc = [] ∧ s.pwr.scrub < 32768) →
      Effect (.scrubRead [(b, false)]) s ([MEM_CNT 0, MEM_ECCADDR]) ([(304, b * 0x40000 + s.pwr.scrub * 8, false)]) (fun u => u.regN (MEM_CNT 0) = satAdd 0xFFFFFFFF (s.regN (MEM_CNT 0)) 1 ∧
  u.regN MEM_ECCADDR = b * 0x40000 + s.pwr.scrub * 8 ∧ 0x20000000 + b * 0x40000 + s.pwr.scrub * 8 ∈ u.pwr.wb ∧ u.pwr.scrub = (s.pwr.scrub + 1) % 32768)) ∧
  (∀ (b : Fin 48) (s : State),
      (s.asleep = false ∧ s.pwr.vote = none ∧ s.flag MEM_CTRL_SCRUBEN = true ∧ s.sgOn (b / 4) = true ∧ s.ecc = [] ∧ s.pwr.scrub < 32768) →
      Effect (.scrubRead [(b, true)]) s ([MEM_CNT 1, MEM_UNCADDR]) ([(if b.val < 4 then 320 + b.val else 256 + b.val, b * 0x40000 + s.pwr.scrub * 8, false)]) (fun u => u.regN (MEM_CNT 1) = satAdd 0xFFFFFFFF (s.regN (MEM_CNT 1)) 1 ∧
  u.regN MEM_UNCADDR = b * 0x40000 + s.pwr.scrub * 8 ∧ u.pwr.wb = s.pwr.wb ∧ u.pwr.scrub = (s.pwr.scrub + 1) % 32768)) ∧
  (∀ (g : Fin 12) (s : State),
      s.sgBusy g = true →
      Effect (.sramGroupReady g) s ([MEM_STAT]) ([]) (fun u => u.sgOn g = true ∧ u.sgBusy g = false ∧ (∀ k : Fin 12, k ≠ g → u.sgOn k = s.sgOn k ∧ u.sgBusy k = s.sgBusy k) ∧ u.pwr = s.pwr)) ∧
  (∀ (g : Fin 12) (s : State),
      s.sgBusy g = false →
      Yields (.sramGroupReady g) s (s)) ∧
  (∀ (found : List (Fin 48 × Bool)) (s : State), Yields (.scrubRead found) s (s.scrubTick found)) ∧
  (∀ (b : Fin 48) (s : State), Yields (.eccWriteback b) s (s.eccWriteback b)) ∧
  (∀ (g : Fin 12) (s : State), Yields (.sramGroupReady g) s (s.sgReady g))

/-- A voter that may not be silent votes yes, or refuses with its reason, which ends the vote with LASTRES 2, BLK and RSN, an AREF note and the answer 0x8050; the window's end with a silent voter ends it with LASTRES 3 and 0x8051; the answer that is owed tells the block and its reason; a wake event ends it with LASTRES 4; the last yes ends it with LASTRES 1; a wake source that is always on or enabled sets its bit and asks for transition 18; a sample counts, shows VIN and wakes on a match; the seconds compare wakes source 4; the commit enters RETAIN or STROLL; the wake's end brings the mode back. The links that the commit takes down raise nothing (log 164, deduced). Every command named here completes, from every state and with all operands: the last clauses give the operation that is its own effect. -/
def Obligations.LowPowerCommands : Prop :=
  (∀ (v : Fin 12) (hb : Bool) (s : State),
      s.pwr.vote = none →
      Yields (.voteCast v hb) s (s)) ∧
  (∀ (v : Fin 12) (hb : Bool) (l : List Nat) (s : State),
      ((s.pwr.vote = some l ∧ (v.val ∈ l ∨ s.pwr.committed = true))) →
      Yields (.voteCast v hb) s (s)) ∧
  (∀ (v : Fin 12) (hb : Bool) (l : List Nat) (s : State),
      (s.pwr.vote = some l ∧ v.val ∉ l ∧ s.pwr.committed = false) →
      (s.voteOf v hb = some 0 ∧ v.val ≠ 7 ∧ v.val ≠ 8 ∧ l.length < 11) →
      Effect (.voteCast v hb) s ([]) ([]) (fun u => u.pwr = { s.pwr with vote := some (l ++ [v.val]) } ∧ u.mode = s.mode)) ∧
  (∀ (v : Fin 12) (hb : Bool) (l : List Nat) (s : State),
      (s.pwr.vote = some l ∧ v.val ∉ l ∧ s.pwr.committed = false ∧ s.pwr.owed = none) →
      (s.voteOf v hb = some 0 ∧ v.val ≠ 7 ∧ v.val ≠ 8 ∧ l.length = 11) →
      Effect (.voteCast v hb) s ([PWR_VOTE]) ([]) (fun u => u.pwr.vote = some (l ++ [v.val]) ∧ u.pwr.committed = true ∧ u.fld PWR_VOTE_LASTRES = 1)) ∧
  (∀ (l : List Nat) (s : State),
      (s.pwr.vote = some l ∧ 11 ∉ l ∧ s.pwr.committed = false ∧ s.pwr.owed = none ∧ 8 ∉ l) →
      Effect (.voteCast 11 true) s ([PWR_VOTE, SYS_MODE]) ([(10, 0, false)]) (fun u => u.pwr.vote = none ∧ u.trans = none ∧ u.busy = false ∧ u.mode = s.mode ∧ u.fld PWR_VOTE_LASTRES = 2 ∧ u.fld PWR_VOTE_BLK = 11 ∧ u.fld PWR_VOTE_RSN = 5)) ∧
  (∀ (l : List Nat) (s : State),
      (s.pwr.vote = some l ∧ s.pwr.committed = false ∧ s.pwr.owed = none ∧ 0 ∈ l ∧ 1 ∉ l ∧ 8 ∉ l) →
      Effect (.voteWindowExpiry) s ([PWR_VOTE, SYS_MODE]) ([(10, 0, false)]) (fun u => u.pwr.vote = none ∧ u.trans = none ∧ u.busy = false ∧ u.mode = s.mode ∧ u.fld PWR_VOTE_LASTRES = 3 ∧ u.fld PWR_VOTE_BLK = 1 ∧ u.fld PWR_VOTE_RSN = 0)) ∧
  (∀ (l : List Nat) (o : Owed) (s : State),
      (s.pwr.vote = some l ∧ 11 ∉ l ∧ s.pwr.committed = false ∧ s.pwr.owed = some o ∧ 8 ∉ l) →
      s.chanFull (retChan o.chan) = false →
      Leaves (.voteCast 11 true) s (fun u => u.pwr.vote = none ∧ u.trans = none ∧ u.pwr.owed = none ∧ u.mode = s.mode ∧ u.fld PWR_VOTE_LASTRES = 2 ∧ u.fld PWR_VOTE_BLK = 11 ∧ u.fld PWR_VOTE_RSN = 5 ∧
  u.chan (retChan o.chan) = s.chan (retChan o.chan) ++ [stampMsg (retChan o.chan) (respMsg o.hdr 0x8050 11 5 (leBytes 4 (u.regN PWR_VOTE)))] ∧ u.pending = s.pending)) ∧
  (∀ (l : List Nat) (o : Owed) (s : State),
      (s.pwr.vote = some l ∧ s.pwr.committed = false ∧ s.pwr.owed = some o ∧ 0 ∈ l ∧ 1 ∉ l ∧ 8 ∉ l) →
      s.chanFull (retChan o.chan) = false →
      Leaves (.voteWindowExpiry) s (fun u => u.pwr.vote = none ∧ u.trans = none ∧ u.pwr.owed = none ∧ u.fld PWR_VOTE_LASTRES = 3 ∧
  u.chan (retChan o.chan) = s.chan (retChan o.chan) ++ [stampMsg (retChan o.chan) (respMsg o.hdr 0x8051 1 0 (leBytes 4 (u.regN PWR_VOTE)))] ∧ u.pending = s.pending)) ∧
  (∀ (i : Fin 7) (t : Trans) (l : List Nat) (s : State),
      ((s.Calm ∧ s.trans = some t ∧ (t.num = 16 ∨ t.num = 17) ∧ s.pwr.vote = some l ∧ s.pwr.committed = false ∧ s.pwr.owed = none ∧ 8 ∉ l ∧ s.asleep = false)) →
      (((i.val < 4 ∨ (s.regN PWR_WAKE).testBit i = true) ∧ (s.srcCfg 10).1 ≤ 1 ∧ (s.srcCfg 10).2 ≤ 1 ∧ s.fcu.windows = [] ∧ s.flag FCU_STAT_SELF = false ∧ s.forced 10 = false ∧ s.pairBad 10 = false)) →
      Leaves (.wakeEvent i) s (fun u => let v := u.settle; v.pwr.vote = none ∧ v.trans = none ∧ v.busy = false ∧ v.mode = s.mode ∧ v.fld PWR_VOTE_LASTRES = 4 ∧ (v.regN PWR_WAKE).testBit (16 + i) = true ∧ v.pending = s.pending)) ∧
  (∀ (s : State),
      (s.pwr.vote = none ∨ s.pwr.committed = true) →
      Yields (.voteWindowExpiry) s (s)) ∧
  (∀ (i : Fin 7) (s : State),
      ((s.asleep = true ∨ s.pwr.vote.isSome = true)) →
      ((i.val < 4 ∨ (s.regN PWR_WAKE).testBit i = true)) →
      Effect (.wakeEvent i) s ([PWR_WAKE]) ([]) (fun u => (s.regN PWR_WAKE ||| 2 ^ (16 + i.val)) = u.regN PWR_WAKE ∧ u.modeq = s.modeq ++ [(18, s.lowFrom, 6)])) ∧
  (∀ (i : Fin 7) (s : State),
      ((s.asleep = false ∧ s.pwr.vote.isSome = false) ∨ (4 ≤ i.val ∧ (s.regN PWR_WAKE).testBit i = false)) →
      Yields (.wakeEvent i) s (s)) ∧
  (∀ (s : State),
      (s.mode ≠ modeOFF ∧ s.asleep = true ∧ s.regN (TIME_DOM_SEC_LO 0) = s.regN PWR_WAKESEC ∧ (s.regN PWR_WAKE).testBit 4 = true) →
      Effect (.wakesecReached) s ([PWR_WAKE]) ([]) (fun u => u.modeq = s.modeq ++ [(18, s.lowFrom, 6)] ∧ (u.regN PWR_WAKE).testBit 20 = true)) ∧
  (∀ (s : State),
      (0 < s.regN PWR_WAKESEC ∧ s.regN PWR_WAKESEC < 2 ^ 31 ∧ s.regN (TIME_DOM_SEC_LO 0) < s.regN PWR_WAKESEC) →
      Yields (.wakesecReached) s (s)) ∧
  (∀ (link : Byte) (balls : BitVec 64) (temp vin : BitVec 16) (s : State),
      (s.mode ≠ modeSTROLL ∨ s.trans.isSome = true) →
      Yields (.strollSample link balls temp vin) s (s)) ∧
  (∀ (link : Byte) (balls : BitVec 64) (temp vin : BitVec 16) (s : State),
      (s.mode = modeSTROLL ∧ s.trans = none ∧ link.toNat &&& s.fld PWR_SCFG_LINK = 0) →
      ((balls.toNat ^^^ s.pair PWR_SNPLVL_LO) &&& s.pair PWR_SNPMASK_LO = 0 ∧ s.flag PWR_SCFG_VINCHK = false ∧ s.fld PWR_SCNTTHR_THR = 0) →
      (sgn 8 (s.fld PWR_SCFG_TEMPLO) * 10 ≤ temp.toInt ∧ temp.toInt ≤ sgn 8 (s.fld PWR_SCFG_TEMPHI) * 10) →
      Effect (.strollSample link balls temp vin) s ([PWR_SSTAT, PWR_HOLDSTAT]) ([]) (fun u => u.fld PWR_HOLDSTAT_VIN = vin.toNat ∧ u.fld PWR_SSTAT_MATCH = s.fld PWR_SSTAT_MATCH ∧ u.modeq = s.modeq)) ∧
  (∀ (link : Byte) (balls : BitVec 64) (temp vin : BitVec 16) (s : State),
      (s.mode = modeSTROLL ∧ s.trans = none ∧ link.toNat &&& s.fld PWR_SCFG_LINK ≠ 0) →
      ((balls.toNat ^^^ s.pair PWR_SNPLVL_LO) &&& s.pair PWR_SNPMASK_LO = 0 ∧ s.flag PWR_SCFG_VINCHK = false ∧ s.fld PWR_SCNTTHR_THR = 0) →
      (sgn 8 (s.fld PWR_SCFG_TEMPLO) * 10 ≤ temp.toInt ∧ temp.toInt ≤ sgn 8 (s.fld PWR_SCFG_TEMPHI) * 10) →
      Effect (.strollSample link balls temp vin) s ([PWR_SSTAT, PWR_HOLDSTAT, PWR_WAKE]) ([]) (fun u => u.fld PWR_HOLDSTAT_VIN = vin.toNat ∧ u.fld PWR_SSTAT_MATCH = 1 ∧ u.modeq = s.modeq ++ [(18, s.lowFrom, 6)] ∧ (u.regN PWR_WAKE).testBit 19 = true)) ∧
  (∀ (s : State),
      (s.trans = none ∨ s.pwr.committed = false) →
      Yields (.lowPowerCommit) s (s)) ∧
  (∀ (t : Trans) (s : State),
      ((s.trans = some t ∧ s.pwr.committed = true ∧ s.pwr.late = [] ∧ s.asleep = false ∧ (t.target = modeRETAIN ∨ t.target = modeSTROLL))) →
      Leaves (.lowPowerCommit) s (fun u => u.mode = t.target ∧ u.fld SYS_MODE_PREV = s.mode ∧ u.busy = false ∧ u.trans = none ∧ u.pwr.vote = none ∧ u.pwr.committed = false ∧ u.lowFrom = s.mode ∧ u.modeq = s.modeq ∧ u.pending = s.pending ∧
  (∀ d : Fin 12, 2 ≤ d.val → s.domOn d = true → u.domSt d = if d.val = 8 ∧ t.target = modeRETAIN then 0 else 2) ∧ u.flag SYS_CLKSTAT_PLL0LK = false ∧ (∀ g : Fin 12, s.sgOff g = false → u.sgOn g = false) ∧
  (∀ d : Fin 2, u.domSt d = s.domSt d))) ∧
  (∀ (t : Trans) (s : State),
      s.trans = some t →
      t.num ≠ 18 →
      Yields (.wakeComplete) s (s)) ∧
  (∀ (t : Trans) (s : State),
      (s.trans = some t ∧ t.num = 18 ∧ t.target = modePREOP ∧ s.pwr.vote = none ∧ s.pwr.late = [] ∧ s.fcu.deferred = [] ∧ s.insts = [] ∧ s.fw.cfg = [] ∧ s.itin.armed = [] ∧ s.domSt 10 = 0 ∧ s.sys.cfg.insts = []) →
      Leaves (.wakeComplete) s (fun u => u.mode = modePREOP ∧ u.fld SYS_MODE_PREV = s.mode ∧ u.busy = false ∧ u.trans = none ∧ (∀ d : Fin 8, s.domSt d = 2 → u.domOn d = true) ∧ (∀ g : Fin 12, s.sgOff g = false → u.sgOn g = true) ∧
  u.flag SYS_CLKSTAT_PLL0LK = true ∧ u.modeq = s.modeq ∧ u.pending = s.pending)) ∧
  (∀ (v : Fin 12) (hostBusy : Bool) (s : State), Yields (.voteCast v hostBusy) s (s.voteCast v hostBusy)) ∧
  (∀ (s : State), Yields (.voteWindowExpiry) s (s.voteExpiry)) ∧
  (∀ (s : State), Yields (.lowPowerCommit) s (s.lowCommit)) ∧
  (∀ (i : Fin 7) (s : State), Yields (.wakeEvent i) s (s.wake i)) ∧
  (∀ (s : State), Yields (.wakeComplete) s (s.wakeDone)) ∧
  (∀ (link : Byte) (balls : BitVec 64) (temp vin : BitVec 16) (s : State), Yields (.strollSample link balls temp vin) s (s.strollSample link.toNat balls.toNat temp.toInt vin.toNat)) ∧
  (∀ (s : State), Yields (.wakesecReached) s (s.wakeSec))

/-- A VIN trip in a mode other than OFF, TEST and HOLDUP enters HOLDUP with CAUSE 7 and PREV the mode before, shows the VHOLD reading, latches Saffron and switches every domain but AO, SAF and HUA off, and from every mode but BOOT writes the record of the next Flask slot, but for its closing word: magic, sequence number, mode word, schedule count and readings; the end of HOLDUP switches every domain off and enters OFF; a VIN return starts the device as at power-on with VINRST as its cause and the straps it had. That CUR becomes HOLDUP at the trip itself is deduced (log 33). Every command named here completes, from every state and with all operands: the last clauses give the operation that is its own effect. -/
def Obligations.SupplyLossCommands : Prop :=
  (∀ (vh0 vh1 : BitVec 16) (ns : Word) (s : State),
      ((s.mode = modeOFF ∨ s.mode = modeTEST ∨ s.mode = modeHOLDUP)) →
      Yields (.vinTrip vh0 vh1 ns) s (s)) ∧
  (∀ (vh0 vh1 : BitVec 16) (ns : Word) (s : State),
      (s.mode = modeBOOT ∧ s.pwr.vote = none ∧ s.pwr.committed = false ∧ s.raises = [] ∧ s.fcu.windows = [] ∧ s.flag FCU_STAT_SELF = false) →
      Leaves (.vinTrip vh0 vh1 ns) s (fun u => u.mode = modeHOLDUP ∧ u.fld SYS_MODE_CAUSE = 7 ∧ u.fld SYS_MODE_PREV = modeBOOT ∧ u.busy = false ∧ u.trans = none ∧ u.pwr.holdEn = true ∧ u.saf.latched = true ∧ u.fld PWR_HOLDSTAT_VHOLD = vh1.toNat ∧ u.modeq = [] ∧
  (∀ d : Fin 12, 2 < d.val → u.domSt d = 0) ∧ u.pending = s.pending ∧ (∀ a : Fin 64, u.byte (0x30300000 + a) = s.byte (0x30300000 + a)))) ∧
  (∀ (vh0 vh1 : BitVec 16) (ns : Word) (i : Nat) (s : State),
      (s.mode ≠ modeOFF ∧ s.mode ≠ modeTEST ∧ s.mode ≠ modeHOLDUP ∧ s.mode ≠ modeBOOT) →
      (s.pwr.vote = none ∧ s.pwr.committed = false ∧ s.raises = [] ∧ s.fcu.windows = [] ∧ s.flag FCU_STAT_SELF = false) →
      s.nextSlot = some i →
      Leaves (.vinTrip vh0 vh1 ns) s (fun u => u.mode = modeHOLDUP ∧ u.fld SYS_MODE_CAUSE = 7 ∧ u.fld SYS_MODE_PREV = s.mode ∧ u.busy = false ∧ u.trans = none ∧ u.pwr.holdEn = true ∧ u.saf.latched = true ∧ u.fld PWR_HOLDSTAT_VHOLD = vh1.toNat ∧ u.modeq = [] ∧
  (∀ d : Fin 12, 2 < d.val → u.domSt d = 0) ∧ u.pending = s.pending ∧ u.pwr.slot = some i ∧ u.mem32 (slotAt i) = flaskMagic ∧ u.mem32 (slotAt i + 4) = ((s.lastSlot.map (fun j => s.mem32 (slotAt j + 4) + 1)).getD 1) % 2 ^ 32 ∧
  u.mem32 (slotAt i + 12) = s.regN SYS_MODE ∧ u.mem32 (slotAt i + 16) = s.cyc0.toNat ∧ u.mem32 (slotAt i + 20) = vh0.toNat + 65536 * vh1.toNat ∧ u.mem32 (slotAt i + 24) = ns.toNat ∧ u.mem32 (slotAt i + 0x13FFC) = 0)) ∧
  (∀ (good : Bool) (s : State),
      s.mode ≠ modeHOLDUP →
      Yields (.holdupComplete good) s (s)) ∧
  (∀ (good : Bool) (s : State),
      s.mode = modeHOLDUP →
      Leaves (.holdupComplete good) s (fun u => u.mode = modeOFF ∧ u.pwr.holdEn = false ∧ u.busy = false ∧ u.trans = none ∧ u.regN PWR_DOMSTAT = 0 ∧ u.reg SYS_RSTCAUSE = s.reg SYS_RSTCAUSE ∧ u.fld (SAF_BTEST_HOURS 1) = s.fld (SAF_BTEST_HOURS 1) ∧ u.pending = s.pending)) ∧
  (∀ (s : State),
      s.mode ≠ modeOFF →
      Yields (.vinRestart) s (s)) ∧
  (∀ (s : State),
      (s.mode = modeOFF ∧ s.flag SYS_RSTCAUSE_TESTMODE = false ∧ ∀ b : Fin 48, s.fld (MEM_REPSTAT_SUB b) = 0) →
      Leaves (.vinRestart) s (fun u => u.trans.map (fun t => (t.num, t.target, t.cause)) = some (1, modeBOOT, 0) ∧ u.busy = true ∧ u.fld SYS_MODE_TARGET = modeBOOT ∧ u.regN SYS_RSTCAUSE % 32 = 2 ∧ u.flag SYS_RSTCAUSE_HOSTSEL = s.flag SYS_RSTCAUSE_HOSTSEL ∧
  u.flag SYS_RSTCAUSE_BOOTHOLD = s.flag SYS_RSTCAUSE_BOOTHOLD ∧ u.pending = s.pending)) ∧
  (∀ (vh0 vh1 : BitVec 16) (ns : Word) (s : State), Yields (.vinTrip vh0 vh1 ns) s (s.vinTrip vh0.toNat vh1.toNat ns.toNat)) ∧
  (∀ (good : Bool) (s : State), Yields (.holdupComplete good) s (s.holdupEnd good)) ∧
  (∀ (s : State), Yields (.vinRestart) s (s.vinRestart))

/-- A core's write of 1, 2, 4 or 8 aligned bytes to SRAM, in a bank group that is on and a word without an error, or to Hamper stores them little-endian at the address and changes no other byte; so does one to MRAM; a write of MRAM by another master, one of bank 35, one of a size or an alignment that the memory does not take and one of the boot ROM change no byte and are reported as a class 0 note; a read answers the bytes. A read of the descriptor window answers the fields of the copy that uses the descriptor, a write of it does nothing. A host or JTAG write into an unreached region is reported likewise. What the window shows beside R88 and that a write of bank 35 is ignored are deduced (logs 105 and 23); a host access of another size is log 16, Cardamom's missing view log 155. -/
def Obligations.MemoryAccess : Prop :=
  (∀ (m : Master) (a : Word) (n : Fin 9) (v : BitVec 64) (s : State),
      (inHamper a.toNat = true ∧ memReach m a.toNat = true ∧ sizeOk m a.toNat n = true) →
      (s.domOn 11 = true ∧ s.bridgeDenied m a.toNat true = false ∧ s.eccAt a.toNat = 0) →
      Leaves (.registerWrite m a n v) s (fun u => Stored s u a.toNat (leBytes n v.toNat) ∧ MemOnly s u)) ∧
  (∀ (m : Master) (a : Word) (n : Fin 9) (v : BitVec 64) (s : State),
      (inSram a.toNat = true ∧ sramBank a.toNat ≠ 35 ∧ ¬ (44 ≤ sramBank a.toNat ∧ sramBank a.toNat ≤ 45)) →
      (memReach m a.toNat = true ∧ sizeOk m a.toNat n = true ∧ n.val < 8 ∧ s.isHeld .host = false) →
      (s.sgOn (sramBank a.toNat / 4) = true ∧ s.eccAt a.toNat = 0) →
      Leaves (.registerWrite m a n v) s (fun u => Stored s u a.toNat (leBytes n v.toNat) ∧ MemOnly s u)) ∧
  (∀ (m : Master) (a : Word) (v : BitVec 64) (s : State),
      (inSram a.toNat = true ∧ sramBank a.toNat ≠ 35 ∧ ¬ (44 ≤ sramBank a.toNat ∧ sramBank a.toNat ≤ 45)) →
      (memReach m a.toNat = true ∧ sizeOk m a.toNat 8 = true ∧ s.isHeld .host = false ∧ s.sgOn (sramBank a.toNat / 4) = true) →
      Leaves (.registerWrite m a 8 v) s (fun u => Stored s u a.toNat (leBytes 8 v.toNat) ∧ u.eccAt a.toNat = 0 ∧ u.regs = s.regs ∧ u.raises = s.raises ∧ u.pending = s.pending)) ∧
  (∀ (c : Fin 4) (a : Word) (n : Fin 9) (v : BitVec 64) (s : State),
      (inMram a.toNat = true ∧ sizeOk (.core c) a.toNat n = true ∧ n.val < 8 ∧ s.eccAt a.toNat = 0) →
      Leaves (.registerWrite (.core c) a n v) s (fun u => Stored s u a.toNat (leBytes n v.toNat) ∧ u.regs = s.regs ∧ u.raises = s.raises ∧ u.chans = s.chans ∧ u.pending = s.pending)) ∧
  (∀ (m : Master) (a : Word) (n : Fin 9) (v : BitVec 64) (s : State),
      (inMram a.toNat = true ∧ isCore m = false ∧ m ≠ .cardamom ∧ s.isHeld .host = false ∧ s.bridgeDenied m a.toNat true = false) →
      Effect (.registerWrite m a n v) s ([]) ([(14, 0, false)]) (fun u => True)) ∧
  (∀ (m : Master) (a : Word) (n : Fin 9) (v : BitVec 64) (s : State),
      (inRegs a.toNat = false ∧ ¬ (m = .host ∧ a.toNat < 0x10000) ∧ m ≠ .cardamom ∧ s.isHeld .host = false ∧ s.bridgeDenied m a.toNat true = false) →
      ((memReach m a.toNat = false ∨ sizeOk m a.toNat n = false ∨ a.toNat < 0x40000 ∨ (inSram a.toNat = true ∧ sramBank a.toNat = 35))) →
      Effect (.registerWrite m a n v) s ([]) ([(14, 0, false)]) (fun u => True)) ∧
  (∀ (m : Master) (a : Word) (n : Fin 9) (s : State),
      (inHamper a.toNat = true ∧ memReach m a.toNat = true ∧ sizeOk m a.toNat n = true) →
      (s.domOn 11 = true ∧ s.bridgeDenied m a.toNat false = false ∧ s.ecc = []) →
      Yields (.readClear m a n) s ({ s with rdata := BitVec.ofNat 64 (ofLe (s.bytes a.toNat n)) })) ∧
  (∀ (m : Master) (a : Word) (n : Fin 9) (s : State),
      (inSram a.toNat = true ∧ ¬ (0x208C0000 ≤ a.toNat ∧ a.toNat < 0x208D8000) ∧ memReach m a.toNat = true ∧ sizeOk m a.toNat n = true) →
      (s.isHeld .host = false ∧ s.sgOn (sramBank a.toNat / 4) = true ∧ s.eccAt a.toNat = 0) →
      Yields (.readClear m a n) s ({ s with rdata := BitVec.ofNat 64 (ofLe (s.bytes a.toNat n)) })) ∧
  (∀ (m : Master) (a : Word) (n : Fin 9) (s : State),
      (inSram a.toNat = true ∧ memReach m a.toNat = true ∧ sizeOk m a.toNat n = true) →
      (s.isHeld .host = false ∧ s.sgOn (sramBank a.toNat / 4) = true ∧ 2 ≤ s.eccAt a.toNat ∧ isCore m = false ∧ m ≠ .host) →
      Effect (.readClear m a n) s ([MEM_CNT 1, MEM_UNCADDR]) ([(uncSrc a.toNat, errAddr a.toNat, false)]) (fun u => u.regN MEM_UNCADDR = errAddr a.toNat ∧ u.regN (MEM_CNT 1) = satAdd 0xFFFFFFFF (s.regN (MEM_CNT 1)) 1)) ∧
  (∀ (m : Master) (a : Word) (x : Copy) (nx : Option Nat) (s : State),
      (0x40E00000 ≤ a.toNat ∧ a.toNat < 0x41000000 ∧ m ≠ .cardamom ∧ s.domOn 11 = true ∧ s.bridgeDenied m a.toNat false = false ∧ s.isHeld .host = false) →
      (s.desc ((a.toNat - 0x40E00000) / 32) = some (x, nx)) →
      Effect (.readClear m a 4) s ([]) ([]) (fun u => (a.toNat % 32 = 4 → u.rdata = BitVec.ofNat 64 (x.its % 2 ^ 32)) ∧ (a.toNat % 32 = 16 → u.rdata.toNat % 2 ^ 16 = x.src % 32 + 2 ^ 5 * (x.cls % 8) + 2 ^ 8 * (x.itsFrac % 8) + 2 ^ 11 * (x.ltMode % 4) + 2 ^ 13 * (x.lau % 2) + 2 ^ 14 * bit x.ct + 2 ^ 15 * bit x.ptp) ∧ (a.toNat % 32 = 24 → u.rdata = BitVec.ofNat 64 (x.fhash % 2 ^ 32)) ∧ (a.toNat % 32 = 28 → u.rdata.toNat / 2 ^ 16 = bit nx.isNone))) ∧
  (∀ (m : Master) (a : Word) (v : BitVec 64) (s : State),
      (0x40E00000 ≤ a.toNat ∧ a.toNat < 0x41000000 ∧ a.toNat % 4 = 0 ∧ s.domOn 11 = true ∧ s.bridgeDenied m a.toNat true = false ∧ s.isHeld .host = false) →
      Yields (.registerWrite m a 4 v) s (s))

/-- A BAR2 write in the software region, or in BOOT with every receiver off, stores its bytes in Hamper; elsewhere it changes no byte, sets B2WREF and is reported; a BAR2 read gives the bytes of the open offsets and 0 elsewhere, poisoned where the data is lost; a window access moves the word at RWADDR, advances it where AUTOINC is set, and a refused one sets RWDENY; SPI frames write, read in blocks with status 0x01, or 0x81 and zeros where a word is an error, return HOST_ERR, reset the port, or set SPICMD and SPIFRAME; link loss raises source 352; a vector that becomes active sends its message, masked it pends and sends at the unmask, and one active since says nothing more; a write of PIN_MDIO with no frame in progress starts one, which its end stores and closes, and is reported with one. Deduced or chosen by the model: a hole read (log 104), errors in Hamper (log 160), the moment a vector is looked at (log 161), the loss of a link (log 42), and that outputs stand in State.out (logs 95 and 96). Every command named here completes, from every state and with all operands: the last clauses give the operation that is its own effect. -/
def Obligations.HostPortCommands : Prop :=
  (∀ (o : BitVec 28) (b : List Byte) (s : State),
      (s.isHeld .host = false ∧ s.domOn 11 = true ∧ s.ecc = []) →
      (o.toNat + b.length ≤ 1024 * 256 * s.fld BUF_SWCELLS_UNITS ∧ o.toNat + b.length ≤ 0x4000000) →
      Leaves (.bar2Write o b) s (fun u => Stored s u (0x80000000 + o.toNat) b ∧ MemOnly s u)) ∧
  (∀ (o : BitVec 28) (b : List Byte) (s : State),
      (s.isHeld .host = false ∧ s.domOn 11 = true ∧ s.ecc = [] ∧ s.mode = modeBOOT ∧ o.toNat + b.length ≤ 0x4000000) →
      (∀ p : Fin 12, s.flag (MAC_CTRL_RXEN p) = false) →
      Leaves (.bar2Write o b) s (fun u => Stored s u (0x80000000 + o.toNat) b ∧ MemOnly s u)) ∧
  (∀ (o : BitVec 28) (b : List Byte) (p : Fin 12) (s : State),
      (s.isHeld .host = false ∧ s.domOn 11 = true ∧ b ≠ [] ∧ s.mode = modeBOOT ∧ s.flag (MAC_CTRL_RXEN p) = true) →
      1024 * 256 * s.fld BUF_SWCELLS_UNITS ≤ o.toNat →
      Effect (.bar2Write o b) s ([HOST_ERR]) ([(14, 0, false)]) (fun u => u.flag HOST_ERR_B2WREF = true)) ∧
  (∀ (o : BitVec 28) (b : List Byte) (s : State),
      (s.isHeld .host = false ∧ s.domOn 11 = true ∧ b ≠ [] ∧ s.mode ≠ modeBOOT) →
      1024 * 256 * s.fld BUF_SWCELLS_UNITS ≤ o.toNat →
      Effect (.bar2Write o b) s ([HOST_ERR]) ([(14, 0, false)]) (fun u => u.flag HOST_ERR_B2WREF = true)) ∧
  (∀ (o : BitVec 28) (b : List Byte) (s : State),
      (s.isHeld .host = true ∨ s.domOn 11 = false) →
      Yields (.bar2Write o b) s (s)) ∧
  (∀ (o : BitVec 28) (n : BitVec 13) (s : State),
      (s.isHeld .host = false ∧ s.domOn 11 = true ∧ s.spi = false ∧ s.ecc = []) →
      (o.toNat + n.toNat ≤ 1024 * 256 * s.fld BUF_SWCELLS_UNITS ∧ o.toNat + n.toNat ≤ 0x4000000) →
      Yields (.bar2Read o n false) s (s.emit (.bar2 false (s.bytes (0x80000000 + o.toNat) n.toNat)))) ∧
  (∀ (o : BitVec 28) (n : BitVec 13) (s : State),
      (s.isHeld .host = false ∧ s.spi = false ∧ s.flag HOST_B2CTRL_FRAMERD = false) →
      1024 * 256 * s.fld BUF_SWCELLS_UNITS ≤ o.toNat →
      Yields (.bar2Read o n false) s (s.emit (.bar2 false (List.replicate n.toNat 0)))) ∧
  (∀ (o : BitVec 28) (n : BitVec 13) (s : State),
      (s.isHeld .host = false ∧ s.spi = false ∧ s.ecc = []) →
      Effect (.bar2Read o n true) s ([HOST_ERR]) ([]) (fun u => u.flag HOST_ERR_POISON = true ∧ u.out = .bar2 true (s.bar2Bytes o.toNat n.toNat) :: s.out)) ∧
  (∀ (w : Word) (s : State),
      s.isHeld .host = true →
      Yields (.rwdataAccess (some w)) s (s)) ∧
  (∀ (w : Word) (a : Nat) (s : State),
      (a = 4 * s.fld HOST_RWADDR_ADDR ∧ inSram a = true ∧ sramBank a ≠ 35 ∧ ¬ (44 ≤ sramBank a ∧ sramBank a ≤ 45)) →
      (s.isHeld .host = false ∧ s.sgOn (sramBank a / 4) = true ∧ s.eccAt a = 0) →
      Leaves (.rwdataAccess (some w)) s (fun u => Stored s u a (leBytes 4 w.toNat) ∧ u.fld HOST_RWADDR_ADDR = (if s.flag HOST_RWADDR_AUTOINC then (s.fld HOST_RWADDR_ADDR + 1) % 2 ^ 30 else s.fld HOST_RWADDR_ADDR) ∧
  u.reg HOST_ERR = s.reg HOST_ERR ∧ u.raises = s.raises ∧ u.pending = s.pending)) ∧
  (∀ (a : Nat) (s : State),
      (a = 4 * s.fld HOST_RWADDR_ADDR ∧ inSram a = true ∧ ¬ (0x208C0000 ≤ a ∧ a < 0x208D8000)) →
      (s.isHeld .host = false ∧ s.sgOn (sramBank a / 4) = true ∧ s.eccAt a = 0) →
      Effect (.rwdataAccess none) s ([HOST_RWADDR]) ([]) (fun u => u.rdata = BitVec.ofNat 64 (s.mem32 a) ∧ u.fld HOST_RWADDR_ADDR = (if s.flag HOST_RWADDR_AUTOINC then (s.fld HOST_RWADDR_ADDR + 1) % 2 ^ 30 else s.fld HOST_RWADDR_ADDR))) ∧
  (∀ (w : Word) (s : State),
      (inMram (4 * s.fld HOST_RWADDR_ADDR) = true ∧ s.isHeld .host = false) →
      Effect (.rwdataAccess (some w)) s ([HOST_ERR, HOST_RWADDR]) ([(14, 0, false)]) (fun u => u.flag HOST_ERR_RWDENY = true)) ∧
  (∀ (a : Word) (l : List Word) (s : State),
      (s.spi = false ∨ s.isHeld .host = true) →
      Yields (.spiWrite a l) s (s)) ∧
  (∀ (a w : Word) (s : State),
      (s.spi = true ∧ s.isHeld .host = false ∧ s.domOn 11 = true ∧ s.ecc = [] ∧ a.toNat / 2 ^ 28 = 2) →
      (a.toNat % 2 ^ 28 + 4 ≤ 1024 * 256 * s.fld BUF_SWCELLS_UNITS ∧ a.toNat % 2 ^ 28 + 4 ≤ 0x4000000) →
      Leaves (.spiWrite a [w]) s (fun u => Stored s u (0x80000000 + a.toNat % 2 ^ 28) (leBytes 4 w.toNat) ∧ MemOnly s u)) ∧
  (∀ (a : Word) (n : BitVec 16) (s : State),
      (s.spi = true ∧ s.isHeld .host = false ∧ s.domOn 11 = true ∧ s.ecc = [] ∧ a.toNat / 2 ^ 28 = 2 ∧ n = 1) →
      (a.toNat % 2 ^ 28 + 4 ≤ 1024 * 256 * s.fld BUF_SWCELLS_UNITS ∧ a.toNat % 2 ^ 28 + 4 ≤ 0x4000000) →
      Yields (.spiRead a n) s (s.emit (.spi [(0x01, [w32 (s.mem32 (0x80000000 + a.toNat % 2 ^ 28))])]))) ∧
  (∀ (a : Word) (n : BitVec 16) (s : State),
      (s.spi = true ∧ s.isHeld .host = false ∧ s.domOn 11 = true ∧ a.toNat / 2 ^ 28 = 2 ∧ n = 1 ∧ a.toNat % 8 = 0) →
      (a.toNat % 2 ^ 28 + 4 ≤ 1024 * 256 * s.fld BUF_SWCELLS_UNITS ∧ a.toNat % 2 ^ 28 + 4 ≤ 0x4000000 ∧ s.eccAt (0x80000000 + a.toNat % 2 ^ 28) = 2) →
      Leaves (.spiRead a n) s (fun u => u.out = .spi [(0x81, [0])] :: s.out ∧ u.flag HOST_ERR_POISON = true ∧ u.mem = s.mem ∧ u.pending = s.pending)) ∧
  (∀ (a : Word) (n : BitVec 16) (s : State),
      (s.spi = true ∧ s.isHeld .host = false ∧ n = 1 ∧ a.toNat / 2 ^ 28 ≠ 0 ∧ a.toNat / 2 ^ 28 ≠ 2) →
      Effect (.spiRead a n) s ([HOST_ERR]) ([]) (fun u => u.out = .spi [(0x81, [0])] :: s.out ∧ u.flag HOST_ERR_HOLE = true)) ∧
  (∀ (a : Word) (n : BitVec 16) (s : State),
      (s.spi = false ∨ s.isHeld .host = true) →
      Yields (.spiRead a n) s (s)) ∧
  (∀ (s : State),
      s.spi = true →
      Yields (.spiStatus) s (s.emit (.spiStat (s.reg HOST_ERR)))) ∧
  (∀ (s : State),
      (s.spi = true ∧ s.flag PWR_RSTCFG_HOSTRST = true) →
      Effect (.spiReset) s ([]) ([]) (fun u => u.modeq = s.modeq ++ [(21, 4, 8)])) ∧
  (∀ (s : State),
      (s.spi = true ∧ s.flag PWR_RSTCFG_HOSTRST = false) →
      Leaves (.spiReset) s (fun u => u.reg HOST_LINKCFG = s.reg HOST_LINKCFG ∧ u.spi = true ∧ u.regN HOST_ERR = 0 ∧ u.fld (MBX_CH_STAT_COUNT 0) = 0 ∧ u.chan 4 = [] ∧ u.chan 90 = [] ∧ u.chan 41 = s.chan 41 ∧ u.host = HostSt.reset ∧ u.modeq = s.modeq ∧ u.pending = s.pending)) ∧
  (∀ (a : Word) (n : BitVec 16) (l : List Word) (s : State),
      s.spi = true →
      Effect (.spiFrameError 0 a n l) s ([HOST_ERR]) ([(352, 0, false)]) (fun u => u.flag HOST_ERR_SPICMD = true)) ∧
  (∀ (a : Word) (n : BitVec 16) (s : State),
      s.spi = true →
      Effect (.spiFrameError 1 a n []) s ([HOST_ERR]) ([(352, 0, false)]) (fun u => u.flag HOST_ERR_SPIFRAME = true)) ∧
  (∀ (s : State),
      s.spi = true →
      Effect (.hostLinkLoss) s ([]) ([(352, 0, false)]) (fun u => u.chans = s.chans)) ∧
  (∀ (s : State),
      s.spi = false →
      Effect (.hostLinkLoss) s ([HOST_STAT]) ([(352, 0, false)]) (fun u => u.chans = s.chans ∧ u.flag HOST_STAT_LINKUP = false ∧ u.fld HOST_STAT_WIDTH = 0 ∧ u.fld HOST_STAT_SPEED = 0)) ∧
  (∀ (v : Fin 32) (s : State),
      (s.spi = false ∧ s.vecActive v = true ∧ v.val ∉ s.host.act ∧ (s.msixWord (4 * v + 3)).getLsbD 0 = false) →
      Effect (.msixMessage v 3) s ([HOST_STAT]) ([]) (fun u => u.out = .msix ((s.msixWord (4 * v)).toNat + 2 ^ 32 * (s.msixWord (4 * v + 1)).toNat) (s.msixWord (4 * v + 2)) :: s.out ∧ u.host.pba.testBit v = false)) ∧
  (∀ (v : Fin 32) (s : State),
      (s.spi = false ∧ s.vecActive v = true ∧ v.val ∉ s.host.act ∧ (s.msixWord (4 * v + 3)).getLsbD 0 = true) →
      Effect (.msixMessage v 3) s ([HOST_STAT]) ([]) (fun u => u.out = s.out ∧ u.host.pba.testBit v = true)) ∧
  (∀ (v : Fin 32) (s : State),
      (s.spi = false ∧ s.vecActive v = true ∧ v.val ∈ s.host.act ∧ s.host.pba.testBit v = true ∧ (s.msixWord (4 * v + 3)).getLsbD 0 = false) →
      Effect (.msixMessage v 3) s ([HOST_STAT]) ([]) (fun u => u.out = .msix ((s.msixWord (4 * v)).toNat + 2 ^ 32 * (s.msixWord (4 * v + 1)).toNat) (s.msixWord (4 * v + 2)) :: s.out ∧ u.host.pba.testBit v = false)) ∧
  (∀ (v : Fin 32) (k : Fin 8) (s : State),
      (s.spi = false ∧ s.vecActive v = true ∧ v.val ∈ s.host.act ∧ s.host.pba.testBit v = false) →
      Effect (.msixMessage v k) s ([HOST_STAT]) ([]) (fun u => u.out = s.out ∧ u.host.pba = s.host.pba)) ∧
  (∀ (v : Fin 32) (k : Fin 8) (s : State),
      (s.spi = false ∧ s.vecActive v = false) →
      Effect (.msixMessage v k) s ([HOST_STAT]) ([]) (fun u => u.out = s.out ∧ u.host.pba.testBit v = false)) ∧
  (∀ (d : BitVec 16) (s : State),
      s.flag PIN_MDIO_GO = false →
      Yields (.mdioFrameEnd d) s (s)) ∧
  (∀ (d : BitVec 16) (s : State),
      s.flag PIN_MDIO_GO = true →
      Effect (.mdioFrameEnd d) s ([PIN_MDIO]) ([]) (fun u => u.flag PIN_MDIO_GO = false ∧ u.fld PIN_MDIO_DATA = (if s.flag PIN_MDIO_OP then s.fld PIN_MDIO_DATA else d.toNat))) ∧
  (∀ (m : Master) (v : Word) (s : State),
      s.grants m PIN_MDIO (v ||| 0x80000000#32) = true →
      s.flag PIN_MDIO_GO = false →
      Effect (.mdioGo m v) s ([PIN_MDIO]) ([]) (fun u => u.flag PIN_MDIO_GO = true ∧ u.fld PIN_MDIO_DATA = bits v 15 0 ∧ u.out = .mdio (v &&& 0x5F1FFFFF#32) :: s.out)) ∧
  (∀ (m : Master) (v : Word) (s : State),
      s.grants m PIN_MDIO (v ||| 0x80000000#32) = true →
      s.flag PIN_MDIO_GO = true →
      Effect (.mdioGo m v) s ([]) ([(14, 0, false)]) (fun u => u.out = s.out)) ∧
  (∀ (o : BitVec 28) (b : List Byte) (s : State), Yields (.bar2Write o b) s (s.bar2Write o.toNat b)) ∧
  (∀ (o : BitVec 28) (n : BitVec 13) (bad : Bool) (s : State), Yields (.bar2Read o n bad) s (s.bar2Read o.toNat n.toNat bad)) ∧
  (∀ (w : Option Word) (s : State), Yields (.rwdataAccess w) s (s.rwAccess w)) ∧
  (∀ (a : Word) (l : List Word) (s : State), Yields (.spiWrite a l) s (s.spiWrite a.toNat l)) ∧
  (∀ (a : Word) (n : BitVec 16) (s : State), Yields (.spiRead a n) s (s.spiRead a.toNat n.toNat)) ∧
  (∀ (s : State), Yields (.spiStatus) s (s.spiStatus)) ∧
  (∀ (s : State), Yields (.spiReset) s (s.spiReset)) ∧
  (∀ (k : Fin 3) (a : Word) (n : BitVec 16) (l : List Word) (s : State), Yields (.spiFrameError k a n l) s (s.spiBad k a.toNat n.toNat l)) ∧
  (∀ (s : State), Yields (.hostLinkLoss) s (s.hostLoss)) ∧
  (∀ (v : Fin 32) (cfg : Fin 8) (s : State), Yields (.msixMessage v cfg) s (s.msixSend v cfg)) ∧
  (∀ (m : Master) (v : Word) (s : State), Yields (.mdioGo m v) s (s.wordWrite m PIN_MDIO (v ||| 0x80000000#32))) ∧
  (∀ (d : BitVec 16) (s : State), Yields (.mdioFrameEnd d) s (s.mdioEnd d.toNat))

/-- SEND to a channel with room, by its sender, appends the staging stamped with sender and channel, counts SENT, and COUNT, HEAD and the host's pending bit follow; to a full channel or one with EN = 0 it sets SNDREF, counts REFUSED and raises source 354; POP by the receiver removes the oldest message or sets POPEMPTY; FLUSH empties; a ring is enabled where it is placed in the software region, else BADRING is set, and a disabled ring's indices are 0; PROD and CONS writes hand slots over; a slot of a bad length is passed, dropped and marked; a refused response is offered again. Which words of a page each side reaches is deduced (log 13); the cores' interrupt controllers are outputs (log 99). Every command named here completes, from every state and with all operands: the last clauses give the operation that is its own effect. -/
def Obligations.MailboxesAndRings : Prop :=
  (∀ (m : Master) (c : Fin 96) (s : State),
      s.grantsF m (MBX_CH_CMD_SEND c) 1 = true →
      (masterId m = chanSender c ∧ s.chanFull c = false ∧ s.asleep = false ∧ s.pwr.vote = none ∧ ¬ (0x20 ≤ chanReceiver c ∧ chanReceiver c ≤ 0x2F)) →
      Leaves (.send m c) s (fun u => u.chan c = s.chan c ++ [stampMsg c (s.staging c)] ∧ u.fld (MBX_CH_STAT_COUNT c) = (s.chan c).length + 1 ∧ u.regN (MBX_CH_SENT c) = (s.regN (MBX_CH_SENT c) + 1) % 2 ^ 32 ∧
  u.regN (MBX_CH_HEAD c 0) = msgWord ((s.chan c ++ [stampMsg c (s.staging c)]).headD []) 0 ∧ (chanReceiver c = 0 → u.bitAt (HOST_MBPEND 0) c = true) ∧ (∀ k : Fin 96, k ≠ c → u.chan k = s.chan k) ∧ u.raises = s.raises ∧ u.mem = s.mem ∧ u.pending = s.pending)) ∧
  (∀ (m : Master) (c : Fin 96) (s : State),
      s.grantsF m (MBX_CH_CMD_SEND c) 1 = true →
      ((masterId m = chanSender c ∧ (s.flag (MBX_CH_CFG_EN c) = false ∨ 16 ≤ (s.chan c).length) ∧ chanSender c ≠ 0)) →
      Effect (.send m c) s ([MBX_CH_STAT c, MBX_CH_REFUSED c]) ([(354, 0, false)]) (fun u => u.flag (MBX_CH_STAT_SNDREF c) = true ∧ u.regN (MBX_CH_REFUSED c) = satAdd 0xFFFFFFFF (s.regN (MBX_CH_REFUSED c)) 1 ∧ u.chans = s.chans)) ∧
  (∀ (c : Fin 4) (s : State),
      s.grantsF .host (MBX_CH_CMD_SEND c) 1 = true →
      ((s.flag (MBX_CH_CFG_EN c) = false ∨ 16 ≤ (s.chan c).length)) →
      Effect (.send .host ⟨c.val, by omega⟩) s ([MBX_CH_STAT c, MBX_CH_REFUSED c, HOST_ERR]) ([(354, 0, false)]) (fun u => u.flag HOST_ERR_SNDREF = true ∧ u.flag (MBX_CH_STAT_SNDREF c) = true ∧ u.chans = s.chans)) ∧
  (∀ (m : Master) (c : Fin 96) (x : List Byte) (l : List (List Byte)) (s : State),
      s.grantsF m (MBX_CH_CMD_POP c) 1 = true →
      (masterId m = chanReceiver c ∧ c.val ≠ 4 ∧ s.chan c = x :: l ∧ l.length < 16) →
      Leaves (.pop m c) s (fun u => u.chan c = l ∧ u.fld (MBX_CH_STAT_COUNT c) = l.length ∧ (chanReceiver c = 0 → u.bitAt (HOST_MBPEND 0) c = decide (l ≠ [])) ∧ u.regN (MBX_CH_HEAD c 3) = msgWord (l.headD []) 3 ∧ u.flag (MBX_CH_STAT_POPEMPTY c) = s.flag (MBX_CH_STAT_POPEMPTY c) ∧
  (∀ k : Fin 96, k ≠ c → u.chan k = s.chan k) ∧ u.raises = s.raises ∧ u.mem = s.mem ∧ u.pending = s.pending)) ∧
  (∀ (c : Fin 96) (x : List Byte) (l : List (List Byte)) (s : State),
      s.grantsF .host (MBX_CH_CMD_POP c) 1 = true →
      (chanReceiver c = 0 ∧ c.val ≠ 4 ∧ s.chan c = x :: l ∧ l.length < 16) →
      Leaves (.pop .host c) s (fun u => u.chan c = l ∧ u.bitAt (HOST_MBPEND 0) c = decide (l ≠ []) ∧ u.pending = s.pending)) ∧
  (∀ (m : Master) (c : Fin 96) (s : State),
      s.grantsF m (MBX_CH_CMD_POP c) 1 = true →
      (masterId m = chanReceiver c ∧ c.val ≠ 4 ∧ s.chan c = []) →
      Effect (.pop m c) s ([MBX_CH_STAT c]) ([]) (fun u => u.flag (MBX_CH_STAT_POPEMPTY c) = true ∧ u.chans = s.chans)) ∧
  (∀ (m : Master) (c : Fin 96) (s : State),
      s.grantsF m (MBX_CH_CMD_FLUSH c) 1 = true →
      (masterId m = chanReceiver c ∧ c.val ≠ 4) →
      Leaves (.flush m c) s (fun u => u.chan c = [] ∧ u.fld (MBX_CH_STAT_COUNT c) = 0 ∧ (chanReceiver c = 0 → u.bitAt (HOST_MBPEND 0) c = false) ∧ u.regN (MBX_CH_HEAD c 3) = 0 ∧ (∀ k : Fin 96, k ≠ c → u.chan k = s.chan k) ∧ u.raises = s.raises ∧ u.mem = s.mem ∧ u.pending = s.pending)) ∧
  (∀ (m : Master) (c : Fin 96) (s : State),
      s.grantsF m (MBX_CH_CMD_FLUSH c) 1 = true →
      masterId m ≠ chanReceiver c →
      Yields (.flush m c) s (s)) ∧
  (∀ (m : Master) (q : Fin 2) (v : Word) (s : State),
      s.grants m (HOST_FQ_CFG q) v = true →
      (s.flag (HOST_FQ_CFG_EN q) = false ∧ v.getLsbD 31 = true ∧ (s.setReg (HOST_FQ_CFG q) (v &&& 0x403F0FFF#32)).fqPlaced q = true) →
      Effect (.frameRingEnable m q v) s ([HOST_FQ_CFG q]) ([]) (fun u => u.flag (HOST_FQ_CFG_EN q) = true ∧ u.fld (HOST_FQ_CFG_SLOTCELLS q) = bits v 21 16 ∧ u.fld (HOST_FQ_CFG_SLOTSM1 q) = bits v 11 0)) ∧
  (∀ (m : Master) (q : Fin 2) (v : Word) (s : State),
      s.grants m (HOST_FQ_CFG q) v = true →
      (s.flag (HOST_FQ_CFG_EN q) = false ∧ v.getLsbD 31 = true ∧ (s.setReg (HOST_FQ_CFG q) (v &&& 0x403F0FFF#32)).fqPlaced q = false) →
      Effect (.frameRingEnable m q v) s ([HOST_FQ_CFG q, HOST_FQ_STAT q]) ([]) (fun u => u.flag (HOST_FQ_CFG_EN q) = false ∧ u.flag (HOST_FQ_STAT_BADRING q) = true)) ∧
  (∀ (m : Master) (q : Fin 2) (v : Word) (s : State),
      s.grants m (HOST_FQ_CFG q) v = true →
      (s.flag (HOST_FQ_CFG_EN q) = true ∧ v.getLsbD 31 = false) →
      Effect (.frameRingEnable m q v) s ([HOST_FQ_CFG q, HOST_FQ_PROD q, HOST_FQ_CONS q]) ([]) (fun u => u.flag (HOST_FQ_CFG_EN q) = false ∧ u.fld (HOST_FQ_PROD_PROD q) = 0 ∧ u.fld (HOST_FQ_CONS_CONS q) = 0 ∧ u.fld (HOST_FQ_CFG_SLOTSM1 q) = s.fld (HOST_FQ_CFG_SLOTSM1 q))) ∧
  (∀ (m : Master) (v : Word) (s : State),
      s.grants m (HOST_FQ_PROD 0) v = true →
      Effect (.prodWrite m v) s ([HOST_FQ_PROD 0]) ([]) (fun u => u.fld (HOST_FQ_PROD_PROD 0) = bits v 11 0)) ∧
  (∀ (m : Master) (v : Word) (s : State),
      s.grants m (HOST_FQ_CONS 1) v = true →
      Effect (.consWrite m v) s ([HOST_FQ_CONS 1]) ([]) (fun u => u.fld (HOST_FQ_CONS_CONS 1) = bits v 11 0)) ∧
  (∀ (s : State),
      (s.flag (HOST_FQ_CFG_EN 0) = false ∨ s.fld (HOST_FQ_CONS_CONS 0) = s.fld (HOST_FQ_PROD_PROD 0) ∨ s.portOff 31 = true) →
      Yields (.txRingSlotSend) s (s)) ∧
  (∀ (s : State),
      (s.flag (HOST_FQ_CFG_EN 0) = true ∧ s.fld (HOST_FQ_CONS_CONS 0) ≠ s.fld (HOST_FQ_PROD_PROD 0) ∧ s.portOff 31 = false) →
      s.mem32 (s.fqSlot 0 (s.fld (HOST_FQ_CONS_CONS 0))) % 2 ^ 14 < 64 →
      Effect (.txRingSlotSend) s ([HOST_FQ_CONS 0, HOST_FQ_STAT 0]) ([]) (fun u => u.fld (HOST_FQ_CONS_CONS 0) = s.fqNext 0 (s.fld (HOST_FQ_CONS_CONS 0)) % 2 ^ 12 ∧ u.flag (HOST_FQ_STAT_BADSLOT 0) = true ∧ u.flag (HOST_FQ_STAT_EVENT 0) = true)) ∧
  (∀ (s : State),
      (s.asleep = true ∨ s.fw.running = false) →
      Yields (.responseRetry) s (s)) ∧
  (∀ (s : State),
      (s.asleep = false ∧ s.fw.running = true ∧ s.fw.retry = []) →
      Effect (.responseRetry) s ([]) ([]) (fun u => u.fw = s.fw ∧ u.chans = s.chans)) ∧
  (∀ (c : Nat) (m : List Byte) (s : State),
      (s.asleep = false ∧ s.fw.running = true ∧ s.fw.retry = [(c, m)] ∧ c < 4 ∧ s.chanFull (4 + c) = false ∧ s.pwr.vote = none) →
      Leaves (.responseRetry) s (fun u => u.fw.retry = [] ∧ u.chan (4 + c) = s.chan (4 + c) ++ [stampMsg (4 + c) m] ∧ u.raises = s.raises ∧ u.pending = s.pending)) ∧
  (∀ (c : Nat) (m : List Byte) (s : State),
      (s.asleep = false ∧ s.fw.running = true ∧ s.fw.retry = [(c, m)] ∧ c < 4 ∧ s.chanFull (4 + c) = true ∧ s.pwr.vote = none) →
      Leaves (.responseRetry) s (fun u => u.fw.retry = [(c, m)] ∧ u.chans = s.chans ∧ u.flag (MBX_CH_STAT_SNDREF (4 + c)) = true ∧ u.raises = s.raises ++ [(354, 0, false)] ∧ u.pending = s.pending)) ∧
  (∀ (m : Master) (q : Fin 2) (v : Word) (s : State), Yields (.frameRingEnable m q v) s (s.wordWrite m (HOST_FQ_CFG q) v)) ∧
  (∀ (m : Master) (v : Word) (s : State), Yields (.prodWrite m v) s (s.wordWrite m (HOST_FQ_PROD 0) v)) ∧
  (∀ (s : State), Yields (.txRingSlotSend) s (s.fqSend)) ∧
  (∀ (m : Master) (v : Word) (s : State), Yields (.consWrite m v) s (s.wordWrite m (HOST_FQ_CONS 1) v)) ∧
  (∀ (m : Master) (c : Fin 96) (s : State), Yields (.send m c) s (s.fieldWrite m (MBX_CH_CMD_SEND c) 1)) ∧
  (∀ (m : Master) (c : Fin 96) (s : State), Yields (.pop m c) s (s.fieldWrite m (MBX_CH_CMD_POP c) 1)) ∧
  (∀ (m : Master) (c : Fin 96) (s : State), Yields (.flush m c) s (s.fieldWrite m (MBX_CH_CMD_FLUSH c) 1)) ∧
  (∀ (s : State), Yields (.responseRetry) s (s.respRetry))

/-- OPEN opens the master's channel with the next handle and an empty log, or answers 0x8011 in RESULT where one is open; COMMIT starts the check, is refused with 0x8010 where none is open and 0x8013 where the log is full; ROLLBACK discards the log or answers 0x8010; the end of a check of an empty log passes it; at the apply point every unit of the armed set becomes eligible, and the shadow of each becomes active: of a context with EN = 0 and of a time-triggered set that is not running at once, of the others at their own boundary (as the Dispatcher's shows); a set that waits for an angle or network cycle is cancelled at ARMMAX, an immediate one is not; the timeout discards the log and raises source 356. That an outside write ends a check first, and a commit whose transaction ends, are logs 19 and 21; the status code of a notice is free (log 68). Every command named here completes, from every state and with all operands: the last clauses give the operation that is its own effect. -/
def Obligations.TransactionCommands : Prop :=
  (∀ (m : Master) (c : Fin 21) (s : State),
      s.grantsF m (TXN_CH_CTRL_OPEN c) 1 = true →
      (s.flag (TXN_CH_STAT_OPEN c) = false ∧ (s.txnCh c).armed = none ∧ (s.txnCh c).serial + 1 < 2 ^ 24) →
      Effect (.txnChOpen m c) s ([TXN_CH_STAT c, TXN_CH_HANDLE c, TXN_CH_DETAIL c]) ([]) (fun u => u.flag (TXN_CH_STAT_OPEN c) = true ∧ u.fld (TXN_CH_STAT_LOGN c) = 0 ∧ u.fld (TXN_CH_STAT_RESULT c) = 0 ∧ u.regN (TXN_CH_HANDLE c) = c * 2 ^ 24 + (s.txnCh c).serial + 1 ∧
  (u.txnCh c).log = [] ∧ (∀ k : Fin 21, k ≠ c → u.txnCh k = s.txnCh k))) ∧
  (∀ (m : Master) (c : Fin 21) (s : State),
      s.grantsF m (TXN_CH_CTRL_OPEN c) 1 = true →
      s.flag (TXN_CH_STAT_OPEN c) = true →
      Effect (.txnChOpen m c) s ([TXN_CH_STAT c, TXN_CH_DETAIL c]) ([]) (fun u => u.flag (TXN_CH_STAT_OPEN c) = true ∧ u.fld (TXN_CH_STAT_RESULT c) = 0x8011 ∧ u.txn = s.txn)) ∧
  (∀ (m : Master) (c : Fin 21) (s : State),
      s.grantsF m (TXN_CH_CTRL_COMMIT c) 1 = true →
      s.flag (TXN_CH_STAT_OPEN c) = false →
      Effect (.txnChCommit m c) s ([TXN_CH_STAT c, TXN_CH_DETAIL c]) ([]) (fun u => u.fld (TXN_CH_STAT_RESULT c) = 0x8010 ∧ u.flag (TXN_CH_STAT_CHECKING c) = s.flag (TXN_CH_STAT_CHECKING c) ∧ u.txn = s.txn)) ∧
  (∀ (m : Master) (c : Fin 21) (s : State),
      s.grantsF m (TXN_CH_CTRL_COMMIT c) 1 = true →
      (s.flag (TXN_CH_STAT_OPEN c) = true ∧ (s.txnCh c).armed = none ∧ s.flag (TXN_CH_STAT_LOGFULL c) = false) →
      Effect (.txnChCommit m c) s ([TXN_CH_STAT c]) ([]) (fun u => u.flag (TXN_CH_STAT_CHECKING c) = true ∧ u.flag (TXN_CH_STAT_OPEN c) = true ∧ u.txn = s.txn)) ∧
  (∀ (m : Master) (c : Fin 21) (s : State),
      s.grantsF m (TXN_CH_CTRL_COMMIT c) 1 = true →
      (s.flag (TXN_CH_STAT_OPEN c) = true ∧ s.flag (TXN_CH_STAT_CHECKING c) = false ∧ (s.txnCh c).armed = none ∧ (s.txnCh c).owed = none ∧ s.flag (TXN_CH_STAT_LOGFULL c) = true) →
      Effect (.txnChCommit m c) s ([TXN_CH_STAT c, TXN_CH_HANDLE c, TXN_CH_DETAIL c, TXN_CH_FAIL c]) ([]) (fun u => u.fld (TXN_CH_STAT_RESULT c) = 0x8013 ∧ u.flag (TXN_CH_STAT_OPEN c) = true ∧ (u.txnCh c).log = (s.txnCh c).log)) ∧
  (∀ (m : Master) (c : Fin 21) (s : State),
      s.grantsF m (TXN_CH_CTRL_ROLLBACK c) 1 = true →
      (s.flag (TXN_CH_STAT_OPEN c) = false ∧ (s.txnCh c).armed = none) →
      Effect (.txnChRollback m c) s ([TXN_CH_STAT c, TXN_CH_DETAIL c]) ([]) (fun u => u.fld (TXN_CH_STAT_RESULT c) = 0x8010 ∧ u.txn = s.txn)) ∧
  (∀ (m : Master) (c : Fin 21) (s : State),
      s.grantsF m (TXN_CH_CTRL_ROLLBACK c) 1 = true →
      (s.flag (TXN_CH_STAT_OPEN c) = true ∧ (s.txnCh c).owed = none) →
      Effect (.txnChRollback m c) s ([TXN_CH_STAT c, TXN_CH_HANDLE c, TXN_CH_DETAIL c]) ([]) (fun u => u.flag (TXN_CH_STAT_OPEN c) = false ∧ u.flag (TXN_CH_STAT_CHECKING c) = false ∧ u.fld (TXN_CH_STAT_RESULT c) = 0 ∧ u.fld (TXN_CH_STAT_LOGN c) = 0 ∧
  (u.txnCh c).log = [] ∧ (u.txnCh c).armed = (s.txnCh c).armed ∧ u.shadow = s.shadow)) ∧
  (∀ (c : Fin 21) (s : State),
      s.flag (TXN_CH_STAT_CHECKING c) = false →
      Yields (.txnCheckEnd c) s (s)) ∧
  (∀ (c : Fin 21) (s : State),
      (s.flag (TXN_CH_STAT_CHECKING c) = true ∧ (s.txnCh c).log = [] ∧ (s.txnCh c).owed = none ∧ (s.txnCh c).byCmd = false) →
      (s.fld (TXN_CH_APPLY_KIND c) = 0 ∧ (s.logBad []).isNone = true) →
      Effect (.txnCheckEnd c) s ([TXN_CH_STAT c, TXN_CH_HANDLE c, TXN_CH_DETAIL c]) ([]) (fun u => u.flag (TXN_CH_STAT_CHECKING c) = false ∧ u.flag (TXN_CH_STAT_OPEN c) = false ∧ u.fld (TXN_CH_STAT_RESULT c) = 0 ∧ (u.txnCh c).armed = none ∧ u.shadow = s.shadow)) ∧
  (∀ (c : Fin 21) (un : SUnit) (s : State),
      (s.flag (TXN_CH_STAT_CHECKING c) = true ∧ (logUnits (s.txnCh c).log).find? (fun x => (s.armedBy x).isSome) = some un ∧ (s.txnCh c).owed = none) →
      Effect (.txnCheckEnd c) s ([TXN_CH_STAT c, TXN_CH_HANDLE c, TXN_CH_DETAIL c, TXN_CH_FAIL c]) ([]) (fun u => u.flag (TXN_CH_STAT_CHECKING c) = false ∧ u.flag (TXN_CH_STAT_OPEN c) = s.flag (TXN_CH_STAT_OPEN c) ∧ u.fld (TXN_CH_STAT_RESULT c) = 0x8014 ∧ u.fld (TXN_CH_DETAIL_DA c) = un.code ∧
  (u.txnCh c).log = (s.txnCh c).log)) ∧
  (∀ (c : Fin 21) (s : State),
      (s.txnCh c).armed = none →
      Yields (.txnApplyPoint c) s (s)) ∧
  (∀ (c : Fin 21) (a : ArmedSet) (k : Fin 2) (s : State),
      (s.txnCh c).armed = some a →
      (a.units = [.lau k.val] ∧ s.armedBy (.lau k.val) = some c.val) →
      Effect (.txnApplyPoint c) s ([TXN_CH_STAT c, TXN_CH_HANDLE c]) ([]) (fun u => (u.txnCh c).armed = some { a with reached := true } ∧ u.shadow = s.shadow ∧ u.unitEligible (.lau k.val) = true)) ∧
  (∀ (c : Fin 21) (a : ArmedSet) (s : State),
      (s.txnCh c).armed = some a →
      (a.units ≠ [] ∧ a.units.all (fun x => match x with | .loop _ => false | .tt _ => false | _ => true) = true) →
      Effect (.txnApplyPoint c) s ([TXN_CH_STAT c, TXN_CH_HANDLE c]) ([]) (fun u => (u.txnCh c).armed = some { a with reached := true } ∧ u.shadow = s.shadow ∧ ∀ x ∈ a.units, s.armedBy x = some c.val → u.unitEligible x = true)) ∧
  (∀ (c : Fin 21) (a : ArmedSet) (n : Fin 4) (s : State),
      ((s.txnCh c).armed = some a ∧ a.units = [.tt n.val] ∧ a.owed = none ∧ a.byCmd = false ∧ a.keep = [] ∧ s.armedBy (.tt n.val) = some c.val) →
      (((s.ttState n = 0 ∨ s.ttState n = 1 ∨ s.ttState n = 6) ∧ s.shadOf (.tt n.val) ≠ [] ∧ (s.shadow.map (·.1)).Nodup)) →
      ((∀ k : Fin 21, k ≠ c → (s.txnCh k).armed = none)) →
      ttBad s (fun r => s.candFor [.tt n.val] [] r) n = none →
      Leaves (.txnApplyPoint c) s (fun u => (∀ e ∈ s.shadOf (.tt n.val), u.reg e.1 = (s.reg e.1 &&& ~~~rwtMask e.1) ||| (e.2 &&& rwtMask e.1)) ∧ u.shadOf (.tt n.val) = [] ∧ (u.txnCh c).armed = none ∧ u.mem = s.mem ∧ u.raises = s.raises ∧ u.pending = s.pending)) ∧
  (∀ (c : Fin 21) (a : ArmedSet) (k : Fin 256) (s : State),
      ((s.txnCh c).armed = some a ∧ a.units = [.loop k.val] ∧ a.owed = none ∧ a.byCmd = false ∧ a.keep = [] ∧ s.armedBy (.loop k.val) = some c.val) →
      (s.flag (LOOP_CTX_CTRL_EN k) = false ∧ s.loop.run = none ∧ s.shadOf (.loop k.val) ≠ [] ∧ s.flag (LOOP_CTX_STAT_SYNCING k) = false ∧ s.fld (LOOP_CTX_STAT_BANK k) ≤ 1) →
      ((∀ j : Fin 21, j ≠ c → (s.txnCh j).armed = none)) →
      s.loopBad (fun r => s.candFor [.loop k.val] [] r) k = none →
      Leaves (.txnApplyPoint c) s (fun u => u.fld (LOOP_CTX_STAT_BANK k) = 1 - s.fld (LOOP_CTX_STAT_BANK k) ∧ (∀ i : Fin 256, (u.actWord (LOOP_COEF k i)).toNat = s.mem32 (coefMem (LOOP_COEF k i) (1 - s.fld (LOOP_CTX_STAT_BANK k)))) ∧ u.shadOf (.loop k.val) = [] ∧ (u.txnCh c).armed = none ∧ u.mem = s.mem ∧ u.pending = s.pending)) ∧
  (∀ (c : Fin 21) (a : ArmedSet) (s : State),
      ((s.txnCh c).armed = some a ∧ a.units = [.disp] ∧ a.reached = true ∧ a.owed = none ∧ a.byCmd = false ∧ a.keep = [] ∧ s.armedBy .disp = some c.val) →
      (s.domOn 7 = true ∧ s.cyc0.toNat % 1024 = 0 ∧ s.shadOf .disp ≠ [] ∧ (s.shadow.map (·.1)).Nodup) →
      ((∀ k : Fin 21, k ≠ c → (s.txnCh k).armed = none)) →
      dispBad s (fun r => s.candFor [.disp] [] r) = none →
      Leaves (.dispApplyBoundary) s (fun u => (∀ e ∈ s.shadOf .disp, u.reg e.1 = (s.reg e.1 &&& ~~~rwtMask e.1) ||| (e.2 &&& rwtMask e.1)) ∧ u.shadOf .disp = [] ∧ (u.txnCh c).armed = none ∧ u.mem = s.mem ∧ u.raises = s.raises ∧ u.pending = s.pending)) ∧
  (∀ (c : Fin 21) (s : State),
      (s.txnCh c).armed = none →
      Yields (.armmaxExpiry c) s (s)) ∧
  (∀ (c : Fin 21) (a : ArmedSet) (s : State),
      (s.txnCh c).armed = some a →
      (((a.kind ≠ 1 ∧ a.kind ≠ 3) ∨ a.reached = true)) →
      Yields (.armmaxExpiry c) s (s)) ∧
  (∀ (c : Fin 21) (a : ArmedSet) (k : Fin 2) (s : State),
      (s.txnCh c).armed = some a →
      (((a.kind = 1 ∨ a.kind = 3) ∧ a.reached = false ∧ a.units = [.lau k.val] ∧ a.owed = none ∧ s.fw.running = false)) →
      Effect (.armmaxExpiry c) s ([TXN_CH_STAT c, TXN_CH_HANDLE c]) ([]) (fun u => (u.txnCh c).armed = none ∧ u.shadow = s.shadow.filter (fun e => unitOf e.1 != some (.lau k.val)) ∧ u.flag (TXN_CH_STAT_ARMED c) = false)) ∧
  (∀ (c : Fin 21) (s : State),
      s.flag (TXN_CH_STAT_OPEN c) = false →
      Yields (.txnTimeout c) s (s)) ∧
  (∀ (c : Fin 21) (s : State),
      (s.flag (TXN_CH_STAT_OPEN c) = true ∧ (s.txnCh c).owed = none ∧ s.fw.running = false) →
      Effect (.txnTimeout c) s ([TXN_CH_STAT c, TXN_CH_HANDLE c]) ([(356, 0, false)]) (fun u => u.flag (TXN_CH_STAT_OPEN c) = false ∧ u.flag (TXN_CH_STAT_CHECKING c) = false ∧ (u.txnCh c).log = [] ∧ u.shadow = s.shadow)) ∧
  (∀ (m : Master) (c : Fin 21) (s : State), Yields (.txnChOpen m c) s (s.fieldWrite m (TXN_CH_CTRL_OPEN c) 1)) ∧
  (∀ (m : Master) (c : Fin 21) (s : State), Yields (.txnChCommit m c) s (s.fieldWrite m (TXN_CH_CTRL_COMMIT c) 1)) ∧
  (∀ (m : Master) (c : Fin 21) (s : State), Yields (.txnChRollback m c) s (s.fieldWrite m (TXN_CH_CTRL_ROLLBACK c) 1)) ∧
  (∀ (c : Fin 21) (s : State), Yields (.txnCheckEnd c) s (s.txnCheckEnd c)) ∧
  (∀ (c : Fin 21) (s : State), Yields (.txnApplyPoint c) s (s.txnReach c)) ∧
  (∀ (c : Fin 21) (s : State), Yields (.armmaxExpiry c) s (s.txnArmMax c)) ∧
  (∀ (c : Fin 21) (s : State), Yields (.txnTimeout c) s (s.txnTimeout c))

/-- For every row of firmware's command tables with a payload of fixed length: what firmware answers before it looks at the payload. That an answer which refuses has an empty payload is the model's reading (log 49); which of several refusals is told is left open, a free value of the model (log 50). -/
def Obligations.FirmwareChecks : Prop :=
  Checked Instr.info 0x0101 true false [3, 4, 5, 6, 7, 8] 0 ∧
  Checked Instr.sysMode 0x0102 false true [4, 5, 6, 8] 1 ∧
  Checked Instr.reset 0x0103 false true [3, 4, 5, 6, 7, 8] 4 ∧
  Checked Instr.env 0x0104 true false [3, 4, 5, 6, 7, 8] 0 ∧
  Checked Instr.cfgSave 0x0105 false true [4, 7] 0 ∧
  (∀ img : CfgImg, Checked (Instr.cfgLoad · img) 0x0106 false true [4, 7] 8) ∧
  Checked Instr.fwList 0x0201 false false [3, 4, 5, 6, 7, 8] 0 ∧
  (∀ room : Bool, Checked (Instr.fwLoad · room) 0x0202 false true [4, 7] 8) ∧
  Checked Instr.fwDelete 0x0203 false true [4, 7] 2 ∧
  (∀ room : Bool, Checked (Instr.fwUpdate · room) 0x0204 false true [4, 7] 8) ∧
  Checked Instr.openC 0x0301 true true [3, 4, 5, 6, 7, 8] 0 ∧
  Checked Instr.commit 0x0302 true true [3, 4, 5, 6, 7, 8] 12 ∧
  Checked Instr.rollback 0x0303 true true [3, 4, 5, 6, 7, 8] 0 ∧
  Checked Instr.txnStatus 0x0304 true false [3, 4, 5, 6, 7, 8] 0 ∧
  (∀ cfg : InstCfg, Checked (Instr.instStart · cfg) 0x0401 false true [4] 12) ∧
  Checked Instr.instStop 0x0402 false true [4] 1 ∧
  Checked Instr.instStatus 0x0403 true false [3, 4, 5, 6, 7, 8] 1 ∧
  Checked Instr.fdbSet 0x0404 false true [4, 5, 6, 7, 8] 10 ∧
  Checked Instr.fdbDel 0x0405 false true [4, 5, 6, 7, 8] 8 ∧
  Checked Instr.fdbGet 0x0406 false false [3, 4, 5, 6, 7, 8] 8 ∧
  Checked Instr.fdbFlush 0x0407 false true [4, 5, 6, 7, 8] 5 ∧
  Checked Instr.vlanSet 0x0408 false true [4, 5, 6, 7, 8] 10 ∧
  Checked Instr.vlanGet 0x0409 false false [3, 4, 5, 6, 7, 8] 2 ∧
  Checked Instr.acquire 0x0501 true true [4, 5, 6, 7, 8] 16 ∧
  Checked Instr.rearm 0x0502 false true [4, 7, 8] 1 ∧
  Checked Instr.timeGet 0x0503 true false [3, 4, 5, 6, 7, 8] 1 ∧
  Checked Instr.pps 0x0504 false true [4, 5, 6, 7, 8] 12 ∧
  Checked Instr.angleSet 0x0505 true true [4, 5, 6, 7, 8] 12 ∧
  Checked Instr.angleGet 0x0506 true false [3, 4, 5, 6, 7, 8] 1 ∧
  Checked Instr.vmSpeed 0x0507 true true [4, 5, 6, 7, 8] 8 ∧
  Checked Instr.ctxRead 0x0602 true false [3, 4, 5, 6, 7, 8] 4 ∧
  Checked Instr.ctxCtrl 0x0603 true true [3, 4, 5, 6, 7, 8] 8 ∧
  Checked Instr.ctxCfg 0x0604 true true [3, 4, 5, 6, 7, 8] 16 ∧
  Checked Instr.table 0x0605 false true [4, 5, 6, 7, 8] 12 ∧
  Checked Instr.capture 0x0606 true true [4, 5, 6, 7, 8] 16 ∧
  Checked Instr.testsig 0x0607 true true [4, 5, 6, 7, 8] 20 ∧
  Checked Instr.ctxStatus 0x0608 true false [3, 4, 5, 6, 7, 8] 1 ∧
  Checked Instr.lineConfig 0x0681 false true [4] 9 ∧
  Checked Instr.lineStart 0x0682 false true [4] 0 ∧
  Checked Instr.lineStop 0x0683 false true [4] 0 ∧
  Checked Instr.lineSpeed 0x0684 true true [4, 5, 6, 7, 8] 4 ∧
  Checked Instr.lineEngage 0x0685 true true [4, 5, 6, 8] 3 ∧
  Checked Instr.linePhase 0x0686 true true [4, 5, 6, 8] 8 ∧
  Checked Instr.lineStatus 0x0687 true false [3, 4, 5, 6, 7, 8] 0 ∧
  Checked Instr.lineAxis 0x0688 true false [3, 4, 5, 6, 7, 8] 2 ∧
  Checked Instr.canCfg 0x0701 false true [4] 20 ∧
  Checked Instr.ttLoad 0x0702 false true [4, 5, 6, 7, 8] 12 ∧
  Checked Instr.canStatus 0x0703 true false [3, 4, 5, 6, 7, 8] 1 ∧
  Checked Instr.ttRestart 0x0704 false true [3, 4, 5, 6, 7, 8] 1 ∧
  Checked Instr.canBorec 0x0705 false true [3, 4, 5, 6, 7, 8] 1 ∧
  Checked Instr.cellLoad 0x0801 false true [4, 6, 7, 8] 12 ∧
  Checked Instr.cellRun 0x0802 false true [3, 4, 5, 6, 7, 8] 5 ∧
  Checked Instr.cellStatus 0x0803 true false [3, 4, 5, 6, 7, 8] 1 ∧
  Checked Instr.cellInject 0x0804 false true [3, 4, 5, 6, 7, 8] 4 ∧
  Checked Instr.logRead 0x0A01 true false [3, 4, 5, 6, 7, 8] 2 ∧
  Checked Instr.diagAck 0x0A02 false true [3, 4, 5, 6, 7, 8] 1 ∧
  Checked Instr.savedRead 0x0A03 false false [4] 2 ∧
  Checked Instr.mapC 0x0A04 false true [3] 4 ∧
  Checked Instr.readC 0x0A05 true false [3, 4, 5, 6, 7, 8] 5 ∧
  Checked Instr.force 0x0A06 false true [3, 4, 5, 6, 7, 8] 3 ∧
  Checked Instr.enter 0x0B01 false true [4, 7] 1 ∧
  Checked Instr.domains 0x0B02 false true [4] 4 ∧
  Checked Instr.strollCfg 0x0B03 false true [4, 7] 44 ∧
  Checked Instr.flaskInfo 0x0B04 false false [3, 4, 5, 6, 7, 8] 0 ∧
  Checked Instr.resume 0x0B05 false true [4] 0 ∧
  Checked Instr.discard 0x0B06 false true [4] 0 ∧
  Checked Instr.vin 0x0B07 false true [3, 4, 5, 6, 7, 8] 4

/-- INFO, ENV and FW LIST answer what the registers, the uptime and the list of images hold and change nothing else; MODE starts transition 8 to 11 or 14 where listed from the mode and its conditions hold, else answers 0x8007, 0x8005, 0x8008, 0x8012 or 0x8060; RESET with its key promises the warm reset 1 ms on; CFG_SAVE and CFG_LOAD replace the stored configuration; LOAD stores a valid engine image under its ID, DELETE removes an unused one, UPDATE takes a valid firmware image; BOOT starts from an image in Hamper; each refusal names its code and changes nothing. The details of MODE's refusals, the moment of the reset, what the copy of the configuration holds, and that the ROM answers BOOT are deduced or chosen by the model (logs 53, 54, 55, 57, 67); that settling follows the answer is log 4. Every command named here completes, from every state and with all operands: the last clauses give the operation that is its own effect. -/
def Obligations.SystemMessages : Prop :=
  (∀ (c : Fin 96) (m : List Byte) (s : State),
      s.asks c m 0x0101 0 false = true →
      Told (.info c) s (c) (m) (0) (0) (0) (leBytes 4 (s.regN SYS_ID) ++ leBytes 2 0x0402 ++ leBytes 2 (Config.fwBuild 0).toNat ++ leBytes 4 (s.regN SYS_MODE) ++ leBytes 4 (s.regN SYS_RSTCAUSE) ++
  leBytes 4 ((s.time.now - s.sys.bootAt) / 1000000000) ++ leBytes 2 s.fw.notLost ++ [b8 s.insts.length, if s.line.running then 1 else 0])) ∧
  (∀ (c : Fin 96) (m : List Byte) (s : State),
      s.asks c m 0x0104 0 false = true →
      Told (.env c) s (c) (m) (0) (0) (0) (leBytes 2 (s.fld SYS_TEMP_TEMP) ++ leBytes 2 (s.fld PWR_HOLDSTAT_VIN) ++ leBytes 2 (s.fld PWR_HOLDSTAT_VHOLD))) ∧
  (∀ (c : Fin 96) (m : List Byte) (t n : Nat) (s : State),
      (s.asks c m 0x0102 1 true = true ∧ c.val ≤ 3 ∧ plN (msgPl m) 0 1 = t) →
      (s.busy = false ∧ s.trans = none ∧ s.noTxn = true ∧ (s.mode, t, n) ∈ [(4, 6, 8), (6, 5, 9), (5, 6, 10), (6, 4, 11), (5, 4, 11), (8, 4, 14)]) →
      (((n = 8 → s.activeBad = none) ∧ (n = 9 → s.permit = true ∧ s.allCyclic = true) ∧ (n = 14 → s.degradedPending = false ∧ s.fcu.held = []))) →
      Answers (.sysMode c) s (c) (m) (0) (0) (0) (leBytes 4 (((s.setFlag SYS_MODE_BUSY true).setFld SYS_MODE_TARGET t).regN SYS_MODE)) (fun u => u.trans = some ⟨n, t, 1, s.mode⟩ ∧ u.busy = true ∧ u.fld SYS_MODE_TARGET = t ∧ u.mode = s.mode ∧ u.raises = s.raises)) ∧
  (∀ (c : Fin 96) (m : List Byte) (t : Nat) (s : State),
      (s.asks c m 0x0102 1 true = true ∧ c.val ≤ 3 ∧ plN (msgPl m) 0 1 = t ∧ s.mode ∈ [4, 5, 6, 8]) →
      (((t < 4 ∨ 6 < t) ∧ s.busy = false)) →
      Told (.sysMode c) s (c) (m) (0x8005) (0) (0) ([])) ∧
  (∀ (c : Fin 96) (m : List Byte) (t : Nat) (s : State),
      (s.asks c m 0x0102 1 true = true ∧ c.val ≤ 3 ∧ plN (msgPl m) 0 1 = t) →
      (s.busy = true ∧ s.mode ∈ [4, 5, 6, 8]) →
      Told (.sysMode c) s (c) (m) (0x8007) (s.fld SYS_MODE_TARGET) (0) ([])) ∧
  (∀ (c : Fin 96) (m : List Byte) (t : Nat) (s : State),
      (s.asks c m 0x0102 1 true = true ∧ c.val ≤ 3 ∧ plN (msgPl m) 0 1 = t ∧ s.mode ∈ [4, 5, 6, 8]) →
      (4 ≤ t ∧ t ≤ 6 ∧ s.busy = false ∧ (s.mode, t) ∉ [(4, 6), (6, 5), (5, 6), (6, 4), (5, 4), (8, 4)]) →
      Told (.sysMode c) s (c) (m) (0x8008) (t) (0) ([])) ∧
  (∀ (c : Fin 96) (m : List Byte) (b r a : Nat) (s : State),
      (s.asks c m 0x0102 1 true = true ∧ c.val ≤ 3 ∧ plN (msgPl m) 0 1 = 6 ∧ s.mode = 4 ∧ s.busy = false) →
      s.activeBad = some (b, r, a) →
      Told (.sysMode c) s (c) (m) (0x8012) (b) (r) ([])) ∧
  (∀ (c : Fin 96) (m : List Byte) (s : State),
      (s.asks c m 0x0102 1 true = true ∧ c.val ≤ 3 ∧ plN (msgPl m) 0 1 = 5 ∧ s.mode = 6 ∧ s.busy = false) →
      ((s.permit = false ∨ s.allCyclic = false)) →
      Told (.sysMode c) s (c) (m) (0x8060) (if s.permit then 2 else 1) (0) ([])) ∧
  (∀ (c : Fin 96) (m : List Byte) (s : State),
      (s.asks c m 0x0103 4 true = true ∧ c.val ≤ 3 ∧ plN (msgPl m) 0 4 = 0x7216) →
      Answers (.reset c) s (c) (m) (0) (0) (0) ([]) (fun u => u.sys = { s.sys with resetAt := some (s.time.now + 1000000) } ∧ u.mode = s.mode ∧ u.modeq = s.modeq ∧ u.raises = s.raises)) ∧
  (∀ (c : Fin 96) (m : List Byte) (s : State),
      (s.asks c m 0x0103 4 true = true ∧ c.val ≤ 3 ∧ plN (msgPl m) 0 4 ≠ 0x7216) →
      Told (.reset c) s (c) (m) (0x8005) (0) (0) ([])) ∧
  (∀ (c : Fin 96) (m : List Byte) (s : State),
      (s.asks c m 0x0105 0 true = true ∧ c.val ≤ 3 ∧ s.mode ∈ [4, 7]) →
      Answers (.cfgSave c) s (c) (m) (0) (0) (0) ([]) (fun u => u.sys = { s.sys with cfg := { s.sys.cfg with
  regs := s.fw.cfg.filterMap (fun e => e.2.map (fun v => (e.1, v))), fdb := (s.swx.fdb.filter (fun e => e.isStatic)).map (fun e => (e.vid, e.addr, e.port)),
  vlan := s.swx.vlan, tabs := s.fw.tabs } } ∧ u.fw = s.fw ∧ u.raises = s.raises)) ∧
  (∀ (c : Fin 96) (img : CfgImg) (m : List Byte) (s : State),
      (s.asks c m 0x0106 8 true = true ∧ c.val ≤ 3 ∧ s.mode ∈ [4, 7] ∧ s.bufOk (bufAt (msgPl m) 0) = true) →
      Answers (.cfgLoad c img) s (c) (m) (0) (0) (0) ([]) (fun u => u.sys = { s.sys with cfg := img } ∧ u.raises = s.raises)) ∧
  (∀ (c : Fin 96) (img : CfgImg) (m : List Byte) (s : State),
      (s.asks c m 0x0106 8 true = true ∧ c.val ≤ 3 ∧ s.mode ∈ [4, 7] ∧ s.bufOk (bufAt (msgPl m) 0) = false) →
      Told (.cfgLoad c img) s (c) (m) (0x8003) (0) (0) ([])) ∧
  (∀ (c : Fin 96) (m : List Byte) (s : State),
      (s.asks c m 0x0201 0 false = true ∧ c.val ≤ 3) →
      Told (.fwList c) s (c) (m) (0) (0) (0) ([b8 (min 23 s.sys.imgs.length), 0] ++ (s.sys.imgs.take 23).flatMap (fun e => leBytes 2 e.1))) ∧
  (∀ (c : Fin 96) (m b : List Byte) (s : State),
      (s.asks c m 0x0202 8 true = true ∧ c.val ≤ 3 ∧ s.mode ∈ [4, 7] ∧ s.bufOk (bufAt (msgPl m) 0) = true ∧ b = s.getBlock (bufAt (msgPl m) 0).1 (bufAt (msgPl m) 0).2) →
      (engImgOk b = true ∧ plN b 24 4 = (crc32 (b.drop 32)).toNat) →
      Answers (.fwLoad c true) s (c) (m) (0) (0) (0) (leBytes 2 (plN b 4 2)) (fun u => (plN b 4 2, some b) ∈ u.sys.imgs ∧ (∀ e ∈ s.sys.imgs, e.1 ≠ plN b 4 2 → e ∈ u.sys.imgs) ∧ u.mem = s.mem ∧ u.raises = s.raises)) ∧
  (∀ (c : Fin 96) (m b : List Byte) (s : State),
      (s.asks c m 0x0202 8 true = true ∧ c.val ≤ 3 ∧ s.mode ∈ [4, 7] ∧ s.bufOk (bufAt (msgPl m) 0) = true ∧ b = s.getBlock (bufAt (msgPl m) 0).1 (bufAt (msgPl m) 0).2) →
      (engImgOk b = true ∧ plN b 24 4 = (crc32 (b.drop 32)).toNat) →
      Told (.fwLoad c false) s (c) (m) (0x8042) (0) (0) ([])) ∧
  (∀ (c : Fin 96) (room : Bool) (m b : List Byte) (s : State),
      (s.asks c m 0x0202 8 true = true ∧ c.val ≤ 3 ∧ s.mode ∈ [4, 7] ∧ s.bufOk (bufAt (msgPl m) 0) = true ∧ b = s.getBlock (bufAt (msgPl m) 0).1 (bufAt (msgPl m) 0).2) →
      ((engImgOk b = false ∨ plN b 24 4 ≠ (crc32 (b.drop 32)).toNat)) →
      Told (.fwLoad c room) s (c) (m) (if engImgOk b then 0x8041 else 0x8040) (0) (0) ([])) ∧
  (∀ (c : Fin 96) (m : List Byte) (id : Nat) (s : State),
      (s.asks c m 0x0203 2 true = true ∧ c.val ≤ 3 ∧ s.mode ∈ [4, 7] ∧ plN (msgPl m) 0 2 = id) →
      (s.insts = [] ∧ s.sys.imgs.any (fun e => e.1 == id) = true) →
      Answers (.fwDelete c) s (c) (m) (0) (0) (0) ([]) (fun u => u.sys = { s.sys with imgs := s.sys.imgs.filter (fun e => e.1 != id) } ∧ u.raises = s.raises)) ∧
  (∀ (c : Fin 96) (m : List Byte) (id i : Nat) (x : InstSt) (s : State),
      (s.asks c m 0x0203 2 true = true ∧ c.val ≤ 3 ∧ s.mode ∈ [4, 7] ∧ plN (msgPl m) 0 2 = id) →
      (s.insts = [(i, x)] ∧ x.cfg.image = id ∧ i < 4) →
      Told (.fwDelete c) s (c) (m) (0x8009) (i) (0) ([])) ∧
  (∀ (c : Fin 96) (m b : List Byte) (s : State),
      (s.asks c m 0x0204 8 true = true ∧ c.val ≤ 3 ∧ s.mode ∈ [4, 7] ∧ s.bufOk (bufAt (msgPl m) 0) = true ∧ b = s.getBlock (bufAt (msgPl m) 0).1 (bufAt (msgPl m) 0).2) →
      fwImgBad b = 0 →
      Answers (.fwUpdate c true) s (c) (m) (0) (0) (0) ([]) (fun u => u.sys = { s.sys with newFw := true, fwImg := some b } ∧ u.raises = s.raises)) ∧
  (∀ (c : Fin 96) (room : Bool) (m b : List Byte) (s : State),
      (s.asks c m 0x0204 8 true = true ∧ c.val ≤ 3 ∧ s.mode ∈ [4, 7] ∧ s.bufOk (bufAt (msgPl m) 0) = true ∧ b = s.getBlock (bufAt (msgPl m) 0).1 (bufAt (msgPl m) 0).2) →
      (fwImgBad b ≠ 0) →
      Told (.fwUpdate c room) s (c) (m) (fwImgBad b) (0) (0) ([])) ∧
  (∀ (c : Fin 96) (r : BootRes) (s : State),
      ((s.fw.running = false ∧ (3 < c.val ∨ s.mode ≠ modeBOOT ∨ s.trans.isSome = true ∨ s.chan c = []))) →
      Yields (.fwBoot c r) s (s)) ∧
  (∀ (c : Fin 4) (r : BootRes) (m : List Byte) (n : Nat) (s : State),
      (s.fw.running = false ∧ s.mode = modeBOOT ∧ s.trans = none ∧ s.chan c = [m] ∧ plN m 4 2 = 0x0205 ∧ plN m 6 2 = 4 ∧ s.chanFull (4 + c) = false ∧ s.pwr.vote = none) →
      (n = plN (msgPl m) 0 4 ∧ n ≤ 262144 * 256 ∧ fwImgBad (s.getBlock 0x80000000 n) ≠ 0) →
      Answers (.fwBoot ⟨c.val, by omega⟩ r) s (c) (m) (fwImgBad (s.getBlock 0x80000000 n)) (0) (0) ([]) (fun u => u.mode = modeBOOT ∧ u.fw.running = false ∧ u.mem = s.mem ∧ u.raises = s.raises)) ∧
  (∀ (c : Fin 4) (r : BootRes) (m : List Byte) (n : Nat) (s : State),
      (s.fw.running = false ∧ s.mode = modeBOOT ∧ s.trans = none ∧ s.chan c = [m] ∧ plN m 4 2 = 0x0205 ∧ plN m 6 2 = 4 ∧ s.chanFull (4 + c) = false) →
      (n = plN (msgPl m) 0 4 ∧ n ≤ 262144 * 256 ∧ fwImgBad (s.getBlock 0x80000000 n) = 0) →
      Yields (.fwBoot ⟨c.val, by omega⟩ r) s (((({ s with sys := { s.sys with fwImg := some (s.getBlock 0x80000000 n) } }.mramStored 0x30000000 0x30180000).chanPop c).fwReply c m 0 0 0 []).startFrom r)) ∧
  (∀ (c : Fin 96) (s : State), Yields (.info c) s (s.fwServe c 0x0101 true false anyMode (fixLen 0) State.cmdInfo)) ∧
  (∀ (c : Fin 96) (s : State), Yields (.sysMode c) s (s.fwServe c 0x0102 false true modesPSOD (fixLen 1) State.cmdMode)) ∧
  (∀ (c : Fin 96) (s : State), Yields (.reset c) s (s.fwServe c 0x0103 false true anyMode (fixLen 4) State.cmdReset)) ∧
  (∀ (c : Fin 96) (s : State), Yields (.env c) s (s.fwServe c 0x0104 true false anyMode (fixLen 0) State.cmdEnv)) ∧
  (∀ (c : Fin 96) (s : State), Yields (.cfgSave c) s (s.fwServe c 0x0105 false true modesPX (fixLen 0) State.cmdCfgSave)) ∧
  (∀ (c : Fin 96) (img : CfgImg) (s : State), Yields (.cfgLoad c img) s (s.fwServe c 0x0106 false true modesPX (fixLen 8) (State.cmdCfgLoad img))) ∧
  (∀ (c : Fin 96) (s : State), Yields (.fwList c) s (s.fwServe c 0x0201 false false anyMode (fixLen 0) State.cmdFwList)) ∧
  (∀ (c : Fin 96) (room : Bool) (s : State), Yields (.fwLoad c room) s (s.fwServe c 0x0202 false true modesPX (fixLen 8) (State.cmdFwLoad room))) ∧
  (∀ (c : Fin 96) (s : State), Yields (.fwDelete c) s (s.fwServe c 0x0203 false true modesPX (fixLen 2) State.cmdFwDelete)) ∧
  (∀ (c : Fin 96) (room : Bool) (s : State), Yields (.fwUpdate c room) s (s.fwServe c 0x0204 false true modesPX (fixLen 8) (State.cmdFwUpdate room))) ∧
  (∀ (c : Fin 96) (r : BootRes) (s : State), Yields (.fwBoot c r) s (State.cmdFwBoot r s c))

/-- OPEN opens a transaction of the sender's channel and answers its handle, or 0x8011; COMMIT with the right handle sets the apply point, leaves its answer owed and starts the check, with a wrong one answers 0x8010, with a bad KIND or INDEX 0x8005; ROLLBACK discards the log and answers; STATUS answers the channel's registers; WRITE logs its pairs in the transaction its handle names, or, with handle 0, in one of the serving core's own whose check it starts; a pair that names no RWT register refuses the command. What is answered when the log is full or another set is open, and that a refusal has no payload are deduced (logs 49 and 56). Every command named here completes, from every state and with all operands: the last clauses give the operation that is its own effect. -/
def Obligations.TransactionMessages : Prop :=
  (∀ (c : Fin 96) (m : List Byte) (k : Nat) (s : State),
      (s.asks c m 0x0301 0 true = true ∧ k = sentTxn c ∧ s.flag (TXN_CH_STAT_OPEN k) = false ∧ (s.txnCh k).armed = none ∧ (s.txnCh k).serial + 1 < 2 ^ 24) →
      Answers (.openC c) s (c) (m) (0) (0) (0) (leBytes 4 (k * 2 ^ 24 + (s.txnCh k).serial + 1)) (fun u => u.flag (TXN_CH_STAT_OPEN k) = true ∧ u.regN (TXN_CH_HANDLE k) = k * 2 ^ 24 + (s.txnCh k).serial + 1 ∧ (u.txnCh k).log = [] ∧ (u.txnCh k).byCmd = true)) ∧
  (∀ (c : Fin 96) (m : List Byte) (k : Nat) (s : State),
      (s.asks c m 0x0301 0 true = true ∧ k = sentTxn c ∧ s.flag (TXN_CH_STAT_OPEN k) = true) →
      Answers (.openC c) s (c) (m) (0x8011) (0) (0) ([]) (fun u => u.flag (TXN_CH_STAT_OPEN k) = true ∧ u.txn = s.txn)) ∧
  (∀ (c : Fin 96) (m : List Byte) (k : Nat) (s : State),
      (s.asks c m 0x0302 12 true = true ∧ k = sentTxn c ∧ s.handleOk c m = true ∧ plN (msgPl m) 0 1 ≤ 3 ∧ plN (msgPl m) 1 1 ≤ 3) →
      (s.flag (TXN_CH_STAT_CHECKING k) = false ∧ (s.txnCh k).armed = none ∧ s.flag (TXN_CH_STAT_LOGFULL k) = false) →
      Leaves (.commit c) s (fun u => u.chan c = (s.chan c).drop 1 ∧ u.chan (retChan c) = s.chan (retChan c) ∧ u.flag (TXN_CH_STAT_CHECKING k) = true ∧ (u.txnCh k).owed = some ⟨c, m⟩ ∧ (u.txnCh k).log = (s.txnCh k).log ∧
  u.fld (TXN_CH_APPLY_KIND k) = plN (msgPl m) 0 1 ∧ u.fld (TXN_CH_APPLY_INDEX k) = plN (msgPl m) 1 1 ∧ u.regN (TXN_CH_APPLY_LO k) = plN (msgPl m) 4 4 ∧ u.regN (TXN_CH_APPLY_HI k) = plN (msgPl m) 8 4 ∧ u.raises = s.raises ∧ u.pending = s.pending)) ∧
  (∀ (c : Fin 96) (m : List Byte) (s : State),
      (s.asks c m 0x0302 12 true = true ∧ s.handleOk c m = false) →
      Told (.commit c) s (c) (m) (0x8010) (0) (0) ([])) ∧
  (∀ (c : Fin 96) (m : List Byte) (s : State),
      ((s.asks c m 0x0302 12 true = true ∧ s.handleOk c m = true ∧ (3 < plN (msgPl m) 0 1 ∨ 3 < plN (msgPl m) 1 1))) →
      Told (.commit c) s (c) (m) (0x8005) (if 3 < plN (msgPl m) 0 1 then 0 else 1) (0) ([])) ∧
  (∀ (c : Fin 96) (m : List Byte) (k : Nat) (s : State),
      (s.asks c m 0x0303 0 true = true ∧ k = sentTxn c ∧ s.handleOk c m = true ∧ (s.txnCh k).owed = none) →
      Answers (.rollback c) s (c) (m) (0) (0) (0) ([]) (fun u => u.flag (TXN_CH_STAT_OPEN k) = false ∧ (u.txnCh k).log = [] ∧ u.shadow = s.shadow ∧ u.fld (TXN_CH_STAT_RESULT k) = 0)) ∧
  (∀ (c : Fin 96) (m : List Byte) (s : State),
      (s.asks c m 0x0303 0 true = true ∧ s.handleOk c m = false) →
      Told (.rollback c) s (c) (m) (0x8010) (0) (0) ([])) ∧
  (∀ (c : Fin 96) (m : List Byte) (k : Nat) (s : State),
      (s.asks c m 0x0304 0 false = true ∧ k = sentTxn c) →
      Told (.txnStatus c) s (c) (m) (0) (0) (0) (leBytes 4 (s.regN (TXN_CH_STAT k)) ++ leBytes 4 (s.regN (TXN_CH_HANDLE k)) ++ leBytes 4 (s.regN (TXN_CH_DETAIL k)))) ∧
  (∀ (c : Fin 96) (m : List Byte) (k a : Nat) (v : Word) (s : State),
      (s.asks c m 0x0305 8 true = true ∧ k = sentTxn c ∧ s.handleOk c m = true ∧ plN m 8 4 ≠ 0 ∧ plN (msgPl m) 0 4 = a ∧ w32 (plN (msgPl m) 4 4) = v) →
      (lauRwt a = true ∧ (s.txnCh k).log = [] ∧ ((List.range 21).map (fun j => (s.txnCh j).log.length)).sum < 4096 ∧ s.flag (TXN_CH_STAT_LOGFULL k) = false) →
      Answers (.write c) s (c) (m) (0) (0) (0) ([]) (fun u => (u.txnCh k).log = [(a, v &&& rwtMask a)] ∧ u.reg a = s.reg a ∧ u.shadow = s.shadow)) ∧
  (∀ (c : Fin 96) (m : List Byte) (k a : Nat) (v : Word) (s : State),
      (s.asks c m 0x0305 8 true = true ∧ k = 1 + (servCore c).val ∧ plN m 8 4 = 0 ∧ plN (msgPl m) 0 4 = a ∧ w32 (plN (msgPl m) 4 4) = v) →
      (lauRwt a = true ∧ s.noTxn = true ∧ ∀ j : Fin 21, (s.txnCh j).log = []) →
      Leaves (.write c) s (fun u => u.chan c = (s.chan c).drop 1 ∧ u.chan (retChan c) = s.chan (retChan c) ∧ (u.txnCh k).log = [(a, v &&& rwtMask a)] ∧ (u.txnCh k).owed = some ⟨c, m⟩ ∧ u.flag (TXN_CH_STAT_OPEN k) = true ∧
  u.flag (TXN_CH_STAT_CHECKING k) = true ∧ u.fld (TXN_CH_APPLY_KIND k) = 0 ∧ u.reg a = s.reg a ∧ u.shadow = s.shadow ∧ u.raises = s.raises ∧ u.pending = s.pending)) ∧
  (∀ (c : Fin 96) (m : List Byte) (s : State),
      (s.asks c m 0x0305 8 true = true ∧ rwtMask (plN (msgPl m) 0 4) = 0) →
      Told (.write c) s (c) (m) (0x8005) (0) (0) ([])) ∧
  (∀ (c : Fin 96) (s : State), Yields (.openC c) s (s.fwServe c 0x0301 true true anyMode (fixLen 0) State.cmdOpen)) ∧
  (∀ (c : Fin 96) (s : State), Yields (.commit c) s (s.fwServe c 0x0302 true true anyMode (fixLen 12) State.cmdCommit)) ∧
  (∀ (c : Fin 96) (s : State), Yields (.rollback c) s (s.fwServe c 0x0303 true true anyMode (fixLen 0) State.cmdRollback)) ∧
  (∀ (c : Fin 96) (s : State), Yields (.txnStatus c) s (s.fwServe c 0x0304 true false anyMode (fixLen 0) State.cmdTxnStatus)) ∧
  (∀ (c : Fin 96) (s : State), Yields (.write c) s (s.fwServe c 0x0305 true true anyMode writeLen State.cmdWrite))

/-- INST_START places and starts the configuration in the buffer or refuses it with the cause of the placement: an EtherCAT slave started while no instance runs takes instance 0, engine 0, contexts 255 and 254 and one software unit and runs; with a fifth instance, a cycle below 12.5 µs, a second master, or a domain that another such slave follows it is refused with 0x8030, 0x8036, 0x8037 or 0x8034; INST_STOP removes the instance; INST_STATUS answers its state and counts and changes nothing; FDB_SET replaces an entry of the same VID and address, or adds one to a set with room; FDB_DEL and FDB_FLUSH remove; FDB_GET and VLAN_GET answer; VLAN_SET writes members and untagged ports; a VID of 0 or 4095, or a port above 31, is refused with 0x8005 and the field's offset. That the domain may be off, the details of the refusals, and which refusal goes before another are deduced (logs 40, 50 and 62). Every command named here completes, from every state and with all operands: the last clauses give the operation that is its own effect. -/
def Obligations.NetworkMessages : Prop :=
  (∀ (c : Fin 96) (cfg : InstCfg) (m : List Byte) (s t : State) (i : Nat) (y : InstSt),
      (s.asks c m 0x0401 12 true = true ∧ c.val ≤ 3 ∧ s.mode = 4 ∧ plN (msgPl m) 0 1 = 0xFF ∧ plN (msgPl m) 1 1 ≤ 3 ∧ s.bufOk (bufAt (msgPl m) 4) = true) →
      (s.instStart cfg (plN (msgPl m) 1 1) = (t, .inl i) ∧ t.inst i = some y ∧ t.chan c = s.chan c ∧ t.asleep = false ∧ t.pwr.vote = none ∧ t.chanFull (retChan c) = false) →
      Leaves (.instStart c cfg) s (fun u => u.chan c = (s.chan c).drop 1 ∧ u.chan (retChan c) = t.chan (retChan c) ++ [stampMsg (retChan c) (respMsg m 0 0 0 [b8 i, b8 y.eng, b8 y.engs, b8 (y.fcs.foldl (fun a b => min a b) 255), b8 y.fcs.length, b8 y.units])] ∧ u.inst i = some y ∧ u.eng = t.eng ∧ u.raises = t.raises ∧ u.fw.cfg = t.fw.cfg ∧ u.pending = s.pending)) ∧
  (∀ (c : Fin 96) (cfg : InstCfg) (m : List Byte) (e : Nat × Nat × Nat) (s : State),
      (s.asks c m 0x0401 12 true = true ∧ c.val ≤ 3 ∧ s.mode = 4 ∧ plN (msgPl m) 0 1 = 0xFF ∧ plN (msgPl m) 1 1 ≤ 3 ∧ s.bufOk (bufAt (msgPl m) 4) = true) →
      s.instStart cfg (plN (msgPl m) 1 1) = (s, .inr e) →
      Told (.instStart c cfg) s (c) (m) (e.1) (e.2.1) (e.2.2) ([])) ∧
  (∀ (c : Fin 96) (cfg : InstCfg) (m : List Byte) (d : Nat) (s : State),
      (s.asks c m 0x0401 12 true = true ∧ 1 ≤ c.val ∧ c.val ≤ 3 ∧ s.mode = 4 ∧ plN (msgPl m) 0 1 = 0xFF ∧ plN (msgPl m) 1 1 = d ∧ d ≤ 3 ∧ s.bufOk (bufAt (msgPl m) 4) = true) →
      (cfg.image = 0x0201 ∧ 12500 ≤ cfg.cycle ∧ cfg.peers ≤ 1 ∧ popc (cfg.ports % 4096) = 2 ∧ cfg.can = none ∧ cfg.cells = 0 ∧ cfg.upper = 0 ∧ cfg.fcs = [] ∧ cfg.etypes = [] ∧ cfg.entries = []) →
      (s.insts = [] ∧ s.sys.imgs.any (fun e => e.1 == 0x0201) = true ∧ s.flag (SWX_FC_CFG_VALID 255) = false ∧ s.flag (SWX_FC_CFG_VALID 254) = false ∧ s.sys.kept + 1 ≤ s.fld BUF_SWCELLS_UNITS) →
      Answers (.instStart c cfg) s (c) (m) (0) (0) (0) ([0, 0, 1, 254, 2, 1]) (fun u => u.inst 0 = some ⟨cfg, d, 0, 1, [255, 254], 1, 2, 0, 0, 0⟩ ∧ (∀ k : Fin 4, k.val ≠ 0 → u.inst k = none) ∧ u.flag (ENG_CTRL_RUN 0) = true ∧ u.mode = s.mode)) ∧
  (∀ (c : Fin 96) (cfg : InstCfg) (m : List Byte) (d : Nat) (s : State),
      (s.asks c m 0x0401 12 true = true ∧ c.val ≤ 3 ∧ s.mode = 4 ∧ plN (msgPl m) 0 1 = 0xFF ∧ plN (msgPl m) 1 1 = d ∧ d ≤ 3 ∧ s.bufOk (bufAt (msgPl m) 4) = true) →
      (∀ k : Fin 4, (s.inst k).isSome = true) →
      Told (.instStart c cfg) s (c) (m) (0x8030) (0) (0) ([])) ∧
  (∀ (c : Fin 96) (cfg : InstCfg) (m : List Byte) (d : Nat) (s : State),
      (s.asks c m 0x0401 12 true = true ∧ c.val ≤ 3 ∧ s.mode = 4 ∧ plN (msgPl m) 0 1 = 0xFF ∧ plN (msgPl m) 1 1 = d ∧ d ≤ 3 ∧ s.bufOk (bufAt (msgPl m) 4) = true) →
      (cfg.image = 0x0201 ∧ cfg.cycle < 12500 ∧ cfg.peers ≤ 1 ∧ s.sys.imgs.any (fun e => e.1 == 0x0201) = true ∧ (s.inst 0).isNone = true) →
      Told (.instStart c cfg) s (c) (m) (0x8036) (0) (0) ([])) ∧
  (∀ (c : Fin 96) (cfg : InstCfg) (m : List Byte) (d : Nat) (s : State),
      (s.asks c m 0x0401 12 true = true ∧ c.val ≤ 3 ∧ s.mode = 4 ∧ plN (msgPl m) 0 1 = 0xFF ∧ plN (msgPl m) 1 1 = d ∧ d ≤ 3 ∧ s.bufOk (bufAt (msgPl m) 4) = true) →
      (cfg.image = 0x0201 ∧ 12500 ≤ cfg.cycle ∧ 1 < cfg.peers ∧ s.sys.imgs.any (fun e => e.1 == 0x0201) = true ∧ (s.inst 0).isNone = true) →
      Told (.instStart c cfg) s (c) (m) (0x8037) (0) (0) ([])) ∧
  (∀ (c : Fin 96) (cfg : InstCfg) (m : List Byte) (d : Nat) (s : State),
      (s.asks c m 0x0401 12 true = true ∧ c.val ≤ 3 ∧ s.mode = 4 ∧ plN (msgPl m) 0 1 = 0xFF ∧ plN (msgPl m) 1 1 = d ∧ d ≤ 3 ∧ s.bufOk (bufAt (msgPl m) 4) = true) →
      (cfg.image = 0x0201 ∧ 12500 ≤ cfg.cycle ∧ cfg.peers ≤ 1 ∧ s.sys.imgs.any (fun e => e.1 == 0x0201) = true ∧ (s.inst 0).isNone = true ∧ s.insts.any (fun e => e.2.cfg.image == 0x0201 && e.2.dom == d) = true) →
      Told (.instStart c cfg) s (c) (m) (0x8034) (d) (0) ([])) ∧
  (∀ (c : Fin 96) (cfg : InstCfg) (m : List Byte) (n d : Nat) (s : State),
      (s.asks c m 0x0401 12 true = true ∧ c.val ≤ 3 ∧ s.mode = 4 ∧ plN (msgPl m) 0 1 = n ∧ plN (msgPl m) 1 1 = d) →
      (((15 < n ∧ n ≠ 0xFF) ∨ (3 < d ∧ d ≠ 0xFF))) →
      Told (.instStart c cfg) s (c) (m) (0x8005) (if 15 < n ∧ n ≠ 0xFF then 0 else 1) (0) ([])) ∧
  (∀ (c : Fin 96) (m : List Byte) (i : Nat) (s : State),
      (s.asks c m 0x0402 1 true = true ∧ c.val ≤ 3 ∧ s.mode = 4 ∧ plN (msgPl m) 0 1 = i ∧ i ≤ 3 ∧ (s.inst i).isSome = true) →
      ((s.instStop i).chan c = s.chan c ∧ (s.instStop i).asleep = false ∧ (s.instStop i).pwr.vote = none ∧ (s.instStop i).chanFull (retChan c) = false) →
      Leaves (.instStop c) s (fun u => u.chan c = (s.chan c).drop 1 ∧ u.chan (retChan c) = (s.instStop i).chan (retChan c) ++ [stampMsg (retChan c) (respMsg m 0 0 0 [])] ∧ u.pending = s.pending ∧ u.inst i = none ∧ (∀ k : Fin 4, k.val ≠ i → u.inst k = (s.instStop i).inst k) ∧ u.mode = (s.instStop i).mode)) ∧
  (∀ (c : Fin 96) (m : List Byte) (i : Nat) (s : State),
      ((s.asks c m 0x0402 1 true = true ∧ c.val ≤ 3 ∧ s.mode = 4 ∧ plN (msgPl m) 0 1 = i ∧ (3 < i ∨ (s.inst i).isNone = true))) →
      Told (.instStop c) s (c) (m) (0x8005) (0) (0) ([])) ∧
  (∀ (c : Fin 96) (m : List Byte) (i : Nat) (x : InstSt) (s : State),
      (s.asks c m 0x0403 1 false = true ∧ plN (msgPl m) 0 1 = i ∧ i ≤ 3 ∧ s.inst i = some x) →
      Told (.instStatus c) s (c) (m) (0) (0) (0) (leBytes 2 x.cfg.image ++ [b8 x.st, b8 x.dom] ++ leBytes 4 x.cfg.cycle ++ leBytes 2 (x.cfg.ports % 4096) ++
  [b8 (x.cfg.can.getD 0xFF), b8 (if x.cfg.cells = 0 then 0xFF else x.cfg.cell)] ++ leBytes 4 x.lost ++ leBytes 4 x.tries ++ leBytes 4 x.late)) ∧
  (∀ (c : Fin 96) (m : List Byte) (i : Nat) (s : State),
      (s.asks c m 0x0403 1 false = true ∧ plN (msgPl m) 0 1 = i ∧ 3 < i) →
      Told (.instStatus c) s (c) (m) (0x8005) (0) (0) ([])) ∧
  (∀ (c : Fin 96) (m a : List Byte) (v q f : Nat) (s : State),
      (s.asks c m 0x0404 10 true = true ∧ c.val ≤ 3 ∧ s.mode ∈ [4, 5, 6, 7, 8] ∧ slice (msgPl m) 0 6 = a ∧ plN (msgPl m) 6 2 = v ∧ plN (msgPl m) 8 1 = q ∧ plN (msgPl m) 9 1 = f) →
      ((0 < v ∧ v < 4095 ∧ q ≤ 31 ∧ ((s.fdbFind v a).isSome = true ∨ s.swx.fdb.length < 4))) →
      Answers (.fdbSet c) s (c) (m) (0) (0) (0) ([]) (fun u => u.fdbFind v a = some ⟨v, a, q, f.testBit 0, s.regN (TIME_DOM_SEC_LO 0)⟩ ∧ (∀ e ∈ s.swx.fdb, (e.vid ≠ v ∨ e.addr ≠ a) → e ∈ u.swx.fdb) ∧ u.free = s.free ∧ u.raises = s.raises)) ∧
  (∀ (c : Fin 96) (m : List Byte) (v q : Nat) (s : State),
      (s.asks c m 0x0404 10 true = true ∧ c.val ≤ 3 ∧ s.mode ∈ [4, 5, 6, 7, 8] ∧ plN (msgPl m) 6 2 = v ∧ plN (msgPl m) 8 1 = q) →
      ((v = 0 ∨ 4095 ≤ v ∨ 31 < q)) →
      Told (.fdbSet c) s (c) (m) (0x8005) (if v = 0 ∨ 4095 ≤ v then 6 else 8) (0) ([])) ∧
  (∀ (c : Fin 96) (m a : List Byte) (v : Nat) (s : State),
      (s.asks c m 0x0405 8 true = true ∧ c.val ≤ 3 ∧ s.mode ∈ [4, 5, 6, 7, 8] ∧ slice (msgPl m) 0 6 = a ∧ plN (msgPl m) 6 2 = v ∧ 0 < v ∧ v < 4095) →
      Answers (.fdbDel c) s (c) (m) (0) (0) (0) ([]) (fun u => u.swx = { s.swx with fdb := s.swx.fdb.filter (fun e => !(e.vid == v && e.addr == a)) } ∧ u.raises = s.raises)) ∧
  (∀ (c : Fin 96) (m a : List Byte) (v : Nat) (s : State),
      (s.asks c m 0x0406 8 false = true ∧ c.val ≤ 3 ∧ slice (msgPl m) 0 6 = a ∧ plN (msgPl m) 6 2 = v ∧ 0 < v ∧ v < 4095) →
      Told (.fdbGet c) s (c) (m) (0) (0) (0) (((s.fdbFind v a).map (fun e => [b8 e.port, if e.isStatic then 3 else 1])).getD [0, 0])) ∧
  (∀ (c : Fin 96) (m : List Byte) (mask k : Nat) (s : State),
      (s.asks c m 0x0407 5 true = true ∧ c.val ≤ 3 ∧ s.mode ∈ [4, 5, 6, 7, 8] ∧ plN (msgPl m) 0 4 = mask ∧ plN (msgPl m) 4 1 = k) →
      Answers (.fdbFlush c) s (c) (m) (0) (0) (0) ([]) (fun u => u.swx = { s.swx with fdb := s.swx.fdb.filter (fun e => !(mask.testBit e.port && (k.testBit 0 || !e.isStatic))) } ∧ u.raises = s.raises)) ∧
  (∀ (c : Fin 96) (m : List Byte) (v : Nat) (s : State),
      (s.asks c m 0x0408 10 true = true ∧ c.val ≤ 3 ∧ s.mode ∈ [4, 5, 6, 7, 8] ∧ plN (msgPl m) 0 2 = v ∧ 0 < v ∧ v < 4095) →
      Answers (.vlanSet c) s (c) (m) (0) (0) (0) ([]) (fun u => u.vlanOf v = (plN (msgPl m) 4 4, plN (msgPl m) 8 2 % 4096) ∧ { u.swx with vlan := [] } = { s.swx with vlan := [] } ∧ u.raises = s.raises)) ∧
  (∀ (c : Fin 96) (m : List Byte) (v : Nat) (s : State),
      (s.asks c m 0x0409 2 false = true ∧ c.val ≤ 3 ∧ plN (msgPl m) 0 2 = v) →
      Told (.vlanGet c) s (c) (m) (if v = 0 ∨ 4095 ≤ v then 0x8005 else 0) (0) (0) (if v = 0 ∨ 4095 ≤ v then [] else leBytes 4 (s.vlanOf v).1 ++ leBytes 2 (s.vlanOf v).2)) ∧
  (∀ (c : Fin 96) (cfg : InstCfg) (s : State), Yields (.instStart c cfg) s (s.fwServe c 0x0401 false true [modePREOP] (fixLen 12) (State.cmdInstStart cfg))) ∧
  (∀ (c : Fin 96) (s : State), Yields (.instStop c) s (s.fwServe c 0x0402 false true [modePREOP] (fixLen 1) State.cmdInstStop)) ∧
  (∀ (c : Fin 96) (s : State), Yields (.instStatus c) s (s.fwServe c 0x0403 true false anyMode (fixLen 1) State.cmdInstStatus)) ∧
  (∀ (c : Fin 96) (s : State), Yields (.fdbSet c) s (s.fwServe c 0x0404 false true modesPSOXD (fixLen 10) State.cmdFdbSet)) ∧
  (∀ (c : Fin 96) (s : State), Yields (.fdbDel c) s (s.fwServe c 0x0405 false true modesPSOXD (fixLen 8) State.cmdFdbDel)) ∧
  (∀ (c : Fin 96) (s : State), Yields (.fdbGet c) s (s.fwServe c 0x0406 false false anyMode (fixLen 8) State.cmdFdbGet)) ∧
  (∀ (c : Fin 96) (s : State), Yields (.fdbFlush c) s (s.fwServe c 0x0407 false true modesPSOXD (fixLen 5) State.cmdFdbFlush)) ∧
  (∀ (c : Fin 96) (s : State), Yields (.vlanSet c) s (s.fwServe c 0x0408 false true modesPSOXD (fixLen 10) State.cmdVlanSet)) ∧
  (∀ (c : Fin 96) (s : State), Yields (.vlanGet c) s (s.fwServe c 0x0409 false false anyMode (fixLen 2) State.cmdVlanGet))

/-- TIME_GET, ANGLE_GET, CTX_READ and CTX_STATUS answer the words their rows list; ACQUIRE puts the domain in ACQ and, for source 0, steps it, REARM frees it, both refused for a domain that an instance follows; PPS writes its registers and keeps them as settings; ANGLE_SET sets the angle, VM_SPEED the target; CTX_WRITE and CTX_CFG log coefficients and settings of a context in the transaction their handle names; CTX_CTRL writes EN, AUTO, STCLR and MANOUT; TABLE copies a buffer into a table not in use; CAPTURE and TESTSIG write their registers. REARM as CTRL.FREE and status reads as reads on the bus are deduced (logs 61 and 63). Every command named here completes, from every state and with all operands: the last clauses give the operation that is its own effect. -/
def Obligations.TimeAndLoopMessages : Prop :=
  (∀ (c : Fin 96) (m : List Byte) (d : Nat) (s : State),
      (s.asks c m 0x0503 1 false = true ∧ plN (msgPl m) 0 1 = d ∧ d ≤ 3) →
      (∀ a ∈ [TIME_DOM_NS d, TIME_DOM_SEC_LO d, TIME_DOM_SEC_HI d, TIME_DOM_FRAC d, TIME_DOM_ADJ d], s.reads (servMaster c) a = true) →
      Answers (.timeGet c) s (c) (m) (0) (0) (0) (leBytes 4 (s.regN (TIME_DOM_SEC_LO d)) ++ leBytes 4 (s.regN (TIME_DOM_SEC_HI d)) ++ leBytes 4 (s.fld (TIME_DOM_NS_NS d)) ++ leBytes 2 (s.fld (TIME_DOM_FRAC_FRAC d)) ++
  [b8 (s.fld (TIME_DOM_STAT_STATE d)), 0] ++ leBytes 4 (s.regN (TIME_DOM_ADJ d))) (fun u => u.rdata = s.rdata ∧ u.raises = s.raises ∧ u.reg (TIME_DOM_NS d) = s.reg (TIME_DOM_NS d) ∧ u.mem = s.mem)) ∧
  (∀ (c : Fin 96) (m : List Byte) (d : Nat) (s : State),
      (s.asks c m 0x0502 1 true = true ∧ c.val ≤ 3 ∧ s.mode ∈ [4, 7, 8] ∧ plN (msgPl m) 0 1 = d ∧ d ≤ 3 ∧ s.followed d = false ∧ s.grants (servMaster c) (TIME_DOM_CTRL d) 4#32 = true) →
      Answers (.rearm c) s (c) (m) (0) (0) (0) ([]) (fun u => u.fld (TIME_DOM_STAT_STATE d) = 0 ∧ u.flag (TIME_DOM_CTRL_STEPSRC d) = s.flag (TIME_DOM_CTRL_STEPSRC d) ∧ u.mem = s.mem ∧ u.raises = (if s.fld (TIME_DOM_STAT_STATE d) = 2 then (s.raise (17 + d)).raises else s.raises))) ∧
  (∀ (c : Fin 96) (m : List Byte) (d : Nat) (s : State),
      ((s.asks c m 0x0502 1 true = true ∧ c.val ≤ 3 ∧ s.mode ∈ [4, 7, 8] ∧ plN (msgPl m) 0 1 = d ∧ (3 < d ∨ s.followed d = true))) →
      Told (.rearm c) s (c) (m) (if 3 < d then 0x8005 else 0x8004) (if 3 < d then 0 else d) (0) ([])) ∧
  (∀ (c : Fin 96) (m : List Byte) (d : Nat) (s : State),
      (s.asks c m 0x0501 16 true = true ∧ s.mode ∈ [4, 5, 6, 7, 8] ∧ plN (msgPl m) 0 1 = d ∧ d ≤ 3 ∧ plN (msgPl m) 1 1 = 1 ∧ s.followed d = false ∧ s.grants (servMaster c) (TIME_DOM_CTRL d) 3#32 = true) →
      Answers (.acquire c) s (c) (m) (0) (0) (0) ([b8 (if s.fld (TIME_DOM_STAT_STATE d) = 0 then 0 else s.fld (TIME_DOM_STAT_STEPST d))]) (fun u => u.fld (TIME_DOM_STAT_STATE d) = (if s.fld (TIME_DOM_STAT_STATE d) = 0 then 1 else s.fld (TIME_DOM_STAT_STATE d)) ∧ u.flag (TIME_DOM_CTRL_STEPSRC d) = true ∧ u.mem = s.mem)) ∧
  (∀ (c : Fin 96) (m : List Byte) (d : Nat) (s : State),
      ((s.asks c m 0x0501 16 true = true ∧ s.mode ∈ [4, 5, 6, 7, 8] ∧ plN (msgPl m) 0 1 = d ∧ (3 < d ∨ 1 < plN (msgPl m) 1 1))) →
      Told (.acquire c) s (c) (m) (0x8005) (if 3 < d then 0 else 1) (0) ([])) ∧
  (∀ (c : Fin 96) (m : List Byte) (s : State),
      (s.asks c m 0x0504 12 true = true ∧ c.val ≤ 3 ∧ s.mode ∈ [4, 5, 6, 7, 8]) →
      (∀ a ∈ [TIME_PPS_SEC_LO, TIME_PPS_SEC_HI, TIME_PPS_CTRL], s.arrives (servMaster c) a true = true) →
      Answers (.pps c) s (c) (m) (0) (0) (0) ([]) (fun u => u.pair TIME_PPS_SEC_LO = plN (msgPl m) 4 8 ∧ storeGet (fun _ => none) u.fw.cfg TIME_PPS_SEC_LO = some (w32 (plN (msgPl m) 4 4)) ∧ storeGet (fun _ => none) u.fw.cfg TIME_PPS_CTRL = some (w32 (plN (msgPl m) 0 4)))) ∧
  (∀ (c : Fin 96) (m : List Byte) (k : Nat) (s : State),
      (s.asks c m 0x0505 12 true = true ∧ s.mode ∈ [4, 5, 6, 7, 8] ∧ plN (msgPl m) 0 1 = k ∧ k ≤ 1 ∧ s.lineHasLau k = false ∧ s.angleSlotOn k = false ∧ (∀ a ∈ [LAU_SET_LO k, LAU_SET_HI k, LAU_CTRL k], s.arrives (servMaster c) a true = true)) →
      Answers (.angleSet c) s (c) (m) (0) (0) (0) ([]) (fun u => u.pair (LAU_SET_LO k) = plN (msgPl m) 4 8)) ∧
  (∀ (c : Fin 96) (m : List Byte) (k : Nat) (s : State),
      ((s.asks c m 0x0505 12 true = true ∧ s.mode ∈ [4, 5, 6, 7, 8] ∧ plN (msgPl m) 0 1 = k ∧ (1 < k ∨ s.lineHasLau k = true))) →
      Told (.angleSet c) s (c) (m) (if 1 < k then 0x8005 else 0x8004) (if 1 < k then 0 else k) (0) ([])) ∧
  (∀ (c : Fin 96) (m : List Byte) (k : Nat) (s : State),
      (s.asks c m 0x0506 1 false = true ∧ plN (msgPl m) 0 1 = k ∧ k ≤ 1) →
      (∀ a ∈ [LAU_ANG_LO k, LAU_ANG_HI k, LAU_SPD k, LAU_ACC k, LAU_STAT k], s.reads (servMaster c) a = true) →
      Answers (.angleGet c) s (c) (m) (0) (0) (0) ([LAU_ANG_LO k, LAU_ANG_HI k, LAU_SPD k, LAU_ACC k, LAU_STAT k].flatMap (fun a => leBytes 4 (s.regN a))) (fun u => u.raises = s.raises ∧ u.mem = s.mem ∧ u.reg (LAU_SPD k) = s.reg (LAU_SPD k))) ∧
  (∀ (c : Fin 96) (m : List Byte) (k : Nat) (s : State),
      (s.asks c m 0x0507 8 true = true ∧ s.mode ∈ [4, 5, 6, 7, 8] ∧ plN (msgPl m) 0 1 = k ∧ k ≤ 1 ∧ s.lineHasLau k = false ∧ s.grants (servMaster c) (LAU_VM_SPD k) (w32 (plN (msgPl m) 4 4)) = true) →
      Answers (.vmSpeed c) s (c) (m) (0) (0) (0) ([]) (fun u => u.regN (LAU_VM_SPD k) = plN (msgPl m) 4 4 ∧ u.raises = s.raises ∧ u.mem = s.mem)) ∧
  (∀ (c : Fin 96) (m : List Byte) (k i n : Nat) (s : State),
      (s.asks c m 0x0601 (4 + 4 * n) true = true ∧ plN (msgPl m) 0 1 = k ∧ plN (msgPl m) 1 1 = i ∧ plN (msgPl m) 2 1 = n ∧ 1 ≤ n ∧ n ≤ 10 ∧ i + n ≤ 256) →
      (plN m 8 4 = 0 ∧ s.noTxn = true ∧ s.rwlLocked = false ∧ ∀ j : Fin 21, (s.txnCh j).log = []) →
      Leaves (.ctxWrite c) s (fun u => u.chan c = (s.chan c).drop 1 ∧ u.chan (retChan c) = s.chan (retChan c) ∧ (u.txnCh (1 + (servCore c).val)).log = (List.range n).map (fun j => (LOOP_COEF k (i + j), w32 (plN (msgPl m) (4 + 4 * j) 4) &&& rwtMask (LOOP_COEF k (i + j)))) ∧
  (u.txnCh (1 + (servCore c).val)).owed = some ⟨c, m⟩ ∧ u.flag (TXN_CH_STAT_CHECKING (1 + (servCore c).val)) = true ∧ u.mem = s.mem ∧ u.raises = s.raises ∧ u.pending = s.pending)) ∧
  (∀ (c : Fin 96) (m : List Byte) (i n : Nat) (s : State),
      ((s.asks c m 0x0601 (4 + 4 * n) true = true ∧ plN (msgPl m) 1 1 = i ∧ plN (msgPl m) 2 1 = n ∧ (n < 1 ∨ 10 < n ∨ 256 < i + n))) →
      Told (.ctxWrite c) s (c) (m) (0x8005) (if 256 < i + n then 1 else 2) (0) ([])) ∧
  (∀ (c : Fin 96) (m : List Byte) (k i n : Nat) (s : State),
      (s.asks c m 0x0602 4 false = true ∧ plN (msgPl m) 0 1 = k ∧ plN (msgPl m) 1 1 = i ∧ plN (msgPl m) 2 1 = n ∧ 1 ≤ n ∧ n ≤ 12 ∧ i + n ≤ 256 ∧ plN (msgPl m) 3 1 = 0) →
      Told (.ctxRead c) s (c) (m) (0) (0) (0) ((List.range n).flatMap (fun j => leBytes 4 (s.mem32 (0x20B00000 + 0x40000 * s.fld (LOOP_CTX_STAT_BANK k) + 0x400 * k + 4 * (i + j)))))) ∧
  (∀ (c : Fin 96) (m : List Byte) (k i n : Nat) (s : State),
      (s.asks c m 0x0602 4 false = true ∧ plN (msgPl m) 0 1 = k ∧ plN (msgPl m) 1 1 = i ∧ plN (msgPl m) 2 1 = n ∧ 1 ≤ n ∧ n ≤ 12 ∧ i + n ≤ 256 ∧ plN (msgPl m) 3 1 = 1) →
      Told (.ctxRead c) s (c) (m) (0) (0) (0) ((List.range n).flatMap (fun j => leBytes 4 (s.cand (LOOP_COEF k (i + j))).toNat))) ∧
  (∀ (c : Fin 96) (m : List Byte) (k b : Nat) (s : State),
      (s.asks c m 0x0603 8 true = true ∧ plN (msgPl m) 0 1 = k ∧ plN (msgPl m) 1 1 = b ∧ s.reads (servMaster c) (LOOP_CTX_CTRL k) = true ∧ b = 2 ∧ s.flag (LOOP_CTX_CTRL_EN k) = false) →
      Answers (.ctxCtrl c) s (c) (m) (0) (0) (0) ([]) (fun u => u.regN (LOOP_CTX_MANOUT k) = plN (msgPl m) 4 4 ∧ u.flag (LOOP_CTX_CTRL_EN k) = false ∧ u.flag (LOOP_CTX_CTRL_AUTO k) = true ∧ u.raises = s.raises)) ∧
  (∀ (c : Fin 96) (m : List Byte) (k : Nat) (s : State),
      (s.asks c m 0x0604 16 true = true ∧ plN (msgPl m) 0 1 = k ∧ plN m 8 4 ≠ 0 ∧ s.handleOk c m = true) →
      (s.flag (TXN_CH_STAT_LOGFULL (sentTxn c)) = false ∧ (s.txnCh (sentTxn c)).log = [] ∧ ((List.range 21).map (fun j => (s.txnCh j).log.length)).sum < 4000) →
      Answers (.ctxCfg c) s (c) (m) (0) (0) (0) ([]) (fun u => (u.txnCh (sentTxn c)).log = [(LOOP_CTX_CFG k, w32 (plN (msgPl m) 4 4) &&& rwtMask (LOOP_CTX_CFG k)), (LOOP_CTX_RATE k, w32 (plN (msgPl m) 8 4) &&& rwtMask (LOOP_CTX_RATE k)),
  (LOOP_CTX_TIMING k, w32 (plN (msgPl m) 12 4) &&& rwtMask (LOOP_CTX_TIMING k))] ∧ u.shadow = s.shadow ∧ u.reg (LOOP_CTX_RATE k) = s.reg (LOOP_CTX_RATE k))) ∧
  (∀ (c : Fin 96) (m : List Byte) (t : Nat) (s : State),
      (s.asks c m 0x0605 12 true = true ∧ c.val ≤ 3 ∧ s.mode ∈ [4, 5, 6, 7, 8] ∧ plN (msgPl m) 0 1 = 3 ∧ plN (msgPl m) 1 1 = t ∧ s.tableUsed 3 t = false) →
      (s.bufOk (bufAt (msgPl m) 4) = true ∧ (bufAt (msgPl m) 4).2 = 0x100) →
      Answers (.table c) s (c) (m) (0) (0) (0) ([]) (fun u => Stored s u (0x20A50000 + 0x100 * t) (s.getBlock (bufAt (msgPl m) 4).1 0x100) ∧ u.raises = s.raises)) ∧
  (∀ (c : Fin 96) (m : List Byte) (k t : Nat) (s : State),
      (s.asks c m 0x0605 12 true = true ∧ c.val ≤ 3 ∧ s.mode ∈ [4, 5, 6, 7, 8] ∧ plN (msgPl m) 0 1 = k ∧ plN (msgPl m) 1 1 = t) →
      ((3 < k ∨ (k = 3 ∧ s.tableUsed 3 t = true ∧ s.bufOk (bufAt (msgPl m) 4) = true ∧ (bufAt (msgPl m) 4).2 = 0x100))) →
      Told (.table c) s (c) (m) (if 3 < k then 0x8005 else 0x8009) (if 3 < k then 0 else t) (0) ([])) ∧
  (∀ (c : Fin 96) (m : List Byte) (s : State),
      (s.asks c m 0x0606 16 true = true ∧ s.mode ∈ [4, 5, 6, 7, 8] ∧ s.reads (servMaster c) LOOP_CAP_SEL = true ∧ (plN (msgPl m) 0 4) % 2 = 0) →
      Answers (.capture c) s (c) (m) (0) (0) (0) ([]) (fun u => u.regN LOOP_CAP_BASE = plN (msgPl m) 8 4 &&& (accMask ((findReg LOOP_CAP_BASE).getD ⟨"", 0, [], [], 0⟩) .rw).toNat)) ∧
  (∀ (c : Fin 96) (m : List Byte) (s : State),
      (s.asks c m 0x0607 20 true = true ∧ s.mode ∈ [4, 5, 6, 7, 8] ∧ s.reads (servMaster c) LOOP_TSG_AMP = true ∧ plN (msgPl m) 0 4 = 0) →
      Answers (.testsig c) s (c) (m) (0) (0) (0) ([]) (fun u => u.regN LOOP_TSG_AMP = plN (msgPl m) 4 4 ∧ u.regN LOOP_TSG_F0 = plN (msgPl m) 8 4)) ∧
  (∀ (c : Fin 96) (m : List Byte) (k : Nat) (s : State),
      (s.asks c m 0x0608 1 false = true ∧ plN (msgPl m) 0 1 = k ∧ s.reads (servMaster c) (LOOP_CTX_STAT k) = true ∧ s.domOn 9 = true) →
      Answers (.ctxStatus c) s (c) (m) (0) (0) (0) (leBytes 4 ((s.ctxShow k).regN (LOOP_CTX_STAT k)) ++ leBytes 4 (s.regN (LOOP_CTX_LASTTS k)) ++ leBytes 4 (s.regN (LOOP_CTX_LASTDUR k)) ++ (List.range 4).flatMap (fun j => leBytes 4 (s.regN (LOOP_CTX_CNT k j)))) (fun u => u.raises = s.raises ∧ u.mem = s.mem)) ∧
  (∀ (c : Fin 96) (s : State), Yields (.acquire c) s (s.fwServe c 0x0501 true true modesPSOXD (fixLen 16) State.cmdAcquire)) ∧
  (∀ (c : Fin 96) (s : State), Yields (.rearm c) s (s.fwServe c 0x0502 false true [modePREOP, modeSAFESTOP, modeDEGRADED] (fixLen 1) State.cmdRearm)) ∧
  (∀ (c : Fin 96) (s : State), Yields (.timeGet c) s (s.fwServe c 0x0503 true false anyMode (fixLen 1) State.cmdTimeGet)) ∧
  (∀ (c : Fin 96) (s : State), Yields (.pps c) s (s.fwServe c 0x0504 false true modesPSOXD (fixLen 12) State.cmdPps)) ∧
  (∀ (c : Fin 96) (s : State), Yields (.angleSet c) s (s.fwServe c 0x0505 true true modesPSOXD (fixLen 12) State.cmdAngleSet)) ∧
  (∀ (c : Fin 96) (s : State), Yields (.angleGet c) s (s.fwServe c 0x0506 true false anyMode (fixLen 1) State.cmdAngleGet)) ∧
  (∀ (c : Fin 96) (s : State), Yields (.vmSpeed c) s (s.fwServe c 0x0507 true true modesPSOXD (fixLen 8) State.cmdVmSpeed)) ∧
  (∀ (c : Fin 96) (s : State), Yields (.ctxWrite c) s (s.fwServe c 0x0601 true true anyMode ctxLen State.cmdCtxWrite)) ∧
  (∀ (c : Fin 96) (s : State), Yields (.ctxRead c) s (s.fwServe c 0x0602 true false anyMode (fixLen 4) State.cmdCtxRead)) ∧
  (∀ (c : Fin 96) (s : State), Yields (.ctxCtrl c) s (s.fwServe c 0x0603 true true anyMode (fixLen 8) State.cmdCtxCtrl)) ∧
  (∀ (c : Fin 96) (s : State), Yields (.ctxCfg c) s (s.fwServe c 0x0604 true true anyMode (fixLen 16) State.cmdCtxCfg)) ∧
  (∀ (c : Fin 96) (s : State), Yields (.table c) s (s.fwServe c 0x0605 false true modesPSOXD (fixLen 12) State.cmdTable)) ∧
  (∀ (c : Fin 96) (s : State), Yields (.capture c) s (s.fwServe c 0x0606 true true modesPSOXD (fixLen 16) State.cmdCapture)) ∧
  (∀ (c : Fin 96) (s : State), Yields (.testsig c) s (s.fwServe c 0x0607 true true modesPSOXD (fixLen 20) State.cmdTestsig)) ∧
  (∀ (c : Fin 96) (s : State), Yields (.ctxStatus c) s (s.fwServe c 0x0608 true false anyMode (fixLen 1) State.cmdCtxStatus))

/-- CAN_CFG writes the timing through INIT and leaves INIT, stays in INIT with 0x8005 where the timing is bad, and waits while the frame in progress lasts; TT_LOAD logs the words of its buffer; TT_RESTART leaves STARTFAIL, BOREC starts recovery; a controller an instance holds is refused. CELL_LOAD writes a halted cell's program, CELL_RUN halts, enables, arms or starts the cells of its mask, CELL_INJECT injects. The status and DIAG reads answer their words; ACK clears PENDING or is refused; MAP and FORCE set class, reaction and force bit. Lengths, holds and details of refusals are deduced (logs 58 and 66). Every command named here completes, from every state and with all operands: the last clauses give the operation that is its own effect. -/
def Obligations.CanNutDiagMessages : Prop :=
  (∀ (c : Fin 96) (m : List Byte) (n x y z : Nat) (s : State),
      (s.asks c m 0x0701 20 true = true ∧ c.val ≤ 3 ∧ s.mode = 4 ∧ plN (msgPl m) 0 1 = n ∧ n ≤ 3 ∧ plN (msgPl m) 8 4 = x ∧ plN (msgPl m) 12 4 = y ∧ plN (msgPl m) 16 4 = z) →
      (s.canHeld n = false ∧ s.flag (CAN_CTRL_INIT n) = true ∧ s.flag (CAN_STAT_INITACK n) = true ∧ ∀ a ∈ [CAN_CTRL n, CAN_NBT n, CAN_DBT n, CAN_TDC n], s.arrives (servMaster c) a true = true) →
      ((((s.putReg (servMaster c) ((findReg (CAN_NBT n)).getD ⟨"", 0, [], [], 0⟩) (CAN_NBT n) (w32 x)).putReg (servMaster c) ((findReg (CAN_DBT n)).getD ⟨"", 0, [], [], 0⟩) (CAN_DBT n) (w32 y)).setFlag (CAN_CTRL_FDEN n) ((plN (msgPl m) 4 4).testBit 1)).badTim n).flag (CAN_STAT_BADTIM n) = false →
      Answers (.canCfg c) s (c) (m) (0) (0) (0) ([]) (fun u => u.flag (CAN_CTRL_INIT n) = false ∧ u.flag (CAN_STAT_INITACK n) = false ∧ u.fld (CAN_ERR_TEC n) = 0 ∧ u.fld (CAN_ERR_REC n) = 0 ∧ u.fld (CAN_NBT_TSEG1M1 n) = bits (w32 x) (CAN_NBT_TSEG1M1 n).hi (CAN_NBT_TSEG1M1 n).lo ∧ u.fld (CAN_NBT_TSEG2M1 n) = bits (w32 x) (CAN_NBT_TSEG2M1 n).hi (CAN_NBT_TSEG2M1 n).lo ∧ u.fld (CAN_DBT_TSEG1M1 n) = bits (w32 y) (CAN_DBT_TSEG1M1 n).hi (CAN_DBT_TSEG1M1 n).lo ∧
  u.flag (CAN_CTRL_FDEN n) = (plN (msgPl m) 4 4).testBit 1 ∧ u.flag (CAN_CTRL_MON n) = (plN (msgPl m) 4 4).testBit 3 ∧ u.flag (CAN_CTRL_TTEN n) = (plN (msgPl m) 4 4).testBit 7 ∧ u.mem = s.mem)) ∧
  (∀ (c : Fin 96) (m : List Byte) (n : Nat) (s : State),
      (s.asks c m 0x0701 20 true = true ∧ c.val ≤ 3 ∧ s.mode = 4 ∧ plN (msgPl m) 0 1 = n ∧ n ≤ 3 ∧ s.canHeld n = false ∧ s.flag (CAN_CTRL_INIT n) = true ∧ s.flag (CAN_STAT_INITACK n) = false) →
      Yields (.canCfg c) s (s)) ∧
  (∀ (c : Fin 96) (m : List Byte) (n : Nat) (s : State),
      ((s.asks c m 0x0701 20 true = true ∧ c.val ≤ 3 ∧ s.mode = 4 ∧ plN (msgPl m) 0 1 = n ∧ (3 < n ∨ s.canHeld n = true))) →
      Told (.canCfg c) s (c) (m) (if 3 < n then 0x8005 else 0x8004) (if 3 < n then 0 else n) (0) ([])) ∧
  (∀ (c : Fin 96) (m : List Byte) (n : Nat) (s : State),
      (s.asks c m 0x0702 12 true = true ∧ c.val ≤ 3 ∧ s.mode ∈ [4, 5, 6, 7, 8] ∧ plN (msgPl m) 0 1 = n ∧ n ≤ 3 ∧ s.canHeld n = false ∧ s.bufOk (bufAt (msgPl m) 4) = true ∧ (bufAt (msgPl m) 4).2 = 524) →
      (plN m 8 4 = 0 ∧ s.noTxn = true ∧ ∀ j : Fin 21, (s.txnCh j).log = []) →
      Leaves (.ttLoad c) s (fun u => u.chan c = (s.chan c).drop 1 ∧ u.chan (retChan c) = s.chan (retChan c) ∧ (u.txnCh (1 + (servCore c).val)).owed = some ⟨c, m⟩ ∧ u.flag (TXN_CH_STAT_CHECKING (1 + (servCore c).val)) = true ∧ u.mem = s.mem ∧ u.pending = s.pending ∧
  (u.txnCh (1 + (servCore c).val)).log.map (fun e => e.1) = [CAN_TT_CFG n, CAN_TT_TIME n, CAN_TT_START n] ++ (List.range 32).map (fun w => CAN_TT_WIN n w) ++ (List.range 32).flatMap (fun w => [CAN_GT_MARK n w, CAN_GT_MASK_LO n w, CAN_GT_MASK_HI n w]))) ∧
  (∀ (c : Fin 96) (m : List Byte) (n : Nat) (s : State),
      ((s.asks c m 0x0702 12 true = true ∧ c.val ≤ 3 ∧ s.mode ∈ [4, 5, 6, 7, 8] ∧ plN (msgPl m) 0 1 = n ∧ (3 < n ∨ s.canHeld n = true ∨ s.bufOk (bufAt (msgPl m) 4) = false))) →
      Told (.ttLoad c) s (c) (m) (if 3 < n then 0x8005 else if s.canHeld n then 0x8004 else 0x8003) (if n ≤ 3 ∧ s.canHeld n then n else 0) (0) ([])) ∧
  (∀ (c : Fin 96) (m : List Byte) (n : Nat) (s : State),
      (s.asks c m 0x0703 1 false = true ∧ plN (msgPl m) 0 1 = n ∧ n ≤ 3 ∧ ∀ a ∈ [CAN_STAT n, CAN_ERR n, CAN_TT_STAT n, CAN_TT_DRIFT n], s.reads (servMaster c) a = true) →
      Answers (.canStatus c) s (c) (m) (0) (0) (0) ([CAN_STAT n, CAN_ERR n, CAN_TT_STAT n, CAN_TT_DRIFT n].flatMap (fun a => leBytes 4 ((s.ctShow n).regN a))) (fun u => u.raises = s.raises ∧ u.mem = s.mem ∧ u.can = s.can ∧ ∀ a ∈ [CAN_STAT n, CAN_TT_DRIFT n, CAN_CTRL n], u.reg a = s.reg a)) ∧
  (∀ (c : Fin 96) (m : List Byte) (n : Nat) (s : State),
      (s.asks c m 0x0704 1 true = true ∧ c.val ≤ 3 ∧ plN (msgPl m) 0 1 = n ∧ n ≤ 3 ∧ s.canHeld n = false ∧ s.flag (CAN_CTRL_INIT n) = false ∧ s.fld (CAN_TT_STAT_STATE n) = 6 ∧ s.arrives (servMaster c) (CAN_CTRL n) true = true) →
      Answers (.ttRestart c) s (c) (m) (0) (0) (0) ([]) (fun u => u.fld (CAN_TT_STAT_STATE n) = 1 ∧ u.fld (CAN_TT_STAT_COLL n) = 0 ∧ u.reg (CAN_CTRL n) = s.reg (CAN_CTRL n) ∧ u.mem = s.mem)) ∧
  (∀ (c : Fin 96) (m : List Byte) (n : Nat) (s : State),
      (s.asks c m 0x0705 1 true = true ∧ c.val ≤ 3 ∧ plN (msgPl m) 0 1 = n ∧ n ≤ 3 ∧ s.canHeld n = false ∧ s.flag (CAN_CTRL_INIT n) = false ∧ s.arrives (servMaster c) (CAN_CTRL n) true = true) →
      Answers (.canBorec c) s (c) (m) (0) (0) (0) ([]) (fun u => u.flag (CAN_STAT_BORUN n) = (s.flag (CAN_STAT_BORUN n) || s.fld (CAN_STAT_FCS n) == 2) ∧ u.reg (CAN_CTRL n) = s.reg (CAN_CTRL n) ∧ u.reg (CAN_TT_STAT n) = s.reg (CAN_TT_STAT n) ∧ u.mem = s.mem)) ∧
  (∀ (c : Fin 96) (m : List Byte) (k : Nat) (s : State),
      (s.asks c m 0x0801 12 true = true ∧ c.val ≤ 3 ∧ s.mode ∈ [4, 6, 7, 8] ∧ plN (msgPl m) 0 1 = k ∧ k ≤ 31 ∧ s.cellHeld k = false ∧ s.bufOk (bufAt (msgPl m) 4) = true ∧ (bufAt (msgPl m) 4).2 = 180 ∧ s.arrives (servMaster c) (NUT_CTRL k) true = true ∧ s.fw.running = true) →
      Answers (.cellLoad c) s (c) (m) (0) (0) (0) ([]) (fun u => u.flag (NUT_CTRL_EN k) = false ∧ u.mem = s.mem ∧ (∀ i : Fin 32, u.reg (NUT_PROG k i) = w32 (plN (s.getBlock (bufAt (msgPl m) 4).1 180) (52 + 4 * i.val) 4) &&& 0xFFFF#32))) ∧
  (∀ (c : Fin 96) (m : List Byte) (k : Nat) (s : State),
      ((s.asks c m 0x0801 12 true = true ∧ c.val ≤ 3 ∧ s.mode ∈ [4, 6, 7, 8] ∧ plN (msgPl m) 0 1 = k ∧ (31 < k ∨ s.cellHeld k = true))) →
      Told (.cellLoad c) s (c) (m) (if 31 < k then 0x8005 else 0x8009) (if 31 < k then 0 else k) (0) ([])) ∧
  (∀ (c : Fin 96) (m : List Byte) (a mask : Nat) (s : State),
      ((s.asks c m 0x0802 5 true = true ∧ c.val ≤ 3 ∧ plN (msgPl m) 0 4 = mask ∧ plN (msgPl m) 4 1 = a ∧ a ≤ 2 ∧ (∀ k : Fin 32, mask.testBit k → s.cellHeld k = false) ∧ ∀ k : Fin 32, s.arrives (servMaster c) (NUT_CTRL k) true = true)) →
      Answers (.cellRun c) s (c) (m) (0) (0) (0) ([]) (fun u => u.mem = s.mem ∧ (∀ k : Fin 32, u.flag (NUT_CTRL_EN k) = if mask.testBit k then decide (a ≠ 0) else s.flag (NUT_CTRL_EN k)) ∧ (∀ k : Fin 32, (mask.testBit k → a = 2 → s.flag (NUT_CTRL_EN k) = false → (u.nutSt k).armed = true) ∧ (mask.testBit k = false → u.nutSt k = s.nutSt k)))) ∧
  (∀ (c : Fin 96) (m : List Byte) (k : Nat) (s : State),
      (s.asks c m 0x0802 5 true = true ∧ c.val ≤ 3 ∧ plN (msgPl m) 0 4 = 2 ^ k ∧ k ≤ 31 ∧ plN (msgPl m) 4 1 = 3 ∧ s.cellHeld k = false ∧ s.arrives (servMaster c) (NUT_CTRL k) true = true) →
      (s.flag (NUT_CTRL_EN k) = true ∧ (s.nutSt k).armed = false ∧ (s.nutSt k).stopped = false ∧ (s.nutSt k).ip = none) →
      Answers (.cellRun c) s (c) (m) (0) (0) (0) ([]) (fun u => u.flag (NUT_CTRL_EN k) = true ∧ (u.nutSt k).pend = true ∧ u.flag (NUT_FLAGS_STARTOVR k) = (s.flag (NUT_FLAGS_STARTOVR k) || (s.nutSt k).pend) ∧ u.mem = s.mem)) ∧
  (∀ (c : Fin 96) (m : List Byte) (k : Nat) (s : State),
      ((s.asks c m 0x0802 5 true = true ∧ c.val ≤ 3 ∧ plN (msgPl m) 4 1 ≤ 3 ∧ k ≤ 31 ∧ (plN (msgPl m) 0 4).testBit k = true ∧ s.cellHeld k = true ∧ ∀ j < k, (plN (msgPl m) 0 4).testBit j = true → s.cellHeld j = false)) →
      Told (.cellRun c) s (c) (m) (0x8009) (k) (0) ([])) ∧
  (∀ (c : Fin 96) (m : List Byte) (k : Nat) (s : State),
      (s.asks c m 0x0803 1 false = true ∧ plN (msgPl m) 0 1 = k ∧ k ≤ 31 ∧ ∀ a ∈ [NUT_STAT k, NUT_FLAGS k, NUT_POS k, NUT_POSTS k], s.reads (servMaster c) a = true) →
      Answers (.cellStatus c) s (c) (m) (0) (0) (0) ([NUT_STAT k, NUT_FLAGS k, NUT_POS k, NUT_POSTS k].flatMap (fun a => leBytes 4 ((s.nutShow k).regN a))) (fun u => u.raises = (s.nutShow k).raises ∧ u.mem = s.mem ∧ u.reg (NUT_POS k) = (s.nutShow k).reg (NUT_POS k) ∧ u.reg (NUT_CTRL k) = s.reg (NUT_CTRL k))) ∧
  (∀ (c : Fin 96) (m : List Byte) (k : Nat) (s : State),
      (s.asks c m 0x0804 4 true = true ∧ c.val ≤ 3 ∧ plN (msgPl m) 0 1 = k ∧ k ≤ 31 ∧ s.cellHeld k = false ∧ s.flag (NUT_INJ_PEND k) = false ∧ (s.nutSt k).inj = none ∧ plN (msgPl m) 1 1 = 0 ∧ s.arrives (servMaster c) (NUT_INJ k) true = true) →
      Answers (.cellInject c) s (c) (m) (0) (0) (0) ([]) (fun u => (u.nutSt k).inj = some (plN (msgPl m) 2 2) ∧ (u.nutSt k).ip = (s.nutSt k).ip ∧ u.mem = s.mem ∧ u.raises = s.raises)) ∧
  (∀ (c : Fin 96) (m : List Byte) (k : Nat) (s : State),
      ((s.asks c m 0x0804 4 true = true ∧ c.val ≤ 3 ∧ plN (msgPl m) 0 1 = k ∧ (31 < k ∨ s.cellHeld k = true ∨ s.flag (NUT_INJ_PEND k) = true))) →
      Told (.cellInject c) s (c) (m) (if 31 < k then 0x8005 else 0x8009) (if 31 < k then 0 else k) (0) ([])) ∧
  (∀ (c : Fin 96) (m : List Byte) (r n : Nat) (s : State),
      (s.asks c m 0x0A01 2 false = true ∧ plN (msgPl m) 0 1 = r ∧ plN (msgPl m) 1 1 = n ∧ 1 ≤ n ∧ n ≤ 3 ∧ r + n ≤ 32 ∧ s.domOn 0 = true) →
      Told (.logRead c) s (c) (m) (0) (0) (0) ((List.range (4 * n)).flatMap (fun i => leBytes 4 (s.regN (0x40201000 + 16 * r + 4 * i))))) ∧
  (∀ (c : Fin 96) (m : List Byte) (r n : Nat) (s : State),
      ((s.asks c m 0x0A01 2 false = true ∧ plN (msgPl m) 0 1 = r ∧ plN (msgPl m) 1 1 = n ∧ (31 < r ∨ n < 1 ∨ 3 < n ∨ 32 < r + n))) →
      Told (.logRead c) s (c) (m) (0x8005) (if 31 < r then 0 else 1) (0) ([])) ∧
  (∀ (c : Fin 96) (m : List Byte) (r : Nat) (s : State),
      (s.asks c m 0x0A02 1 true = true ∧ c.val ≤ 3 ∧ plN (msgPl m) 0 1 = r ∧ r ≤ 31 ∧ s.flag (FCU_REC_W2_PENDING r) = true) →
      (s.flag (FCU_REC_W2_ESC r) = false ∧ s.pairFault (s.fld (FCU_REC_W0_SRC r)) = false ∧ s.bitAt (FCU_WIRE 0) (s.fld (FCU_REC_W0_SRC r)) = false ∧ s.domOn 0 = true) →
      Answers (.diagAck c) s (c) (m) (0) (0) (0) ([]) (fun u => u.flag (FCU_REC_W2_PENDING r) = false ∧ (∀ k : Fin 32, k.val ≠ r → u.flag (FCU_REC_W2_PENDING k) = s.flag (FCU_REC_W2_PENDING k)) ∧ u.reg (FCU_REC_W0 r) = s.reg (FCU_REC_W0 r) ∧ u.mem = s.mem)) ∧
  (∀ (c : Fin 96) (m : List Byte) (r : Nat) (s : State),
      ((s.asks c m 0x0A02 1 true = true ∧ c.val ≤ 3 ∧ plN (msgPl m) 0 1 = r ∧ (31 < r ∨ s.flag (FCU_REC_W2_PENDING r) = false) ∧ s.domOn 0 = true)) →
      Answers (.diagAck c) s (c) (m) (0x8070) (r) (0) ([]) (fun u => u.mem = s.mem ∧ u.raises = s.raises ∧ (∀ k : Fin 32, u.flag (FCU_REC_W2_PENDING k) = s.flag (FCU_REC_W2_PENDING k)) ∧ u.flag FCU_STAT_ACKREF = (s.flag FCU_STAT_ACKREF || decide (r ≤ 31)))) ∧
  (∀ (c : Fin 96) (m : List Byte) (r n a : Nat) (s : State),
      (s.asks c m 0x0A03 2 false = true ∧ c.val ≤ 3 ∧ s.mode = 4 ∧ plN (msgPl m) 0 1 = r ∧ plN (msgPl m) 1 1 = n ∧ 1 ≤ n ∧ n ≤ 3 ∧ r + n ≤ 32 ∧ s.pwr.offer = some a) →
      Told (.savedRead c) s (c) (m) (0) (0) (0) (s.bytes (a + 0x200 + 16 * r) (16 * n))) ∧
  (∀ (c : Fin 96) (m : List Byte) (s : State),
      (s.asks c m 0x0A03 2 false = true ∧ c.val ≤ 3 ∧ s.mode = 4 ∧ plN (msgPl m) 0 1 ≤ 29 ∧ 1 ≤ plN (msgPl m) 1 1 ∧ plN (msgPl m) 1 1 ≤ 3 ∧ s.pwr.offer = none) →
      Told (.savedRead c) s (c) (m) (0x8071) (0) (0) ([])) ∧
  (∀ (c : Fin 96) (m : List Byte) (i cl re : Nat) (s : State),
      (s.asks c m 0x0A04 4 true = true ∧ c.val ≤ 3 ∧ s.mode = 3 ∧ plN (msgPl m) 0 2 = i ∧ plN (msgPl m) 2 1 = cl ∧ plN (msgPl m) 3 1 = re ∧ i ≤ 511 ∧ cl ≤ 4 ∧ re ≤ 4 ∧ s.flag (FCU_SRCCFG_FIXED i) = false ∧ s.domOn 0 = true) →
      Answers (.mapC c) s (c) (m) (0) (0) (0) ([]) (fun u => u.fld (FCU_SRCCFG_CLASS i) = cl ∧ u.fld (FCU_SRCCFG_REACT i) = (if cl = 4 then 4 else re) ∧ storeGet (fun _ => none) u.fw.cfg (FCU_SRCCFG i) = some (w32 (cl + 16 * re)) ∧ u.mem = s.mem ∧ u.raises = s.raises)) ∧
  (∀ (c : Fin 96) (m : List Byte) (i cl re : Nat) (s : State),
      ((s.asks c m 0x0A04 4 true = true ∧ c.val ≤ 3 ∧ s.mode = 3 ∧ plN (msgPl m) 0 2 = i ∧ plN (msgPl m) 2 1 = cl ∧ plN (msgPl m) 3 1 = re ∧ (511 < i ∨ 4 < cl ∨ 4 < re ∨ s.flag (FCU_SRCCFG_FIXED i) = true))) →
      Told (.mapC c) s (c) (m) (if 511 < i ∨ 4 < cl ∨ 4 < re then 0x8005 else 0x8004) (if 511 < i then 0 else if 4 < cl then 2 else if 4 < re then 3 else i % 256) (0) ([])) ∧
  (∀ (c : Fin 96) (m : List Byte) (a : Nat) (s : State),
      (s.asks c m 0x0A05 5 false = true ∧ plN (msgPl m) 0 4 = a ∧ plN (msgPl m) 4 1 = 1 ∧ plainRead a = true ∧ rwAll a = true ∧ halfAt a = 0 ∧ s.reads (servMaster c) a = true) →
      Told (.readC c) s (c) (m) (0) (0) (0) (leBytes 4 (s.regN a))) ∧
  (∀ (c : Fin 96) (m : List Byte) (s : State),
      ((s.asks c m 0x0A05 5 false = true ∧ (plN (msgPl m) 4 1 < 1 ∨ 12 < plN (msgPl m) 4 1))) →
      Told (.readC c) s (c) (m) (0x8005) (4) (0) ([])) ∧
  (∀ (c : Fin 96) (m : List Byte) (i b : Nat) (s : State),
      (s.asks c m 0x0A06 3 true = true ∧ c.val ≤ 3 ∧ plN (msgPl m) 0 2 = i ∧ i ≤ 511 ∧ plN (msgPl m) 2 1 = b ∧ b ≤ 1 ∧ s.domOn 0 = true) →
      Answers (.force c) s (c) (m) (0) (0) (0) ([]) (fun u => u.reg (FCU_FORCE (i / 32)) = setBits (s.reg (FCU_FORCE (i / 32))) (i % 32) (i % 32) b ∧ u.mem = s.mem ∧ ∀ j : Fin 16, j.val ≠ i / 32 → u.reg (FCU_FORCE j) = s.reg (FCU_FORCE j))) ∧
  (∀ (c : Fin 96) (m : List Byte) (i b : Nat) (s : State),
      ((s.asks c m 0x0A06 3 true = true ∧ c.val ≤ 3 ∧ plN (msgPl m) 0 2 = i ∧ plN (msgPl m) 2 1 = b ∧ (511 < i ∨ 1 < b))) →
      Told (.force c) s (c) (m) (0x8005) (if 511 < i then 0 else 2) (0) ([])) ∧
  (∀ (c : Fin 96) (s : State), Yields (.canCfg c) s (s.fwServe c 0x0701 false true [modePREOP] (fixLen 20) State.cmdCanCfg)) ∧
  (∀ (c : Fin 96) (s : State), Yields (.ttLoad c) s (s.fwServe c 0x0702 false true modesPSOXD (fixLen 12) State.cmdTtLoad)) ∧
  (∀ (c : Fin 96) (s : State), Yields (.canStatus c) s (s.fwServe c 0x0703 true false anyMode (fixLen 1) State.cmdCanStatus)) ∧
  (∀ (c : Fin 96) (s : State), Yields (.ttRestart c) s (s.fwServe c 0x0704 false true anyMode (fixLen 1) (State.cmdCanCtrl 8))) ∧
  (∀ (c : Fin 96) (s : State), Yields (.canBorec c) s (s.fwServe c 0x0705 false true anyMode (fixLen 1) (State.cmdCanCtrl 5))) ∧
  (∀ (c : Fin 96) (s : State), Yields (.cellLoad c) s (s.fwServe c 0x0801 false true [modePREOP, modeSAFEOP, modeSAFESTOP, modeDEGRADED] (fixLen 12) State.cmdCellLoad)) ∧
  (∀ (c : Fin 96) (s : State), Yields (.cellRun c) s (s.fwServe c 0x0802 false true anyMode (fixLen 5) State.cmdCellRun)) ∧
  (∀ (c : Fin 96) (s : State), Yields (.cellStatus c) s (s.fwServe c 0x0803 true false anyMode (fixLen 1) State.cmdCellStatus)) ∧
  (∀ (c : Fin 96) (s : State), Yields (.cellInject c) s (s.fwServe c 0x0804 false true anyMode (fixLen 4) State.cmdCellInject)) ∧
  (∀ (c : Fin 96) (s : State), Yields (.logRead c) s (s.fwServe c 0x0A01 true false anyMode (fixLen 2) State.cmdLogRead)) ∧
  (∀ (c : Fin 96) (s : State), Yields (.diagAck c) s (s.fwServe c 0x0A02 false true anyMode (fixLen 1) State.cmdDiagAck)) ∧
  (∀ (c : Fin 96) (s : State), Yields (.savedRead c) s (s.fwServe c 0x0A03 false false [modePREOP] (fixLen 2) State.cmdSavedRead)) ∧
  (∀ (c : Fin 96) (s : State), Yields (.mapC c) s (s.fwServe c 0x0A04 false true [modeCOMMISSION] (fixLen 4) State.cmdMap)) ∧
  (∀ (c : Fin 96) (s : State), Yields (.readC c) s (s.fwServe c 0x0A05 true false anyMode (fixLen 5) State.cmdRead)) ∧
  (∀ (c : Fin 96) (s : State), Yields (.force c) s (s.fwServe c 0x0A06 false true anyMode (fixLen 3) State.cmdForce))

/-- A SAFE command that firmware relays is checked and acted on by both channels, and the answer carries both codes and the command's fields: STATUS and SPB_READ read, COMMISSION asks for transition 6 with the stored CCV, SPB_WRITE writes each channel's copy, CCV computes both check values and reports where they differ, CONFIRM stores both records and CONFIRM and LEAVE ask for transition 7, ACK asks for transition 15 or names the first unmet condition, BRAKE_TEST starts a test or is refused and recorded, PATH reports a path, CLEAR clears the counters. In a halted Saffron all but STATUS are refused. A command of kind W that a channel takes directly is held until the other channel takes the same; unlike copies are answered 0x8064 on both. How relayed commands reach the channels, and the codes of a command that firmware refuses, are deduced (logs 59 and 167). Every command named here completes, from every state and with all operands: the last clauses give the operation that is its own effect. -/
def Obligations.SafetyMessages : Prop :=
  (∀ (c : Fin 96) (m : List Byte) (s : State),
      (s.asks c m 0x0901 0 false = true ∧ c.val ≤ 3) →
      Told (.safeStatus c) s (c) (m) (0) (0) (0) ([0, 0, 0, 0] ++ [SAF_STAT, SAF_REASON, SAF_INPUTS, SAF_OUTPUTS, SAF_CCV_A, SAF_CCV_B, SAF_CCV_CONF].flatMap (fun a => leBytes 4 (s.regN a)))) ∧
  (∀ (c : Fin 96) (m : List Byte) (s : State),
      (s.asks c m 0x0902 4 true = true ∧ c.val ≤ 3 ∧ s.mode ∈ [4, 7] ∧ s.busy = false ∧ s.saf.halt = false ∧ plN (msgPl m) 0 4 = s.regN SAF_CCV_CONF) →
      (s.saf.held = [] ∧ s.saf.latched = false ∧ s.asleep = false ∧ s.pwr.vote = none) →
      Leaves (.commission c) s (fun u => u.chan c = (s.chan c).drop 1 ∧ (u.chan (retChan c)).length = (s.chan (retChan c)).length + 1 ∧ u.modeq = s.modeq ++ [(6, 3, 1)] ∧ u.saf.latched = true ∧ u.fld SAF_REASON_CODE = 0x13 ∧ u.regN SAF_OUTPUTS % 16 = 0 ∧ u.mode = s.mode ∧ u.pending = s.pending)) ∧
  (∀ (c : Fin 96) (m : List Byte) (s : State),
      ((s.asks c m 0x0902 4 true = true ∧ c.val ≤ 3 ∧ s.saf.halt = false ∧ (s.mode ∉ [4, 7] ∨ s.busy = true ∨ plN (msgPl m) 0 4 ≠ s.regN SAF_CCV_CONF))) →
      Told (.commission c) s (c) (m) (if s.busy then 0x8007 else if s.mode ∉ [4, 7] then 0x8006 else 0x8061) (if s.busy then s.fld SYS_MODE_TARGET else if s.mode ∉ [4, 7] then s.mode else 0) (0) ((leBytes 2 (if s.busy then 0x8007 else if s.mode ∉ [4, 7] then 0x8006 else 0x8061)) ++ leBytes 2 (if s.busy then 0x8007 else if s.mode ∉ [4, 7] then 0x8006 else 0x8061))) ∧
  (∀ (c : Fin 96) (m : List Byte) (o n : Nat) (s : State),
      (s.asks c m 0x0903 (4 + n) true = true ∧ c.val ≤ 3 ∧ s.mode = 3 ∧ s.saf.halt = false ∧ plN (msgPl m) 0 2 = o ∧ plN (msgPl m) 2 2 = n ∧ 1 ≤ n ∧ n ≤ 44 ∧ o + n ≤ 672) →
      ((∀ ch : Fin 2, spbRule1 (putBytes (s.spbOf ch) o (slice (msgPl m) 4 n)) o (o + n) = true) ∧ s.saf.held = []) →
      Answers (.spbWrite c) s (c) (m) (0) (0) (0) ([0, 0, 0, 0]) (fun u => u.saf.spb = some (putBytes (s.spbOf 0) o (slice (msgPl m) 4 n)) ∧ u.saf.spbB = some (putBytes (s.spbOf 1) o (slice (msgPl m) 4 n)) ∧ u.saf.recA = s.saf.recA ∧ u.saf.recB = s.saf.recB ∧ u.modeq = s.modeq ∧ u.mem = s.mem ∧ u.raises = s.raises)) ∧
  (∀ (c : Fin 96) (m : List Byte) (o n : Nat) (s : State),
      ((s.asks c m 0x0903 (4 + n) true = true ∧ c.val ≤ 3 ∧ s.mode = 3 ∧ s.saf.halt = false ∧ plN (msgPl m) 0 2 = o ∧ plN (msgPl m) 2 2 = n ∧ (671 < o ∨ n < 1 ∨ 44 < n ∨ 672 < o + n))) →
      Told (.spbWrite c) s (c) (m) (0x8005) (if 671 < o then 0 else 2) (0) ([5, 0x80, 5, 0x80])) ∧
  (∀ (c : Fin 96) (m : List Byte) (o n : Nat) (s : State),
      (s.asks c m 0x0904 4 false = true ∧ c.val ≤ 3 ∧ s.saf.halt = false ∧ plN (msgPl m) 0 2 = o ∧ plN (msgPl m) 2 2 = n ∧ 1 ≤ n ∧ n ≤ 40 ∧ o + n ≤ 672) →
      Told (.spbRead c) s (c) (m) (0) (0) (0) ([0, 0, 0, 0] ++ slice s.spb o n)) ∧
  (∀ (c : Fin 96) (m : List Byte) (s : State),
      (s.asks c m 0x0905 0 true = true ∧ c.val ≤ 3 ∧ s.mode = 3 ∧ s.saf.halt = false ∧ (∀ ch : Fin 2, spbBad (s.spbOf ch) = none) ∧ s.saf.held = []) →
      crcF (s.spbOf 0) = crcF (s.spbOf 1) →
      Answers (.ccv c) s (c) (m) (0) (0) (0) ([0, 0, 0, 0] ++ leBytes 4 (crcF (s.spbOf 0)).toNat ++ leBytes 4 (crcF (s.spbOf 1)).toNat) (fun u => u.reg SAF_CCV_A = crcF (s.spbOf 0) ∧ u.reg SAF_CCV_B = crcF (s.spbOf 1) ∧ u.reg SAF_CCV_CONF = s.reg SAF_CCV_CONF ∧ u.saf = s.saf ∧ u.modeq = s.modeq ∧ u.mem = s.mem)) ∧
  (∀ (c : Fin 96) (m : List Byte) (s : State),
      (s.asks c m 0x0905 0 true = true ∧ c.val ≤ 3 ∧ s.mode = 3 ∧ s.saf.halt = false ∧ (∀ ch : Fin 2, spbBad (s.spbOf ch) = none) ∧ s.saf.held = []) →
      crcF (s.spbOf 0) ≠ crcF (s.spbOf 1) →
      Answers (.ccv c) s (c) (m) (0x8061) (0) (0) ([0x61, 0x80, 0x61, 0x80] ++ leBytes 4 (crcF (s.spbOf 0)).toNat ++ leBytes 4 (crcF (s.spbOf 1)).toNat) (fun u => u.reg SAF_CCV_A = crcF (s.spbOf 0) ∧ u.reg SAF_CCV_B = crcF (s.spbOf 1) ∧ u.saf = s.saf ∧ u.modeq = s.modeq ∧ u.mem = s.mem)) ∧
  (∀ (c : Fin 96) (m : List Byte) (r : Nat) (s : State),
      (s.asks c m 0x0905 0 true = true ∧ c.val ≤ 3 ∧ s.mode = 3 ∧ s.saf.halt = false ∧ ∀ ch : Fin 2, spbBad (s.spbOf ch) = some r) →
      Told (.ccv c) s (c) (m) (0x8063) (r) (0) ([0x63, 0x80, 0x63, 0x80])) ∧
  (∀ (c : Fin 96) (m : List Byte) (s : State),
      (s.asks c m 0x0906 4 true = true ∧ c.val ≤ 3 ∧ s.mode = 3 ∧ s.busy = false ∧ s.saf.halt = false ∧ (∀ ch : Fin 2, plN (msgPl m) 0 4 = (crcF (s.spbOf ch)).toNat ∧ spbBad (s.spbOf ch) = none) ∧ s.saf.held = []) →
      Answers (.confirm (c, true)) s (c) (m) (0) (0) (0) ([0, 0, 0, 0]) (fun u => u.saf.recA = some (s.spbOf 0, crcF (s.spbOf 0)) ∧ u.saf.recB = some (s.spbOf 1, crcF (s.spbOf 1)) ∧ u.modeq = s.modeq ++ [(7, 1, 1)] ∧ u.mode = s.mode ∧ u.mem = s.mem)) ∧
  (∀ (c : Fin 96) (stored : Bool) (m : List Byte) (s : State),
      (s.asks c m 0x0906 4 true = true ∧ c.val ≤ 3 ∧ s.mode = 3 ∧ s.busy = false ∧ s.saf.halt = false ∧ ∀ ch : Fin 2, plN (msgPl m) 0 4 ≠ (crcF (s.spbOf ch)).toNat) →
      Told (.confirm (c, stored)) s (c) (m) (0x8061) (0) (0) ([0x61, 0x80, 0x61, 0x80])) ∧
  (∀ (c : Fin 96) (m : List Byte) (s : State),
      (s.asks c m 0x0907 0 true = true ∧ c.val ≤ 3 ∧ s.mode = 3 ∧ s.busy = false ∧ s.saf.halt = false ∧ s.saf.held = []) →
      Answers (.leave c) s (c) (m) (0) (0) (0) ([0, 0, 0, 0]) (fun u => u.saf.recA = s.saf.recA ∧ u.saf.recB = s.saf.recB ∧ u.saf.spb = s.saf.recA.map (fun r => r.1) ∧ u.saf.spbB = s.saf.recB.map (fun r => r.1) ∧ u.modeq = s.modeq ++ [(7, 1, 1)] ∧ u.mode = s.mode ∧ u.mem = s.mem)) ∧
  (∀ (c : Fin 96) (m : List Byte) (s : State),
      (s.asks c m 0x0908 0 true = true ∧ c.val ≤ 3 ∧ s.mode = 7 ∧ s.busy = false ∧ s.saf.halt = false ∧ s.ackUnmet = none ∧ s.class4Pending = false ∧ s.saf.held = []) →
      Answers (.safeAck c) s (c) (m) (0) (0) (0) ([0, 0, 0, 0]) (fun u => u.saf.latched = false ∧ u.reg SAF_REASON = 0#32 ∧ u.modeq = s.modeq ++ [(15, 4, 1)] ∧ u.mode = s.mode ∧ u.mem = s.mem ∧ (∀ k : Fin 16, u.fld (SAF_CONN_STAT_STATE k) = if s.fld (SAF_CONN_STAT_STATE k) = 4 then 1 else s.fld (SAF_CONN_STAT_STATE k)))) ∧
  (∀ (c : Fin 96) (m : List Byte) (n : Nat) (s : State),
      (s.asks c m 0x0908 0 true = true ∧ c.val ≤ 3 ∧ s.mode = 7 ∧ s.busy = false ∧ s.saf.halt = false ∧ s.ackUnmet = some n) →
      Told (.safeAck c) s (c) (m) (0x8060) (n) (0) ([0x60, 0x80, 0x60, 0x80])) ∧
  (∀ (c : Fin 96) (m : List Byte) (b : Nat) (s : State),
      (s.asks c m 0x0909 1 true = true ∧ c.val ≤ 3 ∧ s.mode ∈ [4, 6] ∧ s.saf.halt = false ∧ plN (msgPl m) 0 1 = b ∧ b ≤ 1 ∧ s.testUnmet b = none ∧ s.saf.held = []) →
      Answers (.brakeTest c) s (c) (m) (0) (0) (0) ([0, 0, 0, 0]) (fun u => u.saf.bt = some (b, 0, s.brakePos b) ∧ u.fld (SAF_BTEST_RESULT b) = 1 ∧ u.regN (SAF_BTDEV b) = 0 ∧ u.outOn (s.sp (brakeO b + 3) 1 % 2) = true ∧ u.flag SAF_STAT_TESTING = true ∧ u.mem = s.mem ∧ u.modeq = s.modeq)) ∧
  (∀ (c : Fin 96) (m : List Byte) (b n : Nat) (s : State),
      (s.asks c m 0x0909 1 true = true ∧ c.val ≤ 3 ∧ s.mode ∈ [4, 6] ∧ s.saf.halt = false ∧ plN (msgPl m) 0 1 = b ∧ b ≤ 1 ∧ s.testUnmet b = some n) →
      Answers (.brakeTest c) s (c) (m) (0x8060) (n) (0) ([0x60, 0x80, 0x60, 0x80]) (fun u => u.saf = s.saf ∧ u.fld (SAF_BTEST_RESULT b) = (if s.saf.bt.any (fun x => x.1 == b) then s.fld (SAF_BTEST_RESULT b) else 4) ∧ u.reg SAF_OUTPUTS = s.reg SAF_OUTPUTS ∧ u.mem = s.mem)) ∧
  (∀ (c : Fin 96) (m : List Byte) (p : Nat) (s : State),
      (s.asks c m 0x090A 2 true = true ∧ c.val ≤ 3 ∧ s.saf.halt = false ∧ plN (msgPl m) 0 1 = p ∧ p ≤ 27 ∧ plN (msgPl m) 1 1 = 1 ∧ s.saf.held = []) →
      Answers (.path c) s (c) (m) (0) (0) (0) ([0, 0, 0, 0]) (fun u => u.saf.down = s.saf.down.filter (fun q => q != p) ∧ u.saf.latched = s.saf.latched ∧ u.mem = s.mem ∧ u.modeq = s.modeq ∧
  (∀ k : Fin 16, s.role k = 2 → s.sp (connO k + 14) 1 = p → u.flag (SAF_CONN_STAT_ADOWN k) = false))) ∧
  (∀ (c : Fin 96) (m : List Byte) (s : State),
      ((s.asks c m 0x090A 2 true = true ∧ c.val ≤ 3 ∧ s.saf.halt = false ∧ (27 < plN (msgPl m) 0 1 ∨ 1 < plN (msgPl m) 1 1))) →
      Told (.path c) s (c) (m) (0x8005) (if 27 < plN (msgPl m) 0 1 then 0 else 1) (0) ([5, 0x80, 5, 0x80])) ∧
  (∀ (c : Fin 96) (m : List Byte) (s : State),
      (s.asks c m 0x090B 0 true = true ∧ c.val ≤ 3 ∧ s.saf.halt = false ∧ s.saf.held = []) →
      Answers (.clear c) s (c) (m) (0) (0) (0) ([0, 0, 0, 0]) (fun u => u.reg SAF_STAT2 = 0#32 ∧ (∀ k : Fin 16, u.reg (SAF_CONN_ERR k) = 0#32) ∧ u.reg SAF_STAT = s.reg SAF_STAT ∧ u.saf = s.saf ∧ u.mem = s.mem)) ∧
  (∀ (c : Fin 96) (m : List Byte) (s : State),
      (s.asks c m 0x090B 0 true = true ∧ c.val ≤ 3 ∧ s.saf.halt = true) →
      Told (.clear c) s (c) (m) (0x8062) (s.fld SAF_REASON_CODE) (0) ([0x62, 0x80, 0x62, 0x80])) ∧
  (∀ (c : Fin 96) (m : List Byte) (s : State),
      (c.val ∈ [88, 90, 92, 94] ∧ s.asleep = false ∧ (s.chan c).head? = some m ∧ plN m 4 2 = 0x0901 ∧ msgPl m = [] ∧ s.pwr.vote = none ∧ s.chanFull (c.val + 1) = false) →
      Leaves (.safeStatus c) s (fun u => u.chan c = (s.chan c).drop 1 ∧ u.chan (c.val + 1) = s.chan (c.val + 1) ++ [stampMsg (c.val + 1) (respMsg m 0 0 0 ([SAF_STAT, SAF_REASON, SAF_INPUTS, SAF_OUTPUTS, SAF_CCV_A, SAF_CCV_B, SAF_CCV_CONF].flatMap (fun a => leBytes 4 (s.regN a))))] ∧ u.saf = s.saf ∧ u.pending = s.pending)) ∧
  (∀ (c : Fin 96) (m : List Byte) (s : State),
      (c.val ∈ [88, 90, 92, 94] ∧ s.asleep = false ∧ (s.chan c).head? = some m ∧ plN m 4 2 = 0x090B ∧ msgPl m = [] ∧ s.saf.halt = false ∧ s.saf.held = []) →
      Leaves (.clear c) s (fun u => u.chan c = (s.chan c).drop 1 ∧ u.chan (c.val + 1) = s.chan (c.val + 1) ∧ u.saf = { s.saf with held := [((c.val - 88) / 2 % 2, (c.val - 88) / 4, m)] } ∧ u.reg SAF_STAT2 = s.reg SAF_STAT2 ∧ u.pending = s.pending)) ∧
  (∀ (c : Fin 96) (m n : List Byte) (d : Nat) (s : State),
      (c.val ∈ [88, 90, 92, 94] ∧ s.asleep = false ∧ (s.chan c).head? = some m ∧ plN m 4 2 = 0x090B ∧ msgPl m = [] ∧ s.saf.halt = false ∧ s.pwr.vote = none ∧ d = (if c.val % 4 = 0 then c.val + 2 else c.val - 2)) →
      (s.saf.held = [((d - 88) / 2 % 2, (d - 88) / 4, n)] ∧ safTwin m n = true ∧ s.chanFull (c.val + 1) = false ∧ s.chanFull (d + 1) = false) →
      Leaves (.clear c) s (fun u => u.chan c = (s.chan c).drop 1 ∧ u.chan (c.val + 1) = s.chan (c.val + 1) ++ [stampMsg (c.val + 1) (respMsg m 0 0 0 [])] ∧ u.chan (d + 1) = s.chan (d + 1) ++ [stampMsg (d + 1) (respMsg n 0 0 0 [])] ∧ u.saf.held = [] ∧ u.reg SAF_STAT2 = 0#32 ∧ u.pending = s.pending)) ∧
  (∀ (c : Fin 96) (m n : List Byte) (d : Nat) (s : State),
      (c.val ∈ [88, 90, 92, 94] ∧ s.asleep = false ∧ (s.chan c).head? = some m ∧ plN m 4 2 = 0x090B ∧ msgPl m = [] ∧ s.saf.halt = false ∧ s.pwr.vote = none ∧ d = (if c.val % 4 = 0 then c.val + 2 else c.val - 2)) →
      (s.saf.held = [((d - 88) / 2 % 2, (d - 88) / 4, n)] ∧ safTwin m n = false ∧ s.chanFull (c.val + 1) = false ∧ s.chanFull (d + 1) = false) →
      Leaves (.clear c) s (fun u => u.chan c = (s.chan c).drop 1 ∧ u.chan (c.val + 1) = s.chan (c.val + 1) ++ [stampMsg (c.val + 1) (respMsg m 0x8064 0 0 [])] ∧ u.chan (d + 1) = s.chan (d + 1) ++ [stampMsg (d + 1) (respMsg n 0x8064 0 0 [])] ∧ u.saf.held = [] ∧ u.reg SAF_STAT2 = s.reg SAF_STAT2 ∧ u.pending = s.pending)) ∧
  (∀ (c : Fin 96) (s : State), Yields (.safeStatus c) s (s.safeServe c 0x0901)) ∧
  (∀ (c : Fin 96) (s : State), Yields (.commission c) s (s.safeServe c 0x0902)) ∧
  (∀ (c : Fin 96) (s : State), Yields (.spbWrite c) s (s.safeServe c 0x0903)) ∧
  (∀ (c : Fin 96) (s : State), Yields (.spbRead c) s (s.safeServe c 0x0904)) ∧
  (∀ (c : Fin 96) (s : State), Yields (.ccv c) s (s.safeServe c 0x0905)) ∧
  (∀ (c : Fin 96 × Bool) (s : State), Yields (.confirm c) s (s.safeServe c.1 0x0906 c.2)) ∧
  (∀ (c : Fin 96) (s : State), Yields (.leave c) s (s.safeServe c 0x0907)) ∧
  (∀ (c : Fin 96) (s : State), Yields (.safeAck c) s (s.safeServe c 0x0908)) ∧
  (∀ (c : Fin 96) (s : State), Yields (.brakeTest c) s (s.safeServe c 0x0909)) ∧
  (∀ (c : Fin 96) (s : State), Yields (.path c) s (s.safeServe c 0x090A)) ∧
  (∀ (c : Fin 96) (s : State), Yields (.clear c) s (s.safeServe c 0x090B))

/-- ENTER for STROLL or RETAIN takes the command, opens the vote of transition 17 or 16 and owes the answer; another target, or a transition in progress, is refused. DOMAINS switches the domains and SRAM groups of its word and keeps it, or names a domain in use with 0x8009. STROLL_CFG and VIN write their registers and keep them. FLASK_INFO answers the record's state, RESUME restores the offered record and consumes it, DISCARD consumes it; with none offered both answer 0x8071. Details of refusals are deduced (logs 44 and 64). Every command named here completes, from every state and with all operands: the last clauses give the operation that is its own effect. -/
def Obligations.PowerMessages : Prop :=
  (∀ (c : Fin 96) (m : List Byte) (t : Nat) (s : State),
      ((s.asks c m 0x0B01 1 true = true ∧ c.val ≤ 3 ∧ s.mode ∈ [4, 7] ∧ plN (msgPl m) 0 1 = t ∧ (t = 9 ∨ t = 10) ∧ s.busy = false ∧ s.trans = none ∧ s.noTxn = true)) →
      Leaves (.enter c) s (fun u => u.chan c = (s.chan c).drop 1 ∧ u.chan (retChan c) = s.chan (retChan c) ∧ u.pwr.owed = some ⟨c, m⟩ ∧ u.pwr.vote.isSome = true ∧ u.trans = some ⟨if t = 10 then 16 else 17, t, 1, s.mode⟩ ∧ u.busy = true ∧ u.mode = s.mode ∧ u.mem = s.mem ∧ u.pending = s.pending)) ∧
  (∀ (c : Fin 96) (m : List Byte) (t : Nat) (s : State),
      ((s.asks c m 0x0B01 1 true = true ∧ c.val ≤ 3 ∧ s.mode ∈ [4, 7] ∧ plN (msgPl m) 0 1 = t ∧ ((t ≠ 9 ∧ t ≠ 10) ∨ s.busy = true))) →
      Told (.enter c) s (c) (m) (if s.busy then 0x8007 else 0x8005) (if s.busy then s.fld SYS_MODE_TARGET else 0) (0) ([])) ∧
  (∀ (c : Fin 96) (m : List Byte) (w : Nat) (s : State),
      ((s.asks c m 0x0B02 4 true = true ∧ c.val ≤ 3 ∧ s.mode = 4 ∧ plN (msgPl m) 0 4 = w ∧ ∀ e ∈ domBits, w.testBit e.1 = true ∨ s.domSt e.2 = 0 ∨ s.domHeld e.2 = false)) →
      Answers (.domains c) s (c) (m) (0) (0) (0) ([]) (fun u => (∀ e ∈ domBits, u.domSt e.2 = if w.testBit e.1 then (if s.domSt e.2 = 0 then 3 else s.domSt e.2) else 0) ∧ u.domSt 7 = s.domSt 7 ∧ u.domSt 9 = s.domSt 9 ∧ storeGet (fun _ => none) u.fw.cfg PWR_DOMSTAT = some (w32 w) ∧
  (∀ g : Fin 11, u.sgOff (g.val + 1) = !w.testBit (6 + g.val)) ∧ u.mode = s.mode)) ∧
  (∀ (c : Fin 96) (m : List Byte) (w d : Nat) (s : State),
      (s.asks c m 0x0B02 4 true = true ∧ c.val ≤ 3 ∧ s.mode = 4 ∧ plN (msgPl m) 0 4 = w ∧ (domBits.find? (fun e => !w.testBit e.1 && s.domSt e.2 != 0 && s.domHeld e.2)).map (fun e => e.2) = some d) →
      Told (.domains c) s (c) (m) (0x8009) (d) (0) ([])) ∧
  (∀ (c : Fin 96) (m : List Byte) (s : State),
      (s.asks c m 0x0B03 44 true = true ∧ c.val ≤ 3 ∧ s.mode ∈ [4, 7] ∧ plN (msgPl m) 40 4 ≤ 65535 ∧ s.domOn 0 = true) →
      Answers (.strollCfg c) s (c) (m) (0) (0) (0) ([]) (fun u => u.regN PWR_SPER = min 10000 (max 1 (plN (msgPl m) 0 4 % 16384)) ∧ u.regN PWR_SCELLS = plN (msgPl m) 24 4 ∧ u.fld PWR_VOTE_WIN = min 50000 (max 100 (plN (msgPl m) 40 4)) ∧ u.regN PWR_WAKE % 128 = (plN (msgPl m) 32 4 % 128 ||| 15) ∧ u.regN PWR_WAKESEC = plN (msgPl m) 36 4 ∧
  u.pair PWR_SNPMASK_LO = plN (msgPl m) 8 8 ∧ storeGet (fun _ => none) u.fw.cfg PWR_SCELLS = some (w32 (plN (msgPl m) 24 4)) ∧ u.mem = s.mem ∧ u.raises = s.raises)) ∧
  (∀ (c : Fin 96) (m : List Byte) (s : State),
      (s.asks c m 0x0B04 0 false = true ∧ c.val ≤ 3 ∧ s.flag MEM_FLASK_VALID = false) →
      Told (.flaskInfo c) s (c) (m) (0) (0) (0) (leBytes 4 (s.regN MEM_FLASK) ++ List.replicate 13 0)) ∧
  (∀ (c : Fin 96) (m : List Byte) (a : Nat) (s : State),
      (s.asks c m 0x0B04 0 false = true ∧ c.val ≤ 3 ∧ s.flag MEM_FLASK_VALID = true ∧ a = 0x20200000 + 0x14000 * s.fld MEM_FLASK_LAST) →
      Told (.flaskInfo c) s (c) (m) (0) (0) (0) (leBytes 4 (s.regN MEM_FLASK) ++ s.bytes (a + 4) 4 ++ s.bytes (a + 0x10) 4 ++ s.bytes (a + 0x0C) 4 ++ [if s.pwr.offer.isSome then 1 else if s.mem32 (a + 4) ∈ s.pwr.used then 2 else 0])) ∧
  (∀ (c : Fin 96) (m : List Byte) (a : Nat) (s : State),
      (s.asks c m 0x0B05 0 true = true ∧ c.val ≤ 3 ∧ s.mode = 4 ∧ s.pwr.safeop = false ∧ s.pwr.offer = some a) →
      Answers (.resume c) s (c) (m) (0) (0) (0) ([]) (fun u => u.pwr.offer = none ∧ u.pwr.used = s.pwr.used ++ [s.mem32 (a + 4)] ∧ (∀ d : Fin 4, sgn 32 (u.regN (TIME_DOM_ADJ d)) = clampI (-4294967) 4294967 (sgn 32 (s.mem32 (a + 0x50 + 24 * d.val)))) ∧ u.mode = s.mode ∧
  (∀ k : Fin 256, s.flag (LOOP_CTX_CTRL_EN k) = false → u.fld (LOOP_CTX_CTRL_AUTO k) = s.mem32 (a + 0x1000 + 0x120 * k.val + 272) % 2))) ∧
  (∀ (c : Fin 96) (m : List Byte) (s : State),
      ((s.asks c m 0x0B05 0 true = true ∧ c.val ≤ 3 ∧ s.mode = 4 ∧ (s.pwr.safeop = true ∨ s.pwr.offer = none))) →
      Told (.resume c) s (c) (m) (if s.pwr.safeop then 0x8006 else 0x8071) (if s.pwr.safeop then 4 else 0) (0) ([])) ∧
  (∀ (c : Fin 96) (m : List Byte) (a : Nat) (s : State),
      (s.asks c m 0x0B06 0 true = true ∧ c.val ≤ 3 ∧ s.mode = 4 ∧ s.pwr.offer = some a) →
      Answers (.discard c) s (c) (m) (0) (0) (0) ([]) (fun u => u.pwr = { s.pwr with offer := none, used := s.pwr.used ++ [s.mem32 (a + 4)] } ∧ u.raises = s.raises ∧ u.mem = s.mem)) ∧
  (∀ (c : Fin 96) (m : List Byte) (s : State),
      (s.asks c m 0x0B06 0 true = true ∧ c.val ≤ 3 ∧ s.mode = 4 ∧ s.pwr.offer = none) →
      Told (.discard c) s (c) (m) (0x8071) (0) (0) ([])) ∧
  (∀ (c : Fin 96) (m : List Byte) (s : State),
      (s.asks c m 0x0B07 4 true = true ∧ c.val ≤ 3 ∧ s.domOn 0 = true) →
      Answers (.vin c) s (c) (m) (0) (0) (0) ([]) (fun u => u.fld PWR_VINCFG_WARN = plN (msgPl m) 2 2 ∧ u.fld PWR_VINCFG_TRIP = min 11000 (max 8000 (plN (msgPl m) 0 2)) ∧ storeGet (fun _ => none) u.fw.cfg PWR_VINCFG = some (w32 (plN (msgPl m) 0 4)) ∧ u.mem = s.mem ∧ u.raises = s.raises)) ∧
  (∀ (c : Fin 96) (s : State), Yields (.enter c) s (s.fwServe c 0x0B01 false true modesPX (fixLen 1) State.cmdEnter)) ∧
  (∀ (c : Fin 96) (s : State), Yields (.domains c) s (s.fwServe c 0x0B02 false true [modePREOP] (fixLen 4) State.cmdDomains)) ∧
  (∀ (c : Fin 96) (s : State), Yields (.strollCfg c) s (s.fwServe c 0x0B03 false true modesPX (fixLen 44) State.cmdStrollCfg)) ∧
  (∀ (c : Fin 96) (s : State), Yields (.flaskInfo c) s (s.fwServe c 0x0B04 false false anyMode (fixLen 0) State.cmdFlaskInfo)) ∧
  (∀ (c : Fin 96) (s : State), Yields (.resume c) s (s.fwServe c 0x0B05 false true [modePREOP] (fixLen 0) State.cmdResume)) ∧
  (∀ (c : Fin 96) (s : State), Yields (.discard c) s (s.fwServe c 0x0B06 false true [modePREOP] (fixLen 0) State.cmdDiscard)) ∧
  (∀ (c : Fin 96) (s : State), Yields (.vin c) s (s.fwServe c 0x0B07 false true anyMode (fixLen 4) State.cmdVin))

/-- LINE_CONFIG takes a valid image into the service, LINE_START starts it with the axes of its image, LINE_STOP ends it at standstill and frees its engines; LINE_SPEED sets the virtual master's target, stored in SAFESTOP; LINE_ENGAGE engages or disengages an axis, refused above PHSPD; LINE_PHASE adds to or sets a phase; LINE_STATUS and LINE_AXIS answer; each is refused 0x8082 in the wrong state. At a cycle start every axis' set-point is computed and written to its two network values; an overrun is counted and reported, the third in a row stops the master. Details of refusals, the sum of relative phases and the speed of a phase are deduced (logs 65, 69 and 70). Every command named here completes, from every state and with all operands: the last clauses give the operation that is its own effect. -/
def Obligations.LineService : Prop :=
  (∀ (c : Fin 96) (m : List Byte) (b : List Byte) (s : State),
      (s.asks c m 0x0681 9 true = true ∧ c.val ≤ 3 ∧ s.mode = 4 ∧ s.bufOk (bufAt (msgPl m) 0) = true ∧ s.getBlock (bufAt (msgPl m) 0).1 (bufAt (msgPl m) 0).2 = b ∧ 32 ≤ (bufAt (msgPl m) 0).2 ∧ (plN (msgPl m) 8 1).testBit 0 = true) →
      (s.line.running = false ∧ lineImageOk b = true ∧ b.length = 32 + 16 * plN b 2 2 ∧ s.lineBlocked = false ∧ s.lineFast b = false) →
      Answers (.lineConfig c) s (c) (m) (0) (0) (0) ([]) (fun u => u.line.image = some b ∧ u.line.mram = some b ∧ u.line.holds = true ∧ u.line.running = false ∧ u.regN (LAU_VM_ACC (plN b 4 1 % 2)) = plN b 12 4 ∧ u.regN (LAU_VM_JERK (plN b 4 1 % 2)) = plN b 16 4 ∧ (plN b 5 1 = 0 → u.fld (LAU_CFG_SRC (plN b 4 1 % 2)) = 3) ∧ u.mem = s.mem)) ∧
  (∀ (c : Fin 96) (m : List Byte) (s : State),
      ((s.asks c m 0x0681 9 true = true ∧ c.val ≤ 3 ∧ s.mode = 4 ∧ (s.line.running = true ∨ s.bufOk (bufAt (msgPl m) 0) = false ∨ (bufAt (msgPl m) 0).2 < 32))) →
      Told (.lineConfig c) s (c) (m) (if s.line.running then 0x8082 else 0x8003) (0) (0) ([])) ∧
  (∀ (c : Fin 96) (m : List Byte) (b : List Byte) (s : State),
      (s.asks c m 0x0682 0 true = true ∧ c.val ≤ 3 ∧ s.mode = 4 ∧ s.line.image = some b ∧ s.line.running = false ∧ s.lineBlocked = false ∧ s.lineFast b = false ∧ s.line.holds = true) →
      Answers (.lineStart c) s (c) (m) (0) (0) (0) ([]) (fun u => u.line.running = true ∧ u.line.axes = lineAxes b ∧ u.line.ovr = 0 ∧ u.line.image = some b ∧ u.line.stored = none ∧ u.mem = s.mem ∧ u.raises = s.raises)) ∧
  (∀ (c : Fin 96) (m : List Byte) (s : State),
      ((s.asks c m 0x0682 0 true = true ∧ c.val ≤ 3 ∧ s.mode = 4 ∧ (s.line.image = none ∨ s.line.running = true))) →
      Told (.lineStart c) s (c) (m) (0x8082) (0) (0) ([])) ∧
  (∀ (c : Fin 96) (m : List Byte) (s : State),
      (s.asks c m 0x0683 0 true = true ∧ c.val ≤ 3 ∧ s.mode = 4 ∧ s.line.running = true ∧ (s.lauSt s.lineLau).omega = 0 ∧ 0 < spdOf (s.regN (LAU_MINSPD s.lineLau))) →
      Answers (.lineStop c) s (c) (m) (0) (0) (0) ([]) (fun u => u.line = { s.line with running := false, holds := false, stored := none } ∧ (∀ k : Fin 8, u.flag (ENG_CTRL_RUN (8 + k)) = false) ∧ u.mode = s.mode)) ∧
  (∀ (c : Fin 96) (m : List Byte) (s : State),
      ((s.asks c m 0x0683 0 true = true ∧ c.val ≤ 3 ∧ s.mode = 4 ∧ (s.line.running = false ∨ spdOf (s.regN (LAU_MINSPD s.lineLau)) ≤ (s.lauSt s.lineLau).omega))) →
      Told (.lineStop c) s (c) (m) (0x8082) (0) (0) ([])) ∧
  (∀ (c : Fin 96) (m : List Byte) (v : Nat) (s : State),
      (s.asks c m 0x0684 4 true = true ∧ s.mode ∈ [4, 5, 6, 7, 8] ∧ plN (msgPl m) 0 4 = v ∧ s.line.running = true) →
      Answers (.lineSpeed c) s (c) (m) (0) (0) (0) ([]) (fun u => u.regN (LAU_VM_SPD s.lineLau) = (if s.mode = 7 then s.regN (LAU_VM_SPD s.lineLau) else v) ∧ u.line = (if s.mode = 7 then { s.line with stored := some (w32 v) } else s.line) ∧ u.mem = s.mem)) ∧
  (∀ (c : Fin 96) (m : List Byte) (a : Nat) (x : AxisSt) (s : State),
      (s.asks c m 0x0685 3 true = true ∧ s.mode ∈ [4, 5, 6, 8] ∧ plN (msgPl m) 0 2 = a ∧ plN (msgPl m) 2 1 = 0 ∧ s.line.running = true ∧ s.line.axes[a]? = some x) →
      Answers (.lineEngage c) s (c) (m) (0) (0) (0) ([]) (fun u => u.line = (if x.engaged then { s.line with axes := s.line.axes.set a { x with engaged := false, moving := true } } else s.line) ∧ u.mem = s.mem)) ∧
  (∀ (c : Fin 96) (m : List Byte) (a : Nat) (x : AxisSt) (s : State),
      (s.asks c m 0x0685 3 true = true ∧ s.mode ∈ [4, 5, 6, 8] ∧ plN (msgPl m) 0 2 = a ∧ plN (msgPl m) 2 1 = 1 ∧ s.line.running = true ∧ s.line.axes[a]? = some x ∧ x.engaged = false ∧ (s.axisRest x).natAbs ≤ (spdOf (s.lineF 20 4)).natAbs ∧ 0 ≤ spdOf (s.lineF 20 4)) →
      Answers (.lineEngage c) s (c) (m) (0) (0) (0) ([]) (fun u => u.line.axes.map (fun y => y.engaged) = (s.line.axes.set a { x with engaged := true }).map (fun y => y.engaged) ∧ (u.line.axes[a]?).map (fun y => (y.spd, y.moving)) = some (s.axisRest x, true) ∧ u.mem = s.mem)) ∧
  (∀ (c : Fin 96) (m : List Byte) (a : Nat) (x : AxisSt) (s : State),
      (s.asks c m 0x0685 3 true = true ∧ s.mode ∈ [4, 5, 6, 8] ∧ plN (msgPl m) 0 2 = a ∧ plN (msgPl m) 2 1 = 1 ∧ s.line.running = true ∧ s.line.axes[a]? = some x ∧ x.engaged = false ∧ spdOf (s.lineF 20 4) < s.axisRest x) →
      Told (.lineEngage c) s (c) (m) (0x8081) (a % 256) (a / 256) ([])) ∧
  (∀ (c : Fin 96) (m : List Byte) (a : Nat) (s : State),
      ((s.asks c m 0x0685 3 true = true ∧ s.mode ∈ [4, 5, 6, 8] ∧ plN (msgPl m) 0 2 = a ∧ (s.line.running = false ∨ s.line.axes.length ≤ a))) →
      Told (.lineEngage c) s (c) (m) (if s.line.running then 0x8005 else 0x8082) (0) (0) ([])) ∧
  (∀ (c : Fin 96) (m : List Byte) (a k : Nat) (s : State),
      ((s.asks c m 0x0686 8 true = true ∧ s.mode ∈ [4, 5, 6, 8] ∧ plN (msgPl m) 0 2 = a ∧ plN (msgPl m) 2 1 = k ∧ k ≤ 1 ∧ s.line.running = true ∧ (a = 0xFFFF ∨ a < s.line.axes.length))) →
      Answers (.linePhase c) s (c) (m) (0) (0) (0) ([]) (fun u => u.line.axes.length = s.line.axes.length ∧ (∀ i < s.line.axes.length, u.line.axes[i]? = (s.line.axes[i]?).map (fun x => if a = 0xFFFF ∨ a = i then { x with phase := (if k = 1 then 0 else x.phase) + sgn 32 (plN (msgPl m) 4 4) } else x)) ∧ u.mem = s.mem)) ∧
  (∀ (c : Fin 96) (m : List Byte) (s : State),
      (s.asks c m 0x0687 0 false = true) →
      Told (.lineStatus c) s (c) (m) (0) (0) (0) (leBytes 8 ((s.lauSt s.lineLau).theta / 2 ^ 32) ++ leBytes 4 (s.regN (LAU_SPD s.lineLau)) ++ leBytes 2 (s.line.axes.filter (fun x => x.engaged)).length ++ leBytes 2 (s.line.axes.filter (fun x => x.moving)).length ++ leBytes 4 s.line.ovr ++ leBytes 4 s.line.maxNs)) ∧
  (∀ (c : Fin 96) (m : List Byte) (x : AxisSt) (s : State),
      (s.asks c m 0x0688 2 false = true ∧ s.line.axes[plN (msgPl m) 0 2]? = some x) →
      Told (.lineAxis c) s (c) (m) (0) (0) (0) (leBytes 8 x.last ++ leBytes 4 (uns 32 (x.phi / 2 ^ 96)) ++ leBytes 4 (q1616 x.spd 1000000000) ++ [(if x.engaged then 1 else 0) + (if x.moving then 2 else 0)])) ∧
  (∀ (c : Fin 96) (m : List Byte) (s : State),
      (s.asks c m 0x0688 2 false = true ∧ s.line.axes.length ≤ plN (msgPl m) 0 2) →
      Told (.lineAxis c) s (c) (m) (0x8005) (0) (0) ([])) ∧
  (∀ (ns : Word) (s : State),
      s.line.running = false →
      Yields (.lineCycle ns) s (s)) ∧
  (∀ (ns : Word) (x : AxisSt) (s : State),
      (s.line.running = true ∧ s.line.axes = [x] ∧ s.lineFlag 1 = false ∧ s.lineFlag 2 = false ∧ s.lineStopped = false) →
      Leaves (.lineCycle ns) s (fun u => u.line.maxNs = max s.line.maxNs ns.toNat ∧ u.line.axes = [{ s.axisMove s.lineCycleNs x with last := uns 64 (s.axisSet (s.axisMove s.lineCycleNs x) s.lineTheta) }] ∧ u.line.hit = false ∧ u.line.inRow = (if s.line.hit then s.line.inRow else 0) ∧ u.mem = s.mem ∧
  ((x.set + 1) % 4096 ≠ x.set → u.regN (LOOP_NV x.set) + 2 ^ 32 * u.regN (LOOP_NV ((x.set + 1) % 4096)) = uns 64 (s.axisSet (s.axisMove s.lineCycleNs x) s.lineTheta)) ∧ u.pending = s.pending)) ∧
  (∀ (s : State),
      s.line.running = false →
      Yields (.lineOverrun) s (s)) ∧
  (∀ (n : Nat) (s : State),
      (s.line.running = true ∧ n = (if s.line.hit then s.line.inRow else s.line.inRow + 1) ∧ s.fw.running = true ∧ s.fw.notices = [] ∧ (s.chan 4).length + 2 ≤ 16) →
      (s.asleep = false ∧ s.pwr.vote = none ∧ s.chanFull 4 = false) →
      Leaves (.lineOverrun) s (fun u => u.line = { s.line with ovr := s.line.ovr + 1, inRow := n, hit := true } ∧ u.regN (LAU_VM_SPD s.lineLau) = (if n = 3 then 0 else s.regN (LAU_VM_SPD s.lineLau)) ∧ (u.chan 4).length + u.fw.notices.length = (s.chan 4).length + (if n = 3 then 2 else 1) ∧ u.mem = s.mem ∧ u.pending = s.pending)) ∧
  (∀ (c : Fin 96) (s : State), Yields (.lineConfig c) s (s.fwServe c 0x0681 false true [modePREOP] (fixLen 9) State.cmdLineConfig)) ∧
  (∀ (c : Fin 96) (s : State), Yields (.lineStart c) s (s.fwServe c 0x0682 false true [modePREOP] (fixLen 0) State.cmdLineStart)) ∧
  (∀ (c : Fin 96) (s : State), Yields (.lineStop c) s (s.fwServe c 0x0683 false true [modePREOP] (fixLen 0) State.cmdLineStop)) ∧
  (∀ (c : Fin 96) (s : State), Yields (.lineSpeed c) s (s.fwServe c 0x0684 true true modesPSOXD (fixLen 4) State.cmdLineSpeed)) ∧
  (∀ (c : Fin 96) (s : State), Yields (.lineEngage c) s (s.fwServe c 0x0685 true true modesPSOD (fixLen 3) State.cmdLineEngage)) ∧
  (∀ (c : Fin 96) (s : State), Yields (.linePhase c) s (s.fwServe c 0x0686 true true modesPSOD (fixLen 8) State.cmdLinePhase)) ∧
  (∀ (c : Fin 96) (s : State), Yields (.lineStatus c) s (s.fwServe c 0x0687 true false anyMode (fixLen 0) State.cmdLineStatus)) ∧
  (∀ (c : Fin 96) (s : State), Yields (.lineAxis c) s (s.fwServe c 0x0688 true false anyMode (fixLen 2) State.cmdLineAxis)) ∧
  (∀ (ns : Word) (s : State), Yields (.lineCycle ns) s (s.lineCycle ns.toNat)) ∧
  (∀ (s : State), Yields (.lineOverrun) s (s.lineOverrun))

/-- Sources 384 to 511 are reserved and their pairs tied to no fault (and in the same way the indices below 384 that R281 does not list): no event of a detector (a raise, its end, a wiring fault) of one changes anything, so that a pair that reads no fault goes on doing so; forced, such a source raises and is recorded like any other, with FORCED set. That an index below 384 that R281 does not list is reserved in the same way is deduced (log 98). -/
def Obligations.ReservedSources : Prop :=
  (∀ (src : Fin 512) (fault : Bool) (info : Word) (s : State),
      srcListed src = false →
      Yields (.fcuRaise src fault info) s (s)) ∧
  (∀ (src : Fin 512) (s : State),
      srcListed src = false →
      Yields (.wiringFault src) s (s)) ∧
  (∀ (m : Master) (j : Fin 16) (b : Fin 32) (r : Nat) (s : State),
      (s.grants m (FCU_FORCE j) (w32 (2 ^ b.val)) = true ∧ srcListed (32 * j + b) = false ∧ s.mode ≠ modeOFF) →
      (s.reg (FCU_FORCE j) = 0 ∧ s.flag FCU_CTRL_FORCEWIR = false ∧ s.pairFault (32 * j + b) = false ∧ s.pairBad (32 * j + b) = false) →
      (s.asleep = false ∧ s.pwr.vote = none ∧ s.fcu.windows = [] ∧ s.flag FCU_STAT_SELF = false ∧ s.fcu.newest = none) →
      ((s.srcCfg (32 * j + b)).1 ≤ 3 ∧ (s.srcCfg (32 * j + b)).2 ≤ 1 ∧ r = s.fld FCU_STAT_NEXT ∧ s.recPending r = false) →
      Leaves (.fcuForce m j (w32 (2 ^ b.val))) s (fun u => u.pairFault (32 * j + b) = true ∧ u.bitAt (FCU_SEEN 0) (32 * j + b) = true ∧ u.fld (FCU_REC_W0_SRC r) = 32 * j + b ∧ u.flag (FCU_REC_W2_FORCED r) = true ∧ u.flag (FCU_REC_W0_WIRING r) = false ∧
  u.raises = s.raises ∧ u.pending = s.pending))

/-- For every master with a view of the bus (Cardamom has none, R19), size and address of a range that the map calls unmapped: a read returns 0, a write is ignored, and either is a class 0 note; no register, no byte of memory and no queue changes (a thread's engine also shows the refusal in PERMDENY). Nothing happens where the host port is held in reset. That Cardamom reaches nothing is deduced (log 155). -/
def Obligations.UnmappedAccess : Prop :=
  (∀ (m : Master) (a : Word) (n : Fin 9) (v : BitVec 64) (s : State),
      ((unmapped a.toNat = true ∧ m ≠ .cardamom ∧ (m = .host → s.isHeld .host = false) ∧ ∀ (e : Fin 16) (t : Fin 4), m ≠ .thread e t)) →
      Effect (.registerWrite m a n v) s ([]) ([(14, 0, false)]) (fun u => True)) ∧
  (∀ (m : Master) (a : Word) (n : Fin 9) (s : State),
      ((unmapped a.toNat = true ∧ m ≠ .cardamom ∧ (m = .host → s.isHeld .host = false) ∧ ∀ (e : Fin 16) (t : Fin 4), m ≠ .thread e t)) →
      Effect (.readClear m a n) s ([]) ([(14, 0, false)]) (fun u => u.rdata = 0)) ∧
  (∀ (e : Fin 16) (t : Fin 4) (a : Word) (n : Fin 9) (v : BitVec 64) (s : State),
      unmapped a.toNat = true →
      Effect (.registerWrite (.thread e t) a n v) s ([ENG_STAT e]) ([(14, 0, false)]) (fun u => u.flag (ENG_STAT_PERMDENY e) = true)) ∧
  (∀ (e : Fin 16) (t : Fin 4) (a : Word) (n : Fin 9) (s : State),
      unmapped a.toNat = true →
      Effect (.readClear (.thread e t) a n) s ([ENG_STAT e]) ([(14, 0, false)]) (fun u => u.rdata = 0 ∧ u.flag (ENG_STAT_PERMDENY e) = true))

/-- For every state with no notice waiting while channel 4 takes messages, every step (any command, or a cycle of the clock) answers a state of the same kind: firmware never holds a notice back. It also holds at reset. That notices go out before the next command is the model's choice (log 4). -/
def Obligations.NoNoticeWaits : Prop :=
  State.reset.NoticesOut ∧ ∀ s s' : State, s.NoticesOut → step s = .next s' → s'.NoticesOut

/-- From every state, reachable or not, every step of every run answers a next state, and so does the meaning of every command on every operand: the specification gives every command its effect on every operand, so that none ends in a fault or a refusal of the model. -/
def Obligations.NoRunStops : Prop :=
  (∀ s : State, Safe s) ∧ ∀ (c : Instr) (s : State), ∃ t, Machine.exec c s = .next t

/-- After reset no command waits, nothing is raised, memory lists nothing and every store is in canonical form; the device is in BOOT with BUSY set, the always-on, safety and host-port domains alone are on, firmware does not run, every mailbox channel is empty; and every block's registers read the reset values of its tables (named here for at least one register of each block). -/
def Obligations.ResetValues : Prop :=
  State.reset.pending = [] ∧ State.reset.Calm ∧ State.reset.mem = [] ∧ State.reset.Canonical ∧ State.reset.mode = modeBOOT ∧ State.reset.busy = true ∧
    (∀ d < 12, State.reset.domOn d = decide (d < 3)) ∧ State.reset.fw.running = false ∧ (∀ c < 96, State.reset.chan c = []) ∧
    State.reset.regN SYS_ID = 0x721600B1 ∧ State.reset.regN SYS_MODE = 0x01100001 ∧ State.reset.regN PWR_DOMSTAT = 0x15 ∧
    State.reset.fld PWR_VINCFG_WARN = 10800 ∧ State.reset.fld PWR_VINCFG_TRIP = 9600 ∧ State.reset.fld PWR_VOTE_WIN = 2000 ∧ State.reset.regN PWR_SPER = 100 ∧
    State.reset.fld FCU_CTRL_FNMIN = 2 ∧ (∀ c < 96, State.reset.flag (MBX_CH_CFG_EN c) = true) ∧ State.reset.fld TIME_PPS_CTRL_TOL = 200 ∧
    (∀ d < 4, State.reset.fld (TIME_DOM_STAT_STATE d) = 0) ∧ (∀ k < 2, State.reset.regN (LAU_CPT_NUM k) = 65536 ∧ State.reset.regN (LAU_VM_ACC k) = 0x10000) ∧
    State.reset.flag (ITIN_SLOT_CTRL_ARM 511) = false ∧ (∀ n < 16, State.reset.fld (EDGE_EP_PW_PW n) = 8) ∧ (∀ p < 12, State.reset.fld (MAC_MAXLEN_MAXLEN p) = 1522) ∧
    (∀ p < 32, State.reset.regN (SWX_NETCYC p) = 1000000 ∧ State.reset.fld (SWX_PCPMAP_MAP p) = 0xFAC688) ∧ State.reset.fld BUF_LOW_CELLS = 0x7FFFF ∧
    (∀ e < 16, State.reset.fld (ENG_PERMR_MASK e) = 0x3FFFFF ∧ State.reset.fld (ENG_PERMW_MASK e) = 0 ∧ State.reset.flag (ENG_CTRL_RUN e) = false) ∧
    (∀ i < 16, State.reset.fld (DISP_TMR_PER_NS i) = 1000000) ∧ (∀ n < 4, State.reset.flag (CAN_CTRL_INIT n) = true ∧ State.reset.flag (CAN_STAT_INITACK n) = true) ∧
    (∀ c < 32, State.reset.fld (NUT_CLK_DIVM1 c) = 19 ∧ State.reset.regN (NUT_PROG c 31) = 0x0100) ∧ State.reset.regN LOOP_CAP_LEN = 65536 ∧
    State.reset.regN SAF_STAT = 0 ∧ State.reset.flag MEM_CTRL_SCRUBEN = true ∧ State.reset.fld MEM_CTRL_SCRUBPER = 1000 ∧
    State.reset.fld TXN_CFG_TIMEOUT = 100 ∧ State.reset.fld TXN_CFG_ARMMAX = 10 ∧ (∀ n < 16, State.reset.fld (PIN_EP_DRIVE n) = 1)
end

