-- ==== Sys2Proof/Laws/Store.lean ====
section
/-! SUPPORT. Reading a sparse store after an operation on it, and the canonical form every operation keeps. -/

namespace Sys2Proof.Machine

open Sys2Proof

variable {α : Type}

/-! ### Reading -/

@[simp] theorem storeGet_nil (d : Nat → α) (k : Nat) : storeGet d [] k = d k := rfl

theorem storeGet_erase_self (d : Nat → α) (l : List (Nat × α)) (k : Nat) : storeGet d (storeErase l k) k = d k := by
  induction l with
  | nil => rfl
  | cons e t ih => obtain ⟨a, v⟩ := e; by_cases h : k = a <;> simp [storeErase, storeGet, h, ih]
                   exact h ▸ ih

theorem storeGet_erase_ne (d : Nat → α) (l : List (Nat × α)) {k j : Nat} (h : j ≠ k) :
    storeGet d (storeErase l k) j = storeGet d l j := by
  induction l with
  | nil => rfl
  | cons e t ih =>
    obtain ⟨a, v⟩ := e
    by_cases h1 : k = a
    · subst h1; simp [storeErase, storeGet, h, ih]
    · simp [storeErase, storeGet, h1, ih]

variable [DecidableEq α]

theorem storeGet_cell_append (d : Nat → α) (k : Nat) (v : α) (l : List (Nat × α)) (j : Nat) :
    storeGet d (storeCell d k v ++ storeErase l k) j = if j = k then v else storeGet d l j := by
  by_cases h : j = k
  · subst h
    unfold storeCell
    split
    · simp_all [storeGet_erase_self]
    · simp [storeGet]
  · unfold storeCell
    split <;> simp [storeGet, h, storeGet_erase_ne]

/-- A store reads the value set at the key, and every other key as before. -/
theorem storeGet_set (d : Nat → α) (l : List (Nat × α)) (k : Nat) (v : α) (j : Nat) :
    storeGet d (storeSet d l k v) j = if j = k then v else storeGet d l j := by
  induction l with
  | nil => simpa [storeSet, storeErase] using storeGet_cell_append d k v [] j
  | cons e t ih =>
    obtain ⟨a, w⟩ := e
    unfold storeSet
    split
    next h =>
      by_cases h1 : j = a
      · have h2 : j ≠ k := by omega
        simp [storeGet, h1]; intro h3; omega
      · simp [storeGet, h1, ih]
    next h => exact storeGet_cell_append d k v _ j

@[simp] theorem storeGet_set_same (d : Nat → α) (l : List (Nat × α)) (k : Nat) (v : α) : storeGet d (storeSet d l k v) k = v := by
  simp [storeGet_set]

theorem storeGet_set_ne (d : Nat → α) (l : List (Nat × α)) {k j : Nat} (v : α) (h : j ≠ k) :
    storeGet d (storeSet d l k v) j = storeGet d l j := by
  simp [storeGet_set, h]

omit [DecidableEq α] in
/-- A store without the keys that fail `p` reads those as unlisted, and the others as before. -/
theorem storeGet_filter (d : Nat → α) (l : List (Nat × α)) (p : Nat → Bool) (j : Nat) :
    storeGet d (l.filter (fun e => p e.1)) j = if p j then storeGet d l j else d j := by
  induction l with
  | nil => simp
  | cons e t ih =>
    obtain ⟨a, v⟩ := e
    by_cases h : p a
    · by_cases h1 : j = a
      · subst h1; simp [h, storeGet]
      · simp [h, storeGet, h1, ih]
    · by_cases h1 : j = a
      · subst h1; simp [h, ih]
      · simp [h, storeGet, h1, ih]

/-! ### The canonical form -/

theorem storeWfFrom_mono (d : Nat → α) {b c : Nat} (h : c ≤ b) (l : List (Nat × α)) (hl : storeWfFrom d b l = true) :
    storeWfFrom d c l = true := by
  cases l with
  | nil => rfl
  | cons e t =>
    obtain ⟨a, v⟩ := e
    simp only [storeWfFrom, Bool.and_eq_true, decide_eq_true_eq] at hl ⊢
    exact ⟨⟨by omega, hl.1.2⟩, hl.2⟩

/-- Dropping keys keeps the canonical form. -/
theorem storeWfFrom_filter (d : Nat → α) (p : Nat → Bool) (l : List (Nat × α)) (b : Nat) (hl : storeWfFrom d b l = true) :
    storeWfFrom d b (l.filter (fun e => p e.1)) = true := by
  induction l generalizing b with
  | nil => rfl
  | cons e t ih =>
    obtain ⟨a, v⟩ := e
    simp only [storeWfFrom, Bool.and_eq_true, decide_eq_true_eq] at hl
    by_cases h : p a
    · simp [h, storeWfFrom, hl.1.1, hl.1.2, ih _ hl.2]
    · simpa [h] using storeWfFrom_mono d (by omega) _ (ih _ hl.2)

theorem storeErase_above (d : Nat → α) (l : List (Nat × α)) (b k : Nat) (h : k < b) (hl : storeWfFrom d b l = true) :
    storeErase l k = l := by
  induction l generalizing b with
  | nil => rfl
  | cons e t ih =>
    obtain ⟨a, v⟩ := e
    simp only [storeWfFrom, Bool.and_eq_true, decide_eq_true_eq] at hl
    have h1 : k ≠ a := by omega
    simp [storeErase, h1, ih (a + 1) (by omega) hl.2]

theorem storeWfFrom_cell (d : Nat → α) (k : Nat) (v : α) (l : List (Nat × α)) (hl : storeWfFrom d (k + 1) l = true) :
    storeWfFrom d k (storeCell d k v ++ l) = true := by
  unfold storeCell
  split
  · simpa using storeWfFrom_mono d (by omega) l hl
  · rename_i h; simp [storeWfFrom, h, hl]

/-- Setting a key keeps the canonical form. -/
theorem storeWfFrom_set (d : Nat → α) (l : List (Nat × α)) (b k : Nat) (v : α) (hk : b ≤ k) (hl : storeWfFrom d b l = true) :
    storeWfFrom d b (storeSet d l k v) = true := by
  induction l generalizing b with
  | nil => simpa [storeSet] using storeWfFrom_mono d hk _ (storeWfFrom_cell d k v [] rfl)
  | cons e t ih =>
    obtain ⟨a, w⟩ := e
    have h0 := hl
    simp only [storeWfFrom, Bool.and_eq_true, decide_eq_true_eq] at hl
    unfold storeSet
    split
    next h =>
      simp only [storeWfFrom, Bool.and_eq_true, decide_eq_true_eq]
      exact ⟨hl.1, ih (a + 1) (by omega) hl.2⟩
    next h =>
      refine storeWfFrom_mono d hk _ (storeWfFrom_cell d k v _ ?_)
      by_cases h1 : k = a
      · subst h1
        simpa [storeErase, storeErase_above d t (k + 1) k (by omega) hl.2] using hl.2
      · have h2 : storeWfFrom d (k + 1) ((a, w) :: t) = true := by
          simp only [storeWfFrom, Bool.and_eq_true, decide_eq_true_eq]
          exact ⟨⟨by omega, hl.1.2⟩, hl.2⟩
        rw [storeErase_above d _ (k + 1) k (by omega) h2]
        exact h2

@[simp] theorem storeWf_nil (d : Nat → α) : storeWf d [] = true := rfl

theorem storeWf_set (d : Nat → α) (l : List (Nat × α)) (k : Nat) (v : α) (hl : storeWf d l = true) :
    storeWf d (storeSet d l k v) = true :=
  storeWfFrom_set d l 0 k v (Nat.zero_le k) hl

theorem storeWf_filter (d : Nat → α) (p : Nat → Bool) (l : List (Nat × α)) (hl : storeWf d l = true) :
    storeWf d (l.filter (fun e => p e.1)) = true :=
  storeWfFrom_filter d p l 0 hl

/-- Two stores in canonical form that read the same at every key are the same list. -/
theorem storeWfFrom_ext (d : Nat → α) (b : Nat) (l m : List (Nat × α)) (hl : storeWfFrom d b l = true) (hm : storeWfFrom d b m = true)
    (h : ∀ k, storeGet d l k = storeGet d m k) : l = m := by
  have below : ∀ (l : List (Nat × α)) (b k : Nat), k < b → storeWfFrom d b l = true → storeGet d l k = d k := by
    intro l
    induction l with
    | nil => intros; rfl
    | cons e t ih =>
      intro b k hk hl
      obtain ⟨a, v⟩ := e
      simp only [storeWfFrom, Bool.and_eq_true, decide_eq_true_eq] at hl
      have h1 : k ≠ a := by omega
      simp [storeGet, h1, ih (a + 1) k (by omega) hl.2]
  induction l generalizing b m with
  | nil =>
    cases m with
    | nil => rfl
    | cons e t =>
      obtain ⟨a, v⟩ := e
      simp only [storeWfFrom, Bool.and_eq_true, decide_eq_true_eq] at hm
      have h1 := h a
      simp [storeGet] at h1
      exact absurd h1.symm hm.1.2
  | cons e t ih =>
    obtain ⟨a, v⟩ := e
    simp only [storeWfFrom, Bool.and_eq_true, decide_eq_true_eq] at hl
    cases m with
    | nil =>
      have h1 := h a
      simp [storeGet] at h1
      exact absurd h1 hl.1.2
    | cons e' t' =>
      obtain ⟨a', v'⟩ := e'
      simp only [storeWfFrom, Bool.and_eq_true, decide_eq_true_eq] at hm
      have haa : a = a' := by
        by_contra hne
        rcases Nat.lt_or_gt_of_ne hne with hlt | hlt
        · have h1 := h a
          have h2 := below t' (a' + 1) a (by omega) hm.2
          simp [storeGet, hne, h2] at h1
          exact hl.1.2 h1
        · have h1 := h a'
          have h2 := below t (a + 1) a' (by omega) hl.2
          have h3 : a' ≠ a := fun x => hne x.symm
          simp [storeGet, h3, h2] at h1
          exact hm.1.2 h1.symm
      subst haa
      have hv : v = v' := by have h1 := h a; simpa [storeGet] using h1
      subst hv
      have ht : t = t' := by
        refine ih (a + 1) t' hl.2 hm.2 (fun k => ?_)
        by_cases hk : k = a
        · subst hk; rw [below t (k + 1) k (by omega) hl.2, below t' (k + 1) k (by omega) hm.2]
        · have h1 := h k; simpa [storeGet, hk] using h1
      rw [ht]

end Sys2Proof.Machine
end

