-- ==== Sys2Proof/Laws/State.lean ====
section
/-! SUPPORT. For each operation that updates the state, what each field of the state it does not change holds after it, and what
the registers and fields read after a register is set. -/

namespace Sys2Proof.Machine

open Sys2Proof

variable (s : State)

/-! ### State.setReg -/

@[simp] theorem State.setReg_pending (a : Nat) (v : Word) : (s.setReg a v).pending = s.pending := rfl
@[simp] theorem State.setReg_shadow (a : Nat) (v : Word) : (s.setReg a v).shadow = s.shadow := rfl
@[simp] theorem State.setReg_snaps (a : Nat) (v : Word) : (s.setReg a v).snaps = s.snaps := rfl
@[simp] theorem State.setReg_lows (a : Nat) (v : Word) : (s.setReg a v).lows = s.lows := rfl
@[simp] theorem State.setReg_mem (a : Nat) (v : Word) : (s.setReg a v).mem = s.mem := rfl
@[simp] theorem State.setReg_rdata (a : Nat) (v : Word) : (s.setReg a v).rdata = s.rdata := rfl
@[simp] theorem State.setReg_free (a : Nat) (v : Word) : (s.setReg a v).free = s.free := rfl
@[simp] theorem State.setReg_out (a : Nat) (v : Word) : (s.setReg a v).out = s.out := rfl
@[simp] theorem State.setReg_trans (a : Nat) (v : Word) : (s.setReg a v).trans = s.trans := rfl
@[simp] theorem State.setReg_lowFrom (a : Nat) (v : Word) : (s.setReg a v).lowFrom = s.lowFrom := rfl
@[simp] theorem State.setReg_chans (a : Nat) (v : Word) : (s.setReg a v).chans = s.chans := rfl
@[simp] theorem State.setReg_arrive (a : Nat) (v : Word) : (s.setReg a v).arrive = s.arrive := rfl
@[simp] theorem State.setReg_fcu (a : Nat) (v : Word) : (s.setReg a v).fcu = s.fcu := rfl
@[simp] theorem State.setReg_raises (a : Nat) (v : Word) : (s.setReg a v).raises = s.raises := rfl
@[simp] theorem State.setReg_txn (a : Nat) (v : Word) : (s.setReg a v).txn = s.txn := rfl
@[simp] theorem State.setReg_fw (a : Nat) (v : Word) : (s.setReg a v).fw = s.fw := rfl
@[simp] theorem State.setReg_time (a : Nat) (v : Word) : (s.setReg a v).time = s.time := rfl
@[simp] theorem State.setReg_lau (a : Nat) (v : Word) : (s.setReg a v).lau = s.lau := rfl
@[simp] theorem State.setReg_itin (a : Nat) (v : Word) : (s.setReg a v).itin = s.itin := rfl
@[simp] theorem State.setReg_edge (a : Nat) (v : Word) : (s.setReg a v).edge = s.edge := rfl
@[simp] theorem State.setReg_degFrom (a : Nat) (v : Word) : (s.setReg a v).degFrom = s.degFrom := rfl
@[simp] theorem State.setReg_degTime (a : Nat) (v : Word) : (s.setReg a v).degTime = s.degTime := rfl
@[simp] theorem State.setReg_degPins (a : Nat) (v : Word) : (s.setReg a v).degPins = s.degPins := rfl
@[simp] theorem State.setReg_mac (a : Nat) (v : Word) : (s.setReg a v).mac = s.mac := rfl
@[simp] theorem State.setReg_swx (a : Nat) (v : Word) : (s.setReg a v).swx = s.swx := rfl
@[simp] theorem State.setReg_eng (a : Nat) (v : Word) : (s.setReg a v).eng = s.eng := rfl
@[simp] theorem State.setReg_disp (a : Nat) (v : Word) : (s.setReg a v).disp = s.disp := rfl
@[simp] theorem State.setReg_can (a : Nat) (v : Word) : (s.setReg a v).can = s.can := rfl
@[simp] theorem State.setReg_nut (a : Nat) (v : Word) : (s.setReg a v).nut = s.nut := rfl
@[simp] theorem State.setReg_np (a : Nat) (v : Word) : (s.setReg a v).np = s.np := rfl
@[simp] theorem State.setReg_loop (a : Nat) (v : Word) : (s.setReg a v).loop = s.loop := rfl
@[simp] theorem State.setReg_ecc (a : Nat) (v : Word) : (s.setReg a v).ecc = s.ecc := rfl
@[simp] theorem State.setReg_saf (a : Nat) (v : Word) : (s.setReg a v).saf = s.saf := rfl
@[simp] theorem State.setReg_modeq (a : Nat) (v : Word) : (s.setReg a v).modeq = s.modeq := rfl
@[simp] theorem State.setReg_pwr (a : Nat) (v : Word) : (s.setReg a v).pwr = s.pwr := rfl
@[simp] theorem State.setReg_prot (a : Nat) (v : Word) : (s.setReg a v).prot = s.prot := rfl
@[simp] theorem State.setReg_line (a : Nat) (v : Word) : (s.setReg a v).line = s.line := rfl
@[simp] theorem State.setReg_sys (a : Nat) (v : Word) : (s.setReg a v).sys = s.sys := rfl
@[simp] theorem State.setReg_host (a : Nat) (v : Word) : (s.setReg a v).host = s.host := rfl

/-! ### State.setRegN -/

@[simp] theorem State.setRegN_pending (a n : Nat) : (s.setRegN a n).pending = s.pending := rfl
@[simp] theorem State.setRegN_shadow (a n : Nat) : (s.setRegN a n).shadow = s.shadow := rfl
@[simp] theorem State.setRegN_snaps (a n : Nat) : (s.setRegN a n).snaps = s.snaps := rfl
@[simp] theorem State.setRegN_lows (a n : Nat) : (s.setRegN a n).lows = s.lows := rfl
@[simp] theorem State.setRegN_mem (a n : Nat) : (s.setRegN a n).mem = s.mem := rfl
@[simp] theorem State.setRegN_rdata (a n : Nat) : (s.setRegN a n).rdata = s.rdata := rfl
@[simp] theorem State.setRegN_free (a n : Nat) : (s.setRegN a n).free = s.free := rfl
@[simp] theorem State.setRegN_out (a n : Nat) : (s.setRegN a n).out = s.out := rfl
@[simp] theorem State.setRegN_trans (a n : Nat) : (s.setRegN a n).trans = s.trans := rfl
@[simp] theorem State.setRegN_lowFrom (a n : Nat) : (s.setRegN a n).lowFrom = s.lowFrom := rfl
@[simp] theorem State.setRegN_chans (a n : Nat) : (s.setRegN a n).chans = s.chans := rfl
@[simp] theorem State.setRegN_arrive (a n : Nat) : (s.setRegN a n).arrive = s.arrive := rfl
@[simp] theorem State.setRegN_fcu (a n : Nat) : (s.setRegN a n).fcu = s.fcu := rfl
@[simp] theorem State.setRegN_raises (a n : Nat) : (s.setRegN a n).raises = s.raises := rfl
@[simp] theorem State.setRegN_txn (a n : Nat) : (s.setRegN a n).txn = s.txn := rfl
@[simp] theorem State.setRegN_fw (a n : Nat) : (s.setRegN a n).fw = s.fw := rfl
@[simp] theorem State.setRegN_time (a n : Nat) : (s.setRegN a n).time = s.time := rfl
@[simp] theorem State.setRegN_lau (a n : Nat) : (s.setRegN a n).lau = s.lau := rfl
@[simp] theorem State.setRegN_itin (a n : Nat) : (s.setRegN a n).itin = s.itin := rfl
@[simp] theorem State.setRegN_edge (a n : Nat) : (s.setRegN a n).edge = s.edge := rfl
@[simp] theorem State.setRegN_degFrom (a n : Nat) : (s.setRegN a n).degFrom = s.degFrom := rfl
@[simp] theorem State.setRegN_degTime (a n : Nat) : (s.setRegN a n).degTime = s.degTime := rfl
@[simp] theorem State.setRegN_degPins (a n : Nat) : (s.setRegN a n).degPins = s.degPins := rfl
@[simp] theorem State.setRegN_mac (a n : Nat) : (s.setRegN a n).mac = s.mac := rfl
@[simp] theorem State.setRegN_swx (a n : Nat) : (s.setRegN a n).swx = s.swx := rfl
@[simp] theorem State.setRegN_eng (a n : Nat) : (s.setRegN a n).eng = s.eng := rfl
@[simp] theorem State.setRegN_disp (a n : Nat) : (s.setRegN a n).disp = s.disp := rfl
@[simp] theorem State.setRegN_can (a n : Nat) : (s.setRegN a n).can = s.can := rfl
@[simp] theorem State.setRegN_nut (a n : Nat) : (s.setRegN a n).nut = s.nut := rfl
@[simp] theorem State.setRegN_np (a n : Nat) : (s.setRegN a n).np = s.np := rfl
@[simp] theorem State.setRegN_loop (a n : Nat) : (s.setRegN a n).loop = s.loop := rfl
@[simp] theorem State.setRegN_ecc (a n : Nat) : (s.setRegN a n).ecc = s.ecc := rfl
@[simp] theorem State.setRegN_saf (a n : Nat) : (s.setRegN a n).saf = s.saf := rfl
@[simp] theorem State.setRegN_modeq (a n : Nat) : (s.setRegN a n).modeq = s.modeq := rfl
@[simp] theorem State.setRegN_pwr (a n : Nat) : (s.setRegN a n).pwr = s.pwr := rfl
@[simp] theorem State.setRegN_prot (a n : Nat) : (s.setRegN a n).prot = s.prot := rfl
@[simp] theorem State.setRegN_line (a n : Nat) : (s.setRegN a n).line = s.line := rfl
@[simp] theorem State.setRegN_sys (a n : Nat) : (s.setRegN a n).sys = s.sys := rfl
@[simp] theorem State.setRegN_host (a n : Nat) : (s.setRegN a n).host = s.host := rfl

/-! ### State.setFld -/

@[simp] theorem State.setFld_pending (f : Fld) (n : Nat) : (s.setFld f n).pending = s.pending := rfl
@[simp] theorem State.setFld_shadow (f : Fld) (n : Nat) : (s.setFld f n).shadow = s.shadow := rfl
@[simp] theorem State.setFld_snaps (f : Fld) (n : Nat) : (s.setFld f n).snaps = s.snaps := rfl
@[simp] theorem State.setFld_lows (f : Fld) (n : Nat) : (s.setFld f n).lows = s.lows := rfl
@[simp] theorem State.setFld_mem (f : Fld) (n : Nat) : (s.setFld f n).mem = s.mem := rfl
@[simp] theorem State.setFld_rdata (f : Fld) (n : Nat) : (s.setFld f n).rdata = s.rdata := rfl
@[simp] theorem State.setFld_free (f : Fld) (n : Nat) : (s.setFld f n).free = s.free := rfl
@[simp] theorem State.setFld_out (f : Fld) (n : Nat) : (s.setFld f n).out = s.out := rfl
@[simp] theorem State.setFld_trans (f : Fld) (n : Nat) : (s.setFld f n).trans = s.trans := rfl
@[simp] theorem State.setFld_lowFrom (f : Fld) (n : Nat) : (s.setFld f n).lowFrom = s.lowFrom := rfl
@[simp] theorem State.setFld_chans (f : Fld) (n : Nat) : (s.setFld f n).chans = s.chans := rfl
@[simp] theorem State.setFld_arrive (f : Fld) (n : Nat) : (s.setFld f n).arrive = s.arrive := rfl
@[simp] theorem State.setFld_fcu (f : Fld) (n : Nat) : (s.setFld f n).fcu = s.fcu := rfl
@[simp] theorem State.setFld_raises (f : Fld) (n : Nat) : (s.setFld f n).raises = s.raises := rfl
@[simp] theorem State.setFld_txn (f : Fld) (n : Nat) : (s.setFld f n).txn = s.txn := rfl
@[simp] theorem State.setFld_fw (f : Fld) (n : Nat) : (s.setFld f n).fw = s.fw := rfl
@[simp] theorem State.setFld_time (f : Fld) (n : Nat) : (s.setFld f n).time = s.time := rfl
@[simp] theorem State.setFld_lau (f : Fld) (n : Nat) : (s.setFld f n).lau = s.lau := rfl
@[simp] theorem State.setFld_itin (f : Fld) (n : Nat) : (s.setFld f n).itin = s.itin := rfl
@[simp] theorem State.setFld_edge (f : Fld) (n : Nat) : (s.setFld f n).edge = s.edge := rfl
@[simp] theorem State.setFld_degFrom (f : Fld) (n : Nat) : (s.setFld f n).degFrom = s.degFrom := rfl
@[simp] theorem State.setFld_degTime (f : Fld) (n : Nat) : (s.setFld f n).degTime = s.degTime := rfl
@[simp] theorem State.setFld_degPins (f : Fld) (n : Nat) : (s.setFld f n).degPins = s.degPins := rfl
@[simp] theorem State.setFld_mac (f : Fld) (n : Nat) : (s.setFld f n).mac = s.mac := rfl
@[simp] theorem State.setFld_swx (f : Fld) (n : Nat) : (s.setFld f n).swx = s.swx := rfl
@[simp] theorem State.setFld_eng (f : Fld) (n : Nat) : (s.setFld f n).eng = s.eng := rfl
@[simp] theorem State.setFld_disp (f : Fld) (n : Nat) : (s.setFld f n).disp = s.disp := rfl
@[simp] theorem State.setFld_can (f : Fld) (n : Nat) : (s.setFld f n).can = s.can := rfl
@[simp] theorem State.setFld_nut (f : Fld) (n : Nat) : (s.setFld f n).nut = s.nut := rfl
@[simp] theorem State.setFld_np (f : Fld) (n : Nat) : (s.setFld f n).np = s.np := rfl
@[simp] theorem State.setFld_loop (f : Fld) (n : Nat) : (s.setFld f n).loop = s.loop := rfl
@[simp] theorem State.setFld_ecc (f : Fld) (n : Nat) : (s.setFld f n).ecc = s.ecc := rfl
@[simp] theorem State.setFld_saf (f : Fld) (n : Nat) : (s.setFld f n).saf = s.saf := rfl
@[simp] theorem State.setFld_modeq (f : Fld) (n : Nat) : (s.setFld f n).modeq = s.modeq := rfl
@[simp] theorem State.setFld_pwr (f : Fld) (n : Nat) : (s.setFld f n).pwr = s.pwr := rfl
@[simp] theorem State.setFld_prot (f : Fld) (n : Nat) : (s.setFld f n).prot = s.prot := rfl
@[simp] theorem State.setFld_line (f : Fld) (n : Nat) : (s.setFld f n).line = s.line := rfl
@[simp] theorem State.setFld_sys (f : Fld) (n : Nat) : (s.setFld f n).sys = s.sys := rfl
@[simp] theorem State.setFld_host (f : Fld) (n : Nat) : (s.setFld f n).host = s.host := rfl

/-! ### State.setFlag -/

@[simp] theorem State.setFlag_pending (f : Fld) (b : Bool) : (s.setFlag f b).pending = s.pending := rfl
@[simp] theorem State.setFlag_shadow (f : Fld) (b : Bool) : (s.setFlag f b).shadow = s.shadow := rfl
@[simp] theorem State.setFlag_snaps (f : Fld) (b : Bool) : (s.setFlag f b).snaps = s.snaps := rfl
@[simp] theorem State.setFlag_lows (f : Fld) (b : Bool) : (s.setFlag f b).lows = s.lows := rfl
@[simp] theorem State.setFlag_mem (f : Fld) (b : Bool) : (s.setFlag f b).mem = s.mem := rfl
@[simp] theorem State.setFlag_rdata (f : Fld) (b : Bool) : (s.setFlag f b).rdata = s.rdata := rfl
@[simp] theorem State.setFlag_free (f : Fld) (b : Bool) : (s.setFlag f b).free = s.free := rfl
@[simp] theorem State.setFlag_out (f : Fld) (b : Bool) : (s.setFlag f b).out = s.out := rfl
@[simp] theorem State.setFlag_trans (f : Fld) (b : Bool) : (s.setFlag f b).trans = s.trans := rfl
@[simp] theorem State.setFlag_lowFrom (f : Fld) (b : Bool) : (s.setFlag f b).lowFrom = s.lowFrom := rfl
@[simp] theorem State.setFlag_chans (f : Fld) (b : Bool) : (s.setFlag f b).chans = s.chans := rfl
@[simp] theorem State.setFlag_arrive (f : Fld) (b : Bool) : (s.setFlag f b).arrive = s.arrive := rfl
@[simp] theorem State.setFlag_fcu (f : Fld) (b : Bool) : (s.setFlag f b).fcu = s.fcu := rfl
@[simp] theorem State.setFlag_raises (f : Fld) (b : Bool) : (s.setFlag f b).raises = s.raises := rfl
@[simp] theorem State.setFlag_txn (f : Fld) (b : Bool) : (s.setFlag f b).txn = s.txn := rfl
@[simp] theorem State.setFlag_fw (f : Fld) (b : Bool) : (s.setFlag f b).fw = s.fw := rfl
@[simp] theorem State.setFlag_time (f : Fld) (b : Bool) : (s.setFlag f b).time = s.time := rfl
@[simp] theorem State.setFlag_lau (f : Fld) (b : Bool) : (s.setFlag f b).lau = s.lau := rfl
@[simp] theorem State.setFlag_itin (f : Fld) (b : Bool) : (s.setFlag f b).itin = s.itin := rfl
@[simp] theorem State.setFlag_edge (f : Fld) (b : Bool) : (s.setFlag f b).edge = s.edge := rfl
@[simp] theorem State.setFlag_degFrom (f : Fld) (b : Bool) : (s.setFlag f b).degFrom = s.degFrom := rfl
@[simp] theorem State.setFlag_degTime (f : Fld) (b : Bool) : (s.setFlag f b).degTime = s.degTime := rfl
@[simp] theorem State.setFlag_degPins (f : Fld) (b : Bool) : (s.setFlag f b).degPins = s.degPins := rfl
@[simp] theorem State.setFlag_mac (f : Fld) (b : Bool) : (s.setFlag f b).mac = s.mac := rfl
@[simp] theorem State.setFlag_swx (f : Fld) (b : Bool) : (s.setFlag f b).swx = s.swx := rfl
@[simp] theorem State.setFlag_eng (f : Fld) (b : Bool) : (s.setFlag f b).eng = s.eng := rfl
@[simp] theorem State.setFlag_disp (f : Fld) (b : Bool) : (s.setFlag f b).disp = s.disp := rfl
@[simp] theorem State.setFlag_can (f : Fld) (b : Bool) : (s.setFlag f b).can = s.can := rfl
@[simp] theorem State.setFlag_nut (f : Fld) (b : Bool) : (s.setFlag f b).nut = s.nut := rfl
@[simp] theorem State.setFlag_np (f : Fld) (b : Bool) : (s.setFlag f b).np = s.np := rfl
@[simp] theorem State.setFlag_loop (f : Fld) (b : Bool) : (s.setFlag f b).loop = s.loop := rfl
@[simp] theorem State.setFlag_ecc (f : Fld) (b : Bool) : (s.setFlag f b).ecc = s.ecc := rfl
@[simp] theorem State.setFlag_saf (f : Fld) (b : Bool) : (s.setFlag f b).saf = s.saf := rfl
@[simp] theorem State.setFlag_modeq (f : Fld) (b : Bool) : (s.setFlag f b).modeq = s.modeq := rfl
@[simp] theorem State.setFlag_pwr (f : Fld) (b : Bool) : (s.setFlag f b).pwr = s.pwr := rfl
@[simp] theorem State.setFlag_prot (f : Fld) (b : Bool) : (s.setFlag f b).prot = s.prot := rfl
@[simp] theorem State.setFlag_line (f : Fld) (b : Bool) : (s.setFlag f b).line = s.line := rfl
@[simp] theorem State.setFlag_sys (f : Fld) (b : Bool) : (s.setFlag f b).sys = s.sys := rfl
@[simp] theorem State.setFlag_host (f : Fld) (b : Bool) : (s.setFlag f b).host = s.host := rfl

/-! ### State.setPair -/

@[simp] theorem State.setPair_pending (a n : Nat) : (s.setPair a n).pending = s.pending := rfl
@[simp] theorem State.setPair_shadow (a n : Nat) : (s.setPair a n).shadow = s.shadow := rfl
@[simp] theorem State.setPair_snaps (a n : Nat) : (s.setPair a n).snaps = s.snaps := rfl
@[simp] theorem State.setPair_lows (a n : Nat) : (s.setPair a n).lows = s.lows := rfl
@[simp] theorem State.setPair_mem (a n : Nat) : (s.setPair a n).mem = s.mem := rfl
@[simp] theorem State.setPair_rdata (a n : Nat) : (s.setPair a n).rdata = s.rdata := rfl
@[simp] theorem State.setPair_free (a n : Nat) : (s.setPair a n).free = s.free := rfl
@[simp] theorem State.setPair_out (a n : Nat) : (s.setPair a n).out = s.out := rfl
@[simp] theorem State.setPair_trans (a n : Nat) : (s.setPair a n).trans = s.trans := rfl
@[simp] theorem State.setPair_lowFrom (a n : Nat) : (s.setPair a n).lowFrom = s.lowFrom := rfl
@[simp] theorem State.setPair_chans (a n : Nat) : (s.setPair a n).chans = s.chans := rfl
@[simp] theorem State.setPair_arrive (a n : Nat) : (s.setPair a n).arrive = s.arrive := rfl
@[simp] theorem State.setPair_fcu (a n : Nat) : (s.setPair a n).fcu = s.fcu := rfl
@[simp] theorem State.setPair_raises (a n : Nat) : (s.setPair a n).raises = s.raises := rfl
@[simp] theorem State.setPair_txn (a n : Nat) : (s.setPair a n).txn = s.txn := rfl
@[simp] theorem State.setPair_fw (a n : Nat) : (s.setPair a n).fw = s.fw := rfl
@[simp] theorem State.setPair_time (a n : Nat) : (s.setPair a n).time = s.time := rfl
@[simp] theorem State.setPair_lau (a n : Nat) : (s.setPair a n).lau = s.lau := rfl
@[simp] theorem State.setPair_itin (a n : Nat) : (s.setPair a n).itin = s.itin := rfl
@[simp] theorem State.setPair_edge (a n : Nat) : (s.setPair a n).edge = s.edge := rfl
@[simp] theorem State.setPair_degFrom (a n : Nat) : (s.setPair a n).degFrom = s.degFrom := rfl
@[simp] theorem State.setPair_degTime (a n : Nat) : (s.setPair a n).degTime = s.degTime := rfl
@[simp] theorem State.setPair_degPins (a n : Nat) : (s.setPair a n).degPins = s.degPins := rfl
@[simp] theorem State.setPair_mac (a n : Nat) : (s.setPair a n).mac = s.mac := rfl
@[simp] theorem State.setPair_swx (a n : Nat) : (s.setPair a n).swx = s.swx := rfl
@[simp] theorem State.setPair_eng (a n : Nat) : (s.setPair a n).eng = s.eng := rfl
@[simp] theorem State.setPair_disp (a n : Nat) : (s.setPair a n).disp = s.disp := rfl
@[simp] theorem State.setPair_can (a n : Nat) : (s.setPair a n).can = s.can := rfl
@[simp] theorem State.setPair_nut (a n : Nat) : (s.setPair a n).nut = s.nut := rfl
@[simp] theorem State.setPair_np (a n : Nat) : (s.setPair a n).np = s.np := rfl
@[simp] theorem State.setPair_loop (a n : Nat) : (s.setPair a n).loop = s.loop := rfl
@[simp] theorem State.setPair_ecc (a n : Nat) : (s.setPair a n).ecc = s.ecc := rfl
@[simp] theorem State.setPair_saf (a n : Nat) : (s.setPair a n).saf = s.saf := rfl
@[simp] theorem State.setPair_modeq (a n : Nat) : (s.setPair a n).modeq = s.modeq := rfl
@[simp] theorem State.setPair_pwr (a n : Nat) : (s.setPair a n).pwr = s.pwr := rfl
@[simp] theorem State.setPair_prot (a n : Nat) : (s.setPair a n).prot = s.prot := rfl
@[simp] theorem State.setPair_line (a n : Nat) : (s.setPair a n).line = s.line := rfl
@[simp] theorem State.setPair_sys (a n : Nat) : (s.setPair a n).sys = s.sys := rfl
@[simp] theorem State.setPair_host (a n : Nat) : (s.setPair a n).host = s.host := rfl

/-! ### State.count -/

@[simp] theorem State.count_pending (a n : Nat) : (s.count a n).pending = s.pending := rfl
@[simp] theorem State.count_shadow (a n : Nat) : (s.count a n).shadow = s.shadow := rfl
@[simp] theorem State.count_snaps (a n : Nat) : (s.count a n).snaps = s.snaps := rfl
@[simp] theorem State.count_lows (a n : Nat) : (s.count a n).lows = s.lows := rfl
@[simp] theorem State.count_mem (a n : Nat) : (s.count a n).mem = s.mem := rfl
@[simp] theorem State.count_rdata (a n : Nat) : (s.count a n).rdata = s.rdata := rfl
@[simp] theorem State.count_free (a n : Nat) : (s.count a n).free = s.free := rfl
@[simp] theorem State.count_out (a n : Nat) : (s.count a n).out = s.out := rfl
@[simp] theorem State.count_trans (a n : Nat) : (s.count a n).trans = s.trans := rfl
@[simp] theorem State.count_lowFrom (a n : Nat) : (s.count a n).lowFrom = s.lowFrom := rfl
@[simp] theorem State.count_chans (a n : Nat) : (s.count a n).chans = s.chans := rfl
@[simp] theorem State.count_arrive (a n : Nat) : (s.count a n).arrive = s.arrive := rfl
@[simp] theorem State.count_fcu (a n : Nat) : (s.count a n).fcu = s.fcu := rfl
@[simp] theorem State.count_raises (a n : Nat) : (s.count a n).raises = s.raises := rfl
@[simp] theorem State.count_txn (a n : Nat) : (s.count a n).txn = s.txn := rfl
@[simp] theorem State.count_fw (a n : Nat) : (s.count a n).fw = s.fw := rfl
@[simp] theorem State.count_time (a n : Nat) : (s.count a n).time = s.time := rfl
@[simp] theorem State.count_lau (a n : Nat) : (s.count a n).lau = s.lau := rfl
@[simp] theorem State.count_itin (a n : Nat) : (s.count a n).itin = s.itin := rfl
@[simp] theorem State.count_edge (a n : Nat) : (s.count a n).edge = s.edge := rfl
@[simp] theorem State.count_degFrom (a n : Nat) : (s.count a n).degFrom = s.degFrom := rfl
@[simp] theorem State.count_degTime (a n : Nat) : (s.count a n).degTime = s.degTime := rfl
@[simp] theorem State.count_degPins (a n : Nat) : (s.count a n).degPins = s.degPins := rfl
@[simp] theorem State.count_mac (a n : Nat) : (s.count a n).mac = s.mac := rfl
@[simp] theorem State.count_swx (a n : Nat) : (s.count a n).swx = s.swx := rfl
@[simp] theorem State.count_eng (a n : Nat) : (s.count a n).eng = s.eng := rfl
@[simp] theorem State.count_disp (a n : Nat) : (s.count a n).disp = s.disp := rfl
@[simp] theorem State.count_can (a n : Nat) : (s.count a n).can = s.can := rfl
@[simp] theorem State.count_nut (a n : Nat) : (s.count a n).nut = s.nut := rfl
@[simp] theorem State.count_np (a n : Nat) : (s.count a n).np = s.np := rfl
@[simp] theorem State.count_loop (a n : Nat) : (s.count a n).loop = s.loop := rfl
@[simp] theorem State.count_ecc (a n : Nat) : (s.count a n).ecc = s.ecc := rfl
@[simp] theorem State.count_saf (a n : Nat) : (s.count a n).saf = s.saf := rfl
@[simp] theorem State.count_modeq (a n : Nat) : (s.count a n).modeq = s.modeq := rfl
@[simp] theorem State.count_pwr (a n : Nat) : (s.count a n).pwr = s.pwr := rfl
@[simp] theorem State.count_prot (a n : Nat) : (s.count a n).prot = s.prot := rfl
@[simp] theorem State.count_line (a n : Nat) : (s.count a n).line = s.line := rfl
@[simp] theorem State.count_sys (a n : Nat) : (s.count a n).sys = s.sys := rfl
@[simp] theorem State.count_host (a n : Nat) : (s.count a n).host = s.host := rfl

/-! ### State.countSat -/

@[simp] theorem State.countSat_pending (a n : Nat) : (s.countSat a n).pending = s.pending := rfl
@[simp] theorem State.countSat_shadow (a n : Nat) : (s.countSat a n).shadow = s.shadow := rfl
@[simp] theorem State.countSat_snaps (a n : Nat) : (s.countSat a n).snaps = s.snaps := rfl
@[simp] theorem State.countSat_lows (a n : Nat) : (s.countSat a n).lows = s.lows := rfl
@[simp] theorem State.countSat_mem (a n : Nat) : (s.countSat a n).mem = s.mem := rfl
@[simp] theorem State.countSat_rdata (a n : Nat) : (s.countSat a n).rdata = s.rdata := rfl
@[simp] theorem State.countSat_free (a n : Nat) : (s.countSat a n).free = s.free := rfl
@[simp] theorem State.countSat_out (a n : Nat) : (s.countSat a n).out = s.out := rfl
@[simp] theorem State.countSat_trans (a n : Nat) : (s.countSat a n).trans = s.trans := rfl
@[simp] theorem State.countSat_lowFrom (a n : Nat) : (s.countSat a n).lowFrom = s.lowFrom := rfl
@[simp] theorem State.countSat_chans (a n : Nat) : (s.countSat a n).chans = s.chans := rfl
@[simp] theorem State.countSat_arrive (a n : Nat) : (s.countSat a n).arrive = s.arrive := rfl
@[simp] theorem State.countSat_fcu (a n : Nat) : (s.countSat a n).fcu = s.fcu := rfl
@[simp] theorem State.countSat_raises (a n : Nat) : (s.countSat a n).raises = s.raises := rfl
@[simp] theorem State.countSat_txn (a n : Nat) : (s.countSat a n).txn = s.txn := rfl
@[simp] theorem State.countSat_fw (a n : Nat) : (s.countSat a n).fw = s.fw := rfl
@[simp] theorem State.countSat_time (a n : Nat) : (s.countSat a n).time = s.time := rfl
@[simp] theorem State.countSat_lau (a n : Nat) : (s.countSat a n).lau = s.lau := rfl
@[simp] theorem State.countSat_itin (a n : Nat) : (s.countSat a n).itin = s.itin := rfl
@[simp] theorem State.countSat_edge (a n : Nat) : (s.countSat a n).edge = s.edge := rfl
@[simp] theorem State.countSat_degFrom (a n : Nat) : (s.countSat a n).degFrom = s.degFrom := rfl
@[simp] theorem State.countSat_degTime (a n : Nat) : (s.countSat a n).degTime = s.degTime := rfl
@[simp] theorem State.countSat_degPins (a n : Nat) : (s.countSat a n).degPins = s.degPins := rfl
@[simp] theorem State.countSat_mac (a n : Nat) : (s.countSat a n).mac = s.mac := rfl
@[simp] theorem State.countSat_swx (a n : Nat) : (s.countSat a n).swx = s.swx := rfl
@[simp] theorem State.countSat_eng (a n : Nat) : (s.countSat a n).eng = s.eng := rfl
@[simp] theorem State.countSat_disp (a n : Nat) : (s.countSat a n).disp = s.disp := rfl
@[simp] theorem State.countSat_can (a n : Nat) : (s.countSat a n).can = s.can := rfl
@[simp] theorem State.countSat_nut (a n : Nat) : (s.countSat a n).nut = s.nut := rfl
@[simp] theorem State.countSat_np (a n : Nat) : (s.countSat a n).np = s.np := rfl
@[simp] theorem State.countSat_loop (a n : Nat) : (s.countSat a n).loop = s.loop := rfl
@[simp] theorem State.countSat_ecc (a n : Nat) : (s.countSat a n).ecc = s.ecc := rfl
@[simp] theorem State.countSat_saf (a n : Nat) : (s.countSat a n).saf = s.saf := rfl
@[simp] theorem State.countSat_modeq (a n : Nat) : (s.countSat a n).modeq = s.modeq := rfl
@[simp] theorem State.countSat_pwr (a n : Nat) : (s.countSat a n).pwr = s.pwr := rfl
@[simp] theorem State.countSat_prot (a n : Nat) : (s.countSat a n).prot = s.prot := rfl
@[simp] theorem State.countSat_line (a n : Nat) : (s.countSat a n).line = s.line := rfl
@[simp] theorem State.countSat_sys (a n : Nat) : (s.countSat a n).sys = s.sys := rfl
@[simp] theorem State.countSat_host (a n : Nat) : (s.countSat a n).host = s.host := rfl

/-! ### State.fldSat -/

@[simp] theorem State.fldSat_pending (f : Fld) (n : Nat) : (s.fldSat f n).pending = s.pending := rfl
@[simp] theorem State.fldSat_shadow (f : Fld) (n : Nat) : (s.fldSat f n).shadow = s.shadow := rfl
@[simp] theorem State.fldSat_snaps (f : Fld) (n : Nat) : (s.fldSat f n).snaps = s.snaps := rfl
@[simp] theorem State.fldSat_lows (f : Fld) (n : Nat) : (s.fldSat f n).lows = s.lows := rfl
@[simp] theorem State.fldSat_mem (f : Fld) (n : Nat) : (s.fldSat f n).mem = s.mem := rfl
@[simp] theorem State.fldSat_rdata (f : Fld) (n : Nat) : (s.fldSat f n).rdata = s.rdata := rfl
@[simp] theorem State.fldSat_free (f : Fld) (n : Nat) : (s.fldSat f n).free = s.free := rfl
@[simp] theorem State.fldSat_out (f : Fld) (n : Nat) : (s.fldSat f n).out = s.out := rfl
@[simp] theorem State.fldSat_trans (f : Fld) (n : Nat) : (s.fldSat f n).trans = s.trans := rfl
@[simp] theorem State.fldSat_lowFrom (f : Fld) (n : Nat) : (s.fldSat f n).lowFrom = s.lowFrom := rfl
@[simp] theorem State.fldSat_chans (f : Fld) (n : Nat) : (s.fldSat f n).chans = s.chans := rfl
@[simp] theorem State.fldSat_arrive (f : Fld) (n : Nat) : (s.fldSat f n).arrive = s.arrive := rfl
@[simp] theorem State.fldSat_fcu (f : Fld) (n : Nat) : (s.fldSat f n).fcu = s.fcu := rfl
@[simp] theorem State.fldSat_raises (f : Fld) (n : Nat) : (s.fldSat f n).raises = s.raises := rfl
@[simp] theorem State.fldSat_txn (f : Fld) (n : Nat) : (s.fldSat f n).txn = s.txn := rfl
@[simp] theorem State.fldSat_fw (f : Fld) (n : Nat) : (s.fldSat f n).fw = s.fw := rfl
@[simp] theorem State.fldSat_time (f : Fld) (n : Nat) : (s.fldSat f n).time = s.time := rfl
@[simp] theorem State.fldSat_lau (f : Fld) (n : Nat) : (s.fldSat f n).lau = s.lau := rfl
@[simp] theorem State.fldSat_itin (f : Fld) (n : Nat) : (s.fldSat f n).itin = s.itin := rfl
@[simp] theorem State.fldSat_edge (f : Fld) (n : Nat) : (s.fldSat f n).edge = s.edge := rfl
@[simp] theorem State.fldSat_degFrom (f : Fld) (n : Nat) : (s.fldSat f n).degFrom = s.degFrom := rfl
@[simp] theorem State.fldSat_degTime (f : Fld) (n : Nat) : (s.fldSat f n).degTime = s.degTime := rfl
@[simp] theorem State.fldSat_degPins (f : Fld) (n : Nat) : (s.fldSat f n).degPins = s.degPins := rfl
@[simp] theorem State.fldSat_mac (f : Fld) (n : Nat) : (s.fldSat f n).mac = s.mac := rfl
@[simp] theorem State.fldSat_swx (f : Fld) (n : Nat) : (s.fldSat f n).swx = s.swx := rfl
@[simp] theorem State.fldSat_eng (f : Fld) (n : Nat) : (s.fldSat f n).eng = s.eng := rfl
@[simp] theorem State.fldSat_disp (f : Fld) (n : Nat) : (s.fldSat f n).disp = s.disp := rfl
@[simp] theorem State.fldSat_can (f : Fld) (n : Nat) : (s.fldSat f n).can = s.can := rfl
@[simp] theorem State.fldSat_nut (f : Fld) (n : Nat) : (s.fldSat f n).nut = s.nut := rfl
@[simp] theorem State.fldSat_np (f : Fld) (n : Nat) : (s.fldSat f n).np = s.np := rfl
@[simp] theorem State.fldSat_loop (f : Fld) (n : Nat) : (s.fldSat f n).loop = s.loop := rfl
@[simp] theorem State.fldSat_ecc (f : Fld) (n : Nat) : (s.fldSat f n).ecc = s.ecc := rfl
@[simp] theorem State.fldSat_saf (f : Fld) (n : Nat) : (s.fldSat f n).saf = s.saf := rfl
@[simp] theorem State.fldSat_modeq (f : Fld) (n : Nat) : (s.fldSat f n).modeq = s.modeq := rfl
@[simp] theorem State.fldSat_pwr (f : Fld) (n : Nat) : (s.fldSat f n).pwr = s.pwr := rfl
@[simp] theorem State.fldSat_prot (f : Fld) (n : Nat) : (s.fldSat f n).prot = s.prot := rfl
@[simp] theorem State.fldSat_line (f : Fld) (n : Nat) : (s.fldSat f n).line = s.line := rfl
@[simp] theorem State.fldSat_sys (f : Fld) (n : Nat) : (s.fldSat f n).sys = s.sys := rfl
@[simp] theorem State.fldSat_host (f : Fld) (n : Nat) : (s.fldSat f n).host = s.host := rfl

/-! ### State.resetReg -/

@[simp] theorem State.resetReg_pending (a : Nat) : (s.resetReg a).pending = s.pending := rfl
@[simp] theorem State.resetReg_shadow (a : Nat) : (s.resetReg a).shadow = s.shadow := rfl
@[simp] theorem State.resetReg_snaps (a : Nat) : (s.resetReg a).snaps = s.snaps := rfl
@[simp] theorem State.resetReg_lows (a : Nat) : (s.resetReg a).lows = s.lows := rfl
@[simp] theorem State.resetReg_mem (a : Nat) : (s.resetReg a).mem = s.mem := rfl
@[simp] theorem State.resetReg_rdata (a : Nat) : (s.resetReg a).rdata = s.rdata := rfl
@[simp] theorem State.resetReg_free (a : Nat) : (s.resetReg a).free = s.free := rfl
@[simp] theorem State.resetReg_out (a : Nat) : (s.resetReg a).out = s.out := rfl
@[simp] theorem State.resetReg_trans (a : Nat) : (s.resetReg a).trans = s.trans := rfl
@[simp] theorem State.resetReg_lowFrom (a : Nat) : (s.resetReg a).lowFrom = s.lowFrom := rfl
@[simp] theorem State.resetReg_chans (a : Nat) : (s.resetReg a).chans = s.chans := rfl
@[simp] theorem State.resetReg_arrive (a : Nat) : (s.resetReg a).arrive = s.arrive := rfl
@[simp] theorem State.resetReg_fcu (a : Nat) : (s.resetReg a).fcu = s.fcu := rfl
@[simp] theorem State.resetReg_raises (a : Nat) : (s.resetReg a).raises = s.raises := rfl
@[simp] theorem State.resetReg_txn (a : Nat) : (s.resetReg a).txn = s.txn := rfl
@[simp] theorem State.resetReg_fw (a : Nat) : (s.resetReg a).fw = s.fw := rfl
@[simp] theorem State.resetReg_time (a : Nat) : (s.resetReg a).time = s.time := rfl
@[simp] theorem State.resetReg_lau (a : Nat) : (s.resetReg a).lau = s.lau := rfl
@[simp] theorem State.resetReg_itin (a : Nat) : (s.resetReg a).itin = s.itin := rfl
@[simp] theorem State.resetReg_edge (a : Nat) : (s.resetReg a).edge = s.edge := rfl
@[simp] theorem State.resetReg_degFrom (a : Nat) : (s.resetReg a).degFrom = s.degFrom := rfl
@[simp] theorem State.resetReg_degTime (a : Nat) : (s.resetReg a).degTime = s.degTime := rfl
@[simp] theorem State.resetReg_degPins (a : Nat) : (s.resetReg a).degPins = s.degPins := rfl
@[simp] theorem State.resetReg_mac (a : Nat) : (s.resetReg a).mac = s.mac := rfl
@[simp] theorem State.resetReg_swx (a : Nat) : (s.resetReg a).swx = s.swx := rfl
@[simp] theorem State.resetReg_eng (a : Nat) : (s.resetReg a).eng = s.eng := rfl
@[simp] theorem State.resetReg_disp (a : Nat) : (s.resetReg a).disp = s.disp := rfl
@[simp] theorem State.resetReg_can (a : Nat) : (s.resetReg a).can = s.can := rfl
@[simp] theorem State.resetReg_nut (a : Nat) : (s.resetReg a).nut = s.nut := rfl
@[simp] theorem State.resetReg_np (a : Nat) : (s.resetReg a).np = s.np := rfl
@[simp] theorem State.resetReg_loop (a : Nat) : (s.resetReg a).loop = s.loop := rfl
@[simp] theorem State.resetReg_ecc (a : Nat) : (s.resetReg a).ecc = s.ecc := rfl
@[simp] theorem State.resetReg_saf (a : Nat) : (s.resetReg a).saf = s.saf := rfl
@[simp] theorem State.resetReg_modeq (a : Nat) : (s.resetReg a).modeq = s.modeq := rfl
@[simp] theorem State.resetReg_pwr (a : Nat) : (s.resetReg a).pwr = s.pwr := rfl
@[simp] theorem State.resetReg_prot (a : Nat) : (s.resetReg a).prot = s.prot := rfl
@[simp] theorem State.resetReg_line (a : Nat) : (s.resetReg a).line = s.line := rfl
@[simp] theorem State.resetReg_sys (a : Nat) : (s.resetReg a).sys = s.sys := rfl
@[simp] theorem State.resetReg_host (a : Nat) : (s.resetReg a).host = s.host := rfl

/-! ### State.resetRange -/

@[simp] theorem State.resetRange_pending (lo hi : Nat) : (s.resetRange lo hi).pending = s.pending := rfl
@[simp] theorem State.resetRange_shadow (lo hi : Nat) : (s.resetRange lo hi).shadow = s.shadow := rfl
@[simp] theorem State.resetRange_snaps (lo hi : Nat) : (s.resetRange lo hi).snaps = s.snaps := rfl
@[simp] theorem State.resetRange_lows (lo hi : Nat) : (s.resetRange lo hi).lows = s.lows := rfl
@[simp] theorem State.resetRange_mem (lo hi : Nat) : (s.resetRange lo hi).mem = s.mem := rfl
@[simp] theorem State.resetRange_rdata (lo hi : Nat) : (s.resetRange lo hi).rdata = s.rdata := rfl
@[simp] theorem State.resetRange_free (lo hi : Nat) : (s.resetRange lo hi).free = s.free := rfl
@[simp] theorem State.resetRange_out (lo hi : Nat) : (s.resetRange lo hi).out = s.out := rfl
@[simp] theorem State.resetRange_trans (lo hi : Nat) : (s.resetRange lo hi).trans = s.trans := rfl
@[simp] theorem State.resetRange_lowFrom (lo hi : Nat) : (s.resetRange lo hi).lowFrom = s.lowFrom := rfl
@[simp] theorem State.resetRange_chans (lo hi : Nat) : (s.resetRange lo hi).chans = s.chans := rfl
@[simp] theorem State.resetRange_arrive (lo hi : Nat) : (s.resetRange lo hi).arrive = s.arrive := rfl
@[simp] theorem State.resetRange_fcu (lo hi : Nat) : (s.resetRange lo hi).fcu = s.fcu := rfl
@[simp] theorem State.resetRange_raises (lo hi : Nat) : (s.resetRange lo hi).raises = s.raises := rfl
@[simp] theorem State.resetRange_txn (lo hi : Nat) : (s.resetRange lo hi).txn = s.txn := rfl
@[simp] theorem State.resetRange_fw (lo hi : Nat) : (s.resetRange lo hi).fw = s.fw := rfl
@[simp] theorem State.resetRange_time (lo hi : Nat) : (s.resetRange lo hi).time = s.time := rfl
@[simp] theorem State.resetRange_lau (lo hi : Nat) : (s.resetRange lo hi).lau = s.lau := rfl
@[simp] theorem State.resetRange_itin (lo hi : Nat) : (s.resetRange lo hi).itin = s.itin := rfl
@[simp] theorem State.resetRange_edge (lo hi : Nat) : (s.resetRange lo hi).edge = s.edge := rfl
@[simp] theorem State.resetRange_degFrom (lo hi : Nat) : (s.resetRange lo hi).degFrom = s.degFrom := rfl
@[simp] theorem State.resetRange_degTime (lo hi : Nat) : (s.resetRange lo hi).degTime = s.degTime := rfl
@[simp] theorem State.resetRange_degPins (lo hi : Nat) : (s.resetRange lo hi).degPins = s.degPins := rfl
@[simp] theorem State.resetRange_mac (lo hi : Nat) : (s.resetRange lo hi).mac = s.mac := rfl
@[simp] theorem State.resetRange_swx (lo hi : Nat) : (s.resetRange lo hi).swx = s.swx := rfl
@[simp] theorem State.resetRange_eng (lo hi : Nat) : (s.resetRange lo hi).eng = s.eng := rfl
@[simp] theorem State.resetRange_disp (lo hi : Nat) : (s.resetRange lo hi).disp = s.disp := rfl
@[simp] theorem State.resetRange_can (lo hi : Nat) : (s.resetRange lo hi).can = s.can := rfl
@[simp] theorem State.resetRange_nut (lo hi : Nat) : (s.resetRange lo hi).nut = s.nut := rfl
@[simp] theorem State.resetRange_np (lo hi : Nat) : (s.resetRange lo hi).np = s.np := rfl
@[simp] theorem State.resetRange_loop (lo hi : Nat) : (s.resetRange lo hi).loop = s.loop := rfl
@[simp] theorem State.resetRange_ecc (lo hi : Nat) : (s.resetRange lo hi).ecc = s.ecc := rfl
@[simp] theorem State.resetRange_saf (lo hi : Nat) : (s.resetRange lo hi).saf = s.saf := rfl
@[simp] theorem State.resetRange_modeq (lo hi : Nat) : (s.resetRange lo hi).modeq = s.modeq := rfl
@[simp] theorem State.resetRange_pwr (lo hi : Nat) : (s.resetRange lo hi).pwr = s.pwr := rfl
@[simp] theorem State.resetRange_prot (lo hi : Nat) : (s.resetRange lo hi).prot = s.prot := rfl
@[simp] theorem State.resetRange_line (lo hi : Nat) : (s.resetRange lo hi).line = s.line := rfl
@[simp] theorem State.resetRange_sys (lo hi : Nat) : (s.resetRange lo hi).sys = s.sys := rfl
@[simp] theorem State.resetRange_host (lo hi : Nat) : (s.resetRange lo hi).host = s.host := rfl

/-! ### State.setBitAt -/

@[simp] theorem State.setBitAt_pending (a b : Nat) (v : Bool) : (s.setBitAt a b v).pending = s.pending := rfl
@[simp] theorem State.setBitAt_shadow (a b : Nat) (v : Bool) : (s.setBitAt a b v).shadow = s.shadow := rfl
@[simp] theorem State.setBitAt_snaps (a b : Nat) (v : Bool) : (s.setBitAt a b v).snaps = s.snaps := rfl
@[simp] theorem State.setBitAt_lows (a b : Nat) (v : Bool) : (s.setBitAt a b v).lows = s.lows := rfl
@[simp] theorem State.setBitAt_mem (a b : Nat) (v : Bool) : (s.setBitAt a b v).mem = s.mem := rfl
@[simp] theorem State.setBitAt_rdata (a b : Nat) (v : Bool) : (s.setBitAt a b v).rdata = s.rdata := rfl
@[simp] theorem State.setBitAt_free (a b : Nat) (v : Bool) : (s.setBitAt a b v).free = s.free := rfl
@[simp] theorem State.setBitAt_out (a b : Nat) (v : Bool) : (s.setBitAt a b v).out = s.out := rfl
@[simp] theorem State.setBitAt_trans (a b : Nat) (v : Bool) : (s.setBitAt a b v).trans = s.trans := rfl
@[simp] theorem State.setBitAt_lowFrom (a b : Nat) (v : Bool) : (s.setBitAt a b v).lowFrom = s.lowFrom := rfl
@[simp] theorem State.setBitAt_chans (a b : Nat) (v : Bool) : (s.setBitAt a b v).chans = s.chans := rfl
@[simp] theorem State.setBitAt_arrive (a b : Nat) (v : Bool) : (s.setBitAt a b v).arrive = s.arrive := rfl
@[simp] theorem State.setBitAt_fcu (a b : Nat) (v : Bool) : (s.setBitAt a b v).fcu = s.fcu := rfl
@[simp] theorem State.setBitAt_raises (a b : Nat) (v : Bool) : (s.setBitAt a b v).raises = s.raises := rfl
@[simp] theorem State.setBitAt_txn (a b : Nat) (v : Bool) : (s.setBitAt a b v).txn = s.txn := rfl
@[simp] theorem State.setBitAt_fw (a b : Nat) (v : Bool) : (s.setBitAt a b v).fw = s.fw := rfl
@[simp] theorem State.setBitAt_time (a b : Nat) (v : Bool) : (s.setBitAt a b v).time = s.time := rfl
@[simp] theorem State.setBitAt_lau (a b : Nat) (v : Bool) : (s.setBitAt a b v).lau = s.lau := rfl
@[simp] theorem State.setBitAt_itin (a b : Nat) (v : Bool) : (s.setBitAt a b v).itin = s.itin := rfl
@[simp] theorem State.setBitAt_edge (a b : Nat) (v : Bool) : (s.setBitAt a b v).edge = s.edge := rfl
@[simp] theorem State.setBitAt_degFrom (a b : Nat) (v : Bool) : (s.setBitAt a b v).degFrom = s.degFrom := rfl
@[simp] theorem State.setBitAt_degTime (a b : Nat) (v : Bool) : (s.setBitAt a b v).degTime = s.degTime := rfl
@[simp] theorem State.setBitAt_degPins (a b : Nat) (v : Bool) : (s.setBitAt a b v).degPins = s.degPins := rfl
@[simp] theorem State.setBitAt_mac (a b : Nat) (v : Bool) : (s.setBitAt a b v).mac = s.mac := rfl
@[simp] theorem State.setBitAt_swx (a b : Nat) (v : Bool) : (s.setBitAt a b v).swx = s.swx := rfl
@[simp] theorem State.setBitAt_eng (a b : Nat) (v : Bool) : (s.setBitAt a b v).eng = s.eng := rfl
@[simp] theorem State.setBitAt_disp (a b : Nat) (v : Bool) : (s.setBitAt a b v).disp = s.disp := rfl
@[simp] theorem State.setBitAt_can (a b : Nat) (v : Bool) : (s.setBitAt a b v).can = s.can := rfl
@[simp] theorem State.setBitAt_nut (a b : Nat) (v : Bool) : (s.setBitAt a b v).nut = s.nut := rfl
@[simp] theorem State.setBitAt_np (a b : Nat) (v : Bool) : (s.setBitAt a b v).np = s.np := rfl
@[simp] theorem State.setBitAt_loop (a b : Nat) (v : Bool) : (s.setBitAt a b v).loop = s.loop := rfl
@[simp] theorem State.setBitAt_ecc (a b : Nat) (v : Bool) : (s.setBitAt a b v).ecc = s.ecc := rfl
@[simp] theorem State.setBitAt_saf (a b : Nat) (v : Bool) : (s.setBitAt a b v).saf = s.saf := rfl
@[simp] theorem State.setBitAt_modeq (a b : Nat) (v : Bool) : (s.setBitAt a b v).modeq = s.modeq := rfl
@[simp] theorem State.setBitAt_pwr (a b : Nat) (v : Bool) : (s.setBitAt a b v).pwr = s.pwr := rfl
@[simp] theorem State.setBitAt_prot (a b : Nat) (v : Bool) : (s.setBitAt a b v).prot = s.prot := rfl
@[simp] theorem State.setBitAt_line (a b : Nat) (v : Bool) : (s.setBitAt a b v).line = s.line := rfl
@[simp] theorem State.setBitAt_sys (a b : Nat) (v : Bool) : (s.setBitAt a b v).sys = s.sys := rfl
@[simp] theorem State.setBitAt_host (a b : Nat) (v : Bool) : (s.setBitAt a b v).host = s.host := rfl

/-! ### State.drew -/

@[simp] theorem State.drew_pending : (s.drew).pending = s.pending := rfl
@[simp] theorem State.drew_regs : (s.drew).regs = s.regs := rfl
@[simp] theorem State.drew_shadow : (s.drew).shadow = s.shadow := rfl
@[simp] theorem State.drew_snaps : (s.drew).snaps = s.snaps := rfl
@[simp] theorem State.drew_lows : (s.drew).lows = s.lows := rfl
@[simp] theorem State.drew_mem : (s.drew).mem = s.mem := rfl
@[simp] theorem State.drew_rdata : (s.drew).rdata = s.rdata := rfl
@[simp] theorem State.drew_out : (s.drew).out = s.out := rfl
@[simp] theorem State.drew_trans : (s.drew).trans = s.trans := rfl
@[simp] theorem State.drew_lowFrom : (s.drew).lowFrom = s.lowFrom := rfl
@[simp] theorem State.drew_chans : (s.drew).chans = s.chans := rfl
@[simp] theorem State.drew_arrive : (s.drew).arrive = s.arrive := rfl
@[simp] theorem State.drew_fcu : (s.drew).fcu = s.fcu := rfl
@[simp] theorem State.drew_raises : (s.drew).raises = s.raises := rfl
@[simp] theorem State.drew_txn : (s.drew).txn = s.txn := rfl
@[simp] theorem State.drew_fw : (s.drew).fw = s.fw := rfl
@[simp] theorem State.drew_time : (s.drew).time = s.time := rfl
@[simp] theorem State.drew_lau : (s.drew).lau = s.lau := rfl
@[simp] theorem State.drew_itin : (s.drew).itin = s.itin := rfl
@[simp] theorem State.drew_edge : (s.drew).edge = s.edge := rfl
@[simp] theorem State.drew_degFrom : (s.drew).degFrom = s.degFrom := rfl
@[simp] theorem State.drew_degTime : (s.drew).degTime = s.degTime := rfl
@[simp] theorem State.drew_degPins : (s.drew).degPins = s.degPins := rfl
@[simp] theorem State.drew_mac : (s.drew).mac = s.mac := rfl
@[simp] theorem State.drew_swx : (s.drew).swx = s.swx := rfl
@[simp] theorem State.drew_eng : (s.drew).eng = s.eng := rfl
@[simp] theorem State.drew_disp : (s.drew).disp = s.disp := rfl
@[simp] theorem State.drew_can : (s.drew).can = s.can := rfl
@[simp] theorem State.drew_nut : (s.drew).nut = s.nut := rfl
@[simp] theorem State.drew_np : (s.drew).np = s.np := rfl
@[simp] theorem State.drew_loop : (s.drew).loop = s.loop := rfl
@[simp] theorem State.drew_ecc : (s.drew).ecc = s.ecc := rfl
@[simp] theorem State.drew_saf : (s.drew).saf = s.saf := rfl
@[simp] theorem State.drew_modeq : (s.drew).modeq = s.modeq := rfl
@[simp] theorem State.drew_pwr : (s.drew).pwr = s.pwr := rfl
@[simp] theorem State.drew_prot : (s.drew).prot = s.prot := rfl
@[simp] theorem State.drew_line : (s.drew).line = s.line := rfl
@[simp] theorem State.drew_sys : (s.drew).sys = s.sys := rfl
@[simp] theorem State.drew_host : (s.drew).host = s.host := rfl

/-! ### State.emit -/

@[simp] theorem State.emit_pending (o : Out) : (s.emit o).pending = s.pending := rfl
@[simp] theorem State.emit_regs (o : Out) : (s.emit o).regs = s.regs := rfl
@[simp] theorem State.emit_shadow (o : Out) : (s.emit o).shadow = s.shadow := rfl
@[simp] theorem State.emit_snaps (o : Out) : (s.emit o).snaps = s.snaps := rfl
@[simp] theorem State.emit_lows (o : Out) : (s.emit o).lows = s.lows := rfl
@[simp] theorem State.emit_mem (o : Out) : (s.emit o).mem = s.mem := rfl
@[simp] theorem State.emit_rdata (o : Out) : (s.emit o).rdata = s.rdata := rfl
@[simp] theorem State.emit_free (o : Out) : (s.emit o).free = s.free := rfl
@[simp] theorem State.emit_trans (o : Out) : (s.emit o).trans = s.trans := rfl
@[simp] theorem State.emit_lowFrom (o : Out) : (s.emit o).lowFrom = s.lowFrom := rfl
@[simp] theorem State.emit_chans (o : Out) : (s.emit o).chans = s.chans := rfl
@[simp] theorem State.emit_arrive (o : Out) : (s.emit o).arrive = s.arrive := rfl
@[simp] theorem State.emit_fcu (o : Out) : (s.emit o).fcu = s.fcu := rfl
@[simp] theorem State.emit_raises (o : Out) : (s.emit o).raises = s.raises := rfl
@[simp] theorem State.emit_txn (o : Out) : (s.emit o).txn = s.txn := rfl
@[simp] theorem State.emit_fw (o : Out) : (s.emit o).fw = s.fw := rfl
@[simp] theorem State.emit_time (o : Out) : (s.emit o).time = s.time := rfl
@[simp] theorem State.emit_lau (o : Out) : (s.emit o).lau = s.lau := rfl
@[simp] theorem State.emit_itin (o : Out) : (s.emit o).itin = s.itin := rfl
@[simp] theorem State.emit_edge (o : Out) : (s.emit o).edge = s.edge := rfl
@[simp] theorem State.emit_degFrom (o : Out) : (s.emit o).degFrom = s.degFrom := rfl
@[simp] theorem State.emit_degTime (o : Out) : (s.emit o).degTime = s.degTime := rfl
@[simp] theorem State.emit_degPins (o : Out) : (s.emit o).degPins = s.degPins := rfl
@[simp] theorem State.emit_mac (o : Out) : (s.emit o).mac = s.mac := rfl
@[simp] theorem State.emit_swx (o : Out) : (s.emit o).swx = s.swx := rfl
@[simp] theorem State.emit_eng (o : Out) : (s.emit o).eng = s.eng := rfl
@[simp] theorem State.emit_disp (o : Out) : (s.emit o).disp = s.disp := rfl
@[simp] theorem State.emit_can (o : Out) : (s.emit o).can = s.can := rfl
@[simp] theorem State.emit_nut (o : Out) : (s.emit o).nut = s.nut := rfl
@[simp] theorem State.emit_np (o : Out) : (s.emit o).np = s.np := rfl
@[simp] theorem State.emit_loop (o : Out) : (s.emit o).loop = s.loop := rfl
@[simp] theorem State.emit_ecc (o : Out) : (s.emit o).ecc = s.ecc := rfl
@[simp] theorem State.emit_saf (o : Out) : (s.emit o).saf = s.saf := rfl
@[simp] theorem State.emit_modeq (o : Out) : (s.emit o).modeq = s.modeq := rfl
@[simp] theorem State.emit_pwr (o : Out) : (s.emit o).pwr = s.pwr := rfl
@[simp] theorem State.emit_prot (o : Out) : (s.emit o).prot = s.prot := rfl
@[simp] theorem State.emit_line (o : Out) : (s.emit o).line = s.line := rfl
@[simp] theorem State.emit_sys (o : Out) : (s.emit o).sys = s.sys := rfl
@[simp] theorem State.emit_host (o : Out) : (s.emit o).host = s.host := rfl

/-! ### State.raiseI -/

@[simp] theorem State.raiseI_pending (src info : Nat) : (s.raiseI src info).pending = s.pending := rfl
@[simp] theorem State.raiseI_regs (src info : Nat) : (s.raiseI src info).regs = s.regs := rfl
@[simp] theorem State.raiseI_shadow (src info : Nat) : (s.raiseI src info).shadow = s.shadow := rfl
@[simp] theorem State.raiseI_snaps (src info : Nat) : (s.raiseI src info).snaps = s.snaps := rfl
@[simp] theorem State.raiseI_lows (src info : Nat) : (s.raiseI src info).lows = s.lows := rfl
@[simp] theorem State.raiseI_mem (src info : Nat) : (s.raiseI src info).mem = s.mem := rfl
@[simp] theorem State.raiseI_rdata (src info : Nat) : (s.raiseI src info).rdata = s.rdata := rfl
@[simp] theorem State.raiseI_free (src info : Nat) : (s.raiseI src info).free = s.free := rfl
@[simp] theorem State.raiseI_out (src info : Nat) : (s.raiseI src info).out = s.out := rfl
@[simp] theorem State.raiseI_trans (src info : Nat) : (s.raiseI src info).trans = s.trans := rfl
@[simp] theorem State.raiseI_lowFrom (src info : Nat) : (s.raiseI src info).lowFrom = s.lowFrom := rfl
@[simp] theorem State.raiseI_chans (src info : Nat) : (s.raiseI src info).chans = s.chans := rfl
@[simp] theorem State.raiseI_arrive (src info : Nat) : (s.raiseI src info).arrive = s.arrive := rfl
@[simp] theorem State.raiseI_fcu (src info : Nat) : (s.raiseI src info).fcu = s.fcu := rfl
@[simp] theorem State.raiseI_txn (src info : Nat) : (s.raiseI src info).txn = s.txn := rfl
@[simp] theorem State.raiseI_fw (src info : Nat) : (s.raiseI src info).fw = s.fw := rfl
@[simp] theorem State.raiseI_time (src info : Nat) : (s.raiseI src info).time = s.time := rfl
@[simp] theorem State.raiseI_lau (src info : Nat) : (s.raiseI src info).lau = s.lau := rfl
@[simp] theorem State.raiseI_itin (src info : Nat) : (s.raiseI src info).itin = s.itin := rfl
@[simp] theorem State.raiseI_edge (src info : Nat) : (s.raiseI src info).edge = s.edge := rfl
@[simp] theorem State.raiseI_degFrom (src info : Nat) : (s.raiseI src info).degFrom = s.degFrom := rfl
@[simp] theorem State.raiseI_degTime (src info : Nat) : (s.raiseI src info).degTime = s.degTime := rfl
@[simp] theorem State.raiseI_degPins (src info : Nat) : (s.raiseI src info).degPins = s.degPins := rfl
@[simp] theorem State.raiseI_mac (src info : Nat) : (s.raiseI src info).mac = s.mac := rfl
@[simp] theorem State.raiseI_swx (src info : Nat) : (s.raiseI src info).swx = s.swx := rfl
@[simp] theorem State.raiseI_eng (src info : Nat) : (s.raiseI src info).eng = s.eng := rfl
@[simp] theorem State.raiseI_disp (src info : Nat) : (s.raiseI src info).disp = s.disp := rfl
@[simp] theorem State.raiseI_can (src info : Nat) : (s.raiseI src info).can = s.can := rfl
@[simp] theorem State.raiseI_nut (src info : Nat) : (s.raiseI src info).nut = s.nut := rfl
@[simp] theorem State.raiseI_np (src info : Nat) : (s.raiseI src info).np = s.np := rfl
@[simp] theorem State.raiseI_loop (src info : Nat) : (s.raiseI src info).loop = s.loop := rfl
@[simp] theorem State.raiseI_ecc (src info : Nat) : (s.raiseI src info).ecc = s.ecc := rfl
@[simp] theorem State.raiseI_saf (src info : Nat) : (s.raiseI src info).saf = s.saf := rfl
@[simp] theorem State.raiseI_modeq (src info : Nat) : (s.raiseI src info).modeq = s.modeq := rfl
@[simp] theorem State.raiseI_pwr (src info : Nat) : (s.raiseI src info).pwr = s.pwr := rfl
@[simp] theorem State.raiseI_prot (src info : Nat) : (s.raiseI src info).prot = s.prot := rfl
@[simp] theorem State.raiseI_line (src info : Nat) : (s.raiseI src info).line = s.line := rfl
@[simp] theorem State.raiseI_sys (src info : Nat) : (s.raiseI src info).sys = s.sys := rfl
@[simp] theorem State.raiseI_host (src info : Nat) : (s.raiseI src info).host = s.host := rfl

/-! ### State.raise -/

@[simp] theorem State.raise_pending (src : Nat) : (s.raise src).pending = s.pending := rfl
@[simp] theorem State.raise_regs (src : Nat) : (s.raise src).regs = s.regs := rfl
@[simp] theorem State.raise_shadow (src : Nat) : (s.raise src).shadow = s.shadow := rfl
@[simp] theorem State.raise_snaps (src : Nat) : (s.raise src).snaps = s.snaps := rfl
@[simp] theorem State.raise_lows (src : Nat) : (s.raise src).lows = s.lows := rfl
@[simp] theorem State.raise_mem (src : Nat) : (s.raise src).mem = s.mem := rfl
@[simp] theorem State.raise_rdata (src : Nat) : (s.raise src).rdata = s.rdata := rfl
@[simp] theorem State.raise_free (src : Nat) : (s.raise src).free = s.free := rfl
@[simp] theorem State.raise_out (src : Nat) : (s.raise src).out = s.out := rfl
@[simp] theorem State.raise_trans (src : Nat) : (s.raise src).trans = s.trans := rfl
@[simp] theorem State.raise_lowFrom (src : Nat) : (s.raise src).lowFrom = s.lowFrom := rfl
@[simp] theorem State.raise_chans (src : Nat) : (s.raise src).chans = s.chans := rfl
@[simp] theorem State.raise_arrive (src : Nat) : (s.raise src).arrive = s.arrive := rfl
@[simp] theorem State.raise_fcu (src : Nat) : (s.raise src).fcu = s.fcu := rfl
@[simp] theorem State.raise_txn (src : Nat) : (s.raise src).txn = s.txn := rfl
@[simp] theorem State.raise_fw (src : Nat) : (s.raise src).fw = s.fw := rfl
@[simp] theorem State.raise_time (src : Nat) : (s.raise src).time = s.time := rfl
@[simp] theorem State.raise_lau (src : Nat) : (s.raise src).lau = s.lau := rfl
@[simp] theorem State.raise_itin (src : Nat) : (s.raise src).itin = s.itin := rfl
@[simp] theorem State.raise_edge (src : Nat) : (s.raise src).edge = s.edge := rfl
@[simp] theorem State.raise_degFrom (src : Nat) : (s.raise src).degFrom = s.degFrom := rfl
@[simp] theorem State.raise_degTime (src : Nat) : (s.raise src).degTime = s.degTime := rfl
@[simp] theorem State.raise_degPins (src : Nat) : (s.raise src).degPins = s.degPins := rfl
@[simp] theorem State.raise_mac (src : Nat) : (s.raise src).mac = s.mac := rfl
@[simp] theorem State.raise_swx (src : Nat) : (s.raise src).swx = s.swx := rfl
@[simp] theorem State.raise_eng (src : Nat) : (s.raise src).eng = s.eng := rfl
@[simp] theorem State.raise_disp (src : Nat) : (s.raise src).disp = s.disp := rfl
@[simp] theorem State.raise_can (src : Nat) : (s.raise src).can = s.can := rfl
@[simp] theorem State.raise_nut (src : Nat) : (s.raise src).nut = s.nut := rfl
@[simp] theorem State.raise_np (src : Nat) : (s.raise src).np = s.np := rfl
@[simp] theorem State.raise_loop (src : Nat) : (s.raise src).loop = s.loop := rfl
@[simp] theorem State.raise_ecc (src : Nat) : (s.raise src).ecc = s.ecc := rfl
@[simp] theorem State.raise_saf (src : Nat) : (s.raise src).saf = s.saf := rfl
@[simp] theorem State.raise_modeq (src : Nat) : (s.raise src).modeq = s.modeq := rfl
@[simp] theorem State.raise_pwr (src : Nat) : (s.raise src).pwr = s.pwr := rfl
@[simp] theorem State.raise_prot (src : Nat) : (s.raise src).prot = s.prot := rfl
@[simp] theorem State.raise_line (src : Nat) : (s.raise src).line = s.line := rfl
@[simp] theorem State.raise_sys (src : Nat) : (s.raise src).sys = s.sys := rfl
@[simp] theorem State.raise_host (src : Nat) : (s.raise src).host = s.host := rfl

/-! ### State.note -/

@[simp] theorem State.note_pending : (s.note).pending = s.pending := rfl
@[simp] theorem State.note_regs : (s.note).regs = s.regs := rfl
@[simp] theorem State.note_shadow : (s.note).shadow = s.shadow := rfl
@[simp] theorem State.note_snaps : (s.note).snaps = s.snaps := rfl
@[simp] theorem State.note_lows : (s.note).lows = s.lows := rfl
@[simp] theorem State.note_mem : (s.note).mem = s.mem := rfl
@[simp] theorem State.note_rdata : (s.note).rdata = s.rdata := rfl
@[simp] theorem State.note_free : (s.note).free = s.free := rfl
@[simp] theorem State.note_out : (s.note).out = s.out := rfl
@[simp] theorem State.note_trans : (s.note).trans = s.trans := rfl
@[simp] theorem State.note_lowFrom : (s.note).lowFrom = s.lowFrom := rfl
@[simp] theorem State.note_chans : (s.note).chans = s.chans := rfl
@[simp] theorem State.note_arrive : (s.note).arrive = s.arrive := rfl
@[simp] theorem State.note_fcu : (s.note).fcu = s.fcu := rfl
@[simp] theorem State.note_txn : (s.note).txn = s.txn := rfl
@[simp] theorem State.note_fw : (s.note).fw = s.fw := rfl
@[simp] theorem State.note_time : (s.note).time = s.time := rfl
@[simp] theorem State.note_lau : (s.note).lau = s.lau := rfl
@[simp] theorem State.note_itin : (s.note).itin = s.itin := rfl
@[simp] theorem State.note_edge : (s.note).edge = s.edge := rfl
@[simp] theorem State.note_degFrom : (s.note).degFrom = s.degFrom := rfl
@[simp] theorem State.note_degTime : (s.note).degTime = s.degTime := rfl
@[simp] theorem State.note_degPins : (s.note).degPins = s.degPins := rfl
@[simp] theorem State.note_mac : (s.note).mac = s.mac := rfl
@[simp] theorem State.note_swx : (s.note).swx = s.swx := rfl
@[simp] theorem State.note_eng : (s.note).eng = s.eng := rfl
@[simp] theorem State.note_disp : (s.note).disp = s.disp := rfl
@[simp] theorem State.note_can : (s.note).can = s.can := rfl
@[simp] theorem State.note_nut : (s.note).nut = s.nut := rfl
@[simp] theorem State.note_np : (s.note).np = s.np := rfl
@[simp] theorem State.note_loop : (s.note).loop = s.loop := rfl
@[simp] theorem State.note_ecc : (s.note).ecc = s.ecc := rfl
@[simp] theorem State.note_saf : (s.note).saf = s.saf := rfl
@[simp] theorem State.note_modeq : (s.note).modeq = s.modeq := rfl
@[simp] theorem State.note_pwr : (s.note).pwr = s.pwr := rfl
@[simp] theorem State.note_prot : (s.note).prot = s.prot := rfl
@[simp] theorem State.note_line : (s.note).line = s.line := rfl
@[simp] theorem State.note_sys : (s.note).sys = s.sys := rfl
@[simp] theorem State.note_host : (s.note).host = s.host := rfl

/-! ### State.clearSrc -/

@[simp] theorem State.clearSrc_pending (src : Nat) : (s.clearSrc src).pending = s.pending := rfl
@[simp] theorem State.clearSrc_regs (src : Nat) : (s.clearSrc src).regs = s.regs := rfl
@[simp] theorem State.clearSrc_shadow (src : Nat) : (s.clearSrc src).shadow = s.shadow := rfl
@[simp] theorem State.clearSrc_snaps (src : Nat) : (s.clearSrc src).snaps = s.snaps := rfl
@[simp] theorem State.clearSrc_lows (src : Nat) : (s.clearSrc src).lows = s.lows := rfl
@[simp] theorem State.clearSrc_mem (src : Nat) : (s.clearSrc src).mem = s.mem := rfl
@[simp] theorem State.clearSrc_rdata (src : Nat) : (s.clearSrc src).rdata = s.rdata := rfl
@[simp] theorem State.clearSrc_free (src : Nat) : (s.clearSrc src).free = s.free := rfl
@[simp] theorem State.clearSrc_out (src : Nat) : (s.clearSrc src).out = s.out := rfl
@[simp] theorem State.clearSrc_trans (src : Nat) : (s.clearSrc src).trans = s.trans := rfl
@[simp] theorem State.clearSrc_lowFrom (src : Nat) : (s.clearSrc src).lowFrom = s.lowFrom := rfl
@[simp] theorem State.clearSrc_chans (src : Nat) : (s.clearSrc src).chans = s.chans := rfl
@[simp] theorem State.clearSrc_arrive (src : Nat) : (s.clearSrc src).arrive = s.arrive := rfl
@[simp] theorem State.clearSrc_raises (src : Nat) : (s.clearSrc src).raises = s.raises := rfl
@[simp] theorem State.clearSrc_txn (src : Nat) : (s.clearSrc src).txn = s.txn := rfl
@[simp] theorem State.clearSrc_fw (src : Nat) : (s.clearSrc src).fw = s.fw := rfl
@[simp] theorem State.clearSrc_time (src : Nat) : (s.clearSrc src).time = s.time := rfl
@[simp] theorem State.clearSrc_lau (src : Nat) : (s.clearSrc src).lau = s.lau := rfl
@[simp] theorem State.clearSrc_itin (src : Nat) : (s.clearSrc src).itin = s.itin := rfl
@[simp] theorem State.clearSrc_edge (src : Nat) : (s.clearSrc src).edge = s.edge := rfl
@[simp] theorem State.clearSrc_degFrom (src : Nat) : (s.clearSrc src).degFrom = s.degFrom := rfl
@[simp] theorem State.clearSrc_degTime (src : Nat) : (s.clearSrc src).degTime = s.degTime := rfl
@[simp] theorem State.clearSrc_degPins (src : Nat) : (s.clearSrc src).degPins = s.degPins := rfl
@[simp] theorem State.clearSrc_mac (src : Nat) : (s.clearSrc src).mac = s.mac := rfl
@[simp] theorem State.clearSrc_swx (src : Nat) : (s.clearSrc src).swx = s.swx := rfl
@[simp] theorem State.clearSrc_eng (src : Nat) : (s.clearSrc src).eng = s.eng := rfl
@[simp] theorem State.clearSrc_disp (src : Nat) : (s.clearSrc src).disp = s.disp := rfl
@[simp] theorem State.clearSrc_can (src : Nat) : (s.clearSrc src).can = s.can := rfl
@[simp] theorem State.clearSrc_nut (src : Nat) : (s.clearSrc src).nut = s.nut := rfl
@[simp] theorem State.clearSrc_np (src : Nat) : (s.clearSrc src).np = s.np := rfl
@[simp] theorem State.clearSrc_loop (src : Nat) : (s.clearSrc src).loop = s.loop := rfl
@[simp] theorem State.clearSrc_ecc (src : Nat) : (s.clearSrc src).ecc = s.ecc := rfl
@[simp] theorem State.clearSrc_saf (src : Nat) : (s.clearSrc src).saf = s.saf := rfl
@[simp] theorem State.clearSrc_modeq (src : Nat) : (s.clearSrc src).modeq = s.modeq := rfl
@[simp] theorem State.clearSrc_pwr (src : Nat) : (s.clearSrc src).pwr = s.pwr := rfl
@[simp] theorem State.clearSrc_prot (src : Nat) : (s.clearSrc src).prot = s.prot := rfl
@[simp] theorem State.clearSrc_line (src : Nat) : (s.clearSrc src).line = s.line := rfl
@[simp] theorem State.clearSrc_sys (src : Nat) : (s.clearSrc src).sys = s.sys := rfl
@[simp] theorem State.clearSrc_host (src : Nat) : (s.clearSrc src).host = s.host := rfl

/-! ### State.setByte -/

@[simp] theorem State.setByte_pending (a : Nat) (v : Byte) : (s.setByte a v).pending = s.pending := rfl
@[simp] theorem State.setByte_regs (a : Nat) (v : Byte) : (s.setByte a v).regs = s.regs := rfl
@[simp] theorem State.setByte_shadow (a : Nat) (v : Byte) : (s.setByte a v).shadow = s.shadow := rfl
@[simp] theorem State.setByte_snaps (a : Nat) (v : Byte) : (s.setByte a v).snaps = s.snaps := rfl
@[simp] theorem State.setByte_lows (a : Nat) (v : Byte) : (s.setByte a v).lows = s.lows := rfl
@[simp] theorem State.setByte_rdata (a : Nat) (v : Byte) : (s.setByte a v).rdata = s.rdata := rfl
@[simp] theorem State.setByte_free (a : Nat) (v : Byte) : (s.setByte a v).free = s.free := rfl
@[simp] theorem State.setByte_out (a : Nat) (v : Byte) : (s.setByte a v).out = s.out := rfl
@[simp] theorem State.setByte_trans (a : Nat) (v : Byte) : (s.setByte a v).trans = s.trans := rfl
@[simp] theorem State.setByte_lowFrom (a : Nat) (v : Byte) : (s.setByte a v).lowFrom = s.lowFrom := rfl
@[simp] theorem State.setByte_chans (a : Nat) (v : Byte) : (s.setByte a v).chans = s.chans := rfl
@[simp] theorem State.setByte_arrive (a : Nat) (v : Byte) : (s.setByte a v).arrive = s.arrive := rfl
@[simp] theorem State.setByte_fcu (a : Nat) (v : Byte) : (s.setByte a v).fcu = s.fcu := rfl
@[simp] theorem State.setByte_raises (a : Nat) (v : Byte) : (s.setByte a v).raises = s.raises := rfl
@[simp] theorem State.setByte_txn (a : Nat) (v : Byte) : (s.setByte a v).txn = s.txn := rfl
@[simp] theorem State.setByte_fw (a : Nat) (v : Byte) : (s.setByte a v).fw = s.fw := rfl
@[simp] theorem State.setByte_time (a : Nat) (v : Byte) : (s.setByte a v).time = s.time := rfl
@[simp] theorem State.setByte_lau (a : Nat) (v : Byte) : (s.setByte a v).lau = s.lau := rfl
@[simp] theorem State.setByte_itin (a : Nat) (v : Byte) : (s.setByte a v).itin = s.itin := rfl
@[simp] theorem State.setByte_edge (a : Nat) (v : Byte) : (s.setByte a v).edge = s.edge := rfl
@[simp] theorem State.setByte_degFrom (a : Nat) (v : Byte) : (s.setByte a v).degFrom = s.degFrom := rfl
@[simp] theorem State.setByte_degTime (a : Nat) (v : Byte) : (s.setByte a v).degTime = s.degTime := rfl
@[simp] theorem State.setByte_degPins (a : Nat) (v : Byte) : (s.setByte a v).degPins = s.degPins := rfl
@[simp] theorem State.setByte_mac (a : Nat) (v : Byte) : (s.setByte a v).mac = s.mac := rfl
@[simp] theorem State.setByte_swx (a : Nat) (v : Byte) : (s.setByte a v).swx = s.swx := rfl
@[simp] theorem State.setByte_eng (a : Nat) (v : Byte) : (s.setByte a v).eng = s.eng := rfl
@[simp] theorem State.setByte_disp (a : Nat) (v : Byte) : (s.setByte a v).disp = s.disp := rfl
@[simp] theorem State.setByte_can (a : Nat) (v : Byte) : (s.setByte a v).can = s.can := rfl
@[simp] theorem State.setByte_nut (a : Nat) (v : Byte) : (s.setByte a v).nut = s.nut := rfl
@[simp] theorem State.setByte_np (a : Nat) (v : Byte) : (s.setByte a v).np = s.np := rfl
@[simp] theorem State.setByte_loop (a : Nat) (v : Byte) : (s.setByte a v).loop = s.loop := rfl
@[simp] theorem State.setByte_ecc (a : Nat) (v : Byte) : (s.setByte a v).ecc = s.ecc := rfl
@[simp] theorem State.setByte_saf (a : Nat) (v : Byte) : (s.setByte a v).saf = s.saf := rfl
@[simp] theorem State.setByte_modeq (a : Nat) (v : Byte) : (s.setByte a v).modeq = s.modeq := rfl
@[simp] theorem State.setByte_pwr (a : Nat) (v : Byte) : (s.setByte a v).pwr = s.pwr := rfl
@[simp] theorem State.setByte_prot (a : Nat) (v : Byte) : (s.setByte a v).prot = s.prot := rfl
@[simp] theorem State.setByte_line (a : Nat) (v : Byte) : (s.setByte a v).line = s.line := rfl
@[simp] theorem State.setByte_sys (a : Nat) (v : Byte) : (s.setByte a v).sys = s.sys := rfl
@[simp] theorem State.setByte_host (a : Nat) (v : Byte) : (s.setByte a v).host = s.host := rfl

/-! ### State.setSnap -/

@[simp] theorem State.setSnap_pending (m : Master) (a : Nat) (v : Word) : (s.setSnap m a v).pending = s.pending := rfl
@[simp] theorem State.setSnap_regs (m : Master) (a : Nat) (v : Word) : (s.setSnap m a v).regs = s.regs := rfl
@[simp] theorem State.setSnap_shadow (m : Master) (a : Nat) (v : Word) : (s.setSnap m a v).shadow = s.shadow := rfl
@[simp] theorem State.setSnap_lows (m : Master) (a : Nat) (v : Word) : (s.setSnap m a v).lows = s.lows := rfl
@[simp] theorem State.setSnap_mem (m : Master) (a : Nat) (v : Word) : (s.setSnap m a v).mem = s.mem := rfl
@[simp] theorem State.setSnap_rdata (m : Master) (a : Nat) (v : Word) : (s.setSnap m a v).rdata = s.rdata := rfl
@[simp] theorem State.setSnap_free (m : Master) (a : Nat) (v : Word) : (s.setSnap m a v).free = s.free := rfl
@[simp] theorem State.setSnap_out (m : Master) (a : Nat) (v : Word) : (s.setSnap m a v).out = s.out := rfl
@[simp] theorem State.setSnap_trans (m : Master) (a : Nat) (v : Word) : (s.setSnap m a v).trans = s.trans := rfl
@[simp] theorem State.setSnap_lowFrom (m : Master) (a : Nat) (v : Word) : (s.setSnap m a v).lowFrom = s.lowFrom := rfl
@[simp] theorem State.setSnap_chans (m : Master) (a : Nat) (v : Word) : (s.setSnap m a v).chans = s.chans := rfl
@[simp] theorem State.setSnap_arrive (m : Master) (a : Nat) (v : Word) : (s.setSnap m a v).arrive = s.arrive := rfl
@[simp] theorem State.setSnap_fcu (m : Master) (a : Nat) (v : Word) : (s.setSnap m a v).fcu = s.fcu := rfl
@[simp] theorem State.setSnap_raises (m : Master) (a : Nat) (v : Word) : (s.setSnap m a v).raises = s.raises := rfl
@[simp] theorem State.setSnap_txn (m : Master) (a : Nat) (v : Word) : (s.setSnap m a v).txn = s.txn := rfl
@[simp] theorem State.setSnap_fw (m : Master) (a : Nat) (v : Word) : (s.setSnap m a v).fw = s.fw := rfl
@[simp] theorem State.setSnap_time (m : Master) (a : Nat) (v : Word) : (s.setSnap m a v).time = s.time := rfl
@[simp] theorem State.setSnap_lau (m : Master) (a : Nat) (v : Word) : (s.setSnap m a v).lau = s.lau := rfl
@[simp] theorem State.setSnap_itin (m : Master) (a : Nat) (v : Word) : (s.setSnap m a v).itin = s.itin := rfl
@[simp] theorem State.setSnap_edge (m : Master) (a : Nat) (v : Word) : (s.setSnap m a v).edge = s.edge := rfl
@[simp] theorem State.setSnap_degFrom (m : Master) (a : Nat) (v : Word) : (s.setSnap m a v).degFrom = s.degFrom := rfl
@[simp] theorem State.setSnap_degTime (m : Master) (a : Nat) (v : Word) : (s.setSnap m a v).degTime = s.degTime := rfl
@[simp] theorem State.setSnap_degPins (m : Master) (a : Nat) (v : Word) : (s.setSnap m a v).degPins = s.degPins := rfl
@[simp] theorem State.setSnap_mac (m : Master) (a : Nat) (v : Word) : (s.setSnap m a v).mac = s.mac := rfl
@[simp] theorem State.setSnap_swx (m : Master) (a : Nat) (v : Word) : (s.setSnap m a v).swx = s.swx := rfl
@[simp] theorem State.setSnap_eng (m : Master) (a : Nat) (v : Word) : (s.setSnap m a v).eng = s.eng := rfl
@[simp] theorem State.setSnap_disp (m : Master) (a : Nat) (v : Word) : (s.setSnap m a v).disp = s.disp := rfl
@[simp] theorem State.setSnap_can (m : Master) (a : Nat) (v : Word) : (s.setSnap m a v).can = s.can := rfl
@[simp] theorem State.setSnap_nut (m : Master) (a : Nat) (v : Word) : (s.setSnap m a v).nut = s.nut := rfl
@[simp] theorem State.setSnap_np (m : Master) (a : Nat) (v : Word) : (s.setSnap m a v).np = s.np := rfl
@[simp] theorem State.setSnap_loop (m : Master) (a : Nat) (v : Word) : (s.setSnap m a v).loop = s.loop := rfl
@[simp] theorem State.setSnap_ecc (m : Master) (a : Nat) (v : Word) : (s.setSnap m a v).ecc = s.ecc := rfl
@[simp] theorem State.setSnap_saf (m : Master) (a : Nat) (v : Word) : (s.setSnap m a v).saf = s.saf := rfl
@[simp] theorem State.setSnap_modeq (m : Master) (a : Nat) (v : Word) : (s.setSnap m a v).modeq = s.modeq := rfl
@[simp] theorem State.setSnap_pwr (m : Master) (a : Nat) (v : Word) : (s.setSnap m a v).pwr = s.pwr := rfl
@[simp] theorem State.setSnap_prot (m : Master) (a : Nat) (v : Word) : (s.setSnap m a v).prot = s.prot := rfl
@[simp] theorem State.setSnap_line (m : Master) (a : Nat) (v : Word) : (s.setSnap m a v).line = s.line := rfl
@[simp] theorem State.setSnap_sys (m : Master) (a : Nat) (v : Word) : (s.setSnap m a v).sys = s.sys := rfl
@[simp] theorem State.setSnap_host (m : Master) (a : Nat) (v : Word) : (s.setSnap m a v).host = s.host := rfl

/-! ### State.setLow -/

@[simp] theorem State.setLow_pending (m : Master) (a : Nat) (v : Option Word) : (s.setLow m a v).pending = s.pending := rfl
@[simp] theorem State.setLow_regs (m : Master) (a : Nat) (v : Option Word) : (s.setLow m a v).regs = s.regs := rfl
@[simp] theorem State.setLow_shadow (m : Master) (a : Nat) (v : Option Word) : (s.setLow m a v).shadow = s.shadow := rfl
@[simp] theorem State.setLow_snaps (m : Master) (a : Nat) (v : Option Word) : (s.setLow m a v).snaps = s.snaps := rfl
@[simp] theorem State.setLow_mem (m : Master) (a : Nat) (v : Option Word) : (s.setLow m a v).mem = s.mem := rfl
@[simp] theorem State.setLow_rdata (m : Master) (a : Nat) (v : Option Word) : (s.setLow m a v).rdata = s.rdata := rfl
@[simp] theorem State.setLow_free (m : Master) (a : Nat) (v : Option Word) : (s.setLow m a v).free = s.free := rfl
@[simp] theorem State.setLow_out (m : Master) (a : Nat) (v : Option Word) : (s.setLow m a v).out = s.out := rfl
@[simp] theorem State.setLow_trans (m : Master) (a : Nat) (v : Option Word) : (s.setLow m a v).trans = s.trans := rfl
@[simp] theorem State.setLow_lowFrom (m : Master) (a : Nat) (v : Option Word) : (s.setLow m a v).lowFrom = s.lowFrom := rfl
@[simp] theorem State.setLow_chans (m : Master) (a : Nat) (v : Option Word) : (s.setLow m a v).chans = s.chans := rfl
@[simp] theorem State.setLow_arrive (m : Master) (a : Nat) (v : Option Word) : (s.setLow m a v).arrive = s.arrive := rfl
@[simp] theorem State.setLow_fcu (m : Master) (a : Nat) (v : Option Word) : (s.setLow m a v).fcu = s.fcu := rfl
@[simp] theorem State.setLow_raises (m : Master) (a : Nat) (v : Option Word) : (s.setLow m a v).raises = s.raises := rfl
@[simp] theorem State.setLow_txn (m : Master) (a : Nat) (v : Option Word) : (s.setLow m a v).txn = s.txn := rfl
@[simp] theorem State.setLow_fw (m : Master) (a : Nat) (v : Option Word) : (s.setLow m a v).fw = s.fw := rfl
@[simp] theorem State.setLow_time (m : Master) (a : Nat) (v : Option Word) : (s.setLow m a v).time = s.time := rfl
@[simp] theorem State.setLow_lau (m : Master) (a : Nat) (v : Option Word) : (s.setLow m a v).lau = s.lau := rfl
@[simp] theorem State.setLow_itin (m : Master) (a : Nat) (v : Option Word) : (s.setLow m a v).itin = s.itin := rfl
@[simp] theorem State.setLow_edge (m : Master) (a : Nat) (v : Option Word) : (s.setLow m a v).edge = s.edge := rfl
@[simp] theorem State.setLow_degFrom (m : Master) (a : Nat) (v : Option Word) : (s.setLow m a v).degFrom = s.degFrom := rfl
@[simp] theorem State.setLow_degTime (m : Master) (a : Nat) (v : Option Word) : (s.setLow m a v).degTime = s.degTime := rfl
@[simp] theorem State.setLow_degPins (m : Master) (a : Nat) (v : Option Word) : (s.setLow m a v).degPins = s.degPins := rfl
@[simp] theorem State.setLow_mac (m : Master) (a : Nat) (v : Option Word) : (s.setLow m a v).mac = s.mac := rfl
@[simp] theorem State.setLow_swx (m : Master) (a : Nat) (v : Option Word) : (s.setLow m a v).swx = s.swx := rfl
@[simp] theorem State.setLow_eng (m : Master) (a : Nat) (v : Option Word) : (s.setLow m a v).eng = s.eng := rfl
@[simp] theorem State.setLow_disp (m : Master) (a : Nat) (v : Option Word) : (s.setLow m a v).disp = s.disp := rfl
@[simp] theorem State.setLow_can (m : Master) (a : Nat) (v : Option Word) : (s.setLow m a v).can = s.can := rfl
@[simp] theorem State.setLow_nut (m : Master) (a : Nat) (v : Option Word) : (s.setLow m a v).nut = s.nut := rfl
@[simp] theorem State.setLow_np (m : Master) (a : Nat) (v : Option Word) : (s.setLow m a v).np = s.np := rfl
@[simp] theorem State.setLow_loop (m : Master) (a : Nat) (v : Option Word) : (s.setLow m a v).loop = s.loop := rfl
@[simp] theorem State.setLow_ecc (m : Master) (a : Nat) (v : Option Word) : (s.setLow m a v).ecc = s.ecc := rfl
@[simp] theorem State.setLow_saf (m : Master) (a : Nat) (v : Option Word) : (s.setLow m a v).saf = s.saf := rfl
@[simp] theorem State.setLow_modeq (m : Master) (a : Nat) (v : Option Word) : (s.setLow m a v).modeq = s.modeq := rfl
@[simp] theorem State.setLow_pwr (m : Master) (a : Nat) (v : Option Word) : (s.setLow m a v).pwr = s.pwr := rfl
@[simp] theorem State.setLow_prot (m : Master) (a : Nat) (v : Option Word) : (s.setLow m a v).prot = s.prot := rfl
@[simp] theorem State.setLow_line (m : Master) (a : Nat) (v : Option Word) : (s.setLow m a v).line = s.line := rfl
@[simp] theorem State.setLow_sys (m : Master) (a : Nat) (v : Option Word) : (s.setLow m a v).sys = s.sys := rfl
@[simp] theorem State.setLow_host (m : Master) (a : Nat) (v : Option Word) : (s.setLow m a v).host = s.host := rfl

/-! ### State.fwKeep -/

@[simp] theorem State.fwKeep_pending (a : Nat) (v : Word) : (s.fwKeep a v).pending = s.pending := rfl
@[simp] theorem State.fwKeep_regs (a : Nat) (v : Word) : (s.fwKeep a v).regs = s.regs := rfl
@[simp] theorem State.fwKeep_shadow (a : Nat) (v : Word) : (s.fwKeep a v).shadow = s.shadow := rfl
@[simp] theorem State.fwKeep_snaps (a : Nat) (v : Word) : (s.fwKeep a v).snaps = s.snaps := rfl
@[simp] theorem State.fwKeep_lows (a : Nat) (v : Word) : (s.fwKeep a v).lows = s.lows := rfl
@[simp] theorem State.fwKeep_mem (a : Nat) (v : Word) : (s.fwKeep a v).mem = s.mem := rfl
@[simp] theorem State.fwKeep_rdata (a : Nat) (v : Word) : (s.fwKeep a v).rdata = s.rdata := rfl
@[simp] theorem State.fwKeep_free (a : Nat) (v : Word) : (s.fwKeep a v).free = s.free := rfl
@[simp] theorem State.fwKeep_out (a : Nat) (v : Word) : (s.fwKeep a v).out = s.out := rfl
@[simp] theorem State.fwKeep_trans (a : Nat) (v : Word) : (s.fwKeep a v).trans = s.trans := rfl
@[simp] theorem State.fwKeep_lowFrom (a : Nat) (v : Word) : (s.fwKeep a v).lowFrom = s.lowFrom := rfl
@[simp] theorem State.fwKeep_chans (a : Nat) (v : Word) : (s.fwKeep a v).chans = s.chans := rfl
@[simp] theorem State.fwKeep_arrive (a : Nat) (v : Word) : (s.fwKeep a v).arrive = s.arrive := rfl
@[simp] theorem State.fwKeep_fcu (a : Nat) (v : Word) : (s.fwKeep a v).fcu = s.fcu := rfl
@[simp] theorem State.fwKeep_raises (a : Nat) (v : Word) : (s.fwKeep a v).raises = s.raises := rfl
@[simp] theorem State.fwKeep_txn (a : Nat) (v : Word) : (s.fwKeep a v).txn = s.txn := rfl
@[simp] theorem State.fwKeep_time (a : Nat) (v : Word) : (s.fwKeep a v).time = s.time := rfl
@[simp] theorem State.fwKeep_lau (a : Nat) (v : Word) : (s.fwKeep a v).lau = s.lau := rfl
@[simp] theorem State.fwKeep_itin (a : Nat) (v : Word) : (s.fwKeep a v).itin = s.itin := rfl
@[simp] theorem State.fwKeep_edge (a : Nat) (v : Word) : (s.fwKeep a v).edge = s.edge := rfl
@[simp] theorem State.fwKeep_degFrom (a : Nat) (v : Word) : (s.fwKeep a v).degFrom = s.degFrom := rfl
@[simp] theorem State.fwKeep_degTime (a : Nat) (v : Word) : (s.fwKeep a v).degTime = s.degTime := rfl
@[simp] theorem State.fwKeep_degPins (a : Nat) (v : Word) : (s.fwKeep a v).degPins = s.degPins := rfl
@[simp] theorem State.fwKeep_mac (a : Nat) (v : Word) : (s.fwKeep a v).mac = s.mac := rfl
@[simp] theorem State.fwKeep_swx (a : Nat) (v : Word) : (s.fwKeep a v).swx = s.swx := rfl
@[simp] theorem State.fwKeep_eng (a : Nat) (v : Word) : (s.fwKeep a v).eng = s.eng := rfl
@[simp] theorem State.fwKeep_disp (a : Nat) (v : Word) : (s.fwKeep a v).disp = s.disp := rfl
@[simp] theorem State.fwKeep_can (a : Nat) (v : Word) : (s.fwKeep a v).can = s.can := rfl
@[simp] theorem State.fwKeep_nut (a : Nat) (v : Word) : (s.fwKeep a v).nut = s.nut := rfl
@[simp] theorem State.fwKeep_np (a : Nat) (v : Word) : (s.fwKeep a v).np = s.np := rfl
@[simp] theorem State.fwKeep_loop (a : Nat) (v : Word) : (s.fwKeep a v).loop = s.loop := rfl
@[simp] theorem State.fwKeep_ecc (a : Nat) (v : Word) : (s.fwKeep a v).ecc = s.ecc := rfl
@[simp] theorem State.fwKeep_saf (a : Nat) (v : Word) : (s.fwKeep a v).saf = s.saf := rfl
@[simp] theorem State.fwKeep_modeq (a : Nat) (v : Word) : (s.fwKeep a v).modeq = s.modeq := rfl
@[simp] theorem State.fwKeep_pwr (a : Nat) (v : Word) : (s.fwKeep a v).pwr = s.pwr := rfl
@[simp] theorem State.fwKeep_prot (a : Nat) (v : Word) : (s.fwKeep a v).prot = s.prot := rfl
@[simp] theorem State.fwKeep_line (a : Nat) (v : Word) : (s.fwKeep a v).line = s.line := rfl
@[simp] theorem State.fwKeep_sys (a : Nat) (v : Word) : (s.fwKeep a v).sys = s.sys := rfl
@[simp] theorem State.fwKeep_host (a : Nat) (v : Word) : (s.fwKeep a v).host = s.host := rfl

/-! ### State.setFcu -/

@[simp] theorem State.setFcu_pending (x : FcuSt) : (s.setFcu x).pending = s.pending := rfl
@[simp] theorem State.setFcu_regs (x : FcuSt) : (s.setFcu x).regs = s.regs := rfl
@[simp] theorem State.setFcu_shadow (x : FcuSt) : (s.setFcu x).shadow = s.shadow := rfl
@[simp] theorem State.setFcu_snaps (x : FcuSt) : (s.setFcu x).snaps = s.snaps := rfl
@[simp] theorem State.setFcu_lows (x : FcuSt) : (s.setFcu x).lows = s.lows := rfl
@[simp] theorem State.setFcu_mem (x : FcuSt) : (s.setFcu x).mem = s.mem := rfl
@[simp] theorem State.setFcu_rdata (x : FcuSt) : (s.setFcu x).rdata = s.rdata := rfl
@[simp] theorem State.setFcu_free (x : FcuSt) : (s.setFcu x).free = s.free := rfl
@[simp] theorem State.setFcu_out (x : FcuSt) : (s.setFcu x).out = s.out := rfl
@[simp] theorem State.setFcu_trans (x : FcuSt) : (s.setFcu x).trans = s.trans := rfl
@[simp] theorem State.setFcu_lowFrom (x : FcuSt) : (s.setFcu x).lowFrom = s.lowFrom := rfl
@[simp] theorem State.setFcu_chans (x : FcuSt) : (s.setFcu x).chans = s.chans := rfl
@[simp] theorem State.setFcu_arrive (x : FcuSt) : (s.setFcu x).arrive = s.arrive := rfl
@[simp] theorem State.setFcu_raises (x : FcuSt) : (s.setFcu x).raises = s.raises := rfl
@[simp] theorem State.setFcu_txn (x : FcuSt) : (s.setFcu x).txn = s.txn := rfl
@[simp] theorem State.setFcu_fw (x : FcuSt) : (s.setFcu x).fw = s.fw := rfl
@[simp] theorem State.setFcu_time (x : FcuSt) : (s.setFcu x).time = s.time := rfl
@[simp] theorem State.setFcu_lau (x : FcuSt) : (s.setFcu x).lau = s.lau := rfl
@[simp] theorem State.setFcu_itin (x : FcuSt) : (s.setFcu x).itin = s.itin := rfl
@[simp] theorem State.setFcu_edge (x : FcuSt) : (s.setFcu x).edge = s.edge := rfl
@[simp] theorem State.setFcu_degFrom (x : FcuSt) : (s.setFcu x).degFrom = s.degFrom := rfl
@[simp] theorem State.setFcu_degTime (x : FcuSt) : (s.setFcu x).degTime = s.degTime := rfl
@[simp] theorem State.setFcu_degPins (x : FcuSt) : (s.setFcu x).degPins = s.degPins := rfl
@[simp] theorem State.setFcu_mac (x : FcuSt) : (s.setFcu x).mac = s.mac := rfl
@[simp] theorem State.setFcu_swx (x : FcuSt) : (s.setFcu x).swx = s.swx := rfl
@[simp] theorem State.setFcu_eng (x : FcuSt) : (s.setFcu x).eng = s.eng := rfl
@[simp] theorem State.setFcu_disp (x : FcuSt) : (s.setFcu x).disp = s.disp := rfl
@[simp] theorem State.setFcu_can (x : FcuSt) : (s.setFcu x).can = s.can := rfl
@[simp] theorem State.setFcu_nut (x : FcuSt) : (s.setFcu x).nut = s.nut := rfl
@[simp] theorem State.setFcu_np (x : FcuSt) : (s.setFcu x).np = s.np := rfl
@[simp] theorem State.setFcu_loop (x : FcuSt) : (s.setFcu x).loop = s.loop := rfl
@[simp] theorem State.setFcu_ecc (x : FcuSt) : (s.setFcu x).ecc = s.ecc := rfl
@[simp] theorem State.setFcu_saf (x : FcuSt) : (s.setFcu x).saf = s.saf := rfl
@[simp] theorem State.setFcu_modeq (x : FcuSt) : (s.setFcu x).modeq = s.modeq := rfl
@[simp] theorem State.setFcu_pwr (x : FcuSt) : (s.setFcu x).pwr = s.pwr := rfl
@[simp] theorem State.setFcu_prot (x : FcuSt) : (s.setFcu x).prot = s.prot := rfl
@[simp] theorem State.setFcu_line (x : FcuSt) : (s.setFcu x).line = s.line := rfl
@[simp] theorem State.setFcu_sys (x : FcuSt) : (s.setFcu x).sys = s.sys := rfl
@[simp] theorem State.setFcu_host (x : FcuSt) : (s.setFcu x).host = s.host := rfl

/-! ### State.setSaf -/

@[simp] theorem State.setSaf_pending (x : SafSt) : (s.setSaf x).pending = s.pending := rfl
@[simp] theorem State.setSaf_regs (x : SafSt) : (s.setSaf x).regs = s.regs := rfl
@[simp] theorem State.setSaf_shadow (x : SafSt) : (s.setSaf x).shadow = s.shadow := rfl
@[simp] theorem State.setSaf_snaps (x : SafSt) : (s.setSaf x).snaps = s.snaps := rfl
@[simp] theorem State.setSaf_lows (x : SafSt) : (s.setSaf x).lows = s.lows := rfl
@[simp] theorem State.setSaf_mem (x : SafSt) : (s.setSaf x).mem = s.mem := rfl
@[simp] theorem State.setSaf_rdata (x : SafSt) : (s.setSaf x).rdata = s.rdata := rfl
@[simp] theorem State.setSaf_free (x : SafSt) : (s.setSaf x).free = s.free := rfl
@[simp] theorem State.setSaf_out (x : SafSt) : (s.setSaf x).out = s.out := rfl
@[simp] theorem State.setSaf_trans (x : SafSt) : (s.setSaf x).trans = s.trans := rfl
@[simp] theorem State.setSaf_lowFrom (x : SafSt) : (s.setSaf x).lowFrom = s.lowFrom := rfl
@[simp] theorem State.setSaf_chans (x : SafSt) : (s.setSaf x).chans = s.chans := rfl
@[simp] theorem State.setSaf_arrive (x : SafSt) : (s.setSaf x).arrive = s.arrive := rfl
@[simp] theorem State.setSaf_fcu (x : SafSt) : (s.setSaf x).fcu = s.fcu := rfl
@[simp] theorem State.setSaf_raises (x : SafSt) : (s.setSaf x).raises = s.raises := rfl
@[simp] theorem State.setSaf_txn (x : SafSt) : (s.setSaf x).txn = s.txn := rfl
@[simp] theorem State.setSaf_fw (x : SafSt) : (s.setSaf x).fw = s.fw := rfl
@[simp] theorem State.setSaf_time (x : SafSt) : (s.setSaf x).time = s.time := rfl
@[simp] theorem State.setSaf_lau (x : SafSt) : (s.setSaf x).lau = s.lau := rfl
@[simp] theorem State.setSaf_itin (x : SafSt) : (s.setSaf x).itin = s.itin := rfl
@[simp] theorem State.setSaf_edge (x : SafSt) : (s.setSaf x).edge = s.edge := rfl
@[simp] theorem State.setSaf_degFrom (x : SafSt) : (s.setSaf x).degFrom = s.degFrom := rfl
@[simp] theorem State.setSaf_degTime (x : SafSt) : (s.setSaf x).degTime = s.degTime := rfl
@[simp] theorem State.setSaf_degPins (x : SafSt) : (s.setSaf x).degPins = s.degPins := rfl
@[simp] theorem State.setSaf_mac (x : SafSt) : (s.setSaf x).mac = s.mac := rfl
@[simp] theorem State.setSaf_swx (x : SafSt) : (s.setSaf x).swx = s.swx := rfl
@[simp] theorem State.setSaf_eng (x : SafSt) : (s.setSaf x).eng = s.eng := rfl
@[simp] theorem State.setSaf_disp (x : SafSt) : (s.setSaf x).disp = s.disp := rfl
@[simp] theorem State.setSaf_can (x : SafSt) : (s.setSaf x).can = s.can := rfl
@[simp] theorem State.setSaf_nut (x : SafSt) : (s.setSaf x).nut = s.nut := rfl
@[simp] theorem State.setSaf_np (x : SafSt) : (s.setSaf x).np = s.np := rfl
@[simp] theorem State.setSaf_loop (x : SafSt) : (s.setSaf x).loop = s.loop := rfl
@[simp] theorem State.setSaf_ecc (x : SafSt) : (s.setSaf x).ecc = s.ecc := rfl
@[simp] theorem State.setSaf_modeq (x : SafSt) : (s.setSaf x).modeq = s.modeq := rfl
@[simp] theorem State.setSaf_pwr (x : SafSt) : (s.setSaf x).pwr = s.pwr := rfl
@[simp] theorem State.setSaf_prot (x : SafSt) : (s.setSaf x).prot = s.prot := rfl
@[simp] theorem State.setSaf_line (x : SafSt) : (s.setSaf x).line = s.line := rfl
@[simp] theorem State.setSaf_sys (x : SafSt) : (s.setSaf x).sys = s.sys := rfl
@[simp] theorem State.setSaf_host (x : SafSt) : (s.setSaf x).host = s.host := rfl

/-! ### State.setLine -/

@[simp] theorem State.setLine_pending (x : LineSt) : (s.setLine x).pending = s.pending := rfl
@[simp] theorem State.setLine_regs (x : LineSt) : (s.setLine x).regs = s.regs := rfl
@[simp] theorem State.setLine_shadow (x : LineSt) : (s.setLine x).shadow = s.shadow := rfl
@[simp] theorem State.setLine_snaps (x : LineSt) : (s.setLine x).snaps = s.snaps := rfl
@[simp] theorem State.setLine_lows (x : LineSt) : (s.setLine x).lows = s.lows := rfl
@[simp] theorem State.setLine_mem (x : LineSt) : (s.setLine x).mem = s.mem := rfl
@[simp] theorem State.setLine_rdata (x : LineSt) : (s.setLine x).rdata = s.rdata := rfl
@[simp] theorem State.setLine_free (x : LineSt) : (s.setLine x).free = s.free := rfl
@[simp] theorem State.setLine_out (x : LineSt) : (s.setLine x).out = s.out := rfl
@[simp] theorem State.setLine_trans (x : LineSt) : (s.setLine x).trans = s.trans := rfl
@[simp] theorem State.setLine_lowFrom (x : LineSt) : (s.setLine x).lowFrom = s.lowFrom := rfl
@[simp] theorem State.setLine_chans (x : LineSt) : (s.setLine x).chans = s.chans := rfl
@[simp] theorem State.setLine_arrive (x : LineSt) : (s.setLine x).arrive = s.arrive := rfl
@[simp] theorem State.setLine_fcu (x : LineSt) : (s.setLine x).fcu = s.fcu := rfl
@[simp] theorem State.setLine_raises (x : LineSt) : (s.setLine x).raises = s.raises := rfl
@[simp] theorem State.setLine_txn (x : LineSt) : (s.setLine x).txn = s.txn := rfl
@[simp] theorem State.setLine_fw (x : LineSt) : (s.setLine x).fw = s.fw := rfl
@[simp] theorem State.setLine_time (x : LineSt) : (s.setLine x).time = s.time := rfl
@[simp] theorem State.setLine_lau (x : LineSt) : (s.setLine x).lau = s.lau := rfl
@[simp] theorem State.setLine_itin (x : LineSt) : (s.setLine x).itin = s.itin := rfl
@[simp] theorem State.setLine_edge (x : LineSt) : (s.setLine x).edge = s.edge := rfl
@[simp] theorem State.setLine_degFrom (x : LineSt) : (s.setLine x).degFrom = s.degFrom := rfl
@[simp] theorem State.setLine_degTime (x : LineSt) : (s.setLine x).degTime = s.degTime := rfl
@[simp] theorem State.setLine_degPins (x : LineSt) : (s.setLine x).degPins = s.degPins := rfl
@[simp] theorem State.setLine_mac (x : LineSt) : (s.setLine x).mac = s.mac := rfl
@[simp] theorem State.setLine_swx (x : LineSt) : (s.setLine x).swx = s.swx := rfl
@[simp] theorem State.setLine_eng (x : LineSt) : (s.setLine x).eng = s.eng := rfl
@[simp] theorem State.setLine_disp (x : LineSt) : (s.setLine x).disp = s.disp := rfl
@[simp] theorem State.setLine_can (x : LineSt) : (s.setLine x).can = s.can := rfl
@[simp] theorem State.setLine_nut (x : LineSt) : (s.setLine x).nut = s.nut := rfl
@[simp] theorem State.setLine_np (x : LineSt) : (s.setLine x).np = s.np := rfl
@[simp] theorem State.setLine_loop (x : LineSt) : (s.setLine x).loop = s.loop := rfl
@[simp] theorem State.setLine_ecc (x : LineSt) : (s.setLine x).ecc = s.ecc := rfl
@[simp] theorem State.setLine_saf (x : LineSt) : (s.setLine x).saf = s.saf := rfl
@[simp] theorem State.setLine_modeq (x : LineSt) : (s.setLine x).modeq = s.modeq := rfl
@[simp] theorem State.setLine_pwr (x : LineSt) : (s.setLine x).pwr = s.pwr := rfl
@[simp] theorem State.setLine_prot (x : LineSt) : (s.setLine x).prot = s.prot := rfl
@[simp] theorem State.setLine_sys (x : LineSt) : (s.setLine x).sys = s.sys := rfl
@[simp] theorem State.setLine_host (x : LineSt) : (s.setLine x).host = s.host := rfl

/-! ### State.setEng -/

@[simp] theorem State.setEng_pending (n : Nat) (x : EngSt) : (s.setEng n x).pending = s.pending := rfl
@[simp] theorem State.setEng_regs (n : Nat) (x : EngSt) : (s.setEng n x).regs = s.regs := rfl
@[simp] theorem State.setEng_shadow (n : Nat) (x : EngSt) : (s.setEng n x).shadow = s.shadow := rfl
@[simp] theorem State.setEng_snaps (n : Nat) (x : EngSt) : (s.setEng n x).snaps = s.snaps := rfl
@[simp] theorem State.setEng_lows (n : Nat) (x : EngSt) : (s.setEng n x).lows = s.lows := rfl
@[simp] theorem State.setEng_mem (n : Nat) (x : EngSt) : (s.setEng n x).mem = s.mem := rfl
@[simp] theorem State.setEng_rdata (n : Nat) (x : EngSt) : (s.setEng n x).rdata = s.rdata := rfl
@[simp] theorem State.setEng_free (n : Nat) (x : EngSt) : (s.setEng n x).free = s.free := rfl
@[simp] theorem State.setEng_out (n : Nat) (x : EngSt) : (s.setEng n x).out = s.out := rfl
@[simp] theorem State.setEng_trans (n : Nat) (x : EngSt) : (s.setEng n x).trans = s.trans := rfl
@[simp] theorem State.setEng_lowFrom (n : Nat) (x : EngSt) : (s.setEng n x).lowFrom = s.lowFrom := rfl
@[simp] theorem State.setEng_chans (n : Nat) (x : EngSt) : (s.setEng n x).chans = s.chans := rfl
@[simp] theorem State.setEng_arrive (n : Nat) (x : EngSt) : (s.setEng n x).arrive = s.arrive := rfl
@[simp] theorem State.setEng_fcu (n : Nat) (x : EngSt) : (s.setEng n x).fcu = s.fcu := rfl
@[simp] theorem State.setEng_raises (n : Nat) (x : EngSt) : (s.setEng n x).raises = s.raises := rfl
@[simp] theorem State.setEng_txn (n : Nat) (x : EngSt) : (s.setEng n x).txn = s.txn := rfl
@[simp] theorem State.setEng_fw (n : Nat) (x : EngSt) : (s.setEng n x).fw = s.fw := rfl
@[simp] theorem State.setEng_time (n : Nat) (x : EngSt) : (s.setEng n x).time = s.time := rfl
@[simp] theorem State.setEng_lau (n : Nat) (x : EngSt) : (s.setEng n x).lau = s.lau := rfl
@[simp] theorem State.setEng_itin (n : Nat) (x : EngSt) : (s.setEng n x).itin = s.itin := rfl
@[simp] theorem State.setEng_edge (n : Nat) (x : EngSt) : (s.setEng n x).edge = s.edge := rfl
@[simp] theorem State.setEng_degFrom (n : Nat) (x : EngSt) : (s.setEng n x).degFrom = s.degFrom := rfl
@[simp] theorem State.setEng_degTime (n : Nat) (x : EngSt) : (s.setEng n x).degTime = s.degTime := rfl
@[simp] theorem State.setEng_degPins (n : Nat) (x : EngSt) : (s.setEng n x).degPins = s.degPins := rfl
@[simp] theorem State.setEng_mac (n : Nat) (x : EngSt) : (s.setEng n x).mac = s.mac := rfl
@[simp] theorem State.setEng_swx (n : Nat) (x : EngSt) : (s.setEng n x).swx = s.swx := rfl
@[simp] theorem State.setEng_disp (n : Nat) (x : EngSt) : (s.setEng n x).disp = s.disp := rfl
@[simp] theorem State.setEng_can (n : Nat) (x : EngSt) : (s.setEng n x).can = s.can := rfl
@[simp] theorem State.setEng_nut (n : Nat) (x : EngSt) : (s.setEng n x).nut = s.nut := rfl
@[simp] theorem State.setEng_np (n : Nat) (x : EngSt) : (s.setEng n x).np = s.np := rfl
@[simp] theorem State.setEng_loop (n : Nat) (x : EngSt) : (s.setEng n x).loop = s.loop := rfl
@[simp] theorem State.setEng_ecc (n : Nat) (x : EngSt) : (s.setEng n x).ecc = s.ecc := rfl
@[simp] theorem State.setEng_saf (n : Nat) (x : EngSt) : (s.setEng n x).saf = s.saf := rfl
@[simp] theorem State.setEng_modeq (n : Nat) (x : EngSt) : (s.setEng n x).modeq = s.modeq := rfl
@[simp] theorem State.setEng_pwr (n : Nat) (x : EngSt) : (s.setEng n x).pwr = s.pwr := rfl
@[simp] theorem State.setEng_prot (n : Nat) (x : EngSt) : (s.setEng n x).prot = s.prot := rfl
@[simp] theorem State.setEng_line (n : Nat) (x : EngSt) : (s.setEng n x).line = s.line := rfl
@[simp] theorem State.setEng_sys (n : Nat) (x : EngSt) : (s.setEng n x).sys = s.sys := rfl
@[simp] theorem State.setEng_host (n : Nat) (x : EngSt) : (s.setEng n x).host = s.host := rfl

/-! ### State.setCan -/

@[simp] theorem State.setCan_pending (n : Nat) (x : CanSt) : (s.setCan n x).pending = s.pending := rfl
@[simp] theorem State.setCan_regs (n : Nat) (x : CanSt) : (s.setCan n x).regs = s.regs := rfl
@[simp] theorem State.setCan_shadow (n : Nat) (x : CanSt) : (s.setCan n x).shadow = s.shadow := rfl
@[simp] theorem State.setCan_snaps (n : Nat) (x : CanSt) : (s.setCan n x).snaps = s.snaps := rfl
@[simp] theorem State.setCan_lows (n : Nat) (x : CanSt) : (s.setCan n x).lows = s.lows := rfl
@[simp] theorem State.setCan_mem (n : Nat) (x : CanSt) : (s.setCan n x).mem = s.mem := rfl
@[simp] theorem State.setCan_rdata (n : Nat) (x : CanSt) : (s.setCan n x).rdata = s.rdata := rfl
@[simp] theorem State.setCan_free (n : Nat) (x : CanSt) : (s.setCan n x).free = s.free := rfl
@[simp] theorem State.setCan_out (n : Nat) (x : CanSt) : (s.setCan n x).out = s.out := rfl
@[simp] theorem State.setCan_trans (n : Nat) (x : CanSt) : (s.setCan n x).trans = s.trans := rfl
@[simp] theorem State.setCan_lowFrom (n : Nat) (x : CanSt) : (s.setCan n x).lowFrom = s.lowFrom := rfl
@[simp] theorem State.setCan_chans (n : Nat) (x : CanSt) : (s.setCan n x).chans = s.chans := rfl
@[simp] theorem State.setCan_arrive (n : Nat) (x : CanSt) : (s.setCan n x).arrive = s.arrive := rfl
@[simp] theorem State.setCan_fcu (n : Nat) (x : CanSt) : (s.setCan n x).fcu = s.fcu := rfl
@[simp] theorem State.setCan_raises (n : Nat) (x : CanSt) : (s.setCan n x).raises = s.raises := rfl
@[simp] theorem State.setCan_txn (n : Nat) (x : CanSt) : (s.setCan n x).txn = s.txn := rfl
@[simp] theorem State.setCan_fw (n : Nat) (x : CanSt) : (s.setCan n x).fw = s.fw := rfl
@[simp] theorem State.setCan_time (n : Nat) (x : CanSt) : (s.setCan n x).time = s.time := rfl
@[simp] theorem State.setCan_lau (n : Nat) (x : CanSt) : (s.setCan n x).lau = s.lau := rfl
@[simp] theorem State.setCan_itin (n : Nat) (x : CanSt) : (s.setCan n x).itin = s.itin := rfl
@[simp] theorem State.setCan_edge (n : Nat) (x : CanSt) : (s.setCan n x).edge = s.edge := rfl
@[simp] theorem State.setCan_degFrom (n : Nat) (x : CanSt) : (s.setCan n x).degFrom = s.degFrom := rfl
@[simp] theorem State.setCan_degTime (n : Nat) (x : CanSt) : (s.setCan n x).degTime = s.degTime := rfl
@[simp] theorem State.setCan_degPins (n : Nat) (x : CanSt) : (s.setCan n x).degPins = s.degPins := rfl
@[simp] theorem State.setCan_mac (n : Nat) (x : CanSt) : (s.setCan n x).mac = s.mac := rfl
@[simp] theorem State.setCan_swx (n : Nat) (x : CanSt) : (s.setCan n x).swx = s.swx := rfl
@[simp] theorem State.setCan_eng (n : Nat) (x : CanSt) : (s.setCan n x).eng = s.eng := rfl
@[simp] theorem State.setCan_disp (n : Nat) (x : CanSt) : (s.setCan n x).disp = s.disp := rfl
@[simp] theorem State.setCan_nut (n : Nat) (x : CanSt) : (s.setCan n x).nut = s.nut := rfl
@[simp] theorem State.setCan_np (n : Nat) (x : CanSt) : (s.setCan n x).np = s.np := rfl
@[simp] theorem State.setCan_loop (n : Nat) (x : CanSt) : (s.setCan n x).loop = s.loop := rfl
@[simp] theorem State.setCan_ecc (n : Nat) (x : CanSt) : (s.setCan n x).ecc = s.ecc := rfl
@[simp] theorem State.setCan_saf (n : Nat) (x : CanSt) : (s.setCan n x).saf = s.saf := rfl
@[simp] theorem State.setCan_modeq (n : Nat) (x : CanSt) : (s.setCan n x).modeq = s.modeq := rfl
@[simp] theorem State.setCan_pwr (n : Nat) (x : CanSt) : (s.setCan n x).pwr = s.pwr := rfl
@[simp] theorem State.setCan_prot (n : Nat) (x : CanSt) : (s.setCan n x).prot = s.prot := rfl
@[simp] theorem State.setCan_line (n : Nat) (x : CanSt) : (s.setCan n x).line = s.line := rfl
@[simp] theorem State.setCan_sys (n : Nat) (x : CanSt) : (s.setCan n x).sys = s.sys := rfl
@[simp] theorem State.setCan_host (n : Nat) (x : CanSt) : (s.setCan n x).host = s.host := rfl

/-! ### State.setMac -/

@[simp] theorem State.setMac_pending (p : Nat) (x : MacSt) : (s.setMac p x).pending = s.pending := rfl
@[simp] theorem State.setMac_regs (p : Nat) (x : MacSt) : (s.setMac p x).regs = s.regs := rfl
@[simp] theorem State.setMac_shadow (p : Nat) (x : MacSt) : (s.setMac p x).shadow = s.shadow := rfl
@[simp] theorem State.setMac_snaps (p : Nat) (x : MacSt) : (s.setMac p x).snaps = s.snaps := rfl
@[simp] theorem State.setMac_lows (p : Nat) (x : MacSt) : (s.setMac p x).lows = s.lows := rfl
@[simp] theorem State.setMac_mem (p : Nat) (x : MacSt) : (s.setMac p x).mem = s.mem := rfl
@[simp] theorem State.setMac_rdata (p : Nat) (x : MacSt) : (s.setMac p x).rdata = s.rdata := rfl
@[simp] theorem State.setMac_free (p : Nat) (x : MacSt) : (s.setMac p x).free = s.free := rfl
@[simp] theorem State.setMac_out (p : Nat) (x : MacSt) : (s.setMac p x).out = s.out := rfl
@[simp] theorem State.setMac_trans (p : Nat) (x : MacSt) : (s.setMac p x).trans = s.trans := rfl
@[simp] theorem State.setMac_lowFrom (p : Nat) (x : MacSt) : (s.setMac p x).lowFrom = s.lowFrom := rfl
@[simp] theorem State.setMac_chans (p : Nat) (x : MacSt) : (s.setMac p x).chans = s.chans := rfl
@[simp] theorem State.setMac_arrive (p : Nat) (x : MacSt) : (s.setMac p x).arrive = s.arrive := rfl
@[simp] theorem State.setMac_fcu (p : Nat) (x : MacSt) : (s.setMac p x).fcu = s.fcu := rfl
@[simp] theorem State.setMac_raises (p : Nat) (x : MacSt) : (s.setMac p x).raises = s.raises := rfl
@[simp] theorem State.setMac_txn (p : Nat) (x : MacSt) : (s.setMac p x).txn = s.txn := rfl
@[simp] theorem State.setMac_fw (p : Nat) (x : MacSt) : (s.setMac p x).fw = s.fw := rfl
@[simp] theorem State.setMac_time (p : Nat) (x : MacSt) : (s.setMac p x).time = s.time := rfl
@[simp] theorem State.setMac_lau (p : Nat) (x : MacSt) : (s.setMac p x).lau = s.lau := rfl
@[simp] theorem State.setMac_itin (p : Nat) (x : MacSt) : (s.setMac p x).itin = s.itin := rfl
@[simp] theorem State.setMac_edge (p : Nat) (x : MacSt) : (s.setMac p x).edge = s.edge := rfl
@[simp] theorem State.setMac_degFrom (p : Nat) (x : MacSt) : (s.setMac p x).degFrom = s.degFrom := rfl
@[simp] theorem State.setMac_degTime (p : Nat) (x : MacSt) : (s.setMac p x).degTime = s.degTime := rfl
@[simp] theorem State.setMac_degPins (p : Nat) (x : MacSt) : (s.setMac p x).degPins = s.degPins := rfl
@[simp] theorem State.setMac_swx (p : Nat) (x : MacSt) : (s.setMac p x).swx = s.swx := rfl
@[simp] theorem State.setMac_eng (p : Nat) (x : MacSt) : (s.setMac p x).eng = s.eng := rfl
@[simp] theorem State.setMac_disp (p : Nat) (x : MacSt) : (s.setMac p x).disp = s.disp := rfl
@[simp] theorem State.setMac_can (p : Nat) (x : MacSt) : (s.setMac p x).can = s.can := rfl
@[simp] theorem State.setMac_nut (p : Nat) (x : MacSt) : (s.setMac p x).nut = s.nut := rfl
@[simp] theorem State.setMac_np (p : Nat) (x : MacSt) : (s.setMac p x).np = s.np := rfl
@[simp] theorem State.setMac_loop (p : Nat) (x : MacSt) : (s.setMac p x).loop = s.loop := rfl
@[simp] theorem State.setMac_ecc (p : Nat) (x : MacSt) : (s.setMac p x).ecc = s.ecc := rfl
@[simp] theorem State.setMac_saf (p : Nat) (x : MacSt) : (s.setMac p x).saf = s.saf := rfl
@[simp] theorem State.setMac_modeq (p : Nat) (x : MacSt) : (s.setMac p x).modeq = s.modeq := rfl
@[simp] theorem State.setMac_pwr (p : Nat) (x : MacSt) : (s.setMac p x).pwr = s.pwr := rfl
@[simp] theorem State.setMac_prot (p : Nat) (x : MacSt) : (s.setMac p x).prot = s.prot := rfl
@[simp] theorem State.setMac_line (p : Nat) (x : MacSt) : (s.setMac p x).line = s.line := rfl
@[simp] theorem State.setMac_sys (p : Nat) (x : MacSt) : (s.setMac p x).sys = s.sys := rfl
@[simp] theorem State.setMac_host (p : Nat) (x : MacSt) : (s.setMac p x).host = s.host := rfl

/-! ### State.setInst -/

@[simp] theorem State.setInst_pending (i : Nat) (x : Option InstSt) : (s.setInst i x).pending = s.pending := rfl
@[simp] theorem State.setInst_regs (i : Nat) (x : Option InstSt) : (s.setInst i x).regs = s.regs := rfl
@[simp] theorem State.setInst_shadow (i : Nat) (x : Option InstSt) : (s.setInst i x).shadow = s.shadow := rfl
@[simp] theorem State.setInst_snaps (i : Nat) (x : Option InstSt) : (s.setInst i x).snaps = s.snaps := rfl
@[simp] theorem State.setInst_lows (i : Nat) (x : Option InstSt) : (s.setInst i x).lows = s.lows := rfl
@[simp] theorem State.setInst_mem (i : Nat) (x : Option InstSt) : (s.setInst i x).mem = s.mem := rfl
@[simp] theorem State.setInst_rdata (i : Nat) (x : Option InstSt) : (s.setInst i x).rdata = s.rdata := rfl
@[simp] theorem State.setInst_free (i : Nat) (x : Option InstSt) : (s.setInst i x).free = s.free := rfl
@[simp] theorem State.setInst_out (i : Nat) (x : Option InstSt) : (s.setInst i x).out = s.out := rfl
@[simp] theorem State.setInst_trans (i : Nat) (x : Option InstSt) : (s.setInst i x).trans = s.trans := rfl
@[simp] theorem State.setInst_lowFrom (i : Nat) (x : Option InstSt) : (s.setInst i x).lowFrom = s.lowFrom := rfl
@[simp] theorem State.setInst_chans (i : Nat) (x : Option InstSt) : (s.setInst i x).chans = s.chans := rfl
@[simp] theorem State.setInst_arrive (i : Nat) (x : Option InstSt) : (s.setInst i x).arrive = s.arrive := rfl
@[simp] theorem State.setInst_fcu (i : Nat) (x : Option InstSt) : (s.setInst i x).fcu = s.fcu := rfl
@[simp] theorem State.setInst_raises (i : Nat) (x : Option InstSt) : (s.setInst i x).raises = s.raises := rfl
@[simp] theorem State.setInst_txn (i : Nat) (x : Option InstSt) : (s.setInst i x).txn = s.txn := rfl
@[simp] theorem State.setInst_fw (i : Nat) (x : Option InstSt) : (s.setInst i x).fw = s.fw := rfl
@[simp] theorem State.setInst_time (i : Nat) (x : Option InstSt) : (s.setInst i x).time = s.time := rfl
@[simp] theorem State.setInst_lau (i : Nat) (x : Option InstSt) : (s.setInst i x).lau = s.lau := rfl
@[simp] theorem State.setInst_itin (i : Nat) (x : Option InstSt) : (s.setInst i x).itin = s.itin := rfl
@[simp] theorem State.setInst_edge (i : Nat) (x : Option InstSt) : (s.setInst i x).edge = s.edge := rfl
@[simp] theorem State.setInst_degFrom (i : Nat) (x : Option InstSt) : (s.setInst i x).degFrom = s.degFrom := rfl
@[simp] theorem State.setInst_degTime (i : Nat) (x : Option InstSt) : (s.setInst i x).degTime = s.degTime := rfl
@[simp] theorem State.setInst_degPins (i : Nat) (x : Option InstSt) : (s.setInst i x).degPins = s.degPins := rfl
@[simp] theorem State.setInst_mac (i : Nat) (x : Option InstSt) : (s.setInst i x).mac = s.mac := rfl
@[simp] theorem State.setInst_swx (i : Nat) (x : Option InstSt) : (s.setInst i x).swx = s.swx := rfl
@[simp] theorem State.setInst_eng (i : Nat) (x : Option InstSt) : (s.setInst i x).eng = s.eng := rfl
@[simp] theorem State.setInst_disp (i : Nat) (x : Option InstSt) : (s.setInst i x).disp = s.disp := rfl
@[simp] theorem State.setInst_can (i : Nat) (x : Option InstSt) : (s.setInst i x).can = s.can := rfl
@[simp] theorem State.setInst_nut (i : Nat) (x : Option InstSt) : (s.setInst i x).nut = s.nut := rfl
@[simp] theorem State.setInst_np (i : Nat) (x : Option InstSt) : (s.setInst i x).np = s.np := rfl
@[simp] theorem State.setInst_loop (i : Nat) (x : Option InstSt) : (s.setInst i x).loop = s.loop := rfl
@[simp] theorem State.setInst_ecc (i : Nat) (x : Option InstSt) : (s.setInst i x).ecc = s.ecc := rfl
@[simp] theorem State.setInst_saf (i : Nat) (x : Option InstSt) : (s.setInst i x).saf = s.saf := rfl
@[simp] theorem State.setInst_modeq (i : Nat) (x : Option InstSt) : (s.setInst i x).modeq = s.modeq := rfl
@[simp] theorem State.setInst_pwr (i : Nat) (x : Option InstSt) : (s.setInst i x).pwr = s.pwr := rfl
@[simp] theorem State.setInst_line (i : Nat) (x : Option InstSt) : (s.setInst i x).line = s.line := rfl
@[simp] theorem State.setInst_sys (i : Nat) (x : Option InstSt) : (s.setInst i x).sys = s.sys := rfl
@[simp] theorem State.setInst_host (i : Nat) (x : Option InstSt) : (s.setInst i x).host = s.host := rfl

/-! ### State.setThr -/

@[simp] theorem State.setThr_pending (n t : Nat) (x : Thr) : (s.setThr n t x).pending = s.pending := rfl
@[simp] theorem State.setThr_shadow (n t : Nat) (x : Thr) : (s.setThr n t x).shadow = s.shadow := rfl
@[simp] theorem State.setThr_snaps (n t : Nat) (x : Thr) : (s.setThr n t x).snaps = s.snaps := rfl
@[simp] theorem State.setThr_lows (n t : Nat) (x : Thr) : (s.setThr n t x).lows = s.lows := rfl
@[simp] theorem State.setThr_mem (n t : Nat) (x : Thr) : (s.setThr n t x).mem = s.mem := rfl
@[simp] theorem State.setThr_rdata (n t : Nat) (x : Thr) : (s.setThr n t x).rdata = s.rdata := rfl
@[simp] theorem State.setThr_free (n t : Nat) (x : Thr) : (s.setThr n t x).free = s.free := rfl
@[simp] theorem State.setThr_out (n t : Nat) (x : Thr) : (s.setThr n t x).out = s.out := rfl
@[simp] theorem State.setThr_trans (n t : Nat) (x : Thr) : (s.setThr n t x).trans = s.trans := rfl
@[simp] theorem State.setThr_lowFrom (n t : Nat) (x : Thr) : (s.setThr n t x).lowFrom = s.lowFrom := rfl
@[simp] theorem State.setThr_chans (n t : Nat) (x : Thr) : (s.setThr n t x).chans = s.chans := rfl
@[simp] theorem State.setThr_arrive (n t : Nat) (x : Thr) : (s.setThr n t x).arrive = s.arrive := rfl
@[simp] theorem State.setThr_fcu (n t : Nat) (x : Thr) : (s.setThr n t x).fcu = s.fcu := rfl
@[simp] theorem State.setThr_raises (n t : Nat) (x : Thr) : (s.setThr n t x).raises = s.raises := rfl
@[simp] theorem State.setThr_txn (n t : Nat) (x : Thr) : (s.setThr n t x).txn = s.txn := rfl
@[simp] theorem State.setThr_fw (n t : Nat) (x : Thr) : (s.setThr n t x).fw = s.fw := rfl
@[simp] theorem State.setThr_time (n t : Nat) (x : Thr) : (s.setThr n t x).time = s.time := rfl
@[simp] theorem State.setThr_lau (n t : Nat) (x : Thr) : (s.setThr n t x).lau = s.lau := rfl
@[simp] theorem State.setThr_itin (n t : Nat) (x : Thr) : (s.setThr n t x).itin = s.itin := rfl
@[simp] theorem State.setThr_edge (n t : Nat) (x : Thr) : (s.setThr n t x).edge = s.edge := rfl
@[simp] theorem State.setThr_degFrom (n t : Nat) (x : Thr) : (s.setThr n t x).degFrom = s.degFrom := rfl
@[simp] theorem State.setThr_degTime (n t : Nat) (x : Thr) : (s.setThr n t x).degTime = s.degTime := rfl
@[simp] theorem State.setThr_degPins (n t : Nat) (x : Thr) : (s.setThr n t x).degPins = s.degPins := rfl
@[simp] theorem State.setThr_mac (n t : Nat) (x : Thr) : (s.setThr n t x).mac = s.mac := rfl
@[simp] theorem State.setThr_swx (n t : Nat) (x : Thr) : (s.setThr n t x).swx = s.swx := rfl
@[simp] theorem State.setThr_disp (n t : Nat) (x : Thr) : (s.setThr n t x).disp = s.disp := rfl
@[simp] theorem State.setThr_can (n t : Nat) (x : Thr) : (s.setThr n t x).can = s.can := rfl
@[simp] theorem State.setThr_nut (n t : Nat) (x : Thr) : (s.setThr n t x).nut = s.nut := rfl
@[simp] theorem State.setThr_np (n t : Nat) (x : Thr) : (s.setThr n t x).np = s.np := rfl
@[simp] theorem State.setThr_loop (n t : Nat) (x : Thr) : (s.setThr n t x).loop = s.loop := rfl
@[simp] theorem State.setThr_ecc (n t : Nat) (x : Thr) : (s.setThr n t x).ecc = s.ecc := rfl
@[simp] theorem State.setThr_saf (n t : Nat) (x : Thr) : (s.setThr n t x).saf = s.saf := rfl
@[simp] theorem State.setThr_modeq (n t : Nat) (x : Thr) : (s.setThr n t x).modeq = s.modeq := rfl
@[simp] theorem State.setThr_pwr (n t : Nat) (x : Thr) : (s.setThr n t x).pwr = s.pwr := rfl
@[simp] theorem State.setThr_prot (n t : Nat) (x : Thr) : (s.setThr n t x).prot = s.prot := rfl
@[simp] theorem State.setThr_line (n t : Nat) (x : Thr) : (s.setThr n t x).line = s.line := rfl
@[simp] theorem State.setThr_sys (n t : Nat) (x : Thr) : (s.setThr n t x).sys = s.sys := rfl
@[simp] theorem State.setThr_host (n t : Nat) (x : Thr) : (s.setThr n t x).host = s.host := rfl

/-! ### State.setNut -/

@[simp] theorem State.setNut_pending (c : Nat) (x : NutSt) : (s.setNut c x).pending = s.pending := rfl
@[simp] theorem State.setNut_shadow (c : Nat) (x : NutSt) : (s.setNut c x).shadow = s.shadow := rfl
@[simp] theorem State.setNut_snaps (c : Nat) (x : NutSt) : (s.setNut c x).snaps = s.snaps := rfl
@[simp] theorem State.setNut_lows (c : Nat) (x : NutSt) : (s.setNut c x).lows = s.lows := rfl
@[simp] theorem State.setNut_mem (c : Nat) (x : NutSt) : (s.setNut c x).mem = s.mem := rfl
@[simp] theorem State.setNut_rdata (c : Nat) (x : NutSt) : (s.setNut c x).rdata = s.rdata := rfl
@[simp] theorem State.setNut_free (c : Nat) (x : NutSt) : (s.setNut c x).free = s.free := rfl
@[simp] theorem State.setNut_out (c : Nat) (x : NutSt) : (s.setNut c x).out = s.out := rfl
@[simp] theorem State.setNut_trans (c : Nat) (x : NutSt) : (s.setNut c x).trans = s.trans := rfl
@[simp] theorem State.setNut_lowFrom (c : Nat) (x : NutSt) : (s.setNut c x).lowFrom = s.lowFrom := rfl
@[simp] theorem State.setNut_chans (c : Nat) (x : NutSt) : (s.setNut c x).chans = s.chans := rfl
@[simp] theorem State.setNut_arrive (c : Nat) (x : NutSt) : (s.setNut c x).arrive = s.arrive := rfl
@[simp] theorem State.setNut_fcu (c : Nat) (x : NutSt) : (s.setNut c x).fcu = s.fcu := rfl
@[simp] theorem State.setNut_raises (c : Nat) (x : NutSt) : (s.setNut c x).raises = s.raises := rfl
@[simp] theorem State.setNut_txn (c : Nat) (x : NutSt) : (s.setNut c x).txn = s.txn := rfl
@[simp] theorem State.setNut_fw (c : Nat) (x : NutSt) : (s.setNut c x).fw = s.fw := rfl
@[simp] theorem State.setNut_time (c : Nat) (x : NutSt) : (s.setNut c x).time = s.time := rfl
@[simp] theorem State.setNut_lau (c : Nat) (x : NutSt) : (s.setNut c x).lau = s.lau := rfl
@[simp] theorem State.setNut_itin (c : Nat) (x : NutSt) : (s.setNut c x).itin = s.itin := rfl
@[simp] theorem State.setNut_edge (c : Nat) (x : NutSt) : (s.setNut c x).edge = s.edge := rfl
@[simp] theorem State.setNut_degFrom (c : Nat) (x : NutSt) : (s.setNut c x).degFrom = s.degFrom := rfl
@[simp] theorem State.setNut_degTime (c : Nat) (x : NutSt) : (s.setNut c x).degTime = s.degTime := rfl
@[simp] theorem State.setNut_degPins (c : Nat) (x : NutSt) : (s.setNut c x).degPins = s.degPins := rfl
@[simp] theorem State.setNut_mac (c : Nat) (x : NutSt) : (s.setNut c x).mac = s.mac := rfl
@[simp] theorem State.setNut_swx (c : Nat) (x : NutSt) : (s.setNut c x).swx = s.swx := rfl
@[simp] theorem State.setNut_eng (c : Nat) (x : NutSt) : (s.setNut c x).eng = s.eng := rfl
@[simp] theorem State.setNut_disp (c : Nat) (x : NutSt) : (s.setNut c x).disp = s.disp := rfl
@[simp] theorem State.setNut_can (c : Nat) (x : NutSt) : (s.setNut c x).can = s.can := rfl
@[simp] theorem State.setNut_np (c : Nat) (x : NutSt) : (s.setNut c x).np = s.np := rfl
@[simp] theorem State.setNut_loop (c : Nat) (x : NutSt) : (s.setNut c x).loop = s.loop := rfl
@[simp] theorem State.setNut_ecc (c : Nat) (x : NutSt) : (s.setNut c x).ecc = s.ecc := rfl
@[simp] theorem State.setNut_saf (c : Nat) (x : NutSt) : (s.setNut c x).saf = s.saf := rfl
@[simp] theorem State.setNut_modeq (c : Nat) (x : NutSt) : (s.setNut c x).modeq = s.modeq := rfl
@[simp] theorem State.setNut_pwr (c : Nat) (x : NutSt) : (s.setNut c x).pwr = s.pwr := rfl
@[simp] theorem State.setNut_prot (c : Nat) (x : NutSt) : (s.setNut c x).prot = s.prot := rfl
@[simp] theorem State.setNut_line (c : Nat) (x : NutSt) : (s.setNut c x).line = s.line := rfl
@[simp] theorem State.setNut_sys (c : Nat) (x : NutSt) : (s.setNut c x).sys = s.sys := rfl
@[simp] theorem State.setNut_host (c : Nat) (x : NutSt) : (s.setNut c x).host = s.host := rfl

/-! ### State.setLau -/

@[simp] theorem State.setLau_pending (u : Nat) (x : LauSt) : (s.setLau u x).pending = s.pending := rfl
@[simp] theorem State.setLau_shadow (u : Nat) (x : LauSt) : (s.setLau u x).shadow = s.shadow := rfl
@[simp] theorem State.setLau_snaps (u : Nat) (x : LauSt) : (s.setLau u x).snaps = s.snaps := rfl
@[simp] theorem State.setLau_lows (u : Nat) (x : LauSt) : (s.setLau u x).lows = s.lows := rfl
@[simp] theorem State.setLau_mem (u : Nat) (x : LauSt) : (s.setLau u x).mem = s.mem := rfl
@[simp] theorem State.setLau_rdata (u : Nat) (x : LauSt) : (s.setLau u x).rdata = s.rdata := rfl
@[simp] theorem State.setLau_free (u : Nat) (x : LauSt) : (s.setLau u x).free = s.free := rfl
@[simp] theorem State.setLau_out (u : Nat) (x : LauSt) : (s.setLau u x).out = s.out := rfl
@[simp] theorem State.setLau_trans (u : Nat) (x : LauSt) : (s.setLau u x).trans = s.trans := rfl
@[simp] theorem State.setLau_lowFrom (u : Nat) (x : LauSt) : (s.setLau u x).lowFrom = s.lowFrom := rfl
@[simp] theorem State.setLau_chans (u : Nat) (x : LauSt) : (s.setLau u x).chans = s.chans := rfl
@[simp] theorem State.setLau_arrive (u : Nat) (x : LauSt) : (s.setLau u x).arrive = s.arrive := rfl
@[simp] theorem State.setLau_fcu (u : Nat) (x : LauSt) : (s.setLau u x).fcu = s.fcu := rfl
@[simp] theorem State.setLau_raises (u : Nat) (x : LauSt) : (s.setLau u x).raises = s.raises := rfl
@[simp] theorem State.setLau_txn (u : Nat) (x : LauSt) : (s.setLau u x).txn = s.txn := rfl
@[simp] theorem State.setLau_fw (u : Nat) (x : LauSt) : (s.setLau u x).fw = s.fw := rfl
@[simp] theorem State.setLau_time (u : Nat) (x : LauSt) : (s.setLau u x).time = s.time := rfl
@[simp] theorem State.setLau_itin (u : Nat) (x : LauSt) : (s.setLau u x).itin = s.itin := rfl
@[simp] theorem State.setLau_edge (u : Nat) (x : LauSt) : (s.setLau u x).edge = s.edge := rfl
@[simp] theorem State.setLau_degFrom (u : Nat) (x : LauSt) : (s.setLau u x).degFrom = s.degFrom := rfl
@[simp] theorem State.setLau_degTime (u : Nat) (x : LauSt) : (s.setLau u x).degTime = s.degTime := rfl
@[simp] theorem State.setLau_degPins (u : Nat) (x : LauSt) : (s.setLau u x).degPins = s.degPins := rfl
@[simp] theorem State.setLau_mac (u : Nat) (x : LauSt) : (s.setLau u x).mac = s.mac := rfl
@[simp] theorem State.setLau_swx (u : Nat) (x : LauSt) : (s.setLau u x).swx = s.swx := rfl
@[simp] theorem State.setLau_eng (u : Nat) (x : LauSt) : (s.setLau u x).eng = s.eng := rfl
@[simp] theorem State.setLau_disp (u : Nat) (x : LauSt) : (s.setLau u x).disp = s.disp := rfl
@[simp] theorem State.setLau_can (u : Nat) (x : LauSt) : (s.setLau u x).can = s.can := rfl
@[simp] theorem State.setLau_nut (u : Nat) (x : LauSt) : (s.setLau u x).nut = s.nut := rfl
@[simp] theorem State.setLau_np (u : Nat) (x : LauSt) : (s.setLau u x).np = s.np := rfl
@[simp] theorem State.setLau_loop (u : Nat) (x : LauSt) : (s.setLau u x).loop = s.loop := rfl
@[simp] theorem State.setLau_ecc (u : Nat) (x : LauSt) : (s.setLau u x).ecc = s.ecc := rfl
@[simp] theorem State.setLau_saf (u : Nat) (x : LauSt) : (s.setLau u x).saf = s.saf := rfl
@[simp] theorem State.setLau_modeq (u : Nat) (x : LauSt) : (s.setLau u x).modeq = s.modeq := rfl
@[simp] theorem State.setLau_pwr (u : Nat) (x : LauSt) : (s.setLau u x).pwr = s.pwr := rfl
@[simp] theorem State.setLau_prot (u : Nat) (x : LauSt) : (s.setLau u x).prot = s.prot := rfl
@[simp] theorem State.setLau_line (u : Nat) (x : LauSt) : (s.setLau u x).line = s.line := rfl
@[simp] theorem State.setLau_sys (u : Nat) (x : LauSt) : (s.setLau u x).sys = s.sys := rfl
@[simp] theorem State.setLau_host (u : Nat) (x : LauSt) : (s.setLau u x).host = s.host := rfl

/-! ### State.setTxn -/

@[simp] theorem State.setTxn_pending (m : Nat) (x : TxnCh) : (s.setTxn m x).pending = s.pending := rfl
@[simp] theorem State.setTxn_shadow (m : Nat) (x : TxnCh) : (s.setTxn m x).shadow = s.shadow := rfl
@[simp] theorem State.setTxn_snaps (m : Nat) (x : TxnCh) : (s.setTxn m x).snaps = s.snaps := rfl
@[simp] theorem State.setTxn_lows (m : Nat) (x : TxnCh) : (s.setTxn m x).lows = s.lows := rfl
@[simp] theorem State.setTxn_mem (m : Nat) (x : TxnCh) : (s.setTxn m x).mem = s.mem := rfl
@[simp] theorem State.setTxn_rdata (m : Nat) (x : TxnCh) : (s.setTxn m x).rdata = s.rdata := rfl
@[simp] theorem State.setTxn_free (m : Nat) (x : TxnCh) : (s.setTxn m x).free = s.free := rfl
@[simp] theorem State.setTxn_out (m : Nat) (x : TxnCh) : (s.setTxn m x).out = s.out := rfl
@[simp] theorem State.setTxn_trans (m : Nat) (x : TxnCh) : (s.setTxn m x).trans = s.trans := rfl
@[simp] theorem State.setTxn_lowFrom (m : Nat) (x : TxnCh) : (s.setTxn m x).lowFrom = s.lowFrom := rfl
@[simp] theorem State.setTxn_chans (m : Nat) (x : TxnCh) : (s.setTxn m x).chans = s.chans := rfl
@[simp] theorem State.setTxn_arrive (m : Nat) (x : TxnCh) : (s.setTxn m x).arrive = s.arrive := rfl
@[simp] theorem State.setTxn_fcu (m : Nat) (x : TxnCh) : (s.setTxn m x).fcu = s.fcu := rfl
@[simp] theorem State.setTxn_raises (m : Nat) (x : TxnCh) : (s.setTxn m x).raises = s.raises := rfl
@[simp] theorem State.setTxn_fw (m : Nat) (x : TxnCh) : (s.setTxn m x).fw = s.fw := rfl
@[simp] theorem State.setTxn_time (m : Nat) (x : TxnCh) : (s.setTxn m x).time = s.time := rfl
@[simp] theorem State.setTxn_lau (m : Nat) (x : TxnCh) : (s.setTxn m x).lau = s.lau := rfl
@[simp] theorem State.setTxn_itin (m : Nat) (x : TxnCh) : (s.setTxn m x).itin = s.itin := rfl
@[simp] theorem State.setTxn_edge (m : Nat) (x : TxnCh) : (s.setTxn m x).edge = s.edge := rfl
@[simp] theorem State.setTxn_degFrom (m : Nat) (x : TxnCh) : (s.setTxn m x).degFrom = s.degFrom := rfl
@[simp] theorem State.setTxn_degTime (m : Nat) (x : TxnCh) : (s.setTxn m x).degTime = s.degTime := rfl
@[simp] theorem State.setTxn_degPins (m : Nat) (x : TxnCh) : (s.setTxn m x).degPins = s.degPins := rfl
@[simp] theorem State.setTxn_mac (m : Nat) (x : TxnCh) : (s.setTxn m x).mac = s.mac := rfl
@[simp] theorem State.setTxn_swx (m : Nat) (x : TxnCh) : (s.setTxn m x).swx = s.swx := rfl
@[simp] theorem State.setTxn_eng (m : Nat) (x : TxnCh) : (s.setTxn m x).eng = s.eng := rfl
@[simp] theorem State.setTxn_disp (m : Nat) (x : TxnCh) : (s.setTxn m x).disp = s.disp := rfl
@[simp] theorem State.setTxn_can (m : Nat) (x : TxnCh) : (s.setTxn m x).can = s.can := rfl
@[simp] theorem State.setTxn_nut (m : Nat) (x : TxnCh) : (s.setTxn m x).nut = s.nut := rfl
@[simp] theorem State.setTxn_np (m : Nat) (x : TxnCh) : (s.setTxn m x).np = s.np := rfl
@[simp] theorem State.setTxn_loop (m : Nat) (x : TxnCh) : (s.setTxn m x).loop = s.loop := rfl
@[simp] theorem State.setTxn_ecc (m : Nat) (x : TxnCh) : (s.setTxn m x).ecc = s.ecc := rfl
@[simp] theorem State.setTxn_saf (m : Nat) (x : TxnCh) : (s.setTxn m x).saf = s.saf := rfl
@[simp] theorem State.setTxn_modeq (m : Nat) (x : TxnCh) : (s.setTxn m x).modeq = s.modeq := rfl
@[simp] theorem State.setTxn_pwr (m : Nat) (x : TxnCh) : (s.setTxn m x).pwr = s.pwr := rfl
@[simp] theorem State.setTxn_prot (m : Nat) (x : TxnCh) : (s.setTxn m x).prot = s.prot := rfl
@[simp] theorem State.setTxn_line (m : Nat) (x : TxnCh) : (s.setTxn m x).line = s.line := rfl
@[simp] theorem State.setTxn_sys (m : Nat) (x : TxnCh) : (s.setTxn m x).sys = s.sys := rfl
@[simp] theorem State.setTxn_host (m : Nat) (x : TxnCh) : (s.setTxn m x).host = s.host := rfl

/-! ### Reading registers -/

theorem State.reg_eq {s t : State} (h : t.regs = s.regs) (a : Nat) : t.reg a = s.reg a := by simp only [State.reg, h]
theorem State.fld_eq {s t : State} (h : t.regs = s.regs) (f : Fld) : t.fld f = s.fld f := by simp only [State.fld, State.reg, h]
theorem State.flag_eq {s t : State} (h : t.regs = s.regs) (f : Fld) : t.flag f = s.flag f := by simp only [State.flag, State.fld, State.reg, h]
theorem State.byte_eq {s t : State} (h : t.mem = s.mem) (a : Nat) : t.byte a = s.byte a := by simp only [State.byte, h]

/-- A register set reads the word, and every other register reads as before. -/
theorem State.reg_setReg (a : Nat) (v : Word) (b : Nat) : (s.setReg a v).reg b = if b = a then v else s.reg b :=
  storeGet_set regReset s.regs a v b
@[simp] theorem State.reg_setReg_same (a : Nat) (v : Word) : (s.setReg a v).reg a = v := by simp [State.reg_setReg]
theorem State.reg_setReg_ne {a b : Nat} (v : Word) (h : b ≠ a) : (s.setReg a v).reg b = s.reg b := by simp [State.reg_setReg, h]
@[simp] theorem State.reg_setRegN_same (a n : Nat) : (s.setRegN a n).reg a = w32 n := s.reg_setReg_same a (w32 n)
theorem State.reg_setRegN_ne {a b : Nat} (n : Nat) (h : b ≠ a) : (s.setRegN a n).reg b = s.reg b := s.reg_setReg_ne (w32 n) h
theorem State.reg_setFld (f : Fld) (n b : Nat) :
    (s.setFld f n).reg b = if b = f.addr then setBits (s.reg f.addr) f.hi f.lo n else s.reg b :=
  s.reg_setReg f.addr _ b
theorem State.reg_setFld_ne (f : Fld) (n : Nat) {b : Nat} (h : b ≠ f.addr) : (s.setFld f n).reg b = s.reg b := by
  simp [State.reg_setFld, h]
theorem State.reg_setFlag_ne (f : Fld) (v : Bool) {b : Nat} (h : b ≠ f.addr) : (s.setFlag f v).reg b = s.reg b :=
  s.reg_setFld_ne f (bit v) h
theorem State.reg_count_ne {a b : Nat} (n : Nat) (h : b ≠ a) : (s.count a n).reg b = s.reg b := s.reg_setRegN_ne _ h
theorem State.reg_countSat_ne {a b : Nat} (n : Nat) (h : b ≠ a) : (s.countSat a n).reg b = s.reg b := s.reg_setRegN_ne _ h
theorem State.reg_setPair_ne {a b : Nat} (n : Nat) (h : b ≠ a) (h1 : b ≠ a + 4) : (s.setPair a n).reg b = s.reg b := by
  simp [State.setPair, State.reg_setRegN_ne, h, h1]
@[simp] theorem State.reg_resetReg_same (a : Nat) : (s.resetReg a).reg a = regReset a := s.reg_setReg_same a _
theorem State.reg_resetReg_ne {a b : Nat} (h : b ≠ a) : (s.resetReg a).reg b = s.reg b := s.reg_setReg_ne _ h
/-- A range reset reads the reset values within it, and every other register as before. -/
theorem State.reg_resetRange (lo hi b : Nat) :
    (s.resetRange lo hi).reg b = if b < lo ∨ hi ≤ b then s.reg b else regReset b := by
  have h := storeGet_filter regReset s.regs (fun k => decide (k < lo) || decide (hi ≤ k)) b
  simpa [State.reg, State.resetRange] using h
/-- A field of another register reads as before. -/
theorem State.fld_setReg_ne (f : Fld) {a : Nat} (v : Word) (h : f.addr ≠ a) : (s.setReg a v).fld f = s.fld f := by
  simp [State.fld, State.reg_setReg_ne, h]
theorem State.fld_setFld_ne (f g : Fld) (n : Nat) (h : f.addr ≠ g.addr) : (s.setFld g n).fld f = s.fld f := s.fld_setReg_ne f _ h
theorem State.flag_setFld_ne (f g : Fld) (n : Nat) (h : f.addr ≠ g.addr) : (s.setFld g n).flag f = s.flag f := by
  simp only [State.flag, s.fld_setFld_ne f g n h]

/-! ### The raises made (R278) -/

@[simp] theorem State.raises_raiseI (src info : Nat) : (s.raiseI src info).raises = s.raises ++ [(src, info, false)] := rfl
@[simp] theorem State.raises_raise (src : Nat) : (s.raise src).raises = s.raises ++ [(src, 0, false)] := rfl
@[simp] theorem State.raises_note : s.note.raises = s.raises ++ [(14, 0, false)] := rfl
@[simp] theorem State.emit_out (o : Out) : (s.emit o).out = o :: s.out := rfl
@[simp] theorem State.drew_free : s.drew.free = s.free + 1 := rfl

/-! ### Reading a store of units after it is set -/

@[simp] theorem State.engSt_setEng (n m : Nat) (x : EngSt) : (s.setEng n x).engSt m = if m = n then x else s.engSt m := storeGet_set _ _ _ _ _
@[simp] theorem State.canSt_setCan (n m : Nat) (x : CanSt) : (s.setCan n x).canSt m = if m = n then x else s.canSt m := storeGet_set _ _ _ _ _
@[simp] theorem State.macSt_setMac (p q : Nat) (x : MacSt) : (s.setMac p x).macSt q = if q = p then x else s.macSt q := storeGet_set _ _ _ _ _
@[simp] theorem State.inst_setInst (i j : Nat) (x : Option InstSt) : (s.setInst i x).inst j = if j = i then x else s.inst j := storeGet_set _ _ _ _ _
@[simp] theorem State.nutSt_setNut (c d : Nat) (x : NutSt) : (s.setNut c x).nutSt d = if d = c then x else s.nutSt d := storeGet_set _ _ _ _ _
@[simp] theorem State.lauSt_setLau (u w : Nat) (x : LauSt) : (s.setLau u x).lauSt w = if w = u then x else s.lauSt w := storeGet_set _ _ _ _ _
@[simp] theorem State.txnCh_setTxn (m k : Nat) (x : TxnCh) : (s.setTxn m x).txnCh k = if k = m then x else s.txnCh k := storeGet_set _ _ _ _ _
/-- Thread `t` of engine `n` set to `x`: it is `x`, and every other thread is as it was. -/
theorem State.thr_setThr (n t : Nat) (x : Thr) (n' t' : Nat) :
    (s.setThr n t x).thr n' t' = if n' = n ∧ t' = t then x else s.thr n' t' := by
  have h : (s.setThr n t x).eng = storeSet (fun _ => EngSt.reset) s.eng n { s.engSt n with thr := storeSet (fun _ => Thr.reset) (s.engSt n).thr t x } := rfl
  unfold State.thr State.engSt
  rw [h, storeGet_set]
  by_cases h1 : n' = n
  · subst h1; simp [storeGet_set, State.engSt]
  · simp [h1]

end Sys2Proof.Machine
end

