-- ==== Sys2Proof/Laws/Bus.lean ====
section
/-! SUPPORT. What an access of a register does, once for each way it can end (R11, R12, R20, R307). -/

namespace Sys2Proof.Machine

open Sys2Proof

variable (s : State)

/-- Cardamom has no bus view: its accesses of registers do nothing (R19). -/
theorem State.regWrite_cardamom (a : Nat) (v : Word) : s.regWrite .cardamom a v = s := rfl
theorem State.regRead_cardamom (a : Nat) : s.regRead .cardamom a = (s, 0) := rfl

/-- A write of an address that holds no register. -/
theorem State.regWrite_none (m : Master) (hm : (m == .cardamom) = false) (a : Nat) (v : Word) (h : findReg a = none) :
    s.regWrite m a v = s.bareWrite a := by
  unfold State.regWrite; rw [hm, h]; rfl
/-- A write that the path, the block or a lock keeps out is reported and does nothing else. -/
theorem State.regWrite_kept (m : Master) (hm : (m == .cardamom) = false) (a : Nat) (v : Word) (r : RegSpec) (h : findReg a = some r)
    (h1 : (s.unreached a || barred m a || s.locked m a v) = true) : s.regWrite m a v = s.note := by
  simp only [State.regWrite, hm, h, h1, if_true, Bool.false_eq_true, if_false]
/-- A write that arrives at a pair of an armed slot is ignored, and the slot's WIGN is set (R52). -/
theorem State.regWrite_armed (m : Master) (hm : (m == .cardamom) = false) (a : Nat) (v : Word) (r : RegSpec) (h : findReg a = some r)
    (h1 : (s.unreached a || barred m a || s.locked m a v) = false) (h0 : s.slotHolds a = true) :
    s.regWrite m a v = s.setFlag (ITIN_SLOT_STAT_WIGN ((a - 0x40590000) / 0x20)) true := by
  simp only [State.regWrite, hm, h, h1, h0]; rfl
/-- A write that arrives at a register that is no half of a pair. -/
theorem State.regWrite_whole (m : Master) (hm : (m == .cardamom) = false) (a : Nat) (v : Word) (r : RegSpec) (h : findReg a = some r)
    (h1 : (s.unreached a || barred m a || s.locked m a v) = false) (h0 : s.slotHolds a = false) (h2 : r.half = 0) : s.regWrite m a v = s.putReg m r a v := by
  simp only [State.regWrite, hm, h, h1, h0, h2]; rfl
/-- A write that arrives at the low half of a pair is held for the master (R11). -/
theorem State.regWrite_low (m : Master) (hm : (m == .cardamom) = false) (a : Nat) (v : Word) (r : RegSpec) (h : findReg a = some r)
    (h1 : (s.unreached a || barred m a || s.locked m a v) = false) (h0 : s.slotHolds a = false) (h2 : r.half = 1) : s.regWrite m a v = s.setLow m (a + 4) (some v) := by
  simp only [State.regWrite, hm, h, h1, h0, h2]; rfl
/-- A write that arrives at the high half of a pair writes the low word the master holds first (R11). -/
theorem State.regWrite_high (m : Master) (hm : (m == .cardamom) = false) (a : Nat) (v lo : Word) (r rl : RegSpec) (h : findReg a = some r)
    (h1 : (s.unreached a || barred m a || s.locked m a v) = false) (h0 : s.slotHolds a = false) (h2 : r.half = 2) (h3 : s.low m a = some lo)
    (h4 : findReg (a - 4) = some rl) : s.regWrite m a v = ((s.putReg m rl (a - 4) lo).setLow m a none).putReg m r a v := by
  simp only [State.regWrite, hm, h, h1, h0, h2, h3, h4]; rfl
/-- A read of an address that holds no register. -/
theorem State.regRead_none (m : Master) (hm : (m == .cardamom) = false) (a : Nat) (h : findReg a = none) :
    s.regRead m a = s.bareRead a := by
  unfold State.regRead; rw [hm, h]; rfl
/-- A read that the path or the block keeps out reads 0 and is reported. -/
theorem State.regRead_kept (m : Master) (hm : (m == .cardamom) = false) (a : Nat) (r : RegSpec) (h : findReg a = some r) (h1 : (s.unreached a || barred m a) = true) :
    s.regRead m a = (s.note, 0) := by
  simp only [State.regRead, hm, h, h1, if_true, Bool.false_eq_true, if_false]
/-- A read that arrives. -/
theorem State.regRead_some (m : Master) (hm : (m == .cardamom) = false) (a : Nat) (r : RegSpec) (h : findReg a = some r) (h1 : (s.unreached a || barred m a) = false) :
    s.regRead m a = s.readReg m r a := by
  simp only [State.regRead, hm, h, h1]; rfl
/-- A bus write other than of the host's window is the access itself. -/
theorem State.busWrite_acc (m : Master) (a n v : Nat) (h : m ≠ .host ∨ a ≠ HOST_RWDATA ∨ (n ≠ 4 ∧ n ≠ 8)) :
    s.busWrite m a n v = s.accWrite m a n v := by
  have key : ∀ k, (k = 4 ∨ k = 8) → ¬ (a = HOST_RWDATA ∧ n = k ∧ (m == .host) = true) := by
    rintro k hk ⟨h1, h2, h3⟩
    have h4 : m = .host := by simpa using h3
    rcases h with h | h | h
    · exact h h4
    · exact h h1
    · rcases hk with rfl | rfl
      · exact h.1 h2
      · exact h.2 h2
  simp only [State.busWrite, if_neg (key 4 (.inl rfl)), if_neg (key 8 (.inr rfl))]

end Sys2Proof.Machine
end

