-- ==== Sys2Proof/Laws/Word.lean ====
section
/-! SUPPORT. What the bits of a word read after a field of it is set, and bytes as numbers and back. -/

namespace Sys2Proof

theorem testBit_bits (w : Word) (hi lo i : Nat) :
    (bits w hi lo).testBit i = (decide (i < hi + 1 - lo) && w.getLsbD (lo + i)) := by
  simp [bits, Nat.testBit_mod_two_pow, Nat.testBit_shiftRight, BitVec.getLsbD]

theorem getLsbD_maskW (hi lo i : Nat) (hh : hi < 32) (h : lo ≤ hi) :
    (maskW hi lo).getLsbD i = decide (lo ≤ i ∧ i ≤ hi) := by
  simp only [maskW, BitVec.getLsbD_ofNat, Nat.testBit_shiftLeft, Nat.testBit_two_pow_sub_one]
  by_cases h1 : lo ≤ i <;> by_cases h2 : i ≤ hi <;> simp [h1, h2] <;> omega

/-- A field set reads the low bits of the number at its places, and every other bit of the word is as it was. -/
theorem getLsbD_setBits (w : Word) (hi lo n i : Nat) (hh : hi < 32) (h : lo ≤ hi) :
    (setBits w hi lo n).getLsbD i = if lo ≤ i ∧ i ≤ hi then n.testBit (i - lo) else w.getLsbD i := by
  simp only [setBits, BitVec.getLsbD_or, BitVec.getLsbD_and, BitVec.getLsbD_not, getLsbD_maskW hi lo i hh h,
    BitVec.getLsbD_ofNat, Nat.testBit_shiftLeft, Nat.testBit_mod_two_pow]
  by_cases h1 : lo ≤ i ∧ i ≤ hi
  · have h2 : i < 32 := by omega
    have h3 : i - lo < hi + 1 - lo := by omega
    simp [h1, h2, h3]
  · have h2 : ¬ (lo ≤ i ∧ i - lo < hi + 1 - lo) := by omega
    have h3 : (decide (lo ≤ i) && (decide (i - lo < hi + 1 - lo) && n.testBit (i - lo))) = false := by
      by_cases h4 : lo ≤ i
      · have h5 : ¬ i - lo < hi + 1 - lo := fun h5 => h2 ⟨h4, h5⟩
        simp [h5]
      · simp [h4]
    rw [h3]
    by_cases h4 : i < 32
    · simp [h1, h4]
    · have : w.getLsbD i = false := BitVec.getLsbD_of_ge w i (by omega)
      simp [h1, h4, this]

/-- A field set reads the number's low bits. -/
theorem bits_setBits_same (w : Word) (hi lo n : Nat) (hh : hi < 32) (h : lo ≤ hi) :
    bits (setBits w hi lo n) hi lo = n % 2 ^ (hi + 1 - lo) := by
  apply Nat.eq_of_testBit_eq
  intro i
  rw [testBit_bits, getLsbD_setBits w hi lo n _ hh h, Nat.testBit_mod_two_pow]
  by_cases h1 : i < hi + 1 - lo
  · have h2 : lo ≤ lo + i ∧ lo + i ≤ hi := by omega
    simp [h1, h2]
  · simp [h1]

/-- A field that shares no bit with the one set reads as before. -/
theorem bits_setBits_ne (w : Word) (hi lo n hi' lo' : Nat) (hh : hi < 32) (h : lo ≤ hi) (hd : hi' < lo ∨ hi < lo') :
    bits (setBits w hi lo n) hi' lo' = bits w hi' lo' := by
  apply Nat.eq_of_testBit_eq
  intro i
  rw [testBit_bits, testBit_bits, getLsbD_setBits w hi lo n _ hh h]
  by_cases h1 : i < hi' + 1 - lo'
  · have h2 : ¬ (lo ≤ lo' + i ∧ lo' + i ≤ hi) := by omega
    simp [h2]
  · simp [h1]

theorem bits_lt (w : Word) (hi lo : Nat) : bits w hi lo < 2 ^ (hi + 1 - lo) := Nat.mod_lt _ (by positivity)

theorem length_leBytes (k n : Nat) : (leBytes k n).length = k := by
  induction k generalizing n with
  | zero => rfl
  | succ k ih => simp [leBytes, ih]

/-- A number that fits its bytes is the number they spell. -/
theorem ofLe_leBytes (k n : Nat) : ofLe (leBytes k n) = n % 256 ^ k := by
  induction k generalizing n with
  | zero => simp [leBytes, ofLe, Nat.mod_one]
  | succ k ih =>
    simp only [leBytes, ofLe, ih, BitVec.toNat_ofNat]
    rw [show 256 ^ (k + 1) = 256 * 256 ^ k by ring, Nat.mod_mul]

end Sys2Proof
end

