-- ==== Sys2Proof/Laws/Memory.lean ====
section
/-! SUPPORT. What memory reads after each operation on it, and the canonical form that each keeps. -/

namespace Sys2Proof.Machine

open Sys2Proof

/-! ### Reading -/

/-- A byte written reads back, and every other byte reads as before. -/
theorem State.byte_setByte (s : State) (a : Nat) (v : Byte) (b : Nat) : (s.setByte a v).byte b = if b = a then v else s.byte b :=
  storeGet_set memReset s.mem a v b

@[simp] theorem State.byte_setReg (s : State) (a : Nat) (v : Word) (b : Nat) : (s.setReg a v).byte b = s.byte b := rfl
@[simp] theorem State.byte_setFld (s : State) (f : Fld) (n b : Nat) : (s.setFld f n).byte b = s.byte b := rfl
@[simp] theorem State.byte_note (s : State) (b : Nat) : s.note.byte b = s.byte b := rfl

/-- Bytes written read back from their address up, and every other byte reads as before. -/
theorem State.byte_setBytes (s : State) (a : Nat) (l : List Byte) (b : Nat) :
    (s.setBytes a l).byte b = if a ≤ b ∧ b < a + l.length then l.getD (b - a) 0 else s.byte b := by
  induction l generalizing s a with
  | nil =>
    have h : ¬ (a ≤ b ∧ b < a) := by omega
    simp [State.setBytes, h]
  | cons x t ih =>
    simp only [State.setBytes, ih, State.byte_setByte, List.length_cons]
    by_cases h1 : a + 1 ≤ b ∧ b < a + 1 + t.length
    · have h2 : a ≤ b ∧ b < a + (t.length + 1) := by omega
      obtain ⟨j, hj⟩ : ∃ j, b - a = j + 1 := ⟨b - a - 1, by omega⟩
      have h3 : b - (a + 1) = j := by omega
      simp [h1, h2, hj, h3]
    · by_cases h4 : b = a
      · subst h4; simp
      · have h2 : ¬ (a ≤ b ∧ b < a + (t.length + 1)) := by omega
        rw [if_neg h1, if_neg h2, if_neg h4]

/-- `n` bytes read from an address are the bytes at those addresses. -/
theorem State.bytes_eq (s : State) (a n : Nat) : s.bytes a n = (List.range n).map (fun i => s.byte (a + i)) := by
  induction n generalizing a with
  | zero => rfl
  | succ n ih =>
    rw [State.bytes, ih, List.range_succ_eq_map]
    simp only [List.map_cons, List.map_map, Nat.add_zero, List.cons.injEq, true_and]
    apply List.map_congr_left
    intro i _
    simp only [Function.comp_apply]
    congr 1
    omega

theorem State.length_bytes (s : State) (a n : Nat) : (s.bytes a n).length = n := by simp [State.bytes_eq]

/-- Bytes outside the ones written are read as before. -/
theorem State.bytes_setBytes_ne (s : State) (a : Nat) (l : List Byte) (b n : Nat) (h : b + n ≤ a ∨ a + l.length ≤ b) :
    (s.setBytes a l).bytes b n = s.bytes b n := by
  simp only [State.bytes_eq]
  apply List.map_congr_left
  intro i hi
  have h1 : i < n := List.mem_range.mp hi
  have h2 : ¬ (a ≤ b + i ∧ b + i < a + l.length) := by omega
  simp [State.byte_setBytes, h2]

/-- Bytes written are read back. -/
theorem State.bytes_setBytes_same (s : State) (a : Nat) (l : List Byte) : (s.setBytes a l).bytes a l.length = l := by
  rw [State.bytes_eq]
  apply List.ext_getElem
  · simp
  · intro i h1 h2
    simp [State.byte_setBytes, h2]

/-- A word written reads back. -/
theorem State.mem32_setMem32 (s : State) (a v : Nat) : (s.setMem32 a v).mem32 a = v % 2 ^ 32 := by
  have h := s.bytes_setBytes_same a (leBytes 4 v)
  rw [length_leBytes] at h
  unfold State.mem32 State.setMem32
  rw [h, ofLe_leBytes, show 256 ^ 4 = 2 ^ 32 by norm_num]

/-- Bytes written change nothing but memory. -/
theorem State.setBytes_frame (s : State) (a : Nat) (l : List Byte) : { s.setBytes a l with mem := s.mem } = s := by
  induction l generalizing s a with
  | nil => rfl
  | cons x t ih => exact (congrArg (fun u : State => { u with mem := s.mem }) (ih (s.setByte a x) (a + 1)) :)

/-! ### The canonical form -/

theorem reset_mem_wf : Memory.wf State.reset.mem := rfl

theorem State.setByte_wf (s : State) (a : Nat) (v : Byte) (h : Memory.wf s.mem) : Memory.wf (s.setByte a v).mem :=
  storeWf_set memReset s.mem a v h

theorem State.setBytes_wf (s : State) (a : Nat) (l : List Byte) (h : Memory.wf s.mem) : Memory.wf (s.setBytes a l).mem := by
  induction l generalizing s a with
  | nil => exact h
  | cons x t ih => exact ih (s.setByte a x) (a + 1) (s.setByte_wf a x h)

theorem State.setMem32_wf (s : State) (a v : Nat) (h : Memory.wf s.mem) : Memory.wf (s.setMem32 a v).mem := s.setBytes_wf a _ h

theorem State.forget_wf (s : State) (lo hi : Nat) (h : Memory.wf s.mem) : Memory.wf (s.forget lo hi).mem :=
  storeWf_filter memReset (fun k => decide (k < lo) || decide (hi ≤ k)) s.mem h

theorem cellsFrom_wf (a : Nat) (l : List Byte) (m : List Host.Cell) (h : storeWfFrom memReset (a + l.length) m = true) :
    storeWfFrom memReset a (cellsFrom a l ++ m) = true := by
  induction l generalizing a with
  | nil => simpa [cellsFrom] using h
  | cons x t ih =>
    rw [cellsFrom, List.append_assoc]
    apply storeWfFrom_cell
    apply ih
    rw [List.length_cons] at h
    rwa [show a + 1 + t.length = a + (t.length + 1) by omega]

theorem storeWfFrom_append (l m : List Host.Cell) (a b : Nat) (h0 : b ≤ a) (hl : storeWfFrom memReset b l = true) (h : ∀ e ∈ l, e.1 < a)
    (hm : storeWfFrom memReset a m = true) : storeWfFrom memReset b (l ++ m) = true := by
  induction l generalizing b with
  | nil => exact storeWfFrom_mono memReset h0 m hm
  | cons e t ih =>
    obtain ⟨k, v⟩ := e
    simp only [storeWfFrom, Bool.and_eq_true, decide_eq_true_eq, List.cons_append] at hl ⊢
    have h1 : k < a := h (k, v) (by simp)
    exact ⟨hl.1, ih (k + 1) (by omega) hl.2 (fun e he => h e (by simp [he]))⟩

theorem storeWfFrom_above (l : List Host.Cell) (a b : Nat) (hl : storeWfFrom memReset b l = true) :
    storeWfFrom memReset a (l.filter (fun e => decide (a ≤ e.1))) = true := by
  induction l generalizing b with
  | nil => rfl
  | cons e t ih =>
    obtain ⟨k, v⟩ := e
    simp only [storeWfFrom, Bool.and_eq_true, decide_eq_true_eq] at hl
    by_cases h : a ≤ k
    · have h1 := storeWfFrom_filter memReset (fun x => decide (a ≤ x)) t (k + 1) hl.2
      simp [h, storeWfFrom, hl.1.2, h1]
    · simpa [h] using ih (k + 1) hl.2

theorem State.setBlock_wf (s : State) (a : Nat) (l : List Byte) (h : Memory.wf s.mem) : Memory.wf (s.setBlock a l).mem := by
  unfold Memory.wf storeWf State.setBlock
  rw [List.append_assoc]
  refine storeWfFrom_append _ _ a 0 (Nat.zero_le a) (storeWfFrom_filter memReset (fun k => decide (k < a)) _ 0 h) (fun e he => ?_) ?_
  · simpa using (List.mem_filter.mp he).2
  · exact cellsFrom_wf a l _ (storeWfFrom_above s.mem _ 0 h)

end Sys2Proof.Machine
end

