-- ==== Sys2Proof/Laws/Frames.lean ====
section
/-! SUPPORT. What the shared operations that change several fields can change: each lemma says that the state is as it was but for the
fields it names. -/

namespace Sys2Proof.Machine

open Sys2Proof

variable (s : State)

/-! ### Registers -/

/-- A field set reads the number's low bits. -/
theorem State.fld_setFld_same (f : Fld) (n : Nat) (hh : f.hi < 32) (h : f.lo ≤ f.hi) :
    (s.setFld f n).fld f = n % 2 ^ (f.hi + 1 - f.lo) := by
  rw [State.fld, State.reg_setFld, if_pos rfl, bits_setBits_same _ _ _ _ hh h]
/-- A field that shares no bit with the one set reads as before. -/
theorem State.fld_setFld_apart (f g : Fld) (n : Nat) (hh : g.hi < 32) (h : g.lo ≤ g.hi)
    (hd : f.addr ≠ g.addr ∨ f.hi < g.lo ∨ g.hi < f.lo) : (s.setFld g n).fld f = s.fld f := by
  by_cases h1 : f.addr = g.addr
  · have h2 : f.hi < g.lo ∨ g.hi < f.lo := hd.resolve_left (fun h => h h1)
    rw [State.fld, State.reg_setFld, if_pos h1, bits_setBits_ne _ _ _ _ _ _ hh h h2, ← h1]; rfl
  · exact s.fld_setFld_ne f g n h1
/-- A flag set reads the Boolean. -/
theorem State.flag_setFlag_same (f : Fld) (b : Bool) (hf : f.lo = f.hi) (hh : f.hi < 32) : (s.setFlag f b).flag f = b := by
  unfold State.flag State.setFlag
  rw [s.fld_setFld_same f (bit b) hh (by omega), hf]
  cases b <;> simp [bit]

/-- From `s` to `t` nothing but registers changes. -/
def State.OnlyRegs (s t : State) : Prop := ∃ rs, t = { s with regs := rs }

variable {s} in
theorem State.OnlyRegs.trans {t u : State} (h : s.OnlyRegs t) (h1 : t.OnlyRegs u) : s.OnlyRegs u := by
  obtain ⟨r, rfl⟩ := h
  obtain ⟨r1, rfl⟩ := h1
  exact ⟨r1, rfl⟩
theorem State.onlyRegs_refl : s.OnlyRegs s := ⟨s.regs, rfl⟩
theorem State.onlyRegs_setReg (a : Nat) (v : Word) : s.OnlyRegs (s.setReg a v) := ⟨storeSet regReset s.regs a v, rfl⟩
theorem State.onlyRegs_setRegN (a n : Nat) : s.OnlyRegs (s.setRegN a n) := s.onlyRegs_setReg a (w32 n)
theorem State.onlyRegs_setFld (f : Fld) (n : Nat) : s.OnlyRegs (s.setFld f n) := s.onlyRegs_setReg _ _
theorem State.onlyRegs_setFlag (f : Fld) (b : Bool) : s.OnlyRegs (s.setFlag f b) := s.onlyRegs_setReg _ _
theorem State.onlyRegs_count (a n : Nat) : s.OnlyRegs (s.count a n) := s.onlyRegs_setReg _ _
theorem State.onlyRegs_countSat (a n : Nat) : s.OnlyRegs (s.countSat a n) := s.onlyRegs_setReg _ _
theorem State.onlyRegs_fldSat (f : Fld) (n : Nat) : s.OnlyRegs (s.fldSat f n) := s.onlyRegs_setReg _ _
theorem State.onlyRegs_setBitAt (a b : Nat) (v : Bool) : s.OnlyRegs (s.setBitAt a b v) := s.onlyRegs_setReg _ _
theorem State.onlyRegs_setPair (a n : Nat) : s.OnlyRegs (s.setPair a n) :=
  (s.onlyRegs_setRegN a n).trans (State.onlyRegs_setRegN _ (a + 4) (n / 2 ^ 32))
theorem State.onlyRegs_resetReg (a : Nat) : s.OnlyRegs (s.resetReg a) := s.onlyRegs_setReg _ _
theorem State.onlyRegs_resetRange (lo hi : Nat) : s.OnlyRegs (s.resetRange lo hi) := ⟨_, rfl⟩

/-- A fold of operations that change registers alone changes registers alone. -/
theorem State.onlyRegs_foldl {β : Type} (op : State → β → State) (h : ∀ (t : State) (x : β), t.OnlyRegs (op t x)) (l : List β) :
    s.OnlyRegs (l.foldl op s) := by
  induction l generalizing s with
  | nil => exact s.onlyRegs_refl
  | cons x t ih => exact (h s x).trans (ih (op s x))

theorem State.onlyRegs_setRegs (l : List (Nat × Word)) : s.OnlyRegs (s.setRegs l) :=
  s.onlyRegs_foldl (fun t (x : Nat × Word) => t.setReg x.1 x.2) (fun t x => t.onlyRegs_setReg x.1 x.2) l
theorem State.onlyRegs_showHead (c : Nat) (m : List Byte) : s.OnlyRegs (s.showHead c m) :=
  s.onlyRegs_foldl (fun t w => t.setRegN (MBX_CH_HEAD c w) (msgWord m w)) (fun t _ => t.onlyRegs_setRegN _ _) _
theorem State.onlyRegs_markDirty (a : Nat) (b : Bool) : s.OnlyRegs (s.markDirty a b) := by
  unfold State.markDirty
  split
  · exact s.onlyRegs_setFlag _ _
  · exact s.onlyRegs_refl

/-! ### Memory -/

theorem State.setBytes_eq (a : Nat) (l : List Byte) : ∃ m, s.setBytes a l = { s with mem := m } := by
  induction l generalizing s a with
  | nil => exact ⟨s.mem, rfl⟩
  | cons x t ih =>
    obtain ⟨m, h⟩ := ih (s.setByte a x) (a + 1)
    rw [State.setBytes, h]
    exact ⟨m, rfl⟩

/-! ### Units with registers that follow them -/

theorem State.setThr_frame (n t : Nat) (x : Thr) : ∃ es, State.OnlyRegs { s with eng := es } (s.setThr n t x) :=
  ⟨_, (State.onlyRegs_setFld _ _ _).trans (State.onlyRegs_setFlag _ _ _)⟩
theorem State.setNut_frame (c : Nat) (x : NutSt) : ∃ ns, State.OnlyRegs { s with nut := ns } (s.setNut c x) :=
  ⟨_, (((((State.onlyRegs_setFld _ _ _).trans (State.onlyRegs_setFlag _ _ _)).trans (State.onlyRegs_setFld _ _ _)).trans
    (State.onlyRegs_setFld _ _ _)).trans (State.onlyRegs_setFlag _ _ _)).trans (State.onlyRegs_setFlag _ _ _)⟩
theorem State.setLau_frame (u : Nat) (x : LauSt) : ∃ ls, State.OnlyRegs { s with lau := ls } (s.setLau u x) :=
  ⟨_, ((State.onlyRegs_setPair _ _ _).trans (State.onlyRegs_setRegN _ _ _)).trans (State.onlyRegs_setRegN _ _ _)⟩
theorem State.setTxn_frame (m : Nat) (x : TxnCh) : ∃ ts, State.OnlyRegs { s with txn := ts } (s.setTxn m x) :=
  ⟨_, ((State.onlyRegs_setFld _ _ _).trans (State.onlyRegs_setFlag _ _ _)).trans (State.onlyRegs_setRegN _ _ _)⟩
/-- A shadow word that is no coefficient is kept beside the registers. -/
theorem State.setShad_plain (a : Nat) (v : Word) (h : isCoef a = false) :
    s.setShad a v = { s with shadow := storeSet (fun _ => none) s.shadow a (some v) }.markDirty a true := by
  simp [State.setShad, h]
theorem State.setShad_frame (a : Nat) (v : Word) (h : isCoef a = false) :
    ∃ sh, State.OnlyRegs { s with shadow := sh } (s.setShad a v) := by
  rw [State.setShad_plain s a v h]
  exact ⟨_, State.onlyRegs_markDirty _ a true⟩

/-! ### Raises and wake events -/

theorem State.assertSrc_frame (src : Nat) : ∃ f rs, s.assertSrc src = { s with fcu := f, raises := rs } := by
  unfold State.assertSrc
  split
  · exact ⟨s.fcu, s.raises, rfl⟩
  · exact ⟨{ s.fcu with cond := storeSet (fun _ => false) s.fcu.cond src true }, s.raises ++ [(src, 0, false)], rfl⟩
/-- A detector's condition that holds already makes no raise; one that begins makes one. -/
theorem State.assertSrc_raises (src : Nat) :
    (s.assertSrc src).raises = if storeGet (fun _ => false) s.fcu.cond src then s.raises else s.raises ++ [(src, 0, false)] := by
  unfold State.assertSrc; split <;> rfl
theorem State.wake_frame (i : Nat) : ∃ q, State.OnlyRegs { s with modeq := q } (s.wake i) := by
  unfold State.wake
  split
  · exact ⟨s.modeq ++ [(18, s.lowFrom, 6)],
      (s.setReg PWR_WAKE (setBits (s.reg PWR_WAKE) (16 + i) (16 + i) 1)).regs, rfl⟩
  · exact ⟨s.modeq, s.onlyRegs_refl⟩
/-- A wake event that its device does not wait for changes nothing. -/
theorem State.wake_idle (i : Nat) (h : s.asleep = false) (h1 : s.pwr.vote = none) : s.wake i = s := by
  simp [State.wake, h, h1]

/-! ### Mailbox channels (R333 to R338) -/

/-- Channel `c` set to hold `ms` holds them, and firmware's order of arrival counts them; registers follow, and nothing else changes. -/
theorem State.setChan_frame (c : Nat) (ms : List (List Byte)) :
    State.OnlyRegs { s with chans := storeSet (fun _ => []) s.chans c ms,
                            arrive := if cmdChan c then arrivals s.arrive c (s.chan c).length ms.length else s.arrive } (s.setChan c ms) := by
  have h := (State.onlyRegs_setFld { s with chans := storeSet (fun _ => []) s.chans c ms,
                                            arrive := if cmdChan c then arrivals s.arrive c (s.chan c).length ms.length else s.arrive }
      (MBX_CH_STAT_COUNT c) ms.length).trans (State.onlyRegs_showHead _ c (ms.headD []))
  unfold State.setChan
  dsimp only
  by_cases hr : chanReceiver c = 0
  · rw [if_pos hr]; exact h.trans (State.onlyRegs_setBitAt _ _ _ _)
  · rw [if_neg hr]; exact h
theorem State.chan_setChan (c : Nat) (ms : List (List Byte)) (k : Nat) :
    (s.setChan c ms).chan k = if k = c then ms else s.chan k := by
  obtain ⟨rs, h⟩ := s.setChan_frame c ms
  rw [h]
  exact storeGet_set (fun _ => []) s.chans c ms k
theorem State.chanPop_frame (c : Nat) : ∃ cs l, State.OnlyRegs { s with chans := cs, arrive := l } (s.chanPop c) := by
  unfold State.chanPop
  split
  · exact ⟨s.chans, s.arrive, s.onlyRegs_setFlag _ _⟩
  · exact ⟨_, _, s.setChan_frame c _⟩
/-- A message taken from a channel is its oldest; every other channel holds what it held. -/
theorem State.chan_chanPop (c k : Nat) : (s.chanPop c).chan k = if k = c then (s.chan c).tail else s.chan k := by
  unfold State.chanPop
  split
  next h =>
    by_cases hk : k = c
    · subst hk; rw [if_pos rfl, h]; exact h
    · rw [if_neg hk]; rfl
  next h => rw [State.chan_setChan, h]; rfl
theorem State.chanPush_frame (c : Nat) (m : List Byte) :
    ∃ cs l o q, State.OnlyRegs { s with chans := cs, arrive := l, out := o, modeq := q } (s.chanPush c m) := by
  have key : ∃ cs l q, State.OnlyRegs { s with chans := cs, arrive := l, modeq := q }
      (((s.setChan c (s.chan c ++ [stampMsg c m])).count (MBX_CH_SENT c) 1).wake 0) := by
    obtain ⟨r1, h1⟩ := (s.setChan_frame c (s.chan c ++ [stampMsg c m])).trans (State.onlyRegs_count _ (MBX_CH_SENT c) 1)
    rw [h1]
    obtain ⟨q, r2, h2⟩ := State.wake_frame { s with
      chans := storeSet (fun _ => []) s.chans c (s.chan c ++ [stampMsg c m]),
      arrive := if cmdChan c then arrivals s.arrive c (s.chan c).length (s.chan c ++ [stampMsg c m]).length else s.arrive, regs := r1 } 0
    rw [h2]
    exact ⟨_, _, q, r2, rfl⟩
  obtain ⟨cs, l, q, r, h⟩ := key
  unfold State.chanPush
  dsimp only
  rw [h]
  split
  · exact ⟨cs, l, .coreIrq (chanReceiver c - 0x10) (32 + c) :: s.out, q, r, rfl⟩
  · exact ⟨cs, l, s.out, q, r, rfl⟩
theorem State.chanRefuse_frame (c : Nat) : ∃ l, State.OnlyRegs { s with raises := l } (s.chanRefuse c) := by
  obtain ⟨r, h⟩ := (s.onlyRegs_setFlag (MBX_CH_STAT_SNDREF c) true).trans (State.onlyRegs_countSat _ (MBX_CH_REFUSED c) 1)
  have h1 : ∃ r, (((s.setFlag (MBX_CH_STAT_SNDREF c) true).countSat (MBX_CH_REFUSED c) 1).raise 354) =
      { s with raises := s.raises ++ [(354, 0, false)], regs := r } := ⟨r, by rw [h]; rfl⟩
  obtain ⟨r1, h1⟩ := h1
  unfold State.chanRefuse
  dsimp only
  rw [h1]
  split
  · exact ⟨s.raises ++ [(354, 0, false)], State.onlyRegs_setFlag { s with raises := s.raises ++ [(354, 0, false)], regs := r1 } HOST_ERR_SNDREF true |>.elim
      (fun r2 h2 => ⟨r2, h2⟩)⟩
  · exact ⟨s.raises ++ [(354, 0, false)], r1, rfl⟩

/-! ### Firmware's notices (R349) -/

theorem State.fwDrainN_frame (k : Nat) :
    ∃ f cs l o q, State.OnlyRegs { s with fw := f, chans := cs, arrive := l, out := o, modeq := q } (State.fwDrainN k s) := by
  induction k generalizing s with
  | zero => exact ⟨s.fw, s.chans, s.arrive, s.out, s.modeq, s.regs, rfl⟩
  | succ k ih =>
    unfold State.fwDrainN
    split
    · exact ⟨s.fw, s.chans, s.arrive, s.out, s.modeq, s.regs, rfl⟩
    · split
      · exact ⟨s.fw, s.chans, s.arrive, s.out, s.modeq, s.regs, rfl⟩
      · rename_i m t _ _
        obtain ⟨c1, l1, o1, q1, r1, h1⟩ := State.chanPush_frame { s with fw := { s.fw with notices := t } } 4 m
        rw [h1]
        obtain ⟨f, c2, l2, o2, q2, r2, h2⟩ :=
          ih { s with fw := { s.fw with notices := t }, chans := c1, arrive := l1, out := o1, modeq := q1, regs := r1 }
        exact ⟨f, c2, l2, o2, q2, r2, h2⟩
theorem State.fwDrain_frame :
    ∃ f cs l o q, State.OnlyRegs { s with fw := f, chans := cs, arrive := l, out := o, modeq := q } s.fwDrain := s.fwDrainN_frame 64
/-- With no notice queued nothing is sent. -/
theorem State.fwDrain_none (h : s.fw.notices = []) : s.fwDrain = s := by
  unfold State.fwDrain State.fwDrainN; rw [h]

/-! ### Firmware taking a command (R346, R347, R350) -/

/-- What a refusal before the payload can be. -/
theorem State.mem_refusals (c op : Nat) (eng : Bool) (modes : List Nat) (fits : Bool) (e : Nat × Nat)
    (h : e ∈ s.refusals c op eng modes fits) :
    (56 ≤ c ∧ eng = false ∧ e = (0x8004, 0)) ∨ (fits = false ∧ e = (0x8002, 0)) ∨
    (modeOps.contains op = true ∧ s.busy = true ∧ e = (0x8007, s.fld SYS_MODE_TARGET)) ∨
    (modes.contains s.mode = false ∧ e = (0x8006, s.mode)) := by
  unfold State.refusals at h
  simp only [List.mem_append] at h
  obtain ((h | h) | h) | h := h <;> split at h <;> simp_all
/-- A command is left where firmware does not serve the channel, the channel is empty, or the command is another's; else it is refused, by
a check that it fails, or carried out. -/
theorem State.fwServe_cases (c op : Nat) (eng w : Bool) (modes : List Nat) (len : List Byte → Nat)
    (act : State → Nat → List Byte → List Byte → State) (no : State → Nat → List Byte → Nat → Nat → State) :
    s.fwServe c op eng w modes len act no = s ∨
    ∃ m t, s.chan c = m :: t ∧ cmdChan c = true ∧ s.fwFree c w = true ∧
      ((knownOps.contains (plN m 4 2) = false ∧ s.fwServe c op eng w modes len act no = s.fwNo c m 0x8001 0) ∨
       (plN m 4 2 = op ∧
        let l := s.refusals c op eng modes (plN m 6 2 == len (msgPl m))
        ((l = [] ∧ s.fwServe c op eng w modes len act no = act s c m (msgPl m)) ∨
         (∃ e, l = [e] ∧ s.fwServe c op eng w modes len act no = no s c m e.1 e.2) ∨
         (∃ e ∈ l, 2 ≤ l.length ∧ s.fwServe c op eng w modes len act no = no s.drew c m e.1 e.2)))) := by
  unfold State.fwServe
  by_cases h1 : (!cmdChan c || !s.fwFree c w) = true
  · left; rw [if_pos h1]
  · rw [if_neg h1]
    have h2 : cmdChan c = true ∧ s.fwFree c w = true := by simpa using h1
    cases hm : s.chan c with
    | nil => exact .inl rfl
    | cons m t =>
      dsimp only
      by_cases h3 : (!knownOps.contains (plN m 4 2)) = true
      · rw [if_pos h3]
        exact .inr ⟨m, t, rfl, h2.1, h2.2, .inl ⟨by simpa using h3, rfl⟩⟩
      · rw [if_neg h3]
        by_cases h4 : plN m 4 2 = op
        · rw [if_neg (not_not_intro h4)]
          refine .inr ⟨m, t, rfl, h2.1, h2.2, .inr ⟨h4, ?_⟩⟩
          generalize s.refusals c op eng modes (plN m 6 2 == len (msgPl m)) = l
          match l with
          | [] => exact .inl ⟨rfl, rfl⟩
          | [e] => exact .inr (.inl ⟨e, rfl, rfl⟩)
          | e :: f :: r =>
            refine .inr (.inr ⟨(e :: f :: r).getD (s.freeW.toNat % (e :: f :: r).length) e, ?_, by simp, by simp⟩)
            have hk := Nat.mod_lt s.freeW.toNat (show 0 < (e :: f :: r).length by simp)
            rw [List.getD_eq_getElem _ _ hk]
            exact List.getElem_mem hk
        · rw [if_pos h4]; exact .inl rfl

end Sys2Proof.Machine
end

