-- ==== Sys2Proof/Laws/Step.lean ====
section
/-! SUPPORT. What a step can do: every command ends in a next state, which is what its own effect sets off settled. -/

namespace Sys2Proof.Machine

open Sys2Proof

/-- Every command's outcome is a next state, and that state is one its own effect gives, settled. -/
theorem exec_settles (c : Instr) (s : State) : ∃ u : State, Machine.exec c s = .next u.settle := by
  cases c <;> exact ⟨_, rfl⟩

/-- Every step's outcome is a next state: the settled effect of the command in front, or of a clock cycle. -/
theorem step_settles (s : State) : ∃ u : State, Machine.step s = .next u.settle := by
  unfold Machine.step
  split
  · exact ⟨_, rfl⟩
  · exact exec_settles _ _

/-- With no raise and no transition asked for nothing settles, however long one waits. -/
theorem State.settleN_quiet (n : Nat) (s : State) (h : s.raises = []) (h1 : s.modeq = []) : State.settleN n s = s := by
  cases n with
  | zero => rfl
  | succ n => simp only [State.settleN, h, h1]

end Sys2Proof.Machine
end

