-- ==== Sys2Proof/Tests/Slice0.lean ====
section
/-! SUPPORT. Own tests: that the hypotheses of each statement hold together, that WellFormed refuses an ill-formed term for each check. -/

namespace Sys2Proof.Tests

open Sys2Proof Sys2Proof.Machine

set_option Elab.async false
set_option linter.unusedVariables false

/-- The block with every domain on, no transition in progress, in mode `m`. -/
def rigIn (m : Nat) : State :=
  let s := ((State.reset.setReg PWR_DOMSTAT 0x555555#32).setFlag SYS_MODE_BUSY false).setFld SYS_MODE_CUR m
  { s with trans := none }
/-- The block in PREOP. -/
abbrev rig : State := rigIn modePREOP
/-- A copy of frame 0 in class 7. -/
def aCopy : Copy := ⟨0, 0, 0, 0, 0, 0, 0, 0, 1, 7, false, false, none, false, 0, none, false, false, false, 0, false, 0, 0, 2, 1, 0, 0, false, false⟩
/-- A 64-byte group-addressed frame with a good FCS. -/
def rxFrame : List Byte := withFcs (List.replicate 6 3 ++ List.replicate 6 2 ++ [8, 0] ++ List.replicate 46 1)
/-- Port 1 ready to receive. -/
def rxPort : State :=
  (((rig.setFlag (MAC_STAT_LINK 1) true).setFlag (MAC_CTRL_RXEN 1) true).setFld (MAC_MAXLEN_MAXLEN 1) 1518).setMac 1 { MacSt.reset with ring := 64, ringFree := 64 }
/-- Engine 2 running with thread 1 in an item. -/
def engRig : State := (rig.setFlag (ENG_CTRL_RUN 2) true).setThr 2 1 { Thr.reset with run := true, regs := [(1, 7), (2, 0xFFFFFFFE)], pc := 4 }
/-- Engine 2 running, thread 1 about to execute `w`. -/
def isaRig (w : Word) : State :=
  ((rig.setFlag (ENG_CTRL_RUN 2) true).setEng 2 { EngSt.reset with imem := [(4, w)], dmem := [(8, 0xF0#8), (11, 1#8)] }).setThr 2 1 { Thr.reset with run := true, regs := [(1, 8), (2, 0xFFFFFFFE), (3, 131068)], pc := 4 }
/-- Of an encoding: a thread that fetches it. -/
def witAlu (r : Nat × Nat) : Bool :=
  let w := w32 (r.1 * 2 ^ 26 + 0x851000 + r.2)
  (isaRig w).fetches 2 1 w && bits w 31 26 == r.1 && bits w 5 0 == r.2
def witImm (op : Nat) : Bool :=
  let w := w32 (op * 2 ^ 26 + 0x81FFFF)
  (isaRig w).fetches 2 1 w && bits w 31 26 == op
def witLoad (r : Nat × Nat) : Bool :=
  let w := w32 (r.1 * 2 ^ 26 + 0x830000)
  let x := ((isaRig w).thr 2 1).tickLoads
  (isaRig w).fetches 2 1 w && bits w 31 26 == r.1 && x.addr w % r.2 == 0 && decide (x.addr w ≤ 131071)
def witStore (r : Nat × Nat) : Bool := witLoad r
def witAtom (fn : Nat) : Bool :=
  let w := w32 (3 * 2 ^ 26 + 0x831000 + fn)
  let a := (((isaRig w).thr 2 1).tickLoads.g (bits w 20 16)).toNat
  (isaRig w).fetches 2 1 w && bits w 31 26 == 3 && bits w 5 0 == fn && a % 4 == 0 && decide (a ≤ 131071)
def witPortIn (r : Nat × Nat) : Bool :=
  let w := w32 (r.1 * 2 ^ 26 + 0x400200)
  let s := isaRig w
  let s0 := s.setThr 2 1 (s.thr 2 1).tickLoads
  let r1 := s0.portRead 2 1 ((s0.thr 2 1).addr w) r.2 false
  s.fetches 2 1 w && bits w 31 26 == r.1 && decide ((s0.thr 2 1).addr w ≤ 4095) && r1.2.isSome && (r1.1.thr 2 1).run && (r1.1.thr 2 1).rep.isNone
def witPortOut (r : Nat × Nat) : Bool :=
  let w := w32 (r.1 * 2 ^ 26 + 0x400200)
  let s := isaRig w
  let s0 := s.setThr 2 1 (s.thr 2 1).tickLoads
  let r1 := s0.portWrite 2 1 ((s0.thr 2 1).addr w) r.2 ((s0.thr 2 1).g (bits w 25 21)) false
  s.fetches 2 1 w && bits w 31 26 == r.1 && decide ((s0.thr 2 1).addr w ≤ 4095) && r1.2 && (r1.1.thr 2 1).run && (r1.1.thr 2 1).rep.isNone
/-- Each way of a branch: ra 0, ra not 0, backwards to index 0. -/
def witBranch (op : Nat) : Bool :=
  [0x00000, 0x1FFFB, 0x10007].all (fun k =>
    let w := w32 (op * 2 ^ 26 + k)
    let q : Int := (((isaRig w).thr 2 1).tickLoads).pc + 1 + simm w
    (isaRig w).fetches 2 1 w && bits w 31 26 == op && decide (0 ≤ q) && decide (q < 16384))
/-- CAN controller 1 takes part on an idle bus. -/
def canRig : State := ((rig.setFlag (CAN_CTRL_INIT 1) false).setFlag (CAN_STAT_INITACK 1) false).setFlag (CAN_STAT_IDLE 1) true
/-- A transmit attempt of a reference. -/
def canTx0 : CanTx := ⟨none, ⟨0x40000#32, 2#32, [0x100#32]⟩, 5, 0, 0, false, false, false, []⟩
/-- An instance with a loss count, acyclic. -/
def instRig : InstSt := ⟨⟨0x0101, 3, none, 0, 0, 31250, 0, 1, 0, 3, false, 0, 0, [], [], [], []⟩, 0, 0, 2, [], 1, 2, 0, 0, 0⟩
/-- Cell 3 runs and stands at the instruction `w`. -/
def nutRig (w : Nat) : State := (rig.setFlag (NUT_CTRL_EN 3) true).setReg (NUT_PROG 3 0) (w32 w)
/-- Cell 3 with the instruction `w` in progress, stalled or not. -/
def nutBusy (w : Nat) (stall : Bool) : State := (nutRig w).setNut 3 { NutSt.reset with ip := some (w, false, stall) }
/-- Cardamom on, context 5 enabled. -/
def loopRig : State := (rig.setFlag LOOP_CTRL_EN true).setFlag (LOOP_CTX_CTRL_EN 5) true
/-- The environment of an evaluation of context 5 whose coefficient word `i` is `w` for each pair of the list. -/
def envOf (l : List (Nat × Nat)) : LEnv := ({ s := l.foldl (fun s e => s.setMem32 (coefMem (LOOP_COEF 5 e.1) 0) e.2) loopRig, k := 5, ins := [], raws := [], gen := Machine.Num.zero, outs := [], fin := Machine.Num.zero, src := fun _ => 0 } : LEnv)
def wEnv (i w : Nat) : LEnv := envOf [(i, w)]
def pidEnv : LEnv := envOf [(16, 1), (17, 0x01400000), (18, 0x01400000), (22, 0x01400000), (24, 0x02400000)]
def rampEnv : LEnv := envOf [(16, 5), (17, 0x01400000), (18, 0x01400000), (19, 0x01400000), (20, 0x01400000)]
def camEnv : LEnv := let e := envOf [(16, 2), (17, 0x10000), (18, 0x12345678)]; { e with s := e.s.setMem32 (0x20900000 + 4 * 0x123) 0x01400000 }
/-- A latch of a trigger at reset, with no sources. -/
def latch0 : LoopLatch := ⟨5, 0, [], [], false⟩
/-- Saffron in RUN with bytes of its parameter block replaced from the default. -/
def safRig (l : List (Nat × Nat)) : State :=
  let b := l.foldl (fun b e => putBytes b e.1 [b8 e.2]) spbDefault
  { rig with saf := { rig.saf with base := 3, spb := some b, spbB := some b } }
/-- Both channels of Saffron see contacts `c`, pair states `p` and the discrepancy timers `t`. -/
def safSee (s : State) (c p : Nat) (t : List Nat) : State := [0, 1].foldl (fun s ch => s.setView ch ⟨c, p, t⟩) s
/-- A sound safety PDU of no payload, for a connection 7 that no block has. -/
def pduFrm : List Byte :=
  let q : List Byte := [0x10, 0, 0, 0, 0, 0, 0, 7, 0, 0, 0, 1, 0, 0, 0, 0]
  withFcs (List.replicate 12 2 ++ [b8 ((safRig []).sp 4 2 / 256), b8 ((safRig []).sp 4 2)] ++ q ++ [b8 ((crcF q).toNat / 2 ^ 24), b8 ((crcF q).toNat / 2 ^ 16), b8 ((crcF q).toNat / 2 ^ 8), b8 (crcF q).toNat] ++ List.replicate 20 0)
/-- A command with opcode `op`, payload `p` and handle `h`. -/
def fwMsg (op : Nat) (p : List Byte) (h : Nat := 0) : List Byte := padTo 64 ([0, 0, 7, 0] ++ leBytes 2 op ++ leBytes 2 p.length ++ leBytes 4 h ++ leBytes 4 0 ++ p)
/-- Firmware runs, and channel `c` holds one command. -/
def fwIn (s : State) (c : Nat) (m : List Byte) : State := { s with fw := { FwSt.reset with running := true } }.setChan c [m]
def fwRig (c : Nat) (m : List Byte) : State := fwIn rig c m
/-- An engine image of one instruction word, and a firmware image of one byte. -/
def engImg0 : List Byte :=
  leBytes 4 0x4D524549 ++ leBytes 2 0x0101 ++ [0, 0] ++ leBytes 4 4 ++ leBytes 2 1 ++ leBytes 2 0 ++ leBytes 4 0 ++ leBytes 4 0 ++ leBytes 4 (crc32 [1, 2, 3, 4]).toNat ++
    leBytes 4 0 ++ [1, 2, 3, 4]
def fwImg0 : List Byte := leBytes 4 0x4D524657 ++ leBytes 4 1 ++ leBytes 4 0 ++ leBytes 4 (crc32 [9]).toNat ++ [9]
/-- An INST_START can be served: the four buffer units are there and the image is loaded. -/
def instReady (m : List Byte) : State :=
  let s := (fwRig 2 m).setFld BUF_SWCELLS_UNITS 16
  { s with sys := { s.sys with imgs := [(0x0101, none)] } }
/-- An image of two axes on the virtual master, paced by instance 0, and a state whose buffer at the start of the software region holds it. -/
def lineImg : List Byte :=
  leBytes 2 1 ++ leBytes 2 2 ++ [0, 0, 0, 0] ++ leBytes 4 0 ++ leBytes 4 100 ++ leBytes 4 200 ++ leBytes 4 0x10000 ++ leBytes 4 0x10000 ++ leBytes 2 5 ++ leBytes 2 8 ++
    ([10, 0, 1, 0] ++ leBytes 4 0x10000 ++ leBytes 4 5 ++ [20, 0, 0, 0]) ++ ([12, 0, 0, 0] ++ leBytes 4 0x20000 ++ leBytes 4 0 ++ [22, 0, 0, 0])
def lineIn (c : Nat) (m : List Byte) : State := ((fwRig c m).setBlock 0x20800000 lineImg).setInst 0 (some instRig)
def lineAx : AxisSt := (lineAxes lineImg).headD ⟨0, 0, 0, 0#32, 0, 0, 0, 0, false, false, 0⟩
/-- A value that is there is the one `getD` takes out. -/
theorem eq_some_getD {α : Type} (o : Option α) (x : α) (h : o.isSome = true) : o = some (o.getD x) := by cases o <;> simp_all
/-- The default parameter block without its zeros at the end. -/
def spbShort : List Byte := spbDefault.take 157
/-- A fold that computes each step before the next. -/
def foldStrict (f : Word → Byte → Word) : List Byte → Word → Word
  | [], c => c
  | b :: t, c =>
    match (f c b).toNat with
    | 0 => foldStrict f t 0#32
    | n + 1 => foldStrict f t (BitVec.ofNat 32 (n + 1))
theorem foldl_strict (f : Word → Byte → Word) (l : List Byte) (c : Word) : l.foldl f c = foldStrict f l c := by
  induction l generalizing c with
  | nil => rfl
  | cons b t ih =>
    simp only [List.foldl_cons, foldStrict]
    split
    · next h => rw [ih, show f c b = 0#32 from BitVec.eq_of_toNat_eq (by simpa using h)]
    · next n h => rw [ih, show n + 1 = (f c b).toNat from h.symm, BitVec.ofNat_toNat, BitVec.setWidth_eq]
/-- Another block that breaks no rule. -/
def spbAlt : List Byte := putBytes spbShort 0x84 [9]
theorem crc_spbAlt : crcF spbAlt = 1169191921#32 := by
  unfold crcF
  rw [foldl_strict]
  decide +kernel
theorem crc_spbShort : crcF spbShort = 0x8805dd9e#32 := by
  unfold crcF
  rw [foldl_strict]
  decide +kernel

/-- The hypotheses of IdleStepIsOneTick hold together. -/
theorem hyps_IdleStepIsOneTick :
    (let s : State := rig; (s.pending = []) ∧ (s.mode ≠ modeOFF)) ∧
    (let s : State := rigIn modeOFF; (s.pending = []) ∧ (s.mode = modeOFF)) := by
  refine ⟨?_, ?_⟩ <;> decide +kernel

/-- The hypotheses of QuietStateSettles hold together. -/
theorem hyps_QuietStateSettles :
    (let s : State := rig; (s.Calm)) := by
  decide +kernel

/-- The hypotheses of RegisterAccess hold together. -/
theorem hyps_RegisterAccess :
    (let m : Master := .host; let a : Word := 0x40600004#32; let v : BitVec 64 := 0x3#64; let r : RegSpec := (findReg 0x40600004).getD ⟨"", 0, [], [], 0⟩; let s : State := rig; (plain a.toNat = true) ∧ (findReg a.toNat = some r) ∧ (s.grants m a.toNat (w32 v.toNat) = true) ∧ (accMask r .rwt = 0) ∧ ((s.rwlLocked = false ∨ accMask r .rwl = 0))) ∧
    (let m : Master := .host; let a : Word := 0x41A00000#32; let v : BitVec 64 := 0; let s : State := { rigIn modeOPERATIONAL with fw := { FwSt.reset with running := true } }; (s.arrives m a.toNat true = true) ∧ (halfAt a.toNat ≠ 3) ∧ (s.locked m a.toNat (w32 v.toNat) = true)) ∧
    (let m : Master := .host; let a : Word := 0x41200000#32; let v : BitVec 64 := 5; let r : RegSpec := (findReg 0x41200000).getD ⟨"", 0, [], [], 0⟩; let s : State := rig.setReg PWR_DOMSTAT 0x4#32; (inRegs a.toNat = true ∧ a.toNat % 4 = 0 ∧ a.toNat ≠ HOST_RWDATA) ∧ (findReg a.toNat = some r) ∧ (m ≠ .cardamom) ∧ (m = .host → s.isHeld .host = false) ∧ (s.bridgeDenied m a.toNat true = false) ∧ (s.unreached a.toNat = true ∨ barred m a.toNat = true)) ∧
    (let m : Master := .host; let a : Word := 0x41700010#32; let r : RegSpec := (findReg 0x41700010).getD ⟨"", 0, [], [], 0⟩; let s : State := rig.setReg 0x41700010 7#32; (plainRead a.toNat = true) ∧ (findReg a.toNat = some r) ∧ (s.reads m a.toNat = true) ∧ (r.half = 0)) ∧
    (let m : Master := .host; let a : Word := 0x40500020#32; let r : RegSpec := (findReg 0x40500020).getD ⟨"", 0, [], [], 0⟩; let s : State := rig; (plainRead a.toNat = true) ∧ (findReg a.toNat = some r) ∧ (s.reads m a.toNat = true) ∧ (r.half = 1) ∧ (accMask r .rc = 0)) ∧
    (let m : Master := .core 1; let a : Word := 0x40400024#32; let v : Word := 5; let s : State := rig; (s.arrives m a.toNat true = true) ∧ (halfAt a.toNat = 1) ∧ (s.locked m a.toNat v = false)) ∧
    (let m : Master := .core 1; let a : Word := 0x40400028#32; let v : Word := 5; let lo : Word := 7; let s : State := rig.setLow (.core 1) 0x40400028 (some 7); (plain a.toNat = true) ∧ (rwAll a.toNat = true) ∧ (rwAll (a.toNat - 4) = true) ∧ (s.arrives m a.toNat true = true) ∧ (halfAt a.toNat = 2) ∧ (s.locked m a.toNat v = false) ∧ (s.low m a.toNat = some lo)) ∧
    (let m : Master := .core 1; let a : Word := 0x40400028#32; let v : Word := 5; let s : State := rig; (plain a.toNat = true) ∧ (rwAll a.toNat = true) ∧ (s.arrives m a.toNat true = true) ∧ (halfAt a.toNat = 2) ∧ (s.locked m a.toNat v = false) ∧ (s.low m a.toNat = none)) := by
  refine ⟨?_, ?_, ?_, ?_, ?_, ?_, ?_, ?_⟩ <;> decide +kernel

/-- The hypotheses of ShadowWrites hold together. -/
theorem hyps_ShadowWrites :
    (let m : Master := .host; let k : Nat := 0; let a : Word := 0x40500004#32; let v : Word := 5; let s : State := rig.setFlag (TXN_CH_STAT_OPEN 0) true; (lauRwt a.toNat = true) ∧ (s.grants m a.toNat v = true) ∧ (txnOf m = some k) ∧ (s.flag (TXN_CH_STAT_OPEN k) = true) ∧ (∀ e ∈ (s.txnCh k).log, e.1 ≠ a.toNat) ∧ ((s.txnCh k).log.length < 1024) ∧ (((List.range 21).map (fun j => (s.txnCh j).log.length)).sum < 4096)) ∧
    (let m : Master := .host; let a : Word := 0x40500004#32; let v : Word := 5; let s : State := rig; (lauRwt a.toNat = true) ∧ (s.grants m a.toNat v = true) ∧ (∀ k : Fin 21, s.flag (TXN_CH_STAT_OPEN k) = false ∧ s.flag (TXN_CH_STAT_CHECKING k) = false ∧ (s.txnCh k).armed = none)) ∧
    (let m : Master := .host; let a : Word := 0x40500004#32; let v : Word := 5; let s : State := rig.setTxn 1 { TxnCh.idle with armed := some ⟨1, 0, 0, 0, 0, false, [.lau 0], false, none, []⟩ }; (lauRwt a.toNat = true) ∧ (s.grants m a.toNat v = true) ∧ (∀ k : Fin 21, s.flag (TXN_CH_STAT_OPEN k) = false ∧ s.flag (TXN_CH_STAT_CHECKING k) = false) ∧ ((s.armedBy (.lau ((a.toNat - 0x40500000) / 65536))).isSome = true)) := by
  refine ⟨?_, ?_, ?_⟩ <;> decide +kernel

/-- The hypotheses of ResetsAndStart hold together. -/
theorem hyps_ResetsAndStart :
    (let r : BootRes := ⟨false, none, 0, [], false, false⟩; let s : State := rigIn modeBOOT; (s.mode = modeBOOT) ∧ (s.trans = none) ∧ (s.fw.running = false) ∧ (s.pwr.late = []) ∧ ((((r.image = false ∧ s.sys.fwImg = none) ∨ s.flag SYS_RSTCAUSE_BOOTHOLD = true) ∧ s.noTxn = true))) ∧
    (let r : BootRes := ⟨true, none, 0, [], false, false⟩; let s : State := rigIn modeBOOT; (s.mode = modeBOOT) ∧ (s.trans = none) ∧ (s.fw.running = false) ∧ (r.image = true) ∧ (s.flag SYS_RSTCAUSE_BOOTHOLD = false)) ∧
    (let s : State := rig.setFlag PWR_RSTCFG_HOSTRST true; (s.flag PWR_RSTCFG_HOSTRST = true)) ∧
    (let s : State := (rig.setReg HOST_ERR 3#32).setReg HOST_LINKCFG 1#32; (s.flag PWR_RSTCFG_HOSTRST = false)) := by
  refine ⟨?_, ?_, ?_, ?_⟩ <;> decide +kernel

/-- The hypotheses of TransitionsEnd hold together. -/
theorem hyps_TransitionsEnd :
    (let i : Option (Fin 4) := none; let t : Trans := ⟨8, 6, 2, 4⟩; let s : State := { rig with trans := some ⟨8, 6, 2, 4⟩, pwr := { PwrSt.reset with pace := 4 } }; (s.trans = some t) ∧ ((t.num = 8 ∨ t.num = 9 ∨ t.num = 11 ∨ (t.num = 10 ∧ t.cause ≠ 0x0B))) ∧ ((i.map (fun x => x.val)).getD 4 = s.pwr.pace) ∧ ((i.isSome = true ∨ s.gridAt 1000000 = true)) ∧ (t.target < 12) ∧ (t.cause < 256) ∧ (s.insts = []) ∧ (s.fw.cfg = []) ∧ (s.pwr.late = [])) ∧
    (let t : Trans := ⟨15, 4, 1, 7⟩; let s : State := { rigIn modeSAFESTOP with trans := some ⟨15, 4, 1, 7⟩ }; (s.trans = some t) ∧ ((t.num = 6 ∨ t.num = 12 ∨ t.num = 13 ∨ t.num = 14 ∨ t.num = 15)) ∧ (t.target < 12) ∧ (t.cause < 256) ∧ (s.insts = []) ∧ (s.fw.cfg = []) ∧ (s.pwr.late = []) ∧ (s.line.stored = none)) ∧
    (let t : Trans := ⟨1, 1, 0, 0⟩; let s : State := State.reset; (s.trans = some t) ∧ ((t.num = 1 ∨ t.num = 21)) ∧ (t.target = modeBOOT) ∧ (t.cause < 256) ∧ (s.pwr.late = [])) := by
  refine ⟨?_, ?_, ?_⟩ <;> decide +kernel

/-- The hypotheses of ClocksRailsAndTemperature hold together. -/
theorem hyps_ClocksRailsAndTemperature :
    (let r : Fin 10 := 3; let s : State := rig; (r.val < 8)) ∧
    (let r : Fin 10 := 9; let s : State := rig; (8 ≤ r.val)) ∧
    (let r : Fin 10 := 7; let s : State := rig; (r.val < 8)) ∧
    (let r : Fin 10 := 9; let s : State := { rig with pwr := { PwrSt.reset with rails := 2 } }; ((8 ≤ r.val ∧ s.pwr.rails = 2 ^ (r.val - 8)))) ∧
    (let r : Fin 10 := 8; let s : State := { rig with pwr := { PwrSt.reset with rails := 3 }, fcu := { rig.fcu with cond := [(9, true)] } }; ((8 ≤ r.val ∧ s.pwr.rails = 3 ∧ storeGet (fun _ => false) s.fcu.cond 9 = true))) ∧
    (let d : Fin 12 := 10; let s : State := (rig.setDom2 10 3).setReg 0x41500014 1#32; (s.domSt d = 3)) ∧
    (let t : Nat := 5; let b : Machine.Ball := .holdEn; let s : State := (rigIn modeOPERATIONAL).setReg PIN_IOSTAT 0xFE#32; (s.mode ≠ modeTEST) ∧ (s.unsupplied b = true)) ∧
    (let n : Nat := 3; let t : Nat := 5; let s : State := rigIn modeOFF; (s.mode = modeOFF) ∧ (s.reg PIN_IOSTAT = 0xFF#32)) ∧
    (let n : Nat := 3; let t : Nat := 5; let s : State := (rigIn modeBOOT).setReg PWR_DOMSTAT 0x405555#32; (s.mode = modeBOOT) ∧ (s.reg PIN_IOSTAT = 0xFF#32) ∧ (s.canDrives n = false) ∧ (s.flag PIN_MDIO_GO = false) ∧ (s.domOn 8 = false)) ∧
    (let n : Nat := 3; let t : Nat := 5; let s : State := (rigIn modeHOLDUP).setReg PWR_DOMSTAT 0#32; (s.mode = modeHOLDUP) ∧ (s.reg PIN_IOSTAT = 0xFF#32) ∧ (s.domOn 10 = false)) := by
  refine ⟨?_, ?_, ?_, ?_, ?_, ?_, ?_, ?_, ?_, ?_⟩ <;> decide +kernel

/-- The hypotheses of TimeDomainCommands hold together. -/
theorem hyps_TimeDomainCommands :
    (let m : Master := .core 0; let d : Fin 4 := 1; let s : State := (((rig.setFld (TIME_DOM_STAT_STATE 1) 1).setReg (TIME_DOM_STEP_NS 1) 500#32).setReg (TIME_DOM_STEP_SEC_LO 1) 3#32); (s.grantsF m (TIME_DOM_CTRL_STEP d) 1 = true) ∧ (s.domState d = 1) ∧ (s.flag (TIME_DOM_CTRL_STEPSRC d) = false) ∧ (s.itin.armed = []) ∧ (s.stepTime d < 2 ^ 64 * 1000000000)) ∧
    (let m : Master := .core 0; let d : Fin 4 := 1; let s : State := rig; (s.grantsF m (TIME_DOM_CTRL_STEP d) 1 = true) ∧ (s.domState d ≠ 1)) ∧
    (let m : Master := .core 0; let d : Fin 4 := 1; let s : State := (rig.setFld (TIME_DOM_STAT_STATE 1) 1).setFlag (TIME_DOM_CTRL_STEPSRC 1) true; (s.grantsF m (TIME_DOM_CTRL_STEP d) 1 = true) ∧ (s.domState d = 1) ∧ (s.flag (TIME_DOM_CTRL_STEPSRC d) = true)) ∧
    (let m : Master := .host; let d : Fin 4 := 3; let s : State := rig.setFld (TIME_DOM_STAT_STATE 3) 2; (s.grantsF m (TIME_DOM_CTRL_FREE d) 1 = true)) ∧
    (let m : Master := .host; let d : Fin 4 := 0; let s : State := rig; (s.grantsF m (TIME_DOM_CTRL_ACQ d) 1 = true)) ∧
    (let m : Master := .host; let d : Fin 4 := 0; let v : Word := 0x80000000#32; let s : State := rig; (s.grants m (TIME_DOM_ADJ d) v = true)) ∧
    (let m : Master := .thread 1 2; let d : Fin 4 := 0; let s : State := rig.setReg (ENG_PERMR 1) 0xFFFFFFFF#32; (s.reads m (TIME_DOM_NS d) = true)) ∧
    (let e8 : Fin 8 := 3; let s : State := rig.setFlag TIME_PPS_CTRL_EN true; (s.flag TIME_PPS_CTRL_EN = true) ∧ (s.time.ppsRef = false) ∧ (s.domState (s.fld TIME_PPS_CTRL_DOM) = 0)) ∧
    (let e8 : Fin 8 := 3; let s : State := rig; (s.flag TIME_PPS_CTRL_EN = false)) ∧
    (let s : State := rig.setFlag TIME_PPS_CTRL_EN true; (s.flag TIME_PPS_CTRL_EN = true) ∧ (s.flag TIME_PPS_STAT_LOST = false)) ∧
    (let s : State := rig; (s.flag TIME_PPS_CTRL_EN = false)) ∧
    (let e8 : Fin 8 := 3; let s : State := { rig.setFlag TIME_PPS_CTRL_EN true with time := { rig.time with ppsRef := true, ppsAge := 5000 } }; (s.flag TIME_PPS_CTRL_EN = true) ∧ (s.time.ppsRef = true) ∧ (s.time.ppsRej < 3) ∧ (s.time.ppsAge + max 1 (s.fld TIME_PPS_CTRL_TOL) * 1000 < 1000000000 ∨ 1000000000 + max 1 (s.fld TIME_PPS_CTRL_TOL) * 1000 < s.time.ppsAge)) ∧
    (let d : Fin 4 := 2; let e8 : Fin 8 := 3; let s : State := (((rig.setReg TIME_PPS_CTRL 0x80000000#32).setFlag TIME_PPS_CTRL_EN true).setFld TIME_PPS_CTRL_DOM 2).setFld (TIME_DOM_STAT_STATE 2) 1 |>.setFlag (TIME_DOM_CTRL_STEPSRC 2) true |>.setReg TIME_PPS_SEC_LO 77#32; (s.flag TIME_PPS_CTRL_EN = true) ∧ (s.time.ppsRef = false) ∧ (s.fld TIME_PPS_CTRL_DOM = d) ∧ (s.domState d = 1) ∧ (s.flag (TIME_DOM_CTRL_STEPSRC d) = true) ∧ (s.itin.armed = [])) ∧
    (let d : Fin 4 := 2; let e8 : Fin 8 := 3; let e : Int := 40; let e0 : Int := 25; let s : State := let s := ((((rig.setFlag TIME_PPS_CTRL_EN true).setFlag TIME_PPS_CTRL_SERVO true).setFld TIME_PPS_CTRL_DOM 2).setFld (TIME_DOM_STAT_STATE 2) 2).setReg (TIME_DOM_NS 2) 40#32; { s with time := { s.time with ppsRef := true, ppsAge := 1000000000, ppsErr := some (2, 25) } }; (s.flag TIME_PPS_CTRL_EN = true) ∧ (s.flag TIME_PPS_CTRL_SERVO = true) ∧ (s.time.ppsRef = true) ∧ (s.time.ppsRej < 3) ∧ (s.time.ppsAge = 1000000000) ∧ (s.fld TIME_PPS_CTRL_DOM = d) ∧ (s.domState d = 2) ∧ (s.time.ppsErr = some (d.val, e0)) ∧ (e = (if 500000000 ≤ s.domAt8 d e8 / 8 % 1000000000 then ((s.domAt8 d e8 / 8 % 1000000000 : Nat) : Int) - 1000000000 else (s.domAt8 d e8 / 8 % 1000000000 : Nat)))) := by
  refine ⟨?_, ?_, ?_, ?_, ?_, ?_, ?_, ?_, ?_, ?_, ?_, ?_, ?_, ?_⟩ <;> decide +kernel

/-- The hypotheses of LauCommands hold together. -/
theorem hyps_LauCommands :
    (let m : Master := .core 0; let v : Fin 2 := 1; let s : State := rig; (s.grantsF m (LAU_CTRL_EN v) 1 = true) ∧ (s.flag (LAU_CTRL_EN v) = false)) ∧
    (let m : Master := .core 0; let v : Fin 2 := 1; let s : State := rig.setFlag (LAU_CTRL_EN 1) true; (s.grantsF m (LAU_CTRL_EN v) 0 = true) ∧ (s.flag (LAU_CTRL_EN v) = true) ∧ (∀ k : Fin 21, (s.txnCh k).armed = none)) ∧
    (let m : Master := .core 0; let v : Fin 2 := 0; let s : State := rig.setFlag (LAU_CTRL_EN 0) true; (s.grantsF m (LAU_CTRL_REACQ v) 1 = true) ∧ (s.flag (LAU_CTRL_EN v) = true)) ∧
    (let m : Master := .core 0; let v : Fin 2 := 0; let s : State := (rig.setFlag (LAU_CTRL_EN 0) true).setPair (LAU_SET_LO 0) (2 ^ 40 + 3); (s.grantsF m (LAU_CTRL_SETANG v) 1 = true) ∧ (s.flag (LAU_CTRL_EN v) = true) ∧ (s.itin.armed = [])) ∧
    (let m : Master := .core 0; let v : Fin 2 := 0; let s : State := { (rig.setFlag (LAU_CTRL_EN 0) true).setFld (ITIN_SLOT_CTRL_TRIG 5) 1 with itin := { ItinSt.reset with armed := [5] } }; (s.grantsF m (LAU_CTRL_SETANG v) 1 = true) ∧ (s.flag (LAU_CTRL_EN v) = true) ∧ (s.angleSlotOn v = true)) ∧
    (let m : Master := .core 0; let v : Fin 2 := 0; let ts : Word := 4; let s : State := rig; (s.grants m (LAU_NET_TS v) ts = true) ∧ ((s.fld (LAU_CFG_SRC v) ≠ 2 ∨ (s.lauSt v).netFresh = false)) ∧ (s.isHeld (.lau v) = false)) ∧
    (let m : Master := .core 0; let v : Fin 2 := 0; let ts : Word := 0; let s : State := ((rig.setFld (LAU_CFG_SRC 0) 2).setFlag (LAU_CTRL_EN 0) true).setLau 0 { LauSt.reset with netFresh := true }; (s.grants m (LAU_NET_TS v) ts = true) ∧ (s.fld (LAU_CFG_SRC v) = 2) ∧ (s.lauOn v = true) ∧ ((s.lauSt v).netFresh = true) ∧ ((s.lauSt v).init = 1) ∧ ((s.lauSt v).tPrev = none) ∧ (s.reg (TIME_DOM_CYC (s.fld (LAU_CFG_DOM v))) = ts)) ∧
    (let v : Fin 2 := 1; let s : State := (rig.setFld (LAU_CFG_SRC 1) 2).setFlag (LAU_CTRL_EN 1) true; (s.runs 7 (.lau v) = true) ∧ (s.lauOn v = true) ∧ ((s.fld (LAU_CFG_SRC v) = 1 ∨ s.fld (LAU_CFG_SRC v) = 2)) ∧ (s.flag (LAU_STAT_SRCLOST v) = false) ∧ (s.flag (LAU_CFG_LOSSACT v) = false) ∧ (∀ k : Fin 21, (s.txnCh k).armed = none)) ∧
    (let v : Fin 2 := 1; let s : State := rig; (s.runs 7 (.lau v) = true) ∧ (s.shadOf (.lau v) = [])) ∧
    (let v : Fin 2 := 1; let s : State := rig.setShad (LAU_CPT_NUM 1) 0; (s.runs 7 (.lau v) = true) ∧ (s.lauAtBoundary v = true) ∧ (s.shad (LAU_CPT_NUM v) = some 0) ∧ (∀ k : Fin 21, (s.txnCh k).armed = none)) := by
  refine ⟨?_, ?_, ?_, ?_, ?_, ?_, ?_, ?_, ?_, ?_⟩ <;> decide +kernel

/-- The hypotheses of SlotCommands hold together. -/
theorem hyps_SlotCommands :
    (let m : Master := .core 0; let n : Fin 512 := 7; let v : Word := 5; let s : State := rig.setReg (ITIN_SLOT_TRIG_LO 7) 1000#32; (s.grants m (ITIN_SLOT_CTRL n) (v ||| 0x80000000#32) = true) ∧ (s.flag (ITIN_SLOT_CTRL_ARM n) = false) ∧ (s.isHeld .itin = false) ∧ ((bits v 30 28 = 0 ∧ bits v 23 21 = 0)) ∧ (s.regN (ITIN_SLOT_TRIG_LO n) ≤ 999999999) ∧ (0 ≤ s.timeAhead (bits v 27 26) (s.regN (ITIN_SLOT_TRIG_LO n)) (s.regN (ITIN_SLOT_TRIG_HI n))) ∧ (s.timeAhead (bits v 27 26) (s.regN (ITIN_SLOT_TRIG_LO n)) (s.regN (ITIN_SLOT_TRIG_HI n)) ≤ 2147483647)) ∧
    (let m : Master := .core 0; let n : Fin 512 := 7; let v : Word := 5; let s : State := rig.setFlag (ITIN_SLOT_CTRL_ARM 7) true; (s.grants m (ITIN_SLOT_CTRL n) (v ||| 0x80000000#32) = true) ∧ (s.flag (ITIN_SLOT_CTRL_ARM n) = true)) ∧
    (let m : Master := .core 0; let n : Fin 512 := 7; let v : Word := 5; let s : State := rig.setArmed 7 true; (s.grants m (ITIN_SLOT_CTRL n) (v &&& 0x7FFFFFFF#32) = true) ∧ (s.flag (ITIN_SLOT_CTRL_ARM n) = true)) ∧
    (let n : Fin 512 := 9; let s : State := rig.setFld (ITIN_SLOT_STAT_STATE 9) 1; (s.domOn 7 = true) ∧ (s.fld (ITIN_SLOT_STAT_STATE n) = 1) ∧ (s.slotReached n = true) ∧ (s.asleep = false) ∧ (s.isHeld .itin = false)) ∧
    (let s : State := rig; (s.domOn 7 = true) ∧ (s.itin.armed = [])) ∧
    (let s : State := rig; (s.domOn 7 = true) ∧ (s.itin.dueQ = [])) ∧
    (let n : Nat := 9; let t : Nat := 0; let s : State := let s := (rig.setArmed 9 true).setFld (ITIN_SLOT_STAT_STATE 9) 1; { s with itin := { s.itin with dueQ := [(0, 9)], slots := [(9, { SlotSt.reset with handed := true })] } }; (s.domOn 7 = true) ∧ (s.asleep = false) ∧ (s.isHeld .itin = false) ∧ (n < 512) ∧ (s.itin.dueQ = [(t, n)]) ∧ (s.fld (ITIN_SLOT_STAT_STATE n) = 1) ∧ (s.fld (ITIN_SLOT_CTRL_ACT n) = 0) ∧ (s.flag (ITIN_SLOT_CTRL_PER n) = false) ∧ ((s.slotSt n).handed = true) ∧ ((s.slotSt n).late = false)) ∧
    (let n : Nat := 9; let v : Nat := 1; let p : Nat × Nat := (16 * (4096 * 2 ^ 32) * 2 ^ 90 * 2 ^ 64, 2 * 2 ^ 180); let s : State := let s := ((((rig.setReg (LAU_MINSPD 1) 0#32).setArmed 9 true).setFld (ITIN_SLOT_STAT_STATE 9) 2).setFld (ITIN_SLOT_CTRL_TRIG 9) 1).setFld (ITIN_SLOT_CTRL_SRC 9) 1 |>.setFlag (LAU_CTRL_EN 1) true |>.setLau 1 { LauSt.reset with omega := 2 ^ 90 }; { s with itin := { s.itin with slots := [(9, { SlotSt.reset with tgt := 4096 })] } }; (s.domOn 7 = true) ∧ (s.asleep = false) ∧ (s.isHeld .itin = false) ∧ (s.cyc0.toNat % 32 = 0) ∧ (n < 512) ∧ (s.itin.armed = [n]) ∧ (s.fld (ITIN_SLOT_CTRL_TRIG n) = 1) ∧ (s.fld (ITIN_SLOT_STAT_STATE n) = 2) ∧ (s.fld (ITIN_SLOT_CTRL_DIR n) = 0) ∧ (s.fld (ITIN_SLOT_CTRL_SRC n) = v) ∧ (s.lauOn v = true) ∧ (s.flag (LAU_STAT_SRCLOST v) = false) ∧ (0 < s.tickAhead v (s.slotSt n).tgt) ∧ (s.slowLau v = false) ∧ (0 ≤ (s.lauSt v).omega) ∧ (predict8 (s.tickAhead v (s.slotSt n).tgt) (s.lauSt v).omega (s.lauSt v).alpha = some p)) ∧
    (let n : Nat := 9; let v : Nat := 1; let s : State := let s := (((rig.setArmed 9 true).setFld (ITIN_SLOT_STAT_STATE 9) 2).setFld (ITIN_SLOT_CTRL_TRIG 9) 1).setFld (ITIN_SLOT_CTRL_SRC 9) 1 |>.setFlag (LAU_CTRL_EN 1) true |>.setLau 1 { LauSt.reset with omega := -5 }; { s with itin := { s.itin with slots := [(9, { SlotSt.reset with tgt := 4096 })] } }; (s.domOn 7 = true) ∧ (s.asleep = false) ∧ (s.isHeld .itin = false) ∧ (s.cyc0.toNat % 32 = 0) ∧ (n < 512) ∧ (s.itin.armed = [n]) ∧ (s.fld (ITIN_SLOT_CTRL_TRIG n) = 1) ∧ (s.fld (ITIN_SLOT_STAT_STATE n) = 2) ∧ (s.fld (ITIN_SLOT_CTRL_DIR n) = 0) ∧ (s.fld (ITIN_SLOT_CTRL_SRC n) = v) ∧ (s.lauOn v = true) ∧ (s.flag (LAU_STAT_SRCLOST v) = false) ∧ (0 < s.tickAhead v (s.slotSt n).tgt) ∧ ((s.slowLau v = true ∨ (s.lauSt v).omega < 0))) ∧
    (let n : Nat := 9; let t : Nat := 0; let k : Nat := 2; let s : State := let s := (((((rig.setFlag (ITIN_SLOT_CTRL_PER 9) true).setReg (ITIN_SLOT_PER_LO 9) 100#32).setReg (TIME_DOM_CYC 0) 250#32).setArmed 9 true).setFld (ITIN_SLOT_STAT_STATE 9) 1).setFld (ITIN_SLOT_CTRL_ACT 9) 0; { s with itin := { s.itin with dueQ := [(0, 9)], slots := [(9, { SlotSt.reset with handed := true })] } }; (s.domOn 7 = true) ∧ (s.asleep = false) ∧ (s.isHeld .itin = false) ∧ (n < 512) ∧ (s.itin.dueQ = [(t, n)]) ∧ (s.fld (ITIN_SLOT_STAT_STATE n) = 1) ∧ ((s.slotSt n).late = false) ∧ (s.fld (ITIN_SLOT_CTRL_ACT n) = 0) ∧ ((s.slotSt n).handed = true) ∧ (s.flag (ITIN_SLOT_CTRL_PER n) = true) ∧ (s.fld (ITIN_SLOT_CTRL_TRIG n) = 0) ∧ (k = (if dist8 (s.due8 n + s.slotPer n) (s.slotNow8 n) < 0 then stepsAhead (dist8 (s.due8 n + s.slotPer n) (s.slotNow8 n)) (s.slotPer n) else 0))) ∧
    (let n : Nat := 9; let t : Nat := 0; let k : Nat := 3; let s : State := let s := ((((rig.setReg (ITIN_SLOT_ARG 9) 3#32).setReg (LAU_ANG_LO 1) 77#32).setArmed 9 true).setFld (ITIN_SLOT_STAT_STATE 9) 1).setFld (ITIN_SLOT_CTRL_ACT 9) 4; { s with itin := { s.itin with dueQ := [(0, 9)], slots := [(9, { SlotSt.reset with handed := true })] } }; (s.domOn 7 = true) ∧ (s.asleep = false) ∧ (s.isHeld .itin = false) ∧ (n < 512) ∧ (s.itin.dueQ = [(t, n)]) ∧ (s.fld (ITIN_SLOT_STAT_STATE n) = 1) ∧ ((s.slotSt n).late = false) ∧ (s.fld (ITIN_SLOT_CTRL_ACT n) = 4) ∧ (s.flag (ITIN_SLOT_CTRL_PER n) = false) ∧ (k = s.regN (ITIN_SLOT_ARG n) % 16)) ∧
    (let n : Nat := 9; let t : Nat := 0; let x : Item := (((rig.setFld (DISP_CAP_CAP 2 1) 4).setReg (ITIN_SLOT_ARG 9) 0x22000005#32).slotItem 9); let s : State := let s := ((((rig.setFld (DISP_CAP_CAP 2 1) 4).setReg (ITIN_SLOT_ARG 9) 0x22000005#32).setArmed 9 true).setFld (ITIN_SLOT_STAT_STATE 9) 1).setFld (ITIN_SLOT_CTRL_ACT 9) 2; { s with itin := { s.itin with dueQ := [(0, 9)], slots := [(9, { SlotSt.reset with handed := true })] } }; (s.domOn 7 = true) ∧ (s.asleep = false) ∧ (s.isHeld .itin = false) ∧ (n < 512) ∧ (s.itin.dueQ = [(t, n)]) ∧ (s.fld (ITIN_SLOT_STAT_STATE n) = 1) ∧ ((s.slotSt n).late = false) ∧ (s.fld (ITIN_SLOT_CTRL_ACT n) = 2) ∧ (s.flag (ITIN_SLOT_CTRL_PER n) = false) ∧ (s.itin.postQ = []) ∧ (x = s.slotItem n) ∧ (s.srcToken x.cluster 1 = false) ∧ (s.itemRoom x = true)) ∧
    (let n : Nat := 9; let t : Nat := 0; let s : State := let s := (((rig).setArmed 9 true).setFld (ITIN_SLOT_STAT_STATE 9) 1).setFld (ITIN_SLOT_CTRL_ACT 9) 3; { s with itin := { s.itin with dueQ := [(0, 9)], slots := [(9, { SlotSt.reset with handed := true })] } }; (s.domOn 7 = true) ∧ (s.asleep = false) ∧ (s.isHeld .itin = false) ∧ (n < 512) ∧ (s.itin.dueQ = [(t, n)]) ∧ (s.fld (ITIN_SLOT_STAT_STATE n) = 1) ∧ ((s.slotSt n).late = false) ∧ (s.fld (ITIN_SLOT_CTRL_ACT n) = 3)) ∧
    (let n : Nat := 9; let t : Nat := 0; let s : State := let s := (((rig.setReg (ITIN_SLOT_ARG 9) 1#32).setArmed 9 true).setFld (ITIN_SLOT_STAT_STATE 9) 1).setFld (ITIN_SLOT_CTRL_ACT 9) 7; { s with itin := { s.itin with dueQ := [(0, 9)], slots := [(9, { SlotSt.reset with handed := true })] } }; (s.domOn 7 = true) ∧ (s.asleep = false) ∧ (s.isHeld .itin = false) ∧ (n < 512) ∧ (s.itin.dueQ = [(t, n)]) ∧ (s.fld (ITIN_SLOT_STAT_STATE n) = 1) ∧ ((s.slotSt n).late = false) ∧ (s.fld (ITIN_SLOT_CTRL_ACT n) = 7) ∧ (s.regN (ITIN_SLOT_ARG n) = 1)) ∧
    (let s : State := rig; (s.domOn 7 = true) ∧ (s.itin.postQ = []) ∧ (∀ e ∈ s.itin.dueQ, s.fld (ITIN_SLOT_STAT_STATE e.2) ≠ 6)) ∧
    (let x : Item := ⟨0, 2, 1, 1, 5, false, 0, 0, 3, 0⟩; let n : Nat := 3; let s : State := let s := rig.setFld (DISP_CAP_CAP 2 1) 4; { s with itin := { s.itin with postQ := [(3, ⟨0, 2, 1, 1, 5, false, 0, 0, 3, 0⟩)] } }; (s.domOn 7 = true) ∧ (s.itin.postQ = [(n, x)]) ∧ (s.itemRoom x = true) ∧ ((s.itin.dueQ = [] ∧ s.asleep = false ∧ s.isHeld .itin = false))) ∧
    (let m : Master := .host; let n : Fin 512 := 511; let s : State := rig.setFld (ITIN_SLOT_STAT_MISS 511) 9; (s.grantsF m (ITIN_SLOT_STAT_MISSCLR n) 1 = true)) ∧
    (let n : Fin 512 := 4; let s : State := ((rig.setFld (ITIN_SLOT_STAT_STATE 4) 1).setFlag (EDGE_EP_CTRL_EN 0) true).setReg (ITIN_SLOT_DUE 4) 16#32; (s.domOn 7 = true) ∧ (s.asleep = false) ∧ (s.isHeld .itin = false) ∧ (s.isHeld .edge = false) ∧ (s.fld (ITIN_SLOT_CTRL_ACT n) = 0) ∧ (s.fld (ITIN_SLOT_STAT_STATE n) = 1) ∧ (s.slotSt n = SlotSt.reset) ∧ (s.fld (ITIN_SLOT_CTRL_TRIG n) = 0) ∧ (s.fld (ITIN_SLOT_CTRL_SRC n) = 0) ∧ (bits (s.reg (ITIN_SLOT_ARG n)) 5 4 = 0) ∧ (s.flag (EDGE_EP_CTRL_EN (bits (s.reg (ITIN_SLOT_ARG n)) 3 0)) = true) ∧ (s.edgeSt (bits (s.reg (ITIN_SLOT_ARG n)) 3 0) = EdgeSt.reset) ∧ (s.due8 n = (s.now8 + 128) % 2 ^ 35)) ∧
    (let n : Fin 16 := 4; let t : Nat := 0; let s : State := { rig with edge := [(4, { pend := [(0, 0)], last := none })] }; (s.runs 7 .edge = true) ∧ ((s.edgeSt n).pend = [(t, 0)]) ∧ (dist8 t (s.now8 + 7) ≤ 0) ∧ (t < 2 ^ 35) ∧ (s.flag (EDGE_EP_STAT_LEVEL n) = false)) := by
  refine ⟨?_, ?_, ?_, ?_, ?_, ?_, ?_, ?_, ?_, ?_, ?_, ?_, ?_, ?_, ?_, ?_, ?_, ?_, ?_⟩ <;> decide +kernel

/-- The hypotheses of MacLinkCommands hold together. -/
theorem hyps_MacLinkCommands :
    (let m : Master := .core 0; let p : Fin 12 := 3; let v : Word := 0x701#32; let s : State := rig.setFlag (MAC_STAT_ASPDLOW 3) true; (s.grants m (MAC_MODE p) v = true) ∧ (s.flag (MAC_STAT_LINK p) = false)) ∧
    (let m : Master := .core 0; let p : Fin 12 := 3; let s : State := (rig.setFlag (MAC_STAT_LINK 3) true).setFld (MAC_MODE_SEL 3) 1; (s.grantsF m (MAC_CTRL_ANRESTART p) 1 = true) ∧ (s.noIso = true) ∧ ((s.autonegs p = true ∧ s.wireIdle p = true)) ∧ (s.flag (SWX_PORTCFG_FLUSHDOWN p) = false)) ∧
    (let m : Master := .core 0; let p : Fin 12 := 3; let s : State := (rig.setFlag (MAC_STAT_LINK 3) true).setFld (MAC_MODE_SEL 3) 2; (s.grantsF m (MAC_CTRL_ANRESTART p) 1 = true) ∧ (s.noIso = true) ∧ (s.autonegs p = false)) ∧
    (let m : Master := .core 0; let p : Fin 12 := 3; let s : State := (rig.setReg (macCnt 3 7) 9#32).setFlag (MAC_CTRL_TXEN 3) true; (s.grantsF m (MAC_CTRL_CNTCLR p) 1 = true) ∧ (s.noIso = true)) ∧
    (let m : Master := .core 0; let p : Fin 12 := 10; let s : State := rig.setFld BUF_FREE_CELLS 5000; (s.grantsF m (MAC_CTRL_RXEN p) 1 = true) ∧ (s.noIso = true) ∧ (s.flag (MAC_CTRL_RXEN p) = false) ∧ (s.flag (MAC_FCCFG_GEN p) = false) ∧ ((if p.val ≤ 9 then 64 else 128) + s.protFree ≤ s.fld BUF_FREE_CELLS)) ∧
    (let p : Fin 12 := 1; let s : State := rig; (s.domOn 7 = true) ∧ (s.flag (MAC_STAT_LINK p) = false)) ∧
    (let p : Fin 12 := 1; let s : State := (rig.setFlag (MAC_STAT_LINK 1) true).setFlag (MAC_STAT_LPITX 1) true; (s.domOn 7 = true) ∧ (s.flag (MAC_STAT_LINK p) = true) ∧ (s.wireIdle p = true) ∧ (s.flag (SWX_PORTCFG_FLUSHDOWN p) = false) ∧ (s.fw.running = false)) ∧
    (let p : Fin 12 := 1; let lp : Word := 0; let v : Fin 8 := 0; let ms : Bool := false; let s : State := rig.setFld (MAC_MODE_SEL 1) 2; (s.runs 7 (.mac p) = true) ∧ (s.fld (MAC_MODE_SEL p) = 2) ∧ (s.flag (MAC_STAT_BADMODE p) = false) ∧ (s.flag (MAC_STAT_LINK p) = false) ∧ (∀ c : Fin 8, (s.qSt p c).q = []) ∧ (s.fw.running = false)) ∧
    (let p : Fin 12 := 1; let s : State := (((rig.setFlag (MAC_STAT_LINK 1) true).setFld (MAC_STAT_SPEED 1) 2).setFlag (MAC_ASPD_EN 1) true).setFld (MAC_ASPD_THR_LOTHR 1) 5; (s.runs 7 (.mac p) = true) ∧ (s.aspdOn p = true) ∧ (s.flag (MAC_STAT_LINK p) = true) ∧ (s.fld (MAC_STAT_SPEED p) = 2) ∧ (s.dwellOver p = true) ∧ (s.occupancy p < s.fld (MAC_ASPD_THR_LOTHR p)) ∧ (s.macUsed p < s.fld (MAC_ASPD_THR_LOTHR p)) ∧ (s.wireIdle p = true) ∧ (s.flag (SWX_PORTCFG_FLUSHDOWN p) = false)) ∧
    (let p : Fin 12 := 1; let s : State := (((rig.setFlag (MAC_STAT_LINK 1) true).setFlag (MAC_STAT_ASPDLOW 1) true).setFld (SWX_QSTAT_CELLS 1 3) 100).setFld (MAC_ASPD_THR_HITHR 1) 5; (s.runs 7 (.mac p) = true) ∧ (s.flag (MAC_STAT_ASPDLOW p) = true) ∧ (s.dwellOver p = true) ∧ (s.fld (MAC_ASPD_THR_HITHR p) < s.occupancy p) ∧ (s.wireIdle p = true) ∧ (s.flag (SWX_PORTCFG_FLUSHDOWN p) = false)) ∧
    (let p : Fin 12 := 1; let s : State := rig.setFlag (MAC_STAT_ASPDLOW 1) true; (s.runs 7 (.mac p) = true) ∧ (s.flag (MAC_STAT_ASPDLOW p) = true) ∧ (s.flag (MAC_STAT_LINK p) = false)) ∧
    (let p : Fin 12 := 1; let s : State := ((((rig.setFlag (MAC_STAT_LINK 1) true).setFlag (MAC_EEE_EN 1) true).setFld (MAC_STAT_SPEED 1) 1).setFlag (MAC_EEE_ADV100 1) true).setFld (MAC_ANLP_EEE 1) 1; (s.runs 7 (.mac p) = true) ∧ (s.eeeOn p = true) ∧ (s.flag (MAC_STAT_LINK p) = true) ∧ (s.flag (MAC_STAT_LPITX p) = false) ∧ ((s.outSt p).tx = none) ∧ ((s.fld (MAC_STAT_SPEED p) = 1 ∧ s.flag (MAC_EEE_ADV100 p) = true ∧ (s.fld (MAC_ANLP_EEE p)).testBit 0 = true))) ∧
    (let p : Fin 12 := 1; let s : State := (rig.setFlag (MAC_STAT_LINK 1) true).setFlag (MAC_EEE_EN 1) true; (s.runs 7 (.mac p) = true) ∧ (s.eeeOn p = true) ∧ (s.flag (MAC_STAT_LINK p) = true) ∧ (s.flag (MAC_STAT_LPIRX p) = false)) ∧
    (let p : Fin 12 := 1; let s : State := (rig.setFlag (MAC_STAT_LINK 1) true).setFld (MAC_PREEMPT_STAT_VSTATE 1) 1; (s.runs 7 (.mac p) = true) ∧ (s.flag (MAC_STAT_LINK p) = true) ∧ ((s.fld (MAC_PREEMPT_STAT_VSTATE p) = 1 ∨ s.fld (MAC_PREEMPT_STAT_VSTATE p) = 2))) ∧
    (let p : Fin 12 := 1; let s : State := rig.setFld (MAC_PREEMPT_STAT_VSTATE 1) 2; (s.runs 7 (.mac p) = true) ∧ (s.fld (MAC_PREEMPT_STAT_VSTATE p) = 2)) := by
  refine ⟨?_, ?_, ?_, ?_, ?_, ?_, ?_, ?_, ?_, ?_, ?_, ?_, ?_, ?_, ?_⟩ <;> decide +kernel

/-- The hypotheses of FrameCommands hold together. -/
theorem hyps_FrameCommands :
    (let p : Fin 12 := 1; let e8 : Fin 8 := 0; let frag : Bool := false; let b : List Byte := []; let s : State := (rig.setFlag (MAC_STAT_LINK 1) true).setFlag (MAC_CTRL_RXEN 1) true; (s.runs 7 (.mac p) = true) ∧ (s.flag (MAC_CTRL_RXEN p) = true) ∧ (s.flag (MAC_STAT_LINK p) = true)) ∧
    (let p : Fin 12 := 1; let e8 : Fin 8 := 0; let frag : Bool := true; let b : List Byte := withFcs [1, 2, 3]; let s : State := (rig.setFlag (MAC_STAT_LINK 1) true).setFlag (MAC_CTRL_RXEN 1) true; (s.runs 7 (.mac p) = true) ∧ (s.flag (MAC_CTRL_RXEN p) = true) ∧ (s.flag (MAC_STAT_LINK p) = true) ∧ (s.rxOf (rxKey p frag) = none) ∧ (b.length < 64) ∧ (fcsGood b = true)) ∧
    (let p : Fin 12 := 1; let e8 : Fin 8 := 0; let frag : Bool := false; let b : List Byte := rxFrame; let n : Nat := 0; let g : Ingr := ((rxPort.macTake 1 0 false rxFrame).rxOf 1).getD (rig.ingrNew 0 0 0); let t : State := rxPort.macTake 1 0 false rxFrame; let s : State := rxPort; (s.runs 7 (.mac p) = true) ∧ (s.flag (MAC_CTRL_RXEN p) = true) ∧ (s.flag (MAC_STAT_LINK p) = true) ∧ (t = s.macTake p e8 frag b) ∧ ((t.rxOf (rxKey p frag) = some g ∧ g.port = p.val)) ∧ (t.macCheck p g false false = none)) ∧
    (let p : Fin 12 := 1; let e8 : Fin 8 := 0; let frag : Bool := false; let b : List Byte := rxFrame.take 70 ++ [1, 2, 3, 4]; let g : Ingr := ((rxPort.macTake 1 0 false (rxFrame.take 70 ++ [1, 2, 3, 4])).rxOf 1).getD (rig.ingrNew 0 0 0); let c : Nat := 15; let t : State := rxPort.macTake 1 0 false (rxFrame.take 70 ++ [1, 2, 3, 4]); let s : State := rxPort; (s.runs 7 (.mac p) = true) ∧ (s.flag (MAC_CTRL_RXEN p) = true) ∧ (s.flag (MAC_STAT_LINK p) = true) ∧ (t = s.macTake p e8 frag b) ∧ ((t.rxOf (rxKey p frag) = some g ∧ g.port = p.val)) ∧ (c = (if g.data.length < 64 then (if fcsGood g.data then 16 else 17) else if g.filt then 22
  else if t.fld (MAC_MAXLEN_MAXLEN p) < g.data.length then (if fcsGood g.data then 18 else 19) else if fcsGood g.data then 21 else 15)) ∧ (c ≠ 21 ∨ g.nobuf = true)) ∧
    (let p : Fin 12 := 1; let q : BitVec 16 := 700; let s : State := (((rig.setFlag (MAC_STAT_LINK 1) true).setFlag (MAC_CTRL_RXEN 1) true).setFld (MAC_FCCFG_MODE 1) 1).setFlag (MAC_FCCFG_RXEN 1) true; (s.runs 7 (.mac p) = true) ∧ (s.flag (MAC_CTRL_RXEN p) = true) ∧ (s.flag (MAC_STAT_LINK p) = true) ∧ (s.fld (MAC_FCCFG_MODE p) = 1) ∧ (s.flag (MAC_FCCFG_RXEN p) = true)) ∧
    (let p : Fin 12 := 1; let vec : BitVec 16 := 5; let qs : List (BitVec 16) := [3, 0, 0, 0, 0, 0, 0, 0]; let s : State := (((rig.setFlag (MAC_STAT_LINK 1) true).setFlag (MAC_CTRL_RXEN 1) true).setFld (MAC_FCCFG_MODE 1) 2).setFlag (MAC_FCCFG_RXEN 1) true; (s.runs 7 (.mac p) = true) ∧ (s.flag (MAC_CTRL_RXEN p) = true) ∧ (s.flag (MAC_STAT_LINK p) = true) ∧ (s.fld (MAC_FCCFG_MODE p) = 2) ∧ (s.flag (MAC_FCCFG_RXEN p) = true) ∧ (qs.length = 8)) ∧
    (let p : Fin 12 := 1; let k : Fin 9 := 8; let s : State := rig.setFlag (MAC_STAT_RXPAUSED 1) true; (s.runs 7 (.mac p) = true)) ∧
    (let p : Fin 12 := 1; let s : State := (((((rig.setFlag (MAC_FCCFG_GEN 1) true).setFlag (MAC_FCSTAT_XOFFSENT 1) true).setFld (MAC_FCTHR_XON 1) 0).setFld (MAC_FCTHR_XOFF 1) 9).setFlag (MAC_STAT_LINK 1) true).setFlag (MAC_CTRL_TXEN 1) true; (s.runs 7 (.mac p) = true) ∧ (s.flag (MAC_FCCFG_GEN p) = true) ∧ (s.flag (MAC_FCSTAT_XOFFSENT p) = true) ∧ (s.fld (MAC_FCTHR_XON p) < s.fld (MAC_FCTHR_XOFF p)) ∧ (s.fld (MAC_FCTHR_XON p) ≤ s.macUsed p) ∧ (s.sendsFc p = true)) ∧
    (let m : Master := .thread 2 1; let p : Fin 12 := 1; let v : Word := 0x1234FFFF#32; let s : State := ((rig.setReg (ENG_PERMW 2) 0xFFFFFFFF#32).setFlag (MAC_STAT_LINK 1) true).setFlag (MAC_CTRL_TXEN 1) true; (s.grants m (MAC_FCTX p) v = true) ∧ (s.sendsFc p = true)) ∧
    (let m : Master := .core 0; let p : Fin 12 := 1; let v : Word := 0x1234FFFF#32; let s : State := ((rig.setFlag (MAC_STAT_LINK 1) true).setFlag (MAC_CTRL_TXEN 1) true).setOut 1 { OutSt.reset with tx := some ⟨aCopy, 0, false, 0, []⟩ }; (s.grants m (MAC_FCTX p) v = true) ∧ ((s.flag (MAC_STAT_LINK p) = true ∧ s.flag (MAC_CTRL_TXEN p) = true ∧ (s.outSt p).tx.isSome = true))) ∧
    (let m : Master := .host; let p : Fin 12 := 1; let h : Nat := 77; let sec : Nat := 3; let ns : Nat := 4; let t : List (Nat × Nat × Nat) := []; let s : State := { rig with mac := [(1, { MacSt.reset with tsf := [(77, 3, 4)] })] }; (s.reads m (MAC_TSF_HDR p) = true) ∧ ((s.macSt p).tsf = (h, sec, ns) :: t) ∧ (h < 2 ^ 26) ∧ (t.length < 16)) ∧
    (let p : Fin 12 := 1; let c : Fin 8 := 5; let x : Copy := aCopy; let l : List Copy := [aCopy]; let s : State := let s := ((rig.setFlag (MAC_STAT_LINK 1) true).setFlag (MAC_CTRL_TXEN 1) true).setFld (MAC_FCSTAT_CLASS 1) 0x80; (s.setQ 1 5 { QSt.reset with q := [aCopy, aCopy] }).setQ 1 7 { QSt.reset with q := [aCopy] }; (s.domOn 7 = true) ∧ (s.outReady p = true) ∧ ((s.outSt p).tx = none) ∧ ((s.outSt p).pre = none) ∧ ((s.qSt p c).q = x :: l) ∧ (∀ d : Fin 8, c < d → (s.qSt p d).q = [] ∨ s.classOpen p d = false) ∧ (s.fld (SWX_PORTCFG_CBSEN p) = 0) ∧ ((s.gclOn p = false ∧ s.flag (SWX_GCLSTAT_HOLD p) = false)) ∧ ((s.fld (MAC_FCSTAT_CLASS p)).testBit c = false) ∧ (s.copyAged p x = false) ∧ ((x.ltMode = 0 ∧ x.held = false)) ∧ (s.flag (MAC_STAT_LPITX p) = false)) ∧
    (let p : Fin 12 := 1; let s : State := let s := ((rig.setFlag (MAC_STAT_LINK 1) true).setFlag (MAC_CTRL_TXEN 1) true).setFld (MAC_FCSTAT_CLASS 1) 0x80; s.setQ 1 7 { QSt.reset with q := [aCopy] }; (s.domOn 7 = true) ∧ (s.outUp p = true) ∧ ((s.outSt p).tx = none) ∧ ((s.outSt p).pre = none) ∧ (s.fld (SWX_PORTCFG_CBSEN p) = 0) ∧ (∀ d : Fin 8, (s.qSt p d).q = [] ∨ s.classOpen p d = false)) ∧
    (let p : Fin 32 := 1; let c : Fin 8 := 7; let x : Copy := { aCopy with ltMode := 1 }; let t : List Copy := []; let s : State := rig.setQ 1 7 { QSt.reset with q := [{ aCopy with ltMode := 1 }] }; (s.domOn 7 = true) ∧ ((s.qSt p c).q = x :: t) ∧ (((x.ltMode = 1 ∨ x.ltMode = 2) ∧ 0 ≤ s.launchPast p x))) ∧
    (let p : Fin 12 := 1; let e8 : Fin 8 := 0; let t : Tx := ⟨aCopy, 0, false, 0, []⟩; let f : Machine.Frm := ⟨List.replicate 64 7, true, false, 1, 1, [], 0⟩; let s : State := (rig.setOut 1 { OutSt.reset with tx := some ⟨aCopy, 0, false, 0, []⟩ }).setFrm 0 (some ⟨List.replicate 64 7, true, false, 1, 1, [], 0⟩); (s.domOn 7 = true) ∧ ((s.outSt p).tx = some t) ∧ (s.frm t.copy.frm = some f) ∧ (f.ended = true) ∧ (s.macPtp p (s.shape p t.copy f.data) = none) ∧ ((s.macSt p).fcq = [])) := by
  refine ⟨?_, ?_, ?_, ?_, ?_, ?_, ?_, ?_, ?_, ?_, ?_, ?_, ?_, ?_, ?_⟩ <;> first | decide +kernel | exact ⟨by decide +kernel, by decide +kernel, by decide +kernel, rfl, ⟨eq_some_getD _ _ (by decide +kernel), by decide +kernel⟩, by decide +kernel⟩ | exact ⟨by decide +kernel, by decide +kernel, by decide +kernel, rfl, ⟨eq_some_getD _ _ (by decide +kernel), by decide +kernel⟩, by decide +kernel, by decide +kernel⟩

/-- The hypotheses of SwitchCommands hold together. -/
theorem hyps_SwitchCommands :
    (let m : Master := .host; let v : Word := 200; let s : State := rig.setFld BUF_FREE_CELLS 262144; (s.grants m BUF_SWCELLS v = true) ∧ ((s.mode = modeBOOT ∨ s.mode = modePREOP)) ∧ (∀ p : Fin 12, s.flag (MAC_CTRL_RXEN p) = false) ∧ (∀ p : Fin 32, ∀ c : Fin 8, (s.qSt p c).q = []) ∧ (s.domOn 11 = true) ∧ (s.fld BUF_FREE_CELLS + 1024 * s.fld BUF_SWCELLS_UNITS ≤ 262144) ∧ (1024 * min (bits v 7 0) 192 ≤ s.fld BUF_FREE_CELLS + 1024 * s.fld BUF_SWCELLS_UNITS)) ∧
    (let m : Master := .host; let v : Word := 200; let p : Fin 12 := 2; let s : State := rig.setFlag (MAC_CTRL_RXEN 2) true; (s.grants m BUF_SWCELLS v = true) ∧ (s.flag (MAC_CTRL_RXEN p) = true)) ∧
    (let p : Fin 32 := 13; let n : Nat := 32; let s : State := (rig.setFld BUF_FREE_CELLS 262144).setWaiting 13 (0, 32); (s.domOn 7 = true) ∧ (12 ≤ p.val) ∧ (s.waiting p = (0, n)) ∧ (∀ k : Fin 32, k ≠ p → s.waiting k = (0, 0)) ∧ (0 < n) ∧ (n + s.protFree ≤ s.fld BUF_FREE_CELLS)) ∧
    (let p : Fin 12 := 2; let s : State := ((rig.setFlag (SWX_GCLCFG_EN 2) true).setFld (SWX_GCLCFG_LEN 2) 4).setOut 2 { OutSt.reset with gOn := true }; (s.domOn 7 = true) ∧ (s.gclOn p = true) ∧ ((s.outSt p).gEnd = false) ∧ (s.fld (SWX_GCLSTAT_ENTRY p) + 1 < min 256 (s.fld (SWX_GCLCFG_LEN p))) ∧ (s.fld (SWX_GCL_CTL_OP p (s.fld (SWX_GCLSTAT_ENTRY p) + 1)) = 0)) ∧
    (let f : Fin 256 := 200; let h : Nat := 3; let s : State := ((rig.setFlag (SWX_FC_CFG_VALID 200) true).setFld (SWX_FC_CFG_CB 200) 1).setFcSt 200 { FcSt.reset with hist := some 3 }; (s.domOn 7 = true) ∧ (s.flag (SWX_FC_CFG_VALID f) = true) ∧ (s.fld (SWX_FC_CFG_CB f) = 1) ∧ ((s.fcSt f).hist = some h)) ∧
    (let s : State := { rig.setReg (TIME_DOM_SEC_LO 0) 900#32 with swx := { SwxSt.reset with fdb := [⟨1, [], 2, false, 100⟩, ⟨1, [], 2, true, 100⟩] } }; (s.domOn 7 = true) ∧ (s.fld SWX_FDBCFG_AGE ≠ 0)) ∧
    (let m : Master := .host; let p : Fin 32 := 30; let s : State := rig.setReg (SWX_CNT 30 2) 9#32; (s.grantsF m (SWX_PORTCFG_CNTCLR p) 1 = true) ∧ (s.noTxn = true)) ∧
    (let s : State := rig; (s.domOn 7 = true) ∧ ((s.cyc0.toNat % 1024 ≠ 0 ∨ s.shadOf .switch = []))) ∧
    (let r : Nat := 1; let a : Nat := SWX_QTHR 0 0; let s : State := rig.setShad (SWX_QTHR 0 0) 0xFFFFFFFF#32 |> fun s => (List.range 8).foldl (fun s c => s.setShad (SWX_QTHR 1 c) 0xFFFFFFFF#32) s; (s.domOn 7 = true) ∧ (s.cyc0.toNat % 1024 = 0) ∧ (s.shadOf .switch ≠ []) ∧ (s.noTxn = true) ∧ (swxBad s (fun a => s.candFor [.switch] [] a) = some (r, a))) ∧
    (let s : State := rig.setShad (SWX_QTHR 0 0) 5; (s.domOn 7 = true) ∧ (s.cyc0.toNat % 1024 = 0) ∧ (s.shadOf .switch ≠ []) ∧ (s.noTxn = true) ∧ (swxBad s (fun a => s.candFor [.switch] [] a) = none)) := by
  refine ⟨?_, ?_, ?_, ?_, ?_, ?_, ?_, ?_, ?_, ?_⟩ <;> decide +kernel

/-- The hypotheses of EngineControl hold together. -/
theorem hyps_EngineControl :
    (let m : Master := .host; let n : Fin 16 := 3; let v : Word := 0xDEADBEEF#32; let s : State := rig.setReg (ENG_MEMADDR 3) 0x40000100#32; (s.grants m (ENG_MEMDATA n) v = true) ∧ ((s.flag (ENG_CTRL_RUN n) = false ∨ s.fld (ENG_MEMADDR_SPACE n) = 1)) ∧ (((s.engSt n).word (s.fld (ENG_MEMADDR_SPACE n)) (s.fld (ENG_MEMADDR_ADDR n))).isSome = true)) ∧
    (let m : Master := .host; let n : Fin 16 := 3; let v : Word := 1; let s : State := rig.setFlag (ENG_CTRL_RUN 3) true; (s.grants m (ENG_MEMDATA n) v = true) ∧ (s.flag (ENG_CTRL_RUN n) = true) ∧ (s.fld (ENG_MEMADDR_SPACE n) ≠ 1)) ∧
    (let m : Master := .jtag; let n : Fin 16 := 3; let s : State := { rig with eng := [(3, { EngSt.reset with imem := [(0, 7#32)] })] }; (s.reads m (ENG_MEMDATA n) = true)) ∧
    (let m : Master := .core 0; let n : Fin 16 := 3; let v : Word := 0xF5#32; let s : State := rig; (s.grants m (ENG_CTRL n) v = true) ∧ ((v.getLsbD 0 = true ∧ v.getLsbD 1 = false ∧ v.getLsbD 2 = true)) ∧ (s.flag (ENG_CTRL_RUN n) = false) ∧ (s.flag (ENG_CTRL_RST n) = false) ∧ (((s.thr n 0).run = false ∧ (s.thr n 0).dead = false))) ∧
    (let m : Master := .core 0; let n : Fin 16 := 3; let v : Word := 0xF0#32; let s : State := rig.setFlag (ENG_CTRL_RUN 3) true; (s.grants m (ENG_CTRL n) v = true) ∧ ((v.getLsbD 0 = false ∧ v.getLsbD 1 = false)) ∧ (s.flag (ENG_CTRL_RST n) = false)) ∧
    (let m : Master := .core 0; let n : Fin 16 := 3; let s : State := rig.setThr 3 1 { Thr.reset with run := true, pc := 9 }; (s.grantsF m (ENG_CTRL_RST n) 1 = true) ∧ (s.flag (ENG_CTRL_RST n) = false) ∧ (∀ t : Fin 4, (s.thr n t).win = none ∧ s.rxOf (100 + 4 * n + t) = none)) ∧
    (let m : Master := .core 0; let n : Fin 16 := 3; let s : State := rig.setFlag (ENG_CTRL_RST 3) true; (s.grantsF m (ENG_CTRL_RST n) 0 = true) ∧ (s.flag (ENG_CTRL_RST n) = true) ∧ (s.flag (ENG_CTRL_RUN n) = false)) := by
  refine ⟨?_, ?_, ?_, ?_, ?_, ?_, ?_⟩ <;> decide +kernel

/-- The hypotheses of DispatcherCommands hold together. -/
theorem hyps_DispatcherCommands :
    (let n : Fin 16 := 2; let x : Copy := aCopy; let s : State := (rig.setFld (DISP_CAP_CAP 2 0) 4).setQ 14 7 { QSt.reset with q := [aCopy] }; (s.domOn 7 = true) ∧ (s.engOff n = false) ∧ ((s.sentTo (12 + n)).length < 64) ∧ (s.itemRoom (s.srcItem n 0 0 0 true) = true) ∧ ((s.qSt (12 + n) 7).q = [x]) ∧ (s.copyAged (12 + n) x = false) ∧ ((x.held = false ∧ x.ltMode = 0)) ∧ ((s.sentTo (12 + n)).all (fun y => y.frm != x.frm) = true) ∧ (x.uses = false)) ∧
    (let n : Fin 16 := 2; let x : Copy := { aCopy with uses := true }; let s : State := ((rig.setFld (DISP_CAP_CAP 2 0) 4).setFld BUF_DESC_FREE 9).setQ 14 7 { QSt.reset with q := [{ aCopy with uses := true }] }; (s.domOn 7 = true) ∧ (s.engOff n = false) ∧ (s.sentTo (12 + n) = []) ∧ (s.itemRoom (s.srcItem n 0 0 0 true) = true) ∧ ((s.qSt (12 + n) 7).q = [x]) ∧ (s.copyAged (12 + n) x = false) ∧ ((x.held = false ∧ x.ltMode = 0)) ∧ (x.uses = true) ∧ (((s.frm x.frm).map (fun f => f.ended)).getD true = true) ∧ (s.fld BUF_DESC_FREE < 65536)) ∧
    (let k : Fin 16 := 4; let e : Fin 16 := 5; let h : Fin 4 := 2; let l : Fin 8 := 6; let j : Nat := 1; let x : Item := ⟨0, 5, 6, 1, 99, false, 0, 0, 3, 0⟩; let s : State := (((((rig.setReg DISP_CLCFG 4#32).setFlag (ENG_CTRL_RUN 5) true).setFld (ENG_CTRL_THEN 5) 4)).setLevel 4 6 [⟨0, 4, 6, 1, 99, true, 7, 0, 3, 0⟩, ⟨0, 5, 6, 1, 99, false, 0, 0, 3, 0⟩, ⟨0, 5, 6, 2, 9, false, 0, 0, 3, 0⟩]).setLevel 4 7 [⟨0, 4, 7, 1, 99, true, 7, 0, 3, 0⟩]; (s.domOn 7 = true) ∧ (s.clusterOf e = k) ∧ ((s.level k l)[j]? = some x) ∧ (s.eligible e h x = true) ∧ (∀ i : Fin 64, i.val < 4 * e.val + h.val → s.clusterOf (i.val / 4) = k → ∀ q : Fin 8, ∀ y ∈ s.level k q, s.eligible (i.val / 4) (i.val % 4) y = false) ∧ (∀ q : Fin 8, l < q → ∀ y ∈ s.level k q, s.eligible e h y = false) ∧ (∀ y ∈ (s.level k l).take j, s.eligible e h y = false) ∧ ((x.kind ≠ 0 ∧ x.kind ≤ 7))) ∧
    (let k : Fin 16 := 5; let s : State := rig.setLevel 5 7 [⟨0, 5, 7, 1, 99, false, 0, 0, 3, 0⟩]; (s.domOn 7 = true) ∧ (∀ i : Fin 64, s.clusterOf (i.val / 4) = k → ∀ q : Fin 8, ∀ y ∈ s.level k q, s.eligible (i.val / 4) (i.val % 4) y = false)) ∧
    (let kind : Fin 8 := 3; let i : Fin 4608 := 9; let x : Item := ⟨0, 2, 1, 3, 5, false, 0, 0, 3, 0⟩; let s : State := (rig.setFld (DISP_CAP_CAP 2 1) 4).setHeld 3 9 (some ⟨0, 2, 1, 3, 5, false, 0, 0, 3, 0⟩); (s.domOn 7 = true) ∧ ((kind.val = 3 ∨ kind.val = 4)) ∧ (s.heldPost kind i = some x) ∧ (s.itemRoom x = true)) ∧
    (let i : Fin 16 := 4; let s : State := (rig.setFlag (DISP_TMR_CFG_EN 4) true).setFld (DISP_CAP_CAP 0 0) 4; (s.domOn 7 = true) ∧ (s.flag (DISP_TMR_CFG_EN i) = true) ∧ (s.srcToken (s.fld (DISP_TMR_CFG_CLUSTER i)) 4 = false) ∧ (s.heldPost 4 i = none) ∧ (s.itemRoom (s.srcItem (s.fld (DISP_TMR_CFG_CLUSTER i)) 4 (s.fld (DISP_TMR_CFG_ARG i)) i false) = true)) ∧
    (let i : Fin 16 := 4; let s : State := (rig.setFlag (DISP_TMR_CFG_EN 4) true).setFld (DISP_CAP_CAP 0 0) 0; (s.domOn 7 = true) ∧ (s.flag (DISP_TMR_CFG_EN i) = true) ∧ (s.srcToken (s.fld (DISP_TMR_CFG_CLUSTER i)) 4 = false) ∧ (s.heldPost 4 i = none) ∧ (s.itemRoom (s.srcItem (s.fld (DISP_TMR_CFG_CLUSTER i)) 4 (s.fld (DISP_TMR_CFG_ARG i)) i false) = false)) ∧
    (let m : Master := .core 1; let v : Word := 0; let w0 : Word := 0x02010005#32; let w1 : Word := 0; let w2 : Word := 0; let s : State := { rig.setFld (DISP_CAP_CAP 2 1) 4 with disp := { DispSt.reset with sw := [(12, 0x02010005#32)] } }; (s.grants m (DISP_SWPOST 3) v = true) ∧ (storeGet (fun _ => 0) s.disp.sw (4 * masterNo m) = w0) ∧ (storeGet (fun _ => 0) s.disp.sw (4 * masterNo m + 1) = w1) ∧ (storeGet (fun _ => 0) s.disp.sw (4 * masterNo m + 2) = w2) ∧ (s.itemRoom (itemOf 7 w0 w1 w2) = true)) ∧
    (let k : Fin 16 := 0; let n : Fin 512 := 7; let s : State := (((rig.setReg DISP_CLCFG 0x130F#32).setReg (DISP_NODE_W0 7) 0x220005#32).setReg (DISP_TOK 7) 0x21#32).setFld (DISP_CAP_CAP 0 0) 3; (s.domOn 7 = true) ∧ (s.isGraph k = true) ∧ (s.clusterOf (s.fld (DISP_NODE_W0_CLUSTER n)) = k) ∧ (s.nodeReady n = true) ∧ (∀ j : Fin 512, j ≠ n → s.nodeValid j = false) ∧ (s.itemRoom (s.nodeItem n) = true)) ∧
    (let m : Master := .core 1; let v : Word := 0x130F#32; let s : State := rig; (s.grants m DISP_CLCFG v = true) ∧ (clcfgOk (v.toNat % 32768) = true) ∧ (∀ e : Fin 16, s.flag (ENG_CTRL_RUN e) = false ∧ ∀ l : Fin 8, s.level e l = [])) ∧
    (let m : Master := .core 1; let v : Word := 0x4000#32; let s : State := rig; (s.grants m DISP_CLCFG v = true) ∧ (clcfgOk (v.toNat % 32768) = false)) ∧
    (let s : State := rig; (s.domOn 7 = true) ∧ ((s.cyc0.toNat % 1024 ≠ 0 ∨ (s.shadOf .disp = [] ∧ s.armedBy .disp = none)))) ∧
    (let s : State := rig.setShad (DISP_CAP 3 4) 9; (s.domOn 7 = true) ∧ (s.cyc0.toNat % 1024 = 0) ∧ (s.shadOf .disp ≠ []) ∧ (s.noTxn = true) ∧ (dispBad s (fun a => s.candFor [.disp] [] a) = none)) := by
  refine ⟨?_, ?_, ?_, ?_, ?_, ?_, ?_, ?_, ?_, ?_, ?_, ?_, ?_⟩ <;> decide +kernel

/-- The hypotheses of EnginePortCommands hold together. -/
theorem hyps_EnginePortCommands :
    (let e : Fin 16 := 2; let t : Fin 4 := 1; let v : Word := 0; let s : State := engRig; (s.canIssue e t = true) ∧ (bits v 13 5 * 32 ≤ (s.port e t 0x300).toNat)) ∧
    (let e : Fin 16 := 2; let t : Fin 4 := 1; let v : Word := 0x45#32; let s : State := engRig; (s.canIssue e t = true) ∧ ((s.port e t 0x300).toNat < bits v 13 5 * 32) ∧ (s.bound e t = none)) ∧
    (let e : Fin 16 := 2; let t : Fin 4 := 1; let w : Win := ⟨aCopy, [], false, 0, false, false, none⟩; let s : State := (engRig.setFrm 0 (some ⟨rxFrame, true, false, 1, 1, [], 0⟩)).setWin 2 1 ⟨aCopy, [], false, 0, false, false, none⟩; (s.canIssue e t = true) ∧ (s.bound e t = some w) ∧ (w.fwd = false) ∧ (s.winFailed w = false)) ∧
    (let e : Fin 16 := 2; let t : Fin 4 := 1; let v : Word := 0x100#32; let s : State := engRig; (s.canIssue e t = true) ∧ ((s.thr e t).tx = none) ∧ (min 256 (bits (s.port e t 0x32C) 24 16) + bits (s.port e t 0x32C) 13 0 + 4 ≤ 9728) ∧ (bits v 16 0 + bits (s.port e t 0x32C) 13 0 ≤ 131072)) ∧
    (let e : Fin 16 := 2; let t : Fin 4 := 1; let v : Word := 0x1FFFF#32; let s : State := engRig.setPort 2 1 0x32C 64#32; (s.canIssue e t = true) ∧ ((s.thr e t).tx = none) ∧ (131072 < bits v 16 0 + bits (s.port e t 0x32C) 13 0)) ∧
    (let e : Fin 16 := 2; let t : Fin 4 := 1; let x : Item := ⟨0, 2, 1, 3, 5, false, 0, 0, 3, 0⟩; let s : State := engRig.setThr 2 1 { engRig.thr 2 1 with item := some ⟨0, 2, 1, 3, 5, false, 0, 0, 3, 0⟩ }; (s.canIssue e t = true) ∧ ((s.thr e t).item = some x) ∧ ((x.kind ≠ 0 ∧ x.kind ≠ 6)) ∧ ((s.thr e t).win = none)) ∧
    (let e : Fin 16 := 2; let t : Fin 4 := 1; let s : State := engRig.setFld (DISP_CAP_CAP 0 0) 3; (s.canIssue e t = true) ∧ (s.itemRoom (s.postItem e t) = true)) ∧
    (let e : Fin 16 := 2; let t : Fin 4 := 1; let s : State := engRig.setFld (DISP_CAP_CAP 0 0) 0; (s.canIssue e t = true) ∧ (s.itemRoom (s.postItem e t) = false)) ∧
    (let e : Fin 16 := 2; let t : Fin 4 := 1; let s : State := engRig; (s.canIssue e t = true)) ∧
    (let e : Fin 16 := 2; let t : Fin 4 := 1; let v : Word := 7; let s : State := engRig.setReg (DISP_NODE_W0 7) 0x220005#32; (s.canIssue e t = true) ∧ (s.nodeValid (bits v 8 0) = true) ∧ (bits v 11 9 ≤ s.fld (DISP_NODE_W0_NIN (bits v 8 0))) ∧ (s.tok (bits v 8 0) (bits v 11 9) < 15)) ∧
    (let e : Fin 16 := 2; let t : Fin 4 := 1; let w : Option Word := some 5; let s : State := engRig; (s.canIssue e t = true)) ∧
    (let e : Fin 16 := 2; let t : Fin 4 := 1; let i : Fin 3 := 1; let v : Word := 0x400#32; let c : Nat := 58; let s : State := engRig; (s.canIssue e t = true) ∧ (sendChan e i = some c) ∧ (s.chanFull c = false)) ∧
    (let e : Fin 16 := 2; let t : Fin 4 := 1; let i : Fin 3 := 1; let v : Word := 0x400#32; let c : Nat := 42; let s : State := engRig; (s.canIssue e t = true) ∧ (recvChan e i = some c)) ∧
    (let m : Master := .core 1; let v : Word := 0x340#32; let k : Nat := 21; let s : State := rig; (∀ e t, m ≠ .thread e t) ∧ (s.grants m MBX_DBRING v = true) ∧ (dbSlot (bits v 7 0) = some k) ∧ (¬ (0x10 ≤ bits v 7 0 ∧ bits v 7 0 ≤ 0x2F)) ∧ ((s.asleep = false ∧ s.pwr.vote = none))) ∧
    (let e : Fin 16 := 2; let t : Nat := 1; let s : State := (engRig.setFrm 0 (some ⟨rxFrame, true, false, 1, 1, [], 0⟩)).setWin 2 1 ⟨aCopy, [], true, 0, false, false, none⟩; (s.domOn (engDom e) = true) ∧ (((List.range 4).map (fun i => ((s.engSt e).turn + 1 + i) % 4)).find? (fun t => s.beatReady e t) = some t)) ∧
    (let e : Fin 16 := 2; let t : Fin 4 := 1; let f : List Byte := rxFrame; let g : Ingr := engRig.engIngr 2 1; let s : State := { (engRig.setThr 2 1 { engRig.thr 2 1 with tx := some (rxFrame, engRig.engIngr 2 1) }) with swx := { SwxSt.reset with rings := [(14, 32)] } }; (s.domOn (engDom e) = true) ∧ ((s.thr e t).tx = some (f, g)) ∧ (s.rxOf (engKey e t) = none) ∧ ((s.inject (engKey e t) g f).2 = true) ∧ ((g.learn = true ∧ g.data = [] ∧ g.used = 0 ∧ g.lent = 0 ∧ g.fail = false ∧ g.staged = false ∧ f.length ≤ 16384)) ∧ (s.fwdReady e t = false) ∧ (∀ h : Fin 4, h ≠ t → s.beatReady e h = false)) := by
  refine ⟨?_, ?_, ?_, ?_, ?_, ?_, ?_, ?_, ?_, ?_, ?_, ?_, ?_, ?_, ?_, ?_⟩ <;> decide +kernel

/-- The hypotheses of AluInstructions hold together. -/
theorem hyps_AluInstructions :
    (∀ r ∈ [(0, 0x00), (0, 0x01), (0, 0x02), (0, 0x03), (0, 0x04), (0, 0x05), (0, 0x06), (0, 0x07), (0, 0x08), (0, 0x09), (0, 0x0A), (0, 0x0B), (0, 0x0C), (0, 0x0D), (0, 0x0E), (0, 0x0F), (0, 0x10), (0, 0x11), (0, 0x12), (0, 0x20), (0, 0x21), (0, 0x22), (0, 0x23), (0, 0x24), (0, 0x25)], witAlu r = true) := by
  decide +kernel

/-- The hypotheses of MulDivAndBitInstructions hold together. -/
theorem hyps_MulDivAndBitInstructions :
    (∀ r ∈ [(1, 0x00), (1, 0x01), (1, 0x02), (1, 0x03), (1, 0x04), (1, 0x05), (1, 0x06), (1, 0x07), (2, 0x00), (2, 0x01), (2, 0x02), (2, 0x03), (2, 0x04), (2, 0x05), (2, 0x06), (2, 0x07)], witAlu r = true) := by
  decide +kernel

/-- The hypotheses of ImmediateInstructions hold together. -/
theorem hyps_ImmediateInstructions :
    (∀ r ∈ [(0x08), (0x09), (0x0A), (0x0B), (0x0C), (0x0D), (0x0E), (0x0F)], witImm r = true) := by
  decide +kernel

/-- The hypotheses of DataMemoryInstructions hold together. -/
theorem hyps_DataMemoryInstructions :
    (let e : Fin 16 := 2; let t : Fin 4 := 1; let w : Word := 0xA081FFFC#32; let x : Thr := ((isaRig 0xA081FFFC#32).thr 2 1).tickLoads; let a : Nat := 8; let s : State := isaRig 0xA081FFFC#32; (s.fetches e t w = true) ∧ (bits w 31 26 = 0x28) ∧ (x = (s.thr e t).tickLoads) ∧ (a = (x.g (bits w 20 16)).toNat) ∧ ((a % 4 = 0 ∧ a ≤ 131071))) ∧
    (let e : Fin 16 := 2; let t : Fin 4 := 1; let w : Word := 0xA4230004#32; let x : Thr := ((isaRig 0xA4230004#32).thr 2 1).tickLoads; let a : Nat := 131068; let s : State := isaRig 0xA4230004#32; (s.fetches e t w = true) ∧ (bits w 31 26 = 0x29) ∧ (x = (s.thr e t).tickLoads) ∧ (a = (x.g (bits w 20 16)).toNat) ∧ ((a % 4 = 0 ∧ a ≤ 131071))) ∧
    (let e : Fin 16 := 2; let t : Fin 4 := 1; let w : Word := 0x60803FFF#32; let x : Thr := ((isaRig 0x60803FFF#32).thr 2 1).tickLoads; let s : State := isaRig 0x60803FFF#32; (s.fetches e t w = true) ∧ (bits w 31 26 = 0x18) ∧ (x = (s.thr e t).tickLoads) ∧ (x.addr w < 16384)) ∧
    (let e : Fin 16 := 2; let t : Fin 4 := 1; let w : Word := 0x64400005#32; let x : Thr := ((isaRig 0x64400005#32).thr 2 1).tickLoads; let s : State := isaRig 0x64400005#32; (s.fetches e t w = true) ∧ (bits w 31 26 = 0x19) ∧ (x = (s.thr e t).tickLoads) ∧ (x.addr w < 16384)) ∧
    (∀ r ∈ [(0x10, 1), (0x11, 1), (0x12, 2), (0x13, 2), (0x14, 4)], witLoad r = true) ∧
    (∀ r ∈ [(0x15, 1), (0x16, 2), (0x17, 4)], witStore r = true) ∧
    (∀ r ∈ [(0x00), (0x01), (0x02), (0x03)], witAtom r = true) := by
  refine ⟨?_, ?_, ?_, ?_, ?_, ?_, ?_⟩ <;> decide +kernel

/-- The hypotheses of PortInstructions hold together. -/
theorem hyps_PortInstructions :
    (let e : Fin 16 := 2; let t : Fin 4 := 1; let w : Word := 0xA8810004#32; let v : Word := 0; let x : Thr := ((isaRig 0xA8810004#32).setG 2 1 1 0x200#32).thr 2 1; let s : State := (isaRig 0xA8810004#32).setG 2 1 1 0x200#32; let s1 : State := (isaRig 0xA8810004#32).setG 2 1 1 0x200#32; (s.fetches e t w = true) ∧ (bits w 31 26 = 0x2A) ∧ (x = (s.thr e t).tickLoads) ∧ ((x.g (bits w 20 16)).toNat ≤ 4095) ∧ ((s.setThr e t x).portRead e t (x.g (bits w 20 16)).toNat 4 false = (s1, some v)) ∧ (((s1.thr e t).run = true ∧ (s1.thr e t).rep = none))) ∧
    (let e : Fin 16 := 2; let t : Fin 4 := 1; let w : Word := 0xAC010004#32; let x : Thr := ((isaRig 0xAC010004#32).setG 2 1 1 0x324#32).thr 2 1; let s : State := (isaRig 0xAC010004#32).setG 2 1 1 0x324#32; let s1 : State := ((isaRig 0xAC010004#32).setG 2 1 1 0x324#32); (s.fetches e t w = true) ∧ (bits w 31 26 = 0x2B) ∧ (x = (s.thr e t).tickLoads) ∧ ((x.g (bits w 20 16)).toNat ≤ 4095) ∧ ((s.setThr e t x).portWrite e t (x.g (bits w 20 16)).toNat 4 (x.g (bits w 25 21)) false = (s1, true)) ∧ (((s1.thr e t).run = true ∧ (s1.thr e t).rep = none))) ∧
    (let e : Fin 16 := 2; let t : Fin 4 := 1; let w : Word := 0x70400604#32; let x : Thr := ((isaRig 0x70400604#32).thr 2 1).tickLoads; let s : State := isaRig 0x70400604#32; (s.fetches e t w = true) ∧ (bits w 31 26 = 0x1C) ∧ (x = (s.thr e t).tickLoads) ∧ (x.addr w = 0x604)) ∧
    (let e : Fin 16 := 2; let t : Fin 4 := 1; let w : Word := 0x7C4002FC#32; let x : Thr := ((isaRig 0x7C4002FC#32).thr 2 1).tickLoads; let s : State := isaRig 0x7C4002FC#32; (s.fetches e t w = true) ∧ (bits w 31 26 = 0x1F) ∧ (x = (s.thr e t).tickLoads) ∧ ((0x200 ≤ x.addr w ∧ x.addr w < 0x300 ∧ x.addr w % 4 = 0))) ∧
    (∀ r ∈ [(0x1A, 1), (0x1B, 2), (0x1C, 4)], witPortIn r = true) ∧
    (∀ r ∈ [(0x1D, 1), (0x1E, 2), (0x1F, 4)], witPortOut r = true) := by
  refine ⟨?_, ?_, ?_, ?_, ?_, ?_⟩ <;> decide +kernel

/-- The hypotheses of ControlTransfers hold together. -/
theorem hyps_ControlTransfers :
    (let e : Fin 16 := 2; let t : Fin 4 := 1; let w : Word := 0x9C80FFFB#32; let v : Word := 0; let x : Thr := (((isaRig 0x9C80FFFB#32).setG 2 1 4 1).thr 2 1).tickLoads; let s : State := (isaRig 0x9C80FFFB#32).setG 2 1 4 1; (s.fetches e t w = true) ∧ (bits w 31 26 = 0x27) ∧ (x = (s.thr e t).tickLoads) ∧ (v = w32 (uns 32 ((x.g (bits w 25 21)).toNat - 1))) ∧ ((bits w 25 21 = 0 ∨ v.toNat = 0))) ∧
    (let e : Fin 16 := 2; let t : Fin 4 := 1; let w : Word := 0x9C80FFFB#32; let v : Word := 0xFFFFFFFF#32; let x : Thr := ((isaRig 0x9C80FFFB#32).thr 2 1).tickLoads; let q : Int := 0; let s : State := isaRig 0x9C80FFFB#32; (s.fetches e t w = true) ∧ (bits w 31 26 = 0x27) ∧ (x = (s.thr e t).tickLoads) ∧ (v = w32 (uns 32 ((x.g (bits w 25 21)).toNat - 1))) ∧ ((bits w 25 21 ≠ 0 ∧ v.toNat ≠ 0)) ∧ (q = x.pc + 1 + simm w) ∧ ((0 ≤ q ∧ q < 16384))) ∧
    (let e : Fin 16 := 2; let t : Fin 4 := 1; let w : Word := 0x88003FFF#32; let x : Thr := ((isaRig 0x88003FFF#32).thr 2 1).tickLoads; let s : State := isaRig 0x88003FFF#32; (s.fetches e t w = true) ∧ (bits w 31 26 = 0x22) ∧ (x = (s.thr e t).tickLoads) ∧ (bits w 25 0 < 16384)) ∧
    (let e : Fin 16 := 2; let t : Fin 4 := 1; let w : Word := 0x90010000#32; let x : Thr := ((isaRig 0x90010000#32).thr 2 1).tickLoads; let s : State := isaRig 0x90010000#32; (s.fetches e t w = true) ∧ (bits w 31 26 = 0x24) ∧ (x = (s.thr e t).tickLoads) ∧ ((x.g (bits w 20 16)).toNat < 16384)) ∧
    (let e : Fin 16 := 2; let t : Fin 4 := 1; let w : Word := 0x8C000010#32; let x : Thr := ((isaRig 0x8C000010#32).thr 2 1).tickLoads; let s : State := isaRig 0x8C000010#32; (s.fetches e t w = true) ∧ (bits w 31 26 = 0x23) ∧ (x = (s.thr e t).tickLoads) ∧ (bits w 25 0 < 16384) ∧ (x.rs.length < 32)) ∧
    (let e : Fin 16 := 2; let t : Fin 4 := 1; let w : Word := 0x94010000#32; let x : Thr := ((isaRig 0x94010000#32).thr 2 1).tickLoads; let s : State := isaRig 0x94010000#32; (s.fetches e t w = true) ∧ (bits w 31 26 = 0x25) ∧ (x = (s.thr e t).tickLoads) ∧ ((x.g (bits w 20 16)).toNat < 16384) ∧ (x.rs.length < 32)) ∧
    (let e : Fin 16 := 2; let t : Fin 4 := 1; let w : Word := 0x98000000#32; let x : Thr := { (isaRig 0x98000000#32).thr 2 1 with rs := [9, 3] }; let p : Nat := 9; let l : List Nat := [3]; let s : State := (isaRig 0x98000000#32).setThr 2 1 { (isaRig 0x98000000#32).thr 2 1 with rs := [9, 3] }; (s.fetches e t w = true) ∧ (bits w 31 26 = 0x26) ∧ (x = (s.thr e t).tickLoads) ∧ (x.rs = p :: l)) ∧
    (let e : Fin 16 := 2; let t : Fin 4 := 1; let w : Word := 0x88004000#32; let s : State := isaRig 0x88004000#32; (s.fetches e t w = true) ∧ (bits w 31 26 = 0x22) ∧ (16384 ≤ bits w 25 0) ∧ ((s.thr e t).handler = false)) ∧
    (let e : Fin 16 := 2; let t : Fin 4 := 1; let w : Word := 0x8000FFFA#32; let q : Int := -1; let s : State := isaRig 0x8000FFFA#32; (s.fetches e t w = true) ∧ (bits w 31 26 = 0x20) ∧ (((s.thr e t).tickLoads.g (bits w 20 16)).toNat = 0) ∧ (q = (s.thr e t).pc + 1 + simm w) ∧ ((q < 0 ∨ 16384 ≤ q)) ∧ ((s.thr e t).handler = false)) ∧
    (let e : Fin 16 := 2; let t : Fin 4 := 1; let w : Word := 0x8C000010#32; let s : State := (isaRig 0x8C000010#32).setThr 2 1 { (isaRig 0x8C000010#32).thr 2 1 with rs := List.replicate 32 5 }; (s.fetches e t w = true) ∧ (bits w 31 26 = 0x23) ∧ (bits w 25 0 < 16384) ∧ ((s.thr e t).rs.length = 32) ∧ ((s.thr e t).handler = false)) ∧
    (let e : Fin 16 := 2; let t : Fin 4 := 1; let w : Word := 0x98000000#32; let s : State := isaRig 0x98000000#32; (s.fetches e t w = true) ∧ (bits w 31 26 = 0x26) ∧ ((s.thr e t).rs = []) ∧ ((s.thr e t).handler = false)) ∧
    (let e : Fin 16 := 2; let t : Fin 4 := 1; let w : Word := 0x8C004000#32; let s : State := isaRig 0x8C004000#32; (s.fetches e t w = true) ∧ (bits w 31 26 = 0x23) ∧ (16384 ≤ bits w 25 0) ∧ ((s.thr e t).handler = false)) ∧
    (let e : Fin 16 := 2; let t : Fin 4 := 1; let w : Word := 0x90020000#32; let s : State := isaRig 0x90020000#32; (s.fetches e t w = true) ∧ (bits w 31 26 = 0x24) ∧ (16384 ≤ ((s.thr e t).tickLoads.g (bits w 20 16)).toNat) ∧ ((s.thr e t).handler = false)) ∧
    (let e : Fin 16 := 2; let t : Fin 4 := 1; let w : Word := 0x94020000#32; let s : State := isaRig 0x94020000#32; (s.fetches e t w = true) ∧ (bits w 31 26 = 0x25) ∧ (16384 ≤ ((s.thr e t).tickLoads.g (bits w 20 16)).toNat) ∧ ((s.thr e t).handler = false)) ∧
    (let e : Fin 16 := 2; let t : Fin 4 := 1; let w : Word := 0x94010000#32; let s : State := (isaRig 0x94010000#32).setThr 2 1 { (isaRig 0x94010000#32).thr 2 1 with rs := List.replicate 32 5 }; (s.fetches e t w = true) ∧ (bits w 31 26 = 0x25) ∧ (((s.thr e t).tickLoads.g (bits w 20 16)).toNat < 16384) ∧ ((s.thr e t).rs.length = 32) ∧ ((s.thr e t).handler = false)) ∧
    (let e : Fin 16 := 2; let t : Fin 4 := 1; let w : Word := 0x8401FFFA#32; let q : Int := -1; let s : State := isaRig 0x8401FFFA#32; (s.fetches e t w = true) ∧ (bits w 31 26 = 0x21) ∧ (((s.thr e t).tickLoads.g (bits w 20 16)).toNat ≠ 0) ∧ (q = (s.thr e t).pc + 1 + simm w) ∧ ((q < 0 ∨ 16384 ≤ q)) ∧ ((s.thr e t).handler = false)) ∧
    (let e : Fin 16 := 2; let t : Fin 4 := 1; let w : Word := 0x9C40FFFA#32; let q : Int := -1; let s : State := isaRig 0x9C40FFFA#32; (s.fetches e t w = true) ∧ (bits w 31 26 = 0x27) ∧ (bits w 25 21 ≠ 0) ∧ (((s.thr e t).tickLoads.g (bits w 25 21)).toNat ≠ 1) ∧ (q = (s.thr e t).pc + 1 + simm w) ∧ ((q < 0 ∨ 16384 ≤ q)) ∧ ((s.thr e t).handler = false)) ∧
    (∀ r ∈ [(0x20), (0x21)], witBranch r = true) := by
  refine ⟨?_, ?_, ?_, ?_, ?_, ?_, ?_, ?_, ?_, ?_, ?_, ?_, ?_, ?_, ?_, ?_, ?_, ?_⟩ <;> decide +kernel

/-- The hypotheses of SpecialAndTrapInstructions hold together. -/
theorem hyps_SpecialAndTrapInstructions :
    (let e : Fin 16 := 2; let t : Fin 4 := 1; let w : Word := 0x10810000#32; let x : Thr := ((isaRig 0x10810000#32).thr 2 1).tickLoads; let s : State := isaRig 0x10810000#32; (s.fetches e t w = true) ∧ ((bits w 31 26 = 4 ∧ bits w 5 0 = 0)) ∧ (x = (s.thr e t).tickLoads) ∧ (bits w 20 16 ≠ 13)) ∧
    (let e : Fin 16 := 2; let t : Fin 4 := 1; let w : Word := 0x108D0000#32; let x : Thr := { (isaRig 0x108D0000#32).thr 2 1 with rs := [4, 9] }; let s : State := (isaRig 0x108D0000#32).setThr 2 1 { (isaRig 0x108D0000#32).thr 2 1 with rs := [4, 9] }; (s.fetches e t w = true) ∧ ((bits w 31 26 = 4 ∧ bits w 5 0 = 0)) ∧ (x = (s.thr e t).tickLoads) ∧ (bits w 20 16 = 13)) ∧
    (let e : Fin 16 := 2; let t : Fin 4 := 1; let w : Word := 0x11A10001#32; let i : Nat := 13; let v : Word := 8; let x : Thr := ((isaRig 0x11A10001#32).thr 2 1).tickLoads; let s : State := isaRig 0x11A10001#32; (s.fetches e t w = true) ∧ ((bits w 31 26 = 4 ∧ bits w 5 0 = 1)) ∧ (x = (s.thr e t).tickLoads) ∧ ((i = bits w 25 21 ∧ v = x.g (bits w 20 16)))) ∧
    (let e : Fin 16 := 2; let t : Fin 4 := 1; let w : Word := 0x10000002#32; let x : Thr := ((isaRig 0x10000002#32).thr 2 1).tickLoads; let s : State := isaRig 0x10000002#32; (s.fetches e t w = true) ∧ ((bits w 31 26 = 4 ∧ bits w 5 0 = 2)) ∧ (x = (s.thr e t).tickLoads)) ∧
    (let e : Fin 16 := 2; let t : Fin 4 := 1; let w : Word := 0x100007C3#32; let s : State := isaRig 0x100007C3#32; (s.fetches e t w = true) ∧ ((bits w 31 26 = 4 ∧ bits w 5 0 = 3)) ∧ ((s.thr e t).handler = false)) ∧
    (let e : Fin 16 := 2; let t : Fin 4 := 1; let w : Word := 0xFFFFFFFF#32; let s : State := isaRig 0xFFFFFFFF#32; (s.fetches e t w = true) ∧ ((bits w 31 26 ∈ [5, 6, 7, 0x2C, 0x30, 0x3D] ∨ (bits w 31 26 = 0 ∧ 0x26 ≤ bits w 5 0) ∨ (bits w 31 26 = 0 ∧ 0x12 < bits w 5 0 ∧ bits w 5 0 < 0x20) ∨ ((bits w 31 26 = 1 ∨ bits w 31 26 = 2) ∧ 7 < bits w 5 0) ∨ (bits w 31 26 = 3 ∧ 3 < bits w 5 0) ∨ (bits w 31 26 = 4 ∧ 4 < bits w 5 0) ∨ (bits w 31 26 = 0x3F ∧ 1 < bits w 25 21))) ∧ ((s.thr e t).handler = false)) ∧
    (let e : Fin 16 := 2; let t : Fin 4 := 1; let w : Word := 0x10000004#32; let x : Thr := { (isaRig 0x10000004#32).thr 2 1 with handler := true, epc := 7 }; let s : State := (isaRig 0x10000004#32).setThr 2 1 { (isaRig 0x10000004#32).thr 2 1 with handler := true, epc := 7 }; (s.fetches e t w = true) ∧ ((bits w 31 26 = 4 ∧ bits w 5 0 = 4)) ∧ (x = (s.thr e t).landAll) ∧ (x.handler = true) ∧ ((x.ecause.getLsbD 8 = false ∧ x.ecause.getLsbD 13 = false))) ∧
    (let e : Fin 16 := 2; let t : Fin 4 := 1; let w : Word := 0x10000004#32; let x : Thr := { (isaRig 0x10000004#32).thr 2 1 with handler := true, epc := 7, ecause := 0x2704#32, erc := 10 }; let s : State := (isaRig 0x10000004#32).setThr 2 1 { (isaRig 0x10000004#32).thr 2 1 with handler := true, epc := 7, ecause := 0x2704#32, erc := 10 }; (s.fetches e t w = true) ∧ ((bits w 31 26 = 4 ∧ bits w 5 0 = 4)) ∧ (x = (s.thr e t).landAll) ∧ (x.handler = true) ∧ ((x.ecause.getLsbD 8 = true ∧ x.ecause.getLsbD 13 = true ∧ x.erc ≠ 0))) ∧
    (let e : Fin 16 := 2; let t : Fin 4 := 1; let w : Word := 0xFC00FFFF#32; let i : Word := 0; let x : Thr := ((isaRig 0xFC00FFFF#32).thr 2 1).tickLoads; let s : State := isaRig 0xFC00FFFF#32; (s.fetches e t w = true) ∧ ((bits w 31 26 = 0x3F ∧ bits w 25 21 = 0)) ∧ (x = (s.thr e t).tickLoads) ∧ (x.pc + 1 < 16384) ∧ (i = s.iWord e (x.pc + 1)) ∧ ((bits i 31 26 < 0x20 ∨ bits i 31 26 = 0x28 ∨ bits i 31 26 = 0x3E)) ∧ (bits i 31 26 ≠ 4)) ∧
    (let e : Fin 16 := 2; let t : Fin 4 := 1; let w : Word := 0xFC200000#32; let i : Word := 0; let x : Thr := ((isaRig 0xFC200000#32).thr 2 1).tickLoads; let s : State := isaRig 0xFC200000#32; (s.fetches e t w = true) ∧ ((bits w 31 26 = 0x3F ∧ bits w 25 21 = 1)) ∧ (x = (s.thr e t).tickLoads) ∧ (x.pc + 1 < 16384) ∧ (i = s.iWord e (x.pc + 1)) ∧ ((bits i 31 26 < 0x20 ∨ bits i 31 26 = 0x28 ∨ bits i 31 26 = 0x3E)) ∧ (bits i 31 26 ≠ 4)) ∧
    (let e : Fin 16 := 2; let t : Fin 4 := 1; let w : Word := 0xFC000003#32; let i : Word := 0x88000000#32; let s : State := (isaRig 0xFC000003#32).setEng 2 { (isaRig 0xFC000003#32).engSt 2 with imem := [(4, 0xFC000003#32), (5, 0x88000000#32)] }; (s.fetches e t w = true) ∧ ((bits w 31 26 = 0x3F ∧ bits w 25 21 = 0)) ∧ ((s.thr e t).pc + 1 < 16384) ∧ (i = s.iWord e ((s.thr e t).pc + 1)) ∧ ((0x20 ≤ bits i 31 26 ∧ bits i 31 26 ≤ 0x27 ∨ bits i 31 26 = 0x3F)) ∧ ((s.thr e t).handler = false)) := by
  refine ⟨?_, ?_, ?_, ?_, ?_, ?_, ?_, ?_, ?_, ?_, ?_⟩ <;> decide +kernel

/-- The hypotheses of TrapConditions hold together. -/
theorem hyps_TrapConditions :
    (let e : Fin 16 := 2; let t : Fin 4 := 1; let s : State := engRig.setThr 2 1 { engRig.thr 2 1 with pc := 16384 }; (s.canIssue e t = true) ∧ (((s.thr e t).rep = none ∧ 16384 ≤ (s.thr e t).pc)) ∧ ((s.thr e t).handler = false)) ∧
    (let e : Fin 16 := 2; let t : Fin 4 := 1; let s : State := engRig; (s.canIssue e t = true) ∧ (((s.thr e t).rep = none ∧ (s.thr e t).pc < 16384)) ∧ ((s.thr e t).handler = false)) ∧
    (let e : Fin 16 := 2; let t : Fin 4 := 1; let w : Word := 0x50800002#32; let s : State := isaRig 0x50800002#32; (s.fetches e t w = true) ∧ (bits w 31 26 = 0x14) ∧ ((s.thr e t).tickLoads.addr w % 4 ≠ 0) ∧ ((s.thr e t).handler = false)) ∧
    (let e : Fin 16 := 2; let t : Fin 4 := 1; let w : Word := 0x54830004#32; let s : State := isaRig 0x54830004#32; (s.fetches e t w = true) ∧ (bits w 31 26 = 0x15) ∧ (131071 < (s.thr e t).tickLoads.addr w) ∧ ((s.thr e t).handler = false)) ∧
    (let e : Fin 16 := 2; let t : Fin 4 := 1; let w : Word := 0x7C001000#32; let s : State := isaRig 0x7C001000#32; (s.fetches e t w = true) ∧ (bits w 31 26 = 0x1F) ∧ (4095 < (s.thr e t).tickLoads.addr w) ∧ ((s.thr e t).handler = false)) ∧
    (let e : Fin 16 := 2; let t : Fin 4 := 1; let w : Word := 0x60804000#32; let s : State := isaRig 0x60804000#32; (s.fetches e t w = true) ∧ (bits w 31 26 = 0x18) ∧ (16384 ≤ (s.thr e t).tickLoads.addr w) ∧ ((s.thr e t).handler = false)) ∧
    (let e : Fin 16 := 2; let t : Fin 4 := 1; let w : Word := 0x40810000#32; let s : State := isaRig 0x40810000#32; (s.fetches e t w = true) ∧ (bits w 31 26 = 0x10) ∧ ((s.thr e t).tickLoads.addr w ≤ 131071) ∧ ((s.thr e t).handler = false)) ∧
    (let e : Fin 16 := 2; let t : Fin 4 := 1; let w : Word := 0x10000004#32; let s : State := isaRig 0x10000004#32; (s.fetches e t w = true) ∧ ((bits w 31 26 = 4 ∧ bits w 5 0 = 4)) ∧ ((s.thr e t).handler = false)) ∧
    (let e : Fin 16 := 2; let t : Fin 4 := 1; let w : Word := 0xF8063800#32; let i : Word := 0; let s : State := isaRig 0xF8063800#32; (s.fetches e t w = true) ∧ (bits w 31 26 = 0x3E) ∧ (i = storeGet (fun _ => 0) (s.engSt e).table (bits w 25 21)) ∧ ((bits i 13 13 = 0 ∨ 511 < bits i 8 0 + bits i 12 9)) ∧ ((s.thr e t).handler = false)) ∧
    (let e : Fin 16 := 2; let t : Fin 4 := 1; let w : Word := 0x10000003#32; let s : State := (isaRig 0x10000003#32).setThr 2 1 { (isaRig 0x10000003#32).thr 2 1 with handler := true }; (s.fetches e t w = true) ∧ ((bits w 31 26 = 4 ∧ bits w 5 0 = 3)) ∧ ((s.thr e t).handler = true)) ∧
    (let e : Fin 16 := 2; let t : Fin 4 := 1; let w : Word := 0xA0000000#32; let s : State := isaRig 0xA0000000#32; (s.fetches e t w = true) ∧ (bits w 31 26 ≠ 0x0F)) := by
  refine ⟨?_, ?_, ?_, ?_, ?_, ?_, ?_, ?_, ?_, ?_, ?_⟩ <;> decide +kernel

/-- The hypotheses of RepetitionCustomAndStall hold together. -/
theorem hyps_RepetitionCustomAndStall :
    (let e : Fin 16 := 2; let t : Fin 4 := 1; let w : Word := 0x20210004#32; let k : Nat := 65535; let x : Thr := { engRig.thr 2 1 with rep := some (65535, some 0x20210004#32) }; let s : State := engRig.setThr 2 1 { engRig.thr 2 1 with rep := some (65535, some 0x20210004#32) }; (s.canIssue e t = true) ∧ ((s.thr e t).rep = some (k, some w)) ∧ (2 ≤ k) ∧ (bits w 31 26 = 8) ∧ (x = (s.thr e t).tickLoads)) ∧
    (let e : Fin 16 := 2; let t : Fin 4 := 1; let w : Word := 0x20210004#32; let x : Thr := { engRig.thr 2 1 with rep := some (1, some 0x20210004#32), rcNext := some 6 }; let s : State := engRig.setThr 2 1 { engRig.thr 2 1 with rep := some (1, some 0x20210004#32), rcNext := some 6 }; (s.canIssue e t = true) ∧ ((s.thr e t).rep = some (1, some w)) ∧ (bits w 31 26 = 8) ∧ (x = (s.thr e t).tickLoads)) ∧
    (let e : Fin 16 := 2; let t : Fin 4 := 1; let w : Word := 0x10010001#32; let k : Nat := 2; let x : Thr := { engRig.thr 2 1 with rep := some (2, some 0x10010001#32) }; let s : State := engRig.setThr 2 1 { engRig.thr 2 1 with rep := some (2, some 0x10010001#32) }; (s.canIssue e t = true) ∧ ((s.thr e t).rep = some (k, some w)) ∧ (2 ≤ k) ∧ ((bits w 31 26 = 4 ∧ bits w 5 0 = 1 ∧ bits w 25 21 = 0)) ∧ (x = (s.thr e t).tickLoads)) ∧
    (let e : Fin 16 := 2; let t : Fin 4 := 1; let w : Word := 0x50800002#32; let k : Nat := 3; let s : State := engRig.setThr 2 1 { engRig.thr 2 1 with rep := some (3, some 0x50800002#32) }; (s.canIssue e t = true) ∧ ((s.thr e t).rep = some (k, some w)) ∧ (bits w 31 26 = 0x14) ∧ ((s.thr e t).tickLoads.addr w % 4 ≠ 0) ∧ ((s.thr e t).handler = false)) ∧
    (let e : Fin 16 := 2; let t : Fin 4 := 1; let w : Word := 0xF8010800#32; let i : Word := 0x2000#32; let m : Word := 0x01107FFC#32; let v : Word := 4; let r : Nat := 1; let x : Thr := (isaRig 0xF8010800#32).thr 2 1; let s : State := (isaRig 0xF8010800#32).setEng 2 { (isaRig 0xF8010800#32).engSt 2 with table := [(0, 0x2000#32)], ucode := [(0, 0x01107FFC#32)] }; (s.fetches e t w = true) ∧ ((bits w 31 26 = 0x3E ∧ (s.thr e t).uop = none)) ∧ (i = storeGet (fun _ => 0) (s.engSt e).table (bits w 25 21)) ∧ ((bits i 13 13 = 1 ∧ bits i 12 9 = 0)) ∧ (m = storeGet (fun _ => 0) (s.engSt e).ucode (bits i 8 0)) ∧ ((bits m 31 27 = 0 ∨ bits m 31 27 = 0x0B)) ∧ ((bits m 14 14 = 1 ∧ 1 ≤ bits m 26 23 ∧ bits m 26 23 ≤ 3 ∧ bits m 22 19 = bits m 26 23)) ∧ (r = (if bits m 26 23 = 1 then bits w 20 16 else if bits m 26 23 = 2 then bits w 15 11 else bits w 10 6)) ∧ (x = { s.thr e t with temps := [] }.tickLoads) ∧ (v = w32 (uns 32 (if bits m 31 27 = 0 then ((x.g r).toNat : Int) + sgn 14 (bits m 13 0) else ((x.g r).toNat : Int) * sgn 14 (bits m 13 0))))) ∧
    (let e : Fin 16 := 2; let t : Fin 4 := 1; let v : Word := 0; let s : State := engRig.setThr 2 1 { engRig.thr 2 1 with stall := some (.port 0x420 (some 0)) }; ((s.engLive e = true ∧ (s.thr e t).run = true ∧ (s.thr e t).dead = false)) ∧ ((s.thr e t).stall = some (.port 0x420 (some v))) ∧ (s.itemRoom (s.postItem e t) = true)) := by
  refine ⟨?_, ?_, ?_, ?_, ?_, ?_⟩ <;> decide +kernel

/-- The hypotheses of CanControllerCommands hold together. -/
theorem hyps_CanControllerCommands :
    (let m : Master := .core 1; let n : Fin 4 := 1; let s : State := canRig; (s.grantsF m (CAN_CTRL_INIT n) 1 = true) ∧ (s.runs 10 (.can n) = true) ∧ ((s.flag (CAN_STAT_INITACK n) = false ∧ (s.canSt n).tx = none)) ∧ (s.flag (CAN_NOTIFY_EN n) = false)) ∧
    (let m : Master := .core 1; let n : Fin 4 := 1; let x : CanTx := canTx0; let s : State := canRig.setCan 1 { CanSt.reset with tx := some canTx0 }; (s.grantsF m (CAN_CTRL_INIT n) 1 = true) ∧ (s.runs 10 (.can n) = true) ∧ ((s.flag (CAN_STAT_INITACK n) = false ∧ (s.canSt n).tx = some x))) ∧
    (let n : Fin 4 := 1; let s : State := canRig.setFlag (CAN_CTRL_INIT 1) true; (s.runs 10 (.can n) = true) ∧ ((s.flag (CAN_CTRL_INIT n) = true ∧ s.flag (CAN_STAT_INITACK n) = false ∧ (s.canSt n).tx = none)) ∧ (s.flag (CAN_NOTIFY_EN n) = false)) ∧
    (let m : Master := .core 1; let n : Fin 4 := 1; let s : State := ((rig.setFld (CAN_NBT_TSEG1M1 1) 62).setFld (CAN_NBT_TSEG2M1 1) 15).setFld (CAN_NBT_SJWM1 1) 15; (s.grantsF m (CAN_CTRL_INIT n) 0 = true) ∧ (s.runs 10 (.can n) = true) ∧ ((s.flag (CAN_CTRL_INIT n) = true ∧ (s.badTim n).flag (CAN_STAT_BADTIM n) = false)) ∧ (s.flag (CAN_NOTIFY_EN n) = false)) ∧
    (let m : Master := .core 1; let n : Fin 4 := 1; let s : State := rig.setReg (CAN_NBT 1) 0; (s.grantsF m (CAN_CTRL_INIT n) 0 = true) ∧ (s.runs 10 (.can n) = true) ∧ ((s.flag (CAN_CTRL_INIT n) = true ∧ (s.badTim n).flag (CAN_STAT_BADTIM n) = true))) ∧
    (let n : Fin 4 := 1; let s : State := canRig.setCan 1 { CanSt.reset with integ := true }; (s.runs 10 (.can n) = true) ∧ ((s.canSt n).integ = true)) ∧
    (let n : Fin 4 := 1; let f : CanFrm := ⟨0x123#32, 2#32, [0x11223344#32]⟩; let o : Nat := 5; let s : State := (canRig.setReg (CAN_MO_CFG 1 5) 1#32).setFld (CAN_RXRING_NEXT 1) 5; (s.runs 10 (.can n) = true) ∧ ((s.flag (CAN_STAT_INITACK n) = false ∧ (s.canSt n).integ = false ∧ s.flag (CAN_CTRL_TTEN n) = false)) ∧ (((s.canSt n).tx = none ∧ (s.canSt n).rx = none ∧ (f.fmt.getLsbD 4 = false ∨ s.flag (CAN_CTRL_FDEN n) = true))) ∧ ((s.fld (CAN_STAT_FCS n) ≠ 2 ∧ s.fld (CAN_ERR_TEC n) ≤ 255 ∧ s.fld (CAN_ERR_REC n) ≤ 127)) ∧ (o = s.fld (CAN_RXRING_NEXT n)) ∧ (s.rxObjs n ≠ []) ∧ ((s.flag (CAN_MO_STAT_LOCKED n o) = false ∧ s.flag (CAN_MO_STAT_FULL n o) = false)) ∧ (s.flag (CAN_NOTIFY_EN n) = false)) ∧
    (let n : Fin 4 := 1; let f : CanFrm := ⟨0x123#32, 2#32, [0x11223344#32]⟩; let o : Nat := 5; let s : State := ((canRig.setReg (CAN_MO_CFG 1 5) 1#32).setFld (CAN_RXRING_NEXT 1) 5).setFlag (CAN_MO_STAT_LOCKED 1 5) true; (s.runs 10 (.can n) = true) ∧ ((s.flag (CAN_STAT_INITACK n) = false ∧ (s.canSt n).integ = false ∧ s.flag (CAN_CTRL_TTEN n) = false)) ∧ (((s.canSt n).tx = none ∧ (s.canSt n).rx = none ∧ (f.fmt.getLsbD 4 = false ∨ s.flag (CAN_CTRL_FDEN n) = true))) ∧ ((s.fld (CAN_STAT_FCS n) ≠ 2 ∧ s.fld (CAN_ERR_TEC n) ≤ 255 ∧ s.fld (CAN_ERR_REC n) = 0)) ∧ (o = s.fld (CAN_RXRING_NEXT n)) ∧ (s.rxObjs n ≠ []) ∧ ((s.flag (CAN_MO_STAT_LOCKED n o) = true ∧ s.flag (CAN_MO_STAT_SHADOW n o) = false))) ∧
    (let n : Fin 4 := 1; let s : State := canRig; (s.runs 10 (.can n) = true) ∧ ((s.flag (CAN_STAT_INITACK n) = false ∧ (s.canSt n).integ = false ∧ (s.canSt n).tx = none ∧ (s.canSt n).rx = none ∧ s.fld (CAN_STAT_FCS n) ≠ 2))) ∧
    (let n : Fin 4 := 1; let e : CanErr := ⟨1, false, true⟩; let f : Option CanFrm := none; let s : State := canRig; (s.runs 10 (.can n) = true) ∧ ((s.flag (CAN_STAT_INITACK n) = false ∧ (s.canSt n).integ = false ∧ (s.canSt n).tx = none)) ∧ ((s.fld (CAN_STAT_FCS n) ≠ 2 ∧ s.fld (CAN_ERR_TEC n) ≤ 255)) ∧ (e.code = 1) ∧ (s.flag (CAN_NOTIFY_EN n) = false)) ∧
    (let n : Fin 4 := 1; let o : Fin 128 := 9; let s : State := (canRig.setReg (CAN_MO_CFG 1 9) 3#32).setFlag (CAN_MO_STAT_TXREQ 1 9) true; (s.runs 10 (.can n) = true) ∧ (s.canMayStart n = true) ∧ (s.flag (CAN_CTRL_TTEN n) = false) ∧ ((s.flag (CAN_MO_STAT_TXREQ n o) = true ∧ s.flag (CAN_MO_CFG_VALID n o) = true ∧ s.flag (CAN_MO_CFG_DIR n o) = true ∧ s.fld (CAN_MO_CFG_TTMODE n o) = 0)) ∧ (∀ k : Fin 128, k ≠ o → s.flag (CAN_MO_STAT_TXREQ n k) = false)) ∧
    (let n : Fin 4 := 1; let o : Nat := 9; let x : CanTx := { canTx0 with obj := some 9 }; let s : State := canRig.setCan 1 { CanSt.reset with tx := some { canTx0 with obj := some 9 } }; (s.runs 10 (.can n) = true) ∧ ((s.canSt n).tx = some x) ∧ ((x.obj = some o ∧ x.abort = false ∧ x.shut = false)) ∧ ((s.fld (CAN_ERR_TEC n) ≤ 255 ∧ s.fld (CAN_STAT_FCS n) ≠ 2)) ∧ (s.flag (CAN_CTRL_SELFRX n) = false) ∧ (s.flag (CAN_NOTIFY_EN n) = false)) ∧
    (let n : Fin 4 := 1; let o : Nat := 9; let x : CanTx := { canTx0 with obj := some 9 }; let s : State := canRig.setCan 1 { CanSt.reset with tx := some { canTx0 with obj := some 9 } }; (s.runs 10 (.can n) = true) ∧ ((s.canSt n).tx = some x) ∧ ((x.obj = some o ∧ x.abort = false ∧ x.shut = false))) ∧
    (let n : Fin 4 := 1; let o : Nat := 9; let x : CanTx := { canTx0 with obj := some 9 }; let e : CanErr := ⟨3, false, false⟩; let won : Bool := true; let s : State := canRig.setCan 1 { CanSt.reset with tx := some { canTx0 with obj := some 9 } }; (s.runs 10 (.can n) = true) ∧ ((s.canSt n).tx = some x) ∧ ((x.obj = some o ∧ x.abort = false ∧ x.excl = false ∧ x.shut = false)) ∧ ((e.code = 3 ∧ e.alt = false)) ∧ ((s.fld (CAN_ERR_TEC n) ≤ 247 ∧ s.fld (CAN_STAT_FCS n) ≠ 2 ∧ s.fld (CAN_MO_CFG_RETRY n o) = 0)) ∧ (s.flag (CAN_NOTIFY_EN n) = false)) ∧
    (let n : Fin 4 := 1; let o : Nat := 9; let x : CanTx := { canTx0 with obj := some 9 }; let e : CanErr := ⟨3, false, false⟩; let won : Bool := true; let s : State := (canRig.setFld (CAN_ERR_TEC 1) 248).setCan 1 { CanSt.reset with tx := some { canTx0 with obj := some 9 } }; (s.runs 10 (.can n) = true) ∧ ((s.canSt n).tx = some x) ∧ ((x.obj = some o ∧ x.abort = false ∧ x.excl = false ∧ x.shut = false)) ∧ ((e.code = 3 ∧ e.alt = false)) ∧ ((248 ≤ s.fld (CAN_ERR_TEC n) ∧ s.fld (CAN_STAT_FCS n) ≠ 2 ∧ s.flag (CAN_CTRL_TTEN n) = false ∧ s.fld (CAN_MO_CFG_RETRY n o) = 0)) ∧ (s.flag (CAN_NOTIFY_EN n) = false)) ∧
    (let m : Master := .core 0; let n : Fin 4 := 1; let s : State := canRig.setFld (CAN_STAT_FCS 1) 2; (s.grantsF m (CAN_CTRL_BOREC n) 1 = true) ∧ (s.runs 10 (.can n) = true) ∧ ((s.fld (CAN_STAT_FCS n) = 2 ∧ s.flag (CAN_CTRL_INIT n) = false))) ∧
    (let n : Fin 4 := 1; let s : State := (canRig.setFld (CAN_STAT_FCS 1) 2).setFlag (CAN_STAT_BORUN 1) true; (s.runs 10 (.can n) = true) ∧ (s.flag (CAN_STAT_BORUN n) = true) ∧ ((s.flag (CAN_NOTIFY_EN n) = false ∧ s.flag (CAN_CTRL_TTEN n) = false))) ∧
    (let m : Master := .core 0; let n : Fin 4 := 1; let o : Fin 128 := 127; let s : State := canRig; (s.grantsF m (CAN_MO_CMD_LOCK n o) 1 = true) ∧ (s.runs 10 (.can n) = true)) ∧
    (let m : Master := .core 0; let n : Fin 4 := 1; let o : Fin 128 := 127; let s : State := (canRig.setReg (CAN_MO_CFG 1 127) 3#32).setFlag (CAN_MO_STAT_LOCKED 1 127) true; (s.grantsF m (CAN_MO_CMD_UNLOCK n o) 1 = true) ∧ (s.runs 10 (.can n) = true) ∧ ((s.flag (CAN_MO_STAT_LOCKED n o) = true ∧ s.flag (CAN_MO_CFG_DIR n o) = true))) ∧
    (let m : Master := .core 0; let n : Fin 4 := 1; let o : Fin 128 := 3; let f : CanFrm := ⟨7, 1, [5]⟩; let ts : Word := 8; let s : State := (((canRig.setReg (CAN_MO_CFG 1 3) 1#32).setFlag (CAN_MO_STAT_LOCKED 1 3) true).setFlag (CAN_MO_STAT_SHADOW 1 3) true).setMoShadow 1 3 (some (⟨7, 1, [5]⟩, 8, 0)); (s.grantsF m (CAN_MO_CMD_UNLOCK n o) 1 = true) ∧ (s.runs 10 (.can n) = true) ∧ ((s.flag (CAN_MO_STAT_LOCKED n o) = true ∧ s.flag (CAN_MO_CFG_DIR n o) = false ∧ s.flag (CAN_MO_STAT_SHADOW n o) = true ∧ s.flag (CAN_MO_STAT_FULL n o) = false)) ∧ (s.moShadow n o = some (f, ts, 0)) ∧ (s.flag (CAN_NOTIFY_EN n) = false)) ∧
    (let m : Master := .core 0; let n : Fin 4 := 1; let o : Fin 128 := 3; let s : State := ((canRig.setReg (CAN_MO_CFG 1 3) 1#32).setFlag (CAN_MO_STAT_LOCKED 1 3) true).setFlag (CAN_MO_STAT_FULL 1 3) true; (s.grants m (CAN_MO_CMD n o) 6#32 = true) ∧ (s.runs 10 (.can n) = true) ∧ ((s.flag (CAN_MO_STAT_LOCKED n o) = true ∧ s.flag (CAN_MO_CFG_DIR n o) = false ∧ s.flag (CAN_MO_STAT_SHADOW n o) = false))) ∧
    (let m : Master := .core 0; let n : Fin 4 := 1; let o : Fin 128 := 3; let s : State := canRig.setReg (CAN_MO_CFG 1 3) 3#32; (s.grantsF m (CAN_MO_CMD_TXREQ n o) 1 = true) ∧ (s.runs 10 (.can n) = true) ∧ ((s.flag (CAN_MO_CFG_VALID n o) = true ∧ s.flag (CAN_MO_CFG_DIR n o) = true ∧ s.flag (CAN_MO_STAT_TXREQ n o) = false ∧ s.fld (CAN_MO_CFG_TTMODE n o) ≠ 1))) ∧
    (let m : Master := .core 0; let n : Fin 4 := 1; let o : Fin 128 := 3; let s : State := canRig.setFlag (CAN_MO_STAT_TXREQ 1 3) true; (s.grantsF m (CAN_MO_CMD_TXABORT n o) 1 = true) ∧ (s.runs 10 (.can n) = true) ∧ ((s.flag (CAN_MO_STAT_TXREQ n o) = true ∧ (s.canSt n).tx = none)) ∧ (s.flag (CAN_NOTIFY_EN n) = false)) ∧
    (let m : Master := .core 0; let n : Fin 4 := 1; let o : Fin 128 := 9; let x : CanTx := { canTx0 with obj := some 9 }; let s : State := (canRig.setFlag (CAN_MO_STAT_TXREQ 1 9) true).setCan 1 { CanSt.reset with tx := some { canTx0 with obj := some 9 } }; (s.grantsF m (CAN_MO_CMD_TXABORT n o) 1 = true) ∧ (s.runs 10 (.can n) = true) ∧ ((s.flag (CAN_MO_STAT_TXREQ n o) = true ∧ (s.canSt n).tx = some x ∧ x.obj = some o.val))) := by
  refine ⟨?_, ?_, ?_, ?_, ?_, ?_, ?_, ?_, ?_, ?_, ?_, ?_, ?_, ?_, ?_, ?_, ?_, ?_, ?_, ?_, ?_, ?_, ?_, ?_⟩ <;> decide +kernel

/-- The hypotheses of TimeTriggeredCanCommands hold together. -/
theorem hyps_TimeTriggeredCanCommands :
    (let m : Master := .core 0; let n : Fin 4 := 1; let s : State := canRig.setFld (CAN_TT_STAT_STATE 1) 6; (s.grantsF m (CAN_CTRL_TTRESTART n) 1 = true) ∧ (s.runs 10 (.can n) = true) ∧ ((s.ttState n = 6 ∧ s.flag (CAN_CTRL_INIT n) = false)) ∧ (s.flag (CAN_NOTIFY_EN n) = false)) ∧
    (let n : Fin 4 := 1; let s : State := (canRig.setFlag (CAN_TT_CFG_PM 1) true).setFld (CAN_TT_STAT_STATE 1) 1; (s.runs 10 (.can n) = true) ∧ (s.canMayStart n = true) ∧ ((s.ttState n = 1 ∧ s.flag (CAN_TT_CFG_PM n) = true ∧ s.shadOf (.tt n) = []))) ∧
    (let n : Fin 4 := 1; let s : State := canRig.setFld (CAN_TT_STAT_STATE 1) 3; (s.runs 10 (.can n) = true) ∧ (s.canMayStart n = true) ∧ ((s.ttState n = 3 ∧ s.sofSince n (s.fld (CAN_TT_TIME_CYCLEN n)) = false ∧ s.shadOf (.tt n) = []))) ∧
    (let n : Fin 4 := 1; let t : Nat := 1000000000; let s : State := (canRig.setFld (CAN_TT_STAT_STATE 1) 3).setCan 1 { CanSt.reset with sofAt := some 1000000000 }; (s.runs 10 (.can n) = true) ∧ (((s.canSt n).sofAt = some t ∧ 2 * (s.canSt n).ctAt + 25 * s.nomBit n * s.fld (CAN_TT_TIME_CYCLEN n) ≤ 2 * t))) ∧
    (let n : Fin 4 := 1; let s : State := canRig.setFld (CAN_TT_STAT_STATE 1) 3; (s.runs 10 (.can n) = true) ∧ (s.canMayStart n = true) ∧ ((s.ttState n = 3 ∧ (s.canSt n).sofAt = none))) ∧
    (let n : Fin 4 := 1; let s : State := canRig.setFld (CAN_TT_STAT_STATE 1) 2; (s.runs 10 (.can n) = true) ∧ (s.canMayStart n = true) ∧ ((s.ttState n = 2))) ∧
    (let n : Fin 4 := 1; let s : State := canRig.setFld (CAN_TT_STAT_STATE 1) 2; (s.runs 10 (.can n) = true) ∧ (s.canMayStart n = true) ∧ ((s.ttState n = 2 ∧ s.shadOf (.tt n) = []))) ∧
    (let n : Fin 4 := 1; let s : State := canRig.setFld (CAN_TT_STAT_STATE 1) 4; (s.runs 10 (.can n) = true) ∧ ((s.ttState n = 3 ∨ s.ttState n = 4)) ∧ (s.flag (CAN_NOTIFY_EN n) = false)) ∧
    (let n : Fin 4 := 1; let w : Fin 32 := 1; let o : Nat := 9; let s : State := (((canRig.setFlag (CAN_CTRL_TTEN 1) true).setFld (CAN_TT_STAT_STATE 1) 2).setReg (CAN_TT_TIME 1) 0x1000FFF#32).setReg (CAN_TT_CELL 1 0 0) 0x80090000#32; (s.runs 10 (.can n) = true) ∧ (s.canMayStart n = true) ∧ ((s.flag (CAN_CTRL_TTEN n) = true ∧ 2 ≤ s.ttState n ∧ s.ttState n ≤ 4 ∧ 1 ≤ w.val ∧ w.val ≤ s.fld (CAN_TT_TIME_NWINM1 n))) ∧ (ttCell s.reg n (s.fld (CAN_TT_STAT_CYC n)) w = (2, o)) ∧ (((s.pubFrame n o).fmt.getLsbD 4 = false ∨ s.flag (CAN_CTRL_FDEN n) = true)) ∧ (s.canClk n + (s.fld (CAN_TT_TIME_GUARD n) + s.frmL n (s.pubFrame n o)) * s.nomBit n ≤ winEnd s.reg n w * s.nomBit n)) ∧
    (let n : Fin 4 := 1; let w : Fin 32 := 1; let o : Nat := 9; let s : State := (((canRig.setFlag (CAN_CTRL_TTEN 1) true).setFld (CAN_TT_STAT_STATE 1) 2).setReg (CAN_TT_TIME 1) 0x1000010#32).setReg (CAN_TT_CELL 1 0 0) 0x80090000#32; (s.runs 10 (.can n) = true) ∧ (s.canMayStart n = true) ∧ ((s.flag (CAN_CTRL_TTEN n) = true ∧ 2 ≤ s.ttState n ∧ s.ttState n ≤ 4 ∧ 1 ≤ w.val ∧ w.val ≤ s.fld (CAN_TT_TIME_NWINM1 n))) ∧ (ttCell s.reg n (s.fld (CAN_TT_STAT_CYC n)) w = (2, o)) ∧ (((s.pubFrame n o).fmt.getLsbD 4 = false ∨ s.flag (CAN_CTRL_FDEN n) = true)) ∧ (winEnd s.reg n w * s.nomBit n < s.canClk n + (s.fld (CAN_TT_TIME_GUARD n) + s.frmL n (s.pubFrame n o)) * s.nomBit n) ∧ (s.flag (CAN_NOTIFY_EN n) = false)) ∧
    (let n : Fin 4 := 1; let w : Fin 32 := 0; let s : State := (canRig.setFld (CAN_TT_STAT_STATE 1) 2).setReg (CAN_TT_CELL 1 0 0) 0x4000#32; (s.runs 10 (.can n) = true) ∧ ((s.ttSync n = true ∧ s.sofSince n (s.fld (CAN_TT_WIN_MARK n w)) = false)) ∧ (((ttCell s.reg n (s.fld (CAN_TT_STAT_CYC n)) w).1 = 1 ∨ ((ttCell s.reg n (s.fld (CAN_TT_STAT_CYC n)) w).1 = 2 ∧ (s.canSt n).exclDue = false))) ∧ (s.flag (CAN_NOTIFY_EN n) = false)) ∧
    (let n : Fin 4 := 1; let w : Fin 32 := 2; let s : State := (canRig.setFld (CAN_TT_STAT_STATE 1) 2).setCan 1 { CanSt.reset with sofAt := some 9 }; (s.runs 10 (.can n) = true) ∧ ((s.ttSync n = true ∧ s.sofSince n (s.fld (CAN_TT_WIN_MARK n w)) = true ∧ (s.canSt n).exclDue = false))) ∧
    (let n : Fin 4 := 1; let khz : Word := 50001; let s : State := canRig.setFlag (CAN_CTRL_TTEN 1) true; (s.runs 10 (.can n) = true) ∧ (s.flag (CAN_CTRL_TTEN n) = true) ∧ (((khz.toNat < 30000 ∨ 50000 < khz.toNat) ∧ (s.canSt n).gClosed = false))) ∧
    (let n : Fin 4 := 1; let khz : Word := 0; let s : State := (canRig.setFlag (CAN_CTRL_TTEN 1) true).setCan 1 { CanSt.reset with gClosed := true, gPass := 1 }; (s.runs 10 (.can n) = true) ∧ (s.flag (CAN_CTRL_TTEN n) = true) ∧ (((khz.toNat < 30000 ∨ 50000 < khz.toNat) ∧ (s.canSt n).gClosed = true))) ∧
    (let n : Fin 4 := 1; let khz : Word := 40000; let s : State := (canRig.setFlag (CAN_CTRL_TTEN 1) true).setCan 1 { CanSt.reset with gFreq := some 40000 }; (s.runs 10 (.can n) = true) ∧ (s.flag (CAN_CTRL_TTEN n) = true) ∧ ((30000 ≤ khz.toNat ∧ khz.toNat ≤ 50000)) ∧ ((s.canSt n).gFreq = some khz.toNat)) ∧
    (let n : Fin 4 := 1; let x : CanTx := canTx0; let s : State := (canRig.setFlag (CAN_CTRL_TTEN 1) true).setCan 1 { CanSt.reset with tx := some canTx0 }; (s.runs 10 (.can n) = true) ∧ (s.flag (CAN_CTRL_TTEN n) = true) ∧ ((s.canSt n).tx = some x) ∧ ((x.obj = none ∧ s.ttState n ≠ 1 ∧ s.fld (CAN_ERR_TEC n) ≤ 247 ∧ s.fld (CAN_STAT_FCS n) ≠ 2)) ∧ (s.flag (CAN_NOTIFY_EN n) = false)) := by
  refine ⟨?_, ?_, ?_, ?_, ?_, ?_, ?_, ?_, ?_, ?_, ?_, ?_, ?_, ?_, ?_, ?_⟩ <;> decide +kernel

/-- The hypotheses of ProtocolInstanceEvents hold together. -/
theorem hyps_ProtocolInstanceEvents :
    (let i : Fin 4 := 2; let x : InstSt := instRig; let s : State := (rigIn modeSAFEOP).setInst 2 (some instRig); (s.inst i = some x) ∧ ((s.cyclicMode = true ∧ x.st ≠ 3)) ∧ (s.fw.running = false)) ∧
    (let i : Fin 4 := 2; let x : InstSt := { instRig with st := 3 }; let s : State := (rigIn modeOPERATIONAL).setInst 2 (some { instRig with st := 3 }); (s.inst i = some x) ∧ ((x.st = 3 ∧ x.hasLoss = true)) ∧ ((s.mode = modeOPERATIONAL ∧ s.fw.running = false))) ∧
    (let i : Fin 4 := 2; let tries : BitVec 16 := 3; let late : BitVec 16 := 0xFFFF#16; let x : InstSt := instRig; let s : State := (rigIn modeSAFEOP).setInst 2 (some instRig); (s.inst i = some x) ∧ (s.fw.running = false)) := by
  refine ⟨?_, ?_, ?_⟩ <;> decide +kernel

/-- The hypotheses of CellInstructions hold together. -/
theorem hyps_CellInstructions :
    (let c : Fin 32 := 3; let w : Nat := 0; let s : State := nutRig 0; (s.nutAt c w = true) ∧ (w / 256 = 0)) ∧
    (let c : Fin 32 := 3; let w : Nat := 0x100; let s : State := nutRig 0x100; (s.nutAt c w = true) ∧ (w / 256 = 1)) ∧
    (let c : Fin 32 := 3; let w : Nat := 0x200; let s : State := (nutRig 0x200).setNut 3 { NutSt.reset with pend := true }; (s.nutAt c w = true) ∧ (w / 256 = 2) ∧ (((s.nutSt c).pend = true ∧ s.flag (NUT_CFG_CNTRST c) = false))) ∧
    (let c : Fin 32 := 3; let w : Nat := 0x200; let s : State := nutRig 0x200; (s.nutAt c w = true) ∧ (w / 256 = 2) ∧ ((s.nutSt c).pend = false)) ∧
    (let c : Fin 32 := 3; let w : Nat := 0x300; let s : State := nutRig 0x300; (s.nutAt c w = true) ∧ (w / 256 = 3)) ∧
    (let c : Fin 32 := 3; let w : Nat := 0x400; let s : State := nutRig 0x400; (s.nutAt c w = true) ∧ (w / 256 = 4)) ∧
    (let c : Fin 32 := 3; let w : Nat := 0x500; let s : State := nutRig 0x500; (s.nutAt c w = true) ∧ (w / 256 = 5)) ∧
    (let c : Fin 32 := 3; let w : Nat := 0x101F; let n : Nat := 32; let s : State := nutRig 0x101F; (s.nutAt c w = true) ∧ (w / 4096 = 1) ∧ (n = (if w.testBit 9 then s.fld (NUT_X_X c) else w % 32 + 1)) ∧ (n ≠ 0)) ∧
    (let c : Fin 32 := 3; let w : Nat := 0x2000; let n : Nat := 1; let s : State := (nutRig 0x2000).setNut 3 { NutSt.reset with mark := true }; (s.nutAt c w = true) ∧ (w / 4096 = 2) ∧ (n = (if w.testBit 9 then s.fld (NUT_X_X c) else w % 32 + 1)) ∧ (n ≠ 0)) ∧
    (let c : Fin 32 := 3; let w : Nat := 0x2200; let s : State := nutRig 0x2200; (s.nutAt c w = true) ∧ ((w / 4096 = 2 ∧ w.testBit 9 = true ∧ s.fld (NUT_X_X c) = 0))) ∧
    (let c : Fin 32 := 3; let w : Nat := 0x3000; let v : Word := 0xABCD#32; let l : List Word := [1, 2]; let s : State := (nutRig 0x3000).setNut 3 { NutSt.reset with txq := [0xABCD#32, 1, 2] }; (s.nutAt c w = true) ∧ ((w / 4096 = 3 ∧ w % 8 = 0)) ∧ ((s.nutSt c).txq = v :: l)) ∧
    (let c : Fin 32 := 3; let w : Nat := 0x3004; let v : Word := 0x1ABCD#32; let l : List Word := []; let s : State := (nutRig 0x3004).setNut 3 { NutSt.reset with txq := [0x1ABCD#32] }; (s.nutAt c w = true) ∧ ((w / 4096 = 3 ∧ w % 8 = 4)) ∧ ((s.nutSt c).txq = v :: l)) ∧
    (let c : Fin 32 := 3; let w : Nat := 0x3801; let s : State := nutRig 0x3801; (s.nutAt c w = true) ∧ ((w / 4096 = 3 ∧ w % 8 ≤ 4 ∧ w.testBit 11 = true)) ∧ (((s.nutSt c).txq = [] ∧ s.nutJoin c = 0))) ∧
    (let c : Fin 32 := 3; let w : Nat := 0x3001; let s : State := nutRig 0x3001; (s.nutAt c w = true) ∧ ((w / 4096 = 3 ∧ w % 8 ≤ 4 ∧ w.testBit 11 = false)) ∧ ((s.nutSt c).txq = [])) ∧
    (let c : Fin 32 := 3; let w : Nat := 0x4003; let s : State := nutRig 0x4003; (s.nutAt c w = true) ∧ ((w / 4096 = 4 ∧ w % 8 ≤ 3 ∧ w % 8 ≠ 1)) ∧ ((s.nutSt c).rxq.length < s.rxCap c)) ∧
    (let c : Fin 32 := 3; let w : Nat := 0x4000; let s : State := (nutRig 0x4000).setNut 3 { NutSt.reset with rxq := [1, 2, 3, 4] }; (s.nutAt c w = true) ∧ ((w / 4096 = 4 ∧ w % 8 ≤ 3 ∧ w.testBit 11 = false)) ∧ (s.rxCap c ≤ (s.nutSt c).rxq.length)) ∧
    (let c : Fin 32 := 3; let w : Nat := 0x4802; let s : State := (nutRig 0x4802).setNut 3 { NutSt.reset with rxq := [1, 2, 3, 4] }; (s.nutAt c w = true) ∧ ((w / 4096 = 4 ∧ w % 8 ≤ 3 ∧ w.testBit 11 = true)) ∧ ((0 < s.rxCap c ∧ s.rxCap c ≤ (s.nutSt c).rxq.length))) ∧
    (let c : Fin 32 := 3; let w : Nat := 0x500E; let s : State := nutRig 0x500E; (s.nutAt c w = true) ∧ (w / 4096 = 5)) ∧
    (let c : Fin 32 := 3; let w : Nat := 0x6900; let s : State := nutRig 0x6900; (s.nutAt c w = true) ∧ ((w / 4096 = 6 ∧ w / 1024 % 4 < 3 ∧ w / 256 % 4 < 2 ∧ w / 32 % 8 = 0))) ∧
    (let c : Fin 32 := 3; let w : Nat := 0x70FF; let s : State := nutRig 0x70FF; (s.nutAt c w = true) ∧ ((w / 4096 = 7 ∧ w.testBit 11 = false))) ∧
    (let c : Fin 32 := 3; let w : Nat := 0x8000; let s : State := (nutRig 0x8000).setReg (NUT_CMP 3) 5; (s.nutAt c w = true) ∧ ((w / 4096 = 8 ∧ (s.nutSt c).matchAt ≠ some s.time.now))) ∧
    (let c : Fin 32 := 3; let w : Nat := 0x9FFF; let s : State := nutRig 0x9FFF; (s.nutAt c w = true) ∧ (w / 4096 = 9)) ∧
    (let c : Fin 32 := 3; let w : Nat := 0xA01F; let s : State := nutRig 0xA01F; (s.nutAt c w = true) ∧ (w / 4096 = 10)) ∧
    (let c : Fin 32 := 3; let w : Nat := 0xB005; let s : State := (nutRig 0xB005).setReg (NUT_X 3) 1; (s.nutAt c w = true) ∧ (w / 4096 = 11)) ∧
    (let c : Fin 32 := 3; let w : Nat := 0xC805; let s : State := nutRig 0xC805; (s.nutAt c w = true) ∧ ((w / 4096 = 12 ∧ w / 512 % 8 < 6))) ∧
    (let c : Fin 32 := 3; let w : Nat := 0xCC05; let s : State := nutRig 0xCC05; (s.nutAt c w = true) ∧ ((w / 4096 = 12 ∧ 6 ≤ w / 512 % 8))) ∧
    (let c : Fin 32 := 3; let w : Nat := 0xD055; let x : Item := (nutRig 0xD055).srcItem 0 3 0x55 3 false; let s : State := nutRig 0xD055; (s.nutAt c w = true) ∧ (w / 4096 = 13) ∧ (x = s.srcItem (s.fld (NUT_CFG_CLUSTER c)) 3 (w % 256) c false) ∧ ((s.domOn 7 = true ∧ s.srcToken (s.fld (NUT_CFG_CLUSTER c)) 3 = false ∧ s.heldPost 3 c = none ∧ s.itemRoom x = true))) ∧
    (let c : Fin 32 := 3; let w : Nat := 0xE200; let s : State := nutRig 0xE200; (s.nutAt c w = true) ∧ ((w / 4096 = 14 ∧ w / 1024 % 4 < 1))) ∧
    (let c : Fin 32 := 3; let w : Nat := 0xE800; let s : State := nutRig 0xE800; (s.nutAt c w = true) ∧ ((w / 4096 = 14 ∧ w / 1024 % 4 = 2 ∧ s.flag (NUT_CFG_POSOUT c) = false))) ∧
    (let c : Fin 32 := 3; let w : Nat := 0xF000; let s : State := nutRig 0xF000; (s.nutAt c w = true) ∧ ((w / 4096 = 15 ∨ (w / 4096 = 0 ∧ 6 ≤ w / 256) ∨ (w / 4096 = 3 ∧ 5 ≤ w % 8) ∨ (w / 4096 = 4 ∧ 4 ≤ w % 8) ∨ (w / 4096 = 6 ∧ w / 1024 % 4 = 3)))) := by
  refine ⟨?_, ?_, ?_, ?_, ?_, ?_, ?_, ?_, ?_, ?_, ?_, ?_, ?_, ?_, ?_, ?_, ?_, ?_, ?_, ?_, ?_, ?_, ?_, ?_, ?_, ?_, ?_, ?_, ?_, ?_⟩ <;> decide +kernel

/-- The hypotheses of CellEvents hold together. -/
theorem hyps_CellEvents :
    (let c : Fin 32 := 3; let w : Nat := 0x1000; let p : Fin 8 := 1; let b : Bool := true; let inj : Bool := false; let s : State := (nutBusy 0x1000 false).setReg (NUT_BC 3) 1; ((s.runs 10 .nut = true ∧ s.nutFresh c = true ∧ b = (s.setLvls c p).shInput c s.time.now)) ∧ (((s.nutSt c).ip = some (w, inj, false) ∧ s.fld (NUT_BC_BC c) = 1)) ∧ ((w / 4096 = 1 ∧ w.testBit 10 = false ∧ w.testBit 8 = false))) ∧
    (let c : Fin 32 := 3; let w : Nat := 0x1004; let p : Fin 8 := 1; let l : List (Fin 8) := [1, 0, 1, 0]; let s : State := (nutBusy 0x1004 false).setReg (NUT_BC 3) 5; ((s.runs 10 .nut = true ∧ s.nutFresh c = true)) ∧ (((s.nutSt c).ip = some (w, false, false) ∧ s.fld (NUT_BC_BC c) = l.length + 1)) ∧ ((w / 4096 = 1 ∧ w.testBit 10 = false ∧ w.testBit 8 = false ∧ s.flag (NUT_CFG_LSBF c) = false))) ∧
    (let c : Fin 32 := 3; let w : Nat := 0x2000; let n : Nat := 33; let l : List (Fin 8) := []; let s : State := ((nutBusy 0x2000 false).setReg (NUT_BC 3) 34).setReg (NUT_SR 3) 0x80000001#32; ((s.runs 10 .nut = true ∧ s.nutFresh c = true)) ∧ (((s.nutSt c).ip = some (w, false, false) ∧ s.fld (NUT_BC_BC c) = n + 1)) ∧ ((w / 4096 = 2 ∧ w.testBit 10 = false ∧ w.testBit 8 = false ∧ s.flag (NUT_CFG_LSBF c) = false))) ∧
    (let c : Fin 32 := 3; let w : Nat := 0x2000; let n : Nat := 4; let l : List (Fin 8) := []; let s : State := (((nutBusy 0x2000 false).setReg (NUT_BC 3) 5).setReg (NUT_SR 3) 0x80000015#32).setFlag (NUT_CFG_LSBF 3) true; ((s.runs 10 .nut = true ∧ s.nutFresh c = true)) ∧ (((s.nutSt c).ip = some (w, false, false) ∧ s.fld (NUT_BC_BC c) = n + 1)) ∧ ((w / 4096 = 2 ∧ w.testBit 10 = false ∧ w.testBit 8 = false ∧ s.flag (NUT_CFG_LSBF c) = true))) ∧
    (let c : Fin 32 := 3; let w : Nat := 0x3804; let v : Word := 9; let l : List Word := [4]; let s : State := (nutBusy 0x3804 true).setNut 3 { (nutBusy 0x3804 true).nutSt 3 with txq := [9, 4] }; ((s.runs 10 .nut = true ∧ (s.nutSt c).plock = none)) ∧ ((s.nutSt c).ip = some (w, false, true)) ∧ ((w / 4096 = 3 ∧ w % 8 = 4)) ∧ ((s.nutSt c).txq = v :: l)) ∧
    (let c : Fin 32 := 3; let w : Nat := 0x3804; let s : State := nutBusy 0x3804 true; (s.runs 10 .nut = true) ∧ ((s.nutSt c).ip = some (w, false, true)) ∧ ((w / 4096 = 3 ∧ (s.nutSt c).txq = [] ∧ w.testBit 11 = true ∧ s.nutJoin c = 0 ∧ w % 8 ≤ 4))) ∧
    (let c : Fin 32 := 3; let p : Fin 8 := 1; let w : Nat := 0x6220; let s : State := nutBusy 0x6220 false; ((s.runs 10 .nut = true ∧ s.nutNow = true ∧ s.nutFresh c = true)) ∧ ((s.nutSt c).ip = some (w, false, false)) ∧ ((w / 4096 = 6 ∧ w / 1024 % 4 = 0 ∧ w / 256 % 4 = 2 ∧ w.testBit 5 = true ∧ w.testBit 6 = false)) ∧ (((s.setLvls c p).pinLvl c 0 = true ∧ (s.nutSt c).wp.testBit 0 = false))) ∧
    (let c : Fin 32 := 3; let w : Nat := 0x7001; let s : State := nutBusy 0x7001 false; ((s.runs 10 .nut = true ∧ s.nutFresh c = true)) ∧ (((s.nutSt c).ip = some (w, false, false) ∧ w / 4096 = 7))) ∧
    (let c : Fin 32 := 3; let p : Fin 8 := 5; let s : State := (rig.setFld (NUT_CFG_CMODE 3) 4).setReg (NUT_CMP 3) 7; ((s.runs 10 .nut = true ∧ s.nutNow = true ∧ s.filtOk c 0 1 = true ∧ s.filtOk c 1 1 = true)) ∧ (s.fld (NUT_CFG_CMODE c) = 4) ∧ (((s.setLvls c p).pinLvl c 0 = true ∧ (s.setLvls c p).pinLvl c 1 = false ∧ (s.nutSt c).fp.testBit 0 = false)) ∧ (w32 (s.regN (NUT_CNT c) + 1) ≠ s.reg (NUT_CMP c))) ∧
    (let c : Fin 32 := 3; let p : Fin 8 := 3; let s : State := rig.setFld (NUT_CFG_CMODE 3) 3; ((s.runs 10 .nut = true ∧ s.nutNow = true ∧ s.filtOk c 0 1 = true ∧ s.filtOk c 1 1 = true)) ∧ (s.fld (NUT_CFG_CMODE c) = 3) ∧ (((s.setLvls c p).pinLvl c 0 = true ∧ (s.setLvls c p).pinLvl c 1 = true ∧ (s.nutSt c).fp % 4 = 0))) ∧
    (let c : Fin 32 := 3; let s : State := ((rig.setFld (NUT_CFG_CMODE 3) 1).setFld (NUT_CFG_CMPM 3) 3).setReg (NUT_CMP 3) 7; (s.runs 10 .nut = true) ∧ ((s.fld (NUT_CFG_CMODE c) = 1 ∧ (s.nutSt c).ip = none))) ∧
    (let c : Fin 32 := 3; let w : Nat := 0x8000; let s : State := ((nutBusy 0x8000 false).setFld (NUT_CFG_CMODE 3) 2).setReg (NUT_CMP 3) 7; (s.runs 10 .nut = true) ∧ ((s.fld (NUT_CFG_CMODE c) = 2 ∧ (s.nutSt c).ip = some (w, false, false) ∧ w / 4096 = 8))) ∧
    (let c : Fin 32 := 3; let v : Word := 5; let s : State := (((rig.setFld (NUT_CFG_CMODE 3) 1).setFld (NUT_CFG_CMPW 3) 2).setReg (NUT_PER 3) 9).setNut 3 { NutSt.reset with cmpS := some 5 }; (s.runs 10 .nut = true) ∧ (((s.fld (NUT_CFG_CMODE c) = 1 ∨ s.fld (NUT_CFG_CMODE c) = 2) ∧ s.reg (NUT_PER c) ≠ 0)) ∧ ((v = (s.nutSt c).cmpS.getD (s.reg (NUT_CMP c)) ∧ v ≠ 0))) ∧
    (let c : Fin 32 := 3; let s : State := (((rig.setFld (NUT_CFG_CMODE 3) 2).setFld (NUT_CFG_CMPW 3) 3).setReg (NUT_PER 3) 9).setReg (NUT_CMP 3) 0; (s.runs 10 .nut = true) ∧ (((s.fld (NUT_CFG_CMODE c) = 1 ∨ s.fld (NUT_CFG_CMODE c) = 2) ∧ s.reg (NUT_PER c) ≠ 0)) ∧ (((s.nutSt c).cmpS.getD (s.reg (NUT_CMP c)) = 0 ∧ (s.nutSt c).ip = none))) ∧
    (let c : Fin 32 := 3; let s : State := rig.setFlag (NUT_CFG_ZCAP 3) true; ((s.runs 10 .nut = true ∧ s.nutNow = true ∧ s.filtOk c 2 2 = true)) ∧ (s.flag (NUT_CFG_ZCAP c) = true)) ∧
    (let c : Fin 32 := 3; let t : Nat := 5; let s : State := { (nutRig 0).setNut 3 { NutSt.reset with starts := [5], armed := true } with time := { (nutRig 0).time with now := 15 } }; (s.runs 10 .nut = true) ∧ (((s.nutSt c).starts = [t] ∧ t + 10 ≤ s.time.now ∧ (s.nutSt c).plock = none ∧ (s.nutSt c).clkAt ≤ s.time.now ∧ (s.nutSt c).armed = true ∧ (s.nutSt c).stopped = false ∧ s.flag (NUT_CTRL_EN c) = true ∧ s.flag (NUT_CFG_CNTRST c) = false)) ∧ (∀ k : Fin 32, k ≠ c → (s.nutSt k).starts = [])) ∧
    (let c : Fin 32 := 3; let w : Nat := 0x6000; let s : State := (nutBusy 0x6000 false).setReg (NUT_WDOG 3) 0x1F0005#32; ((s.runs 10 .nut = true ∧ s.nutFresh c = true)) ∧ ((s.fld (NUT_WDOG_LIMIT c) ≠ 0 ∧ (s.nutSt c).ip = some (w, false, false) ∧ w / 4096 = 6))) := by
  refine ⟨?_, ?_, ?_, ?_, ?_, ?_, ?_, ?_, ?_, ?_, ?_, ?_, ?_, ?_, ?_, ?_, ?_⟩ <;> decide +kernel

/-- The hypotheses of CellRegisterCommands hold together. -/
theorem hyps_CellRegisterCommands :
    (let m : Master := .core 0; let c : Fin 32 := 3; let s : State := nutRig 0; (s.grantsF m (NUT_CTRL_SWSTART c) 1 = true) ∧ ((s.runs 10 .nut = true ∧ s.nutFresh c = true)) ∧ ((s.flag (NUT_CTRL_EN c) = true ∧ (s.nutSt c).stopped = false ∧ (s.nutSt c).armed = false ∧ (s.nutSt c).ip = none ∧ (s.nutSt c).pend = false))) ∧
    (let m : Master := .core 0; let c : Fin 32 := 3; let s : State := (nutRig 0).setNut 3 { NutSt.reset with pend := true }; (s.grantsF m (NUT_CTRL_SWSTART c) 1 = true) ∧ ((s.runs 10 .nut = true ∧ s.nutFresh c = true)) ∧ ((s.flag (NUT_CTRL_EN c) = true ∧ (s.nutSt c).stopped = false ∧ (s.nutSt c).armed = false ∧ (s.nutSt c).ip = none ∧ (s.nutSt c).pend = true))) ∧
    (let m : Master := .core 0; let c : Fin 32 := 3; let v : Word := 1; let s : State := rig; (s.grants m (NUT_CTRL c) v = true) ∧ ((s.runs 10 .nut = true ∧ s.nutFresh c = true)) ∧ ((bits v 3 0 = 1 ∧ s.flag (NUT_CTRL_EN c) = false ∧ s.flag (NUT_CFG_CNTRST c) = false))) ∧
    (let m : Master := .core 0; let c : Fin 32 := 3; let v : Word := 3; let s : State := rig; (s.grants m (NUT_CTRL c) v = true) ∧ ((s.runs 10 .nut = true ∧ s.nutFresh c = true)) ∧ ((bits v 3 0 = 3 ∧ s.flag (NUT_CTRL_EN c) = false))) ∧
    (let m : Master := .core 0; let c : Fin 32 := 3; let v : Word := 0; let s : State := nutBusy 0x7001 false; (s.grants m (NUT_CTRL c) v = true) ∧ ((s.runs 10 .nut = true ∧ s.nutFresh c = true)) ∧ ((bits v 3 0 = 0 ∧ s.flag (NUT_CTRL_EN c) = true))) ∧
    (let m : Master := .core 0; let c : Fin 32 := 3; let s : State := (nutRig 0).setNut 3 { NutSt.reset with txq := [1], rxq := [2] }; (s.grantsF m (NUT_CTRL_QCLR c) 1 = true) ∧ ((s.runs 10 .nut = true ∧ s.nutFresh c = true)) ∧ ((s.nutSt c).ip = none)) ∧
    (let m : Master := .core 0; let c : Fin 32 := 3; let v : Word := 0x19005#32; let w : Nat := 0x7001; let s : State := nutBusy 0x7001 false; (s.grants m (NUT_INJ c) v = true) ∧ ((s.runs 10 .nut = true ∧ s.nutFresh c = true)) ∧ (((s.nutSt c).inj = none ∧ (s.nutSt c).ip = some (w, false, false)))) ∧
    (let m : Master := .core 0; let c : Fin 32 := 3; let v : Word := 0x9005#32; let s : State := rig.setNut 3 { NutSt.reset with inj := some 0 }; (s.grants m (NUT_INJ c) v = true) ∧ ((s.runs 10 .nut = true ∧ s.nutFresh c = true)) ∧ ((s.nutSt c).inj ≠ none)) ∧
    (let c : Fin 32 := 3; let w : Nat := 0x9123; let s : State := rig.setNut 3 { NutSt.reset with inj := some 0x9123 }; ((s.runs 10 .nut = true ∧ s.nutFresh c = true)) ∧ (((s.nutSt c).inj = some w ∧ (s.nutSt c).ip = none ∧ (s.nutSt c).stopped = false ∧ w / 4096 = 9))) ∧
    (let c : Fin 32 := 3; let w : Nat := 0xA007; let s : State := rig.setNut 3 { NutSt.reset with inj := some 0xA007 }; ((s.runs 10 .nut = true ∧ s.nutFresh c = true)) ∧ (((s.nutSt c).inj = some w ∧ (s.nutSt c).ip = none ∧ (s.nutSt c).stopped = false ∧ w / 4096 = 10)) ∧ ((s.flag (NUT_CTRL_EN c) = false ∧ s.flag (NUT_CFG_CNTRST c) = false))) ∧
    (let m : Master := .core 0; let c : Fin 32 := 3; let v : Word := 77; let s : State := rig.setNut 3 { NutSt.reset with txq := [1, 2, 3] }; (s.grants m (NUT_TXQ c) v = true) ∧ ((s.runs 10 .nut = true ∧ s.nutFresh c = true)) ∧ ((s.nutSt c).txq.length < s.txCap c)) ∧
    (let m : Master := .core 0; let c : Fin 32 := 3; let v : Word := 77; let s : State := rig.setNut 3 { NutSt.reset with txq := [1, 2, 3, 4] }; (s.grants m (NUT_TXQ c) v = true) ∧ ((s.runs 10 .nut = true ∧ s.nutFresh c = true)) ∧ (s.txCap c ≤ (s.nutSt c).txq.length)) ∧
    (let m : Master := .host; let c : Fin 32 := 3; let v : Word := 9; let l : List Word := [8]; let s : State := rig.setNut 3 { NutSt.reset with rxq := [9, 8] }; (s.reads m (NUT_RXQ c) = true) ∧ ((s.runs 10 .nut = true ∧ s.nutFresh c = true)) ∧ ((s.nutSt c).rxq = v :: l)) ∧
    (let m : Master := .host; let c : Fin 32 := 3; let s : State := rig; (s.reads m (NUT_RXQ c) = true) ∧ ((s.runs 10 .nut = true ∧ s.nutFresh c = true)) ∧ ((s.nutSt c).rxq = [])) ∧
    (let m : Master := .host; let c : Fin 32 := 3; let s : State := rig.setReg (NUT_POS 3) 0x55#32; (s.reads m (NUT_POS c) = true) ∧ ((s.runs 10 .nut = true ∧ s.nutFresh c = true))) ∧
    (let m : Master := .core 0; let c : Fin 32 := 4; let v : Word := 0x10000#32; let s : State := rig.setNut 5 { NutSt.reset with txq := [1, 2, 3, 4] }; (s.grants m (NUT_CFG c) v = true) ∧ ((s.runs 10 .nut = true ∧ s.nutFresh c = true)) ∧ ((c.val % 2 = 0 ∧ bits v 17 16 ≠ s.fld (NUT_CFG_JOIN c))) ∧ ((s.flag (NUT_CTRL_EN c) = false ∧ s.flag (NUT_CTRL_EN (c + 1)) = false))) ∧
    (let m : Master := .core 0; let c : Fin 32 := 4; let v : Word := 0x10000#32; let s : State := rig.setFlag (NUT_CTRL_EN 4) true; (s.grants m (NUT_CFG c) v = true) ∧ ((s.runs 10 .nut = true ∧ s.nutFresh c = true)) ∧ ((c.val % 2 = 0 ∧ bits v 17 16 ≠ s.fld (NUT_CFG_JOIN c))) ∧ (s.flag (NUT_CTRL_EN c) = true)) := by
  refine ⟨?_, ?_, ?_, ?_, ?_, ?_, ?_, ?_, ?_, ?_, ?_, ?_, ?_, ?_, ?_, ?_, ?_⟩ <;> decide +kernel

/-- The hypotheses of LoopTriggersAndSets hold together. -/
theorem hyps_LoopTriggersAndSets :
    (let m : Master := .host; let i : Fin 4096 := 4095; let v : Word := 0xFFFFFFFF#32; let s : State := rig; (s.grants m (LOOP_NV i) v = true) ∧ (s.runs 9 .loop = true) ∧ (∀ k : Fin 256, s.flag (LOOP_CTX_CTRL_EN k) = false)) ∧
    (let m : Master := .host; let i : Fin 4096 := 9; let v : Word := 1; let k : Fin 256 := 5; let s : State := ((loopRig.setFld (LOOP_CTX_CFG_TRIG 5) 1).setFld (LOOP_CTX_CFG_TRIGNV 5) 9).setFlag (LOOP_CTX_CFG_PRIO 5) true; (s.grants m (LOOP_NV i) v = true) ∧ (s.runs 9 .loop = true) ∧ (∀ j : Fin 256, j ≠ k → s.flag (LOOP_CTX_CTRL_EN j) = false) ∧ ((s.flag LOOP_CTRL_EN = true ∧ s.flag (LOOP_CTX_CTRL_EN k) = true ∧ s.loopRuns k = true)) ∧ ((s.fld (LOOP_CTX_CFG_TRIG k) = 1 ∧ s.fld (LOOP_CTX_CFG_TRIGNV k) = i.val ∧ s.flag (LOOP_CTX_STAT_PEND k) = false ∧ s.flag (LOOP_CTX_CFG_PRIO k) = true))) ∧
    (let m : Master := .host; let k : Fin 256 := 5; let s : State := loopRig.setReg (LOOP_CTX_CTRL 5) 1; (s.grantsF m (LOOP_CTX_CTRL_SWTRIG k) 1 = true) ∧ (s.runs 9 .loop = true) ∧ ((s.flag LOOP_CTRL_EN = true ∧ s.flag (LOOP_CTX_CTRL_EN k) = true ∧ s.loopRuns k = true)) ∧ ((s.flag (LOOP_CTX_STAT_PEND k) = false ∧ s.flag (LOOP_CTX_CFG_PRIO k) = false))) ∧
    (let m : Master := .host; let k : Fin 256 := 5; let s : State := (loopRig.setReg (LOOP_CTX_CTRL 5) 1).setFlag (LOOP_CTX_STAT_PEND 5) true; (s.grantsF m (LOOP_CTX_CTRL_SWTRIG k) 1 = true) ∧ (s.runs 9 .loop = true) ∧ ((s.flag LOOP_CTRL_EN = true ∧ s.flag (LOOP_CTX_CTRL_EN k) = true ∧ s.loopRuns k = true)) ∧ (s.flag (LOOP_CTX_STAT_PEND k) = true)) ∧
    (let k : Nat := 5; let l : LoopLatch := latch0; let s : State := { loopRig.setCtx 5 { LoopCtx.reset with latch := some latch0 } with loop := { (loopRig.setCtx 5 { LoopCtx.reset with latch := some latch0 }).loop with lo := [5] } }; (s.runs 9 .loop = true) ∧ ((s.loopOn = true ∧ s.loop.run = none ∧ s.trans = none)) ∧ (s.loop.hi ++ s.loop.lo = [k]) ∧ ((s.ctx k).latch = some l) ∧ ((s.fld (LOOP_CTX_TIMING_DEADLINE k) = 0 ∨ s.time.now - l.at_ ≤ s.fld (LOOP_CTX_TIMING_DEADLINE k))) ∧ (s.shadOf (.loop k) = [])) ∧
    (let k : Nat := 5; let l : LoopLatch := latch0; let s : State := let r := (loopRig.setCtx 5 { LoopCtx.reset with latch := some latch0 }).setFld (LOOP_CTX_TIMING_DEADLINE 5) 10; { r with loop := { r.loop with lo := [5] }, time := { r.time with now := 11 } }; (s.runs 9 .loop = true) ∧ ((s.loopOn = true ∧ s.loop.run = none ∧ s.trans = none)) ∧ (s.loop.hi ++ s.loop.lo = [k]) ∧ ((s.ctx k).latch = some l) ∧ ((s.fld (LOOP_CTX_TIMING_DEADLINE k) ≠ 0 ∧ s.fld (LOOP_CTX_TIMING_DEADLINE k) < s.time.now - l.at_)) ∧ (s.fld (LOOP_CTX_TIMING_SKIPLIM k) = 0)) ∧
    (let k : Fin 256 := 5; let l : LoopLatch := latch0; let s : State := let r := (loopRig.setShad (LOOP_COEF 5 9) 0x01400000#32).setCtx 5 { LoopCtx.reset with latch := some latch0 }; { r with loop := { r.loop with lo := [5] } }; (s.runs 9 .loop = true) ∧ ((s.loopOn = true ∧ s.loop.run = none ∧ s.trans = none ∧ s.noTxn = true)) ∧ (s.loop.hi ++ s.loop.lo = [k.val]) ∧ (((s.ctx k).latch = some l ∧ s.fld (LOOP_CTX_TIMING_DEADLINE k) = 0)) ∧ ((s.shadOf (.loop k) ≠ [] ∧ s.unitEligible (.loop k) = true ∧ s.flag (LOOP_CTX_STAT_SYNCING k) = false ∧ s.fld (LOOP_CTX_STAT_BANK k) ≤ 1)) ∧ ((s.loopBad (fun a => s.candFor [.loop k] [] a) k = none))) ∧
    (let k : Fin 256 := 5; let s : State := (loopRig.setFlag (LOOP_CTX_STAT_SYNCING 5) true).setMem32 (coefMem (LOOP_COEF 5 255) 0) 0x77; (s.runs 9 .loop = true) ∧ (s.flag (LOOP_CTX_STAT_SYNCING k) = true) ∧ (∀ i : Fin 256, s.shad (LOOP_COEF k i) = none)) ∧
    (let m : Master := .host; let k : Fin 256 := 6; let s : State := loopRig.setReg (LOOP_STATE 6 67) 5; (s.grantsF m (LOOP_CTX_CTRL_STCLR k) 1 = true) ∧ (s.runs 9 .loop = true) ∧ (s.flag (LOOP_CTX_CTRL_EN k) = false)) ∧
    (let m : Master := .host; let k : Fin 256 := 6; let v : Word := 1; let s : State := loopRig; (s.grants m (LOOP_CTX_CTRL k) v = true) ∧ (s.runs 9 .loop = true) ∧ ((bits v 3 0 = 1 ∧ s.flag (LOOP_CTX_CTRL_EN k) = false))) ∧
    (let m : Master := .host; let k : Fin 256 := 5; let v : Word := 0; let s : State := { loopRig with loop := { loopRig.loop with lo := [5, 7] } }; (s.grants m (LOOP_CTX_CTRL k) v = true) ∧ (s.runs 9 .loop = true) ∧ ((bits v 3 0 = 0 ∧ s.flag (LOOP_CTX_CTRL_EN k) = true)) ∧ (s.shadOf (.loop k) = [])) ∧
    (let m : Master := .host; let k : Fin 256 := 5; let i : Fin 256 := 17; let v : Word := 0x12345678#32; let s : State := loopRig; (s.grants m (LOOP_COEF k i) v = true) ∧ (s.runs 9 .loop = true) ∧ ((s.noTxn = true ∧ (m = .host ∨ m = .jtag) ∧ s.flag (LOOP_CTX_CTRL_EN k) = true)) ∧ (((s.sgServe 11).2 = true ∧ s.ecc = [] ∧ (coefLock (LOOP_COEF k i) = 0 ∨ s.rwlLocked = false)))) ∧
    (let m : Master := .core 0; let a : Word := 0x20B01404#32; let v : BitVec 64 := 7; let s : State := loopRig; ((0x20B00000 ≤ a.toNat ∧ a.toNat < 0x20B80000 ∧ a.toNat % 4 = 0)) ∧ ((memReach m a.toNat = true ∧ isCore m = true ∧ s.bridgeDenied m a.toNat true = false)) ∧ ((a.toNat - 0x20B00000) / 0x40000 = s.coefBank (0x41300000 + (a.toNat - 0x20B00000) % 0x40000)) ∧ ((s.sgServe 11).2 = true)) ∧
    (let m : Master := .core 0; let k : Fin 256 := 5; let i : Fin 256 := 1; let a : Word := 0x20B41404#32; let v : BitVec 64 := 0x0F0000000000007#64; let s : State := loopRig; ((a.toNat = coefMem (LOOP_COEF k i) (1 - s.coefBank (LOOP_COEF k i)) ∧ s.coefBank (LOOP_COEF k i) ≤ 1)) ∧ ((memReach m a.toNat = true ∧ isCore m = true ∧ s.bridgeDenied m a.toNat true = false)) ∧ ((s.noTxn = true ∧ s.flag (LOOP_CTX_CTRL_EN k) = true)) ∧ (((s.sgServe 11).2 = true ∧ s.ecc = [] ∧ (coefLock (LOOP_COEF k i) = 0 ∨ s.rwlLocked = false)))) ∧
    (let m : Master := .host; let v : Word := 0x501#32; let s : State := (loopRig.setFld BUF_SWCELLS_UNITS 8).setFld LOOP_CAP_LEN_LEN 16; (s.grants m LOOP_CAP_CTRL (v ||| 1#32) = true) ∧ (s.runs 9 .loop = true) ∧ (s.flag LOOP_CAP_CTRL_EN = false) ∧ (s.fld LOOP_CAP_BASE_BASE + (s.capLen * 16 + 255) / 256 ≤ s.fld BUF_SWCELLS_UNITS * 1024) ∧ (s.retiredIn (s.fld LOOP_CAP_BASE_BASE) (s.fld LOOP_CAP_BASE_BASE + (s.capLen * 16 + 255) / 256) = false)) ∧
    (let m : Master := .host; let v : Word := 0x501#32; let s : State := loopRig.setFld LOOP_CAP_BASE_BASE 0xFFFF; (s.grants m LOOP_CAP_CTRL (v ||| 1#32) = true) ∧ (s.runs 9 .loop = true) ∧ (s.flag LOOP_CAP_CTRL_EN = false) ∧ (s.fld BUF_SWCELLS_UNITS * 1024 < s.fld LOOP_CAP_BASE_BASE + (s.capLen * 16 + 255) / 256)) ∧
    (let b : Nat := 1; let p0 : Nat := 9; let s : State := { loopRig with saf := { loopRig.saf with bt := some (1, 1, 9) } }; (s.runs 9 .loop = true) ∧ (s.saf.bt = some (b, 1, p0))) := by
  refine ⟨?_, ?_, ?_, ?_, ?_, ?_, ?_, ?_, ?_, ?_, ?_, ?_, ?_, ?_, ?_, ?_, ?_⟩ <;> decide +kernel

/-- The hypotheses of LoopEvaluation hold together. -/
theorem hyps_LoopEvaluation :
    (let k : Fin 256 := 5; let l : LoopLatch := latch0; let w : Nat := 0x180025; let s : State := { (((((loopRig.setFld (LOOP_CTX_CFG_MANSTG 5) 7).setReg (LOOP_CTX_MANOUT 5) 0x05400000#32).setMem32 (coefMem (LOOP_COEF 5 208) 0) 0x180025).setMem32 (coefMem (LOOP_COEF 5 212) 0) 0x01400000).setMem32 (coefMem (LOOP_COEF 5 220) 0) 12).setFld LOOP_TSG_CTRL_CTX 9 |>.setFld LOOP_CAP_CTRL_CTX 9 with loop := { loopRig.loop with run := some (5, latch0, false) } }; (s.runs 9 .loop = true) ∧ (s.loop.run = some (k.val, l, false)) ∧ ((s.fld (LOOP_CTX_CFG_NSTG k) = 0 ∧ s.fld (LOOP_CTX_CFG_MANSTG k) = 7 ∧ s.flag (LOOP_CTX_CTRL_AUTO k) = false ∧ s.manForced k = false)) ∧ ((w = (s.coefW k 208).toNat ∧ w % 4 = 1 ∧ w.testBit 14 = false ∧ w / 2 ^ 15 % 256 = 0x30)) ∧ ((s.coefW k 228 = 0 ∧ (s.coefW k 209).toNat % 4 = 0 ∧ (s.coefW k 210).toNat % 4 = 0 ∧ (s.coefW k 211).toNat % 4 = 0)) ∧ ((s.fld LOOP_TSG_CTRL_CTX ≠ k.val ∧ s.fld LOOP_CAP_CTRL_CTX ≠ k.val ∧ s.loop.safe = false ∧ s.ecc = [])) ∧ (∀ j : Fin 256, s.flag (LOOP_CTX_CTRL_EN j) = true → s.fld (LOOP_CTX_CFG_TRIG j) = 0)) ∧
    (let e : LEnv := pidEnv; let o : Nat := 16; let st : Nat → Machine.Num := fun _ => Machine.Num.zero; let u : Machine.Num := coefNum 0x03400000#32; let fb : Machine.Num := Machine.Num.zero; let fresh : Bool := false; ((e.w o % 8 = 1 ∧ (e.c (o + 5)).v.le (e.c (o + 6)).v = true ∧ (e.c (o + 7)).v.le (e.c (o + 8)).v = true))) ∧
    (let e : LEnv := pidEnv; let o : Nat := 16; let st : Nat → Machine.Num := fun _ => Machine.Num.zero; let u : Machine.Num := coefNum 0x03400000#32; let fb : Machine.Num := Machine.Num.zero; let p : Machine.Num := (pidEnv.c 17).mul (coefNum 0x03400000#32); let di : Machine.Num := (pidEnv.c 18).mul (coefNum 0x03400000#32); let df : Machine.Num := sumN [Machine.Num.zero, (pidEnv.c 20).mul (sumN [(pidEnv.c 19).mul (sumExact [coefNum 0x03400000#32, Machine.Num.zero.neg]).sig, Machine.Num.zero.neg]).sig]; let ff : Machine.Num := pidEnv.op (pidEnv.w 25 % 256); let yu : Machine.Num := sumN [(pidEnv.c 17).mul (coefNum 0x03400000#32), Machine.Num.zero, (pidEnv.c 18).mul (coefNum 0x03400000#32), sumN [Machine.Num.zero, (pidEnv.c 20).mul (sumN [(pidEnv.c 19).mul (sumExact [coefNum 0x03400000#32, Machine.Num.zero.neg]).sig, Machine.Num.zero.neg]).sig], pidEnv.op (pidEnv.w 25 % 256)]; let fresh : Bool := false; ((e.w o % 8 = 1 ∧ (e.w o).testBit 28 = false ∧ (e.w o).testBit 27 = false)) ∧ ((p = (e.c (o + 1)).mul u ∧ di = (e.c (o + 2)).mul u ∧ ff = e.op (e.w (o + 9) % 256))) ∧ (df = sumN [st 1, (e.c (o + 4)).mul (sumN [(e.c (o + 3)).mul (sumExact [u, (st 2).neg]).sig, (st 1).neg]).sig]) ∧ (yu = sumN [p, st 0, di, df, ff])) ∧
    (let e : LEnv := pidEnv; let o : Nat := 16; let st : Nat → Machine.Num := fun _ => Machine.Num.zero; ((e.c (o + 5)).v.le (e.c (o + 6)).v = true)) ∧
    (let e : LEnv := camEnv; let o : Nat := 16; let phi : Nat := 0x12345678; let st : Nat → Machine.Num := fun _ => Machine.Num.zero; let u : Machine.Num := coefNum 0x03400000#32; let fb : Machine.Num := Machine.Num.zero; let y0 : Machine.Num := coefNum 0; let y1 : Machine.Num := coefNum 0x01400000#32; let y2 : Machine.Num := coefNum 0; let y3 : Machine.Num := coefNum 0; let t : Q := ⟨0x45678, 0x100000⟩; let fresh : Bool := false; ((e.w o % 8 = 2 ∧ (e.w (o + 1)).testBit 6 = false)) ∧ ((phi = (e.src 0x1040 % 2 ^ 32 * (e.w (o + 1) / 2 ^ 16) + e.w (o + 2)) % 2 ^ 32 ∧ t = ⟨((phi % 2 ^ 20 : Nat) : Int), 2 ^ 20⟩)) ∧ ((y0 = e.tab (0x20900000 + e.w (o + 1) % 64 * 0x4000 + 4 * ((phi / 2 ^ 20 + 4095) % 4096)) ∧ y1 = e.tab (0x20900000 + e.w (o + 1) % 64 * 0x4000 + 4 * (phi / 2 ^ 20)))) ∧ ((y2 = e.tab (0x20900000 + e.w (o + 1) % 64 * 0x4000 + 4 * ((phi / 2 ^ 20 + 1) % 4096)) ∧ y3 = e.tab (0x20900000 + e.w (o + 1) % 64 * 0x4000 + 4 * ((phi / 2 ^ 20 + 2) % 4096))))) ∧
    (let e : LEnv := wEnv 16 (3 + 2 ^ 27); let o : Nat := 16; let st : Nat → Machine.Num := fun _ => Machine.Num.zero; let u : Machine.Num := coefNum 0x03400000#32; let fb : Machine.Num := Machine.Num.zero; let fresh : Bool := true; (e.w o % 8 = 3)) ∧
    (let e : LEnv := wEnv 16 4; let o : Nat := 16; let st : Nat → Machine.Num := fun _ => Machine.Num.zero; let u : Machine.Num := coefNum 0x03400000#32; let fb : Machine.Num := Machine.Num.zero; let y : Machine.Num := sumN [((wEnv 16 4).c 17).mul (coefNum 0x03400000#32), ((wEnv 16 4).c 18).mul Machine.Num.zero, ((wEnv 16 4).c 19).mul Machine.Num.zero, (((wEnv 16 4).c 20).mul Machine.Num.zero).neg, (((wEnv 16 4).c 21).mul Machine.Num.zero).neg]; let fresh : Bool := false; (e.w o % 8 = 4) ∧ (y = sumN [(e.c (o + 1)).mul u, (e.c (o + 2)).mul (st 0), (e.c (o + 3)).mul (st 1), ((e.c (o + 4)).mul (st 2)).neg, ((e.c (o + 5)).mul (st 3)).neg])) ∧
    (let e : LEnv := wEnv 16 6; let o : Nat := 16; let st : Nat → Machine.Num := fun _ => Machine.Num.zero; let u : Machine.Num := coefNum 0x03400000#32; let fb : Machine.Num := Machine.Num.zero; let fresh : Bool := false; ((e.w o % 8 = 6 ∧ (e.c (o + 11)).v.le (e.c (o + 12)).v = true))) ∧
    (let e : LEnv := rampEnv; let o : Nat := 16; let st : Nat → Machine.Num := fun j => if j = 0 ∨ j = 3 then intNum 4 else Machine.Num.zero; let u : Machine.Num := intNum 4; let fb : Machine.Num := Machine.Num.zero; let fresh : Bool := false; ((e.w o % 8 = 5 ∧ (e.w o).testBit 27 = false)) ∧ ((u.v = (st 0).v ∧ u.v = (st 3).v ∧ (st 1).v.n = 0 ∧ (st 2).v.n = 0 ∧ 0 ≤ (e.c (o + 1)).v.n ∧ 0 ≤ (e.c (o + 2)).v.n ∧ 0 < (e.c (o + 3)).v.n ∧ 0 < (e.c (o + 4)).v.n ∧ u.v.d = 1 ∧ (st 0).e ≤ 31))) ∧
    (let k : Fin 256 := 5; let l : LoopLatch := latch0; let w : Nat := 0x180025; let st : Nat := 0; let s : State := { ((((((loopRig.setFld (LOOP_CTX_CFG_NSTG 5) 1).setFlag (LOOP_CTX_CTRL_AUTO 5) true).setMem32 (coefMem (LOOP_COEF 5 16) 0) 3).setMem32 (coefMem (LOOP_COEF 5 18) 0) 0x03400000).setMem32 (coefMem (LOOP_COEF 5 208) 0) 0x180025).setMem32 (coefMem (LOOP_COEF 5 212) 0) 0x01400000).setMem32 (coefMem (LOOP_COEF 5 220) 0) 12 |>.setFld LOOP_TSG_CTRL_CTX 9 |>.setFld LOOP_CAP_CTRL_CTX 9 with loop := { loopRig.loop with run := some (5, latch0, false) } }; (s.runs 9 .loop = true) ∧ (s.loop.run = some (k.val, l, false)) ∧ ((s.fld (LOOP_CTX_CFG_NSTG k) = 1 ∧ s.flag (LOOP_CTX_CTRL_AUTO k) = true ∧ s.manForced k = false ∧ (s.ctx k).man = none)) ∧ ((w = (s.coefW k 208).toNat ∧ w % 4 = 1 ∧ w.testBit 14 = false ∧ w / 2 ^ 15 % 256 = 0x30)) ∧ ((s.coefW k 228 = 0 ∧ (s.coefW k 209).toNat % 4 = 0 ∧ (s.coefW k 210).toNat % 4 = 0 ∧ (s.coefW k 211).toNat % 4 = 0)) ∧ ((s.fld LOOP_TSG_CTRL_CTX ≠ k.val ∧ s.fld LOOP_CAP_CTRL_CTX ≠ k.val ∧ s.loop.safe = false ∧ s.ecc = [])) ∧ (∀ j : Fin 256, s.flag (LOOP_CTX_CTRL_EN j) = true → s.fld (LOOP_CTX_CFG_TRIG j) = 0)) := by
  refine ⟨?_, ?_, ?_, ?_, ?_, ?_, ?_, ?_, ?_, ?_⟩ <;> decide +kernel

/-- The hypotheses of LoopNumbers hold together. -/
theorem hyps_LoopNumbers :
    (let w : Word := 0x20800000#32; (¬ (bits w 23 0 = 0x800000 ∧ bits w 29 24 = 31))) ∧
    (let w : Word := 0x1F7FFFFF#32; let a : Word := 0x00800000#32; let b : Word := 0x00400000#32; ((coefNum a).v.le (coefNum b).v = true)) ∧
    (let n : Int := 1; let d : Nat := 3; ((0 < d ∧ n ≠ 0 ∧ (toCoef ⟨n, d⟩).2 = false))) := by
  refine ⟨?_, ?_, ?_⟩ <;> decide +kernel

/-- The hypotheses of SaffronReactions hold together. -/
theorem hyps_SaffronReactions :
    (let s : State := (safRig []).setReg SAF_OUTPUTS 3; ((s.saf.latched = false ∧ s.saf.bt = none ∧ s.asleep = false ∧ s.pwr.vote = none))) ∧
    (let s : State := safRig []; ((s.saf.bt = none ∧ s.cycRecord 0 = s.cycRecord 1))) ∧
    (let r : SafRec := .differ; let s : State := { (safRig []).setReg SAF_OUTPUTS 3 with saf := { (safRig []).saf with differ := true } }; ((r = .differ ∨ (r = .same ∧ s.cycRecord 0 ≠ s.cycRecord 1))) ∧ ((s.saf.differ = true ∧ s.saf.latched = false ∧ s.saf.bt = none ∧ s.asleep = false ∧ s.pwr.vote = none))) ∧
    (let s : State := safRig []; ((s.saf.bt = none ∧ s.saf.differ = false))) ∧
    (let s : State := { safRig [] with saf := { (safRig []).saf with differ := true } }; ((s.saf.latched = false ∧ s.saf.bt = none ∧ s.asleep = false ∧ s.pwr.vote = none ∧ s.saf.differ = true))) ∧
    (let s : State := (safRig []).setReg SAF_OUTPUTS 15; ((s.saf.latched = false ∧ s.saf.bt = none ∧ s.asleep = false ∧ s.pwr.vote = none))) ∧
    (let ch : Fin 2 := 1; let s : State := (safRig []).setReg SAF_OUTPUTS 15; ((s.saf.latched = false ∧ s.saf.bt = none ∧ s.asleep = false ∧ s.pwr.vote = none))) ∧
    (let s : State := { (safRig []).setReg SAF_REASON 1 with saf := { (safRig []).saf with latched := true } }; (s.saf.latched = true)) ∧
    (let o : Fin 4 := 3; let s : State := (safRig []).setReg SAF_OUTPUTS 0x8F#32; (s.delayOn o = true)) ∧
    (let i : Fin 8 := 2; let s : State := safSee (safRig [(0xC, 4), (0x20, 1)]) 0x30 0x10 []; ((∀ ch : Fin 2, s.pairMode ch i = 1 ∧ (s.safView ch).st i = 1)) ∧ ((s.demand i = true ∧ s.saf.latched = false ∧ s.saf.bt = none ∧ s.asleep = false ∧ s.pwr.vote = none))) ∧
    (let i : Fin 8 := 2; let s : State := safRig [(0xC, 4), (0x20, 1)]; ((∀ ch : Fin 2, s.pairMode ch i = 1 ∧ (s.safView ch).st i = 0 ∧ i.val ∉ (s.safView ch).timers)) ∧ (s.saf.latched = false)) ∧
    (let i : Fin 8 := 7; let s : State := safRig [(0x48, 1)]; ((∀ ch : Fin 2, s.pairMode ch i = 1 ∧ (s.safView ch).st i = 0 ∧ i.val ∉ (s.safView ch).timers))) ∧
    (let i : Fin 8 := 7; let c1 : Bool := true; let c2 : Bool := true; let s : State := let x := safSee (safRig [(0x48, 1)]) 0x4000 0x8000 [7]; { x with saf := { x.saf with latched := true } }; ((s.pairMode 1 i = 1 ∧ (s.safView 1).st i = 2)) ∧ ((c1 = true ∨ c2 = true))) ∧
    (let i : Fin 8 := 7; let s : State := safSee (safRig [(0x48, 1)]) 0x4000 0x8000 [7]; ((s.demand i = false ∧ ∀ ch : Fin 2, i.val ∈ (s.safView ch).timers))) ∧
    (let i : Fin 8 := 2; let s : State := safSee (safRig [(0x20, 1)]) 0 0x30 []; ((∀ ch : Fin 2, (s.safView ch).st i = 3 ∧ atClosed (s.pairMode ch i) (s.safView ch).contacts i = (false, false)))) ∧
    (let i : Fin 8 := 2; let s : State := safRig [(0xC, 4), (0x20, 1), (0x24, 1)]; ((s.sp (pairO i) 1 ≠ 0 ∧ s.sp (pairO i + 4) 1 = 1 ∧ s.demand i = true)) ∧ ((s.saf.latched = false ∧ s.saf.bt = none ∧ s.asleep = false ∧ s.pwr.vote = none))) ∧
    (let f : Fin 4 := 3; let lvl : Bool := true; let o : Nat := 1; let s : State := (safRig [(0x5A, 3)]).setReg SAF_OUTPUTS 2; (s.fbOwner f = some o) ∧ (lvl = s.outOn o) ∧ ((s.saf.latched = false ∧ s.saf.bt = none ∧ s.asleep = false ∧ s.pwr.vote = none ∧ o < 4))) ∧
    (let f : Fin 4 := 3; let lvl : Bool := false; let o : Nat := 1; let s : State := (safRig [(0x5A, 3)]).setReg SAF_OUTPUTS 2; (s.fbOwner f = some o) ∧ ((lvl ≠ s.outOn o ∧ o < 4))) ∧
    (let o : Fin 4 := 1; let s : State := (safRig [(0x5B, 3)]).setReg SAF_OUTPUTS 2; ((o.val < 2 ∧ s.outOn o = true ∧ s.sp (outO o + 3) 1 ≠ 0)) ∧ ((s.saf.latched = false ∧ s.saf.bt = none ∧ s.asleep = false ∧ s.pwr.vote = none))) ∧
    (let o : Fin 4 := 1; let s : State := (safRig [(0x5B, 3)]).setReg SAF_OUTPUTS 2; ((o.val < 2 ∧ s.outOn o = true ∧ s.sp (outO o + 3) 1 ≠ 0))) ∧
    (let o : Fin 4 := 3; let s : State := { rigIn modeOPERATIONAL with saf := { (safRig []).saf with relWait := [0, 1] } }; ((2 ≤ o.val ∧ o.val - 2 ∈ s.saf.relWait ∧ s.swTests o < 2))) ∧
    (let o : Fin 4 := 1; let p : Bool := false; let s : State := safRig []; ((o.val < 2 ∧ s.outOn o = false))) ∧
    (let b : Fin 2 := 1; let s : State := { rigIn modeOPERATIONAL with saf := { (safRig []).saf with relWait := [0, 1], turn := [(3, 2)] } }; ((b.val ∈ s.saf.relWait ∧ s.swTests (2 + b) = 2 ∧ s.mode = modeOPERATIONAL ∧ s.saf.latched = false))) := by
  refine ⟨?_, ?_, ?_, ?_, ?_, ?_, ?_, ?_, ?_, ?_, ?_, ?_, ?_, ?_, ?_, ?_, ?_, ?_, ?_, ?_, ?_, ?_, ?_⟩ <;> decide +kernel

/-- The hypotheses of SafetyConnectionsAndBrakes hold together. -/
theorem hyps_SafetyConnectionsAndBrakes :
    (let k : Fin 16 := 1; let s : State := safRig [(0xC0, 1)]; ((s.role k = 1 ∧ s.asleep = false ∧ s.sp (connO k + 2) 1 % 4 = 0))) ∧
    (let k : Fin 16 := 1; let s : State := safRig [(0xC0, 1)]; ((s.role k = 1 ∧ s.asleep = false ∧ s.pwr.vote = none ∧ s.saf.latched = false ∧ s.saf.bt = none))) ∧
    (let k : Fin 16 := 1; let agree : Bool := true; let s : State := safRig []; ((s.role k ≠ 1 ∧ s.role k ≠ 3))) ∧
    (let k : Fin 16 := 1; let agree : Bool := true; let s : State := safRig [(0xC0, 3)]; ((s.role k = 3 ∧ s.asleep = false))) ∧
    (let f : List Byte := rxFrame; let src : Nat := 2; let l : List (List Byte × Nat) := []; let s : State := { safRig [] with saf := { (safRig []).saf with rx := [(rxFrame, 2)] } }; (s.saf.rx = (f, src) :: l) ∧ (be f (typePos f) 2 ≠ s.sp 4 2)) ∧
    (let f : List Byte := pduFrm; let p : List Byte := (noFcs pduFrm).drop 14; let src : Nat := 2; let l : List (List Byte × Nat) := []; let s : State := { safRig [] with saf := { (safRig []).saf with rx := [(pduFrm, 2)] } }; (s.saf.rx = (f, src) :: l) ∧ ((be f (typePos f) 2 = s.sp 4 2 ∧ s.saf.halt = false ∧ p = (noFcs f).drop (typePos f + 2))) ∧ ((be p 0 1 = 0x10 ∧ 20 + pduLen p ≤ p.length ∧ (crcF (p.take (16 + pduLen p))).toNat = be p (16 + pduLen p) 4)) ∧ (s.connOf (be p 4 4) 2 = none)) ∧
    (let k : Fin 16 := 1; let q : Nat := 5; let path : Nat := 0; let t : Nat := 0; let p : List Byte := []; let l : List (Nat × Nat × List Byte × Nat) := []; let s : State := ((safRig [(0xC0, 2)]).setFld (SAF_CONN_STAT_STATE 1) 3).setConn 1 { SafConn.reset with held := [(5, 0, [], 0)] }; ((s.connSt k = 3 ∧ s.saf.halt = false ∧ (s.safConn k).held = (q, path, p, t) :: l)) ∧ ((s.pathDown k (1 - path) = false ∧ s.demand (8 + k) = false))) ∧
    (let k : Fin 16 := 1; let s : State := (safRig [(0xC0, 2), (0xD, 2)]).setFld (SAF_CONN_STAT_STATE 1) 2; (((s.connSt k = 2 ∨ s.connSt k = 3) ∧ s.demand (8 + k) = true)) ∧ ((s.saf.halt = false ∧ s.saf.latched = false ∧ s.saf.bt = none ∧ s.asleep = false ∧ s.pwr.vote = none))) ∧
    (let b : Nat := 1; let p0 : Nat := 9; let s : State := { safRig [] with saf := { (safRig []).saf with bt := some (1, 0, 9) } }; (s.saf.bt = some (b, 0, p0))) ∧
    (let b : Nat := 1; let p0 : Nat := 9; let s : State := { safRig [] with saf := { (safRig []).saf with bt := some (1, 1, 9) } }; (s.saf.bt = some (b, 1, p0))) ∧
    (let b : Nat := 1; let p0 : Nat := 9; let s : State := { safRig [] with saf := { (safRig []).saf with bt := some (1, 2, 9) } }; ((s.saf.bt = some (b, 2, p0) ∧ b < 2))) ∧
    (let b : Fin 2 := 1; let s : State := safRig []; (s.sp 8 2 = 0)) ∧
    (let b : Fin 2 := 1; let s : State := (safRig [(8, 7)]).setFld (SAF_BTEST_HOURS 1) 7; ((s.sp 8 2 ≠ 0 ∧ s.fld (SAF_BTEST_HOURS b) = s.sp 8 2 ∧ s.sp 8 2 < 65535 ∧ s.mode ≠ modeOPERATIONAL ∧ s.flag SAF_STAT_BTDUE = false))) ∧
    (let ch : Fin 2 := 1; let snd : Fin 2 := 0; let m : List Byte := rxFrame; let s : State := { safRig [] with saf := { (safRig []).saf with held := [(1, 0, rxFrame)] } }; (s.saf.held = [(ch.val, snd.val, m)]) ∧ (s.chanFull (safChan ch snd + 1) = false)) ∧
    (let s : State := safRig []; (s.saf.restart = false)) ∧
    (let s : State := { (safRig []).setFld (SAF_BTEST_HOURS 1) 77 with saf := { (safRig []).saf with restart := true } }; ((s.saf.restart = true ∧ s.saf.bt = none ∧ s.saf.halt = false))) := by
  refine ⟨?_, ?_, ?_, ?_, ?_, ?_, ?_, ?_, ?_, ?_, ?_, ?_, ?_, ?_, ?_, ?_⟩ <;> decide +kernel

/-- The hypotheses of FaultRecords hold together. -/
theorem hyps_FaultRecords :
    (let src : Fin 512 := 96; let info : Word := 7#32; let s : State := rig; ((s.detects src = true ∧ src.val ≠ 353 ∧ src.val ≠ 80 ∧ src.val ≠ 81 ∧ faultWord src info.toNat = none))) ∧
    (let src : Fin 512 := 96; let info : Word := 7#32; let s : State := { rig with fcu := { rig.fcu with cond := [(96, true)] } }; (s.condNow src = true)) ∧
    (let src : Fin 512 := 35; let fault : Bool := true; let info : Word := 7#32; let s : State := rig; ((srcListed src = false ∨ (256 ≤ src.val ∧ src.val < 260) ∨ s.mode = modeOFF))) ∧
    (let src : Fin 512 := 264; let info : Word := 0x200008#32; let a : Nat := 0x20200008; let s : State := rig.setReg MEM_STAT 0xFFF#32; ((s.detects src = true ∧ faultWord src info.toNat = some (a, 2) ∧ s.sgOn (sramBank a / 4) = true ∧ inMram a = false))) ∧
    (let info : Word := 7#32; let s : State := rig; ((s.detects 353 = true ∧ s.spi = false))) ∧
    (let src : Fin 512 := 96; let info : Word := 7#32; let s : State := { rig with fcu := { rig.fcu with cond := [(96, true)] } }; ((srcListed src = true ∧ s.mode ≠ modeOFF ∧ ¬(256 ≤ src.val ∧ src.val < 260)))) ∧
    (let src : Fin 512 := 60; let info : Word := 7#32; let r : Nat := 5; let s : State := (rig.setFld FCU_STAT_NEXT 5).setReg (FCU_SRCCFG 60) 0x12#32; ((s.Calm ∧ s.asleep = false ∧ s.pwr.vote = none ∧ s.fcu.windows = [] ∧ s.flag FCU_STAT_SELF = false)) ∧ ((s.detects src = true ∧ s.pairBad src = false ∧ s.forced src = false ∧ src.val ≠ 353 ∧ src.val ≠ 80 ∧ src.val ≠ 81 ∧ faultWord src info.toNat = none)) ∧ (((s.srcCfg src).1 ≤ 3 ∧ (s.srcCfg src).2 ≤ 1)) ∧ ((r = s.fld FCU_STAT_NEXT ∧ s.recPending r = false)) ∧ (s.fcu.newest.all (fun k => s.fld (FCU_REC_W0_SRC k) != src) = true)) ∧
    (let src : Fin 512 := 96; let info : Word := 7#32; let w : Window := ⟨some 4, 96, 2, 2, [96]⟩; let r : Nat := 4; let s : State := { rig with fcu := { rig.fcu with windows := [⟨some 4, 96, 2, 2, [96]⟩] } }; ((s.Calm ∧ s.asleep = false ∧ s.pwr.vote = none ∧ s.fcu.windows = [w] ∧ s.flag FCU_STAT_SELF = false)) ∧ ((s.detects src = true ∧ s.pairBad src = false ∧ s.forced src = false ∧ src.val ≠ 353 ∧ src.val ≠ 80 ∧ src.val ≠ 81 ∧ faultWord src info.toNat = none)) ∧ ((w.recd = some r ∧ r < 32 ∧ w.own = src))) ∧
    (let src : Fin 512 := 60; let info : Word := 7#32; let w : Window := ⟨some 4, 96, 2, 2, [96]⟩; let r : Nat := 4; let s : State := { (rig.setFld (FCU_REC_W0_CLASS 4) 2) with fcu := { rig.fcu with windows := [⟨some 4, 96, 2, 2, [96]⟩] } }; ((s.Calm ∧ s.asleep = false ∧ s.pwr.vote = none ∧ s.fcu.windows = [w] ∧ s.flag FCU_STAT_SELF = false)) ∧ ((s.detects src = true ∧ s.pairBad src = false ∧ s.forced src = false ∧ src.val ≠ 353 ∧ src.val ≠ 80 ∧ src.val ≠ 81 ∧ faultWord src info.toNat = none)) ∧ ((w.recd = some r ∧ r < 32 ∧ w.own ≠ src ∧ ((s.srcCfg src).1 ≤ s.fld (FCU_REC_W0_CLASS r) ∨ src.val ∈ w.shadow)))) ∧
    (let src : Fin 512 := 60; let info : Word := 7#32; let w : Window := ⟨some 4, 96, 2, 2, [96]⟩; let r : Nat := 4; let s : State := { (((rig.setReg (FCU_SRCCFG 60) 0x13#32).setFld (FCU_REC_W0_CLASS 4) 2).setFld (FCU_REC_W0_REACT 4) 2) with fcu := { rig.fcu with windows := [⟨some 4, 96, 2, 2, [96]⟩] } }; ((s.Calm ∧ s.asleep = false ∧ s.pwr.vote = none ∧ s.fcu.windows = [w] ∧ s.flag FCU_STAT_SELF = false)) ∧ ((s.detects src = true ∧ s.pairBad src = false ∧ s.forced src = false ∧ src.val ≠ 353 ∧ src.val ≠ 80 ∧ src.val ≠ 81 ∧ faultWord src info.toNat = none)) ∧ ((w.recd = some r ∧ r < 32 ∧ w.own ≠ src ∧ s.fld (FCU_REC_W0_CLASS r) < (s.srcCfg src).1 ∧ src.val ∉ w.shadow ∧ (s.raiseCfg src false).2 ≤ s.fld (FCU_REC_W0_REACT r)))) ∧
    (let src : Fin 512 := 104; let info : Word := 7#32; let e : Fin 16 := 2; let s : State := engRig.setReg (FCU_SRCCFG 104) 0x22#32; ((s.Calm ∧ s.asleep = false ∧ s.pwr.vote = none ∧ s.fcu.windows = [] ∧ s.flag FCU_STAT_SELF = false)) ∧ ((s.detects src = true ∧ s.pairBad src = false ∧ s.forced src = false)) ∧ ((src.val = 96 + 4 * e ∧ s.srcCfg src = (2, 2) ∧ s.recPending (s.fld FCU_STAT_NEXT) = false)) ∧ ((∀ t : Fin 4, (s.thr e t).win.isNone = true ∧ (s.rxOf (100 + 4 * e + t)).isNone = true))) := by
  refine ⟨?_, ?_, ?_, ?_, ?_, ?_, ?_, ?_, ?_, ?_, ?_⟩ <;> decide +kernel

/-- The hypotheses of CollectorCommands hold together. -/
theorem hyps_CollectorCommands :
    (let src : Fin 512 := 14; let r : Nat := 0; let s : State := { rig with fcu := { rig.fcu with held := [.eng 1] } }; ((srcListed src = true ∧ s.mode ≠ modeOFF ∧ s.pairBad src = false ∧ s.asleep = false ∧ s.pwr.vote = none ∧ s.fcu.windows = [] ∧ s.flag FCU_STAT_SELF = false)) ∧ (((s.srcCfg src).1 ≤ 3 ∧ (s.srcCfg src).2 ≤ 3 ∧ blkOf src = [] ∧ r = s.fld FCU_STAT_NEXT ∧ s.recPending r = false))) ∧
    (let src : Fin 512 := 40; let s : State := { rig with fcu := { rig.fcu with bad := [(40, true)] } }; ((s.pairBad src = true ∨ srcListed src = false))) ∧
    (let k : Fin 34 := 5; let s : State := rig; (blkNo k ∉ s.fcu.resetting)) ∧
    (let k : Fin 34 := 5; let s : State := { rig with fcu := { rig.fcu with held := [.eng 5], resetting := [.eng 2, .eng 5] } }; ((blkNo k ∈ s.fcu.resetting ∧ blkNo k ∈ s.fcu.held))) ∧
    (let k : Fin 34 := 5; let s : State := { rig with fcu := { rig.fcu with resetting := [.eng 2, .eng 5] } }; ((blkNo k ∈ s.fcu.resetting ∧ blkNo k ∉ s.fcu.held ∧ k.val < 16 ∧ s.flag (ENG_CTRL_RUN k) = false))) ∧
    (let m : Master := .core 0; let r : Fin 32 := 3; let s : State := rig.setFlag (FCU_REC_W2_PENDING 3) true; (s.grantsF m FCU_ACK_REC r = true) ∧ ((s.recPending r = true ∧ s.flag (FCU_REC_W2_ESC r) = false)) ∧ ((s.pairFault (s.fld (FCU_REC_W0_SRC r)) = false ∧ s.bitAt (FCU_WIRE 0) (s.fld (FCU_REC_W0_SRC r)) = false))) ∧
    (let m : Master := .core 0; let r : Fin 32 := 3; let s : State := rig; (s.grantsF m FCU_ACK_REC r = true) ∧ ((s.recPending r = false ∨ s.pairFault (s.fld (FCU_REC_W0_SRC r)) = true ∨ s.bitAt (FCU_WIRE 0) (s.fld (FCU_REC_W0_SRC r)) = true))) ∧
    (let m : Master := .core 0; let j : Fin 16 := 3; let v : Word := 2; let s : State := { rig with fcu := { rig.fcu with cond := [(97, true)] } }; (s.grants m (FCU_FORCE j) v = true) ∧ ((∀ b : Fin 32, v.getLsbD b = true → s.forced (32 * j + b) = true ∨ s.pairFault (32 * j + b) = true ∧ s.flag FCU_CTRL_FORCEWIR = false))) ∧
    (let m : Master := .core 0; let j : Fin 16 := 1; let b : Fin 32 := 31; let r : Nat := 0; let s : State := rig.setReg (FCU_SRCCFG 63) 1#32; (s.grants m (FCU_FORCE j) (w32 (2 ^ b.val)) = true) ∧ ((s.reg (FCU_FORCE j) = 0 ∧ s.flag FCU_CTRL_FORCEWIR = false ∧ s.pairFault (32 * j + b) = false ∧ s.pairBad (32 * j + b) = false)) ∧ ((s.mode ≠ modeOFF ∧ s.asleep = false ∧ s.pwr.vote = none ∧ s.fcu.windows = [] ∧ s.flag FCU_STAT_SELF = false ∧ s.fcu.newest = none)) ∧ (((s.srcCfg (32 * j + b)).1 ≤ 3 ∧ (s.srcCfg (32 * j + b)).2 ≤ 1 ∧ r = s.fld FCU_STAT_NEXT ∧ s.recPending r = false))) ∧
    (let m : Master := .core 0; let i : Fin 512 := 40; let v : Word := 0x31#32; let s : State := rigIn modeCOMMISSION; (s.grants m (FCU_SRCCFG i) v = true) ∧ (((s.mode = modeBOOT ∨ s.mode = modeCOMMISSION) ∧ bits v 2 0 ≤ 4 ∧ bits v 6 4 ≤ 4 ∧ s.flag (FCU_SRCCFG_FIXED i) = false))) ∧
    (let m : Master := .core 0; let i : Fin 512 := 40; let v : Word := 0x31#32; let s : State := rig; (s.grants m (FCU_SRCCFG i) v = true) ∧ (((s.mode ≠ modeBOOT ∧ s.mode ≠ modeCOMMISSION) ∨ 4 < bits v 2 0 ∨ 4 < bits v 6 4))) ∧
    (let m : Master := .core 0; let i : Fin 512 := 336; let v : Word := 0x31#32; let s : State := rigIn modeCOMMISSION; (s.grants m (FCU_SRCCFG i) v = true) ∧ (((s.mode = modeBOOT ∨ s.mode = modeCOMMISSION) ∧ bits v 2 0 ≤ 4 ∧ bits v 6 4 ≤ 4 ∧ s.flag (FCU_SRCCFG_FIXED i) = true))) ∧
    (let m : Master := .core 0; let s : State := rig; (s.grantsF m FCU_CTRL_ARMED 1 = true) ∧ (s.flag FCU_CTRL_ARMED = false) ∧ (s.pendingRecs = []) ∧ ((s.flag FCU_STAT_SELF = false ∧ s.pwr.refOff = false))) ∧
    (let s : State := rig.setFlag FCU_CTRL_ARMED true; ((s.flag FCU_CTRL_ARMED = true ∧ s.aliveStop = false))) ∧
    (let s : State := rig; ((s.flag FCU_CTRL_ARMED = false ∨ s.aliveStop = true))) ∧
    (let off : BitVec 16 := 8; let mismatch : Bool := true; let parity : Bool := false; let s : State := rig.setFlag FCU_CTRL_ARMED true; (s.flag FCU_STAT_SELF = false)) ∧
    (let off : BitVec 16 := 8; let mismatch : Bool := true; let parity : Bool := false; let s : State := rig.setFlag FCU_STAT_SELF true; (s.flag FCU_STAT_SELF = true)) := by
  refine ⟨?_, ?_, ?_, ?_, ?_, ?_, ?_, ?_, ?_, ?_, ?_, ?_, ?_, ?_, ?_, ?_, ?_⟩ <;> decide +kernel

/-- The hypotheses of MemoryErrors hold together. -/
theorem hyps_MemoryErrors :
    (let b : Fin 48 := 2; let a : Nat := 0x20080008; let l : List Nat := [0x20080010]; let s : State := { rig with ecc := [(0x20080008, 1), (0x20080010, 1)], pwr := { rig.pwr with wb := [0x20080008, 0x20080010] } }; (s.pwr.wb = a :: l) ∧ ((sramBank a = b.val ∧ a % 8 = 0))) ∧
    (let b : Fin 48 := 2; let s : State := rig; (s.pwr.wb = [])) ∧
    (let l : List (Fin 48 × Bool) := [(3, true)]; let s : State := rigIn modeRETAIN; (s.asleep = true ∨ s.pwr.vote.any (fun l => l.contains 10) = true ∨ s.flag MEM_CTRL_SCRUBEN = false)) ∧
    (let s : State := rig.setFlag MEM_CTRL_SCRUBEN true; ((s.asleep = false ∧ s.pwr.vote = none ∧ s.flag MEM_CTRL_SCRUBEN = true)) ∧ ((∀ b : Fin 48, s.eccAt (0x20000000 + b * 0x40000 + s.pwr.scrub * 8) = 0))) ∧
    (let b : Fin 48 := 7; let s : State := { (rig.setFlag MEM_CTRL_SCRUBEN true).setReg MEM_STAT 0xFFF#32 with pwr := { rig.pwr with scrub := 5 } }; ((s.asleep = false ∧ s.pwr.vote = none ∧ s.flag MEM_CTRL_SCRUBEN = true ∧ s.sgOn (b / 4) = true ∧ s.ecc = [] ∧ s.pwr.scrub < 32768))) ∧
    (let b : Fin 48 := 7; let s : State := { (rig.setFlag MEM_CTRL_SCRUBEN true).setReg MEM_STAT 0xFFF#32 with pwr := { rig.pwr with scrub := 5 } }; ((s.asleep = false ∧ s.pwr.vote = none ∧ s.flag MEM_CTRL_SCRUBEN = true ∧ s.sgOn (b / 4) = true ∧ s.ecc = [] ∧ s.pwr.scrub < 32768))) ∧
    (let g : Fin 12 := 3; let s : State := rig.setReg MEM_STAT 0x8000#32; (s.sgBusy g = true)) ∧
    (let g : Fin 12 := 3; let s : State := rig.setReg MEM_STAT 0x10000#32; (s.sgBusy g = false)) := by
  refine ⟨?_, ?_, ?_, ?_, ?_, ?_, ?_, ?_⟩ <;> decide +kernel

/-- The hypotheses of LowPowerCommands hold together. -/
theorem hyps_LowPowerCommands :
    (let v : Fin 12 := 3; let hb : Bool := false; let s : State := rig; (s.pwr.vote = none)) ∧
    (let v : Fin 12 := 3; let hb : Bool := false; let l : List Nat := [3]; let s : State := { rig with pwr := { rig.pwr with vote := some [3] } }; ((s.pwr.vote = some l ∧ (v.val ∈ l ∨ s.pwr.committed = true)))) ∧
    (let v : Fin 12 := 5; let hb : Bool := false; let l : List Nat := [3]; let s : State := { rig with pwr := { rig.pwr with vote := some [3] } }; ((s.pwr.vote = some l ∧ v.val ∉ l ∧ s.pwr.committed = false)) ∧ ((s.voteOf v hb = some 0 ∧ v.val ≠ 7 ∧ v.val ≠ 8 ∧ l.length < 11))) ∧
    (let v : Fin 12 := 5; let hb : Bool := false; let l : List Nat := [0, 1, 2, 3, 4, 6, 7, 8, 9, 10, 11]; let s : State := { rig with pwr := { rig.pwr with vote := some [0, 1, 2, 3, 4, 6, 7, 8, 9, 10, 11] } }; ((s.pwr.vote = some l ∧ v.val ∉ l ∧ s.pwr.committed = false ∧ s.pwr.owed = none)) ∧ ((s.voteOf v hb = some 0 ∧ v.val ≠ 7 ∧ v.val ≠ 8 ∧ l.length = 11))) ∧
    (let l : List Nat := [0, 1]; let s : State := { rig with trans := some ⟨16, 10, 3, 4⟩, pwr := { rig.pwr with vote := some [0, 1] } }; ((s.pwr.vote = some l ∧ 11 ∉ l ∧ s.pwr.committed = false ∧ s.pwr.owed = none ∧ 8 ∉ l))) ∧
    (let l : List Nat := [0, 2]; let s : State := { rig with trans := some ⟨16, 10, 3, 4⟩, pwr := { rig.pwr with vote := some [0, 2] } }; ((s.pwr.vote = some l ∧ s.pwr.committed = false ∧ s.pwr.owed = none ∧ 0 ∈ l ∧ 1 ∉ l ∧ 8 ∉ l))) ∧
    (let l : List Nat := [0, 1]; let o : Owed := ⟨2, fwMsg 0x0103 []⟩; let s : State := { rig with trans := some ⟨16, 10, 3, 4⟩, pwr := { rig.pwr with vote := some [0, 1], owed := some ⟨2, fwMsg 0x0103 []⟩ } }; ((s.pwr.vote = some l ∧ 11 ∉ l ∧ s.pwr.committed = false ∧ s.pwr.owed = some o ∧ 8 ∉ l)) ∧ (s.chanFull (retChan o.chan) = false)) ∧
    (let l : List Nat := [0, 2]; let o : Owed := ⟨2, fwMsg 0x0103 []⟩; let s : State := { rig with trans := some ⟨16, 10, 3, 4⟩, pwr := { rig.pwr with vote := some [0, 2], owed := some ⟨2, fwMsg 0x0103 []⟩ } }; ((s.pwr.vote = some l ∧ s.pwr.committed = false ∧ s.pwr.owed = some o ∧ 0 ∈ l ∧ 1 ∉ l ∧ 8 ∉ l)) ∧ (s.chanFull (retChan o.chan) = false)) ∧
    (let i : Fin 7 := 2; let t : Trans := ⟨16, 10, 3, 4⟩; let l : List Nat := [0, 2]; let s : State := { rig with trans := some ⟨16, 10, 3, 4⟩, pwr := { rig.pwr with vote := some [0, 2] } }; ((s.Calm ∧ s.trans = some t ∧ (t.num = 16 ∨ t.num = 17) ∧ s.pwr.vote = some l ∧ s.pwr.committed = false ∧ s.pwr.owed = none ∧ 8 ∉ l ∧ s.asleep = false)) ∧ (((i.val < 4 ∨ (s.regN PWR_WAKE).testBit i = true) ∧ (s.srcCfg 10).1 ≤ 1 ∧ (s.srcCfg 10).2 ≤ 1 ∧ s.fcu.windows = [] ∧ s.flag FCU_STAT_SELF = false ∧ s.forced 10 = false ∧ s.pairBad 10 = false))) ∧
    (let s : State := rig; (s.pwr.vote = none ∨ s.pwr.committed = true)) ∧
    (let i : Fin 7 := 5; let s : State := (rigIn modeRETAIN).setReg PWR_WAKE 0x20#32; ((s.asleep = true ∨ s.pwr.vote.isSome = true)) ∧ ((i.val < 4 ∨ (s.regN PWR_WAKE).testBit i = true))) ∧
    (let i : Fin 7 := 5; let s : State := rigIn modeRETAIN; ((s.asleep = false ∧ s.pwr.vote.isSome = false) ∨ (4 ≤ i.val ∧ (s.regN PWR_WAKE).testBit i = false))) ∧
    (let s : State := (rigIn modeSTROLL).setReg PWR_WAKE 0x10#32; ((s.mode ≠ modeOFF ∧ s.asleep = true ∧ s.regN (TIME_DOM_SEC_LO 0) = s.regN PWR_WAKESEC ∧ (s.regN PWR_WAKE).testBit 4 = true))) ∧
    (let s : State := (rigIn modeSTROLL).setReg PWR_WAKESEC 16#32; ((0 < s.regN PWR_WAKESEC ∧ s.regN PWR_WAKESEC < 2 ^ 31 ∧ s.regN (TIME_DOM_SEC_LO 0) < s.regN PWR_WAKESEC))) ∧
    (let link : Byte := 3; let balls : BitVec 64 := 0; let temp : BitVec 16 := 0; let vin : BitVec 16 := 0; let s : State := rig; (s.mode ≠ modeSTROLL ∨ s.trans.isSome = true)) ∧
    (let link : Byte := 4; let balls : BitVec 64 := 3; let temp : BitVec 16 := 250; let vin : BitVec 16 := 24000; let s : State := ((rigIn modeSTROLL).setFld PWR_SCFG_TEMPHI 85).setFld PWR_SCFG_LINK 3; ((s.mode = modeSTROLL ∧ s.trans = none ∧ link.toNat &&& s.fld PWR_SCFG_LINK = 0)) ∧ (((balls.toNat ^^^ s.pair PWR_SNPLVL_LO) &&& s.pair PWR_SNPMASK_LO = 0 ∧ s.flag PWR_SCFG_VINCHK = false ∧ s.fld PWR_SCNTTHR_THR = 0)) ∧ ((sgn 8 (s.fld PWR_SCFG_TEMPLO) * 10 ≤ temp.toInt ∧ temp.toInt ≤ sgn 8 (s.fld PWR_SCFG_TEMPHI) * 10))) ∧
    (let link : Byte := 2; let balls : BitVec 64 := 3; let temp : BitVec 16 := 250; let vin : BitVec 16 := 24000; let s : State := ((rigIn modeSTROLL).setFld PWR_SCFG_TEMPHI 85).setFld PWR_SCFG_LINK 3; ((s.mode = modeSTROLL ∧ s.trans = none ∧ link.toNat &&& s.fld PWR_SCFG_LINK ≠ 0)) ∧ (((balls.toNat ^^^ s.pair PWR_SNPLVL_LO) &&& s.pair PWR_SNPMASK_LO = 0 ∧ s.flag PWR_SCFG_VINCHK = false ∧ s.fld PWR_SCNTTHR_THR = 0)) ∧ ((sgn 8 (s.fld PWR_SCFG_TEMPLO) * 10 ≤ temp.toInt ∧ temp.toInt ≤ sgn 8 (s.fld PWR_SCFG_TEMPHI) * 10))) ∧
    (let s : State := rig; (s.trans = none ∨ s.pwr.committed = false)) ∧
    (let t : Trans := ⟨16, 10, 3, 4⟩; let s : State := { rig with trans := some ⟨16, 10, 3, 4⟩, pwr := { rig.pwr with vote := some [], committed := true } }; ((s.trans = some t ∧ s.pwr.committed = true ∧ s.pwr.late = [] ∧ s.asleep = false ∧ (t.target = modeRETAIN ∨ t.target = modeSTROLL)))) ∧
    (let t : Trans := ⟨16, 10, 3, 4⟩; let s : State := { rig with trans := some ⟨16, 10, 3, 4⟩ }; (s.trans = some t) ∧ (t.num ≠ 18)) ∧
    (let t : Trans := ⟨18, 4, 6, 10⟩; let s : State := { (rigIn modeRETAIN).setDom2 10 0 with trans := some ⟨18, 4, 6, 10⟩ }; ((s.trans = some t ∧ t.num = 18 ∧ t.target = modePREOP ∧ s.pwr.vote = none ∧ s.pwr.late = [] ∧ s.fcu.deferred = [] ∧ s.insts = [] ∧ s.fw.cfg = [] ∧ s.itin.armed = [] ∧ s.domSt 10 = 0 ∧ s.sys.cfg.insts = []))) := by
  refine ⟨?_, ?_, ?_, ?_, ?_, ?_, ?_, ?_, ?_, ?_, ?_, ?_, ?_, ?_, ?_, ?_, ?_, ?_, ?_, ?_, ?_⟩ <;> decide +kernel

/-- The hypotheses of SupplyLossCommands hold together. -/
theorem hyps_SupplyLossCommands :
    (let vh0 : BitVec 16 := 0; let vh1 : BitVec 16 := 0; let ns : Word := 0; let s : State := rigIn modeTEST; ((s.mode = modeOFF ∨ s.mode = modeTEST ∨ s.mode = modeHOLDUP))) ∧
    (let vh0 : BitVec 16 := 9; let vh1 : BitVec 16 := 24000; let ns : Word := 100; let s : State := rigIn modeBOOT; ((s.mode = modeBOOT ∧ s.pwr.vote = none ∧ s.pwr.committed = false ∧ s.raises = [] ∧ s.fcu.windows = [] ∧ s.flag FCU_STAT_SELF = false))) ∧
    (let vh0 : BitVec 16 := 9; let vh1 : BitVec 16 := 24000; let ns : Word := 100; let i : Nat := 0; let s : State := rigIn modeOPERATIONAL; ((s.mode ≠ modeOFF ∧ s.mode ≠ modeTEST ∧ s.mode ≠ modeHOLDUP ∧ s.mode ≠ modeBOOT)) ∧ ((s.pwr.vote = none ∧ s.pwr.committed = false ∧ s.raises = [] ∧ s.fcu.windows = [] ∧ s.flag FCU_STAT_SELF = false)) ∧ (s.nextSlot = some i)) ∧
    (let good : Bool := true; let s : State := rig; (s.mode ≠ modeHOLDUP)) ∧
    (let good : Bool := false; let s : State := (rigIn modeHOLDUP).setFld (SAF_BTEST_HOURS 1) 77; (s.mode = modeHOLDUP)) ∧
    (let s : State := rig; (s.mode ≠ modeOFF)) ∧
    (let s : State := (rigIn modeOFF).setFlag SYS_RSTCAUSE_BOOTHOLD true; ((s.mode = modeOFF ∧ s.flag SYS_RSTCAUSE_TESTMODE = false ∧ ∀ b : Fin 48, s.fld (MEM_REPSTAT_SUB b) = 0))) := by
  refine ⟨?_, ?_, ?_, ?_, ?_, ?_, ?_⟩ <;> decide +kernel

/-- The hypotheses of MemoryAccess hold together. -/
theorem hyps_MemoryAccess :
    (let m : Master := .core 1; let a : Word := 0x80000010#32; let n : Fin 9 := 8; let v : BitVec 64 := 0x1122334455667788#64; let s : State := rig.setMem32 0x80000010 0xFFFFFFFF; ((inHamper a.toNat = true ∧ memReach m a.toNat = true ∧ sizeOk m a.toNat n = true)) ∧ ((s.domOn 11 = true ∧ s.bridgeDenied m a.toNat true = false ∧ s.eccAt a.toNat = 0))) ∧
    (let m : Master := .core 1; let a : Word := 0x20A00003#32; let n : Fin 9 := 1; let v : BitVec 64 := 0x1122334455667788#64; let s : State := rig.setReg MEM_STAT 0xFFF#32; ((inSram a.toNat = true ∧ sramBank a.toNat ≠ 35 ∧ ¬ (44 ≤ sramBank a.toNat ∧ sramBank a.toNat ≤ 45))) ∧ ((memReach m a.toNat = true ∧ sizeOk m a.toNat n = true ∧ n.val < 8 ∧ s.isHeld .host = false)) ∧ ((s.sgOn (sramBank a.toNat / 4) = true ∧ s.eccAt a.toNat = 0))) ∧
    (let m : Master := .core 1; let a : Word := 0x20A00008#32; let v : BitVec 64 := 0x1122334455667788#64; let s : State := { rig.setReg MEM_STAT 0xFFF#32 with ecc := [(0x20A00008, 2)] }; ((inSram a.toNat = true ∧ sramBank a.toNat ≠ 35 ∧ ¬ (44 ≤ sramBank a.toNat ∧ sramBank a.toNat ≤ 45))) ∧ ((memReach m a.toNat = true ∧ sizeOk m a.toNat 8 = true ∧ s.isHeld .host = false ∧ s.sgOn (sramBank a.toNat / 4) = true))) ∧
    (let c : Fin 4 := 2; let a : Word := 0x30000006#32; let n : Fin 9 := 2; let v : BitVec 64 := 0x1122334455667788#64; let s : State := rig; ((inMram a.toNat = true ∧ sizeOk (.core c) a.toNat n = true ∧ n.val < 8 ∧ s.eccAt a.toNat = 0))) ∧
    (let m : Master := .host; let a : Word := 0x30000004#32; let n : Fin 9 := 4; let v : BitVec 64 := 5; let s : State := rig; ((inMram a.toNat = true ∧ isCore m = false ∧ m ≠ .cardamom ∧ s.isHeld .host = false ∧ s.bridgeDenied m a.toNat true = false))) ∧
    (let m : Master := .core 0; let a : Word := 0x20A00002#32; let n : Fin 9 := 4; let v : BitVec 64 := 5; let s : State := rig; ((inRegs a.toNat = false ∧ ¬ (m = .host ∧ a.toNat < 0x10000) ∧ m ≠ .cardamom ∧ s.isHeld .host = false ∧ s.bridgeDenied m a.toNat true = false)) ∧ ((memReach m a.toNat = false ∨ sizeOk m a.toNat n = false ∨ a.toNat < 0x40000 ∨ (inSram a.toNat = true ∧ sramBank a.toNat = 35)))) ∧
    (let m : Master := .core 1; let a : Word := 0x80000010#32; let n : Fin 9 := 4; let s : State := rig.setMem32 0x80000010 0xFFFFFFFF; ((inHamper a.toNat = true ∧ memReach m a.toNat = true ∧ sizeOk m a.toNat n = true)) ∧ ((s.domOn 11 = true ∧ s.bridgeDenied m a.toNat false = false ∧ s.ecc = []))) ∧
    (let m : Master := .host; let a : Word := 0x20A00004#32; let n : Fin 9 := 4; let s : State := (rig.setReg MEM_STAT 0xFFF#32).setMem32 0x20A00004 7; ((inSram a.toNat = true ∧ ¬ (0x208C0000 ≤ a.toNat ∧ a.toNat < 0x208D8000) ∧ memReach m a.toNat = true ∧ sizeOk m a.toNat n = true)) ∧ ((s.isHeld .host = false ∧ s.sgOn (sramBank a.toNat / 4) = true ∧ s.eccAt a.toNat = 0))) ∧
    (let m : Master := .jtag; let a : Word := 0x20A00004#32; let n : Fin 9 := 4; let s : State := { rig.setReg MEM_STAT 0xFFF#32 with ecc := [(0x20A00000, 2)] }; ((inSram a.toNat = true ∧ memReach m a.toNat = true ∧ sizeOk m a.toNat n = true)) ∧ ((s.isHeld .host = false ∧ s.sgOn (sramBank a.toNat / 4) = true ∧ 2 ≤ s.eccAt a.toNat ∧ isCore m = false ∧ m ≠ .host))) ∧
    (let m : Master := .host; let a : Word := 0x40E00050#32; let x : Copy := { aCopy with idx := 2, its := 5, fhash := 9 }; let nx : Option Nat := none; let s : State := rig.setQ 3 5 { q := [{ aCopy with idx := 2, its := 5, fhash := 9 }], minA := 0, shA := 1 }; ((0x40E00000 ≤ a.toNat ∧ a.toNat < 0x41000000 ∧ m ≠ .cardamom ∧ s.domOn 11 = true ∧ s.bridgeDenied m a.toNat false = false ∧ s.isHeld .host = false)) ∧ ((s.desc ((a.toNat - 0x40E00000) / 32) = some (x, nx)))) ∧
    (let m : Master := .host; let a : Word := 0x40E00050#32; let v : BitVec 64 := 7; let s : State := rig; ((0x40E00000 ≤ a.toNat ∧ a.toNat < 0x41000000 ∧ a.toNat % 4 = 0 ∧ s.domOn 11 = true ∧ s.bridgeDenied m a.toNat true = false ∧ s.isHeld .host = false))) := by
  refine ⟨?_, ?_, ?_, ?_, ?_, ?_, ?_, ?_, ?_, ?_, ?_⟩ <;> decide +kernel

/-- The hypotheses of HostPortCommands hold together. -/
theorem hyps_HostPortCommands :
    (let o : BitVec 28 := 0x104#28; let b : List Byte := [1, 2, 3]; let s : State := rig.setFld BUF_SWCELLS_UNITS 2; ((s.isHeld .host = false ∧ s.domOn 11 = true ∧ s.ecc = [])) ∧ ((o.toNat + b.length ≤ 1024 * 256 * s.fld BUF_SWCELLS_UNITS ∧ o.toNat + b.length ≤ 0x4000000))) ∧
    (let o : BitVec 28 := 0x2000104#28; let b : List Byte := [1, 2, 3]; let s : State := (rigIn modeBOOT).setFld BUF_SWCELLS_UNITS 2; ((s.isHeld .host = false ∧ s.domOn 11 = true ∧ s.ecc = [] ∧ s.mode = modeBOOT ∧ o.toNat + b.length ≤ 0x4000000)) ∧ (∀ p : Fin 12, s.flag (MAC_CTRL_RXEN p) = false)) ∧
    (let o : BitVec 28 := 0x100000#28; let b : List Byte := [1, 2, 3]; let p : Fin 12 := 11; let s : State := ((rigIn modeBOOT).setFld BUF_SWCELLS_UNITS 2).setFlag (MAC_CTRL_RXEN 11) true; ((s.isHeld .host = false ∧ s.domOn 11 = true ∧ b ≠ [] ∧ s.mode = modeBOOT ∧ s.flag (MAC_CTRL_RXEN p) = true)) ∧ (1024 * 256 * s.fld BUF_SWCELLS_UNITS ≤ o.toNat)) ∧
    (let o : BitVec 28 := 0x100000#28; let b : List Byte := [1, 2, 3]; let s : State := rig.setFld BUF_SWCELLS_UNITS 2; ((s.isHeld .host = false ∧ s.domOn 11 = true ∧ b ≠ [] ∧ s.mode ≠ modeBOOT)) ∧ (1024 * 256 * s.fld BUF_SWCELLS_UNITS ≤ o.toNat)) ∧
    (let o : BitVec 28 := 0x100#28; let b : List Byte := [1]; let s : State := { rig with fcu := { rig.fcu with held := [.host] } }; (s.isHeld .host = true ∨ s.domOn 11 = false)) ∧
    (let o : BitVec 28 := 0x104#28; let n : BitVec 13 := 5; let s : State := (rig.setFld BUF_SWCELLS_UNITS 2).setMem32 0x80000104 7; ((s.isHeld .host = false ∧ s.domOn 11 = true ∧ s.spi = false ∧ s.ecc = [])) ∧ ((o.toNat + n.toNat ≤ 1024 * 256 * s.fld BUF_SWCELLS_UNITS ∧ o.toNat + n.toNat ≤ 0x4000000))) ∧
    (let o : BitVec 28 := 0x100004#28; let n : BitVec 13 := 5; let s : State := (rig.setFld BUF_SWCELLS_UNITS 2).setMem32 0x80100004 7; ((s.isHeld .host = false ∧ s.spi = false ∧ s.flag HOST_B2CTRL_FRAMERD = false)) ∧ (1024 * 256 * s.fld BUF_SWCELLS_UNITS ≤ o.toNat)) ∧
    (let o : BitVec 28 := 0x104#28; let n : BitVec 13 := 5; let s : State := (rig.setFld BUF_SWCELLS_UNITS 2).setMem32 0x80000104 7; ((s.isHeld .host = false ∧ s.spi = false ∧ s.ecc = []))) ∧
    (let w : Word := 5; let s : State := { rig with fcu := { rig.fcu with held := [.host] } }; (s.isHeld .host = true)) ∧
    (let w : Word := 0x11223344#32; let a : Nat := 0x20A00004; let s : State := ((rig.setReg MEM_STAT 0xFFF#32).setFld HOST_RWADDR_ADDR 0x8280001).setFlag HOST_RWADDR_AUTOINC true; ((a = 4 * s.fld HOST_RWADDR_ADDR ∧ inSram a = true ∧ sramBank a ≠ 35 ∧ ¬ (44 ≤ sramBank a ∧ sramBank a ≤ 45))) ∧ ((s.isHeld .host = false ∧ s.sgOn (sramBank a / 4) = true ∧ s.eccAt a = 0))) ∧
    (let a : Nat := 0x20A00004; let s : State := (((rig.setReg MEM_STAT 0xFFF#32).setFld HOST_RWADDR_ADDR 0x8280001).setFlag HOST_RWADDR_AUTOINC true).setMem32 0x20A00004 77; ((a = 4 * s.fld HOST_RWADDR_ADDR ∧ inSram a = true ∧ ¬ (0x208C0000 ≤ a ∧ a < 0x208D8000))) ∧ ((s.isHeld .host = false ∧ s.sgOn (sramBank a / 4) = true ∧ s.eccAt a = 0))) ∧
    (let w : Word := 0x11223344#32; let s : State := rig.setFld HOST_RWADDR_ADDR 0xC000001; ((inMram (4 * s.fld HOST_RWADDR_ADDR) = true ∧ s.isHeld .host = false))) ∧
    (let a : Word := 0; let l : List Word := [1]; let s : State := rig; (s.spi = false ∨ s.isHeld .host = true)) ∧
    (let a : Word := 0x20000104#32; let w : Word := 5; let s : State := (rig.setFld BUF_SWCELLS_UNITS 2).setFlag HOST_STAT_SPI true; ((s.spi = true ∧ s.isHeld .host = false ∧ s.domOn 11 = true ∧ s.ecc = [] ∧ a.toNat / 2 ^ 28 = 2)) ∧ ((a.toNat % 2 ^ 28 + 4 ≤ 1024 * 256 * s.fld BUF_SWCELLS_UNITS ∧ a.toNat % 2 ^ 28 + 4 ≤ 0x4000000))) ∧
    (let a : Word := 0x20000104#32; let n : BitVec 16 := 1; let s : State := ((rig.setFld BUF_SWCELLS_UNITS 2).setFlag HOST_STAT_SPI true).setMem32 0x80000104 7; ((s.spi = true ∧ s.isHeld .host = false ∧ s.domOn 11 = true ∧ s.ecc = [] ∧ a.toNat / 2 ^ 28 = 2 ∧ n = 1)) ∧ ((a.toNat % 2 ^ 28 + 4 ≤ 1024 * 256 * s.fld BUF_SWCELLS_UNITS ∧ a.toNat % 2 ^ 28 + 4 ≤ 0x4000000))) ∧
    (let a : Word := 0x20000108#32; let n : BitVec 16 := 1; let s : State := { ((rig.setFld BUF_SWCELLS_UNITS 2).setFlag HOST_STAT_SPI true).setMem32 0x80000108 7 with ecc := [(0x80000108, 2)] }; ((s.spi = true ∧ s.isHeld .host = false ∧ s.domOn 11 = true ∧ a.toNat / 2 ^ 28 = 2 ∧ n = 1 ∧ a.toNat % 8 = 0)) ∧ ((a.toNat % 2 ^ 28 + 4 ≤ 1024 * 256 * s.fld BUF_SWCELLS_UNITS ∧ a.toNat % 2 ^ 28 + 4 ≤ 0x4000000 ∧ s.eccAt (0x80000000 + a.toNat % 2 ^ 28) = 2))) ∧
    (let a : Word := 0x50000108#32; let n : BitVec 16 := 1; let s : State := rig.setFlag HOST_STAT_SPI true; ((s.spi = true ∧ s.isHeld .host = false ∧ n = 1 ∧ a.toNat / 2 ^ 28 ≠ 0 ∧ a.toNat / 2 ^ 28 ≠ 2))) ∧
    (let a : Word := 0x20000104#32; let n : BitVec 16 := 1; let s : State := rig; (s.spi = false ∨ s.isHeld .host = true)) ∧
    (let s : State := (rig.setFlag HOST_STAT_SPI true).setReg HOST_ERR 5#32; (s.spi = true)) ∧
    (let s : State := (rig.setFlag HOST_STAT_SPI true).setFlag PWR_RSTCFG_HOSTRST true; ((s.spi = true ∧ s.flag PWR_RSTCFG_HOSTRST = true))) ∧
    (let s : State := ((rig.setFlag HOST_STAT_SPI true).setReg HOST_ERR 5#32).setChan 41 [rxFrame]; ((s.spi = true ∧ s.flag PWR_RSTCFG_HOSTRST = false))) ∧
    (let a : Word := 0; let n : BitVec 16 := 1; let l : List Word := []; let s : State := rig.setFlag HOST_STAT_SPI true; (s.spi = true)) ∧
    (let a : Word := 0; let n : BitVec 16 := 1; let s : State := rig.setFlag HOST_STAT_SPI true; (s.spi = true)) ∧
    (let s : State := rig.setFlag HOST_STAT_SPI true; (s.spi = true)) ∧
    (let s : State := rig.setFlag HOST_STAT_LINKUP true; (s.spi = false)) ∧
    (let v : Fin 32 := 2; let s : State := ((((rig.setFlag (HOST_ROUTE_EN 12) true).setFld (HOST_ROUTE_VEC 12) 2).setFlag FCU_STAT_IRQ true).setMsix 11 0).setMsix 8 0xFEE00000#32; ((s.spi = false ∧ s.vecActive v = true ∧ v.val ∉ s.host.act ∧ (s.msixWord (4 * v + 3)).getLsbD 0 = false))) ∧
    (let v : Fin 32 := 2; let s : State := ((rig.setFlag (HOST_ROUTE_EN 12) true).setFld (HOST_ROUTE_VEC 12) 2).setFlag FCU_STAT_IRQ true; ((s.spi = false ∧ s.vecActive v = true ∧ v.val ∉ s.host.act ∧ (s.msixWord (4 * v + 3)).getLsbD 0 = true))) ∧
    (let v : Fin 32 := 2; let s : State := let r := ((((rig.setFlag (HOST_ROUTE_EN 12) true).setFld (HOST_ROUTE_VEC 12) 2).setFlag FCU_STAT_IRQ true).setMsix 11 0).setMsix 8 0xFEE00000#32; { r with host := { r.host with act := [2], pba := 4 } }; ((s.spi = false ∧ s.vecActive v = true ∧ v.val ∈ s.host.act ∧ s.host.pba.testBit v = true ∧ (s.msixWord (4 * v + 3)).getLsbD 0 = false))) ∧
    (let v : Fin 32 := 2; let k : Fin 8 := 7; let s : State := let r := ((rig.setFlag (HOST_ROUTE_EN 12) true).setFld (HOST_ROUTE_VEC 12) 2).setFlag FCU_STAT_IRQ true; { r with host := { r.host with act := [2] } }; ((s.spi = false ∧ s.vecActive v = true ∧ v.val ∈ s.host.act ∧ s.host.pba.testBit v = false))) ∧
    (let v : Fin 32 := 2; let k : Fin 8 := 3; let s : State := { rig with host := { rig.host with pba := 4 } }; ((s.spi = false ∧ s.vecActive v = false))) ∧
    (let d : BitVec 16 := 5; let s : State := rig; (s.flag PIN_MDIO_GO = false)) ∧
    (let d : BitVec 16 := 5; let s : State := rig.setFlag PIN_MDIO_GO true; (s.flag PIN_MDIO_GO = true)) ∧
    (let m : Master := .core 0; let v : Word := 0x21#32; let s : State := rig; (s.grants m PIN_MDIO (v ||| 0x80000000#32) = true) ∧ (s.flag PIN_MDIO_GO = false)) ∧
    (let m : Master := .core 0; let v : Word := 0x21#32; let s : State := rig.setFlag PIN_MDIO_GO true; (s.grants m PIN_MDIO (v ||| 0x80000000#32) = true) ∧ (s.flag PIN_MDIO_GO = true)) := by
  refine ⟨?_, ?_, ?_, ?_, ?_, ?_, ?_, ?_, ?_, ?_, ?_, ?_, ?_, ?_, ?_, ?_, ?_, ?_, ?_, ?_, ?_, ?_, ?_, ?_, ?_, ?_, ?_, ?_, ?_, ?_, ?_, ?_, ?_, ?_⟩ <;> decide +kernel

/-- The hypotheses of MailboxesAndRings hold together. -/
theorem hyps_MailboxesAndRings :
    (let m : Master := .core 1; let c : Fin 96 := 5; let s : State := (rig.setReg (MBX_CH_SEND 5 1) 0x55#32).setFlag (MBX_CH_CFG_EN 5) true; (s.grantsF m (MBX_CH_CMD_SEND c) 1 = true) ∧ ((masterId m = chanSender c ∧ s.chanFull c = false ∧ s.asleep = false ∧ s.pwr.vote = none ∧ ¬ (0x20 ≤ chanReceiver c ∧ chanReceiver c ≤ 0x2F)))) ∧
    (let m : Master := .core 1; let c : Fin 96 := 5; let s : State := rig.setFlag (MBX_CH_CFG_EN 5) false; (s.grantsF m (MBX_CH_CMD_SEND c) 1 = true) ∧ ((masterId m = chanSender c ∧ (s.flag (MBX_CH_CFG_EN c) = false ∨ 16 ≤ (s.chan c).length) ∧ chanSender c ≠ 0))) ∧
    (let c : Fin 4 := 2; let s : State := rig.setFlag (MBX_CH_CFG_EN 2) false; (s.grantsF .host (MBX_CH_CMD_SEND c) 1 = true) ∧ ((s.flag (MBX_CH_CFG_EN c) = false ∨ 16 ≤ (s.chan c).length))) ∧
    (let m : Master := .core 2; let c : Fin 96 := 2; let x : List Byte := rxFrame; let l : List (List Byte) := [rxFrame]; let s : State := rig.setChan 2 [rxFrame, rxFrame]; (s.grantsF m (MBX_CH_CMD_POP c) 1 = true) ∧ ((masterId m = chanReceiver c ∧ c.val ≠ 4 ∧ s.chan c = x :: l ∧ l.length < 16))) ∧
    (let c : Fin 96 := 5; let x : List Byte := rxFrame; let l : List (List Byte) := []; let s : State := rig.setChan 5 [rxFrame]; (s.grantsF .host (MBX_CH_CMD_POP c) 1 = true) ∧ ((chanReceiver c = 0 ∧ c.val ≠ 4 ∧ s.chan c = x :: l ∧ l.length < 16))) ∧
    (let m : Master := .core 2; let c : Fin 96 := 2; let s : State := rig; (s.grantsF m (MBX_CH_CMD_POP c) 1 = true) ∧ ((masterId m = chanReceiver c ∧ c.val ≠ 4 ∧ s.chan c = []))) ∧
    (let m : Master := .core 2; let c : Fin 96 := 2; let s : State := rig.setChan 2 [rxFrame, rxFrame]; (s.grantsF m (MBX_CH_CMD_FLUSH c) 1 = true) ∧ ((masterId m = chanReceiver c ∧ c.val ≠ 4))) ∧
    (let m : Master := .host; let c : Fin 96 := 2; let s : State := rig.setChan 2 [rxFrame, rxFrame]; (s.grantsF m (MBX_CH_CMD_FLUSH c) 1 = true) ∧ (masterId m ≠ chanReceiver c)) ∧
    (let m : Master := .host; let q : Fin 2 := 1; let v : Word := 0x80060007#32; let s : State := rig.setFld BUF_SWCELLS_UNITS 2; (s.grants m (HOST_FQ_CFG q) v = true) ∧ ((s.flag (HOST_FQ_CFG_EN q) = false ∧ v.getLsbD 31 = true ∧ (s.setReg (HOST_FQ_CFG q) (v &&& 0x403F0FFF#32)).fqPlaced q = true))) ∧
    (let m : Master := .host; let q : Fin 2 := 1; let v : Word := 0x80060FFF#32; let s : State := rig.setFld BUF_SWCELLS_UNITS 2; (s.grants m (HOST_FQ_CFG q) v = true) ∧ ((s.flag (HOST_FQ_CFG_EN q) = false ∧ v.getLsbD 31 = true ∧ (s.setReg (HOST_FQ_CFG q) (v &&& 0x403F0FFF#32)).fqPlaced q = false))) ∧
    (let m : Master := .host; let q : Fin 2 := 1; let v : Word := 0; let s : State := ((rig.setFld BUF_SWCELLS_UNITS 2).setReg (HOST_FQ_CFG 1) 0x80060007#32).setFld (HOST_FQ_PROD_PROD 1) 3; (s.grants m (HOST_FQ_CFG q) v = true) ∧ ((s.flag (HOST_FQ_CFG_EN q) = true ∧ v.getLsbD 31 = false))) ∧
    (let m : Master := .host; let v : Word := 5; let s : State := rig; (s.grants m (HOST_FQ_PROD 0) v = true)) ∧
    (let m : Master := .host; let v : Word := 5; let s : State := rig; (s.grants m (HOST_FQ_CONS 1) v = true)) ∧
    (let s : State := rig; (s.flag (HOST_FQ_CFG_EN 0) = false ∨ s.fld (HOST_FQ_CONS_CONS 0) = s.fld (HOST_FQ_PROD_PROD 0) ∨ s.portOff 31 = true)) ∧
    (let s : State := ((rig.setFld BUF_SWCELLS_UNITS 2).setReg (HOST_FQ_CFG 0) 0x80060007#32).setFld (HOST_FQ_PROD_PROD 0) 3; ((s.flag (HOST_FQ_CFG_EN 0) = true ∧ s.fld (HOST_FQ_CONS_CONS 0) ≠ s.fld (HOST_FQ_PROD_PROD 0) ∧ s.portOff 31 = false)) ∧ (s.mem32 (s.fqSlot 0 (s.fld (HOST_FQ_CONS_CONS 0))) % 2 ^ 14 < 64)) ∧
    (let s : State := rig; (s.asleep = true ∨ s.fw.running = false)) ∧
    (let s : State := { rig with fw := { FwSt.reset with running := true } }; ((s.asleep = false ∧ s.fw.running = true ∧ s.fw.retry = []))) ∧
    (let c : Nat := 2; let m : List Byte := rxFrame; let s : State := { rig.setFlag (MBX_CH_CFG_EN 6) true with fw := { FwSt.reset with running := true, retry := [(2, rxFrame)] } }; ((s.asleep = false ∧ s.fw.running = true ∧ s.fw.retry = [(c, m)] ∧ c < 4 ∧ s.chanFull (4 + c) = false ∧ s.pwr.vote = none))) ∧
    (let c : Nat := 2; let m : List Byte := rxFrame; let s : State := { rig.setFlag (MBX_CH_CFG_EN 6) false with fw := { FwSt.reset with running := true, retry := [(2, rxFrame)] } }; ((s.asleep = false ∧ s.fw.running = true ∧ s.fw.retry = [(c, m)] ∧ c < 4 ∧ s.chanFull (4 + c) = true ∧ s.pwr.vote = none))) := by
  refine ⟨?_, ?_, ?_, ?_, ?_, ?_, ?_, ?_, ?_, ?_, ?_, ?_, ?_, ?_, ?_, ?_, ?_, ?_, ?_⟩ <;> decide +kernel

/-- The hypotheses of TransactionCommands hold together. -/
theorem hyps_TransactionCommands :
    (let m : Master := .core 1; let c : Fin 21 := 2; let s : State := rig.setFlag (TXN_CH_STAT_LOGFULL 2) true; (s.grantsF m (TXN_CH_CTRL_OPEN c) 1 = true) ∧ ((s.flag (TXN_CH_STAT_OPEN c) = false ∧ (s.txnCh c).armed = none ∧ (s.txnCh c).serial + 1 < 2 ^ 24))) ∧
    (let m : Master := .core 1; let c : Fin 21 := 2; let s : State := rig.setFlag (TXN_CH_STAT_OPEN 2) true; (s.grantsF m (TXN_CH_CTRL_OPEN c) 1 = true) ∧ (s.flag (TXN_CH_STAT_OPEN c) = true)) ∧
    (let m : Master := .core 1; let c : Fin 21 := 2; let s : State := rig; (s.grantsF m (TXN_CH_CTRL_COMMIT c) 1 = true) ∧ (s.flag (TXN_CH_STAT_OPEN c) = false)) ∧
    (let m : Master := .core 1; let c : Fin 21 := 2; let s : State := rig.setFlag (TXN_CH_STAT_OPEN 2) true; (s.grantsF m (TXN_CH_CTRL_COMMIT c) 1 = true) ∧ ((s.flag (TXN_CH_STAT_OPEN c) = true ∧ (s.txnCh c).armed = none ∧ s.flag (TXN_CH_STAT_LOGFULL c) = false))) ∧
    (let m : Master := .core 1; let c : Fin 21 := 2; let s : State := (rig.setFlag (TXN_CH_STAT_OPEN 2) true).setFlag (TXN_CH_STAT_LOGFULL 2) true; (s.grantsF m (TXN_CH_CTRL_COMMIT c) 1 = true) ∧ ((s.flag (TXN_CH_STAT_OPEN c) = true ∧ s.flag (TXN_CH_STAT_CHECKING c) = false ∧ (s.txnCh c).armed = none ∧ (s.txnCh c).owed = none ∧ s.flag (TXN_CH_STAT_LOGFULL c) = true))) ∧
    (let m : Master := .core 1; let c : Fin 21 := 2; let s : State := rig; (s.grantsF m (TXN_CH_CTRL_ROLLBACK c) 1 = true) ∧ ((s.flag (TXN_CH_STAT_OPEN c) = false ∧ (s.txnCh c).armed = none))) ∧
    (let m : Master := .core 1; let c : Fin 21 := 2; let s : State := (rig.setFlag (TXN_CH_STAT_OPEN 2) true).setTxn 2 { TxnCh.idle with log := [(0x40500004, 5)], handle := 7 }; (s.grantsF m (TXN_CH_CTRL_ROLLBACK c) 1 = true) ∧ ((s.flag (TXN_CH_STAT_OPEN c) = true ∧ (s.txnCh c).owed = none))) ∧
    (let c : Fin 21 := 2; let s : State := rig.setFlag (TXN_CH_STAT_OPEN 2) true; (s.flag (TXN_CH_STAT_CHECKING c) = false)) ∧
    (let c : Fin 21 := 2; let s : State := (rig.setFlag (TXN_CH_STAT_OPEN 2) true).setFlag (TXN_CH_STAT_CHECKING 2) true; ((s.flag (TXN_CH_STAT_CHECKING c) = true ∧ (s.txnCh c).log = [] ∧ (s.txnCh c).owed = none ∧ (s.txnCh c).byCmd = false)) ∧ ((s.fld (TXN_CH_APPLY_KIND c) = 0 ∧ (s.logBad []).isNone = true))) ∧
    (let c : Fin 21 := 2; let un : SUnit := .lau 0; let s : State := ((((rig.setFlag (TXN_CH_STAT_OPEN 2) true).setFlag (TXN_CH_STAT_CHECKING 2) true).setTxn 2 { TxnCh.idle with log := [(0x40500004, 5)], handle := 7 }).setTxn 1 { TxnCh.idle with armed := some ⟨1, 0, 0, 0, 0, false, [.lau 0], false, none, []⟩ }); ((s.flag (TXN_CH_STAT_CHECKING c) = true ∧ (logUnits (s.txnCh c).log).find? (fun x => (s.armedBy x).isSome) = some un ∧ (s.txnCh c).owed = none))) ∧
    (let c : Fin 21 := 2; let s : State := rig; ((s.txnCh c).armed = none)) ∧
    (let c : Fin 21 := 2; let a : ArmedSet := ⟨1, 1, 0, 0, 0, false, [.lau 1], false, none, []⟩; let k : Fin 2 := 1; let s : State := rig.setTxn 2 { TxnCh.idle with armed := some ⟨1, 1, 0, 0, 0, false, [.lau 1], false, none, []⟩ }; ((s.txnCh c).armed = some a) ∧ ((a.units = [.lau k.val] ∧ s.armedBy (.lau k.val) = some c.val))) ∧
    (let c : Fin 21 := 2; let a : ArmedSet := ⟨1, 1, 0, 0, 0, false, [.disp, .gate 3, .lau 1], false, none, []⟩; let s : State := rig.setTxn 2 { TxnCh.idle with armed := some ⟨1, 1, 0, 0, 0, false, [.disp, .gate 3, .lau 1], false, none, []⟩ }; ((s.txnCh c).armed = some a) ∧ ((a.units ≠ [] ∧ a.units.all (fun x => match x with | .loop _ => false | .tt _ => false | _ => true) = true))) ∧
    (let c : Fin 21 := 2; let a : ArmedSet := ⟨1, 0, 0, 0, 0, false, [.tt 1], false, none, []⟩; let n : Fin 4 := 1; let s : State := { (((((rig.setReg (CAN_TT_CFG 1) 0).setFld (CAN_TT_WIN_MARK 1 1) 200).setFld (CAN_TT_TIME_GUARD 1) 4).setFld (CAN_TT_TIME_CYCLEN 1) 0x2000).setTxn 2 { TxnCh.idle with armed := some ⟨1, 0, 0, 0, 0, false, [.tt 1], false, none, []⟩ }) with shadow := [(CAN_TT_START 1, some 0x40)] }; (((s.txnCh c).armed = some a ∧ a.units = [.tt n.val] ∧ a.owed = none ∧ a.byCmd = false ∧ a.keep = [] ∧ s.armedBy (.tt n.val) = some c.val)) ∧ (((s.ttState n = 0 ∨ s.ttState n = 1 ∨ s.ttState n = 6) ∧ s.shadOf (.tt n.val) ≠ [] ∧ (s.shadow.map (·.1)).Nodup)) ∧ ((∀ k : Fin 21, k ≠ c → (s.txnCh k).armed = none)) ∧ (ttBad s (fun r => s.candFor [.tt n.val] [] r) n = none)) ∧
    (let c : Fin 21 := 2; let a : ArmedSet := ⟨1, 0, 0, 0, 0, false, [.loop 6], false, none, []⟩; let k : Fin 256 := 6; let s : State := (rig.setShad (LOOP_COEF 6 9) 0x01400000#32).setTxn 2 { TxnCh.idle with armed := some ⟨1, 0, 0, 0, 0, false, [.loop 6], false, none, []⟩ }; (((s.txnCh c).armed = some a ∧ a.units = [.loop k.val] ∧ a.owed = none ∧ a.byCmd = false ∧ a.keep = [] ∧ s.armedBy (.loop k.val) = some c.val)) ∧ ((s.flag (LOOP_CTX_CTRL_EN k) = false ∧ s.loop.run = none ∧ s.shadOf (.loop k.val) ≠ [] ∧ s.flag (LOOP_CTX_STAT_SYNCING k) = false ∧ s.fld (LOOP_CTX_STAT_BANK k) ≤ 1)) ∧ ((∀ j : Fin 21, j ≠ c → (s.txnCh j).armed = none)) ∧ (s.loopBad (fun r => s.candFor [.loop k.val] [] r) k = none)) ∧
    (let c : Fin 21 := 2; let a : ArmedSet := ⟨1, 0, 0, 0, 0, true, [.disp], false, none, []⟩; let s : State := { rig.setTxn 2 { TxnCh.idle with armed := some ⟨1, 0, 0, 0, 0, true, [.disp], false, none, []⟩ } with shadow := [(DISP_CAP 2 1, some 9)] }; (((s.txnCh c).armed = some a ∧ a.units = [.disp] ∧ a.reached = true ∧ a.owed = none ∧ a.byCmd = false ∧ a.keep = [] ∧ s.armedBy .disp = some c.val)) ∧ ((s.domOn 7 = true ∧ s.cyc0.toNat % 1024 = 0 ∧ s.shadOf .disp ≠ [] ∧ (s.shadow.map (·.1)).Nodup)) ∧ ((∀ k : Fin 21, k ≠ c → (s.txnCh k).armed = none)) ∧ (dispBad s (fun r => s.candFor [.disp] [] r) = none)) ∧
    (let c : Fin 21 := 2; let s : State := rig; ((s.txnCh c).armed = none)) ∧
    (let c : Fin 21 := 2; let a : ArmedSet := ⟨1, 2, 0, 0, 0, false, [.lau 1], false, none, []⟩; let s : State := rig.setTxn 2 { TxnCh.idle with armed := some ⟨1, 2, 0, 0, 0, false, [.lau 1], false, none, []⟩ }; ((s.txnCh c).armed = some a) ∧ (((a.kind ≠ 1 ∧ a.kind ≠ 3) ∨ a.reached = true))) ∧
    (let c : Fin 21 := 2; let a : ArmedSet := ⟨1, 1, 0, 0, 0, false, [.lau 1], false, none, []⟩; let k : Fin 2 := 1; let s : State := { rig.setTxn 2 { TxnCh.idle with armed := some ⟨1, 1, 0, 0, 0, false, [.lau 1], false, none, []⟩ } with shadow := [(0x40510004, some 5)] }; ((s.txnCh c).armed = some a) ∧ (((a.kind = 1 ∨ a.kind = 3) ∧ a.reached = false ∧ a.units = [.lau k.val] ∧ a.owed = none ∧ s.fw.running = false))) ∧
    (let c : Fin 21 := 2; let s : State := rig; (s.flag (TXN_CH_STAT_OPEN c) = false)) ∧
    (let c : Fin 21 := 2; let s : State := (rig.setFlag (TXN_CH_STAT_OPEN 2) true).setTxn 2 { TxnCh.idle with log := [(0x40500004, 5)], handle := 7 }; ((s.flag (TXN_CH_STAT_OPEN c) = true ∧ (s.txnCh c).owed = none ∧ s.fw.running = false))) := by
  refine ⟨?_, ?_, ?_, ?_, ?_, ?_, ?_, ?_, ?_, ?_, ?_, ?_, ?_, ?_, ?_, ?_, ?_, ?_, ?_, ?_, ?_⟩ <;> decide +kernel

/-- The hypotheses of FirmwareChecks hold together, for each of its answers. -/
  theorem hyps_FirmwareChecks :
      ((fwRig 1 []).fwFree 2 true = true ∧ (fwRig 1 []).chan 2 = []) ∧
      ((fwRig 1 (fwMsg 0x0777 [1])).asks 1 (fwMsg 0x0777 [1]) 0x0777 1 true = true ∧ 0x0777 ∉ knownOps) ∧
      ((fwRig 57 (fwMsg 0x0402 [1])).asks 57 (fwMsg 0x0402 [1]) 0x0402 1 true = true) ∧
      ((fwRig 1 (fwMsg 0x0402 [1, 2])).asks 1 (fwMsg 0x0402 [1, 2]) 0x0402 2 true = true) ∧
      ((fwIn (rigIn modeSAFEOP) 1 (fwMsg 0x0402 [1])).asks 1 (fwMsg 0x0402 [1]) 0x0402 1 true = true ∧ (rigIn modeSAFEOP).mode ∉ [4]) := by
    refine ⟨?_, ?_, ?_, ?_, ?_⟩ <;> decide +kernel

/-- The hypotheses of SystemMessages hold together. -/
theorem hyps_SystemMessages :
    (let c : Fin 96 := 57; let m : List Byte := fwMsg 0x0101 []; let s : State := fwRig 57 (fwMsg 0x0101 []); (s.asks c m 0x0101 0 false = true)) ∧
    (let c : Fin 96 := 57; let m : List Byte := fwMsg 0x0104 []; let s : State := fwRig 57 (fwMsg 0x0104 []); (s.asks c m 0x0104 0 false = true)) ∧
    (let c : Fin 96 := 2; let m : List Byte := fwMsg 0x0102 [6]; let t : Nat := 6; let n : Nat := 8; let s : State := fwRig 2 (fwMsg 0x0102 [6]); ((s.asks c m 0x0102 1 true = true ∧ c.val ≤ 3 ∧ plN (msgPl m) 0 1 = t)) ∧ ((s.busy = false ∧ s.trans = none ∧ s.noTxn = true ∧ (s.mode, t, n) ∈ [(4, 6, 8), (6, 5, 9), (5, 6, 10), (6, 4, 11), (5, 4, 11), (8, 4, 14)])) ∧ (((n = 8 → s.activeBad = none) ∧ (n = 9 → s.permit = true ∧ s.allCyclic = true) ∧ (n = 14 → s.degradedPending = false ∧ s.fcu.held = [])))) ∧
    (let c : Fin 96 := 2; let m : List Byte := fwMsg 0x0102 [7]; let t : Nat := 7; let s : State := fwRig 2 (fwMsg 0x0102 [7]); ((s.asks c m 0x0102 1 true = true ∧ c.val ≤ 3 ∧ plN (msgPl m) 0 1 = t ∧ s.mode ∈ [4, 5, 6, 8])) ∧ (((t < 4 ∨ 6 < t) ∧ s.busy = false))) ∧
    (let c : Fin 96 := 2; let m : List Byte := fwMsg 0x0102 [6]; let t : Nat := 6; let s : State := (fwIn (rigIn modeSAFEOP) 2 (fwMsg 0x0102 [6])).setFlag SYS_MODE_BUSY true; ((s.asks c m 0x0102 1 true = true ∧ c.val ≤ 3 ∧ plN (msgPl m) 0 1 = t)) ∧ ((s.busy = true ∧ s.mode ∈ [4, 5, 6, 8]))) ∧
    (let c : Fin 96 := 2; let m : List Byte := fwMsg 0x0102 [5]; let t : Nat := 5; let s : State := fwRig 2 (fwMsg 0x0102 [5]); ((s.asks c m 0x0102 1 true = true ∧ c.val ≤ 3 ∧ plN (msgPl m) 0 1 = t ∧ s.mode ∈ [4, 5, 6, 8])) ∧ ((4 ≤ t ∧ t ≤ 6 ∧ s.busy = false ∧ (s.mode, t) ∉ [(4, 6), (6, 5), (5, 6), (6, 4), (5, 4), (8, 4)]))) ∧
    (let c : Fin 96 := 2; let m : List Byte := fwMsg 0x0102 [6]; let b : Nat := 14; let r : Nat := 2; let a : Nat := 1094713732; let s : State := (fwRig 2 (fwMsg 0x0102 [6])).setFld (CAN_TT_STAT_STATE 0) 1; ((s.asks c m 0x0102 1 true = true ∧ c.val ≤ 3 ∧ plN (msgPl m) 0 1 = 6 ∧ s.mode = 4 ∧ s.busy = false)) ∧ (s.activeBad = some (b, r, a))) ∧
    (let c : Fin 96 := 2; let m : List Byte := fwMsg 0x0102 [5]; let s : State := fwIn (rigIn modeSAFEOP) 2 (fwMsg 0x0102 [5]); ((s.asks c m 0x0102 1 true = true ∧ c.val ≤ 3 ∧ plN (msgPl m) 0 1 = 5 ∧ s.mode = 6 ∧ s.busy = false)) ∧ ((s.permit = false ∨ s.allCyclic = false))) ∧
    (let c : Fin 96 := 2; let m : List Byte := fwMsg 0x0103 [0x16, 0x72, 0, 0]; let s : State := fwRig 2 (fwMsg 0x0103 [0x16, 0x72, 0, 0]); ((s.asks c m 0x0103 4 true = true ∧ c.val ≤ 3 ∧ plN (msgPl m) 0 4 = 0x7216))) ∧
    (let c : Fin 96 := 2; let m : List Byte := fwMsg 0x0103 [0x16, 0x72, 0, 1]; let s : State := fwRig 2 (fwMsg 0x0103 [0x16, 0x72, 0, 1]); ((s.asks c m 0x0103 4 true = true ∧ c.val ≤ 3 ∧ plN (msgPl m) 0 4 ≠ 0x7216))) ∧
    (let c : Fin 96 := 2; let m : List Byte := fwMsg 0x0105 []; let s : State := { fwRig 2 (fwMsg 0x0105 []) with fw := { FwSt.reset with running := true, cfg := [(0x40600004, some 1)] } }; ((s.asks c m 0x0105 0 true = true ∧ c.val ≤ 3 ∧ s.mode ∈ [4, 7]))) ∧
    (let c : Fin 96 := 2; let img : CfgImg := ⟨[(0x40600004, 1)], [], 2, [], [], []⟩; let m : List Byte := fwMsg 0x0106 (leBytes 4 0x20800000 ++ leBytes 4 8); let s : State := fwRig 2 (fwMsg 0x0106 (leBytes 4 0x20800000 ++ leBytes 4 8)); ((s.asks c m 0x0106 8 true = true ∧ c.val ≤ 3 ∧ s.mode ∈ [4, 7] ∧ s.bufOk (bufAt (msgPl m) 0) = true))) ∧
    (let c : Fin 96 := 2; let img : CfgImg := ⟨[], [], 2, [], [], []⟩; let m : List Byte := fwMsg 0x0106 (leBytes 4 0x20800002 ++ leBytes 4 8); let s : State := fwRig 2 (fwMsg 0x0106 (leBytes 4 0x20800002 ++ leBytes 4 8)); ((s.asks c m 0x0106 8 true = true ∧ c.val ≤ 3 ∧ s.mode ∈ [4, 7] ∧ s.bufOk (bufAt (msgPl m) 0) = false))) ∧
    (let c : Fin 96 := 2; let m : List Byte := fwMsg 0x0201 []; let s : State := fwRig 2 (fwMsg 0x0201 []); ((s.asks c m 0x0201 0 false = true ∧ c.val ≤ 3))) ∧
    (let c : Fin 96 := 2; let m : List Byte := fwMsg 0x0202 (leBytes 4 0x20800000 ++ leBytes 4 36); let b : List Byte := engImg0; let s : State := (fwRig 2 (fwMsg 0x0202 (leBytes 4 0x20800000 ++ leBytes 4 36))).setBytes 0x20800000 engImg0; ((s.asks c m 0x0202 8 true = true ∧ c.val ≤ 3 ∧ s.mode ∈ [4, 7] ∧ s.bufOk (bufAt (msgPl m) 0) = true ∧ b = s.getBlock (bufAt (msgPl m) 0).1 (bufAt (msgPl m) 0).2)) ∧ ((engImgOk b = true ∧ plN b 24 4 = (crc32 (b.drop 32)).toNat))) ∧
    (let c : Fin 96 := 2; let m : List Byte := fwMsg 0x0202 (leBytes 4 0x20800000 ++ leBytes 4 36); let b : List Byte := engImg0; let s : State := (fwRig 2 (fwMsg 0x0202 (leBytes 4 0x20800000 ++ leBytes 4 36))).setBytes 0x20800000 engImg0; ((s.asks c m 0x0202 8 true = true ∧ c.val ≤ 3 ∧ s.mode ∈ [4, 7] ∧ s.bufOk (bufAt (msgPl m) 0) = true ∧ b = s.getBlock (bufAt (msgPl m) 0).1 (bufAt (msgPl m) 0).2)) ∧ ((engImgOk b = true ∧ plN b 24 4 = (crc32 (b.drop 32)).toNat))) ∧
    (let c : Fin 96 := 2; let room : Bool := true; let m : List Byte := fwMsg 0x0202 (leBytes 4 0x20800000 ++ leBytes 4 36); let b : List Byte := putBytes engImg0 33 [5]; let s : State := (fwRig 2 (fwMsg 0x0202 (leBytes 4 0x20800000 ++ leBytes 4 36))).setBytes 0x20800000 (putBytes engImg0 33 [5]); ((s.asks c m 0x0202 8 true = true ∧ c.val ≤ 3 ∧ s.mode ∈ [4, 7] ∧ s.bufOk (bufAt (msgPl m) 0) = true ∧ b = s.getBlock (bufAt (msgPl m) 0).1 (bufAt (msgPl m) 0).2)) ∧ ((engImgOk b = false ∨ plN b 24 4 ≠ (crc32 (b.drop 32)).toNat))) ∧
    (let c : Fin 96 := 2; let m : List Byte := fwMsg 0x0203 [1, 1]; let id : Nat := 0x0101; let s : State := { fwRig 2 (fwMsg 0x0203 [1, 1]) with sys := { SysSt.reset with imgs := [(0x0101, none), (0x0102, none)] } }; ((s.asks c m 0x0203 2 true = true ∧ c.val ≤ 3 ∧ s.mode ∈ [4, 7] ∧ plN (msgPl m) 0 2 = id)) ∧ ((s.insts = [] ∧ s.sys.imgs.any (fun e => e.1 == id) = true))) ∧
    (let c : Fin 96 := 2; let m : List Byte := fwMsg 0x0203 [1, 1]; let id : Nat := 0x0101; let i : Nat := 1; let x : InstSt := instRig; let s : State := (fwRig 2 (fwMsg 0x0203 [1, 1])).setInst 1 (some instRig); ((s.asks c m 0x0203 2 true = true ∧ c.val ≤ 3 ∧ s.mode ∈ [4, 7] ∧ plN (msgPl m) 0 2 = id)) ∧ ((s.insts = [(i, x)] ∧ x.cfg.image = id ∧ i < 4))) ∧
    (let c : Fin 96 := 2; let m : List Byte := fwMsg 0x0204 (leBytes 4 0x20800000 ++ leBytes 4 17); let b : List Byte := fwImg0; let s : State := (fwRig 2 (fwMsg 0x0204 (leBytes 4 0x20800000 ++ leBytes 4 17))).setBytes 0x20800000 fwImg0; ((s.asks c m 0x0204 8 true = true ∧ c.val ≤ 3 ∧ s.mode ∈ [4, 7] ∧ s.bufOk (bufAt (msgPl m) 0) = true ∧ b = s.getBlock (bufAt (msgPl m) 0).1 (bufAt (msgPl m) 0).2)) ∧ (fwImgBad b = 0)) ∧
    (let c : Fin 96 := 2; let room : Bool := true; let m : List Byte := fwMsg 0x0204 (leBytes 4 0x20800000 ++ leBytes 4 17); let b : List Byte := putBytes fwImg0 16 [5]; let s : State := (fwRig 2 (fwMsg 0x0204 (leBytes 4 0x20800000 ++ leBytes 4 17))).setBytes 0x20800000 (putBytes fwImg0 16 [5]); ((s.asks c m 0x0204 8 true = true ∧ c.val ≤ 3 ∧ s.mode ∈ [4, 7] ∧ s.bufOk (bufAt (msgPl m) 0) = true ∧ b = s.getBlock (bufAt (msgPl m) 0).1 (bufAt (msgPl m) 0).2)) ∧ ((fwImgBad b ≠ 0))) ∧
    (let c : Fin 96 := 2; let r : BootRes := ⟨true, none, 0, [], false, false⟩; let s : State := rigIn modeBOOT; ((s.fw.running = false ∧ (3 < c.val ∨ s.mode ≠ modeBOOT ∨ s.trans.isSome = true ∨ s.chan c = [])))) ∧
    (let c : Fin 4 := 2; let r : BootRes := ⟨true, none, 0, [], false, false⟩; let m : List Byte := fwMsg 0x0205 (leBytes 4 17); let n : Nat := 17; let s : State := (rigIn modeBOOT).setChan 2 [fwMsg 0x0205 (leBytes 4 17)]; ((s.fw.running = false ∧ s.mode = modeBOOT ∧ s.trans = none ∧ s.chan c = [m] ∧ plN m 4 2 = 0x0205 ∧ plN m 6 2 = 4 ∧ s.chanFull (4 + c) = false ∧ s.pwr.vote = none)) ∧ ((n = plN (msgPl m) 0 4 ∧ n ≤ 262144 * 256 ∧ fwImgBad (s.getBlock 0x80000000 n) ≠ 0))) ∧
    (let c : Fin 4 := 2; let r : BootRes := ⟨true, none, 0, [], false, false⟩; let m : List Byte := fwMsg 0x0205 (leBytes 4 17); let n : Nat := 17; let s : State := ((rigIn modeBOOT).setChan 2 [fwMsg 0x0205 (leBytes 4 17)]).setBytes 0x80000000 fwImg0; ((s.fw.running = false ∧ s.mode = modeBOOT ∧ s.trans = none ∧ s.chan c = [m] ∧ plN m 4 2 = 0x0205 ∧ plN m 6 2 = 4 ∧ s.chanFull (4 + c) = false)) ∧ ((n = plN (msgPl m) 0 4 ∧ n ≤ 262144 * 256 ∧ fwImgBad (s.getBlock 0x80000000 n) = 0))) := by
  refine ⟨?_, ?_, ?_, ?_, ?_, ?_, ?_, ?_, ?_, ?_, ?_, ?_, ?_, ?_, ?_, ?_, ?_, ?_, ?_, ?_, ?_, ?_, ?_, ?_⟩ <;> decide +kernel

/-- The hypotheses of TransactionMessages hold together. -/
theorem hyps_TransactionMessages :
    (let c : Fin 96 := 57; let m : List Byte := fwMsg 0x0301 []; let k : Nat := 6; let s : State := fwRig 57 (fwMsg 0x0301 []); ((s.asks c m 0x0301 0 true = true ∧ k = sentTxn c ∧ s.flag (TXN_CH_STAT_OPEN k) = false ∧ (s.txnCh k).armed = none ∧ (s.txnCh k).serial + 1 < 2 ^ 24))) ∧
    (let c : Fin 96 := 57; let m : List Byte := fwMsg 0x0301 []; let k : Nat := 6; let s : State := (fwRig 57 (fwMsg 0x0301 [])).setFlag (TXN_CH_STAT_OPEN 6) true; ((s.asks c m 0x0301 0 true = true ∧ k = sentTxn c ∧ s.flag (TXN_CH_STAT_OPEN k) = true))) ∧
    (let c : Fin 96 := 57; let m : List Byte := fwMsg 0x0302 [2, 1, 0, 0, 5, 0, 0, 0, 6, 0, 0, 0] 7; let k : Nat := 6; let s : State := ((fwRig 57 (fwMsg 0x0302 [2, 1, 0, 0, 5, 0, 0, 0, 6, 0, 0, 0] 7)).setFlag (TXN_CH_STAT_OPEN 6) true).setTxn 6 { TxnCh.idle with handle := 7 }; ((s.asks c m 0x0302 12 true = true ∧ k = sentTxn c ∧ s.handleOk c m = true ∧ plN (msgPl m) 0 1 ≤ 3 ∧ plN (msgPl m) 1 1 ≤ 3)) ∧ ((s.flag (TXN_CH_STAT_CHECKING k) = false ∧ (s.txnCh k).armed = none ∧ s.flag (TXN_CH_STAT_LOGFULL k) = false))) ∧
    (let c : Fin 96 := 57; let m : List Byte := fwMsg 0x0302 [2, 1, 0, 0, 5, 0, 0, 0, 6, 0, 0, 0] 8; let s : State := fwRig 57 (fwMsg 0x0302 [2, 1, 0, 0, 5, 0, 0, 0, 6, 0, 0, 0] 8); ((s.asks c m 0x0302 12 true = true ∧ s.handleOk c m = false))) ∧
    (let c : Fin 96 := 57; let m : List Byte := fwMsg 0x0302 [2, 9, 0, 0, 5, 0, 0, 0, 6, 0, 0, 0] 7; let s : State := ((fwRig 57 (fwMsg 0x0302 [2, 9, 0, 0, 5, 0, 0, 0, 6, 0, 0, 0] 7)).setFlag (TXN_CH_STAT_OPEN 6) true).setTxn 6 { TxnCh.idle with handle := 7 }; ((s.asks c m 0x0302 12 true = true ∧ s.handleOk c m = true ∧ (3 < plN (msgPl m) 0 1 ∨ 3 < plN (msgPl m) 1 1)))) ∧
    (let c : Fin 96 := 57; let m : List Byte := fwMsg 0x0303 [] 7; let k : Nat := 6; let s : State := ((fwRig 57 (fwMsg 0x0303 [] 7)).setFlag (TXN_CH_STAT_OPEN 6) true).setTxn 6 { TxnCh.idle with handle := 7 }; ((s.asks c m 0x0303 0 true = true ∧ k = sentTxn c ∧ s.handleOk c m = true ∧ (s.txnCh k).owed = none))) ∧
    (let c : Fin 96 := 57; let m : List Byte := fwMsg 0x0303 [] 7; let s : State := fwRig 57 (fwMsg 0x0303 [] 7); ((s.asks c m 0x0303 0 true = true ∧ s.handleOk c m = false))) ∧
    (let c : Fin 96 := 57; let m : List Byte := fwMsg 0x0304 []; let k : Nat := 6; let s : State := fwRig 57 (fwMsg 0x0304 []); ((s.asks c m 0x0304 0 false = true ∧ k = sentTxn c))) ∧
    (let c : Fin 96 := 57; let m : List Byte := fwMsg 0x0305 (leBytes 4 0x40500004 ++ leBytes 4 3) 7; let k : Nat := 6; let a : Nat := 0x40500004; let v : Word := 3; let s : State := ((fwRig 57 (fwMsg 0x0305 (leBytes 4 0x40500004 ++ leBytes 4 3) 7)).setFlag (TXN_CH_STAT_OPEN 6) true).setTxn 6 { TxnCh.idle with handle := 7 }; ((s.asks c m 0x0305 8 true = true ∧ k = sentTxn c ∧ s.handleOk c m = true ∧ plN m 8 4 ≠ 0 ∧ plN (msgPl m) 0 4 = a ∧ w32 (plN (msgPl m) 4 4) = v)) ∧ ((lauRwt a = true ∧ (s.txnCh k).log = [] ∧ ((List.range 21).map (fun j => (s.txnCh j).log.length)).sum < 4096 ∧ s.flag (TXN_CH_STAT_LOGFULL k) = false))) ∧
    (let c : Fin 96 := 57; let m : List Byte := fwMsg 0x0305 (leBytes 4 0x40500004 ++ leBytes 4 3); let k : Nat := 2; let a : Nat := 0x40500004; let v : Word := 3; let s : State := fwRig 57 (fwMsg 0x0305 (leBytes 4 0x40500004 ++ leBytes 4 3)); ((s.asks c m 0x0305 8 true = true ∧ k = 1 + (servCore c).val ∧ plN m 8 4 = 0 ∧ plN (msgPl m) 0 4 = a ∧ w32 (plN (msgPl m) 4 4) = v)) ∧ ((lauRwt a = true ∧ s.noTxn = true ∧ ∀ j : Fin 21, (s.txnCh j).log = []))) ∧
    (let c : Fin 96 := 57; let m : List Byte := fwMsg 0x0305 (leBytes 4 0x40500000 ++ leBytes 4 3); let s : State := fwRig 57 (fwMsg 0x0305 (leBytes 4 0x40500000 ++ leBytes 4 3)); ((s.asks c m 0x0305 8 true = true ∧ rwtMask (plN (msgPl m) 0 4) = 0))) := by
  refine ⟨?_, ?_, ?_, ?_, ?_, ?_, ?_, ?_, ?_, ?_, ?_⟩ <;> decide +kernel

/-- The hypotheses of NetworkMessages hold together. -/
theorem hyps_NetworkMessages :
    (let c : Fin 96 := 2; let cfg : InstCfg := instRig.cfg; let m : List Byte := fwMsg 0x0401 ([0xFF, 1, 0, 0] ++ leBytes 4 0x20800000 ++ leBytes 4 8); let s : State := (instReady (fwMsg 0x0401 ([0xFF, 1, 0, 0] ++ leBytes 4 0x20800000 ++ leBytes 4 8))); let t : State := ((instReady (fwMsg 0x0401 ([0xFF, 1, 0, 0] ++ leBytes 4 0x20800000 ++ leBytes 4 8))).instStart instRig.cfg 1).1; let i : Nat := 0; let y : InstSt := ((((instReady (fwMsg 0x0401 ([0xFF, 1, 0, 0] ++ leBytes 4 0x20800000 ++ leBytes 4 8))).instStart instRig.cfg 1).1.inst 0).getD instRig); ((s.asks c m 0x0401 12 true = true ∧ c.val ≤ 3 ∧ s.mode = 4 ∧ plN (msgPl m) 0 1 = 0xFF ∧ plN (msgPl m) 1 1 ≤ 3 ∧ s.bufOk (bufAt (msgPl m) 4) = true)) ∧ ((s.instStart cfg (plN (msgPl m) 1 1) = (t, .inl i) ∧ t.inst i = some y ∧ t.chan c = s.chan c ∧ t.asleep = false ∧ t.pwr.vote = none ∧ t.chanFull (retChan c) = false))) ∧
    (let c : Fin 96 := 2; let cfg : InstCfg := { instRig.cfg with image := 7 }; let m : List Byte := fwMsg 0x0401 ([0xFF, 1, 0, 0] ++ leBytes 4 0x20800000 ++ leBytes 4 8); let e : Nat × Nat × Nat := match ((fwRig 2 (fwMsg 0x0401 ([0xFF, 1, 0, 0] ++ leBytes 4 0x20800000 ++ leBytes 4 8))).instStart { instRig.cfg with image := 7 } 1).2 with | .inr e => e | .inl _ => (0, 0, 0); let s : State := fwRig 2 (fwMsg 0x0401 ([0xFF, 1, 0, 0] ++ leBytes 4 0x20800000 ++ leBytes 4 8)); ((s.asks c m 0x0401 12 true = true ∧ c.val ≤ 3 ∧ s.mode = 4 ∧ plN (msgPl m) 0 1 = 0xFF ∧ plN (msgPl m) 1 1 ≤ 3 ∧ s.bufOk (bufAt (msgPl m) 4) = true)) ∧ (s.instStart cfg (plN (msgPl m) 1 1) = (s, .inr e))) ∧
    (let c : Fin 96 := 2; let cfg : InstCfg := ⟨0x0201, 3, none, 0, 0, 12500, 0, 1, 0, 3, false, 0, 0, [], [], [], []⟩; let m : List Byte := fwMsg 0x0401 ([0xFF, 1, 0, 0] ++ leBytes 4 0x20800000 ++ leBytes 4 8); let d : Nat := 1; let s : State := { fwRig 2 (fwMsg 0x0401 ([0xFF, 1, 0, 0] ++ leBytes 4 0x20800000 ++ leBytes 4 8)) with sys := { SysSt.reset with imgs := [(0x0201, none)] } }.setFld BUF_SWCELLS_UNITS 16; ((s.asks c m 0x0401 12 true = true ∧ 1 ≤ c.val ∧ c.val ≤ 3 ∧ s.mode = 4 ∧ plN (msgPl m) 0 1 = 0xFF ∧ plN (msgPl m) 1 1 = d ∧ d ≤ 3 ∧ s.bufOk (bufAt (msgPl m) 4) = true)) ∧ ((cfg.image = 0x0201 ∧ 12500 ≤ cfg.cycle ∧ cfg.peers ≤ 1 ∧ popc (cfg.ports % 4096) = 2 ∧ cfg.can = none ∧ cfg.cells = 0 ∧ cfg.upper = 0 ∧ cfg.fcs = [] ∧ cfg.etypes = [] ∧ cfg.entries = [])) ∧ ((s.insts = [] ∧ s.sys.imgs.any (fun e => e.1 == 0x0201) = true ∧ s.flag (SWX_FC_CFG_VALID 255) = false ∧ s.flag (SWX_FC_CFG_VALID 254) = false ∧ s.sys.kept + 1 ≤ s.fld BUF_SWCELLS_UNITS))) ∧
    (let c : Fin 96 := 2; let cfg : InstCfg := ⟨0x0201, 3, none, 0, 0, 12500, 0, 1, 0, 3, false, 0, 0, [], [], [], []⟩; let m : List Byte := fwMsg 0x0401 ([0xFF, 1, 0, 0] ++ leBytes 4 0x20800000 ++ leBytes 4 8); let d : Nat := 1; let s : State := (((({ fwRig 2 (fwMsg 0x0401 ([0xFF, 1, 0, 0] ++ leBytes 4 0x20800000 ++ leBytes 4 8)) with sys := { SysSt.reset with imgs := [(0x0201, none)] } }).setInst 0 (some instRig)).setInst 1 (some instRig)).setInst 2 (some instRig)).setInst 3 (some instRig); ((s.asks c m 0x0401 12 true = true ∧ c.val ≤ 3 ∧ s.mode = 4 ∧ plN (msgPl m) 0 1 = 0xFF ∧ plN (msgPl m) 1 1 = d ∧ d ≤ 3 ∧ s.bufOk (bufAt (msgPl m) 4) = true)) ∧ ((∀ k : Fin 4, (s.inst k).isSome = true))) ∧
    (let c : Fin 96 := 2; let cfg : InstCfg := ⟨0x0201, 3, none, 0, 0, 12499, 0, 1, 0, 3, false, 0, 0, [], [], [], []⟩; let m : List Byte := fwMsg 0x0401 ([0xFF, 1, 0, 0] ++ leBytes 4 0x20800000 ++ leBytes 4 8); let d : Nat := 1; let s : State := { fwRig 2 (fwMsg 0x0401 ([0xFF, 1, 0, 0] ++ leBytes 4 0x20800000 ++ leBytes 4 8)) with sys := { SysSt.reset with imgs := [(0x0201, none)] } }; ((s.asks c m 0x0401 12 true = true ∧ c.val ≤ 3 ∧ s.mode = 4 ∧ plN (msgPl m) 0 1 = 0xFF ∧ plN (msgPl m) 1 1 = d ∧ d ≤ 3 ∧ s.bufOk (bufAt (msgPl m) 4) = true)) ∧ ((cfg.image = 0x0201 ∧ cfg.cycle < 12500 ∧ cfg.peers ≤ 1 ∧ s.sys.imgs.any (fun e => e.1 == 0x0201) = true ∧ (s.inst 0).isNone = true))) ∧
    (let c : Fin 96 := 2; let cfg : InstCfg := ⟨0x0201, 3, none, 0, 0, 12500, 0, 2, 0, 3, false, 0, 0, [], [], [], []⟩; let m : List Byte := fwMsg 0x0401 ([0xFF, 1, 0, 0] ++ leBytes 4 0x20800000 ++ leBytes 4 8); let d : Nat := 1; let s : State := { fwRig 2 (fwMsg 0x0401 ([0xFF, 1, 0, 0] ++ leBytes 4 0x20800000 ++ leBytes 4 8)) with sys := { SysSt.reset with imgs := [(0x0201, none)] } }; ((s.asks c m 0x0401 12 true = true ∧ c.val ≤ 3 ∧ s.mode = 4 ∧ plN (msgPl m) 0 1 = 0xFF ∧ plN (msgPl m) 1 1 = d ∧ d ≤ 3 ∧ s.bufOk (bufAt (msgPl m) 4) = true)) ∧ ((cfg.image = 0x0201 ∧ 12500 ≤ cfg.cycle ∧ 1 < cfg.peers ∧ s.sys.imgs.any (fun e => e.1 == 0x0201) = true ∧ (s.inst 0).isNone = true))) ∧
    (let c : Fin 96 := 2; let cfg : InstCfg := ⟨0x0201, 3, none, 0, 0, 12500, 0, 1, 0, 3, false, 0, 0, [], [], [], []⟩; let m : List Byte := fwMsg 0x0401 ([0xFF, 1, 0, 0] ++ leBytes 4 0x20800000 ++ leBytes 4 8); let d : Nat := 1; let s : State := ({ fwRig 2 (fwMsg 0x0401 ([0xFF, 1, 0, 0] ++ leBytes 4 0x20800000 ++ leBytes 4 8)) with sys := { SysSt.reset with imgs := [(0x0201, none)] } }).setInst 1 (some { instRig with cfg := { instRig.cfg with image := 0x0201 }, dom := 1 }); ((s.asks c m 0x0401 12 true = true ∧ c.val ≤ 3 ∧ s.mode = 4 ∧ plN (msgPl m) 0 1 = 0xFF ∧ plN (msgPl m) 1 1 = d ∧ d ≤ 3 ∧ s.bufOk (bufAt (msgPl m) 4) = true)) ∧ ((cfg.image = 0x0201 ∧ 12500 ≤ cfg.cycle ∧ cfg.peers ≤ 1 ∧ s.sys.imgs.any (fun e => e.1 == 0x0201) = true ∧ (s.inst 0).isNone = true ∧ s.insts.any (fun e => e.2.cfg.image == 0x0201 && e.2.dom == d) = true))) ∧
    (let c : Fin 96 := 2; let cfg : InstCfg := instRig.cfg; let m : List Byte := fwMsg 0x0401 ([16, 1, 0, 0] ++ leBytes 8 0); let n : Nat := 16; let d : Nat := 1; let s : State := fwRig 2 (fwMsg 0x0401 ([16, 1, 0, 0] ++ leBytes 8 0)); ((s.asks c m 0x0401 12 true = true ∧ c.val ≤ 3 ∧ s.mode = 4 ∧ plN (msgPl m) 0 1 = n ∧ plN (msgPl m) 1 1 = d)) ∧ (((15 < n ∧ n ≠ 0xFF) ∨ (3 < d ∧ d ≠ 0xFF)))) ∧
    (let c : Fin 96 := 2; let m : List Byte := fwMsg 0x0402 [1]; let i : Nat := 1; let s : State := (fwRig 2 (fwMsg 0x0402 [1])).setInst 1 (some instRig); ((s.asks c m 0x0402 1 true = true ∧ c.val ≤ 3 ∧ s.mode = 4 ∧ plN (msgPl m) 0 1 = i ∧ i ≤ 3 ∧ (s.inst i).isSome = true)) ∧ (((s.instStop i).chan c = s.chan c ∧ (s.instStop i).asleep = false ∧ (s.instStop i).pwr.vote = none ∧ (s.instStop i).chanFull (retChan c) = false))) ∧
    (let c : Fin 96 := 2; let m : List Byte := fwMsg 0x0402 [1]; let i : Nat := 1; let s : State := fwRig 2 (fwMsg 0x0402 [1]); ((s.asks c m 0x0402 1 true = true ∧ c.val ≤ 3 ∧ s.mode = 4 ∧ plN (msgPl m) 0 1 = i ∧ (3 < i ∨ (s.inst i).isNone = true)))) ∧
    (let c : Fin 96 := 57; let m : List Byte := fwMsg 0x0403 [1]; let i : Nat := 1; let x : InstSt := instRig; let s : State := (fwRig 57 (fwMsg 0x0403 [1])).setInst 1 (some instRig); ((s.asks c m 0x0403 1 false = true ∧ plN (msgPl m) 0 1 = i ∧ i ≤ 3 ∧ s.inst i = some x))) ∧
    (let c : Fin 96 := 57; let m : List Byte := fwMsg 0x0403 [4]; let i : Nat := 4; let s : State := fwRig 57 (fwMsg 0x0403 [4]); ((s.asks c m 0x0403 1 false = true ∧ plN (msgPl m) 0 1 = i ∧ 3 < i))) ∧
    (let c : Fin 96 := 2; let m : List Byte := fwMsg 0x0404 [1, 2, 3, 4, 5, 6, 5, 0, 3, 1]; let a : List Byte := [1, 2, 3, 4, 5, 6]; let v : Nat := 5; let q : Nat := 3; let f : Nat := 1; let s : State := fwRig 2 (fwMsg 0x0404 [1, 2, 3, 4, 5, 6, 5, 0, 3, 1]); ((s.asks c m 0x0404 10 true = true ∧ c.val ≤ 3 ∧ s.mode ∈ [4, 5, 6, 7, 8] ∧ slice (msgPl m) 0 6 = a ∧ plN (msgPl m) 6 2 = v ∧ plN (msgPl m) 8 1 = q ∧ plN (msgPl m) 9 1 = f)) ∧ ((0 < v ∧ v < 4095 ∧ q ≤ 31 ∧ ((s.fdbFind v a).isSome = true ∨ s.swx.fdb.length < 4)))) ∧
    (let c : Fin 96 := 2; let m : List Byte := fwMsg 0x0404 [1, 2, 3, 4, 5, 6, 5, 0, 33, 1]; let v : Nat := 5; let q : Nat := 33; let s : State := fwRig 2 (fwMsg 0x0404 [1, 2, 3, 4, 5, 6, 5, 0, 33, 1]); ((s.asks c m 0x0404 10 true = true ∧ c.val ≤ 3 ∧ s.mode ∈ [4, 5, 6, 7, 8] ∧ plN (msgPl m) 6 2 = v ∧ plN (msgPl m) 8 1 = q)) ∧ ((v = 0 ∨ 4095 ≤ v ∨ 31 < q))) ∧
    (let c : Fin 96 := 2; let m : List Byte := fwMsg 0x0405 [1, 2, 3, 4, 5, 6, 5, 0]; let a : List Byte := [1, 2, 3, 4, 5, 6]; let v : Nat := 5; let s : State := { fwRig 2 (fwMsg 0x0405 [1, 2, 3, 4, 5, 6, 5, 0]) with swx := { SwxSt.reset with fdb := [⟨5, [1, 2, 3, 4, 5, 6], 2, true, 0⟩] } }; ((s.asks c m 0x0405 8 true = true ∧ c.val ≤ 3 ∧ s.mode ∈ [4, 5, 6, 7, 8] ∧ slice (msgPl m) 0 6 = a ∧ plN (msgPl m) 6 2 = v ∧ 0 < v ∧ v < 4095))) ∧
    (let c : Fin 96 := 2; let m : List Byte := fwMsg 0x0406 [1, 2, 3, 4, 5, 6, 5, 0]; let a : List Byte := [1, 2, 3, 4, 5, 6]; let v : Nat := 5; let s : State := { fwRig 2 (fwMsg 0x0406 [1, 2, 3, 4, 5, 6, 5, 0]) with swx := { SwxSt.reset with fdb := [⟨5, [1, 2, 3, 4, 5, 6], 2, true, 0⟩] } }; ((s.asks c m 0x0406 8 false = true ∧ c.val ≤ 3 ∧ slice (msgPl m) 0 6 = a ∧ plN (msgPl m) 6 2 = v ∧ 0 < v ∧ v < 4095))) ∧
    (let c : Fin 96 := 2; let m : List Byte := fwMsg 0x0407 [4, 0, 0, 0, 1]; let mask : Nat := 4; let k : Nat := 1; let s : State := { fwRig 2 (fwMsg 0x0407 [4, 0, 0, 0, 1]) with swx := { SwxSt.reset with fdb := [⟨5, [1, 2, 3, 4, 5, 6], 2, true, 0⟩] } }; ((s.asks c m 0x0407 5 true = true ∧ c.val ≤ 3 ∧ s.mode ∈ [4, 5, 6, 7, 8] ∧ plN (msgPl m) 0 4 = mask ∧ plN (msgPl m) 4 1 = k))) ∧
    (let c : Fin 96 := 2; let m : List Byte := fwMsg 0x0408 [5, 0, 0, 0, 1, 2, 0, 0, 3, 0]; let v : Nat := 5; let s : State := fwRig 2 (fwMsg 0x0408 [5, 0, 0, 0, 1, 2, 0, 0, 3, 0]); ((s.asks c m 0x0408 10 true = true ∧ c.val ≤ 3 ∧ s.mode ∈ [4, 5, 6, 7, 8] ∧ plN (msgPl m) 0 2 = v ∧ 0 < v ∧ v < 4095))) ∧
    (let c : Fin 96 := 2; let m : List Byte := fwMsg 0x0409 [5, 0]; let v : Nat := 5; let s : State := fwRig 2 (fwMsg 0x0409 [5, 0]); ((s.asks c m 0x0409 2 false = true ∧ c.val ≤ 3 ∧ plN (msgPl m) 0 2 = v))) := by
  refine ⟨?_, ?_, ?_, ?_, ?_, ?_, ?_, ?_, ?_, ?_, ?_, ?_, ?_, ?_, ?_, ?_, ?_, ?_, ?_⟩ <;> decide +kernel

/-- The hypotheses of TimeAndLoopMessages hold together. -/
theorem hyps_TimeAndLoopMessages :
    (let c : Fin 96 := 57; let m : List Byte := fwMsg 0x0503 [2]; let d : Nat := 2; let s : State := ((fwRig 57 (fwMsg 0x0503 [2])).setRegN (TIME_DOM_SEC_LO 2) 77).setRegN (TIME_DOM_NS 2) 5; ((s.asks c m 0x0503 1 false = true ∧ plN (msgPl m) 0 1 = d ∧ d ≤ 3)) ∧ ((∀ a ∈ [TIME_DOM_NS d, TIME_DOM_SEC_LO d, TIME_DOM_SEC_HI d, TIME_DOM_FRAC d, TIME_DOM_ADJ d], s.reads (servMaster c) a = true))) ∧
    (let c : Fin 96 := 2; let m : List Byte := fwMsg 0x0502 [2]; let d : Nat := 2; let s : State := (fwRig 2 (fwMsg 0x0502 [2])).setFld (TIME_DOM_STAT_STATE 2) 2; ((s.asks c m 0x0502 1 true = true ∧ c.val ≤ 3 ∧ s.mode ∈ [4, 7, 8] ∧ plN (msgPl m) 0 1 = d ∧ d ≤ 3 ∧ s.followed d = false ∧ s.grants (servMaster c) (TIME_DOM_CTRL d) 4#32 = true))) ∧
    (let c : Fin 96 := 2; let m : List Byte := fwMsg 0x0502 [2]; let d : Nat := 2; let s : State := (fwRig 2 (fwMsg 0x0502 [2])).setInst 1 (some { instRig with dom := 2 }); ((s.asks c m 0x0502 1 true = true ∧ c.val ≤ 3 ∧ s.mode ∈ [4, 7, 8] ∧ plN (msgPl m) 0 1 = d ∧ (3 < d ∨ s.followed d = true)))) ∧
    (let c : Fin 96 := 57; let m : List Byte := fwMsg 0x0501 ([2, 1] ++ List.replicate 14 0); let d : Nat := 2; let s : State := fwRig 57 (fwMsg 0x0501 ([2, 1] ++ List.replicate 14 0)); ((s.asks c m 0x0501 16 true = true ∧ s.mode ∈ [4, 5, 6, 7, 8] ∧ plN (msgPl m) 0 1 = d ∧ d ≤ 3 ∧ plN (msgPl m) 1 1 = 1 ∧ s.followed d = false ∧ s.grants (servMaster c) (TIME_DOM_CTRL d) 3#32 = true))) ∧
    (let c : Fin 96 := 57; let m : List Byte := fwMsg 0x0501 ([4, 1] ++ List.replicate 14 0); let d : Nat := 4; let s : State := fwRig 57 (fwMsg 0x0501 ([4, 1] ++ List.replicate 14 0)); ((s.asks c m 0x0501 16 true = true ∧ s.mode ∈ [4, 5, 6, 7, 8] ∧ plN (msgPl m) 0 1 = d ∧ (3 < d ∨ 1 < plN (msgPl m) 1 1)))) ∧
    (let c : Fin 96 := 2; let m : List Byte := fwMsg 0x0504 ([0, 0, 0, 0, 5, 0, 0, 0] ++ leBytes 4 0); let s : State := fwRig 2 (fwMsg 0x0504 ([0, 0, 0, 0, 5, 0, 0, 0] ++ leBytes 4 0)); ((s.asks c m 0x0504 12 true = true ∧ c.val ≤ 3 ∧ s.mode ∈ [4, 5, 6, 7, 8])) ∧ ((∀ a ∈ [TIME_PPS_SEC_LO, TIME_PPS_SEC_HI, TIME_PPS_CTRL], s.arrives (servMaster c) a true = true))) ∧
    (let c : Fin 96 := 57; let m : List Byte := fwMsg 0x0505 ([1, 0, 0, 0, 5, 0, 0, 0] ++ leBytes 4 0); let k : Nat := 1; let s : State := (fwRig 57 (fwMsg 0x0505 ([1, 0, 0, 0, 5, 0, 0, 0] ++ leBytes 4 0))).setFlag (LAU_CTRL_EN 1) true; ((s.asks c m 0x0505 12 true = true ∧ s.mode ∈ [4, 5, 6, 7, 8] ∧ plN (msgPl m) 0 1 = k ∧ k ≤ 1 ∧ s.lineHasLau k = false ∧ s.angleSlotOn k = false ∧ (∀ a ∈ [LAU_SET_LO k, LAU_SET_HI k, LAU_CTRL k], s.arrives (servMaster c) a true = true)))) ∧
    (let c : Fin 96 := 57; let m : List Byte := fwMsg 0x0505 ([3, 0, 0, 0, 5, 0, 0, 0] ++ leBytes 4 0); let k : Nat := 3; let s : State := fwRig 57 (fwMsg 0x0505 ([3, 0, 0, 0, 5, 0, 0, 0] ++ leBytes 4 0)); ((s.asks c m 0x0505 12 true = true ∧ s.mode ∈ [4, 5, 6, 7, 8] ∧ plN (msgPl m) 0 1 = k ∧ (1 < k ∨ s.lineHasLau k = true)))) ∧
    (let c : Fin 96 := 57; let m : List Byte := fwMsg 0x0506 [1]; let k : Nat := 1; let s : State := (fwRig 57 (fwMsg 0x0506 [1])).setReg (LAU_SPD 1) 77#32; ((s.asks c m 0x0506 1 false = true ∧ plN (msgPl m) 0 1 = k ∧ k ≤ 1)) ∧ ((∀ a ∈ [LAU_ANG_LO k, LAU_ANG_HI k, LAU_SPD k, LAU_ACC k, LAU_STAT k], s.reads (servMaster c) a = true))) ∧
    (let c : Fin 96 := 57; let m : List Byte := fwMsg 0x0507 ([1, 0, 0, 0, 5, 0, 0, 0]); let k : Nat := 1; let s : State := fwRig 57 (fwMsg 0x0507 ([1, 0, 0, 0, 5, 0, 0, 0])); ((s.asks c m 0x0507 8 true = true ∧ s.mode ∈ [4, 5, 6, 7, 8] ∧ plN (msgPl m) 0 1 = k ∧ k ≤ 1 ∧ s.lineHasLau k = false ∧ s.grants (servMaster c) (LAU_VM_SPD k) (w32 (plN (msgPl m) 4 4)) = true))) ∧
    (let c : Fin 96 := 57; let m : List Byte := fwMsg 0x0601 ([5, 16, 2, 0] ++ leBytes 4 7 ++ leBytes 4 9); let k : Nat := 5; let i : Nat := 16; let n : Nat := 2; let s : State := fwRig 57 (fwMsg 0x0601 ([5, 16, 2, 0] ++ leBytes 4 7 ++ leBytes 4 9)); ((s.asks c m 0x0601 (4 + 4 * n) true = true ∧ plN (msgPl m) 0 1 = k ∧ plN (msgPl m) 1 1 = i ∧ plN (msgPl m) 2 1 = n ∧ 1 ≤ n ∧ n ≤ 10 ∧ i + n ≤ 256)) ∧ ((plN m 8 4 = 0 ∧ s.noTxn = true ∧ s.rwlLocked = false ∧ ∀ j : Fin 21, (s.txnCh j).log = []))) ∧
    (let c : Fin 96 := 57; let m : List Byte := fwMsg 0x0601 ([5, 255, 2, 0] ++ leBytes 4 7 ++ leBytes 4 9); let i : Nat := 255; let n : Nat := 2; let s : State := fwRig 57 (fwMsg 0x0601 ([5, 255, 2, 0] ++ leBytes 4 7 ++ leBytes 4 9)); ((s.asks c m 0x0601 (4 + 4 * n) true = true ∧ plN (msgPl m) 1 1 = i ∧ plN (msgPl m) 2 1 = n ∧ (n < 1 ∨ 10 < n ∨ 256 < i + n)))) ∧
    (let c : Fin 96 := 57; let m : List Byte := fwMsg 0x0602 [5, 16, 2, 0]; let k : Nat := 5; let i : Nat := 16; let n : Nat := 2; let s : State := (fwRig 57 (fwMsg 0x0602 [5, 16, 2, 0])).setMem32 0x20B01444 9; ((s.asks c m 0x0602 4 false = true ∧ plN (msgPl m) 0 1 = k ∧ plN (msgPl m) 1 1 = i ∧ plN (msgPl m) 2 1 = n ∧ 1 ≤ n ∧ n ≤ 12 ∧ i + n ≤ 256 ∧ plN (msgPl m) 3 1 = 0))) ∧
    (let c : Fin 96 := 57; let m : List Byte := fwMsg 0x0602 [5, 16, 2, 1]; let k : Nat := 5; let i : Nat := 16; let n : Nat := 2; let s : State := (fwRig 57 (fwMsg 0x0602 [5, 16, 2, 1])).setMem32 0x20B41444 9; ((s.asks c m 0x0602 4 false = true ∧ plN (msgPl m) 0 1 = k ∧ plN (msgPl m) 1 1 = i ∧ plN (msgPl m) 2 1 = n ∧ 1 ≤ n ∧ n ≤ 12 ∧ i + n ≤ 256 ∧ plN (msgPl m) 3 1 = 1))) ∧
    (let c : Fin 96 := 57; let m : List Byte := fwMsg 0x0603 [5, 2, 0, 0, 1, 0, 0, 0]; let k : Nat := 5; let b : Nat := 2; let s : State := fwRig 57 (fwMsg 0x0603 [5, 2, 0, 0, 1, 0, 0, 0]); ((s.asks c m 0x0603 8 true = true ∧ plN (msgPl m) 0 1 = k ∧ plN (msgPl m) 1 1 = b ∧ s.reads (servMaster c) (LOOP_CTX_CTRL k) = true ∧ b = 2 ∧ s.flag (LOOP_CTX_CTRL_EN k) = false))) ∧
    (let c : Fin 96 := 57; let m : List Byte := fwMsg 0x0604 [5, 0, 0, 0, 1, 0, 0, 0, 2, 0, 0, 0, 3, 0, 0, 0] 7; let k : Nat := 5; let s : State := ((fwRig 57 (fwMsg 0x0604 [5, 0, 0, 0, 1, 0, 0, 0, 2, 0, 0, 0, 3, 0, 0, 0] 7)).setFlag (TXN_CH_STAT_OPEN 6) true).setTxn 6 { TxnCh.idle with handle := 7 }; ((s.asks c m 0x0604 16 true = true ∧ plN (msgPl m) 0 1 = k ∧ plN m 8 4 ≠ 0 ∧ s.handleOk c m = true)) ∧ ((s.flag (TXN_CH_STAT_LOGFULL (sentTxn c)) = false ∧ (s.txnCh (sentTxn c)).log = [] ∧ ((List.range 21).map (fun j => (s.txnCh j).log.length)).sum < 4000))) ∧
    (let c : Fin 96 := 2; let m : List Byte := fwMsg 0x0605 ([3, 7, 0, 0] ++ leBytes 4 0x20800000 ++ leBytes 4 256); let t : Nat := 7; let s : State := (fwRig 2 (fwMsg 0x0605 ([3, 7, 0, 0] ++ leBytes 4 0x20800000 ++ leBytes 4 256))).setMem32 0x20800004 0x12345678; ((s.asks c m 0x0605 12 true = true ∧ c.val ≤ 3 ∧ s.mode ∈ [4, 5, 6, 7, 8] ∧ plN (msgPl m) 0 1 = 3 ∧ plN (msgPl m) 1 1 = t ∧ s.tableUsed 3 t = false)) ∧ ((s.bufOk (bufAt (msgPl m) 4) = true ∧ (bufAt (msgPl m) 4).2 = 0x100))) ∧
    (let c : Fin 96 := 2; let m : List Byte := fwMsg 0x0605 ([4, 7, 0, 0] ++ leBytes 4 0x20800000 ++ leBytes 4 256); let k : Nat := 4; let t : Nat := 7; let s : State := fwRig 2 (fwMsg 0x0605 ([4, 7, 0, 0] ++ leBytes 4 0x20800000 ++ leBytes 4 256)); ((s.asks c m 0x0605 12 true = true ∧ c.val ≤ 3 ∧ s.mode ∈ [4, 5, 6, 7, 8] ∧ plN (msgPl m) 0 1 = k ∧ plN (msgPl m) 1 1 = t)) ∧ ((3 < k ∨ (k = 3 ∧ s.tableUsed 3 t = true ∧ s.bufOk (bufAt (msgPl m) 4) = true ∧ (bufAt (msgPl m) 4).2 = 0x100)))) ∧
    (let c : Fin 96 := 57; let m : List Byte := fwMsg 0x0606 (leBytes 4 0 ++ leBytes 4 1 ++ leBytes 4 0x20B80000 ++ leBytes 4 64); let s : State := fwRig 57 (fwMsg 0x0606 (leBytes 4 0 ++ leBytes 4 1 ++ leBytes 4 0x20B80000 ++ leBytes 4 64)); ((s.asks c m 0x0606 16 true = true ∧ s.mode ∈ [4, 5, 6, 7, 8] ∧ s.reads (servMaster c) LOOP_CAP_SEL = true ∧ (plN (msgPl m) 0 4) % 2 = 0))) ∧
    (let c : Fin 96 := 57; let m : List Byte := fwMsg 0x0607 (leBytes 4 0 ++ leBytes 4 1 ++ leBytes 4 2 ++ leBytes 4 3 ++ leBytes 4 4); let s : State := fwRig 57 (fwMsg 0x0607 (leBytes 4 0 ++ leBytes 4 1 ++ leBytes 4 2 ++ leBytes 4 3 ++ leBytes 4 4)); ((s.asks c m 0x0607 20 true = true ∧ s.mode ∈ [4, 5, 6, 7, 8] ∧ s.reads (servMaster c) LOOP_TSG_AMP = true ∧ plN (msgPl m) 0 4 = 0))) ∧
    (let c : Fin 96 := 57; let m : List Byte := fwMsg 0x0608 [5]; let k : Nat := 5; let s : State := (fwRig 57 (fwMsg 0x0608 [5])).setRegN (LOOP_CTX_CNT 5 2) 9; ((s.asks c m 0x0608 1 false = true ∧ plN (msgPl m) 0 1 = k ∧ s.reads (servMaster c) (LOOP_CTX_STAT k) = true ∧ s.domOn 9 = true))) := by
  refine ⟨?_, ?_, ?_, ?_, ?_, ?_, ?_, ?_, ?_, ?_, ?_, ?_, ?_, ?_, ?_, ?_, ?_, ?_, ?_, ?_, ?_⟩ <;> decide +kernel

/-- The hypotheses of CanNutDiagMessages hold together. -/
theorem hyps_CanNutDiagMessages :
    (let c : Fin 96 := 2; let m : List Byte := fwMsg 0x0701 ([1, 0, 0, 0] ++ leBytes 4 2 ++ leBytes 4 0x00092713 ++ leBytes 4 0x00000703 ++ leBytes 4 0); let n : Nat := 1; let x : Nat := 0x00092713; let y : Nat := 0x00000703; let z : Nat := 0; let s : State := fwRig 2 (fwMsg 0x0701 ([1, 0, 0, 0] ++ leBytes 4 2 ++ leBytes 4 0x00092713 ++ leBytes 4 0x00000703 ++ leBytes 4 0)); ((s.asks c m 0x0701 20 true = true ∧ c.val ≤ 3 ∧ s.mode = 4 ∧ plN (msgPl m) 0 1 = n ∧ n ≤ 3 ∧ plN (msgPl m) 8 4 = x ∧ plN (msgPl m) 12 4 = y ∧ plN (msgPl m) 16 4 = z)) ∧ ((s.canHeld n = false ∧ s.flag (CAN_CTRL_INIT n) = true ∧ s.flag (CAN_STAT_INITACK n) = true ∧ ∀ a ∈ [CAN_CTRL n, CAN_NBT n, CAN_DBT n, CAN_TDC n], s.arrives (servMaster c) a true = true)) ∧ (((((s.putReg (servMaster c) ((findReg (CAN_NBT n)).getD ⟨"", 0, [], [], 0⟩) (CAN_NBT n) (w32 x)).putReg (servMaster c) ((findReg (CAN_DBT n)).getD ⟨"", 0, [], [], 0⟩) (CAN_DBT n) (w32 y)).setFlag (CAN_CTRL_FDEN n) ((plN (msgPl m) 4 4).testBit 1)).badTim n).flag (CAN_STAT_BADTIM n) = false)) ∧
    (let c : Fin 96 := 2; let m : List Byte := fwMsg 0x0701 ([1, 0, 0, 0] ++ leBytes 16 0); let n : Nat := 1; let s : State := (fwRig 2 (fwMsg 0x0701 ([1, 0, 0, 0] ++ leBytes 16 0))).setFlag (CAN_STAT_INITACK 1) false; ((s.asks c m 0x0701 20 true = true ∧ c.val ≤ 3 ∧ s.mode = 4 ∧ plN (msgPl m) 0 1 = n ∧ n ≤ 3 ∧ s.canHeld n = false ∧ s.flag (CAN_CTRL_INIT n) = true ∧ s.flag (CAN_STAT_INITACK n) = false))) ∧
    (let c : Fin 96 := 2; let m : List Byte := fwMsg 0x0701 ([4, 0, 0, 0] ++ leBytes 16 0); let n : Nat := 4; let s : State := fwRig 2 (fwMsg 0x0701 ([4, 0, 0, 0] ++ leBytes 16 0)); ((s.asks c m 0x0701 20 true = true ∧ c.val ≤ 3 ∧ s.mode = 4 ∧ plN (msgPl m) 0 1 = n ∧ (3 < n ∨ s.canHeld n = true)))) ∧
    (let c : Fin 96 := 2; let m : List Byte := fwMsg 0x0702 ([1, 0, 0, 0] ++ leBytes 4 0x20800000 ++ leBytes 4 524); let n : Nat := 1; let s : State := fwRig 2 (fwMsg 0x0702 ([1, 0, 0, 0] ++ leBytes 4 0x20800000 ++ leBytes 4 524)); ((s.asks c m 0x0702 12 true = true ∧ c.val ≤ 3 ∧ s.mode ∈ [4, 5, 6, 7, 8] ∧ plN (msgPl m) 0 1 = n ∧ n ≤ 3 ∧ s.canHeld n = false ∧ s.bufOk (bufAt (msgPl m) 4) = true ∧ (bufAt (msgPl m) 4).2 = 524)) ∧ ((plN m 8 4 = 0 ∧ s.noTxn = true ∧ ∀ j : Fin 21, (s.txnCh j).log = []))) ∧
    (let c : Fin 96 := 2; let m : List Byte := fwMsg 0x0702 ([1, 0, 0, 0] ++ leBytes 4 0x20000000 ++ leBytes 4 524); let n : Nat := 1; let s : State := fwRig 2 (fwMsg 0x0702 ([1, 0, 0, 0] ++ leBytes 4 0x20000000 ++ leBytes 4 524)); ((s.asks c m 0x0702 12 true = true ∧ c.val ≤ 3 ∧ s.mode ∈ [4, 5, 6, 7, 8] ∧ plN (msgPl m) 0 1 = n ∧ (3 < n ∨ s.canHeld n = true ∨ s.bufOk (bufAt (msgPl m) 4) = false)))) ∧
    (let c : Fin 96 := 57; let m : List Byte := fwMsg 0x0703 [1]; let n : Nat := 1; let s : State := (fwRig 57 (fwMsg 0x0703 [1])).setReg (CAN_TT_DRIFT 1) 5#32; ((s.asks c m 0x0703 1 false = true ∧ plN (msgPl m) 0 1 = n ∧ n ≤ 3 ∧ ∀ a ∈ [CAN_STAT n, CAN_ERR n, CAN_TT_STAT n, CAN_TT_DRIFT n], s.reads (servMaster c) a = true))) ∧
    (let c : Fin 96 := 2; let m : List Byte := fwMsg 0x0704 [1]; let n : Nat := 1; let s : State := ((fwRig 2 (fwMsg 0x0704 [1])).setFlag (CAN_CTRL_INIT 1) false).setFld (CAN_TT_STAT_STATE 1) 6; ((s.asks c m 0x0704 1 true = true ∧ c.val ≤ 3 ∧ plN (msgPl m) 0 1 = n ∧ n ≤ 3 ∧ s.canHeld n = false ∧ s.flag (CAN_CTRL_INIT n) = false ∧ s.fld (CAN_TT_STAT_STATE n) = 6 ∧ s.arrives (servMaster c) (CAN_CTRL n) true = true))) ∧
    (let c : Fin 96 := 2; let m : List Byte := fwMsg 0x0705 [1]; let n : Nat := 1; let s : State := ((fwRig 2 (fwMsg 0x0705 [1])).setFlag (CAN_CTRL_INIT 1) false).setFld (CAN_STAT_FCS 1) 2; ((s.asks c m 0x0705 1 true = true ∧ c.val ≤ 3 ∧ plN (msgPl m) 0 1 = n ∧ n ≤ 3 ∧ s.canHeld n = false ∧ s.flag (CAN_CTRL_INIT n) = false ∧ s.arrives (servMaster c) (CAN_CTRL n) true = true))) ∧
    (let c : Fin 96 := 2; let m : List Byte := fwMsg 0x0801 ([3, 0, 0, 0] ++ leBytes 4 0x20800000 ++ leBytes 4 180); let k : Nat := 3; let s : State := (fwRig 2 (fwMsg 0x0801 ([3, 0, 0, 0] ++ leBytes 4 0x20800000 ++ leBytes 4 180))).setMem32 0x20800038 0x12345678; ((s.asks c m 0x0801 12 true = true ∧ c.val ≤ 3 ∧ s.mode ∈ [4, 6, 7, 8] ∧ plN (msgPl m) 0 1 = k ∧ k ≤ 31 ∧ s.cellHeld k = false ∧ s.bufOk (bufAt (msgPl m) 4) = true ∧ (bufAt (msgPl m) 4).2 = 180 ∧ s.arrives (servMaster c) (NUT_CTRL k) true = true ∧ s.fw.running = true))) ∧
    (let c : Fin 96 := 2; let m : List Byte := fwMsg 0x0801 ([3, 0, 0, 0] ++ leBytes 4 0x20800000 ++ leBytes 4 180); let k : Nat := 3; let s : State := (fwRig 2 (fwMsg 0x0801 ([3, 0, 0, 0] ++ leBytes 4 0x20800000 ++ leBytes 4 180))).setReg PWR_SCELLS 8#32; ((s.asks c m 0x0801 12 true = true ∧ c.val ≤ 3 ∧ s.mode ∈ [4, 6, 7, 8] ∧ plN (msgPl m) 0 1 = k ∧ (31 < k ∨ s.cellHeld k = true)))) ∧
    (let c : Fin 96 := 2; let m : List Byte := fwMsg 0x0802 [12, 0, 0, 0, 2]; let a : Nat := 2; let mask : Nat := 12; let s : State := (fwRig 2 (fwMsg 0x0802 [12, 0, 0, 0, 2])).setFlag (NUT_CTRL_EN 4) true; ((s.asks c m 0x0802 5 true = true ∧ c.val ≤ 3 ∧ plN (msgPl m) 0 4 = mask ∧ plN (msgPl m) 4 1 = a ∧ a ≤ 2 ∧ (∀ k : Fin 32, mask.testBit k → s.cellHeld k = false) ∧ ∀ k : Fin 32, s.arrives (servMaster c) (NUT_CTRL k) true = true))) ∧
    (let c : Fin 96 := 2; let m : List Byte := fwMsg 0x0802 [8, 0, 0, 0, 3]; let k : Nat := 3; let s : State := (fwRig 2 (fwMsg 0x0802 [8, 0, 0, 0, 3])).setFlag (NUT_CTRL_EN 3) true; ((s.asks c m 0x0802 5 true = true ∧ c.val ≤ 3 ∧ plN (msgPl m) 0 4 = 2 ^ k ∧ k ≤ 31 ∧ plN (msgPl m) 4 1 = 3 ∧ s.cellHeld k = false ∧ s.arrives (servMaster c) (NUT_CTRL k) true = true)) ∧ ((s.flag (NUT_CTRL_EN k) = true ∧ (s.nutSt k).armed = false ∧ (s.nutSt k).stopped = false ∧ (s.nutSt k).ip = none))) ∧
    (let c : Fin 96 := 2; let m : List Byte := fwMsg 0x0802 [9, 0, 0, 0, 2]; let k : Nat := 3; let s : State := (fwRig 2 (fwMsg 0x0802 [9, 0, 0, 0, 2])).setReg PWR_SCELLS 8#32; ((s.asks c m 0x0802 5 true = true ∧ c.val ≤ 3 ∧ plN (msgPl m) 4 1 ≤ 3 ∧ k ≤ 31 ∧ (plN (msgPl m) 0 4).testBit k = true ∧ s.cellHeld k = true ∧ ∀ j < k, (plN (msgPl m) 0 4).testBit j = true → s.cellHeld j = false))) ∧
    (let c : Fin 96 := 57; let m : List Byte := fwMsg 0x0803 [3]; let k : Nat := 3; let s : State := (fwRig 57 (fwMsg 0x0803 [3])).setReg (NUT_POS 3) 5#32; ((s.asks c m 0x0803 1 false = true ∧ plN (msgPl m) 0 1 = k ∧ k ≤ 31 ∧ ∀ a ∈ [NUT_STAT k, NUT_FLAGS k, NUT_POS k, NUT_POSTS k], s.reads (servMaster c) a = true))) ∧
    (let c : Fin 96 := 2; let m : List Byte := fwMsg 0x0804 [3, 0, 0x34, 0x12]; let k : Nat := 3; let s : State := fwRig 2 (fwMsg 0x0804 [3, 0, 0x34, 0x12]); ((s.asks c m 0x0804 4 true = true ∧ c.val ≤ 3 ∧ plN (msgPl m) 0 1 = k ∧ k ≤ 31 ∧ s.cellHeld k = false ∧ s.flag (NUT_INJ_PEND k) = false ∧ (s.nutSt k).inj = none ∧ plN (msgPl m) 1 1 = 0 ∧ s.arrives (servMaster c) (NUT_INJ k) true = true))) ∧
    (let c : Fin 96 := 2; let m : List Byte := fwMsg 0x0804 [3, 0, 0x34, 0x12]; let k : Nat := 3; let s : State := (fwRig 2 (fwMsg 0x0804 [3, 0, 0x34, 0x12])).setFlag (NUT_INJ_PEND 3) true; ((s.asks c m 0x0804 4 true = true ∧ c.val ≤ 3 ∧ plN (msgPl m) 0 1 = k ∧ (31 < k ∨ s.cellHeld k = true ∨ s.flag (NUT_INJ_PEND k) = true)))) ∧
    (let c : Fin 96 := 57; let m : List Byte := fwMsg 0x0A01 [30, 2]; let r : Nat := 30; let n : Nat := 2; let s : State := (fwRig 57 (fwMsg 0x0A01 [30, 2])).setReg 0x402011F4 5#32; ((s.asks c m 0x0A01 2 false = true ∧ plN (msgPl m) 0 1 = r ∧ plN (msgPl m) 1 1 = n ∧ 1 ≤ n ∧ n ≤ 3 ∧ r + n ≤ 32 ∧ s.domOn 0 = true))) ∧
    (let c : Fin 96 := 57; let m : List Byte := fwMsg 0x0A01 [31, 2]; let r : Nat := 31; let n : Nat := 2; let s : State := fwRig 57 (fwMsg 0x0A01 [31, 2]); ((s.asks c m 0x0A01 2 false = true ∧ plN (msgPl m) 0 1 = r ∧ plN (msgPl m) 1 1 = n ∧ (31 < r ∨ n < 1 ∨ 3 < n ∨ 32 < r + n)))) ∧
    (let c : Fin 96 := 2; let m : List Byte := fwMsg 0x0A02 [3]; let r : Nat := 3; let s : State := (fwRig 2 (fwMsg 0x0A02 [3])).setFlag (FCU_REC_W2_PENDING 3) true; ((s.asks c m 0x0A02 1 true = true ∧ c.val ≤ 3 ∧ plN (msgPl m) 0 1 = r ∧ r ≤ 31 ∧ s.flag (FCU_REC_W2_PENDING r) = true)) ∧ ((s.flag (FCU_REC_W2_ESC r) = false ∧ s.pairFault (s.fld (FCU_REC_W0_SRC r)) = false ∧ s.bitAt (FCU_WIRE 0) (s.fld (FCU_REC_W0_SRC r)) = false ∧ s.domOn 0 = true))) ∧
    (let c : Fin 96 := 2; let m : List Byte := fwMsg 0x0A02 [3]; let r : Nat := 3; let s : State := fwRig 2 (fwMsg 0x0A02 [3]); ((s.asks c m 0x0A02 1 true = true ∧ c.val ≤ 3 ∧ plN (msgPl m) 0 1 = r ∧ (31 < r ∨ s.flag (FCU_REC_W2_PENDING r) = false) ∧ s.domOn 0 = true))) ∧
    (let c : Fin 96 := 2; let m : List Byte := fwMsg 0x0A03 [30, 2]; let r : Nat := 30; let n : Nat := 2; let a : Nat := 0x20700000; let s : State := { fwRig 2 (fwMsg 0x0A03 [30, 2]) with pwr := { (fwRig 2 []).pwr with offer := some 0x20700000 } }; ((s.asks c m 0x0A03 2 false = true ∧ c.val ≤ 3 ∧ s.mode = 4 ∧ plN (msgPl m) 0 1 = r ∧ plN (msgPl m) 1 1 = n ∧ 1 ≤ n ∧ n ≤ 3 ∧ r + n ≤ 32 ∧ s.pwr.offer = some a))) ∧
    (let c : Fin 96 := 2; let m : List Byte := fwMsg 0x0A03 [3, 2]; let s : State := fwRig 2 (fwMsg 0x0A03 [3, 2]); ((s.asks c m 0x0A03 2 false = true ∧ c.val ≤ 3 ∧ s.mode = 4 ∧ plN (msgPl m) 0 1 ≤ 29 ∧ 1 ≤ plN (msgPl m) 1 1 ∧ plN (msgPl m) 1 1 ≤ 3 ∧ s.pwr.offer = none))) ∧
    (let c : Fin 96 := 2; let m : List Byte := fwMsg 0x0A04 [40, 0, 2, 1]; let i : Nat := 40; let cl : Nat := 2; let re : Nat := 1; let s : State := (fwIn (rigIn modeCOMMISSION) 2 (fwMsg 0x0A04 [40, 0, 2, 1])).setFlag (FCU_SRCCFG_FIXED 40) false; ((s.asks c m 0x0A04 4 true = true ∧ c.val ≤ 3 ∧ s.mode = 3 ∧ plN (msgPl m) 0 2 = i ∧ plN (msgPl m) 2 1 = cl ∧ plN (msgPl m) 3 1 = re ∧ i ≤ 511 ∧ cl ≤ 4 ∧ re ≤ 4 ∧ s.flag (FCU_SRCCFG_FIXED i) = false ∧ s.domOn 0 = true))) ∧
    (let c : Fin 96 := 2; let m : List Byte := fwMsg 0x0A04 [0, 0, 2, 1]; let i : Nat := 0; let cl : Nat := 2; let re : Nat := 1; let s : State := (fwIn (rigIn modeCOMMISSION) 2 (fwMsg 0x0A04 [0, 0, 2, 1])).setFlag (FCU_SRCCFG_FIXED 0) true; ((s.asks c m 0x0A04 4 true = true ∧ c.val ≤ 3 ∧ s.mode = 3 ∧ plN (msgPl m) 0 2 = i ∧ plN (msgPl m) 2 1 = cl ∧ plN (msgPl m) 3 1 = re ∧ (511 < i ∨ 4 < cl ∨ 4 < re ∨ s.flag (FCU_SRCCFG_FIXED i) = true)))) ∧
    (let c : Fin 96 := 57; let m : List Byte := fwMsg 0x0A05 (leBytes 4 PWR_SCELLS ++ [1]); let a : Nat := PWR_SCELLS; let s : State := (fwRig 57 (fwMsg 0x0A05 (leBytes 4 PWR_SCELLS ++ [1]))).setReg PWR_SCELLS 9#32; ((s.asks c m 0x0A05 5 false = true ∧ plN (msgPl m) 0 4 = a ∧ plN (msgPl m) 4 1 = 1 ∧ plainRead a = true ∧ rwAll a = true ∧ halfAt a = 0 ∧ s.reads (servMaster c) a = true))) ∧
    (let c : Fin 96 := 57; let m : List Byte := fwMsg 0x0A05 (leBytes 4 PWR_SCELLS ++ [0]); let s : State := fwRig 57 (fwMsg 0x0A05 (leBytes 4 PWR_SCELLS ++ [0])); ((s.asks c m 0x0A05 5 false = true ∧ (plN (msgPl m) 4 1 < 1 ∨ 12 < plN (msgPl m) 4 1)))) ∧
    (let c : Fin 96 := 2; let m : List Byte := fwMsg 0x0A06 [40, 0, 1]; let i : Nat := 40; let b : Nat := 1; let s : State := fwRig 2 (fwMsg 0x0A06 [40, 0, 1]); ((s.asks c m 0x0A06 3 true = true ∧ c.val ≤ 3 ∧ plN (msgPl m) 0 2 = i ∧ i ≤ 511 ∧ plN (msgPl m) 2 1 = b ∧ b ≤ 1 ∧ s.domOn 0 = true))) ∧
    (let c : Fin 96 := 2; let m : List Byte := fwMsg 0x0A06 [0, 2, 1]; let i : Nat := 512; let b : Nat := 1; let s : State := fwRig 2 (fwMsg 0x0A06 [0, 2, 1]); ((s.asks c m 0x0A06 3 true = true ∧ c.val ≤ 3 ∧ plN (msgPl m) 0 2 = i ∧ plN (msgPl m) 2 1 = b ∧ (511 < i ∨ 1 < b)))) := by
  refine ⟨?_, ?_, ?_, ?_, ?_, ?_, ?_, ?_, ?_, ?_, ?_, ?_, ?_, ?_, ?_, ?_, ?_, ?_, ?_, ?_, ?_, ?_, ?_, ?_, ?_, ?_, ?_, ?_⟩ <;> decide +kernel

/-- The hypotheses of SafetyMessages hold together. -/
theorem hyps_SafetyMessages :
    (let c : Fin 96 := 2; let m : List Byte := fwMsg 0x0901 []; let s : State := (fwRig 2 (fwMsg 0x0901 [])).setReg SAF_CCV_A 5#32; ((s.asks c m 0x0901 0 false = true ∧ c.val ≤ 3))) ∧
    (let c : Fin 96 := 2; let m : List Byte := fwMsg 0x0902 [0, 0, 0, 0]; let s : State := fwRig 2 (fwMsg 0x0902 [0, 0, 0, 0]); ((s.asks c m 0x0902 4 true = true ∧ c.val ≤ 3 ∧ s.mode ∈ [4, 7] ∧ s.busy = false ∧ s.saf.halt = false ∧ plN (msgPl m) 0 4 = s.regN SAF_CCV_CONF)) ∧ ((s.saf.held = [] ∧ s.saf.latched = false ∧ s.asleep = false ∧ s.pwr.vote = none))) ∧
    (let c : Fin 96 := 2; let m : List Byte := fwMsg 0x0902 [1, 0, 0, 0]; let s : State := fwRig 2 (fwMsg 0x0902 [1, 0, 0, 0]); ((s.asks c m 0x0902 4 true = true ∧ c.val ≤ 3 ∧ s.saf.halt = false ∧ (s.mode ∉ [4, 7] ∨ s.busy = true ∨ plN (msgPl m) 0 4 ≠ s.regN SAF_CCV_CONF)))) ∧
    (let c : Fin 96 := 2; let m : List Byte := fwMsg 0x0903 [4, 0, 2, 0, 1, 2]; let o : Nat := 4; let n : Nat := 2; let s : State := fwIn (rigIn modeCOMMISSION) 2 (fwMsg 0x0903 [4, 0, 2, 0, 1, 2]); ((s.asks c m 0x0903 (4 + n) true = true ∧ c.val ≤ 3 ∧ s.mode = 3 ∧ s.saf.halt = false ∧ plN (msgPl m) 0 2 = o ∧ plN (msgPl m) 2 2 = n ∧ 1 ≤ n ∧ n ≤ 44 ∧ o + n ≤ 672)) ∧ (((∀ ch : Fin 2, spbRule1 (putBytes (s.spbOf ch) o (slice (msgPl m) 4 n)) o (o + n) = true) ∧ s.saf.held = []))) ∧
    (let c : Fin 96 := 2; let m : List Byte := fwMsg 0x0903 [0x9F, 2, 2, 0, 1, 2]; let o : Nat := 671; let n : Nat := 2; let s : State := fwIn (rigIn modeCOMMISSION) 2 (fwMsg 0x0903 [0x9F, 2, 2, 0, 1, 2]); ((s.asks c m 0x0903 (4 + n) true = true ∧ c.val ≤ 3 ∧ s.mode = 3 ∧ s.saf.halt = false ∧ plN (msgPl m) 0 2 = o ∧ plN (msgPl m) 2 2 = n ∧ (671 < o ∨ n < 1 ∨ 44 < n ∨ 672 < o + n)))) ∧
    (let c : Fin 96 := 2; let m : List Byte := fwMsg 0x0904 [4, 0, 2, 0]; let o : Nat := 4; let n : Nat := 2; let s : State := fwRig 2 (fwMsg 0x0904 [4, 0, 2, 0]); ((s.asks c m 0x0904 4 false = true ∧ c.val ≤ 3 ∧ s.saf.halt = false ∧ plN (msgPl m) 0 2 = o ∧ plN (msgPl m) 2 2 = n ∧ 1 ≤ n ∧ n ≤ 40 ∧ o + n ≤ 672))) ∧
    (let c : Fin 96 := 2; let m : List Byte := fwMsg 0x0905 []; let s : State := fwIn (rigIn modeCOMMISSION) 2 (fwMsg 0x0905 []); ((s.asks c m 0x0905 0 true = true ∧ c.val ≤ 3 ∧ s.mode = 3 ∧ s.saf.halt = false ∧ (∀ ch : Fin 2, spbBad (s.spbOf ch) = none) ∧ s.saf.held = [])) ∧ (crcF (s.spbOf 0) = crcF (s.spbOf 1))) ∧
    (let c : Fin 96 := 2; let m : List Byte := fwMsg 0x0905 []; let s : State := { fwIn (rigIn modeCOMMISSION) 2 (fwMsg 0x0905 []) with saf := { SafSt.reset with spb := some spbShort, spbB := some spbAlt } }; ((s.asks c m 0x0905 0 true = true ∧ c.val ≤ 3 ∧ s.mode = 3 ∧ s.saf.halt = false ∧ (∀ ch : Fin 2, spbBad (s.spbOf ch) = none) ∧ s.saf.held = [])) ∧ (crcF (s.spbOf 0) ≠ crcF (s.spbOf 1))) ∧
    (let c : Fin 96 := 2; let m : List Byte := fwMsg 0x0905 []; let r : Nat := 1; let s : State := { fwIn (rigIn modeCOMMISSION) 2 (fwMsg 0x0905 []) with saf := { SafSt.reset with spb := some (putBytes spbDefault 0xA0 [9]), spbB := some (putBytes spbDefault 0xA0 [9]) } }; ((s.asks c m 0x0905 0 true = true ∧ c.val ≤ 3 ∧ s.mode = 3 ∧ s.saf.halt = false ∧ ∀ ch : Fin 2, spbBad (s.spbOf ch) = some r))) ∧
    (let c : Fin 96 := 2; let m : List Byte := fwMsg 0x0906 (leBytes 4 0x8805dd9e); let s : State := { fwIn (rigIn modeCOMMISSION) 2 (fwMsg 0x0906 (leBytes 4 0x8805dd9e)) with saf := { SafSt.reset with spb := some spbShort, spbB := some spbShort } }; ((s.asks c m 0x0906 4 true = true ∧ c.val ≤ 3 ∧ s.mode = 3 ∧ s.busy = false ∧ s.saf.halt = false ∧ (∀ ch : Fin 2, plN (msgPl m) 0 4 = (crcF (s.spbOf ch)).toNat ∧ spbBad (s.spbOf ch) = none) ∧ s.saf.held = []))) ∧
    (let c : Fin 96 := 2; let stored : Bool := true; let m : List Byte := fwMsg 0x0906 (leBytes 4 0x8805dd9f); let s : State := { fwIn (rigIn modeCOMMISSION) 2 (fwMsg 0x0906 (leBytes 4 0x8805dd9f)) with saf := { SafSt.reset with spb := some spbShort, spbB := some spbShort } }; ((s.asks c m 0x0906 4 true = true ∧ c.val ≤ 3 ∧ s.mode = 3 ∧ s.busy = false ∧ s.saf.halt = false ∧ ∀ ch : Fin 2, plN (msgPl m) 0 4 ≠ (crcF (s.spbOf ch)).toNat))) ∧
    (let c : Fin 96 := 2; let m : List Byte := fwMsg 0x0907 []; let s : State := fwIn (rigIn modeCOMMISSION) 2 (fwMsg 0x0907 []); ((s.asks c m 0x0907 0 true = true ∧ c.val ≤ 3 ∧ s.mode = 3 ∧ s.busy = false ∧ s.saf.halt = false ∧ s.saf.held = []))) ∧
    (let c : Fin 96 := 2; let m : List Byte := fwMsg 0x0908 []; let s : State := { fwIn (rigIn modeSAFESTOP) 2 (fwMsg 0x0908 []) with saf := { SafSt.reset with base := 3, ccvOk := true, spb := some spbDefault } }; ((s.asks c m 0x0908 0 true = true ∧ c.val ≤ 3 ∧ s.mode = 7 ∧ s.busy = false ∧ s.saf.halt = false ∧ s.ackUnmet = none ∧ s.class4Pending = false ∧ s.saf.held = []))) ∧
    (let c : Fin 96 := 2; let m : List Byte := fwMsg 0x0908 []; let n : Nat := 4; let s : State := fwIn (rigIn modeSAFESTOP) 2 (fwMsg 0x0908 []); ((s.asks c m 0x0908 0 true = true ∧ c.val ≤ 3 ∧ s.mode = 7 ∧ s.busy = false ∧ s.saf.halt = false ∧ s.ackUnmet = some n))) ∧
    (let c : Fin 96 := 2; let m : List Byte := fwMsg 0x0909 [1]; let b : Nat := 1; let s : State := { fwRig 2 (fwMsg 0x0909 [1]) with saf := { SafSt.reset with base := 3, spb := some (putBytes spbDefault 0x84 [9]) } }; ((s.asks c m 0x0909 1 true = true ∧ c.val ≤ 3 ∧ s.mode ∈ [4, 6] ∧ s.saf.halt = false ∧ plN (msgPl m) 0 1 = b ∧ b ≤ 1 ∧ s.testUnmet b = none ∧ s.saf.held = []))) ∧
    (let c : Fin 96 := 2; let m : List Byte := fwMsg 0x0909 [1]; let b : Nat := 1; let n : Nat := 2; let s : State := fwRig 2 (fwMsg 0x0909 [1]); ((s.asks c m 0x0909 1 true = true ∧ c.val ≤ 3 ∧ s.mode ∈ [4, 6] ∧ s.saf.halt = false ∧ plN (msgPl m) 0 1 = b ∧ b ≤ 1 ∧ s.testUnmet b = some n))) ∧
    (let c : Fin 96 := 2; let m : List Byte := fwMsg 0x090A [3, 1]; let p : Nat := 3; let s : State := { fwRig 2 (fwMsg 0x090A [3, 1]) with saf := { SafSt.reset with base := 3, down := [3, 4], spb := some (putBytes spbDefault 0xA0 [2]) } }; ((s.asks c m 0x090A 2 true = true ∧ c.val ≤ 3 ∧ s.saf.halt = false ∧ plN (msgPl m) 0 1 = p ∧ p ≤ 27 ∧ plN (msgPl m) 1 1 = 1 ∧ s.saf.held = []))) ∧
    (let c : Fin 96 := 2; let m : List Byte := fwMsg 0x090A [3, 2]; let s : State := fwRig 2 (fwMsg 0x090A [3, 2]); ((s.asks c m 0x090A 2 true = true ∧ c.val ≤ 3 ∧ s.saf.halt = false ∧ (27 < plN (msgPl m) 0 1 ∨ 1 < plN (msgPl m) 1 1)))) ∧
    (let c : Fin 96 := 2; let m : List Byte := fwMsg 0x090B []; let s : State := (fwRig 2 (fwMsg 0x090B [])).setReg (SAF_CONN_ERR 3) 5#32; ((s.asks c m 0x090B 0 true = true ∧ c.val ≤ 3 ∧ s.saf.halt = false ∧ s.saf.held = []))) ∧
    (let c : Fin 96 := 2; let m : List Byte := fwMsg 0x090B []; let s : State := { fwRig 2 (fwMsg 0x090B []) with saf := { SafSt.reset with halt := true } }; ((s.asks c m 0x090B 0 true = true ∧ c.val ≤ 3 ∧ s.saf.halt = true))) ∧
    (let c : Fin 96 := 90; let m : List Byte := fwMsg 0x0901 []; let s : State := fwRig 90 (fwMsg 0x0901 []); ((c.val ∈ [88, 90, 92, 94] ∧ s.asleep = false ∧ (s.chan c).head? = some m ∧ plN m 4 2 = 0x0901 ∧ msgPl m = [] ∧ s.pwr.vote = none ∧ s.chanFull (c.val + 1) = false))) ∧
    (let c : Fin 96 := 90; let m : List Byte := fwMsg 0x090B []; let s : State := fwRig 90 (fwMsg 0x090B []); ((c.val ∈ [88, 90, 92, 94] ∧ s.asleep = false ∧ (s.chan c).head? = some m ∧ plN m 4 2 = 0x090B ∧ msgPl m = [] ∧ s.saf.halt = false ∧ s.saf.held = []))) ∧
    (let c : Fin 96 := 90; let m : List Byte := fwMsg 0x090B []; let n : List Byte := fwMsg 0x090B []; let d : Nat := 88; let s : State := { (fwRig 90 (fwMsg 0x090B [])).setReg SAF_STAT2 5#32 with saf := { SafSt.reset with held := [(0, 0, fwMsg 0x090B [])] } }; ((c.val ∈ [88, 90, 92, 94] ∧ s.asleep = false ∧ (s.chan c).head? = some m ∧ plN m 4 2 = 0x090B ∧ msgPl m = [] ∧ s.saf.halt = false ∧ s.pwr.vote = none ∧ d = (if c.val % 4 = 0 then c.val + 2 else c.val - 2))) ∧ ((s.saf.held = [((d - 88) / 2 % 2, (d - 88) / 4, n)] ∧ safTwin m n = true ∧ s.chanFull (c.val + 1) = false ∧ s.chanFull (d + 1) = false))) ∧
    (let c : Fin 96 := 90; let m : List Byte := fwMsg 0x090B []; let n : List Byte := fwMsg 0x090A [1, 1]; let d : Nat := 88; let s : State := { (fwRig 90 (fwMsg 0x090B [])).setReg SAF_STAT2 5#32 with saf := { SafSt.reset with held := [(0, 0, fwMsg 0x090A [1, 1])] } }; ((c.val ∈ [88, 90, 92, 94] ∧ s.asleep = false ∧ (s.chan c).head? = some m ∧ plN m 4 2 = 0x090B ∧ msgPl m = [] ∧ s.saf.halt = false ∧ s.pwr.vote = none ∧ d = (if c.val % 4 = 0 then c.val + 2 else c.val - 2))) ∧ ((s.saf.held = [((d - 88) / 2 % 2, (d - 88) / 4, n)] ∧ safTwin m n = false ∧ s.chanFull (c.val + 1) = false ∧ s.chanFull (d + 1) = false))) := by
  refine ⟨?_, ?_, ?_, ?_, ?_, ?_, ?_, ?_, ?_, ?_, ?_, ?_, ?_, ?_, ?_, ?_, ?_, ?_, ?_, ?_, ?_, ?_, ?_, ?_⟩ <;> first | decide +kernel | exact ⟨by decide +kernel, rfl⟩ | exact ⟨by decide +kernel, (show crcF spbShort ≠ crcF spbAlt by rw [crc_spbShort, crc_spbAlt]; decide +kernel)⟩ | exact ⟨by decide +kernel, by decide +kernel, by decide +kernel, by decide +kernel, by decide +kernel, Fin.forall_fin_two.mpr ⟨⟨(show _ = (crcF spbShort).toNat by rw [crc_spbShort]; decide +kernel), by decide +kernel⟩, ⟨(show _ = (crcF spbShort).toNat by rw [crc_spbShort]; decide +kernel), by decide +kernel⟩⟩, by decide +kernel⟩ | exact ⟨by decide +kernel, by decide +kernel, by decide +kernel, by decide +kernel, by decide +kernel, Fin.forall_fin_two.mpr ⟨(show _ ≠ (crcF spbShort).toNat by rw [crc_spbShort]; decide +kernel), (show _ ≠ (crcF spbShort).toNat by rw [crc_spbShort]; decide +kernel)⟩⟩

/-- The hypotheses of PowerMessages hold together. -/
theorem hyps_PowerMessages :
    (let c : Fin 96 := 2; let m : List Byte := fwMsg 0x0B01 [9]; let t : Nat := 9; let s : State := fwRig 2 (fwMsg 0x0B01 [9]); ((s.asks c m 0x0B01 1 true = true ∧ c.val ≤ 3 ∧ s.mode ∈ [4, 7] ∧ plN (msgPl m) 0 1 = t ∧ (t = 9 ∨ t = 10) ∧ s.busy = false ∧ s.trans = none ∧ s.noTxn = true))) ∧
    (let c : Fin 96 := 2; let m : List Byte := fwMsg 0x0B01 [8]; let t : Nat := 8; let s : State := fwRig 2 (fwMsg 0x0B01 [8]); ((s.asks c m 0x0B01 1 true = true ∧ c.val ≤ 3 ∧ s.mode ∈ [4, 7] ∧ plN (msgPl m) 0 1 = t ∧ ((t ≠ 9 ∧ t ≠ 10) ∨ s.busy = true)))) ∧
    (let c : Fin 96 := 2; let m : List Byte := fwMsg 0x0B02 (leBytes 4 0x1FFEE); let w : Nat := 0x1FFEE; let s : State := fwRig 2 (fwMsg 0x0B02 (leBytes 4 0x1FFEE)); ((s.asks c m 0x0B02 4 true = true ∧ c.val ≤ 3 ∧ s.mode = 4 ∧ plN (msgPl m) 0 4 = w ∧ ∀ e ∈ domBits, w.testBit e.1 = true ∨ s.domSt e.2 = 0 ∨ s.domHeld e.2 = false))) ∧
    (let c : Fin 96 := 2; let m : List Byte := fwMsg 0x0B02 (leBytes 4 0); let w : Nat := 0; let d : Nat := 10; let s : State := (fwRig 2 (fwMsg 0x0B02 (leBytes 4 0))).setReg PWR_SCELLS 8#32; ((s.asks c m 0x0B02 4 true = true ∧ c.val ≤ 3 ∧ s.mode = 4 ∧ plN (msgPl m) 0 4 = w ∧ (domBits.find? (fun e => !w.testBit e.1 && s.domSt e.2 != 0 && s.domHeld e.2)).map (fun e => e.2) = some d))) ∧
    (let c : Fin 96 := 2; let m : List Byte := fwMsg 0x0B03 (leBytes 4 50 ++ leBytes 4 1 ++ leBytes 16 7 ++ leBytes 4 9 ++ leBytes 4 3 ++ leBytes 4 0x70 ++ leBytes 4 5 ++ leBytes 4 200); let s : State := fwRig 2 (fwMsg 0x0B03 (leBytes 4 50 ++ leBytes 4 1 ++ leBytes 16 7 ++ leBytes 4 9 ++ leBytes 4 3 ++ leBytes 4 0x70 ++ leBytes 4 5 ++ leBytes 4 200)); ((s.asks c m 0x0B03 44 true = true ∧ c.val ≤ 3 ∧ s.mode ∈ [4, 7] ∧ plN (msgPl m) 40 4 ≤ 65535 ∧ s.domOn 0 = true))) ∧
    (let c : Fin 96 := 2; let m : List Byte := fwMsg 0x0B04 []; let s : State := fwRig 2 (fwMsg 0x0B04 []); ((s.asks c m 0x0B04 0 false = true ∧ c.val ≤ 3 ∧ s.flag MEM_FLASK_VALID = false))) ∧
    (let c : Fin 96 := 2; let m : List Byte := fwMsg 0x0B04 []; let a : Nat := 0x20228000; let s : State := ((fwRig 2 (fwMsg 0x0B04 [])).setFlag MEM_FLASK_VALID true).setFld MEM_FLASK_LAST 2; ((s.asks c m 0x0B04 0 false = true ∧ c.val ≤ 3 ∧ s.flag MEM_FLASK_VALID = true ∧ a = 0x20200000 + 0x14000 * s.fld MEM_FLASK_LAST))) ∧
    (let c : Fin 96 := 2; let m : List Byte := fwMsg 0x0B05 []; let a : Nat := 0x20700000; let s : State := { fwRig 2 (fwMsg 0x0B05 []) with pwr := { (fwRig 2 []).pwr with offer := some 0x20700000 } }; ((s.asks c m 0x0B05 0 true = true ∧ c.val ≤ 3 ∧ s.mode = 4 ∧ s.pwr.safeop = false ∧ s.pwr.offer = some a))) ∧
    (let c : Fin 96 := 2; let m : List Byte := fwMsg 0x0B05 []; let s : State := fwRig 2 (fwMsg 0x0B05 []); ((s.asks c m 0x0B05 0 true = true ∧ c.val ≤ 3 ∧ s.mode = 4 ∧ (s.pwr.safeop = true ∨ s.pwr.offer = none)))) ∧
    (let c : Fin 96 := 2; let m : List Byte := fwMsg 0x0B06 []; let a : Nat := 0x20700000; let s : State := { fwRig 2 (fwMsg 0x0B06 []) with pwr := { (fwRig 2 []).pwr with offer := some 0x20700000 } }; ((s.asks c m 0x0B06 0 true = true ∧ c.val ≤ 3 ∧ s.mode = 4 ∧ s.pwr.offer = some a))) ∧
    (let c : Fin 96 := 2; let m : List Byte := fwMsg 0x0B06 []; let s : State := fwRig 2 (fwMsg 0x0B06 []); ((s.asks c m 0x0B06 0 true = true ∧ c.val ≤ 3 ∧ s.mode = 4 ∧ s.pwr.offer = none))) ∧
    (let c : Fin 96 := 2; let m : List Byte := fwMsg 0x0B07 [0x40, 0x1F, 0, 0x30]; let s : State := fwRig 2 (fwMsg 0x0B07 [0x40, 0x1F, 0, 0x30]); ((s.asks c m 0x0B07 4 true = true ∧ c.val ≤ 3 ∧ s.domOn 0 = true))) := by
  refine ⟨?_, ?_, ?_, ?_, ?_, ?_, ?_, ?_, ?_, ?_, ?_, ?_⟩ <;> decide +kernel

/-- The hypotheses of LineService hold together. -/
theorem hyps_LineService :
    (let c : Fin 96 := 2; let m : List Byte := fwMsg 0x0681 (leBytes 4 0x20800000 ++ leBytes 4 64 ++ [1]); let b : List Byte := lineImg; let s : State := lineIn 2 (fwMsg 0x0681 (leBytes 4 0x20800000 ++ leBytes 4 64 ++ [1])); ((s.asks c m 0x0681 9 true = true ∧ c.val ≤ 3 ∧ s.mode = 4 ∧ s.bufOk (bufAt (msgPl m) 0) = true ∧ s.getBlock (bufAt (msgPl m) 0).1 (bufAt (msgPl m) 0).2 = b ∧ 32 ≤ (bufAt (msgPl m) 0).2 ∧ (plN (msgPl m) 8 1).testBit 0 = true)) ∧ ((s.line.running = false ∧ lineImageOk b = true ∧ b.length = 32 + 16 * plN b 2 2 ∧ s.lineBlocked = false ∧ s.lineFast b = false))) ∧
    (let c : Fin 96 := 2; let m : List Byte := fwMsg 0x0681 (leBytes 4 0x20800000 ++ leBytes 4 31 ++ [1]); let s : State := lineIn 2 (fwMsg 0x0681 (leBytes 4 0x20800000 ++ leBytes 4 31 ++ [1])); ((s.asks c m 0x0681 9 true = true ∧ c.val ≤ 3 ∧ s.mode = 4 ∧ (s.line.running = true ∨ s.bufOk (bufAt (msgPl m) 0) = false ∨ (bufAt (msgPl m) 0).2 < 32)))) ∧
    (let c : Fin 96 := 2; let m : List Byte := fwMsg 0x0682 []; let b : List Byte := lineImg; let s : State := (lineIn 2 (fwMsg 0x0682 [])).setLine { (lineIn 2 []).line with image := some lineImg, holds := true }; ((s.asks c m 0x0682 0 true = true ∧ c.val ≤ 3 ∧ s.mode = 4 ∧ s.line.image = some b ∧ s.line.running = false ∧ s.lineBlocked = false ∧ s.lineFast b = false ∧ s.line.holds = true))) ∧
    (let c : Fin 96 := 2; let m : List Byte := fwMsg 0x0682 []; let s : State := lineIn 2 (fwMsg 0x0682 []); ((s.asks c m 0x0682 0 true = true ∧ c.val ≤ 3 ∧ s.mode = 4 ∧ (s.line.image = none ∨ s.line.running = true)))) ∧
    (let c : Fin 96 := 2; let m : List Byte := fwMsg 0x0683 []; let s : State := ((lineIn 2 (fwMsg 0x0683 [])).setLine { (lineIn 2 []).line with image := some lineImg, holds := true, running := true }).setRegN (LAU_MINSPD 0) 65536; ((s.asks c m 0x0683 0 true = true ∧ c.val ≤ 3 ∧ s.mode = 4 ∧ s.line.running = true ∧ (s.lauSt s.lineLau).omega = 0 ∧ 0 < spdOf (s.regN (LAU_MINSPD s.lineLau))))) ∧
    (let c : Fin 96 := 2; let m : List Byte := fwMsg 0x0683 []; let s : State := lineIn 2 (fwMsg 0x0683 []); ((s.asks c m 0x0683 0 true = true ∧ c.val ≤ 3 ∧ s.mode = 4 ∧ (s.line.running = false ∨ spdOf (s.regN (LAU_MINSPD s.lineLau)) ≤ (s.lauSt s.lineLau).omega)))) ∧
    (let c : Fin 96 := 57; let m : List Byte := fwMsg 0x0684 [7, 0, 0, 0]; let v : Nat := 7; let s : State := (lineIn 57 (fwMsg 0x0684 [7, 0, 0, 0])).setLine { (lineIn 2 []).line with image := some lineImg, holds := true, running := true }; ((s.asks c m 0x0684 4 true = true ∧ s.mode ∈ [4, 5, 6, 7, 8] ∧ plN (msgPl m) 0 4 = v ∧ s.line.running = true))) ∧
    (let c : Fin 96 := 57; let m : List Byte := fwMsg 0x0685 [0, 0, 0]; let a : Nat := 0; let x : AxisSt := lineAx; let s : State := (lineIn 57 (fwMsg 0x0685 [0, 0, 0])).setLine { (lineIn 2 []).line with image := some lineImg, holds := true, running := true, axes := lineAxes lineImg }; ((s.asks c m 0x0685 3 true = true ∧ s.mode ∈ [4, 5, 6, 8] ∧ plN (msgPl m) 0 2 = a ∧ plN (msgPl m) 2 1 = 0 ∧ s.line.running = true ∧ s.line.axes[a]? = some x))) ∧
    (let c : Fin 96 := 57; let m : List Byte := fwMsg 0x0685 [0, 0, 1]; let a : Nat := 0; let x : AxisSt := { lineAx with engaged := false }; let s : State := (lineIn 57 (fwMsg 0x0685 [0, 0, 1])).setLine { (lineIn 2 []).line with image := some lineImg, holds := true, running := true, axes := [{ lineAx with engaged := false }] }; ((s.asks c m 0x0685 3 true = true ∧ s.mode ∈ [4, 5, 6, 8] ∧ plN (msgPl m) 0 2 = a ∧ plN (msgPl m) 2 1 = 1 ∧ s.line.running = true ∧ s.line.axes[a]? = some x ∧ x.engaged = false ∧ (s.axisRest x).natAbs ≤ (spdOf (s.lineF 20 4)).natAbs ∧ 0 ≤ spdOf (s.lineF 20 4)))) ∧
    (let c : Fin 96 := 57; let m : List Byte := fwMsg 0x0685 [0, 0, 1]; let a : Nat := 0; let x : AxisSt := { lineAx with engaged := false }; let s : State := ((lineIn 57 (fwMsg 0x0685 [0, 0, 1])).setLau 0 { (lineIn 2 []).lauSt 0 with omega := -(10 ^ 60 : Int) }).setLine { (lineIn 2 []).line with image := some lineImg, holds := true, running := true, axes := [{ lineAx with engaged := false }] }; ((s.asks c m 0x0685 3 true = true ∧ s.mode ∈ [4, 5, 6, 8] ∧ plN (msgPl m) 0 2 = a ∧ plN (msgPl m) 2 1 = 1 ∧ s.line.running = true ∧ s.line.axes[a]? = some x ∧ x.engaged = false ∧ spdOf (s.lineF 20 4) < s.axisRest x))) ∧
    (let c : Fin 96 := 57; let m : List Byte := fwMsg 0x0685 [0, 0, 1]; let a : Nat := 0; let s : State := lineIn 57 (fwMsg 0x0685 [0, 0, 1]); ((s.asks c m 0x0685 3 true = true ∧ s.mode ∈ [4, 5, 6, 8] ∧ plN (msgPl m) 0 2 = a ∧ (s.line.running = false ∨ s.line.axes.length ≤ a)))) ∧
    (let c : Fin 96 := 57; let m : List Byte := fwMsg 0x0686 [0, 0, 0, 0, 7, 0, 0, 0]; let a : Nat := 0; let k : Nat := 0; let s : State := (lineIn 57 (fwMsg 0x0686 [0, 0, 0, 0, 7, 0, 0, 0])).setLine { (lineIn 2 []).line with image := some lineImg, holds := true, running := true, axes := lineAxes lineImg }; ((s.asks c m 0x0686 8 true = true ∧ s.mode ∈ [4, 5, 6, 8] ∧ plN (msgPl m) 0 2 = a ∧ plN (msgPl m) 2 1 = k ∧ k ≤ 1 ∧ s.line.running = true ∧ (a = 0xFFFF ∨ a < s.line.axes.length)))) ∧
    (let c : Fin 96 := 57; let m : List Byte := fwMsg 0x0687 []; let s : State := (lineIn 57 (fwMsg 0x0687 [])).setLine { (lineIn 2 []).line with ovr := 5, axes := lineAxes lineImg }; ((s.asks c m 0x0687 0 false = true))) ∧
    (let c : Fin 96 := 57; let m : List Byte := fwMsg 0x0688 [0, 0]; let x : AxisSt := lineAx; let s : State := (lineIn 57 (fwMsg 0x0688 [0, 0])).setLine { (lineIn 2 []).line with axes := lineAxes lineImg }; ((s.asks c m 0x0688 2 false = true ∧ s.line.axes[plN (msgPl m) 0 2]? = some x))) ∧
    (let c : Fin 96 := 57; let m : List Byte := fwMsg 0x0688 [0, 0]; let s : State := lineIn 57 (fwMsg 0x0688 [0, 0]); ((s.asks c m 0x0688 2 false = true ∧ s.line.axes.length ≤ plN (msgPl m) 0 2))) ∧
    (let ns : Word := 5#32; let s : State := rig; (s.line.running = false)) ∧
    (let ns : Word := 5#32; let x : AxisSt := lineAx; let s : State := rig.setLine { rig.line with image := some lineImg, holds := true, running := true, axes := [lineAx] }; ((s.line.running = true ∧ s.line.axes = [x] ∧ s.lineFlag 1 = false ∧ s.lineFlag 2 = false ∧ s.lineStopped = false))) ∧
    (let s : State := rig; (s.line.running = false)) ∧
    (let n : Nat := 3; let s : State := ((fwRig 2 []).setLine { rig.line with image := some lineImg, holds := true, running := true, inRow := 2 }).setReg (LAU_VM_SPD 0) 9#32; ((s.line.running = true ∧ n = (if s.line.hit then s.line.inRow else s.line.inRow + 1) ∧ s.fw.running = true ∧ s.fw.notices = [] ∧ (s.chan 4).length + 2 ≤ 16)) ∧ ((s.asleep = false ∧ s.pwr.vote = none ∧ s.chanFull 4 = false))) := by
  refine ⟨?_, ?_, ?_, ?_, ?_, ?_, ?_, ?_, ?_, ?_, ?_, ?_, ?_, ?_, ?_, ?_, ?_, ?_, ?_⟩ <;> decide +kernel

/-- The hypotheses of ReservedSources hold together. -/
theorem hyps_ReservedSources :
    (let src : Fin 512 := 384; let fault : Bool := true; let info : Word := 5#32; let s : State := rig; (srcListed src = false)) ∧
    (let src : Fin 512 := 319; let s : State := rig; (srcListed src = false)) ∧
    (let m : Master := .core 0; let j : Fin 16 := 12; let b : Fin 32 := 31; let r : Nat := 0; let s : State := rig.setReg (FCU_SRCCFG 415) 1#32; ((s.grants m (FCU_FORCE j) (w32 (2 ^ b.val)) = true ∧ srcListed (32 * j + b) = false ∧ s.mode ≠ modeOFF)) ∧ ((s.reg (FCU_FORCE j) = 0 ∧ s.flag FCU_CTRL_FORCEWIR = false ∧ s.pairFault (32 * j + b) = false ∧ s.pairBad (32 * j + b) = false)) ∧ ((s.asleep = false ∧ s.pwr.vote = none ∧ s.fcu.windows = [] ∧ s.flag FCU_STAT_SELF = false ∧ s.fcu.newest = none)) ∧ (((s.srcCfg (32 * j + b)).1 ≤ 3 ∧ (s.srcCfg (32 * j + b)).2 ≤ 1 ∧ r = s.fld FCU_STAT_NEXT ∧ s.recPending r = false))) := by
  refine ⟨?_, ?_, ?_⟩ <;> decide +kernel

/-- The hypotheses of UnmappedAccess hold together. -/
theorem hyps_UnmappedAccess :
    (let m : Master := .core 1; let a : Word := 0x00040000#32; let n : Fin 9 := 4; let v : BitVec 64 := 5#64; let s : State := rig; ((unmapped a.toNat = true ∧ m ≠ .cardamom ∧ (m = .host → s.isHeld .host = false) ∧ ∀ (e : Fin 16) (t : Fin 4), m ≠ .thread e t))) ∧
    (let m : Master := .host; let a : Word := 0xFFFFFFFC#32; let n : Fin 9 := 4; let s : State := rig; ((unmapped a.toNat = true ∧ m ≠ .cardamom ∧ (m = .host → s.isHeld .host = false) ∧ ∀ (e : Fin 16) (t : Fin 4), m ≠ .thread e t))) ∧
    (let e : Fin 16 := 2; let t : Fin 4 := 1; let a : Word := 0x42000000#32; let n : Fin 9 := 4; let v : BitVec 64 := 5#64; let s : State := rig; (unmapped a.toNat = true)) ∧
    (let e : Fin 16 := 2; let t : Fin 4 := 1; let a : Word := 0x7FFFFFFC#32; let n : Fin 9 := 4; let s : State := rig; (unmapped a.toNat = true)) := by
  refine ⟨?_, ?_, ?_, ?_⟩ <;> decide +kernel

/-- The hypotheses of NoNoticeWaits hold of a state with a command waiting, and of one whose full channel holds a notice back. -/
  theorem hyps_NoNoticeWaits : rig.NoticesOut ∧
      ({ (rig.setChan 4 (List.replicate 16 [])) with fw := { rig.fw with notices := [[1#8]] } } : State).NoticesOut := by
    refine ⟨?_, ?_⟩ <;> decide +kernel

/-! ### WellFormed refuses an ill-formed term for each of its checks -/

theorem test_wf_write_size : Instr.wf (.registerWrite .host 0 3 0) = false := by decide
theorem test_wf_read_size : Instr.wf (.readClear .host 0 0) = false := by decide
theorem test_wf_coef_size : Instr.wf (.coefBankSramWrite .host 0 5 0) = false := by decide
theorem test_wf_piece_empty : Instr.wf (.frameReceive 0 0 [] ⟨false, .more⟩) = false := by decide
theorem test_wf_piece_idle : Instr.wf (.frameReceive 0 0 [1] ⟨false, .idle⟩) = false := by decide
theorem test_wf_piece_smd : Instr.wf (.frameReceive 0 0 [1] ⟨true, .smd⟩) = false := by decide
theorem test_wf_pfc : Instr.wf (.pfcReceive 0 0 [1, 2]) = false := by decide
theorem test_wf_can : Instr.wf (.canFrameReceive 0 (some ⟨0, 0, List.replicate 17 0⟩) none) = false := by decide
theorem test_wf_shift : Instr.wf (.shiftEnd 0 (List.replicate 33 1)) = false := by decide
theorem test_wf_inst_ports : Instr.wf (.instStart 0 { instRig.cfg with ports := 4096 }) = false := by decide
theorem test_wf_inst_loss : Instr.wf (.instStart 0 { instRig.cfg with loss := 256 }) = false := by decide
theorem test_wf_inst_cells : Instr.wf (.instStart 0 { instRig.cfg with cell := 31, cells := 2 }) = false := by decide
theorem test_wf_inst_fcs : Instr.wf (.instStart 0 { instRig.cfg with fcs := List.replicate 257 [] }) = false := by decide +kernel
theorem test_wf_inst_can : Instr.wf (.instStart 0 { instRig.cfg with can := some 4 }) = false := by decide
theorem test_wf_cfg_load : Instr.wf (.cfgLoad 0 ⟨[], [(0, 0, { instRig.cfg with ports := 4096 })], 0, [], [], []⟩) = false := by decide
theorem test_wf_bar2_write : Instr.wf (.bar2Write 0 []) = false := by decide
theorem test_wf_bar2_read : Instr.wf (.bar2Read 0 0 false) = false := by decide
theorem test_wf_bar2_read_long : Instr.wf (.bar2Read 0 4097 false) = false := by decide
theorem test_wf_spi_write : Instr.wf (.spiWrite 0 []) = false := by decide
theorem test_wf_accepts : Instr.wf (.registerWrite .host 0x40000010 4 7) = true := by decide

/-! ### The manual's worked examples -/

/-- Chapter 2, after R40: domain 0 at 5 s 0 ns has the schedule count 0x2A05_F200. -/
theorem test_schedule_count : (rig.setDom 0 5000000000 0).regN (TIME_DOM_CYC 0) = 0x2A05F200 := by decide +kernel
/-- Chapter 18: the three addresses of the example. -/
theorem test_addresses : SWX_QTHR 14 7 = 0x40A0485C ∧ LOOP_COEF 1 21 = 0x41300454 ∧ CAN_MO_DATA 2 5 3 = 0x414242CC := by decide
/-- Chapter 10, R221: 1.0, 0.5 and −1.0 as coefficient words. -/
theorem test_coefficient_words :
    (coefNum 0x01400000#32).v.n = (coefNum 0x01400000#32).v.d ∧ 2 * (coefNum 0x00400000#32).v.n = (coefNum 0x00400000#32).v.d ∧
      (coefNum 0x00800000#32).v.n = -(coefNum 0x00800000#32).v.d := by decide +kernel
/-- Chapter 10, the example of the rewind: 0.02, 0.8, 0.9 and −0.9 turned into coefficient words. -/
theorem test_coefficient_of_value :
    (toCoef ⟨2, 100⟩).1 = 0x3B51EB85#32 ∧ (toCoef ⟨8, 10⟩).1 = 0x00666666#32 ∧ (toCoef ⟨9, 10⟩).1 = 0x00733333#32 ∧
      (toCoef ⟨-9, 10⟩).1 = 0x008CCCCD#32 := by decide +kernel
/-- No row of the table has bits, so a word spells no command. -/
theorem test_no_word_spells : decodeTableWord 32 0x12345678 = none ∧ (State.reset.withFetchWord 32 0x12345678) = State.reset := by decide +kernel

end Sys2Proof.Tests
end

/-! Proofs about the scope of the block (chapter 0): accesses of registers, RWT writes and memory. -/

namespace Sys2Proof.Machine

open Sys2Proof

/-! ### The bus in front of a register -/

/-- What an access has passed when it arrives at its register. -/
theorem State.arrives_iff (s : State) (m : Master) (a : Nat) (wr : Bool) :
    s.arrives m a wr = true ↔
      (m == .cardamom) = false ∧ inRegs a = true ∧ a % 4 = 0 ∧ a ≠ HOST_RWDATA ∧ (m == .host && s.isHeld .host) = false ∧
        s.bridgeDenied m a wr = false ∧ s.unreached a = false ∧ barred m a = false := by
  simp only [State.arrives, Bool.and_eq_true, Bool.not_eq_true', bne_iff_ne, ne_eq, beq_iff_eq, beq_eq_false_iff_ne]
  tauto

theorem inRegs_iff (a : Nat) : inRegs a = true ↔ 0x40000000 ≤ a ∧ a < 0x42000000 := decide_eq_true_iff

/-- A word write that arrives is a write of its register (R10). -/
theorem State.anyWrite_of_arrives (s : State) (m : Master) (a v : Nat) (h : s.arrives m a true = true) :
    s.anyWrite m a 4 v = s.regWrite m a (w32 v) := by
  obtain ⟨hcard, hregs, halign, hwin, hheld, hbridge, -, -⟩ := (s.arrives_iff m a true).mp h
  have hbar : ¬ (m = .host ∧ a < 0x10000) := fun h => by have := (inRegs_iff a).mp hregs; omega
  rw [State.anyWrite, if_neg hbar, s.busWrite_acc m a 4 v (.inr (.inl hwin))]
  simp [State.accWrite, hcard, hheld, hbridge, hregs, halign]

/-- A granted write of a register outside the armed slots is the write its block makes of it. -/
theorem State.regWrite_of_grants (s : State) (m : Master) (a : Nat) (v : Word) (h : s.grants m a v = true) (hslot : s.slotHolds a = false) :
    ∃ r, findReg a = some r ∧ r.half = 0 ∧ s.regWrite m a v = s.putReg m r a v := by
  simp only [State.grants, Bool.and_eq_true, beq_iff_eq, Bool.not_eq_true'] at h
  obtain ⟨⟨harr, hhalf⟩, hlock⟩ := h
  obtain ⟨hcard, -, -, -, -, -, hreach, hbarred⟩ := (s.arrives_iff m a true).mp harr
  cases hr : findReg a with
  | none => simp [halfAt, hr] at hhalf
  | some r =>
    have h0 : r.half = 0 := by simpa [halfAt, hr] using hhalf
    exact ⟨r, rfl, h0, s.regWrite_whole m hcard a v r hr (by simp [hreach, hbarred, hlock]) hslot h0⟩

/-! ### The RWT registers of a LAU -/

/-- The register of a LAU whose fields the RWT code covers has no field of another code that a write changes, and is no half of a pair. -/
theorem regsLAU_rwt_only : ∀ r ∈ regsLAU, accMask r .rwt ≠ 0 →
    accMask r .rw = 0 ∧ accMask r .rwl = 0 ∧ accMask r .w1c = 0 ∧ accMask r .w1s = 0 ∧ r.half = 0 := by
  decide +kernel

/-- CTRL, NET_ANG_HI and NET_TS of a LAU carry no RWT field. -/
theorem lauRwt_special : ∀ k < 8, ∀ o ∈ [0x00, 0x44, 0x48], lauRwt (0x40500000 + k * 0x10000 + o) = false := by
  decide +kernel

theorem and_ones (w : Word) : w &&& 0xFFFFFFFF#32 = w := BitVec.and_allOnes

section LauRwt

variable {a : Nat} (h : lauRwt a = true)
include h

theorem lauRwt_range : 0x40500000 ≤ a ∧ a < 0x40580000 := by
  simp only [lauRwt, Bool.and_eq_true, decide_eq_true_eq] at h
  exact h.1

theorem lauRwt_offset {o : Nat} (ho : o ∈ [0x00, 0x44, 0x48]) : a % 0x10000 ≠ o := by
  intro heq
  obtain ⟨hlo, hhi⟩ := lauRwt_range h
  have hk : (a - 0x40500000) / 0x10000 < 8 := by omega
  have ha : a = 0x40500000 + (a - 0x40500000) / 0x10000 * 0x10000 + o := by omega
  have := lauRwt_special _ hk o ho
  rw [← ha, h] at this
  exact absurd this (by decide)

/-- What the map says of an RWT register of a LAU: its only writable fields are RWT fields. -/
theorem lauRwt_spec {r : RegSpec} (hr : findReg a = some r) :
    accMask r .rwt ≠ 0 ∧ accMask r .rw = 0 ∧ accMask r .rwl = 0 ∧ accMask r .w1c = 0 ∧ accMask r .w1s = 0 ∧ r.half = 0 := by
  obtain ⟨hlo, hhi⟩ := lauRwt_range h
  have hrwt : accMask r .rwt ≠ 0 := by
    simp only [lauRwt, hr, Option.any_some, Bool.and_eq_true, bne_iff_ne] at h
    exact h.2
  have hmem : r ∈ regsLAU := by
    have hb : blockRegs a = regsLAU := by
      unfold blockRegs
      repeat rw [if_neg (by omega)]
      rw [if_pos hhi]
    exact List.mem_of_find?_eq_some (hb ▸ hr : regsLAU.find? (specHit a) = some r)
  exact ⟨hrwt, regsLAU_rwt_only r hmem hrwt⟩

theorem unitOf_lauRwt : unitOf a = some (.lau ((a - 0x40500000) / 0x10000)) := if_pos (lauRwt_range h)

theorem isCoef_lauRwt : isCoef a = false := by
  obtain ⟨-, hhi⟩ := lauRwt_range h
  exact decide_eq_false (by omega)

theorem slotHolds_lauRwt (s : State) : s.slotHolds a = false := by
  obtain ⟨-, hhi⟩ := lauRwt_range h
  simp only [State.slotHolds, Bool.and_eq_false_iff, decide_eq_false_iff_not]
  exact .inl (.inl (by omega))

/-- An RWT write of a LAU reaches the RWT fields and no lock (R273). -/
theorem rwtNorm_lauRwt (v : Word) : rwtNorm a v = v &&& rwtMask a := by
  obtain ⟨-, hhi⟩ := lauRwt_range h
  unfold rwtNorm
  rw [isCoef_lauRwt h, if_neg (by decide), if_neg (by omega), if_neg (by omega)]

/-- A write of an RWT register of a LAU leaves the register's word and hands its RWT fields on (R13). -/
theorem State.putReg_lauRwt (s : State) (m : Master) {r : RegSpec} (hr : findReg a = some r) (v : Word) :
    s.putReg m r a v = (s.setReg a (s.reg a)).rwtWrite m a v := by
  obtain ⟨hlo, hhi⟩ := lauRwt_range h
  obtain ⟨hrwt, hrw, hrwl, hc, hs, -⟩ := lauRwt_spec h hr
  have hword (b : Bool) (w : Word) : wrWord r b w v = w := by cases b <;> simp [wrWord, hrw, hrwl, hc, hs, and_ones]
  have hblock : s.putReg m r a v = s.putLau m r a v := by
    unfold State.putReg
    repeat rw [if_neg (by omega)]
    rw [if_pos hhi]
  have hgen : s.putLau m r a v = s.putGen m r a v := by
    unfold State.putLau
    simp only [if_neg (lauRwt_offset h (o := 0) (by simp)), if_neg (lauRwt_offset h (o := 0x44) (by simp)),
      if_neg (lauRwt_offset h (o := 0x48) (by simp))]
  rw [hblock, hgen]
  have hrwt0 : (accMask r .rwt == 0#32) = false := beq_eq_false_iff_ne.mpr hrwt
  simp [State.putGen, hrwl, isCoef_lauRwt h, hword, hrwt0]

/-- A granted write of an RWT register of a LAU. -/
theorem State.anyWrite_lauRwt (s : State) (m : Master) (v : Word) (hg : s.grants m a v = true) :
    s.anyWrite m a 4 v.toNat = (s.setReg a (s.reg a)).rwtWrite m a v := by
  obtain ⟨r, hr, -, hw⟩ := s.regWrite_of_grants m a v hg (slotHolds_lauRwt h s)
  have harr : s.arrives m a true = true := by
    simp only [State.grants, Bool.and_eq_true] at hg
    exact hg.1.1
  have hv : w32 v.toNat = v := by simp [w32]
  rw [s.anyWrite_of_arrives m a _ harr, hv, hw, State.putReg_lauRwt h s m hr v]

/-- In the writer's open transaction the RWT fields go to its log (R354). -/
theorem State.rwtWrite_lauRwt_open (s : State) (m : Master) (k : Nat) (v : Word) (hk : txnOf m = some k)
    (ho : s.flag (TXN_CH_STAT_OPEN k) = true) : s.rwtWrite m a v = s.txnLog k a (v &&& rwtMask a) := by
  simp [State.rwtWrite, isCoef_lauRwt h, unitOf_lauRwt h, rwtNorm_lauRwt h, hk, ho, and_ones]

/-- Outside the writer's transactions they go to the unit, once the checks that name it have ended (R355, R359). -/
theorem State.rwtWrite_lauRwt_outside (s : State) (m : Master) (v : Word)
    (ho : ∀ k, txnOf m = some k → s.flag (TXN_CH_STAT_OPEN k) = false) :
    s.rwtWrite m a v = (s.checksEnd (.lau ((a - 0x40500000) / 0x10000))).rwtOutside (.lau ((a - 0x40500000) / 0x10000)) a
      (v &&& rwtMask a) := by
  cases hk : txnOf m with
  | none => simp [State.rwtWrite, isCoef_lauRwt h, unitOf_lauRwt h, rwtNorm_lauRwt h, hk, and_ones]
  | some k => simp [State.rwtWrite, isCoef_lauRwt h, unitOf_lauRwt h, rwtNorm_lauRwt h, hk, ho k hk, and_ones]

/-- A LAU's RWT register is no low half of a pair. -/
theorem lauRwt_not_low : ((findReg a).map (fun r => r.half == 1)).getD false = false := by
  cases hr : findReg a with
  | none => rfl
  | some r =>
    obtain ⟨-, -, -, -, -, hhalf⟩ := lauRwt_spec h hr
    simp [hhalf]

/-- Where an armed set holds the unit, an outside write is ignored and reported (R359). -/
theorem State.rwtOutside_armed (s : State) (u : SUnit) (v : Word) (hu : (s.armedBy u).isSome = true) :
    s.rwtOutside u a v = (s.setFlag TXN_STAT_ARMREF true).note := by
  simp only [State.rwtOutside, lauRwt_not_low h, hu, if_true, Bool.false_eq_true, if_false]

/-- Where no armed set holds a LAU, an outside write is a write of its shadow (R359). -/
theorem State.rwtOutside_free (s : State) (n : Nat) (v : Word) (hu : (s.armedBy (.lau n)).isSome = false) :
    s.rwtOutside (.lau n) a v = { s with shadow := storeSet (fun _ => none) s.shadow a (some v) } := by
  have hctx : loopCtxOf a = none := by simp [loopCtxOf, unitOf_lauRwt h]
  simp only [State.rwtOutside, lauRwt_not_low h, hu, Bool.false_eq_true, if_false, State.unitAtOnce,
    s.setShad_plain a v (isCoef_lauRwt h), State.markDirty, hctx]

end LauRwt

/-! ### The transaction channels beside a write of another register -/

/-- With no check in progress none ends. -/
theorem State.checksEnd_idle (s : State) (u : SUnit) (hc : ∀ k < 21, s.flag (TXN_CH_STAT_CHECKING k) = false) : s.checksEnd u = s := by
  unfold State.checksEnd
  refine List.foldlRecOn (motive := fun t => t = s) _ _ rfl (fun t ht k hk => ?_)
  subst ht
  simp [hc k (List.mem_range.mp hk)]

/-- The first write of an address in a transaction with room is appended to its log (R354). -/
theorem State.txnLog_append (s : State) (k a : Nat) (v : Word) (hnew : ∀ e ∈ (s.txnCh k).log, e.1 ≠ a)
    (hlen : (s.txnCh k).log.length < 1024) (hsum : ((List.range 21).map (fun j => (s.txnCh j).log.length)).sum < 4096) :
    s.txnLog k a v = s.setTxn k { s.txnCh k with log := (s.txnCh k).log ++ [(a, v)] } := by
  have hany : (s.txnCh k).log.any (fun e => e.1 == a) = false := by simpa using hnew
  have hfold : (List.range 21).foldl (fun n j => n + (s.txnCh j).log.length) 0 =
      ((List.range 21).map (fun j => (s.txnCh j).log.length)).sum := by
    rw [List.sum_eq_foldl, List.foldl_map]
  have hroom : ¬ (1024 ≤ (s.txnCh k).log.length ∨ 4096 ≤ (List.range 21).foldl (fun n j => n + (s.txnCh j).log.length) 0) := by
    rw [hfold]; omega
  unfold State.txnLog
  simp only [hany, Bool.false_eq_true, if_false, if_neg hroom]

/-- A channel set changes its status and its handle among the registers. -/
theorem State.reg_setTxn_ne (s : State) (k : Nat) (t : TxnCh) {b : Nat} (h1 : b ≠ TXN_CH_STAT k) (h2 : b ≠ TXN_CH_HANDLE k) :
    (s.setTxn k t).reg b = s.reg b := by
  unfold State.setTxn
  rw [State.reg_setRegN_ne _ _ h2, State.reg_setFlag_ne _ _ _ h1, State.reg_setFld_ne _ _ _ h1]
  rfl

/-! ### The statement about RWT writes -/

/-- A register written with its own word reads as before, and so does every other. -/
@[simp] theorem State.reg_setReg_self (s : State) (a b : Nat) : (s.setReg a (s.reg a)).reg b = s.reg b := by
  rw [State.reg_setReg]
  split
  · next hb => rw [hb]
  · rfl
@[simp] theorem State.flag_setReg_self (s : State) (a : Nat) (f : Fld) : (s.setReg a (s.reg a)).flag f = s.flag f := by
  simp [State.flag, State.fld]

/-- A LAU's window lies below the transaction block. -/
theorem lauRwt_ne {a b : Nat} (h : lauRwt a = true) (hb : 0x41900000 ≤ b) : a ≠ b := by
  obtain ⟨-, hhi⟩ := lauRwt_range h
  omega

/-- A unit that no armed set holds. -/
theorem State.armedBy_none (s : State) (u : SUnit) (ha : ∀ k < 21, (s.txnCh k).armed = none) : (s.armedBy u).isSome = false := by
  rw [State.armedBy, Option.isSome_eq_false_iff, Option.isNone_iff_eq_none, List.find?_eq_none]
  intro k hk
  simp [ha k (List.mem_range.mp hk)]

/-- The masters' transaction channels are the 21 of R352. -/
theorem txnOf_lt {m : Master} {k : Nat} (h : txnOf m = some k) : k < 21 := by
  cases m <;> simp only [txnOf, Option.some.injEq, reduceCtorEq] at h <;> omega

/-- An RWT_WRITE whose own effect is `u`. -/
theorem effect_rwtWrite {m : Master} {a v : Word} {s u : State} {chg : List Nat} {new : List (Nat × Nat × Bool)} {P : State → Prop}
    (heff : s.anyWrite m a.toNat 4 v.toNat = u) (ho : Only s u chg new) (hp : P u) : Effect (.rwtWrite m a v) s chg new P :=
  ⟨u, heff ▸ rfl, ho, hp⟩

section RwtWrite

variable (m : Master) (a v : Word) (s : State) (h : lauRwt a.toNat = true) (hg : s.grants m a.toNat v = true)
include h hg

/-- RWT_WRITE in the writer's open transaction (R354). -/
theorem rwtWrite_logs (k : Nat) (hk : txnOf m = some k) (ho : s.flag (TXN_CH_STAT_OPEN k) = true)
    (hnew : ∀ e ∈ (s.txnCh k).log, e.1 ≠ a.toNat) (hlen : (s.txnCh k).log.length < 1024)
    (hsum : ((List.range 21).map (fun j => (s.txnCh j).log.length)).sum < 4096) :
    Effect (.rwtWrite m a v) s [a.toNat, TXN_CH_STAT k, TXN_CH_HANDLE k] [] (fun u => u.reg a.toNat = s.reg a.toNat ∧
      u.shadow = s.shadow ∧ (u.txnCh k).log = (s.txnCh k).log ++ [(a.toNat, v &&& rwtMask a.toNat)]) := by
  let s1 := s.setReg a.toNat (s.reg a.toNat)
  let t : TxnCh := { s.txnCh k with log := (s.txnCh k).log ++ [(a.toNat, v &&& rwtMask a.toNat)] }
  have heff : s.anyWrite m a.toNat 4 v.toNat = s1.setTxn k t := by
    rw [State.anyWrite_lauRwt h s m v hg, State.rwtWrite_lauRwt_open h _ m k v hk (by simpa using ho)]
    exact s1.txnLog_append k a.toNat _ hnew hlen hsum
  have hreg (b : Nat) (h1 : b ≠ TXN_CH_STAT k) (h2 : b ≠ TXN_CH_HANDLE k) : (s1.setTxn k t).reg b = s.reg b := by
    rw [State.reg_setTxn_ne _ _ _ h1 h2, State.reg_setReg_self]
  have hstat : a.toNat ≠ TXN_CH_STAT k := lauRwt_ne h (by unfold TXN_CH_STAT; omega)
  have hhandle : a.toNat ≠ TXN_CH_HANDLE k := lauRwt_ne h (by unfold TXN_CH_HANDLE; omega)
  refine effect_rwtWrite heff ⟨fun b hb => ?_, fun _ => rfl, rfl, (List.append_nil _).symm⟩ ⟨hreg _ hstat hhandle, rfl, by simp [t]⟩
  simp only [List.mem_cons, List.not_mem_nil, or_false, not_or] at hb
  exact hreg b hb.2.1 hb.2.2

/-- With no transaction open and no check in progress, a write of a LAU's RWT register is an outside write (R359). -/
theorem State.anyWrite_lauRwt_outside
    (hidle : ∀ k : Fin 21, s.flag (TXN_CH_STAT_OPEN k) = false ∧ s.flag (TXN_CH_STAT_CHECKING k) = false) :
    s.anyWrite m a.toNat 4 v.toNat =
      (s.setReg a.toNat (s.reg a.toNat)).rwtOutside (.lau ((a.toNat - 0x40500000) / 0x10000)) a.toNat (v &&& rwtMask a.toNat) := by
  have hopen (k : Nat) (hk : txnOf m = some k) : s.flag (TXN_CH_STAT_OPEN k) = false := (hidle ⟨k, txnOf_lt hk⟩).1
  have hcheck (k : Nat) (hk : k < 21) : s.flag (TXN_CH_STAT_CHECKING k) = false := (hidle ⟨k, hk⟩).2
  rw [State.anyWrite_lauRwt h s m v hg, State.rwtWrite_lauRwt_outside h _ m v (by simpa using hopen),
    State.checksEnd_idle _ _ (by simpa using hcheck)]

/-- RWT_WRITE outside transactions, of a unit that no armed set holds (R359). -/
theorem rwtWrite_shadows
    (hidle : ∀ k : Fin 21, s.flag (TXN_CH_STAT_OPEN k) = false ∧ s.flag (TXN_CH_STAT_CHECKING k) = false ∧ (s.txnCh k).armed = none) :
    Effect (.rwtWrite m a v) s [a.toNat] [] (fun u => u.reg a.toNat &&& rwtMask a.toNat = s.reg a.toNat &&& rwtMask a.toNat ∧
      u.shad a.toNat = some (v &&& rwtMask a.toNat)) := by
  let s1 := s.setReg a.toNat (s.reg a.toNat)
  have hreg (b : Nat) : s1.reg b = s.reg b := s.reg_setReg_self a.toNat b
  have hfree : (s1.armedBy (.lau ((a.toNat - 0x40500000) / 0x10000))).isSome = false :=
    s1.armedBy_none _ (fun k hk => (hidle ⟨k, hk⟩).2.2)
  have heff := (State.anyWrite_lauRwt_outside m a v s h hg (fun k => ⟨(hidle k).1, (hidle k).2.1⟩)).trans
    (State.rwtOutside_free h s1 _ _ hfree)
  exact effect_rwtWrite heff ⟨fun b _ => hreg b, fun _ => rfl, rfl, (List.append_nil _).symm⟩
    ⟨congrArg (· &&& rwtMask a.toNat) (hreg a.toNat), storeGet_set_same _ _ _ _⟩

/-- RWT_WRITE outside transactions, of a unit that an armed set holds (R359). -/
theorem rwtWrite_refused
    (hidle : ∀ k : Fin 21, s.flag (TXN_CH_STAT_OPEN k) = false ∧ s.flag (TXN_CH_STAT_CHECKING k) = false)
    (harmed : (s.armedBy (.lau ((a.toNat - 0x40500000) / 65536))).isSome = true) :
    Effect (.rwtWrite m a v) s [a.toNat, TXN_STAT] [(14, 0, false)] (fun u => u.flag TXN_STAT_ARMREF = true ∧ u.shadow = s.shadow ∧
      u.reg a.toNat &&& rwtMask a.toNat = s.reg a.toNat &&& rwtMask a.toNat) := by
  let s1 := s.setReg a.toNat (s.reg a.toNat)
  have heff := (State.anyWrite_lauRwt_outside m a v s h hg hidle).trans (State.rwtOutside_armed h s1 _ _ harmed)
  have hreg (b : Nat) (hb : b ≠ TXN_STAT) : (s1.setFlag TXN_STAT_ARMREF true).note.reg b = s.reg b :=
    (s1.reg_setFlag_ne TXN_STAT_ARMREF true hb).trans (s.reg_setReg_self a.toNat b)
  refine effect_rwtWrite heff ⟨fun b hb => hreg b (by simp at hb; exact hb.2), fun _ => rfl, rfl, rfl⟩
    ⟨s1.flag_setFlag_same TXN_STAT_ARMREF true rfl (by decide), rfl, ?_⟩
  exact congrArg (· &&& rwtMask a.toNat) (hreg a.toNat (lauRwt_ne h (by decide)))

end RwtWrite

/-- Settles O5: a LAU's RWT write leaves the register, and then logs, shadows or is refused. -/
theorem shadowWrites : Obligations.ShadowWrites := by
  unfold Obligations.ShadowWrites
  exact ⟨fun m k a v s h hg hk ho hnew hlen hsum => rwtWrite_logs m a v s h hg k hk ho hnew hlen hsum,
    fun m a v s h hg hidle => rwtWrite_shadows m a v s h hg hidle,
    fun m a v s h hg hidle harmed => rwtWrite_refused m a v s h hg hidle harmed,
    fun _ _ _ _ => rfl⟩

/-! ### An armed slot refuses the low half of a pair -/

/-- Itinerary slot 0 is armed, every power domain is on, and `settle` is all taken up by 4096 raises of index 512, which the collector
does not take, so that the held words of a state are those of its own settled state. -/
def armedSlotRig : State :=
  { (State.reset.setReg PWR_DOMSTAT 0x555555#32).setFlag (ITIN_SLOT_CTRL_ARM 0) true with raises := List.replicate 4096 (512, 0, false) }

/-- Raises of index 512 are dropped, one each round. -/
theorem State.settleN_ignored (n : Nat) (s : State) (h : s.raises = List.replicate n (512, 0, false)) :
    State.settleN n s = { s with raises := [] } := by
  induction n generalizing s with
  | zero =>
    rw [List.replicate_zero] at h
    rw [State.settleN, ← h]
  | succ n ih =>
    have hdrop : State.settleN (n + 1) s = State.settleN n { s with raises := List.replicate n (512, 0, false) } := by
      simp [State.settleN, h, List.replicate_succ, State.fcuRaise]
    rw [hdrop, ih _ rfl]

/-- A reset promised by firmware is asked for without a change of the held words or of the raises. -/
theorem State.resetDue_frame (s : State) : s.resetDue.lows = s.lows ∧ s.resetDue.raises = s.raises := by
  unfold State.resetDue
  split
  · split <;> exact ⟨rfl, rfl⟩
  · exact ⟨rfl, rfl⟩

/-- Where ignored raises take up all of settling, the held words stay. -/
theorem State.settle_lows_of_ignored (s : State) (h : s.raises = List.replicate 4096 (512, 0, false)) : s.settle.lows = s.lows := by
  obtain ⟨hlows, hraises⟩ := s.resetDue_frame
  obtain ⟨_, _, _, _, _, _, hdrain⟩ := State.fwDrain_frame { s.resetDue with raises := [] }
  rw [State.settle, State.settleN_ignored _ _ (hraises.trans h), hdrain]
  exact hlows

/-- A write that arrives at TRIG, PER or ARG of an armed slot sets the slot's WIGN and is held for nobody (R52). -/
theorem State.anyWrite_armedSlot (s : State) (m : Master) (a v : Nat) (harr : s.arrives m a true = true) (hhalf : halfAt a ≠ 3)
    (hlock : s.locked m a (w32 v) = false) (hslot : s.slotHolds a = true) :
    s.anyWrite m a 4 v = s.setFlag (ITIN_SLOT_STAT_WIGN ((a - 0x40590000) / 0x20)) true := by
  obtain ⟨hcard, -, -, -, -, -, hreach, hbarred⟩ := (s.arrives_iff m a true).mp harr
  cases hr : findReg a with
  | none => exact absurd (by simp [halfAt, hr]) hhalf
  | some r =>
    rw [s.anyWrite_of_arrives m a v harr]
    exact s.regWrite_armed m hcard a _ r hr (by simp [hreach, hbarred, hlock]) hslot

/-- Refutes O4: a write of the low half of TRIG of an armed slot is ignored (R52), so nothing is held for its master. -/
theorem not_registerAccess : ¬ Obligations.RegisterAccess := by
  unfold Obligations.RegisterAccess
  rintro ⟨-, -, -, -, -, -, hheld, -⟩
  have harr : armedSlotRig.arrives (.core 0) 0x40590004 true = true := by decide +kernel
  have hhalf : halfAt 0x40590004 = 1 := by decide +kernel
  have hslot : armedSlotRig.slotHolds 0x40590004 = true := by decide +kernel
  obtain ⟨u, hexec, ⟨-, -, -, hraises⟩, hlow⟩ := hheld (.core 0) 0x40590004#32 5#32 armedSlotRig harr hhalf rfl
  have heff : armedSlotRig.anyWrite (.core 0) 0x40590004 4 5 = armedSlotRig.setFlag (ITIN_SLOT_STAT_WIGN 0) true :=
    armedSlotRig.anyWrite_armedSlot (.core 0) 0x40590004 5 harr (by simp [hhalf]) rfl hslot
  have hsettled : (armedSlotRig.setFlag (ITIN_SLOT_STAT_WIGN 0) true).settle = u.settle :=
    (congrArg State.settle heff).symm.trans (Host.Outcome.next.inj hexec)
  have hlows : u.lows = [] := by
    have h := congrArg State.lows hsettled
    rw [State.settle_lows_of_ignored _ rfl, State.settle_lows_of_ignored u (hraises.trans (List.append_nil _))] at h
    exact h.symm
  simp [State.low, hlows] at hlow

/-! ### A captured byte reads as an open value -/

/-- A state that sets nothing more off is its own settled state (R28, R278, R349). -/
theorem State.settle_of_calm (s : State) (h : s.Calm) : s.settle = s := by
  obtain ⟨hraises, hmodeq, hreset, hnotices⟩ := h
  rw [State.settle, show s.resetDue = s by simp [State.resetDue, hreset], State.settleN_quiet _ _ hraises hmodeq,
    State.fwDrain_none s hnotices]

/-- In HOLDUP: group 0 of the SRAM is on, its bytes may have been captured, and nothing waits (R301, R318). -/
def capturedRig : State :=
  { (State.reset.setFld SYS_MODE_CUR modeHOLDUP).setReg MEM_STAT 1#32 with trans := none, pwr := { PwrSt.reset with capture := true } }

/-- Refutes O43: a read of a word of SRAM group 0 that the capture of a HOLDUP may have taken answers an open value (R318), not the
bytes that stand there. -/
theorem not_memoryAccess : ¬ Obligations.MemoryAccess := by
  unfold Obligations.MemoryAccess
  rintro ⟨-, -, -, -, -, -, -, hread, -, -, -⟩
  have hyields := hread (.core 0) 0x20000000#32 4 capturedRig (by decide +kernel) (by decide +kernel)
  have hsettled : (capturedRig.anyRead (.core 0) 0x20000000 4).settle =
      ({ capturedRig with rdata := BitVec.ofNat 64 (ofLe (capturedRig.bytes 0x20000000 4)) } : State).settle := Host.Outcome.next.inj hyields
  rw [State.settle_of_calm _ (by decide +kernel), State.settle_of_calm _ (by decide +kernel)] at hsettled
  have hdraws : (capturedRig.anyRead (.core 0) 0x20000000 4).free = 1 := by decide +kernel
  exact absurd (hdraws.symm.trans (congrArg State.free hsettled)) (by decide)

end Sys2Proof.Machine

/-! Proofs about the architecture and the modes of the device (chapter 1): what settles, what stops, what an unmapped range answers. -/

namespace Sys2Proof.Machine

open Sys2Proof

/-- Settles O3. -/
theorem quietStateSettles : Obligations.QuietStateSettles := fun s hcalm => s.settle_of_calm hcalm

/-! ### No step stops -/

/-- Every step answers a next state, so every run does. -/
theorem safe_of_any_state (s : State) : Safe s := by
  intro k
  induction k generalizing s with
  | zero => exact ⟨s, rfl⟩
  | succ k ih =>
    obtain ⟨u, hstep⟩ := step_settles s
    obtain ⟨t, hrun⟩ := ih u.settle
    exact ⟨t, by simpa [Host.Core.run, core, hstep] using hrun⟩

/-- Settles O59. -/
theorem noRunStops : Obligations.NoRunStops :=
  ⟨safe_of_any_state, fun c s => (exec_settles c s).imp' State.settle fun _ hexec => hexec⟩

/-! ### An unmapped range -/

/-- The bridge denies the threads alone. -/
theorem State.bridgeDenied_of_no_thread (s : State) (m : Master) (hthread : ∀ (e : Fin 16) (t : Fin 4), m ≠ .thread e t) (a : Nat)
    (wr : Bool) : s.bridgeDenied m a wr = false := by
  cases m with
  | thread e t => exact absurd rfl (hthread e t)
  | _ => rfl

section Unmapped

variable {a : Nat} (h : unmapped a = true)
include h

theorem unmapped_bounds : 0x40000 ≤ a ∧ ((a < 0x40000000 ∧ (a < 0x20000000 ∨ 0x20C00000 ≤ a) ∧ (a < 0x30000000 ∨ 0x30800000 ≤ a)) ∨
    (0x42000000 ≤ a ∧ (a < 0x80000000 ∨ 0x84000000 ≤ a))) := by
  simp only [unmapped, decide_eq_true_eq] at h
  omega

theorem inRegs_of_unmapped : inRegs a = false := by
  have := unmapped_bounds h
  simp only [inRegs, decide_eq_false_iff_not]
  omega

theorem inHamper_of_unmapped : inHamper a = false := by
  have := unmapped_bounds h
  simp only [inHamper, decide_eq_false_iff_not]
  omega

theorem not_window_of_unmapped : a ≠ HOST_RWDATA := by
  have := unmapped_bounds h
  simp only [HOST_RWDATA]
  omega

theorem memReach_of_unmapped (m : Master) : memReach m a = false := by
  have := unmapped_bounds h
  have hrom : ¬ a < 0x40000 := by omega
  have hsram : inSram a = false := by simp only [inSram, decide_eq_false_iff_not]; omega
  have hmram : inMram a = false := by simp only [inMram, decide_eq_false_iff_not]; omega
  cases m <;> simp [memReach, hrom, hsram, hmram, inHamper_of_unmapped h]

theorem State.anyWrite_of_unmapped (s : State) (m : Master) (n v : Nat) : s.anyWrite m a n v = s.accWrite m a n v := by
  have hbar : ¬ (m = .host ∧ a < 0x10000) := fun hhost => by have := unmapped_bounds h; omega
  rw [State.anyWrite, if_neg hbar, s.busWrite_acc m a n v (.inr (.inl (not_window_of_unmapped h)))]

theorem State.anyRead_of_unmapped (s : State) (m : Master) (n : Nat) :
    s.anyRead m a n = { (s.accRead m a n).1 with rdata := BitVec.ofNat 64 (s.accRead m a n).2 } := by
  have hbar : ¬ (m = .host ∧ a < 0x10000) := fun hhost => by have := unmapped_bounds h; omega
  simp [State.anyRead, State.busRead, hbar, not_window_of_unmapped h]

/-- The bridge reaches no unmapped address (R117). -/
theorem State.bridgeDenied_of_unmapped (s : State) (e : Fin 16) (t : Fin 4) (wr : Bool) : s.bridgeDenied (.thread e t) a wr = true := by
  simp [State.bridgeDenied, inRegs_of_unmapped h, inHamper_of_unmapped h]

theorem State.anyWrite_unmapped_thread (s : State) (e : Fin 16) (t : Fin 4) (n v : Nat) :
    s.anyWrite (.thread e t) a n v = (s.setFlag (ENG_STAT_PERMDENY e) true).note := by
  rw [State.anyWrite_of_unmapped h]
  simp [State.accWrite, State.bridgeDenied_of_unmapped h, State.permDeny]

theorem State.anyRead_unmapped_thread (s : State) (e : Fin 16) (t : Fin 4) (n : Nat) :
    s.anyRead (.thread e t) a n = { (s.setFlag (ENG_STAT_PERMDENY e) true).note with rdata := 0 } := by
  rw [State.anyRead_of_unmapped h]
  simp [State.accRead, State.bridgeDenied_of_unmapped h, State.permDeny]

section Direct

variable (s : State) (m : Master) (hcard : m ≠ .cardamom) (hheld : m = .host → s.isHeld .host = false)
  (hthread : ∀ (e : Fin 16) (t : Fin 4), m ≠ .thread e t)
include hcard hheld hthread

theorem State.anyWrite_unmapped (n v : Nat) : s.anyWrite m a n v = s.note := by
  rw [State.anyWrite_of_unmapped h]
  have hbridge := s.bridgeDenied_of_no_thread m hthread a true
  have hhost : (m == .host && s.isHeld .host) = false := by simpa using hheld
  simp [State.accWrite, hcard, hhost, hbridge, inRegs_of_unmapped h, memReach_of_unmapped h]

theorem State.anyRead_unmapped (n : Nat) : s.anyRead m a n = { s.note with rdata := 0 } := by
  rw [State.anyRead_of_unmapped h]
  have hbridge := s.bridgeDenied_of_no_thread m hthread a false
  have hhost : (m == .host && s.isHeld .host) = false := by simpa using hheld
  simp [State.accRead, hcard, hhost, hbridge, inRegs_of_unmapped h, memReach_of_unmapped h]

end Direct

end Unmapped

/-- A refused access of a thread sets its engine's PERMDENY and raises a class 0 note, and nothing else (R20, R117). -/
theorem State.only_permDeny (s : State) (e : Fin 16) :
    Only s ((s.setFlag (ENG_STAT_PERMDENY e) true).note) [ENG_STAT e] [(14, 0, false)] :=
  ⟨fun _ ha => s.reg_setFlag_ne (ENG_STAT_PERMDENY e) true (by simpa [ENG_STAT_PERMDENY] using ha), fun _ => rfl, rfl, rfl⟩

/-- A command whose own effect, as `exec` gives it, is `u`. -/
theorem effect_of_eq {c : Instr} {s t u : State} {chg : List Nat} {new : List (Nat × Nat × Bool)} {P : State → Prop}
    (heff : t = u) (honly : Only s u chg new) (hp : P u) (hexec : Machine.exec c s = .next t.settle) : Effect c s chg new P :=
  ⟨u, heff ▸ hexec, honly, hp⟩

/-- Settles O57: an unmapped address is in no register region and no memory that a master reaches, and outside what the bridge reaches. -/
theorem unmappedAccess : Obligations.UnmappedAccess := by
  unfold Obligations.UnmappedAccess
  have hdeny (s : State) (e : Fin 16) : ((s.setFlag (ENG_STAT_PERMDENY e) true).note).flag (ENG_STAT_PERMDENY e) = true :=
    s.flag_setFlag_same (ENG_STAT_PERMDENY e) true rfl (show 16 < 32 by decide)
  refine ⟨?_, ?_, ?_, ?_⟩
  · rintro m a n v s ⟨h, hcard, hheld, hthread⟩
    exact effect_of_eq (State.anyWrite_unmapped h s m hcard hheld hthread n v.toNat) ⟨fun _ _ => rfl, fun _ => rfl, rfl, rfl⟩ trivial rfl
  · rintro m a n s ⟨h, hcard, hheld, hthread⟩
    exact effect_of_eq (State.anyRead_unmapped h s m hcard hheld hthread n) ⟨fun _ _ => rfl, fun _ => rfl, rfl, rfl⟩ rfl rfl
  · intro e t a n v s h
    exact effect_of_eq (State.anyWrite_unmapped_thread h s e t n v.toNat) (s.only_permDeny e) (hdeny s e) rfl
  · intro e t a n s h
    exact effect_of_eq (State.anyRead_unmapped_thread h s e t n) (s.only_permDeny e) ⟨rfl, hdeny s e⟩ rfl

end Sys2Proof.Machine

/-! Proofs about firmware's SYS, FW and POWER commands (chapters 1 and 15). -/

namespace Sys2Proof.Machine

open Sys2Proof

/-! ### An answer told to a state in which nothing waits -/

/-- Mail to the host sets nothing off. -/
theorem State.calm_of_mailOnly {s u : State} {c : Nat} (hc : c ≤ 3) (hcalm : s.Calm) (hmail : s.mailOnly u c) : u.Calm := by
  obtain ⟨hraises, hmodeq, hreset, hnotices⟩ := hcalm
  obtain ⟨hsame, -, hkept⟩ := hmail
  have hmodeq' : u.modeq = s.modeq := (congrArg State.modeq hsame :)
  have hsys : u.sys = s.sys := (congrArg State.sys hsame :)
  have hfw : u.fw = s.fw := (congrArg State.fw hsame :)
  exact ⟨(hkept hc).trans hraises, hmodeq'.trans hmodeq, by rw [hsys, hreset], by rw [hfw, hnotices]⟩

/-- Where the state before and the command's own effect `v` both set nothing off, a command that is `Told` has the mail of the statement
in `v` itself, and nothing else. -/
theorem Told.of_calm {cmd : Instr} {s v : State} {c : Nat} {m : List Byte} {code da db : Nat} {pl : List Byte} (hc : c ≤ 3)
    (hcalm : s.Calm) (hexec : Machine.exec cmd s = .next v.settle) (hv : v.Calm) (htold : Told cmd s c m code da db pl) :
    s.mailOnly v c ∧ v.chan (retChan c) = s.chan (retChan c) ++ [stampMsg (retChan c) (respMsg m code da db pl)] := by
  obtain ⟨u, hu, -, hanswer, -, -, hmail⟩ := htold
  have hsettled : v.settle = u.settle := Host.Outcome.next.inj (hexec.symm.trans hu)
  rw [v.settle_of_calm hv, u.settle_of_calm (State.calm_of_mailOnly hc hcalm hmail)] at hsettled
  exact hsettled ▸ ⟨hmail, hanswer⟩

/-! ### ENV samples the supplies -/

/-- Raises of index 512 are dropped, one each round, whatever was raised after them. -/
theorem State.settleN_ignored_append (n : Nat) (s : State) (l : List (Nat × Nat × Bool))
    (h : s.raises = List.replicate n (512, 0, false) ++ l) : State.settleN n s = { s with raises := l } := by
  induction n generalizing s with
  | zero =>
    rw [List.replicate_zero, List.nil_append] at h
    rw [State.settleN, ← h]
  | succ n ih =>
    have hdrop : State.settleN (n + 1) s = State.settleN n { s with raises := List.replicate n (512, 0, false) ++ l } := by
      simp [State.settleN, h, List.replicate_succ, State.fcuRaise]
    rw [hdrop, ih _ rfl]

/-- Where ignored raises take up all of settling, no open value is drawn. -/
theorem State.settle_free_of_ignored (s : State) (l : List (Nat × Nat × Bool))
    (h : s.raises = List.replicate 4096 (512, 0, false) ++ l) : s.settle.free = s.free := by
  have hdue : s.resetDue.free = s.free := by
    unfold State.resetDue
    split
    · split <;> rfl
    · rfl
  obtain ⟨_, _, _, _, _, _, hdrain⟩ := State.fwDrain_frame { s.resetDue with raises := l }
  rw [State.settle, State.settleN_ignored_append _ _ l (s.resetDue_frame.2.trans h), hdrain]
  exact hdue

/-- What a refused SEND leaves of the raises and of the open values (R337). -/
theorem State.chanRefuse_raises (s : State) (c : Nat) :
    (s.chanRefuse c).free = s.free ∧ (s.chanRefuse c).raises = s.raises ++ [(354, 0, false)] := by
  unfold State.chanRefuse
  dsimp only
  split <;> exact ⟨rfl, rfl⟩

/-- A message to the host is announced to no Dispatcher. -/
theorem State.mbxPush_host (s : State) (m : List Byte) : s.mbxPush 6 m = s.chanPush 6 m := by
  simp [State.mbxPush, State.announce, chanReceiver]

/-- What firmware's answer to the host in channel 2 leaves of the raises and of the open values. -/
theorem State.fwOk_host (s : State) (m pl : List Byte) : (s.fwOk 2 m pl).free = s.free ∧ ∃ l, (s.fwOk 2 m pl).raises = s.raises ++ l := by
  have hpop : (s.chanPop 2).free = s.free ∧ (s.chanPop 2).raises = s.raises := by
    obtain ⟨_, _, _, h⟩ := s.chanPop_frame 2
    exact h ▸ ⟨rfl, rfl⟩
  simp only [State.fwOk, State.fwAns, State.fwReply, State.fwOffer]
  split
  · obtain ⟨hfree, hraises⟩ := (s.chanPop 2).chanRefuse_raises (retChan 2)
    exact ⟨hfree.trans hpop.1, _, hraises.trans (by rw [hpop.2])⟩
  · have hpush : ((s.chanPop 2).mbxPush 6 (respMsg m 0 0 0 pl)).free = (s.chanPop 2).free ∧
        ((s.chanPop 2).mbxPush 6 (respMsg m 0 0 0 pl)).raises = (s.chanPop 2).raises := by
      obtain ⟨_, _, _, _, _, h⟩ := (s.chanPop 2).chanPush_frame 6 (respMsg m 0 0 0 pl)
      rw [State.mbxPush_host, h]
      exact ⟨rfl, rfl⟩
    exact ⟨hpush.1.trans hpop.1, [], (hpush.2.trans hpop.2).trans (List.append_nil _).symm⟩

/-- ENV draws one open value, and drops no raise. -/
theorem State.cmdEnv_host (s : State) (m p : List Byte) :
    (s.cmdEnv 2 m p).free = s.free + 1 ∧ ∃ l, (s.cmdEnv 2 m p).raises = s.raises ++ l :=
  s.supplyRead.fwOk_host m _

/-- PREOP, with ENV in the host's channel 2, and settling all taken up by raises that the collector does not take. -/
def envRig : State := { Tests.fwRig 2 (Tests.fwMsg 0x0104 []) with raises := List.replicate 4096 (512, 0, false) }
/-- What ENV does in `envRig`, before it settles. -/
def envDone : State := envRig.fwServe 2 0x0104 true false anyMode (fixLen 0) State.cmdEnv

/-- Firmware serves ENV in `envRig`. -/
theorem envDone_eq : envDone = envRig.cmdEnv 2 (Tests.fwMsg 0x0104 []) (msgPl (Tests.fwMsg 0x0104 [])) := by
  have hchan : envRig.chan 2 = [Tests.fwMsg 0x0104 []] := by decide +kernel
  have hfree : (!cmdChan 2 || !envRig.fwFree 2 false) = false := by decide +kernel
  have hop : plN (Tests.fwMsg 0x0104 []) 4 2 = 0x0104 := by decide +kernel
  have hrefusals : envRig.refusals 2 0x0104 true anyMode (plN (Tests.fwMsg 0x0104 []) 6 2 == fixLen 0 (msgPl (Tests.fwMsg 0x0104 []))) = [] := by
    decide +kernel
  have hknown : 0x0104 ∈ knownOps := by decide
  simp [envDone, State.fwServe, hfree, hchan, hop, hknown, hrefusals]

/-- Refutes O48: ENV samples the supplies (R383): it draws an open value into PWR_HOLDSTAT and answers that, so it is not true that nothing
but mail changes. -/
theorem not_systemMessages : ¬ Obligations.SystemMessages := by
  unfold Obligations.SystemMessages
  rintro ⟨-, henv, -⟩
  obtain ⟨u, hu, -, -, -, -, hsame, -, hkept⟩ := henv 2 (Tests.fwMsg 0x0104 []) envRig (by decide +kernel)
  have hsettled : envDone.settle = u.settle := Host.Outcome.next.inj hu
  obtain ⟨hdraws, l, hraises⟩ := envRig.cmdEnv_host (Tests.fwMsg 0x0104 []) (msgPl (Tests.fwMsg 0x0104 []))
  have hfree : u.free = envRig.free := (congrArg State.free hsame :)
  have hkept' : u.raises = List.replicate 4096 (512, 0, false) ++ [] := (hkept (by decide)).trans (List.append_nil _).symm
  have heq : envDone.settle.free = u.settle.free := congrArg State.free hsettled
  rw [envDone_eq, State.settle_free_of_ignored _ l hraises, State.settle_free_of_ignored u [] hkept', hfree] at heq
  exact Nat.succ_ne_self _ (hdraws.symm.trans heq)

/-! ### FLASK_INFO reads the slot's own address -/

/-- PREOP, with FLASK_INFO in the host's channel 2, slot 0 the last written, and its sequence number 5 in MRAM. -/
def flaskInfoRig : State := ((Tests.fwRig 2 (Tests.fwMsg 0x0B04 [])).setFlag MEM_FLASK_VALID true).setMem32 (slotAt 0 + 4) 5
/-- What FLASK_INFO does in `flaskInfoRig`, before it settles. -/
def flaskInfoDone : State := flaskInfoRig.fwServe 2 0x0B04 false false anyMode (fixLen 0) State.cmdFlaskInfo

/-- Refutes O54: FLASK_INFO answers from the Flask slots of MRAM, which begin at 0x30300000 (R302), and not from 0x20200000. -/
theorem not_powerMessages : ¬ Obligations.PowerMessages := by
  unfold Obligations.PowerMessages
  rintro ⟨-, -, -, -, -, -, hinfo, -⟩
  obtain ⟨-, hanswer⟩ := (hinfo 2 (Tests.fwMsg 0x0B04 []) 0x20200000 flaskInfoRig (by decide +kernel)).of_calm (v := flaskInfoDone) (by decide)
    (by decide +kernel) rfl (by decide +kernel)
  exact absurd hanswer (by decide +kernel)

end Sys2Proof.Machine

/-! What the units leave alone: the mode and the power domains, the transition in progress, the causes kept waiting, the line service, and
the requests of transitions that no fault and no wake event makes (R26 to R29, R311). -/

namespace Sys2Proof.Machine

open Sys2Proof

/-! ### The frame -/

/-- SYS_MODE and PWR_DOMSTAT among the registers. -/
def modeRegs (regs : List (Nat × Word)) : Word × Word := (storeGet regReset regs SYS_MODE, storeGet regReset regs PWR_DOMSTAT)

/-- A request of a transition that neither a fault (12, 13), a wake event (18) nor a reset (21) makes. -/
def commanded (e : Nat × Nat × Nat) : Bool := e.1 != 12 && e.1 != 13 && e.1 != 18 && e.1 != 21

/-- The commanded requests of a queue, and those of them at its front. -/
def asked (q : List (Nat × Nat × Nat)) : List (Nat × Nat × Nat) × List (Nat × Nat × Nat) := (q.filter commanded, q.takeWhile commanded)

/-- From `s` to `t` mode, domains, transition, kept causes, line service and commanded requests are the same. -/
abbrev State.Spares (s t : State) : Prop :=
  modeRegs t.regs = modeRegs s.regs ∧ t.trans = s.trans ∧ t.pwr.late = s.pwr.late ∧ t.line = s.line ∧ asked t.modeq = asked s.modeq

/-- And no memory is written. -/
abbrev State.Keeps (s t : State) : Prop :=
  modeRegs t.regs = modeRegs s.regs ∧ t.trans = s.trans ∧ t.pwr.late = s.pwr.late ∧ t.line = s.line ∧ asked t.modeq = asked s.modeq ∧
  t.mem = s.mem

theorem State.Spares.refl (s : State) : s.Spares s := ⟨rfl, rfl, rfl, rfl, rfl⟩
theorem State.Keeps.refl (s : State) : s.Keeps s := ⟨rfl, rfl, rfl, rfl, rfl, rfl⟩

section Frame

variable {s t u : State}

theorem State.Spares.word (h : s.Spares t) : t.reg SYS_MODE = s.reg SYS_MODE := congrArg Prod.fst h.1
theorem State.Spares.domains (h : s.Spares t) : t.reg PWR_DOMSTAT = s.reg PWR_DOMSTAT := congrArg Prod.snd h.1
theorem State.Spares.transition (h : s.Spares t) : t.trans = s.trans := h.2.1
theorem State.Spares.late (h : s.Spares t) : t.pwr.late = s.pwr.late := h.2.2.1
theorem State.Spares.line (h : s.Spares t) : t.line = s.line := h.2.2.2.1
theorem State.Spares.requests (h : s.Spares t) : asked t.modeq = asked s.modeq := h.2.2.2.2
theorem State.Keeps.spares (h : s.Keeps t) : s.Spares t := ⟨h.1, h.2.1, h.2.2.1, h.2.2.2.1, h.2.2.2.2.1⟩
theorem State.Keeps.memory (h : s.Keeps t) : t.mem = s.mem := h.2.2.2.2.2

theorem State.Spares.trans (h : s.Spares t) (h1 : t.Spares u) : s.Spares u := by
  obtain ⟨hregs, htrans, hlate, hline, hasked⟩ := h
  obtain ⟨hregs1, htrans1, hlate1, hline1, hasked1⟩ := h1
  exact ⟨hregs1.trans hregs, htrans1.trans htrans, hlate1.trans hlate, hline1.trans hline, hasked1.trans hasked⟩
theorem State.Keeps.trans (h : s.Keeps t) (h1 : t.Keeps u) : s.Keeps u := by
  obtain ⟨hregs, htrans, hlate, hline, hasked⟩ := h.spares.trans h1.spares
  exact ⟨hregs, htrans, hlate, hline, hasked, h1.memory.trans h.memory⟩

theorem State.Spares.ite {c : Prop} [Decidable c] (h : s.Spares t) (h1 : s.Spares u) : s.Spares (if c then t else u) := by
  split
  · exact h
  · exact h1
theorem State.Keeps.ite {c : Prop} [Decidable c] (h : s.Keeps t) (h1 : s.Keeps u) : s.Keeps (if c then t else u) := by
  split
  · exact h
  · exact h1

end Frame

theorem State.spares_foldl {β : Type} {op : State → β → State} (h : ∀ (t : State) (x : β), t.Spares (op t x)) (s : State) (l : List β) :
    s.Spares (l.foldl op s) := by
  induction l generalizing s with
  | nil => exact .refl s
  | cons x t ih => exact (h s x).trans (ih (op s x))

theorem State.keeps_foldl_of_mem {β : Type} {op : State → β → State} {l : List β} (h : ∀ (t : State), ∀ x ∈ l, t.Keeps (op t x))
    (s : State) : s.Keeps (l.foldl op s) := by
  induction l generalizing s with
  | nil => exact .refl s
  | cons x t ih => exact (h s x List.mem_cons_self).trans (ih (fun u y hy => h u y (List.mem_cons_of_mem x hy)) (op s x))
theorem State.keeps_foldl {β : Type} {op : State → β → State} (h : ∀ (t : State) (x : β), t.Keeps (op t x)) (s : State) (l : List β) :
    s.Keeps (l.foldl op s) := State.keeps_foldl_of_mem (fun t x _ => h t x) s

/-- A branch of the model keeps what both its sides keep. -/
theorem State.kept_ite (c : Prop) [Decidable c] (t u : State) :
    modeRegs (if c then t else u).regs = (if c then modeRegs t.regs else modeRegs u.regs) ∧
    (if c then t else u).trans = (if c then t.trans else u.trans) ∧ (if c then t else u).pwr.late = (if c then t.pwr.late else u.pwr.late) ∧
    (if c then t else u).line = (if c then t.line else u.line) ∧
    asked (if c then t else u).modeq = (if c then asked t.modeq else asked u.modeq) ∧
    (if c then t else u).mem = (if c then t.mem else u.mem) := by
  split <;> exact ⟨rfl, rfl, rfl, rfl, rfl, rfl⟩

/-- A request that a fault, a wake event or a reset makes. -/
theorem asked_append (q : List (Nat × Nat × Nat)) (e : Nat × Nat × Nat) (h : commanded e = false) : asked (q ++ [e]) = asked q := by
  have hfilter : (q ++ [e]).filter commanded = q.filter commanded := by simp [h]
  have hfront : (q ++ [e]).takeWhile commanded = q.takeWhile commanded := by
    induction q with
    | nil => simp [h]
    | cons x t ih => simp only [List.cons_append, List.takeWhile_cons]; split <;> simp_all
  rw [asked, asked, hfilter, hfront]

/-! ### Registers above the power block -/

section Registers

variable (s : State)

theorem modeRegs_setReg {a : Nat} (v : Word) (h : 0x40200000 ≤ a) : modeRegs (s.setReg a v).regs = modeRegs s.regs := by
  have h1 : SYS_MODE ≠ a := by simp only [SYS_MODE]; omega
  have h2 : PWR_DOMSTAT ≠ a := by simp only [PWR_DOMSTAT]; omega
  simp [modeRegs, State.setReg, storeGet_set, h1, h2]
@[simp] theorem State.setReg_modeRegs (a : Nat) (v : Word) (h : 0x40200000 ≤ a) : modeRegs (s.setReg a v).regs = modeRegs s.regs :=
  modeRegs_setReg s v h
@[simp] theorem State.setRegN_modeRegs (a n : Nat) (h : 0x40200000 ≤ a) : modeRegs (s.setRegN a n).regs = modeRegs s.regs :=
  modeRegs_setReg s _ h
@[simp] theorem State.setFld_modeRegs (f : Fld) (n : Nat) (h : 0x40200000 ≤ f.addr) : modeRegs (s.setFld f n).regs = modeRegs s.regs :=
  modeRegs_setReg s _ h
@[simp] theorem State.setFlag_modeRegs (f : Fld) (b : Bool) (h : 0x40200000 ≤ f.addr) : modeRegs (s.setFlag f b).regs = modeRegs s.regs :=
  modeRegs_setReg s _ h
@[simp] theorem State.setPair_modeRegs (a n : Nat) (h : 0x40200000 ≤ a) : modeRegs (s.setPair a n).regs = modeRegs s.regs :=
  (modeRegs_setReg _ _ (Nat.le_add_right_of_le h)).trans (modeRegs_setReg s _ h)
@[simp] theorem State.count_modeRegs (a n : Nat) (h : 0x40200000 ≤ a) : modeRegs (s.count a n).regs = modeRegs s.regs :=
  modeRegs_setReg s _ h
@[simp] theorem State.countSat_modeRegs (a n : Nat) (h : 0x40200000 ≤ a) : modeRegs (s.countSat a n).regs = modeRegs s.regs :=
  modeRegs_setReg s _ h
@[simp] theorem State.fldSat_modeRegs (f : Fld) (n : Nat) (h : 0x40200000 ≤ f.addr) : modeRegs (s.fldSat f n).regs = modeRegs s.regs :=
  modeRegs_setReg s _ h
@[simp] theorem State.resetReg_modeRegs (a : Nat) (h : 0x40200000 ≤ a) : modeRegs (s.resetReg a).regs = modeRegs s.regs :=
  modeRegs_setReg s _ h
@[simp] theorem State.setBitAt_modeRegs (a b : Nat) (v : Bool) (h : 0x40200000 ≤ a) : modeRegs (s.setBitAt a b v).regs = modeRegs s.regs :=
  modeRegs_setReg s _ (Nat.le_add_right_of_le h)
@[simp] theorem State.resetRange_modeRegs (lo hi : Nat) (h : 0x40200000 ≤ lo) : modeRegs (s.resetRange lo hi).regs = modeRegs s.regs := by
  have h1 : SYS_MODE < lo := by simp only [SYS_MODE]; omega
  have h2 : PWR_DOMSTAT < lo := by simp only [PWR_DOMSTAT]; omega
  have hkept (a : Nat) : storeGet regReset (s.resetRange lo hi).regs a = if decide (a < lo) || decide (hi ≤ a) then storeGet regReset s.regs a
      else regReset a := storeGet_filter regReset s.regs (fun a => decide (a < lo) || decide (hi ≤ a)) a
  simp [modeRegs, hkept, h1, h2]

/-- Registers of the power and system blocks beside the two. -/
theorem modeRegs_setReg_beside (a : Nat) (v : Word) (h : a ≠ SYS_MODE) (h1 : a ≠ PWR_DOMSTAT) :
    modeRegs (s.setReg a v).regs = modeRegs s.regs := by
  simp [modeRegs, State.setReg, storeGet_set, h.symm, h1.symm]

theorem State.keeps_setFld (f : Fld) (n : Nat) (h : 0x40200000 ≤ f.addr) : s.Keeps (s.setFld f n) := ⟨s.setFld_modeRegs f n h, rfl, rfl, rfl, rfl, rfl⟩
theorem State.keeps_setEng (n : Nat) (x : EngSt) : s.Keeps (s.setEng n x) := ⟨rfl, rfl, rfl, rfl, rfl, rfl⟩

end Registers

/-! ### The registers that units write lie above the power block -/

@[simp] theorem mbx_above :
    (∀ i j, 0x40200000 ≤ MBX_CH_HEAD i j) ∧ (∀ i, 0x40200000 ≤ (MBX_CH_STAT_COUNT i).addr) ∧
    (∀ i, 0x40200000 ≤ MBX_CH_SENT i) ∧ (∀ i, 0x40200000 ≤ MBX_DB i) ∧ (∀ i, 0x40200000 ≤ (MBX_CH_STAT_SNDREF i).addr) ∧
    (∀ i, 0x40200000 ≤ MBX_CH_REFUSED i) :=
  ⟨fun _ _ => Nat.le_add_right_of_le (Nat.le_add_right_of_le (by decide)), fun _ => Nat.le_add_right_of_le (by decide),
    fun _ => Nat.le_add_right_of_le (by decide), fun _ => Nat.le_add_right_of_le (by decide),
    fun _ => Nat.le_add_right_of_le (by decide), fun _ => Nat.le_add_right_of_le (by decide)⟩
@[simp] theorem host_above :
    (∀ i, 0x40200000 ≤ HOST_MBPEND i) ∧ 0x40200000 ≤ HOST_LINKCFG ∧
    0x40200000 ≤ HOST_STAT_SPI.addr ∧ 0x40200000 ≤ HOST_STAT_LINKUP.addr ∧ 0x40200000 ≤ HOST_ERR_SNDREF.addr :=
  ⟨fun _ => Nat.le_add_right_of_le (by decide), by decide, by decide, by decide, by decide⟩
@[simp] theorem lau_above :
    (∀ i, 0x40200000 ≤ LAU_VM_SPD i) ∧ (∀ i, 0x40200000 ≤ LAU_ANG_LO i) ∧
    (∀ i, 0x40200000 ≤ LAU_SPD i) ∧ (∀ i, 0x40200000 ≤ LAU_ACC i) ∧ (∀ i, 0x40200000 ≤ (LAU_STAT_SETTLED i).addr) :=
  ⟨fun _ => Nat.le_add_right_of_le (by decide), fun _ => Nat.le_add_right_of_le (by decide),
    fun _ => Nat.le_add_right_of_le (by decide), fun _ => Nat.le_add_right_of_le (by decide),
    fun _ => Nat.le_add_right_of_le (by decide)⟩
@[simp] theorem saf_above :
    0x40200000 ≤ SAF_OUTPUTS ∧ 0x40200000 ≤ SAF_STAT_STATE.addr ∧ 0x40200000 ≤ SAF_STAT_LOWPWR.addr ∧
    0x40200000 ≤ SAF_STAT_BTOVER.addr ∧ 0x40200000 ≤ SAF_STAT_BTDUE.addr ∧ 0x40200000 ≤ SAF_STAT_TESTING.addr ∧
    0x40200000 ≤ SAF_STAT_CCVOK.addr ∧ 0x40200000 ≤ SAF_STAT_CONFIRMED.addr ∧ 0x40200000 ≤ SAF_STAT_ENERGISED.addr ∧
    0x40200000 ≤ SAF_STAT_PERMIT.addr ∧ (∀ i, 0x40200000 ≤ (SAF_BTEST_RESULT i).addr) ∧ 0x40200000 ≤ SAF_REASON_MERGED.addr ∧
    0x40200000 ≤ SAF_REASON ∧ 0x40200000 ≤ SAF_REASONTS :=
  ⟨by decide, by decide, by decide, by decide, by decide, by decide, by decide, by decide, by decide, by decide,
    fun _ => Nat.le_add_right_of_le (by decide), by decide, by decide, by decide⟩
@[simp] theorem loop_above :
    0x40200000 ≤ LOOP_STAT_QLEN.addr ∧ 0x40200000 ≤ LOOP_STAT_BUSY.addr ∧
    (∀ i, 0x40200000 ≤ (LOOP_CTX_STAT_PEND i).addr) ∧ (∀ i j, 0x40200000 ≤ LOOP_CTX_CNT i j) ∧ (∀ i, 0x40200000 ≤ LOOP_NV i) ∧
    (∀ i, 0x40200000 ≤ (LOOP_CTX_STAT_BANK i).addr) ∧ (∀ i, 0x40200000 ≤ (LOOP_CTX_STAT_SHDIRTY i).addr) :=
  ⟨by decide, by decide, fun _ => Nat.le_add_right_of_le (by decide),
    fun _ _ => Nat.le_add_right_of_le (Nat.le_add_right_of_le (by decide)), fun _ => Nat.le_add_right_of_le (by decide),
    fun _ => Nat.le_add_right_of_le (by decide), fun _ => Nat.le_add_right_of_le (by decide)⟩
@[simp] theorem nut_above :
    (∀ i, 0x40200000 ≤ (NUT_CRCST_CRCST i).addr) ∧ (∀ i, 0x40200000 ≤ (NUT_STAT_STATE i).addr) ∧
    (∀ i, 0x40200000 ≤ (NUT_STAT_STARTPEND i).addr) ∧ (∀ i, 0x40200000 ≤ (NUT_STAT_TXN i).addr) ∧
    (∀ i, 0x40200000 ≤ (NUT_STAT_RXN i).addr) ∧ (∀ i, 0x40200000 ≤ (NUT_STAT_INJPEND i).addr) ∧
    (∀ i, 0x40200000 ≤ (NUT_INJ_PEND i).addr) ∧ (∀ i, 0x40200000 ≤ (NUT_FLAGS_RXOVF i).addr) ∧ (∀ i, 0x40200000 ≤ NUT_SR i) ∧
    (∀ i, 0x40200000 ≤ (NUT_STAT_SRN i).addr) ∧ (∀ i, 0x40200000 ≤ (NUT_BC_BC i).addr) ∧ (∀ i, 0x40200000 ≤ NUT_MARKTS i) ∧
    (∀ i, 0x40200000 ≤ (NUT_FLAGS_TXUNF i).addr) ∧ (∀ i, 0x40200000 ≤ (NUT_STAT_PC i).addr) ∧
    (∀ i, 0x40200000 ≤ (NUT_FLAGS_TXOVF i).addr) :=
  ⟨fun _ => Nat.le_add_right_of_le (by decide), fun _ => Nat.le_add_right_of_le (by decide),
    fun _ => Nat.le_add_right_of_le (by decide), fun _ => Nat.le_add_right_of_le (by decide),
    fun _ => Nat.le_add_right_of_le (by decide), fun _ => Nat.le_add_right_of_le (by decide),
    fun _ => Nat.le_add_right_of_le (by decide), fun _ => Nat.le_add_right_of_le (by decide),
    fun _ => Nat.le_add_right_of_le (by decide), fun _ => Nat.le_add_right_of_le (by decide),
    fun _ => Nat.le_add_right_of_le (by decide), fun _ => Nat.le_add_right_of_le (by decide),
    fun _ => Nat.le_add_right_of_le (by decide), fun _ => Nat.le_add_right_of_le (by decide),
    fun _ => Nat.le_add_right_of_le (by decide)⟩
@[simp] theorem mem_above :
    0x40200000 ≤ MEM_STAT ∧ (∀ i, 0x40200000 ≤ MEM_CNT i) ∧ 0x40200000 ≤ MEM_ECCADDR ∧
    0x40200000 ≤ MEM_UNCADDR :=
  ⟨by decide, fun _ => Nat.le_add_right_of_le (by decide), by decide, by decide⟩
@[simp] theorem mac_above :
    (∀ i, 0x40200000 ≤ (MAC_IRQ_TSAVAIL i).addr) ∧ (∀ i, 0x40200000 ≤ (MAC_IRQ_CNT i).addr) ∧
    (∀ i j, 0x40200000 ≤ MAC_CNTHALF i j) ∧ (∀ i, 0x40200000 ≤ (MAC_STAT_LPITX i).addr) ∧
    (∀ i, 0x40200000 ≤ (MAC_FCSTAT_XOFFSENT i).addr) ∧ (∀ i, 0x40200000 ≤ (MAC_STAT_LPIRX i).addr) ∧
    (∀ i, 0x40200000 ≤ (MAC_FCSTAT_PAUSED i).addr) ∧ (∀ i, 0x40200000 ≤ (MAC_STAT_RXPAUSED i).addr) ∧
    (∀ i, 0x40200000 ≤ (MAC_FCSTAT_CLASS i).addr) ∧ (∀ i, 0x40200000 ≤ (MAC_PREEMPT_STAT_VSTATE i).addr) ∧
    (∀ i, 0x40200000 ≤ (MAC_PREEMPT_STAT_ACTIVE i).addr) ∧ (∀ i, 0x40200000 ≤ (MAC_STAT_PEACT i).addr) ∧
    (∀ i, 0x40200000 ≤ (MAC_STAT_LINK i).addr) ∧ (∀ i, 0x40200000 ≤ (MAC_IRQ_LINKCHG i).addr) :=
  ⟨fun _ => Nat.le_add_right_of_le (by decide), fun _ => Nat.le_add_right_of_le (by decide),
    fun _ _ => Nat.le_add_right_of_le (Nat.le_add_right_of_le (by decide)), fun _ => Nat.le_add_right_of_le (by decide),
    fun _ => Nat.le_add_right_of_le (by decide), fun _ => Nat.le_add_right_of_le (by decide),
    fun _ => Nat.le_add_right_of_le (by decide), fun _ => Nat.le_add_right_of_le (by decide),
    fun _ => Nat.le_add_right_of_le (by decide), fun _ => Nat.le_add_right_of_le (by decide),
    fun _ => Nat.le_add_right_of_le (by decide), fun _ => Nat.le_add_right_of_le (by decide),
    fun _ => Nat.le_add_right_of_le (by decide), fun _ => Nat.le_add_right_of_le (by decide)⟩
@[simp] theorem buf_above :
    0x40200000 ≤ BUF_FREE_CELLS.addr ∧ 0x40200000 ≤ BUF_LOW_CELLS.addr ∧
    0x40200000 ≤ BUF_STAT_POOLLOW.addr ∧ 0x40200000 ≤ BUF_DESC_FREE.addr :=
  ⟨by decide, by decide, by decide, by decide⟩
@[simp] theorem fcu_above :
    0x40200000 ≤ FCU_STAT_PENDING.addr ∧ 0x40200000 ≤ FCU_STAT_ALIVESTOP.addr ∧
    0x40200000 ≤ FCU_STAT_FAULTN.addr ∧ 0x40200000 ≤ FCU_STAT_WINDOW.addr ∧ 0x40200000 ≤ FCU_STAT_NEXT.addr ∧
    (∀ i, 0x40200000 ≤ (FCU_REC_W2_PENDING i).addr) ∧ 0x40200000 ≤ FCU_STAT_LOGOVF.addr ∧ (∀ i, 0x40200000 ≤ FCU_REC_W0 i) ∧
    (∀ i, 0x40200000 ≤ FCU_REC_TS i) ∧ (∀ i, 0x40200000 ≤ FCU_REC_W2 i) ∧ (∀ i, 0x40200000 ≤ FCU_REC_INFO i) ∧
    0x40200000 ≤ FCU_STAT_IRQ.addr ∧ (∀ i, 0x40200000 ≤ (FCU_REC_W0_REPEAT i).addr) ∧
    (∀ i, 0x40200000 ≤ (FCU_REC_W0_CONSEQ i).addr) ∧ (∀ i, 0x40200000 ≤ (FCU_REC_W2_LASTCQ i).addr) ∧
    (∀ i, 0x40200000 ≤ (FCU_REC_W2_ESC i).addr) ∧ (∀ i, 0x40200000 ≤ (FCU_REC_W2_ESCSRC i).addr) ∧
    (∀ i, 0x40200000 ≤ (FCU_REC_W2_ESCCLASS i).addr) ∧ (∀ i, 0x40200000 ≤ (FCU_REC_W0_CLASS i).addr) ∧
    (∀ i, 0x40200000 ≤ (FCU_REC_W0_REACT i).addr) ∧ (∀ i, 0x40200000 ≤ FCU_SEEN i) ∧ (∀ i, 0x40200000 ≤ FCU_WIRE i) ∧
    0x40200000 ≤ FCU_CTRL_ARMED.addr :=
  ⟨by decide, by decide, by decide, by decide, by decide, fun _ => Nat.le_add_right_of_le (by decide), by decide,
    fun _ => Nat.le_add_right_of_le (by decide), fun _ => Nat.le_add_right_of_le (by decide),
    fun _ => Nat.le_add_right_of_le (by decide), fun _ => Nat.le_add_right_of_le (by decide), by decide,
    fun _ => Nat.le_add_right_of_le (by decide), fun _ => Nat.le_add_right_of_le (by decide),
    fun _ => Nat.le_add_right_of_le (by decide), fun _ => Nat.le_add_right_of_le (by decide),
    fun _ => Nat.le_add_right_of_le (by decide), fun _ => Nat.le_add_right_of_le (by decide),
    fun _ => Nat.le_add_right_of_le (by decide), fun _ => Nat.le_add_right_of_le (by decide),
    fun _ => Nat.le_add_right_of_le (by decide), fun _ => Nat.le_add_right_of_le (by decide), by decide⟩
@[simp] theorem edge_above : (∀ i, 0x40200000 ≤ (EDGE_EP_STAT_PEND i).addr) :=
  fun _ => Nat.le_add_right_of_le (by decide)
@[simp] theorem swx_above :
    (∀ i j, 0x40200000 ≤ (SWX_QSTAT_FRAMES i j).addr) ∧
    (∀ i j, 0x40200000 ≤ (SWX_QSTAT_CELLS i j).addr) ∧ (∀ i j, 0x40200000 ≤ SWX_CNT i j) :=
  ⟨fun _ _ => Nat.le_add_right_of_le (Nat.le_add_right_of_le (by decide)),
    fun _ _ => Nat.le_add_right_of_le (Nat.le_add_right_of_le (by decide)),
    fun _ _ => Nat.le_add_right_of_le (Nat.le_add_right_of_le (by decide))⟩
@[simp] theorem itin_above :
    0x40200000 ≤ ITIN_STAT_ARMED.addr ∧ 0x40200000 ≤ ITIN_STAT_POSTQ.addr :=
  ⟨by decide, by decide⟩
@[simp] theorem eng_above :
    (∀ i j, 0x40200000 ≤ ENG_CNT i j) ∧ (∀ i, 0x40200000 ≤ (ENG_STAT_OUTST i).addr) ∧
    (∀ i, 0x40200000 ≤ (ENG_STAT_TST i).addr) :=
  ⟨fun _ _ => Nat.le_add_right_of_le (Nat.le_add_right_of_le (by decide)), fun _ => Nat.le_add_right_of_le (by decide),
    fun _ => Nat.le_add_right_of_le (by decide)⟩
@[simp] theorem can_above :
    (∀ i, 0x40200000 ≤ (CAN_RXRING_COUNT i).addr) ∧ (∀ i, 0x40200000 ≤ (CAN_RXRING_NEXT i).addr) ∧
    (∀ i, 0x40200000 ≤ (CAN_STAT_BADTIM i).addr) ∧ (∀ i j, 0x40200000 ≤ CAN_MO_STAT i j) ∧
    (∀ i, 0x40200000 ≤ (CAN_STAT_INITACK i).addr) ∧ (∀ i, 0x40200000 ≤ (CAN_STAT_IDLE i).addr) ∧
    (∀ i, 0x40200000 ≤ (CAN_STAT_TXING i).addr) ∧ (∀ i, 0x40200000 ≤ (CAN_STAT_RXING i).addr) ∧ (∀ i, 0x40200000 ≤ CAN_IRQ i) ∧
    (∀ i, 0x40200000 ≤ (CAN_TT_STAT_STATE i).addr) :=
  ⟨fun _ => Nat.le_add_right_of_le (by decide), fun _ => Nat.le_add_right_of_le (by decide),
    fun _ => Nat.le_add_right_of_le (by decide), fun _ _ => Nat.le_add_right_of_le (Nat.le_add_right_of_le (by decide)),
    fun _ => Nat.le_add_right_of_le (by decide), fun _ => Nat.le_add_right_of_le (by decide),
    fun _ => Nat.le_add_right_of_le (by decide), fun _ => Nat.le_add_right_of_le (by decide),
    fun _ => Nat.le_add_right_of_le (by decide), fun _ => Nat.le_add_right_of_le (by decide)⟩
@[simp] theorem txn_above :
    (∀ i, 0x40200000 ≤ (TXN_CH_STAT_LOGN i).addr) ∧ (∀ i, 0x40200000 ≤ (TXN_CH_STAT_ARMED i).addr) ∧
    (∀ i, 0x40200000 ≤ TXN_CH_HANDLE i) ∧ (∀ i, 0x40200000 ≤ (TXN_CH_STAT_OPEN i).addr) ∧
    (∀ i, 0x40200000 ≤ (TXN_CH_STAT_CHECKING i).addr) ∧ 0x40200000 ≤ TXN_STAT_INCONS.addr ∧ 0x40200000 ≤ TXN_STAT_RULE.addr ∧
    0x40200000 ≤ TXN_STAT_BLOCK.addr ∧ 0x40200000 ≤ TXN_INCADDR :=
  ⟨fun _ => Nat.le_add_right_of_le (by decide), fun _ => Nat.le_add_right_of_le (by decide),
    fun _ => Nat.le_add_right_of_le (by decide), fun _ => Nat.le_add_right_of_le (by decide),
    fun _ => Nat.le_add_right_of_le (by decide), by decide, by decide, by decide, by decide⟩
@[simp] theorem disp_above :
    0x40200000 ≤ DISP_STAT_TOKOVF.addr ∧ (∀ i j, 0x40200000 ≤ (DISP_CAP_OCC i j).addr) ∧
    0x40200000 ≤ DISP_STAT_OCC.addr ∧ (∀ i, 0x40200000 ≤ DISP_HELD i) :=
  ⟨by decide, fun _ _ => Nat.le_add_right_of_le (Nat.le_add_right_of_le (by decide)), by decide,
    fun _ => Nat.le_add_right_of_le (by decide)⟩


/-! ### One rule per operation -/

/-! #### Wake events, channels and notices -/

@[simp] theorem State.keeps_wake (s : State) (i : Nat) : s.Keeps (s.wake i) := by
  unfold State.wake
  split
  · exact ⟨modeRegs_setReg_beside s _ _ (by decide) (by decide), rfl, rfl, rfl, asked_append _ _ rfl, rfl⟩
  · exact .refl s
@[simp] theorem State.keeps_showHead (s : State) (c : Nat) (m : List Byte) : s.Keeps (s.showHead c m) := by
  simp [State.Keeps, State.keeps_foldl, State.showHead]
@[simp] theorem State.keeps_setChan (s : State) (c : Nat) (ms : List (List Byte)) : s.Keeps (s.setChan c ms) := by
  simp [State.Keeps, State.kept_ite, State.setChan]
@[simp] theorem State.keeps_chanPush (s : State) (c : Nat) (m : List Byte) : s.Keeps (s.chanPush c m) := by
  simp [State.Keeps, State.kept_ite, State.chanPush]
@[simp] theorem State.keeps_fwDrainN (k : Nat) (s : State) : s.Keeps (s.fwDrainN k) := by
  induction k generalizing s with
  | zero => exact .refl s
  | succ k ih =>
    unfold State.fwDrainN
    split
    · exact .refl s
    · split
      · exact .refl s
      · exact .trans (by simp [State.Keeps]) (ih _)
@[simp] theorem State.keeps_fwDrain (s : State)  : s.Keeps s.fwDrain := by simp [State.Keeps, State.fwDrain]
@[simp] theorem State.keeps_fwNotice (s : State) (opcode : Nat) (payload : List Byte) : s.Keeps (s.fwNotice opcode payload) := by
  simp [State.Keeps, State.kept_ite, State.fwNotice]

/-! #### Saffron's outputs -/

@[simp] theorem State.keeps_lineSpeed (s : State) (v : Word) : s.Keeps (s.lineSpeed v) := by simp [State.Keeps, State.lineSpeed]
@[simp] theorem State.keeps_setOut4 (s : State) (o : Nat) (b : Bool) : s.Keeps (s.setOut4 o b) := by simp [State.Keeps, State.setOut4]
@[simp] theorem State.keeps_safShow (s : State)  : s.Keeps s.safShow := by simp [State.Keeps, State.kept_ite, State.safShow]
@[simp] theorem State.keeps_safOperational (s : State)  : s.Keeps s.safOperational := by
  simp [State.Keeps, State.kept_ite, State.safOperational]
@[simp] theorem State.keeps_setDelay (s : State) (o : Nat) (b : Bool) : s.Keeps (s.setDelay o b) := by simp [State.Keeps, State.setDelay]
@[simp] theorem State.keeps_outDrop (s : State) (o : Nat) : s.Keeps (s.outDrop o) := by simp [State.Keeps, State.outDrop]
@[simp] theorem State.keeps_outOff (s : State) (now : Bool) (o : Nat) : s.Keeps (s.outOff now o) := by
  simp [State.Keeps, State.kept_ite, State.outOff]
@[simp] theorem State.keeps_safLeaveOp (s : State)  : s.Keeps s.safLeaveOp := by
  simp [State.Keeps, State.keeps_foldl, State.kept_ite, State.safLeaveOp]

/-! #### The loop block and the cells it feeds -/

@[simp] theorem State.keeps_setCtx (s : State) (k : Nat) (x : LoopCtx) : s.Keeps (s.setCtx k x) := by simp [State.Keeps, State.setCtx]
@[simp] theorem State.keeps_loopStat (s : State)  : s.Keeps s.loopStat := by simp [State.Keeps, State.loopStat]
@[simp] theorem State.keeps_unqueue (s : State) (k : Nat) : s.Keeps (s.unqueue k) := by simp [State.Keeps, State.unqueue]
@[simp] theorem State.keeps_loopEmpty (s : State)  : s.Keeps s.loopEmpty := by
  simp [State.Keeps, State.keeps_foldl, State.loopEmpty]
@[simp] theorem State.keeps_trigger (s : State) (k : Nat) : s.Keeps (s.trigger k) := by simp [State.Keeps, State.kept_ite, State.trigger]
@[simp] theorem State.keeps_nvWrite (s : State) (i : Nat) (v : Word) : s.Keeps (s.nvWrite i v) := by
  simp [State.Keeps, State.keeps_foldl, State.kept_ite, State.nvWrite]
@[simp] theorem State.keeps_crcFeed (s : State) (c : Nat) (b : Bool) : s.Keeps (s.crcFeed c b) := by simp [State.Keeps, State.crcFeed]
@[simp] theorem State.keeps_setNut (s : State) (c : Nat) (x : NutSt) : s.Keeps (s.setNut c x) := by simp [State.Keeps, State.setNut]
@[simp] theorem State.keeps_nutFlag (s : State) (f : Fld) (h : 0x40200000 ≤ f.addr) : s.Keeps (s.nutFlag f) := by
  simp [State.Keeps, State.nutFlag, h]
@[simp] theorem State.keeps_nutGive (s : State) (c : Nat) (blk : Bool) (v : Word) : s.Keeps (s.nutGive c blk v).1 := by
  unfold State.nutGive
  dsimp only
  repeat' split
  all_goals simp [State.Keeps]
@[simp] theorem State.keeps_shinBit (s : State) (c w : Nat) (b : Bool) : s.Keeps (s.shinBit c w b).1 := by
  unfold State.shinBit
  dsimp only
  repeat' split
  all_goals simp [State.Keeps]
@[simp] theorem State.keeps_nutStall (s : State) (c : Nat) (on : Bool) : s.Keeps (s.nutStall c on) := by simp [State.Keeps, State.nutStall]
@[simp] theorem State.keeps_shinTicks (c w n k : Nat) (s : State) : s.Keeps (State.shinTicks c w n k s).1 := by
  induction n generalizing k s with
  | zero => exact .refl s
  | succ n ih =>
    unfold State.shinTicks
    split
    · exact .refl s
    · dsimp only
      split
      · simp [State.Keeps]
      · split
        · simp [State.Keeps]
        · exact .trans (State.keeps_shinBit s c w _) (ih _ _)
@[simp] theorem State.keeps_pulses (s : State) (c k : Nat) : s.Keeps (s.pulses c k) := by simp [State.Keeps, State.kept_ite, State.pulses]
@[simp] theorem State.keeps_nutTake (s : State) (c : Nat) (blk : Bool) : s.Keeps (s.nutTake c blk).1 := by
  unfold State.nutTake
  dsimp only
  repeat' split
  all_goals simp [State.Keeps]
@[simp] theorem State.keeps_shoutBit (s : State) (c w : Nat) : s.Keeps (s.shoutBit c w).1 := by
  have htake := State.keeps_nutTake s c (shBlk w)
  unfold State.shoutBit
  cases shAuto w && s.fld (NUT_STAT_SRN c) == 0 with
  | false => simp [State.Keeps, State.kept_ite]
  | true =>
    simp only [if_true]
    generalize s.nutTake c (shBlk w) = r at htake ⊢
    split
    · exact htake
    · exact htake.trans (by simp [State.Keeps, State.kept_ite])
@[simp] theorem State.keeps_shoutRun (c w n : Nat) (s : State) (l : List Bool) : s.Keeps (State.shoutRun c w n (s, l)).1 := by
  induction n generalizing s l with
  | zero => exact .refl s
  | succ n ih =>
    unfold State.shoutRun
    split
    · exact .refl s
    · have hbit := State.keeps_shoutBit s c w
      split
      · next t h =>
        rw [h] at hbit
        exact hbit.trans (State.keeps_nutStall t c true)
      · next t b h =>
        rw [h] at hbit
        exact hbit.trans (.trans (State.keeps_setNut t c _) (ih _ _))
@[simp] theorem State.keeps_nutPc (s : State) (c v : Nat) : s.Keeps (s.nutPc c v) := by simp [State.Keeps, State.nutPc]
@[simp] theorem State.keeps_nutDone (s : State) (c : Nat) : s.Keeps (s.nutDone c) := by
  unfold State.nutDone
  dsimp only
  split <;> simp [State.Keeps, State.kept_ite]
@[simp] theorem State.keeps_nutSync (s : State) (c lim : Nat) : s.Keeps (s.nutSync c lim) := by
  unfold State.nutSync
  dsimp only
  repeat' split
  all_goals simp [State.Keeps]
@[simp] theorem State.keeps_txqPut (s : State) (c : Nat) (v : Word) : s.Keeps (s.txqPut c v) := by
  simp [State.Keeps, State.kept_ite, State.txqPut]
@[simp] theorem State.keeps_slotDeliver (s : State) (k w : Nat) (v : Int) : s.Keeps (s.slotDeliver k w v) := by
  simp [State.Keeps, State.kept_ite, State.slotDeliver]
@[simp] theorem State.keeps_safeOnce (s : State)  : s.Keeps s.safeOnce := by
  simp [State.Keeps, State.keeps_foldl, State.kept_ite, State.safeOnce]
@[simp] theorem State.keeps_loopStop (s : State)  : s.Keeps s.loopStop := by simp [State.Keeps, State.kept_ite, State.loopStop]
@[simp] theorem State.keeps_safCommission (s : State)  : s.Keeps s.safCommission := by simp [State.Keeps, State.safCommission]

/-! #### Protocol instances, memory groups and clocks -/

@[simp] theorem State.keeps_instNotice (s : State) (i st tries late : Nat) : s.Keeps (s.instNotice i st tries late) := by
  simp [State.Keeps, State.instNotice]
@[simp] theorem State.keeps_setInst (s : State) (i : Nat) (x : Option InstSt) : s.Keeps (s.setInst i x) := by
  simp [State.Keeps, State.setInst]
@[simp] theorem State.keeps_instState (s : State) (i st : Nat) : s.Keeps (s.instState i st) := by
  unfold State.instState
  split <;> simp [State.Keeps, State.kept_ite]
@[simp] theorem State.keeps_acyclic (s : State) : s.Keeps s.acyclic :=
  State.keeps_foldl (fun t i => by
    split
    · exact .ite (by simp [State.Keeps]) (.refl t)
    · exact .refl t) s _
@[simp] theorem State.keeps_setSg (s : State) (g : Nat) (on busy : Bool) : s.Keeps (s.setSg g on busy) := by simp [State.Keeps, State.setSg]
theorem State.keeps_clkFlag (s : State) (f : Fld) (b : Bool) (h : f.addr = SYS_CLKSTAT) : s.Keeps (s.setFlag f b) :=
  ⟨modeRegs_setReg_beside s _ _ (by rw [h]; decide) (by rw [h]; decide), rfl, rfl, rfl, rfl, rfl⟩

@[simp] theorem State.keeps_spllSync (s : State) : s.Keeps s.spllSync := by
  refine State.keeps_foldl (fun t i => ?_) s (List.range 2)
  have h : (if i = 0 then SYS_CLKSTAT_SPLL0LK else SYS_CLKSTAT_SPLL1LK).addr = SYS_CLKSTAT := by split <;> rfl
  refine .ite (t.keeps_clkFlag _ _ h) (.trans (t.keeps_clkFlag _ false h) ?_)
  simp [State.Keeps]
@[simp] theorem State.keeps_phyClocks (s : State) : s.Keeps s.phyClocks := by
  refine .trans (.ite (s.keeps_clkFlag SYS_CLKSTAT_PHYLK _ rfl) (.trans (s.keeps_clkFlag SYS_CLKSTAT_PHYLK false rfl) ?_))
    (State.keeps_spllSync _)
  simp [State.Keeps]

/-! #### Ports and the cell pool -/

@[simp] theorem State.keeps_macSync (s : State) (p : Nat) : s.Keeps (s.macSync p) := by simp [State.Keeps, State.macSync]
@[simp] theorem macCnt_above (p i : Nat) : 0x40200000 ≤ macCnt p i := Nat.le_add_right_of_le (Nat.le_add_right_of_le (by decide))
@[simp] theorem State.keeps_macCount (s : State) (p i n : Nat) : s.Keeps (s.macCount p i n) :=
  .ite (by simp [State.Keeps]) (by simp [State.Keeps])
@[simp] theorem State.keeps_lpiTxSync (s : State) (p : Nat) : s.Keeps (s.lpiTxSync p) := by
  simp [State.Keeps, State.kept_ite, State.lpiTxSync]
@[simp] theorem State.keeps_lpiLeave (s : State) (p : Nat) : s.Keeps (s.lpiLeave p) := by simp [State.Keeps, State.lpiLeave]
@[simp] theorem State.keeps_ctlCount (s : State) (p base : Nat) : s.Keeps (s.ctlCount p base) := by simp [State.Keeps, State.ctlCount]
@[simp] theorem State.keeps_macFcOut (s : State) (p cls quanta : Nat) : s.Keeps (s.macFcOut p cls quanta) := by
  simp [State.Keeps, State.macFcOut]
@[simp] theorem State.keeps_macSendFc (s : State) (p cls quanta : Nat) : s.Keeps (s.macSendFc p cls quanta) := by
  simp [State.Keeps, State.kept_ite, State.macSendFc]
@[simp] theorem State.keeps_macGen (s : State) (p : Nat) : s.Keeps (s.macGen p) := by simp [State.Keeps, State.kept_ite, State.macGen]
@[simp] theorem State.keeps_setRingFree (s : State) (p n : Nat) : s.Keeps (s.setRingFree p n) := by simp [State.Keeps, State.setRingFree]
@[simp] theorem State.keeps_setRing (s : State) (p n : Nat) : s.Keeps (s.setRing p n) := by
  simp [State.Keeps, State.kept_ite, State.setRing]
@[simp] theorem State.keeps_setWaiting (s : State) (p : Nat) (w : Nat × Nat) : s.Keeps (s.setWaiting p w) := by
  simp [State.Keeps, State.setWaiting]
@[simp] theorem State.keeps_setFree (s : State) (n : Nat) : s.Keeps (s.setFree n) := by simp [State.Keeps, State.kept_ite, State.setFree]
@[simp] theorem State.keeps_refillPort (s : State) (p : Nat) : s.Keeps (s.refillPort p) := by
  simp [State.Keeps, State.kept_ite, State.refillPort]
@[simp] theorem State.keeps_ringTake (s : State) (p n : Nat) : s.Keeps (s.ringTake p n) := by
  simp [State.Keeps, State.kept_ite, State.ringTake]

/-! #### The fault collector's records -/

@[simp] theorem State.keeps_fcuShow (s : State)  : s.Keeps s.fcuShow := by simp [State.Keeps, State.kept_ite, State.fcuShow]
@[simp] theorem State.keeps_fixNext (s : State) : s.Keeps s.fixNext := by
  unfold State.fixNext
  refine .ite ?_ (.refl s)
  split
  · simp [State.Keeps]
  · exact .refl s
@[simp] theorem State.keeps_becomePending (s : State) (r : Nat) : s.Keeps (s.becomePending r) := by
  simp [State.Keeps, State.kept_ite, State.becomePending]
@[simp] theorem State.keeps_withdraw (s : State) (src info : Nat) (no : Bool) : s.Keeps (s.withdraw src info no) := by
  simp [State.Keeps, State.kept_ite, State.withdraw]
@[simp] theorem State.keeps_newRec (s : State) (src info cls react : Nat) (wiring : Bool) : s.Keeps (s.newRec src info cls react wiring).1 := by
  unfold State.newRec
  dsimp only
  repeat' split
  all_goals simp [State.Keeps]
theorem State.keeps_recDo (s : State) (recd : Option Nat) {f : State → Nat → State} (h : ∀ r, s.Keeps (f s r)) : s.Keeps (s.recDo recd f) := by
  unfold State.recDo
  split
  · exact h _
  · exact .refl s

/-! #### The switch and the ports at a loss of link -/

@[simp] theorem State.keeps_setEdge (s : State) (n : Nat) (e : EdgeSt) : s.Keeps (s.setEdge n e) := by simp [State.Keeps, State.setEdge]
@[simp] theorem State.keeps_edgeDrop (s : State)  : s.Keeps s.edgeDrop := by
  simp [State.Keeps, State.keeps_foldl, State.edgeDrop]
@[simp] theorem State.keeps_setFcSt (s : State) (f : Nat) (x : FcSt) : s.Keeps (s.setFcSt f x) := by simp [State.Keeps, State.setFcSt]
@[simp] theorem State.keeps_bucketPay (s : State) (f n : Nat) : s.Keeps (s.bucketPay f n) := by simp [State.Keeps, State.bucketPay]
@[simp] theorem State.keeps_setRx (s : State) (k : Nat) (g : Option Ingr) : s.Keeps (s.setRx k g) := by simp [State.Keeps, State.setRx]
@[simp] theorem State.keeps_ringBack (s : State) (g : Ingr) : s.Keeps (s.ringBack g) := by
  simp [State.Keeps, State.kept_ite, State.ringBack]
@[simp] theorem State.keeps_ingrGone (s : State) (k : Nat) : s.Keeps (s.ingrGone k) := by
  unfold State.ingrGone
  dsimp only
  repeat' split
  all_goals simp [State.Keeps]
@[simp] theorem State.keeps_setSent (s : State) (p : Nat) (l : List Copy) : s.Keeps (s.setSent p l) := by simp [State.Keeps, State.setSent]
@[simp] theorem State.keeps_setRsv (s : State) (f p n : Nat) : s.Keeps (s.setRsv f p n) := by simp [State.Keeps, State.setRsv]
@[simp] theorem State.keeps_setQ (s : State) (p c : Nat) (x : QSt) : s.Keeps (s.setQ p c x) := by simp [State.Keeps, State.setQ]
@[simp] theorem State.keeps_recharge (s : State) (p c : Nat) (fc : Option Nat) (a old new : Nat) : s.Keeps (s.recharge p c fc a old new) := by
  unfold State.recharge
  split <;> simp [State.Keeps]
@[simp] theorem State.keeps_copySent (s : State) (p : Nat) (x : Copy) : s.Keeps (s.copySent p x) := by simp [State.Keeps, State.copySent]
@[simp] theorem State.keeps_sentOver (s : State) (p key : Nat) : s.Keeps (s.sentOver p key) := by
  unfold State.sentOver
  split <;> simp [State.Keeps]
@[simp] theorem State.keeps_setOut (s : State) (p : Nat) (x : OutSt) : s.Keeps (s.setOut p x) := by simp [State.Keeps, State.setOut]
@[simp] theorem State.keeps_mapCopies (s : State) (p cls key : Nat) (f : Copy → Copy) : s.Keeps (s.mapCopies p cls key f) := by
  simp [State.Keeps, State.mapCopies]
@[simp] theorem State.keeps_settleCopy (s : State) (p cls key n : Nat) : s.Keeps (s.settleCopy p cls key n) := by
  unfold State.settleCopy
  split <;> simp [State.Keeps]
@[simp] theorem State.keeps_creditSync (s : State) (p : Nat) : s.Keeps (s.creditSync p) := by simp [State.Keeps, State.creditSync]
@[simp] theorem State.keeps_swxCount (s : State) (p i : Nat) : s.Keeps (s.swxCount p i) := by simp [State.Keeps, State.swxCount]
@[simp] theorem State.keeps_setFrm (s : State) (k : Nat) (x : Option Frm) : s.Keeps (s.setFrm k x) := by simp [State.Keeps, State.setFrm]
@[simp] theorem State.keeps_dropRef (s : State) (k : Nat) : s.Keeps (s.dropRef k) := by
  unfold State.dropRef
  split <;> simp [State.Keeps, State.kept_ite]
@[simp] theorem State.keeps_copyFree (s : State) (p : Nat) (x : Copy) : s.Keeps (s.copyFree p x) := by simp [State.Keeps, State.copyFree]
@[simp] theorem State.keeps_ingrFail (s : State) (k n : Nat) : s.Keeps (s.ingrFail k n) := by
  unfold State.ingrFail
  dsimp only
  repeat' split
  all_goals simp [State.Keeps, State.kept_ite, State.keeps_foldl]
@[simp] theorem State.keeps_rxDrop (s : State) (k : Nat) : s.Keeps (s.rxDrop k) := by
  unfold State.rxDrop
  split <;> simp [State.Keeps]
@[simp] theorem State.keeps_rxDropPort (s : State) (p : Nat) (cnt : Bool) : s.Keeps (s.rxDropPort p cnt) := by
  simp [State.Keeps, State.kept_ite, State.rxDropPort]
@[simp] theorem State.keeps_lpiRxSync (s : State) (p : Nat) : s.Keeps (s.lpiRxSync p) := by
  simp [State.Keeps, State.kept_ite, State.lpiRxSync]
@[simp] theorem State.keeps_lpiRxLeave (s : State) (p : Nat) : s.Keeps (s.lpiRxLeave p) := by simp [State.Keeps, State.lpiRxLeave]
@[simp] theorem State.keeps_macEndHolds (s : State) (p : Nat) : s.Keeps (s.macEndHolds p) := by simp [State.Keeps, State.macEndHolds]
@[simp] theorem State.keeps_preemptStart (s : State) (p : Nat) (link : Bool) : s.Keeps (s.preemptStart p link) := by
  simp [State.Keeps, State.preemptStart]
theorem State.keeps_purge (s : State) (p : Nat) (f : Copy → Bool) {k : State → State} (h : ∀ t : State, t.Keeps (k t)) : s.Keeps (s.purge p f k) := by
  simp [State.Keeps, State.keeps_foldl, State.purge, h]
@[simp] theorem State.keeps_flushOut (s : State) (p : Nat) : s.Keeps (s.flushOut p) := by
  unfold State.flushOut
  exact State.keeps_purge s p _ (fun t => by simp [State.Keeps])
@[simp] theorem State.keeps_linkDrop (s : State) (p : Nat) : s.Keeps (s.linkDrop p) := by
  simp [State.Keeps, State.keeps_foldl, State.kept_ite, State.linkDrop, -List.foldl_append]
@[simp] theorem State.keeps_linkDown (s : State) (p : Nat) : s.Keeps (s.linkDown p) := by simp [State.Keeps, State.kept_ite, State.linkDown]

/-! #### Block resets -/

@[simp] theorem State.keeps_setLau (s : State) (u : Nat) (l : LauSt) : s.Keeps (s.setLau u l) := by simp [State.Keeps, State.setLau]
@[simp] theorem State.keeps_lauStill (s : State) (u : Nat) : s.Keeps (s.lauStill u) := by simp [State.Keeps, State.lauStill]
@[simp] theorem State.keeps_itinHold (s : State) : s.Keeps s.itinHold := by
  have hslot : 0x40200000 ≤ ITIN_SLOT_CTRL 0 := by decide
  have hmiss : 0x40200000 ≤ ITIN_MISS 0 := by decide
  have hcap : 0x40200000 ≤ ITIN_CAP_NS 0 := by decide
  simp [State.Keeps, State.itinHold, hslot, hmiss, hcap]
@[simp] theorem State.keeps_setThr (s : State) (n t : Nat) (x : Thr) : s.Keeps (s.setThr n t x) := by
  have h : 0x40200000 ≤ ENG_STAT n := Nat.le_add_right_of_le (by decide)
  simp [State.Keeps, State.setThr, h]
@[simp] theorem State.keeps_stallSync (s : State) (n t : Nat) : s.Keeps (s.stallSync n t) := by
  simp [State.Keeps, State.kept_ite, State.stallSync]
@[simp] theorem State.keeps_outst (s : State) (n : Nat) : s.Keeps (s.outst n) := by simp [State.Keeps, State.outst]
@[simp] theorem State.keeps_engFree (s : State) (n : Nat) (y : Copy) : s.Keeps (s.engFree n y) := by
  unfold State.engFree
  split <;> simp [State.Keeps, State.kept_ite]
@[simp] theorem State.keeps_engReset (s : State) (n : Nat) : s.Keeps (s.engReset n) := by
  unfold State.engReset
  refine .trans (.trans (State.keeps_foldl (fun t k => ?_) s _) (State.keeps_setEng _ n _)) (State.keeps_setFld _ _ _ (by simp))
  refine .trans ?_ (State.keeps_setThr _ n k _)
  split <;> simp [State.Keeps]
@[simp] theorem State.keeps_loopReset (s : State)  : s.Keeps s.loopReset := by
  simp [State.Keeps, State.keeps_foldl, State.loopReset]
@[simp] theorem State.keeps_ringStart (s : State) (n : Nat) : s.Keeps (s.ringStart n) := by simp [State.Keeps, State.ringStart]
@[simp] theorem State.keeps_badTim (s : State) (n : Nat) : s.Keeps (s.badTim n) := by simp [State.Keeps, State.badTim]
@[simp] theorem State.keeps_canReset (s : State) (n : Nat) : s.Keeps (s.canReset n) := by
  have hcnt : 0x40200000 ≤ CAN_CNT n 0 := Nat.le_add_right_of_le (Nat.le_add_right_of_le (by decide))
  have hempty : 0x40200000 ≤ CAN_TT_EMPTY n 0 := Nat.le_add_right_of_le (Nat.le_add_right_of_le (by decide))
  have hregs : 0x40200000 ≤ CAN_STAT n ∧ 0x40200000 ≤ CAN_ERR n ∧ 0x40200000 ≤ CAN_ERRLOG n ∧ 0x40200000 ≤ CAN_TT_STAT n ∧
      0x40200000 ≤ CAN_TT_DRIFT n :=
    ⟨Nat.le_add_right_of_le (by decide), Nat.le_add_right_of_le (by decide), Nat.le_add_right_of_le (by decide),
      Nat.le_add_right_of_le (by decide), Nat.le_add_right_of_le (by decide)⟩
  simp [State.Keeps, State.keeps_foldl, State.kept_ite, State.canReset, hcnt, hempty, hregs]
@[simp] theorem State.keeps_nutReset (s : State) : s.Keeps s.nutReset :=
  State.keeps_foldl (fun t c => by
    have h : 0x40200000 ≤ NUT_CTRL c := Nat.le_add_right_of_le (by decide)
    simp [State.Keeps, h]) { s with nut := [] } _
@[simp] theorem State.keeps_chanFlush (s : State) (c : Nat) : s.Keeps (s.chanFlush c) := by simp [State.Keeps, State.chanFlush]
theorem State.keeps_chanReset (s : State) (c : Nat) : s.Keeps ((s.chanFlush c).resetRange (MBX_CH_SEND c 0) (MBX_CH_SEND c 16)) := by
  have h : 0x40200000 ≤ MBX_CH_SEND c 0 := Nat.le_add_right_of_le (Nat.le_add_right_of_le (by decide))
  simp [State.Keeps, h]
theorem State.keeps_hostRegs (s : State) : s.Keeps
    (((({ s.resetRange 0x41800000 0x41900000 with host := HostSt.reset }.setReg HOST_LINKCFG (s.reg HOST_LINKCFG)).setFlag
      HOST_STAT_SPI s.spi).setFlag HOST_STAT_LINKUP s.spi).setReg (MBX_DB 0) 0) := by
  simp [State.Keeps]
@[simp] theorem State.keeps_hostReset (s : State) : s.Keeps s.hostReset :=
  .trans (State.keeps_foldl (fun t c => State.keeps_chanReset t c) s hostChans) (State.keeps_hostRegs _)
@[simp] theorem State.keeps_blkReset (s : State) (b : Blk) : s.Keeps (s.blkReset b) := by
  unfold State.blkReset
  split <;> simp [State.Keeps]
@[simp] theorem State.keeps_blkAssert (s : State) (b : Blk) : s.Keeps (s.blkAssert b) := by
  simp [State.Keeps, State.kept_ite, State.blkAssert]

/-! #### Saffron's reactions -/

@[simp] theorem State.keeps_brakeTorque (s : State) (t : Option (Nat × Word)) : s.Keeps (s.brakeTorque t) := by
  simp [State.Keeps, State.brakeTorque]
@[simp] theorem State.keeps_testAbort (s : State)  : s.Keeps s.testAbort := by
  unfold State.testAbort
  split <;> simp [State.Keeps]
@[simp] theorem State.keeps_react (s : State) (code idx : Nat) : s.Keeps (s.react code idx) := by
  simp [State.Keeps, State.keeps_foldl, State.kept_ite, asked_append, commanded, State.react]
@[simp] theorem State.keeps_safRequest (s : State)  : s.Keeps s.safRequest := by simp [State.Keeps, State.safRequest]

/-! #### Transactions, mail and the Dispatcher -/

@[simp] theorem State.keeps_setTxn (s : State) (m : Nat) (t : TxnCh) : s.Keeps (s.setTxn m t) := by simp [State.Keeps, State.setTxn]
@[simp] theorem State.keeps_sgPowerOn (s : State) (g : Nat) : s.Keeps (s.sgPowerOn g) := by
  simp [State.Keeps, State.kept_ite, State.sgPowerOn]
@[simp] theorem State.keeps_safWarm (s : State)  : s.Keeps s.safWarm := by simp [State.Keeps, State.safWarm]
@[simp] theorem State.keeps_sgServe (s : State) (g : Nat) : s.Keeps (s.sgServe g).1 := by
  unfold State.sgServe
  split
  · exact .refl s
  · split
    · exact .refl s
    · simp [State.Keeps]
@[simp] theorem State.keeps_setEcc (s : State) (a k : Nat) : s.Keeps (s.setEcc a k) := by simp [State.Keeps, State.setEcc]
@[simp] theorem State.keeps_eccCor (s : State) (a : Nat) : s.Keeps (s.eccCor a) := by simp [State.Keeps, State.kept_ite, State.eccCor]
@[simp] theorem State.keeps_eccUnc (s : State) (a : Nat) (reader : Option Nat) : s.Keeps (s.eccUnc a reader) := by
  unfold State.eccUnc
  split <;> simp [State.Keeps]
@[simp] theorem State.keeps_eccWrite (s : State) (a : Nat) (whole : Bool) (reader : Option Nat) : s.Keeps (s.eccWrite a whole reader).1 := by
  unfold State.eccWrite
  split
  · simp [State.Keeps]
  · split
    · exact .refl s
    · simp [State.Keeps]
    · simp [State.Keeps]
@[simp] theorem State.spares_setBytes (s : State) (a : Nat) (l : List Byte) : s.Spares (s.setBytes a l) := by
  obtain ⟨m, h⟩ := s.setBytes_eq a l
  exact h ▸ .refl s
@[simp] theorem State.spares_setMem32 (s : State) (a v : Nat) : s.Spares (s.setMem32 a v) := by simp [State.Spares, State.setMem32]
@[simp] theorem State.spares_sramPut (s : State) (a : Nat) (v : Word) : s.Spares (s.sramPut a v).1 := by
  have hserve := State.keeps_sgServe s (sramBank a / 4)
  rw [State.sramPut]
  generalize s.sgServe (sramBank a / 4) = g at hserve ⊢
  obtain ⟨t, served⟩ := g
  cases served with
  | false => exact (hserve.trans (by simp [State.Keeps])).spares
  | true =>
    have hwrite := State.keeps_eccWrite t a false none
    simp only [Bool.not_true, Bool.false_eq_true, if_false]
    generalize t.eccWrite a false none = e at hwrite ⊢
    exact (hserve.trans hwrite).spares.trans (.ite (State.spares_setMem32 _ a _) (.refl _))
@[simp] theorem State.keeps_clearShad (s : State) (u : SUnit) : s.Keeps (s.clearShad u) := by
  unfold State.clearShad
  split <;> simp [State.Keeps]
@[simp] theorem State.spares_dropShad (s : State) (u : SUnit) : s.Spares (s.dropShad u) := by
  simp [State.Spares, State.spares_foldl, State.kept_ite, State.dropShad]
@[simp] theorem State.keeps_chanRefuse (s : State) (c : Nat) : s.Keeps (s.chanRefuse c) := by
  simp [State.Keeps, State.kept_ite, State.chanRefuse]
@[simp] theorem State.keeps_setTok (s : State) (n i v : Nat) : s.Keeps (s.setTok n i v) := by
  have h : 0x40200000 ≤ DISP_TOK n := Nat.le_add_right_of_le (by decide)
  simp [State.Keeps, State.setTok, h]
@[simp] theorem State.keeps_addToken (s : State) (n i : Nat) : s.Keeps (s.addToken n i).1 := by
  unfold State.addToken
  split
  · exact .refl s
  · split <;> simp [State.Keeps]
@[simp] theorem State.keeps_srcTok (s : State) (e kind : Nat) : s.Keeps (s.srcTok e kind) := by simp [State.Keeps, State.srcTok]
@[simp] theorem State.keeps_setLater (s : State) (i n : Nat) : s.Keeps (s.setLater i n) := by simp [State.Keeps, State.setLater]
@[simp] theorem State.keeps_setHeld (s : State) (kind i : Nat) (x : Option Item) : s.Keeps (s.setHeld kind i x) := by
  simp [State.Keeps, State.setHeld]
@[simp] theorem State.keeps_setLevel (s : State) (k l : Nat) (x : List Item) : s.Keeps (s.setLevel k l x) := by
  simp [State.Keeps, State.setLevel]
@[simp] theorem State.keeps_enqueue (s : State) (x : Item) : s.Keeps (s.enqueue x) := by simp [State.Keeps, State.enqueue]
@[simp] theorem State.keeps_heldCount (s : State) (k : Nat) : s.Keeps (s.heldCount k) := by simp [State.Keeps, State.heldCount]
@[simp] theorem State.keeps_srcPost (s : State) (kind i e arg aux : Nat) (home : Bool) : s.Keeps (s.srcPost kind i e arg aux home) := by
  unfold State.srcPost
  dsimp only
  repeat' split
  all_goals simp [State.Keeps]
@[simp] theorem State.keeps_announce (s : State) (c : Nat) : s.Keeps (s.announce c) := by simp [State.Keeps, State.kept_ite, State.announce]
@[simp] theorem State.keeps_mbxPush (s : State) (c : Nat) (m : List Byte) : s.Keeps (s.mbxPush c m) := by simp [State.Keeps, State.mbxPush]
@[simp] theorem State.keeps_fwOffer (s : State) (c : Nat) (m : List Byte) : s.Keeps (s.fwOffer c m) := by
  simp [State.Keeps, State.kept_ite, State.fwOffer]
@[simp] theorem State.keeps_fwReply (s : State) (c : Nat) (hdr : List Byte) (code da db : Nat) (payload : List Byte) :
    s.Keeps (s.fwReply c hdr code da db payload) := by
  simp [State.Keeps, State.fwReply]
@[simp] theorem State.keeps_fwPay (s : State) (o : Option Owed) (code da db : Nat) (payload : List Byte) :
    s.Keeps (s.fwPay o code da db payload) := by
  unfold State.fwPay
  split <;> simp [State.Keeps]
@[simp] theorem State.keeps_txnNotice (s : State) (handle outcome : Nat) : s.Keeps (s.txnNotice handle outcome) := by
  simp [State.Keeps, State.txnNotice]
@[simp] theorem State.spares_txnCancel (s : State) (m outcome : Nat) : s.Spares (s.txnCancel m outcome) := by
  unfold State.txnCancel
  split <;> simp [State.Spares, State.spares_foldl]
@[simp] theorem State.keeps_txnDiscard (s : State) (m : Nat) : s.Keeps (s.txnDiscard m) := by simp [State.Keeps, State.txnDiscard]
theorem State.spares_txnAbort (s : State) (m : Nat) : s.Spares ((if s.flag (TXN_CH_STAT_OPEN m) then
    (s.fwPay (s.txnCh m).owed 0x8007 (s.fld SYS_MODE_TARGET) 0 []).txnDiscard m else s).txnCancel m 1) :=
  .trans (.ite (.trans (State.keeps_fwPay s _ _ _ _ _).spares (State.keeps_txnDiscard _ m).spares) (.refl s)) (State.spares_txnCancel _ m 1)
@[simp] theorem State.spares_txnModeChange (s : State) : s.Spares s.txnModeChange := by
  unfold State.txnModeChange
  refine State.spares_foldl (fun t m => ?_) s _
  exact State.spares_txnAbort t m

/-! #### Blocks that start again -/

@[simp] theorem State.keeps_engStart (s : State) (n : Nat) : s.Keeps (s.engStart n) := by
  have hthr := State.keeps_foldl (fun t k => State.keeps_setThr t n k (t.thr n k)) s (List.range 4)
  unfold State.engStart
  generalize (List.range 4).foldl _ s = t at hthr ⊢
  exact hthr.trans (.ite (State.keeps_setThr t n 0 _) (.refl t))
@[simp] theorem State.keeps_canQuiet (s : State) (n : Nat) : s.Keeps (s.canQuiet n) := by
  have h : 0x40200000 ≤ CAN_STAT n := Nat.le_add_right_of_le (by decide)
  simp [State.Keeps, State.canQuiet]
@[simp] theorem State.keeps_ring (s : State) (r d : Nat) : s.Keeps (s.ring r d) := by
  unfold State.ring
  cases dbSlot r with
  | none => simp [State.Keeps]
  | some k => simp [State.Keeps, State.kept_ite]
@[simp] theorem State.keeps_canIrq (s : State) (n b : Nat) : s.Keeps (s.canIrq n b) := by
  have h : 0x40200000 ≤ CAN_IRQ n := Nat.le_add_right_of_le (by decide)
  simp [State.Keeps, State.kept_ite, State.canIrq, h]
theorem State.keeps_unitArmed (s : State) (u : SUnit) (m : Nat) : s.Keeps
    (match (s.txnCh m).armed with
    | some a =>
      if u ∈ a.units then
        let rest := a.units.filter (· != u)
        let s := a.keep.foldl (fun (s : State) (e : Nat × Word) => if unitOf e.1 = some u then s.fwKeep e.1 e.2 else s) s
        if rest.isEmpty then
          let s := s.setTxn m { s.txnCh m with armed := none }
          let s := s.fwPay a.owed 0 0 0 []
          if a.byCmd then s.txnNotice a.handle 0 else s
        else s.setTxn m { s.txnCh m with armed := some { a with units := rest } }
      else s
    | none => s) := by
  cases (s.txnCh m).armed with
  | none => exact .refl s
  | some a =>
    refine .ite ?_ (.refl s)
    have hkeep : s.Keeps (a.keep.foldl (fun (s : State) (e : Nat × Word) => if unitOf e.1 = some u then s.fwKeep e.1 e.2 else s) s) :=
      State.keeps_foldl (fun t e => .ite (by simp [State.Keeps, State.fwKeep]) (.refl t)) s a.keep
    generalize a.keep.foldl _ s = t at hkeep ⊢
    exact hkeep.trans (by simp [State.Keeps, State.kept_ite])
@[simp] theorem State.keeps_txnUnitDone (s : State) (u : SUnit) : s.Keeps (s.txnUnitDone u) := by
  unfold State.txnUnitDone
  refine State.keeps_foldl (fun t m => ?_) s _
  exact State.keeps_unitArmed t u m
@[simp] theorem State.keeps_inconsistent (s : State) (u : SUnit) (rule addr : Nat) : s.Keeps (s.inconsistent u rule addr) := by
  simp [State.Keeps, State.inconsistent]
theorem State.keeps_unitBoundary (s : State) (u : SUnit) (bad : Option (Nat × Nat)) {apply : State → State} (h : s.Keeps (apply s)) :
    s.Keeps (s.unitBoundary u bad apply) := by
  unfold State.unitBoundary
  refine .ite (.ite (State.keeps_txnUnitDone s u) (.refl s)) (.ite (.refl s) ?_)
  split
  · exact State.keeps_inconsistent s u _ _
  · exact .ite (h.trans (State.keeps_txnUnitDone _ u)) h
theorem State.keeps_shadIn (s : State) (a : Nat) (v : Word) (h : 0x40200000 ≤ a) : s.Keeps (s.shadIn a v) := by
  simp [State.Keeps, State.shadIn, h]
/-- The units' registers lie above the power block. -/
theorem unitOf_above {a : Nat} {u : SUnit} (h : unitOf a = some u) : 0x40200000 ≤ a := by
  by_contra hlow
  have : unitOf a = none := by
    unfold unitOf
    repeat rw [if_neg (by omega)]
  simp [this] at h

@[simp] theorem State.keeps_applyShad (s : State) (u : SUnit) : s.Keeps (s.applyShad u) := by
  refine .trans (State.keeps_clearShad s u) (State.keeps_foldl_of_mem (fun t e he => t.keeps_shadIn _ _ ?_) _)
  simp only [State.shadOf, List.mem_filter, List.mem_filterMap] at he
  obtain ⟨⟨x, -, hx⟩, -⟩ := he
  split at hx
  · next hu =>
    obtain ⟨v, -, rfl⟩ := Option.map_eq_some_iff.mp hx
    exact unitOf_above hu
  · cases hx
@[simp] theorem State.keeps_ttBoundary (s : State) (n : Nat) : s.Keeps (s.ttBoundary n) :=
  State.keeps_unitBoundary s (.tt n) _ (State.keeps_applyShad s (.tt n))
@[simp] theorem State.keeps_ttSet (s : State) (n st : Nat) : s.Keeps (s.ttSet n st) := by
  simp [State.Keeps, State.kept_ite, State.ttSet]
theorem State.keeps_canJoin (s : State) (n : Nat) (c : CanSt) : s.Keeps
    (if (s.setCan n c).flag (CAN_CTRL_TTEN n) then (s.setCan n c).ttSet n 1 else s.setCan n c) := by
  have hset : s.Keeps (s.setCan n c) := ⟨rfl, rfl, rfl, rfl, rfl, rfl⟩
  generalize s.setCan n c = t at hset ⊢
  exact hset.trans (.ite (State.keeps_ttSet t n 1) (.refl t))
@[simp] theorem State.keeps_canRestart (s : State) (n : Nat) : s.Keeps (s.canRestart n) := by
  unfold State.canRestart
  split
  · exact .refl s
  · exact .trans (State.keeps_canQuiet s n) (State.keeps_canJoin _ n _)
@[simp] theorem State.spares_lauReset (s : State) (u : Nat) : s.Spares (s.lauReset u) := by
  have h : 0x40200000 ≤ LAU_CTRL u := Nat.le_add_right_of_le (by decide)
  simp [State.Spares, State.lauReset, h]
@[simp] theorem State.keeps_nutResume (s : State) : s.Keeps s.nutResume :=
  State.keeps_foldl (fun t c => by simp [State.Keeps]) s (List.range 32)
@[simp] theorem State.keeps_voteOpen (s : State) : s.Keeps s.voteOpen := ⟨rfl, rfl, rfl, rfl, rfl, rfl⟩

end Sys2Proof.Machine

/-! Proofs about the clocks, the supplies, the temperature and the balls (R18, R307, R380, R384, R399). -/

namespace Sys2Proof.Machine

open Sys2Proof

/-! ### What a command changes -/

theorem Only.trans {s t u : State} {chg chg1 : List Nat} {new new1 : List (Nat × Nat × Bool)} (h : Only s t chg new) (h1 : Only t u chg1 new1) :
    Only s u (chg ++ chg1) (new ++ new1) := by
  obtain ⟨hreg, hbyte, hpending, hraises⟩ := h
  obtain ⟨hreg1, hbyte1, hpending1, hraises1⟩ := h1
  refine ⟨fun a ha => ?_, fun a => (hbyte1 a).trans (hbyte a), hpending1.trans hpending, by rw [hraises1, hraises, List.append_assoc]⟩
  obtain ⟨hfirst, hsecond⟩ := not_or.mp (List.mem_append.not.mp ha)
  exact (hreg1 a hsecond).trans (hreg a hfirst)

theorem Only.quiet {s t u : State} {chg chg1 : List Nat} {new : List (Nat × Nat × Bool)} (h : Only s t chg new) (h1 : Only t u chg1 []) :
    Only s u (chg ++ chg1) new := by simpa using h.trans h1

theorem Only.mono {s t : State} {chg chg1 : List Nat} {new : List (Nat × Nat × Bool)} (h : Only s t chg new) (hsub : chg ⊆ chg1) :
    Only s t chg1 new := ⟨fun a ha => h.1 a (fun hmem => ha (hsub hmem)), h.2⟩

theorem Only.of_eq {s t : State} (hregs : t.regs = s.regs) (hmem : t.mem = s.mem) (hpending : t.pending = s.pending)
    (hraises : t.raises = s.raises) : Only s t [] [] :=
  ⟨fun a _ => by rw [State.reg, hregs, State.reg], fun a => by rw [State.byte, hmem, State.byte], hpending, by rw [hraises, List.append_nil]⟩

theorem State.only_setReg (s : State) (a : Nat) (v : Word) : Only s (s.setReg a v) [a] [] :=
  ⟨fun _ ha => s.reg_setReg_ne v (by simpa using ha), fun _ => rfl, rfl, (List.append_nil _).symm⟩
theorem State.only_setFld (s : State) (f : Fld) (n : Nat) : Only s (s.setFld f n) [f.addr] [] := s.only_setReg f.addr _
theorem State.only_setFlag (s : State) (f : Fld) (b : Bool) : Only s (s.setFlag f b) [f.addr] [] := s.only_setReg f.addr _

theorem State.flag_setFlag_apart (s : State) (f g : Fld) (b : Bool) (hh : g.hi < 32) (h : g.lo ≤ g.hi)
    (hd : f.addr ≠ g.addr ∨ f.hi < g.lo ∨ g.hi < f.lo) : (s.setFlag g b).flag f = s.flag f := by
  rw [State.flag, State.setFlag, s.fld_setFld_apart f g _ hh h hd, State.flag]

/-! ### Fault sources -/

section Sources

variable (s : State) (src : Nat)

@[simp] theorem State.cond_assertSrc (k : Nat) :
    storeGet (fun _ => false) (s.assertSrc src).fcu.cond k = (decide (k = src) || storeGet (fun _ => false) s.fcu.cond k) := by
  unfold State.assertSrc
  split
  · next h => by_cases hk : k = src <;> simp [hk, h]
  · by_cases hk : k = src <;> simp [hk, State.raise, State.raiseI, storeGet_set]
@[simp] theorem State.cond_clearSrc (k : Nat) :
    storeGet (fun _ => false) (s.clearSrc src).fcu.cond k = (!decide (k = src) && storeGet (fun _ => false) s.fcu.cond k) := by
  by_cases hk : k = src <;> simp [State.clearSrc, hk, storeGet_set]
@[simp] theorem State.reg_assertSrc (a : Nat) : (s.assertSrc src).reg a = s.reg a := by
  unfold State.assertSrc
  split <;> rfl
@[simp] theorem State.flag_assertSrc (f : Fld) : (s.assertSrc src).flag f = s.flag f := by simp [State.flag, State.fld]
@[simp] theorem State.fld_assertSrc (f : Fld) : (s.assertSrc src).fld f = s.fld f := by simp [State.fld]
@[simp] theorem State.pwr_assertSrc : (s.assertSrc src).pwr = s.pwr := by
  unfold State.assertSrc
  split <;> rfl

/-- A source that begins to stand is raised. -/
theorem State.only_assertSrc :
    Only s (s.assertSrc src) [] (if storeGet (fun _ => false) s.fcu.cond src then [] else [(src, 0, false)]) := by
  unfold State.assertSrc
  split
  · exact .of_eq rfl rfl rfl rfl
  · exact ⟨fun _ _ => rfl, fun _ => rfl, rfl, rfl⟩
theorem State.only_clearSrc : Only s (s.clearSrc src) [] [] := .of_eq rfl rfl rfl rfl

end Sources

/-! ### The fault collector's outputs (R384, R385) -/

section Show

variable (s : State)

@[simp] theorem State.pwr_fcuShow : s.fcuShow.pwr = s.pwr := by
  simp only [State.fcuShow]
  split <;> rfl
@[simp] theorem State.cond_fcuShow : s.fcuShow.fcu.cond = s.fcu.cond := by
  simp only [State.fcuShow]
  split <;> rfl
theorem State.only_fcuShow : Only s s.fcuShow [FCU_STAT] [] := by
  have hfields (t : State) (n : Nat) (b b1 b2 : Bool) : Only t ((((t.setFld FCU_STAT_PENDING n).setFlag FCU_STAT_ALIVESTOP b).setFlag
      FCU_STAT_FAULTN b1).setFlag FCU_STAT_WINDOW b2) [FCU_STAT] [] :=
    ((((t.only_setFld _ n).trans (State.only_setFlag _ _ b)).trans (State.only_setFlag _ _ b1)).trans (State.only_setFlag _ _ b2)).mono
      (by decide)
  simp only [State.fcuShow]
  split
  · exact hfields s _ _ _ _
  · exact Only.trans (.of_eq rfl rfl rfl rfl) (hfields (s.setFcu _) _ _ _ _)

/-- ALIVE stops where the collector is not armed or one of R385's causes holds. -/
theorem State.aliveStop_shown : s.fcuShow.flag FCU_STAT_ALIVESTOP = (!s.flag FCU_CTRL_ARMED || s.aliveStop) := by
  simp only [State.fcuShow]
  rw [State.flag_setFlag_apart _ _ FCU_STAT_WINDOW _ (by decide) (by decide) (by decide),
    State.flag_setFlag_apart _ _ FCU_STAT_FAULTN _ (by decide) (by decide) (by decide),
    State.flag_setFlag_same _ FCU_STAT_ALIVESTOP _ rfl (by decide)]
/-- FAULTN is low where ALIVE stops. -/
theorem State.faultN_shown (h : s.aliveStop = true) : s.fcuShow.flag FCU_STAT_FAULTN = true := by
  simp only [State.fcuShow]
  rw [State.flag_setFlag_apart _ _ FCU_STAT_WINDOW _ (by decide) (by decide) (by decide),
    State.flag_setFlag_same _ FCU_STAT_FAULTN _ rfl (by decide)]
  simp [h]
theorem State.flag_fcuShow (f : Fld) (h : f.addr ≠ FCU_STAT ∨ 28 < f.lo) : s.fcuShow.flag f = s.flag f := by
  simp only [State.fcuShow]
  rw [State.flag_setFlag_apart _ _ FCU_STAT_WINDOW _ (by decide) (by decide) (h.imp id (fun h => .inr (Nat.lt_trans (by decide) h))),
    State.flag_setFlag_apart _ _ FCU_STAT_FAULTN _ (by decide) (by decide) (h.imp id (fun h => .inr (Nat.lt_trans (by decide) h))),
    State.flag_setFlag_apart _ _ FCU_STAT_ALIVESTOP _ (by decide) (by decide) (h.imp id .inr),
    State.flag, State.fld_setFld_apart _ _ FCU_STAT_PENDING _ (by decide) (by decide) (h.imp id (fun h => .inr (Nat.lt_trans (by decide) h)))]
  split <;> rfl
theorem State.aliveStop_fcuShow : s.fcuShow.aliveStop = s.aliveStop := by
  have hrec (f : Fld) (h : f.addr ≠ FCU_STAT) : s.fcuShow.fld f = s.fld f := by
    rw [State.fld, (s.only_fcuShow).1 f.addr (by simpa using h), State.fld]
  have hpending : s.fcuShow.pendingRecs = s.pendingRecs :=
    List.filter_congr (fun r _ => s.flag_fcuShow (FCU_REC_W2_PENDING r) (.inl (by simp only [FCU_REC_W2_PENDING, FCU_REC_W2, FCU_STAT]; omega)))
  have hclass (r : Nat) : s.fcuShow.fld (FCU_REC_W0_CLASS r) = s.fld (FCU_REC_W0_CLASS r) :=
    hrec _ (by simp only [FCU_REC_W0_CLASS, FCU_REC_W0, FCU_STAT]; omega)
  simp [State.aliveStop, hpending, hclass, s.flag_fcuShow FCU_STAT_SELF (.inr (by decide))]

end Show

/-! ### REFCLK and the PLLs (R18, R385) -/

section Clocks

variable (s : State)

theorem effect_refclkLoss : Effect .refclkLoss s [SYS_CLKSTAT, FCU_STAT]
    (if storeGet (fun _ => false) s.fcu.cond 0 then [] else [(0, 0, false)]) (fun u => u.flag SYS_CLKSTAT_REFLOSS = true ∧
      u.flag FCU_STAT_ALIVESTOP = true ∧ u.flag FCU_STAT_FAULTN = true ∧ u.pwr.refOff = true ∧ storeGet (fun _ => false) u.fcu.cond 0 = true) := by
  let off : State := { s with pwr := { s.pwr with refOff := true } }
  let lost : State := (off.setFlag SYS_CLKSTAT_REFLOSS true).assertSrc 0
  have hstop : lost.aliveStop = true := by simp [State.aliveStop, lost, off]
  have hloss : lost.flag SYS_CLKSTAT_REFLOSS = true := by
    simp only [lost, State.flag_assertSrc]
    exact off.flag_setFlag_same SYS_CLKSTAT_REFLOSS true rfl (by decide)
  refine ⟨lost.fcuShow, rfl, ?_, ?_, ?_, lost.faultN_shown hstop, ?_, ?_⟩
  · have hoff : Only s off [] [] := .of_eq rfl rfl rfl rfl
    exact ((hoff.trans (off.only_setFlag SYS_CLKSTAT_REFLOSS true)).trans (State.only_assertSrc _ 0)).quiet lost.only_fcuShow
  · rw [lost.flag_fcuShow _ (.inl (by decide)), hloss]
  · rw [lost.aliveStop_shown, hstop, Bool.or_true]
  · simp [lost, off]
  · simp [lost]

theorem effect_refclkRestore : Effect .refclkRestore s [FCU_STAT] [] (fun u => u.pwr.refOff = false ∧
    storeGet (fun _ => false) u.fcu.cond 0 = false ∧ u.flag FCU_STAT_ALIVESTOP = (!s.flag FCU_CTRL_ARMED || s.refBack.aliveStop)) := by
  let back : State := { s with pwr := { s.pwr with refOff := false } }.clearSrc 0
  refine ⟨back.fcuShow, rfl, .trans (.of_eq rfl rfl rfl rfl) back.only_fcuShow, ?_, ?_, ?_⟩
  · simp [back]
  · simp [back]
  · rw [back.aliveStop_shown, State.refBack, back.aliveStop_fcuShow]
    rfl

theorem pllLock_spec : ∀ k : Fin 6, (pllLock k).addr = SYS_CLKSTAT ∧ (pllLock k).lo = (pllLock k).hi ∧ (pllLock k).hi < 6 := by decide
theorem pllSticky_spec : ∀ k : Fin 6, ∀ f ∈ pllSticky k, f.addr = SYS_CLKSTAT ∧ f.lo = f.hi ∧ 6 < f.lo ∧ f.hi < 32 := by decide

theorem effect_pllLossOfLock (k : Fin 6) : Effect (.pllLossOfLock k) s [SYS_CLKSTAT]
    (if storeGet (fun _ => false) s.fcu.cond (1 + k) then [] else [(1 + k.val, 0, false)]) (fun u => u.flag (pllLock k) = false ∧
      (∀ f, pllSticky k = some f → u.flag f = true) ∧ storeGet (fun _ => false) u.fcu.cond (1 + k) = true) := by
  obtain ⟨haddr, hbit, hlow⟩ := pllLock_spec k
  have hunlocked : (s.setFlag (pllLock k) false).flag (pllLock k) = false := s.flag_setFlag_same _ false hbit (by omega)
  have hlock : Only s (s.setFlag (pllLock k) false) [SYS_CLKSTAT] [] := haddr ▸ s.only_setFlag (pllLock k) false
  cases hk : pllSticky k with
  | none =>
    have hexec : Machine.exec (.pllLossOfLock k) s = .next ((s.setFlag (pllLock k) false).assertSrc (1 + k)).settle := by
      show done (s.pllLost k) = _
      simp [State.pllLost, hk, pllSrc, done, ok]
    refine ⟨_, hexec, ?_, ?_, ?_, ?_⟩
    · exact .trans hlock (State.only_assertSrc _ _)
    · rw [State.flag_assertSrc, hunlocked]
    · exact fun f hf => absurd hf (by simp)
    · simp
  | some f =>
    obtain ⟨hfaddr, hfbit, hfrom, hto⟩ := pllSticky_spec k f hk
    have hsticky (t : State) : Only t (t.setFlag f true) [SYS_CLKSTAT] [] := hfaddr ▸ t.only_setFlag f true
    have hexec : Machine.exec (.pllLossOfLock k) s =
        .next (((s.setFlag (pllLock k) false).setFlag f true).assertSrc (1 + k)).settle := by
      show done (s.pllLost k) = _
      simp [State.pllLost, hk, pllSrc, done, ok]
    refine ⟨_, hexec, ?_, ?_, ?_, ?_⟩
    · exact ((hlock.trans (hsticky _)).trans (State.only_assertSrc _ _)).mono (by simp)
    · rw [State.flag_assertSrc, State.flag_setFlag_apart _ _ f _ hto (by omega) (.inr (by omega)), hunlocked]
    · intro g hg
      obtain rfl := Option.some.inj hg
      rw [State.flag_assertSrc, State.flag_setFlag_same _ f true hfbit hto]
    · simp

theorem effect_pllRelock (k : Fin 6) : Effect (.pllRelock k) s [SYS_CLKSTAT] []
    (fun u => u.flag (pllLock k) = true ∧ storeGet (fun _ => false) u.fcu.cond (1 + k) = false) := by
  obtain ⟨haddr, hbit, hlow⟩ := pllLock_spec k
  refine ⟨(s.setFlag (pllLock k) true).clearSrc (1 + k), rfl, ?_, ?_, ?_⟩
  · exact .trans (haddr ▸ s.only_setFlag (pllLock k) true) (State.only_clearSrc _ _)
  · exact s.flag_setFlag_same _ true hbit (by omega)
  · simp

end Clocks

/-! ### The rails and the temperature (R380, R399) -/

section Rails

variable (r : Fin 10) (s : State)

/-- PIN_IOSTAT after a digital rail's bit takes a level. -/
theorem getLsbD_railBit (w : Word) (hr : r.val < 8) (b : Bool) : (setBits w r r (bit b)).getLsbD r = b ∧
    ∀ j : Fin 32, j.val ≠ r.val → (setBits w r r (bit b)).getLsbD j = w.getLsbD j := by
  have hget (j : Nat) := getLsbD_setBits w r r (bit b) j (by omega) le_rfl
  refine ⟨?_, fun j hj => ?_⟩
  · rw [hget, if_pos ⟨le_rfl, le_rfl⟩]
    cases b <;> simp [bit]
  · rw [hget, if_neg (by omega)]

theorem effect_supplyOutOfRange_digital (hr : r.val < 8) : Effect (.supplyOutOfRange r) s [PIN_IOSTAT] []
    (fun u => (u.reg PIN_IOSTAT).getLsbD r = false ∧
      ∀ j : Fin 32, j.val ≠ r.val → (u.reg PIN_IOSTAT).getLsbD j = (s.reg PIN_IOSTAT).getLsbD j) :=
  effect_of_eq (if_pos hr) (s.only_setReg PIN_IOSTAT _) (by simpa using getLsbD_railBit r (s.reg PIN_IOSTAT) hr false) rfl

theorem effect_supplyOutOfRange_core (hr : 8 ≤ r.val) : Effect (.supplyOutOfRange r) s []
    (if storeGet (fun _ => false) s.fcu.cond 9 then [] else [(9, 0, false)])
    (fun u => storeGet (fun _ => false) u.fcu.cond 9 = true ∧ u.pwr.rails = s.pwr.rails ||| 2 ^ (r.val - 8)) := by
  let low : State := { s with pwr := { s.pwr with rails := s.pwr.rails ||| 2 ^ (r.val - 8) } }
  have hne : s.pwr.rails ||| 2 ^ (r.val - 8) ≠ 0 := by simp
  have hrail : s.rail r false = low.assertSrc 9 := by simp [State.rail, low, show ¬ r.val < 8 by omega]
  have hlow : Only s low [] [] := .of_eq rfl rfl rfl rfl
  exact effect_of_eq hrail (hlow.trans (low.only_assertSrc 9)) ⟨by simp, by simp [low]⟩ rfl

/-- The supply of Saffron's channels back ends the state of its loss, and shows in no register. -/
theorem State.only_safSupplyBack : Only s s.safSupplyBack [] [] := by
  unfold State.safSupplyBack
  split <;> exact .of_eq rfl rfl rfl rfl

theorem effect_supplyInRange_digital (hr : r.val < 8) : Effect (.supplyInRange r) s [PIN_IOSTAT] []
    (fun u => (u.reg PIN_IOSTAT).getLsbD r = true ∧
      ∀ j : Fin 32, j.val ≠ r.val → (u.reg PIN_IOSTAT).getLsbD j = (s.reg PIN_IOSTAT).getLsbD j) := by
  let t := s.setReg PIN_IOSTAT (setBits (s.reg PIN_IOSTAT) r r (bit true))
  have hrail : s.rail r true = t := if_pos hr
  have honly : Only t (s.supplyBack r) [] [] := by
    simp only [State.supplyBack, hrail]
    split
    · exact t.only_safSupplyBack
    · exact .of_eq rfl rfl rfl rfl
  have hshown : (s.supplyBack r).reg PIN_IOSTAT = setBits (s.reg PIN_IOSTAT) r r (bit true) :=
    (honly.1 _ List.not_mem_nil).trans (s.reg_setReg_same PIN_IOSTAT _)
  exact ⟨_, rfl, (s.only_setReg PIN_IOSTAT _).trans honly, by simpa [hshown] using getLsbD_railBit r (s.reg PIN_IOSTAT) hr true⟩

/-- A core rail back leaves the other core rail's bit. -/
theorem State.supplyBack_core (hr : 8 ≤ r.val) : s.supplyBack r =
    let t : State := { s with pwr := { s.pwr with rails := s.pwr.rails &&& (3 - 2 ^ (r.val - 8)) } }
    if s.pwr.rails &&& (3 - 2 ^ (r.val - 8)) = 0 then t.clearSrc 9 else t.assertSrc 9 := by
  simp [State.supplyBack, State.rail, show ¬ r.val < 8 by omega, show r.val ≠ 7 by omega]

theorem effect_supplyInRange_last (h : 8 ≤ r.val ∧ s.pwr.rails = 2 ^ (r.val - 8)) : Effect (.supplyInRange r) s [] []
    (fun u => storeGet (fun _ => false) u.fcu.cond 9 = false ∧ u.pwr.rails = 0) := by
  obtain ⟨hr, hrails⟩ := h
  have hnone : ∀ r : Fin 10, 8 ≤ r.val → 2 ^ (r.val - 8) &&& (3 - 2 ^ (r.val - 8)) = 0 := by decide
  let back : State := { s with pwr := { s.pwr with rails := 0 } }
  have hback : s.supplyBack r = back.clearSrc 9 := by simp [s.supplyBack_core r hr, hrails, hnone r hr, back]
  exact effect_of_eq hback (.of_eq rfl rfl rfl rfl) ⟨by simp, rfl⟩ rfl

theorem effect_supplyInRange_first (h : 8 ≤ r.val ∧ s.pwr.rails = 3 ∧ storeGet (fun _ => false) s.fcu.cond 9 = true) :
    Effect (.supplyInRange r) s [] []
    (fun u => storeGet (fun _ => false) u.fcu.cond 9 = true ∧ u.pwr.rails = 3 - 2 ^ (r.val - 8)) := by
  obtain ⟨hr, hrails, hcond⟩ := h
  have hother : ∀ r : Fin 10, 8 ≤ r.val → 3 &&& (3 - 2 ^ (r.val - 8)) = 3 - 2 ^ (r.val - 8) ∧ 3 - 2 ^ (r.val - 8) ≠ 0 := by decide
  obtain ⟨hand, hne⟩ := hother r hr
  let back : State := { s with pwr := { s.pwr with rails := 3 - 2 ^ (r.val - 8) } }
  have hback : s.supplyBack r = back := by
    rw [s.supplyBack_core r hr, hrails, hand, if_neg hne]
    exact if_pos hcond
  exact effect_of_eq hback (.of_eq rfl rfl rfl rfl) ⟨hcond, rfl⟩ rfl

end Rails

/-- A reading that crosses a limit asserts the limit's source; one that does not clears it. -/
theorem State.only_limit (s : State) (src : Nat) (p : Prop) [Decidable p] : Only s (if p then s.assertSrc src else s.clearSrc src) []
    (if p ∧ storeGet (fun _ => false) s.fcu.cond src = false then [(src, 0, false)] else []) := by
  by_cases hp : p
  · have honly := s.only_assertSrc src
    cases hcond : storeGet (fun _ => false) s.fcu.cond src <;> simpa [hp, hcond] using honly
  · simpa [hp] using s.only_clearSrc src
theorem State.cond_limit (s : State) (src k : Nat) (p : Prop) [Decidable p] :
    storeGet (fun _ => false) (if p then s.assertSrc src else s.clearSrc src).fcu.cond k =
      if k = src then decide p else storeGet (fun _ => false) s.fcu.cond k := by
  by_cases hp : p <;> by_cases hk : k = src <;> simp [hp, hk]

theorem effect_tempUpdate (t : BitVec 16) (s : State) : Effect (.tempUpdate t) s [SYS_TEMP]
    ((if gradeLimit - 50 < t.toInt ∧ storeGet (fun _ => false) s.fcu.cond 11 = false then [(11, 0, false)] else []) ++
      (if gradeLimit < t.toInt ∧ storeGet (fun _ => false) s.fcu.cond 12 = false then [(12, 0, false)] else []))
    (fun u => u.fld SYS_TEMP_TEMP = t.toNat ∧ u.flag SYS_TEMP_VALID = true ∧
      storeGet (fun _ => false) u.fcu.cond 11 = decide (gradeLimit - 50 < t.toInt) ∧
      storeGet (fun _ => false) u.fcu.cond 12 = decide (gradeLimit < t.toInt)) := by
  let read := (s.setFld SYS_TEMP_TEMP t.toNat).setFlag SYS_TEMP_VALID true
  let warned := if gradeLimit - 50 < t.toInt then read.assertSrc 11 else read.clearSrc 11
  let limited := if gradeLimit < t.toInt then warned.assertSrc 12 else warned.clearSrc 12
  have hread : Only s read [SYS_TEMP] [] := ((s.only_setFld SYS_TEMP_TEMP _).trans (State.only_setFlag _ SYS_TEMP_VALID _)).mono (by decide)
  have hwarned : Only read warned [] _ := read.only_limit 11 (gradeLimit - 50 < t.toInt)
  have hlimited : Only warned limited [] _ := warned.only_limit 12 (gradeLimit < t.toInt)
  have hcond : storeGet (fun _ => false) warned.fcu.cond 12 = storeGet (fun _ => false) s.fcu.cond 12 := read.cond_limit 11 12 _
  have hreg : limited.reg SYS_TEMP = read.reg SYS_TEMP :=
    (hlimited.1 _ List.not_mem_nil).trans (hwarned.1 _ List.not_mem_nil)
  refine ⟨limited, rfl, ?_, ?_, ?_, ?_, ?_⟩
  · rw [hcond] at hlimited
    exact (hread.trans hwarned).trans hlimited
  · have htemp : read.fld SYS_TEMP_TEMP = t.toNat := by
      simp only [read, State.setFlag]
      rw [State.fld_setFld_apart _ _ SYS_TEMP_VALID _ (by decide) (by decide) (by decide),
        s.fld_setFld_same SYS_TEMP_TEMP _ (by decide) (by decide)]
      exact Nat.mod_eq_of_lt t.isLt
    rw [State.fld] at htemp ⊢
    exact hreg ▸ htemp
  · have hvalid : read.flag SYS_TEMP_VALID = true := State.flag_setFlag_same _ SYS_TEMP_VALID true rfl (by decide)
    rw [State.flag, State.fld] at hvalid ⊢
    exact hreg ▸ hvalid
  · exact (warned.cond_limit 12 11 _).trans (read.cond_limit 11 11 _)
  · exact warned.cond_limit 12 12 _

/-! ### The end of a domain's power-up (R307) -/

theorem mem_storeErase {α : Type} {l : List (Nat × α)} {k : Nat} {e : Nat × α} (h : e ∈ storeErase l k) : e ∈ l := by
  induction l with
  | nil => exact h
  | cons x t ih =>
    simp only [storeErase] at h
    split at h
    · exact List.mem_cons_of_mem _ (ih h)
    · exact (List.mem_cons.mp h).elim (fun hx => hx ▸ List.mem_cons_self) (fun ht => List.mem_cons_of_mem _ (ih ht))

theorem mem_storeSet {α : Type} [DecidableEq α] {d : Nat → α} {l : List (Nat × α)} {k : Nat} {v : α} {e : Nat × α}
    (h : e ∈ storeSet d l k v) : e.1 = k ∨ e ∈ l := by
  have hcell (h : e ∈ storeCell d k v) : e.1 = k := by
    simp only [storeCell] at h
    split at h
    · cases h
    · rw [List.mem_singleton.mp h]
  induction l with
  | nil => exact .inl (hcell h)
  | cons x t ih =>
    simp only [storeSet] at h
    split at h
    · exact (List.mem_cons.mp h).elim (fun hx => .inr (hx ▸ List.mem_cons_self)) (fun ht => (ih ht).imp_right (List.mem_cons_of_mem _))
    · exact (List.mem_append.mp h).elim (fun hx => .inl (hcell hx)) (fun ht => .inr (mem_storeErase ht))

theorem State.Spares.domOn {s t : State} (h : s.Spares t) (d : Nat) : t.domOn d = s.domOn d := by
  rw [State.domOn, State.domOn, h.domains]

section Domains

variable (s : State) (d : Nat)

theorem State.domOn_setDom2 (hd : d < 12) : (s.setDom2 d 1).domOn d = true := by
  have hbits : bits (setBits (s.reg PWR_DOMSTAT) (2 * d + 1) (2 * d) 1) (2 * d + 1) (2 * d) = 1 := by
    rw [bits_setBits_same _ _ _ _ (by omega) (by omega), show 2 * d + 1 + 1 - 2 * d = 2 by omega]
    rfl
  simpa [State.domOn, State.setDom2] using hbits

/-- A domain is on at the end of its power-up, whatever its units do then. -/
theorem State.domOn_domainUp (hd : d < 12) : (s.domainUp d).domOn d = true := by
  have hon := (s.domReset d).domOn_setDom2 d hd
  unfold State.domainUp
  generalize (s.domReset d).setDom2 d 1 = t at hon ⊢
  dsimp only
  split
  · have hrings : t.Keeps ((List.range 4).foldl (fun s i => if s.domOn 11 then s.ringTake (12 + (4 * (d - 3) + i)) 32 else s) t) :=
      State.keeps_foldl (fun u i => .ite (State.keeps_ringTake u _ _) (.refl u)) t (List.range 4)
    rw [hrings.spares.domOn, hon]
  · split
    · rw [(State.keeps_phyClocks t).spares.domOn, hon]
    · exact hon

/-- A power domain's state stands in no register but PWR_DOMSTAT. -/
theorem State.not_mem_setDom2 {lo hi v : Nat} (hlo : PWR_DOMSTAT < lo) {e : Nat × Word}
    (he : e ∈ ((s.resetRange lo hi).setDom2 d v).regs) : ¬ (lo ≤ e.1 ∧ e.1 < hi) := by
  rcases mem_storeSet he with hstat | hkept
  · omega
  · have hbounds := (List.mem_filter.mp hkept).2
    simp only [Bool.or_eq_true, decide_eq_true_eq] at hbounds
    omega

theorem State.domainUp_loops : ∀ e ∈ (s.domainUp 9).regs, ¬ (0x41200000 ≤ e.1 ∧ e.1 < 0x41400000) :=
  fun _ he => State.not_mem_setDom2 _ 9 (by decide) he
theorem State.domainUp_cells : ∀ e ∈ (s.domainUp 10).regs, ¬ (0x41400000 ≤ e.1 ∧ e.1 < 0x41600000) :=
  fun _ he => State.not_mem_setDom2 _ 10 (by decide) he

end Domains

theorem leaves_domainSwitchComplete (d : Fin 12) (s : State) (h : s.domSt d = 3) : Leaves (.domainSwitchComplete d) s (fun u =>
    u.domOn d = true ∧ (d = 9 → ∀ e ∈ u.regs, ¬ (0x41200000 ≤ e.1 ∧ e.1 < 0x41400000)) ∧
    (d = 10 → ∀ e ∈ u.regs, ¬ (0x41400000 ≤ e.1 ∧ e.1 < 0x41600000))) := by
  have hready : s.domainReady d = s.domainUp d := if_pos h
  refine ⟨s.domainReady d, rfl, ?_⟩
  rw [hready]
  refine ⟨s.domOn_domainUp d d.isLt, ?_, ?_⟩
  · rintro rfl
    exact s.domainUp_loops
  · rintro rfl
    exact s.domainUp_cells

/-! ### The balls outside normal operation (R384) -/

section Balls

variable (s : State) (n t : Nat)

theorem State.ball_unsupplied (b : Ball) (hmode : s.mode ≠ modeTEST) (h : s.unsupplied b = true) : s.ball t b = some .open_ := by
  simp [State.ball, hmode, h]

/-- The cells drive no ball in BOOT and in HOLDUP. -/
theorem State.nutBall_off (c i : Nat) (h : s.mode = modeBOOT ∨ s.mode = modeHOLDUP) : s.nutBall c i t = none := by
  rcases h with h | h <;> simp [State.nutBall, h]

variable (hsup : s.reg PIN_IOSTAT = 0xFF#32)
include hsup

/-- With every digital rail in range only FAULTN's ball, of a core rail, may lack its supply. -/
theorem State.unsupplied_of_rails (b : Ball) (hb : b ≠ .faultN) : s.unsupplied b = false := by
  cases b with
  | faultN => exact absurd rfl hb
  | pair p => by_cases hp : p < 8 <;> simp [State.unsupplied, hsup, hp]
  | _ => simp [State.unsupplied, hsup]

end Balls

/-- Settles O8. -/
theorem clocksRailsAndTemperature : Obligations.ClocksRailsAndTemperature := by
  unfold Obligations.ClocksRailsAndTemperature
  refine ⟨effect_refclkLoss, effect_refclkRestore, fun k s => effect_pllLossOfLock s k, fun k s => effect_pllRelock s k,
    effect_supplyOutOfRange_digital, effect_supplyOutOfRange_core, effect_supplyInRange_digital, effect_supplyInRange_last,
    effect_supplyInRange_first, effect_tempUpdate, leaves_domainSwitchComplete, fun t b s => s.ball_unsupplied t b, ?_, ?_, ?_,
    fun _ _ => rfl, fun _ _ => rfl, fun _ _ => rfl⟩
  · intro n t s hmode hsup
    simp [State.ball, State.unsupplied_of_rails s hsup, State.edgeBall, hmode, padOf]
  · intro n t s hmode hsup hcan hmdio hphy
    have hnut := s.nutBall_off t (n / 2) (n % 2) (.inl hmode)
    simp [State.ball, State.unsupplied_of_rails s hsup, State.edgeBall, State.canTxEn, State.portConf, hmode, hnut, hcan, hmdio, hphy, padOf]
  · intro n t s hmode hsup hcan
    have hnut := s.nutBall_off t (n / 2) (n % 2) (.inr hmode)
    simp [State.ball, State.unsupplied_of_rails s hsup, State.edgeBall, State.canTxEn, State.canDrives, hmode, hnut, hcan, padOf]

end Sys2Proof.Machine

/-! Proofs about how the mode transitions end (R26 to R28). -/

namespace Sys2Proof.Machine

open Sys2Proof

/-! ### The mode word -/

/-- The mode is `m`, entered from `prev` for `cause`, with no transition in progress. -/
def State.Entered (s : State) (m prev cause : Nat) : Prop :=
  s.mode = m ∧ s.fld SYS_MODE_PREV = prev ∧ s.fld SYS_MODE_CAUSE = cause ∧ s.busy = false ∧ s.trans = none

theorem State.Spares.fld_mode {s t : State} (h : s.Spares t) (f : Fld) (hf : f.addr = SYS_MODE) : t.fld f = s.fld f := by
  rw [State.fld, State.fld, hf, h.word]
theorem State.Spares.mode {s t : State} (h : s.Spares t) : t.mode = s.mode := h.fld_mode SYS_MODE_CUR rfl
theorem State.Spares.busy {s t : State} (h : s.Spares t) : t.busy = s.busy := by
  rw [State.busy, State.busy, State.flag, State.flag, h.fld_mode SYS_MODE_BUSY rfl]
theorem State.Spares.entered {s t : State} (h : s.Spares t) {m prev cause : Nat} (hs : s.Entered m prev cause) : t.Entered m prev cause := by
  obtain ⟨hmode, hprev, hcause, hbusy, htrans⟩ := hs
  exact ⟨h.mode.trans hmode, (h.fld_mode SYS_MODE_PREV rfl).trans hprev, (h.fld_mode SYS_MODE_CAUSE rfl).trans hcause,
    h.busy.trans hbusy, h.transition.trans htrans⟩

theorem State.mode_lt (s : State) : s.mode < 16 := bits_lt _ _ _

/-- SYS_MODE takes the mode and its cause and keeps the mode before (R26). -/
theorem State.setMode_entered (s : State) {m cause : Nat} (hm : m < 16) (hcause : cause < 256) : (s.setMode m cause).Entered m s.mode cause := by
  let w := setBits (setBits (setBits (setBits (s.reg SYS_MODE) 7 4 s.mode) 3 0 m) 15 8 cause) 24 24 0
  have hw : (s.setMode m cause).reg SYS_MODE = w := by
    show (State.setFlag _ SYS_MODE_BUSY false).reg SYS_MODE = w
    simp [State.setFlag, State.reg_setFld, SYS_MODE_BUSY, SYS_MODE_CAUSE, SYS_MODE_CUR, SYS_MODE_PREV, bit, w]
  have hfld (f : Fld) (hf : f.addr = SYS_MODE) : (s.setMode m cause).fld f = bits w f.hi f.lo := by rw [State.fld, hf, hw]
  have hprev := s.mode_lt
  refine ⟨(hfld SYS_MODE_CUR rfl).trans ?_, (hfld SYS_MODE_PREV rfl).trans ?_, (hfld SYS_MODE_CAUSE rfl).trans ?_, ?_, rfl⟩
  · show bits w 3 0 = m
    rw [bits_setBits_ne _ _ _ _ _ _ (by decide) (by decide) (by decide), bits_setBits_ne _ _ _ _ _ _ (by decide) (by decide) (by decide),
      bits_setBits_same _ _ _ _ (by decide) (by decide)]
    exact Nat.mod_eq_of_lt hm
  · show bits w 7 4 = s.mode
    rw [bits_setBits_ne _ _ _ _ _ _ (by decide) (by decide) (by decide), bits_setBits_ne _ _ _ _ _ _ (by decide) (by decide) (by decide),
      bits_setBits_ne _ _ _ _ _ _ (by decide) (by decide) (by decide), bits_setBits_same _ _ _ _ (by decide) (by decide)]
    exact Nat.mod_eq_of_lt hprev
  · show bits w 15 8 = cause
    rw [bits_setBits_ne _ _ _ _ _ _ (by decide) (by decide) (by decide), bits_setBits_same _ _ _ _ (by decide) (by decide)]
    exact Nat.mod_eq_of_lt hcause
  · rw [State.busy, State.flag, hfld SYS_MODE_BUSY rfl]
    show (bits w 24 24 == 1) = false
    rw [bits_setBits_same _ _ _ _ (by decide) (by decide)]
    rfl

/-! ### What firmware asserts again (R28) -/

theorem State.spares_setBlock (s : State) (a : Nat) (l : List Byte) : s.Spares (s.setBlock a l) := ⟨rfl, rfl, rfl, rfl, rfl⟩

section Quiet

variable {s : State} (hinsts : s.insts = [])
include hinsts

theorem State.inst_none {i : Nat} (hi : i < 4) : s.inst i = none := by
  have hnone := List.filterMap_eq_nil_iff.mp hinsts i (List.mem_range.mpr hi)
  exact Option.map_eq_none_iff.mp hnone
theorem State.acyclic_none : s.acyclic = s := by
  have hnone (i : Nat) (hi : i < 4) := State.inst_none hinsts hi
  simp [State.acyclic, List.range_succ, hnone]

/-- With no protocol instances and no setting kept, firmware asserts its tables alone. -/
theorem State.spares_fwAssert (hcfg : s.fw.cfg = []) : s.Spares s.fwAssert := by
  have htables : s.Spares s.fwTables := by
    refine State.spares_foldl (fun t e => ?_) s s.fw.tabs
    exact .ite (.refl t) (t.spares_setBlock e.1 e.2)
  unfold State.fwAssert
  split
  · exact .refl s
  · simpa [hinsts, hcfg] using htables
theorem State.modeBefore_none (n : Nat) : s.modeBefore n = s := by
  unfold State.modeBefore
  rw [State.acyclic_none hinsts, ite_self]

end Quiet

/-! ### The units at the end of a transition -/

/-- What the units do as a mode is entered keeps the mode; transition 15 brings a stored line speed back. -/
theorem State.keeps_modeEntered (s : State) (n m from_ : Nat) (hline : n = 15 → s.line.stored = none) :
    s.Keeps (s.modeEntered n m from_) := by
  have hsaf : s.Keeps (if m = modeOPERATIONAL then s.safOperational else if from_ = modeOPERATIONAL then s.safLeaveOp else s) :=
    .ite (State.keeps_safOperational s) (.ite (State.keeps_safLeaveOp s) (.refl s))
  unfold State.modeEntered
  generalize (if m = modeOPERATIONAL then s.safOperational else _) = t at hsaf ⊢
  dsimp only
  have hloop : t.Keeps (if m = modeSAFESTOP ∨ m = modeCOMMISSION then t.loopStop else t) := .ite (State.keeps_loopStop t) (.refl t)
  generalize (if m = modeSAFESTOP ∨ m = modeCOMMISSION then t.loopStop else t) = t1 at hloop ⊢
  have hspeed : t1.Keeps (if t1.line.running ∧ t1.lineStopped then t1.lineSpeed 0 else t1) := .ite (State.keeps_lineSpeed t1 0) (.refl t1)
  generalize (if t1.line.running ∧ t1.lineStopped then t1.lineSpeed 0 else t1) = t2 at hspeed ⊢
  have hcomm : t2.Keeps (if n = 6 then t2.safCommission else t2) := .ite (State.keeps_safCommission t2) (.refl t2)
  generalize (if n = 6 then t2.safCommission else t2) = t3 at hcomm ⊢
  have hkeeps : s.Keeps t3 := ((hsaf.trans hloop).trans hspeed).trans hcomm
  split
  · next hn =>
    have hstored : t3.line.stored = none := by rw [hkeeps.spares.line, hline hn]
    rw [hstored]
    exact hkeeps
  · exact hkeeps

/-- With no cause kept waiting the end of a transition asks for no other. -/
theorem State.modeLate_none {s : State} (h : s.pwr.late = []) : s.modeLate = { s with pwr := { s.pwr with late := [] } } := by
  simp [State.modeLate, h]
theorem State.keeps_modeLate {s : State} (h : s.pwr.late = []) : s.Keeps s.modeLate := by
  rw [State.modeLate_none h]
  exact ⟨rfl, rfl, h.symm, rfl, rfl, rfl⟩

/-- A transition ends with its target entered, where nothing is to be asserted again and no cause waits. -/
theorem State.modeDone_entered {s : State} {t : Trans} (ht : s.trans = some t) (hnum : t.num ≠ 7) (htarget : t.target < 12)
    (hcause : t.cause < 256) (hinsts : s.insts = []) (hcfg : s.fw.cfg = []) (hlate : s.pwr.late = [])
    (hline : t.num = 15 → s.line.stored = none) : s.modeDone.Entered t.target s.mode t.cause := by
  have hassert := State.spares_fwAssert hinsts hcfg
  have hset := s.fwAssert.setMode_entered (m := t.target) (Nat.lt_trans htarget (by decide)) hcause
  rw [hassert.mode] at hset
  have hsline : (s.fwAssert.setMode t.target t.cause).line = s.line := hassert.line
  have hslate : (s.fwAssert.setMode t.target t.cause).pwr.late = [] := hassert.late.trans hlate
  have hentered := State.keeps_modeEntered _ t.num t.target s.mode (fun h => (congrArg LineSt.stored hsline).trans (hline h))
  simp only [State.modeDone, ht, hnum, if_false, State.modeBefore_none hinsts]
  generalize (s.fwAssert.setMode t.target t.cause).modeEntered t.num t.target s.mode = u at hentered ⊢
  have hend := hentered.trans (u.keeps_fwNotice 0x01F0 (leBytes 4 (u.regN SYS_MODE)))
  exact (hend.trans (State.keeps_modeLate (hend.spares.late.trans hslate))).spares.entered hset

/-! ### The clock status under what touches other registers -/

section Clkstat

variable (s : State)

theorem State.clkstat_setReg {a : Nat} (v : Word) (h : 0x40200000 ≤ a) : (s.setReg a v).reg SYS_CLKSTAT = s.reg SYS_CLKSTAT :=
  s.reg_setReg_ne v (by simp only [SYS_CLKSTAT]; omega)
@[simp] theorem State.clkstat_setRegN (a n : Nat) (h : 0x40200000 ≤ a) : (s.setRegN a n).reg SYS_CLKSTAT = s.reg SYS_CLKSTAT :=
  s.clkstat_setReg _ h
@[simp] theorem State.clkstat_count (a n : Nat) (h : 0x40200000 ≤ a) : (s.count a n).reg SYS_CLKSTAT = s.reg SYS_CLKSTAT :=
  s.clkstat_setReg _ h
@[simp] theorem State.clkstat_setFld (f : Fld) (n : Nat) (h : 0x40200000 ≤ f.addr) : (s.setFld f n).reg SYS_CLKSTAT = s.reg SYS_CLKSTAT :=
  s.clkstat_setReg _ h
@[simp] theorem State.clkstat_setFlag (f : Fld) (b : Bool) (h : 0x40200000 ≤ f.addr) :
    (s.setFlag f b).reg SYS_CLKSTAT = s.reg SYS_CLKSTAT := s.clkstat_setReg _ h
@[simp] theorem State.clkstat_setBitAt (a b : Nat) (v : Bool) (h : 0x40200000 ≤ a) :
    (s.setBitAt a b v).reg SYS_CLKSTAT = s.reg SYS_CLKSTAT := s.clkstat_setReg _ (Nat.le_add_right_of_le h)
theorem State.clkstat_foldl {β : Type} {op : State → β → State} (h : ∀ t x, (op t x).reg SYS_CLKSTAT = t.reg SYS_CLKSTAT) (l : List β) :
    (l.foldl op s).reg SYS_CLKSTAT = s.reg SYS_CLKSTAT := by
  induction l generalizing s with
  | nil => rfl
  | cons x l ih => exact (ih (op s x)).trans (h s x)

@[simp] theorem State.clkstat_wake (i : Nat) : (s.wake i).reg SYS_CLKSTAT = s.reg SYS_CLKSTAT := by
  unfold State.wake
  split
  · exact s.reg_setReg_ne _ (by decide)
  · rfl
@[simp] theorem State.clkstat_showHead (c : Nat) (m : List Byte) : (s.showHead c m).reg SYS_CLKSTAT = s.reg SYS_CLKSTAT := by
  unfold State.showHead
  refine s.clkstat_foldl (fun t w => ?_) _
  simp
@[simp] theorem State.clkstat_setChan (c : Nat) (ms : List (List Byte)) : (s.setChan c ms).reg SYS_CLKSTAT = s.reg SYS_CLKSTAT := by
  unfold State.setChan
  dsimp only
  split <;> simp <;> rfl
@[simp] theorem State.clkstat_chanPush (c : Nat) (m : List Byte) : (s.chanPush c m).reg SYS_CLKSTAT = s.reg SYS_CLKSTAT := by
  have hpush : (((s.setChan c (s.chan c ++ [stampMsg c m])).count (MBX_CH_SENT c) 1).wake 0).reg SYS_CLKSTAT = s.reg SYS_CLKSTAT := by
    simp
  unfold State.chanPush
  dsimp only
  split <;> exact hpush
theorem State.clkstat_fwDrainN (k : Nat) : (s.fwDrainN k).reg SYS_CLKSTAT = s.reg SYS_CLKSTAT := by
  induction k generalizing s with
  | zero => rfl
  | succ k ih =>
    unfold State.fwDrainN
    split
    · rfl
    · split
      · rfl
      · rw [ih, State.clkstat_chanPush]
        rfl
@[simp] theorem State.clkstat_fwNotice (opcode : Nat) (payload : List Byte) :
    (s.fwNotice opcode payload).reg SYS_CLKSTAT = s.reg SYS_CLKSTAT := by
  unfold State.fwNotice
  split
  · rfl
  · exact State.clkstat_fwDrainN _ 64
@[simp] theorem State.clkstat_safShow : s.safShow.reg SYS_CLKSTAT = s.reg SYS_CLKSTAT := by
  unfold State.safShow
  dsimp only
  split
  · simp
    rfl
  · simp

end Clkstat

/-! ### The end of reset -/

/-- The core PLLs are locked and the fabric and Hamper domains on (R28). -/
def State.CoreUp (s : State) : Prop := s.domOn 7 = true ∧ s.domOn 11 = true ∧
  s.flag SYS_CLKSTAT_PLL0LK = true ∧ s.flag SYS_CLKSTAT_PLL1LK = true ∧ s.flag SYS_CLKSTAT_PLL2LK = true

theorem State.CoreUp.of_regs {s t : State} (h : s.CoreUp) (hdom : t.reg PWR_DOMSTAT = s.reg PWR_DOMSTAT)
    (hclk : t.reg SYS_CLKSTAT = s.reg SYS_CLKSTAT) : t.CoreUp := by
  simp only [State.CoreUp, State.domOn, State.flag, State.fld, SYS_CLKSTAT_PLL0LK, SYS_CLKSTAT_PLL1LK, SYS_CLKSTAT_PLL2LK, hdom, hclk]
  exact h
theorem State.CoreUp.of_keeps {s t : State} (h : s.CoreUp) (hkeeps : s.Keeps t) (hclk : t.reg SYS_CLKSTAT = s.reg SYS_CLKSTAT) : t.CoreUp :=
  h.of_regs hkeeps.spares.domains hclk

section Reset

variable (s : State)

theorem State.clocksUp_locks : s.clocksUp.flag SYS_CLKSTAT_PLL0LK = true ∧ s.clocksUp.flag SYS_CLKSTAT_PLL1LK = true ∧
    s.clocksUp.flag SYS_CLKSTAT_PLL2LK = true := by
  have happart (t : State) (f g : Fld) (h : f.hi < g.lo ∨ g.hi < f.lo) (hg : g.lo = g.hi) (hhi : g.hi < 32) :
      (t.setFlag g true).flag f = t.flag f := t.flag_setFlag_apart f g true hhi hg.le (.inr h)
  simp only [State.clocksUp]
  refine ⟨?_, ?_, ?_⟩
  · rw [happart _ _ SYS_CLKSTAT_PLLSALK (by decide) rfl (by decide), happart _ _ SYS_CLKSTAT_PLL2LK (by decide) rfl (by decide),
      happart _ _ SYS_CLKSTAT_PLL1LK (by decide) rfl (by decide), State.flag_setFlag_same _ SYS_CLKSTAT_PLL0LK true rfl (by decide)]
  · rw [happart _ _ SYS_CLKSTAT_PLLSALK (by decide) rfl (by decide), happart _ _ SYS_CLKSTAT_PLL2LK (by decide) rfl (by decide),
      State.flag_setFlag_same _ SYS_CLKSTAT_PLL1LK true rfl (by decide)]
  · rw [happart _ _ SYS_CLKSTAT_PLLSALK (by decide) rfl (by decide), State.flag_setFlag_same _ SYS_CLKSTAT_PLL2LK true rfl (by decide)]

theorem State.coreUp_switched : ((s.clocksUp.setDom2 7 1).setDom2 11 1).CoreUp := by
  have hfabric : ((s.clocksUp.setDom2 7 1).setDom2 11 1).domOn 7 = true := by
    have hbits : bits (setBits ((s.clocksUp.setDom2 7 1).reg PWR_DOMSTAT) 23 22 1) 15 14 = bits ((s.clocksUp.setDom2 7 1).reg PWR_DOMSTAT) 15 14 :=
      bits_setBits_ne _ _ _ _ _ _ (by decide) (by decide) (by decide)
    have hon := s.clocksUp.domOn_setDom2 7 (by decide)
    rw [State.domOn] at hon ⊢
    rw [State.setDom2, State.reg_setReg_same, hbits]
    exact hon
  have hclk : ((s.clocksUp.setDom2 7 1).setDom2 11 1).reg SYS_CLKSTAT = s.clocksUp.reg SYS_CLKSTAT :=
    (State.reg_setReg_ne _ _ (by decide)).trans (State.reg_setReg_ne _ _ (by decide))
  obtain ⟨h0, h1, h2⟩ := s.clocksUp_locks
  simp only [State.flag, State.fld] at h0 h1 h2
  refine ⟨hfabric, State.domOn_setDom2 _ 11 (by decide), ?_, ?_, ?_⟩ <;> simp only [State.flag, State.fld]
  · exact hclk ▸ h0
  · exact hclk ▸ h1
  · exact hclk ▸ h2

theorem State.CoreUp.setMode {s : State} (h : s.CoreUp) (m cause : Nat) : (s.setMode m cause).CoreUp := by
  have hreg (a : Nat) (ha : a ≠ SYS_MODE) : (s.setMode m cause).reg a = s.reg a := by
    show (State.setFlag _ SYS_MODE_BUSY false).reg a = s.reg a
    rw [State.reg_setFlag_ne _ _ _ ha, State.reg_setFld_ne _ _ _ ha, State.reg_setFld_ne _ _ _ ha, State.reg_setFld_ne _ _ _ ha]
  exact h.of_regs (hreg _ (by decide)) (hreg _ (by decide))

/-- Every bank group but one switched off is ready after a reset. -/
def State.groupsReady (s : State) : State := (List.range 12).foldl (fun s g => if s.sgOff g then s else s.setSg g true false) s

theorem State.keeps_groupsReady : s.Keeps s.groupsReady := by
  unfold State.groupsReady
  refine State.keeps_foldl (fun t g => ?_) s _
  exact .ite (.refl t) (State.keeps_setSg t g true false)
theorem State.clkstat_groupsReady : s.groupsReady.reg SYS_CLKSTAT = s.reg SYS_CLKSTAT := by
  unfold State.groupsReady
  refine s.clkstat_foldl (fun t g => ?_) _
  split
  · rfl
  · exact t.clkstat_setReg _ (by decide)

/-- The clocks, the domains and the bank groups as a reset leaves them. -/
def State.coreReady (s : State) : State := ((s.clocksUp.setDom2 7 1).setDom2 11 1).groupsReady

theorem State.coreUp_coreReady : s.coreReady.CoreUp := by
  have hup := s.coreUp_switched
  unfold State.coreReady
  generalize (s.clocksUp.setDom2 7 1).setDom2 11 1 = t at hup ⊢
  exact hup.of_keeps t.keeps_groupsReady t.clkstat_groupsReady
theorem State.late_coreReady : s.coreReady.pwr.late = s.pwr.late := by
  have hlate : ((s.clocksUp.setDom2 7 1).setDom2 11 1).pwr.late = s.pwr.late := rfl
  unfold State.coreReady
  generalize (s.clocksUp.setDom2 7 1).setDom2 11 1 = t at hlate ⊢
  exact t.keeps_groupsReady.spares.late.trans hlate

/-- The device is in BOOT for `cause` with the core up, and no cause waits. -/
def State.Booted (s : State) (cause : Nat) : Prop := (∃ prev, s.Entered modeBOOT prev cause) ∧ s.CoreUp ∧ s.pwr.late = []

theorem State.Booted.of_keeps {s t : State} {cause : Nat} (h : s.Booted cause) (hkeeps : s.Keeps t)
    (hclk : t.reg SYS_CLKSTAT = s.reg SYS_CLKSTAT) : t.Booted cause := by
  obtain ⟨⟨prev, hentered⟩, hup, hlate⟩ := h
  exact ⟨⟨prev, hkeeps.spares.entered hentered⟩, hup.of_keeps hkeeps hclk, hkeeps.spares.late.trans hlate⟩
theorem State.Booted.modeLate {s : State} {cause : Nat} (h : s.Booted cause) : s.modeLate.Booted cause := by
  obtain ⟨-, -, hlate⟩ := id h
  refine h.of_keeps (State.keeps_modeLate hlate) ?_
  rw [State.modeLate_none hlate]
  rfl

theorem State.CoreUp.booted {s : State} {cause : Nat} (h : s.CoreUp) (hlate : s.pwr.late = []) (hcause : cause < 256) :
    (s.setMode modeBOOT cause).Booted cause :=
  ⟨⟨s.mode, s.setMode_entered (by decide) hcause⟩, h.setMode modeBOOT cause, hlate⟩

/-- A full reset has left OFF with Saffron in its first state. -/
def State.safReady (s : State) : State :=
  ((s.setFld SYS_MODE_CUR modeOFF).setSaf { (s.setFld SYS_MODE_CUR modeOFF).saf with base := 1 }).safShow

theorem State.CoreUp.safReady {s : State} (h : s.CoreUp) : s.safReady.CoreUp := by
  have hoff : (s.setFld SYS_MODE_CUR modeOFF).CoreUp :=
    h.of_regs (s.reg_setFld_ne SYS_MODE_CUR modeOFF (by decide)) (s.reg_setFld_ne SYS_MODE_CUR modeOFF (by decide))
  have hsaf (x : SafSt) : ((s.setFld SYS_MODE_CUR modeOFF).setSaf x).CoreUp := hoff
  exact (hsaf _).of_keeps (State.keeps_safShow _) (State.clkstat_safShow _)
theorem State.late_safReady : s.safReady.pwr.late = s.pwr.late := (State.keeps_safShow _).spares.late

theorem State.resetDone_full (t : Trans) (hnum : t.num = 1) :
    s.resetDone t = (s.coreReady.safReady.setMode t.target t.cause).modeLate := by
  simp [State.resetDone, hnum, State.groupsReady, State.coreReady, State.safReady]
theorem State.resetDone_warm (t : Trans) (hnum : t.num = 21) :
    s.resetDone t = (s.coreReady.setMode t.target t.cause).modeNotice.modeLate := by
  simp [State.resetDone, hnum, State.groupsReady, State.coreReady]

/-- The end of reset enters BOOT with the core up. -/
theorem State.resetDone_booted (t : Trans) (hnum : t.num = 1 ∨ t.num = 21) (htarget : t.target = modeBOOT) (hcause : t.cause < 256)
    (hlate : s.pwr.late = []) : (s.resetDone t).Booted t.cause := by
  have hup := s.coreUp_coreReady
  have hready : s.coreReady.pwr.late = [] := s.late_coreReady.trans hlate
  rcases hnum with hnum | hnum
  · rw [s.resetDone_full t hnum, htarget]
    generalize s.coreReady = r at hup hready ⊢
    exact (hup.safReady.booted (r.late_safReady.trans hready) hcause).modeLate
  · rw [s.resetDone_warm t hnum, htarget]
    generalize s.coreReady = r at hup hready ⊢
    have hbooted := hup.booted hready hcause
    generalize r.setMode modeBOOT t.cause = u at hbooted ⊢
    exact (hbooted.of_keeps (u.keeps_fwNotice _ _) (u.clkstat_fwNotice _ _)).modeLate

end Reset

/-- Settles O7. -/
theorem transitionsEnd : Obligations.TransitionsEnd := by
  unfold Obligations.TransitionsEnd
  refine ⟨?_, ?_, ?_, fun _ _ => rfl, fun _ => rfl⟩
  · intro i t s ht hnum hpace hgrid htarget hcause hinsts hcfg hlate
    have hdue : s.cycleBoundary ((i.map (fun x => x.val)).getD 4) = s.modeDone := by
      have hbound : (i.map (fun x => x.val)).getD 4 < 4 ∨ s.gridAt 1000000 = true := by
        cases i with
        | none => exact .inr (hgrid.resolve_left (by simp))
        | some x => exact .inl x.isLt
      simp only [State.cycleBoundary, ht]
      exact if_pos ⟨hpace, hbound, hnum⟩
    refine ⟨s.modeDone, congrArg done hdue, ?_⟩
    exact State.modeDone_entered ht (by omega) htarget hcause hinsts hcfg hlate (by omega)
  · intro t s ht hnum htarget hcause hinsts hcfg hlate hline
    have hdue : s.modeComplete = s.modeDone := by
      simp only [State.modeComplete, ht]
      rw [if_neg (by omega), if_neg (by omega), if_neg (by omega)]
    refine ⟨s.modeDone, congrArg done hdue, ?_⟩
    exact State.modeDone_entered ht (by omega) htarget hcause hinsts hcfg hlate (fun _ => hline)
  · intro t s ht hnum htarget hcause hlate
    have hdue : s.modeComplete = s.resetDone t := by
      simp only [State.modeComplete, ht]
      exact if_pos (hnum.imp_right .inr)
    obtain ⟨⟨prev, hmode, _, _, hbusy, htrans⟩, ⟨h7, h11, hpll⟩, _⟩ := s.resetDone_booted t hnum htarget hcause hlate
    exact ⟨s.resetDone t, congrArg done hdue, hmode, hbusy, htrans, h7, h11, hpll⟩

end Sys2Proof.Machine

/-! Proofs about the resets and the start (R25, R315 to R317). -/

namespace Sys2Proof.Machine

open Sys2Proof

/-! ### Which registers hold something else than their reset values -/

/-- Every register that is listed as not at its reset value has property `p`. -/
def State.RegsIn (s : State) (p : Nat → Prop) : Prop := ∀ e ∈ s.regs, p e.1

section Listed

variable {s : State} {p : Nat → Prop} (h : s.RegsIn p)
include h

theorem State.RegsIn.setReg {a : Nat} (v : Word) (ha : p a) : (s.setReg a v).RegsIn p := fun _ he =>
  (mem_storeSet he).elim (fun hself => hself ▸ ha) (h _)
theorem State.RegsIn.setFld {f : Fld} (n : Nat) (hf : p f.addr) : (s.setFld f n).RegsIn p := h.setReg _ hf
theorem State.RegsIn.setFlag {f : Fld} (b : Bool) (hf : p f.addr) : (s.setFlag f b).RegsIn p := h.setReg _ hf

end Listed

/-! ### PORESET (R315, R316) -/

/-- The registers that a power-on leaves at other values than their reset values. -/
def powerOnReg (a : Nat) : Prop :=
  a ∈ [SYS_RSTCAUSE, SYS_MODE, HOST_STAT, SAF_BTEST 0, SAF_BTEST 1, MEM_REPSUM, MEM_STAT] ∨ 0x41700100 ≤ a ∧ a < 0x417001C0

section PowerOn

variable (s : State)

theorem State.regsIn_powerLost : s.powerLost.RegsIn powerOnReg := by
  have hnone (t : State) (h : t.regs = []) : t.RegsIn powerOnReg := fun e he => by simp [h] at he
  exact ((hnone _ rfl).setFld _ (.inl (by decide))).setFld _ (.inl (by decide))

/-- The straps and the cause of a power-on. -/
def State.strapped (s : State) (c : Nat) (test spi hold : Bool) : State :=
  (((s.setFlag SYS_RSTCAUSE_TESTMODE test).setFlag SYS_RSTCAUSE_HOSTSEL spi).setFlag SYS_RSTCAUSE_BOOTHOLD hold).setCause c
/-- The host link that HOSTSEL selects. -/
def State.linkStrapped (s : State) (spi : Bool) : State := (s.setFlag HOST_STAT_SPI spi).setFlag HOST_STAT_LINKUP spi

theorem State.powerOn_eq (c : Nat) (test spi hold : Bool) : s.powerOn c test spi hold =
    ((s.powerLost.strapped c test spi hold).linkStrapped spi).setTrans (if test then 2 else 1) (if test then modeTEST else modeBOOT) 0 := by
  cases test <;> rfl

variable {s}

theorem State.RegsIn.powerOn (h : s.RegsIn powerOnReg) (c n t : Nat) (test spi hold : Bool) :
    (((s.strapped c test spi hold).linkStrapped spi).setTrans n t 0).RegsIn powerOnReg := by
  have hcause : powerOnReg SYS_RSTCAUSE := .inl (by decide)
  have hlink : powerOnReg HOST_STAT := .inl (by decide)
  have hmode : powerOnReg SYS_MODE := .inl (by decide)
  have hstraps : (s.strapped c test spi hold).RegsIn powerOnReg :=
    (((h.setFlag (f := SYS_RSTCAUSE_TESTMODE) test hcause).setFlag (f := SYS_RSTCAUSE_HOSTSEL) spi hcause).setFlag
      (f := SYS_RSTCAUSE_BOOTHOLD) hold hcause).setReg _ hcause
  exact (((hstraps.setFlag (f := HOST_STAT_SPI) spi hlink).setFlag (f := HOST_STAT_LINKUP) spi hlink).setFlag
    (f := SYS_MODE_BUSY) true hmode).setFld (f := SYS_MODE_TARGET) t hmode

theorem State.RegsIn.fuseLoad (h : s.RegsIn powerOnReg) (f : List (Fin 48 × Fin 4096)) : (s.fuseLoad f).RegsIn powerOnReg := by
  have hsub (b : Fin 48) : powerOnReg (MEM_REPSTAT_SUB b).addr := .inr (by simp only [MEM_REPSTAT_SUB, MEM_REPSTAT]; omega)
  have hload (l : List (Fin 48 × Fin 4096)) (t : State) (ht : t.RegsIn powerOnReg) :
      (l.foldl (fun s e => s.setFld (MEM_REPSTAT_SUB e.1) e.2) t).RegsIn powerOnReg := by
    induction l generalizing t with
    | nil => exact ht
    | cons e l ih => exact ih _ (ht.setFld _ (hsub e.1))
  have hsum (n : Nat) := (hload f s h).setFld (f := MEM_REPSUM_SPARES) n (.inl (by decide))
  unfold State.fuseLoad
  generalize f.foldl (fun s e => s.setFld (MEM_REPSTAT_SUB e.1) e.2) s = t at hsum ⊢
  dsimp only
  split
  · have hbad (t : State) : (t.assertSrc 309).regs = t.regs := by
      unfold State.assertSrc
      split <;> rfl
    exact fun e he => ((hsum _).setFlag (f := MEM_STAT_REPAIRBAD) true (.inl (by decide))) e (hbad _ ▸ he)
  · exact hsum _

/-- The repair words stand in registers of the memories (R383). -/
theorem State.fuseLoad_below (s : State) (f : List (Fin 48 × Fin 4096)) :
    (s.fuseLoad f).pending = s.pending ∧ ∀ a < 0x41700000, (s.fuseLoad f).reg a = s.reg a := by
  have hload (l : List (Fin 48 × Fin 4096)) (t : State) : (l.foldl (fun s e => s.setFld (MEM_REPSTAT_SUB e.1) e.2) t).pending = t.pending ∧
      ∀ a < 0x41700000, (l.foldl (fun s e => s.setFld (MEM_REPSTAT_SUB e.1) e.2) t).reg a = t.reg a := by
    induction l generalizing t with
    | nil => exact ⟨rfl, fun _ _ => rfl⟩
    | cons e l ih =>
      obtain ⟨hpending, hreg⟩ := ih (t.setFld (MEM_REPSTAT_SUB e.1) e.2)
      refine ⟨hpending, fun a ha => (hreg a ha).trans (t.reg_setFld_ne _ _ ?_)⟩
      simp only [MEM_REPSTAT_SUB, MEM_REPSTAT]
      omega
  obtain ⟨hpending, hreg⟩ := hload f s
  unfold State.fuseLoad
  generalize f.foldl (fun s e => s.setFld (MEM_REPSTAT_SUB e.1) e.2) s = t at hpending hreg ⊢
  have hsum (n a : Nat) (ha : a < 0x41700000) : (t.setFld MEM_REPSUM_SPARES n).reg a = t.reg a :=
    t.reg_setFld_ne MEM_REPSUM_SPARES n (by simp only [MEM_REPSUM_SPARES, MEM_REPSUM]; omega)
  dsimp only
  split
  · refine ⟨?_, fun a ha => ?_⟩
    · obtain ⟨fcu, raises, hassert⟩ := State.assertSrc_frame ((t.setFld MEM_REPSUM_SPARES _).setFlag MEM_STAT_REPAIRBAD true) 309
      rw [hassert]
      exact hpending
    · rw [State.reg_assertSrc, State.reg_setFlag_ne _ _ _ (by simp only [MEM_STAT_REPAIRBAD, MEM_STAT]; omega), hsum _ a ha, hreg a ha]
  · exact ⟨hpending, fun a ha => (hsum _ a ha).trans (hreg a ha)⟩

theorem State.reg_setTrans_ne (s : State) (n t c : Nat) {a : Nat} (h : a ≠ SYS_MODE) : (s.setTrans n t c).reg a = s.reg a := by
  show (State.setFld _ SYS_MODE_TARGET t).reg a = s.reg a
  rw [State.reg_setFld_ne _ _ _ h, State.reg_setFlag_ne _ _ _ h]
theorem State.setTrans_target (s : State) (n c : Nat) {t : Nat} (ht : t < 16) : (s.setTrans n t c).fld SYS_MODE_TARGET = t :=
  (State.fld_setFld_same _ SYS_MODE_TARGET t (by decide) (by decide)).trans (Nat.mod_eq_of_lt ht)
theorem State.setTrans_busy (s : State) (n t c : Nat) : (s.setTrans n t c).busy = true := by
  have hbusy := s.flag_setFlag_same SYS_MODE_BUSY true rfl (by decide)
  show (State.setFld _ SYS_MODE_TARGET t).flag SYS_MODE_BUSY = true
  rw [State.flag, State.fld_setFld_apart _ _ SYS_MODE_TARGET _ (by decide) (by decide) (by decide), ← State.flag, hbusy]

/-- A cause takes the five low bits of its register alone. -/
theorem getLsbD_cause (w : Word) {c : Nat} (hc : c < 5) (i : Nat) :
    ((w &&& 0xFFFFFFE0#32) ||| w32 (2 ^ c)).getLsbD i = if i < 5 then decide (c = i) else w.getLsbD i := by
  by_cases hi : i < 32
  · have hmask : (0xFFFFFFE0#32).getLsbD i = decide (5 ≤ i) := by
      have h : ∀ i : Fin 32, (0xFFFFFFE0#32).getLsbD i = decide (5 ≤ i.val) := by decide
      exact h ⟨i, hi⟩
    have hone : (w32 (2 ^ c)).getLsbD i = decide (c = i) := by rw [BitVec.getLsbD_ofNat, Nat.testBit_two_pow, decide_eq_true hi, Bool.true_and]
    rw [BitVec.getLsbD_or, BitVec.getLsbD_and, hmask, hone]
    by_cases h5 : i < 5
    · simp [h5]
    · simp [h5, show 5 ≤ i by omega, show c ≠ i by omega]
  · simp [BitVec.getLsbD_of_ge _ i (not_lt.mp hi), show ¬ i < 5 by omega]

theorem bits_cause (w : Word) {c : Nat} (hc : c < 5) : bits ((w &&& 0xFFFFFFE0#32) ||| w32 (2 ^ c)) 4 0 = 2 ^ c := by
  refine Nat.eq_of_testBit_eq (fun i => ?_)
  rw [testBit_bits, getLsbD_cause w hc, Nat.testBit_two_pow, Nat.zero_add]
  by_cases h5 : i < 5
  · simp [h5]
  · simp [h5, show c ≠ i by omega]

theorem State.flag_setCause (s : State) {c : Nat} (hc : c < 5) (f : Fld) (haddr : f.addr = SYS_RSTCAUSE) (hf : 5 ≤ f.lo) :
    (s.setCause c).flag f = s.flag f := by
  have hbits : bits ((s.setCause c).reg SYS_RSTCAUSE) f.hi f.lo = bits (s.reg SYS_RSTCAUSE) f.hi f.lo := by
    refine Nat.eq_of_testBit_eq (fun i => ?_)
    rw [testBit_bits, testBit_bits, State.setCause, State.reg_setReg_same, getLsbD_cause _ hc, if_neg (by omega)]
  rw [State.flag, State.flag, State.fld, State.fld, haddr, hbits]

/-- The straps and the cause that a power-on latches. -/
theorem State.strapped_straps (s : State) (c : Nat) (test spi hold : Bool) (hc : c < 5) :
    (s.strapped c test spi hold).flag SYS_RSTCAUSE_TESTMODE = test ∧ (s.strapped c test spi hold).flag SYS_RSTCAUSE_HOSTSEL = spi ∧
    (s.strapped c test spi hold).flag SYS_RSTCAUSE_BOOTHOLD = hold ∧ bits ((s.strapped c test spi hold).reg SYS_RSTCAUSE) 4 0 = 2 ^ c := by
  simp only [State.strapped]
  refine ⟨?_, ?_, ?_, ?_⟩
  · rw [State.flag_setCause _ hc _ rfl (by decide), State.flag_setFlag_apart _ _ SYS_RSTCAUSE_BOOTHOLD _ (by decide) (by decide) (by decide),
      State.flag_setFlag_apart _ _ SYS_RSTCAUSE_HOSTSEL _ (by decide) (by decide) (by decide),
      State.flag_setFlag_same _ SYS_RSTCAUSE_TESTMODE _ rfl (by decide)]
  · rw [State.flag_setCause _ hc _ rfl (by decide), State.flag_setFlag_apart _ _ SYS_RSTCAUSE_BOOTHOLD _ (by decide) (by decide) (by decide),
      State.flag_setFlag_same _ SYS_RSTCAUSE_HOSTSEL _ rfl (by decide)]
  · rw [State.flag_setCause _ hc _ rfl (by decide), State.flag_setFlag_same _ SYS_RSTCAUSE_BOOTHOLD _ rfl (by decide)]
  · rw [State.setCause, State.reg_setReg_same, bits_cause _ hc]

/-- The link, the transition and the fuses leave what a power-on has latched. -/
theorem State.powerOn_latched (s : State) (spi : Bool) (n : Nat) {target : Nat} (ht : target < 16) (fuses : List (Fin 48 × Fin 4096)) :
    let u := ((s.linkStrapped spi).setTrans n target 0).fuseLoad fuses
    u.reg SYS_RSTCAUSE = s.reg SYS_RSTCAUSE ∧ u.busy = true ∧ u.fld SYS_MODE_TARGET = target ∧ u.pending = s.pending := by
  have hlink : (s.linkStrapped spi).reg SYS_RSTCAUSE = s.reg SYS_RSTCAUSE :=
    (State.reg_setFlag_ne _ HOST_STAT_LINKUP _ (by decide)).trans (s.reg_setFlag_ne HOST_STAT_SPI _ (by decide))
  have hpending : (s.linkStrapped spi).pending = s.pending := rfl
  generalize s.linkStrapped spi = t at hlink hpending ⊢
  obtain ⟨hload, hreg⟩ := (t.setTrans n target 0).fuseLoad_below fuses
  have hmode (f : Fld) (hf : f.addr = SYS_MODE) : ((t.setTrans n target 0).fuseLoad fuses).fld f = (t.setTrans n target 0).fld f := by
    rw [State.fld, State.fld, hf, hreg _ (by decide)]
  refine ⟨?_, ?_, ?_, hload.trans hpending⟩
  · rw [hreg _ (by decide), t.reg_setTrans_ne n target 0 (by decide), hlink]
  · rw [State.busy, State.flag, hmode SYS_MODE_BUSY rfl]
    exact t.setTrans_busy n target 0
  · rw [hmode SYS_MODE_TARGET rfl, t.setTrans_target n 0 ht]

theorem leaves_poreset (test spi hold : Bool) (fuses : List (Fin 48 × Fin 4096)) (s : State) :
    Leaves (.poreset test spi hold fuses) s (fun u => u.flag SYS_RSTCAUSE_TESTMODE = test ∧ u.flag SYS_RSTCAUSE_HOSTSEL = spi ∧
      u.flag SYS_RSTCAUSE_BOOTHOLD = hold ∧ bits (u.reg SYS_RSTCAUSE) 4 0 = 1 ∧ u.busy = true ∧
      u.fld SYS_MODE_TARGET = (if test then modeTEST else modeBOOT) ∧ u.pending = s.pending ∧ ∀ e ∈ u.regs, powerOnReg e.1) := by
  refine ⟨s.poreset test spi hold fuses, rfl, ?_⟩
  have hlisted := (s.regsIn_powerLost.powerOn 0 (if test then 2 else 1) (if test then modeTEST else modeBOOT) test spi hold).fuseLoad fuses
  have hpending : (s.powerLost.strapped 0 test spi hold).pending = s.pending := rfl
  obtain ⟨htest, hspi, hhold, hcause⟩ := s.powerLost.strapped_straps 0 test spi hold (by decide)
  have htarget : (if test then modeTEST else modeBOOT) < 16 := by split <;> decide
  have hlatched := (s.powerLost.strapped 0 test spi hold).powerOn_latched spi (if test then 2 else 1) htarget fuses
  rw [State.poreset, s.powerOn_eq]
  generalize s.powerLost.strapped 0 test spi hold = t at hlisted hpending htest hspi hhold hcause hlatched ⊢
  generalize ((t.linkStrapped spi).setTrans (if test then 2 else 1) (if test then modeTEST else modeBOOT) 0).fuseLoad fuses = u
    at hlisted hlatched ⊢
  obtain ⟨hstraps, hbusy, hmode, hqueue⟩ := hlatched
  have hflag (f : Fld) (hf : f.addr = SYS_RSTCAUSE) : u.flag f = t.flag f := by
    rw [State.flag, State.flag, State.fld, State.fld, hf, hstraps]
  exact ⟨(hflag _ rfl).trans htest, (hflag _ rfl).trans hspi, (hflag _ rfl).trans hhold, hstraps ▸ hcause, hbusy, hmode,
    hqueue.trans hpending, hlisted⟩

end PowerOn

/-! ### The host port reset (R315) -/

section HostPort

variable (s : State)

/-- The host port's channels without their messages and their counts. -/
def State.chansReset (s : State) (l : List Nat) : State :=
  l.foldl (fun s c => (s.chanFlush c).resetRange (MBX_CH_SEND c 0) (MBX_CH_SEND c 16)) s

theorem State.chan_chansReset (l : List Nat) (k : Nat) : (s.chansReset l).chan k = if k ∈ l then [] else s.chan k := by
  induction l generalizing s with
  | nil => rfl
  | cons c l ih =>
    have hflush : ((s.chanFlush c).resetRange (MBX_CH_SEND c 0) (MBX_CH_SEND c 16)).chan k = if k = c then [] else s.chan k :=
      s.chan_setChan c [] k
    rw [State.chansReset, List.foldl_cons, ← State.chansReset, ih, hflush]
    by_cases hk : k = c <;> by_cases hl : k ∈ l <;> simp [hk, hl]

theorem State.pending_chansReset (l : List Nat) : (s.chansReset l).pending = s.pending := by
  induction l generalizing s with
  | nil => rfl
  | cons c l ih =>
    obtain ⟨regs, hset⟩ := s.setChan_frame c []
    have hflush : ((s.chanFlush c).resetRange (MBX_CH_SEND c 0) (MBX_CH_SEND c 16)).pending = s.pending := by
      rw [State.chanFlush, hset]
      rfl
    rw [State.chansReset, List.foldl_cons, ← State.chansReset, ih, hflush]

/-- The host port's registers at their reset values but for the link's configuration and kind. -/
def State.portReset (s : State) : State :=
  (((({ s.resetRange 0x41800000 0x41900000 with host := HostSt.reset }.setReg HOST_LINKCFG (s.reg HOST_LINKCFG)).setFlag
    HOST_STAT_SPI s.spi).setFlag HOST_STAT_LINKUP s.spi).setReg (MBX_DB 0) 0)

theorem State.chan_portReset (c : Nat) : s.portReset.chan c = s.chan c := rfl
theorem State.pending_portReset : s.portReset.pending = s.pending := rfl
theorem State.hostReset_eq : s.hostReset = (s.chansReset hostChans).portReset := rfl

/-- What an address of the host port holds after its reset is its reset value but for two registers. -/
def hostKept (a : Nat) : Prop := 0x41800000 ≤ a → a < 0x41900000 → a = HOST_LINKCFG ∨ a = HOST_STAT

theorem State.regsIn_portReset : s.portReset.RegsIn hostKept := by
  have hrange : State.RegsIn { s.resetRange 0x41800000 0x41900000 with host := HostSt.reset } hostKept := by
    intro e he hlo hhi
    have hbounds := (List.mem_filter.mp he).2
    simp only [Bool.or_eq_true, decide_eq_true_eq] at hbounds
    omega
  have hlink : hostKept HOST_STAT := fun _ _ => .inr rfl
  exact (((hrange.setReg _ (fun _ _ => .inl rfl)).setFlag (f := HOST_STAT_SPI) _ hlink).setFlag (f := HOST_STAT_LINKUP) _ hlink).setReg _
    (fun hlo => absurd hlo (by decide))

theorem leaves_hostPortReset (h : s.flag PWR_RSTCFG_HOSTRST = false) : Leaves .hostPortReset s (fun u =>
    (∀ c ∈ hostChans, u.chan c = []) ∧ u.host = HostSt.reset ∧ u.reg (MBX_DB 0) = 0 ∧ u.pending = s.pending ∧
      ∀ e ∈ u.regs, hostKept e.1) := by
  have hreset : s.hostPortReset = (s.chansReset hostChans).portReset := by simp [State.hostPortReset, h, s.hostReset_eq]
  refine ⟨(s.chansReset hostChans).portReset, congrArg done hreset, fun c hc => ?_, rfl, ?_, ?_, State.regsIn_portReset _⟩
  · rw [State.chan_portReset, s.chan_chansReset, if_pos hc]
  · exact State.reg_setReg_same _ (MBX_DB 0) 0
  · rw [State.pending_portReset, s.pending_chansReset]

end HostPort

/-! ### The start (R317) -/

theorem bootCause_lt {s : State} {fail : Option Nat} {bad : Bool} {c : Nat} (h : s.bootCause fail bad = some c) : c < 256 := by
  unfold State.bootCause at h
  grind

/-- A start ends in PREOP or in SAFESTOP, whatever went before. -/
theorem State.bootEnd_entered (s : State) (fail : Option Nat) (bad : Bool) : ((s.bootEnd fail bad).mode = modePREOP ∨
    (s.bootEnd fail bad).mode = modeSAFESTOP) ∧ (s.bootEnd fail bad).trans = none ∧ (s.bootEnd fail bad).busy = false := by
  have hnotice (t : State) (m prev c : Nat) (h : t.Entered m prev c) : t.modeNotice.Entered m prev c := (t.keeps_fwNotice _ _).spares.entered h
  unfold State.bootEnd
  dsimp only
  split
  · next c hc =>
    have hset := ((((s.setFlag FCU_CTRL_ARMED true).fcuShow).setTrans 4 modeSAFESTOP c).fwAssert).setMode_entered (m := modeSAFESTOP)
      (by decide) (bootCause_lt hc)
    generalize ((((s.setFlag FCU_CTRL_ARMED true).fcuShow).setTrans 4 modeSAFESTOP c).fwAssert).setMode modeSAFESTOP c = t at hset ⊢
    have hentered := t.keeps_modeEntered 4 modeSAFESTOP modeBOOT (fun h => absurd h (by decide))
    obtain ⟨hmode, -, -, hbusy, htrans⟩ := hnotice _ _ _ _ (hentered.spares.entered hset)
    exact ⟨.inr hmode, htrans, hbusy⟩
  · have hset := ((((s.setFlag FCU_CTRL_ARMED true).fcuShow).setTrans 3 modePREOP 2).fwAssert).setMode_entered (m := modePREOP) (cause := 2)
      (by decide) (by decide)
    generalize ((((s.setFlag FCU_CTRL_ARMED true).fcuShow).setTrans 3 modePREOP 2).fwAssert).setMode modePREOP 2 = t at hset ⊢
    obtain ⟨hmode, -, -, hbusy, htrans⟩ := hnotice _ _ _ _ hset
    exact ⟨.inl hmode, htrans, hbusy⟩

theorem leaves_startUp (r : BootRes) (s : State) (hmode : s.mode = modeBOOT) (htrans : s.trans = none) (hfw : s.fw.running = false)
    (himage : r.image = true) (hhold : s.flag SYS_RSTCAUSE_BOOTHOLD = false) :
    Leaves (.startUp r) s (fun u => (u.mode = modePREOP ∨ u.mode = modeSAFESTOP) ∧ u.trans = none ∧ u.busy = false) := by
  have hstart : s.startUp r = s.startFrom r := by simp [State.startUp, hmode, htrans, hfw, himage, hhold]
  exact ⟨s.startFrom r, congrArg done hstart, State.bootEnd_entered _ r.selfTest r.badRec⟩

/-- With nothing armed and no transaction open a change of the mode cancels none. -/
theorem State.txnModeChange_none {s : State} (h : s.noTxn = true) : s.txnModeChange = s := by
  have hidle (k : Nat) (hk : k ∈ List.range 21) : s.flag (TXN_CH_STAT_OPEN k) = false ∧ (s.txnCh k).armed = none := by
    have hall := List.all_eq_true.mp h k hk
    simp only [Bool.and_eq_true, Bool.not_eq_true', Option.isNone_iff_eq_none] at hall
    exact ⟨hall.1.1, hall.2⟩
  have hfold (l : List Nat) (hl : ∀ k ∈ l, k ∈ List.range 21) : l.foldl (fun s m => ((if s.flag (TXN_CH_STAT_OPEN m) then
      (s.fwPay (s.txnCh m).owed 0x8007 (s.fld SYS_MODE_TARGET) 0 []).txnDiscard m else s)).txnCancel m 1) s = s := by
    induction l with
    | nil => rfl
    | cons k l ih =>
      obtain ⟨hopen, harmed⟩ := hidle k (hl k List.mem_cons_self)
      have hnone : s.txnCancel k 1 = s := by simp [State.txnCancel, harmed]
      simp only [List.foldl_cons, hopen, Bool.false_eq_true, if_false, hnone]
      exact ih (fun j hj => hl j (List.mem_cons_of_mem k hj))
  exact hfold (List.range 21) (fun _ hk => hk)

theorem State.only_setMode (s : State) (m cause : Nat) : Only s (s.setMode m cause) [SYS_MODE] [] := by
  have hset (t : State) (f : Fld) (n : Nat) (hf : f.addr = SYS_MODE) : Only t (t.setFld f n) [SYS_MODE] [] := hf ▸ t.only_setFld f n
  have hmode : Only s ((((s.setFld SYS_MODE_PREV s.mode).setFld SYS_MODE_CUR m).setFld SYS_MODE_CAUSE cause).setFlag SYS_MODE_BUSY false)
      [SYS_MODE] [] :=
    ((((hset s _ _ rfl).trans (hset _ SYS_MODE_CUR m rfl)).trans (hset _ SYS_MODE_CAUSE cause rfl)).trans
      (hset _ SYS_MODE_BUSY _ rfl)).mono (by simp)
  exact (hmode.trans (.of_eq rfl rfl rfl rfl)).mono (by simp)
theorem State.only_setTrans (s : State) (n t c : Nat) : Only s (s.setTrans n t c) [SYS_MODE] [] := by
  have hset : Only s ((s.setFlag SYS_MODE_BUSY true).setFld SYS_MODE_TARGET t) [SYS_MODE] [] :=
    ((s.only_setFlag SYS_MODE_BUSY true).trans (State.only_setFld _ SYS_MODE_TARGET t)).mono (by decide)
  exact (hset.trans (.of_eq rfl rfl rfl rfl)).mono (by simp)

/-- A start without an image stays in BOOT, by transition 5 (R26). -/
theorem State.noImage_eq {s : State} (hfw : s.fw.running = false) (htxn : s.noTxn = true) :
    s.noImage = ((s.setTrans 5 modeBOOT 0x0C).setMode modeBOOT 0x0C).modeLate := by
  have hidle : (s.setTrans 5 modeBOOT 0x0C).noTxn = true := by
    rw [← htxn]
    have hreg (k : Nat) : (s.setTrans 5 modeBOOT 0x0C).reg (TXN_CH_STAT k) = s.reg (TXN_CH_STAT k) :=
      s.reg_setTrans_ne _ _ _ (by simp only [TXN_CH_STAT, SYS_MODE]; omega)
    have hflag (k : Nat) : (s.setTrans 5 modeBOOT 0x0C).flag (TXN_CH_STAT_OPEN k) = s.flag (TXN_CH_STAT_OPEN k) ∧
        (s.setTrans 5 modeBOOT 0x0C).flag (TXN_CH_STAT_CHECKING k) = s.flag (TXN_CH_STAT_CHECKING k) := by
      simp [State.flag, State.fld, TXN_CH_STAT_OPEN, TXN_CH_STAT_CHECKING, hreg]
    simp only [State.noTxn, hflag]
    rfl
  have hassert (t : State) (h : t.fw.running = false) : t.fwAssert = t := by simp [State.fwAssert, h]
  have hnotice (t : State) (h : t.fw.running = false) : t.modeNotice = t := by simp [State.modeNotice, State.fwNotice, h]
  have hrunning : ((s.setTrans 5 modeBOOT 0x0C).setMode modeBOOT 0x0C).fw.running = false := hfw
  rw [State.noImage, State.txnModeChange_none hidle, hassert (s.setTrans 5 modeBOOT 0x0C) hfw, hnotice _ hrunning]

theorem effect_startUp_noImage (r : BootRes) (s : State) (hmode : s.mode = modeBOOT) (htrans : s.trans = none) (hfw : s.fw.running = false)
    (hlate : s.pwr.late = []) (h : ((r.image = false ∧ s.sys.fwImg = none) ∨ s.flag SYS_RSTCAUSE_BOOTHOLD = true) ∧ s.noTxn = true) :
    Effect (.startUp r) s [SYS_MODE] [] (fun u => u.mode = modeBOOT ∧ u.fld SYS_MODE_CAUSE = 0x0C ∧ u.busy = false) := by
  obtain ⟨hnone, htxn⟩ := h
  have hgood : (!(r.image || s.imageGood) || s.flag SYS_RSTCAUSE_BOOTHOLD) = true := by
    rcases hnone with ⟨himage, hfile⟩ | hhold
    · simp [State.imageGood, himage, hfile]
    · simp [hhold]
  have hstart : s.startUp r = s.noImage := by rw [State.startUp, if_neg (by simp [hmode, htrans, hfw]), if_pos hgood]
  have hset := (s.setTrans 5 modeBOOT 0x0C).setMode_entered (m := modeBOOT) (cause := 0x0C) (by decide) (by decide)
  have hlater : ((s.setTrans 5 modeBOOT 0x0C).setMode modeBOOT 0x0C).pwr.late = [] := hlate
  have honly := (s.only_setTrans 5 modeBOOT 0x0C).trans (State.only_setMode _ modeBOOT 0x0C)
  have heq := hstart.trans (State.noImage_eq hfw htxn)
  generalize (s.setTrans 5 modeBOOT 0x0C).setMode modeBOOT 0x0C = t at hset hlater honly heq
  obtain ⟨hend, -, hcause, hbusy, -⟩ := (State.keeps_modeLate hlater).spares.entered hset
  have hall : Only t t.modeLate [] [] := by
    rw [State.modeLate_none hlater]
    exact .of_eq rfl rfl rfl rfl
  exact effect_of_eq heq ((honly.trans hall).mono (by decide)) ⟨hend, hcause, hbusy⟩ rfl

/-- Settles O6. -/
theorem resetsAndStart : Obligations.ResetsAndStart := by
  unfold Obligations.ResetsAndStart
  refine ⟨leaves_poreset, effect_startUp_noImage, leaves_startUp, fun _ => rfl, fun s h => ?_, leaves_hostPortReset, fun _ _ => rfl, fun _ => rfl⟩
  exact congrArg done (if_pos h)

end Sys2Proof.Machine

/-! What settling can change of the mode's state: the fault collector's reactions and the transitions it starts (R25 to R29, R282 to R286). -/

namespace Sys2Proof.Machine

open Sys2Proof

/-! ### The weaker frame of the reactions -/

/-- From `s` to `t` the mode, the transition and the commanded requests are the same. -/
def State.Stays (s t : State) : Prop := t.mode = s.mode ∧ t.trans = s.trans ∧ asked t.modeq = asked s.modeq

/-- And no memory is written. -/
def State.Rests (s t : State) : Prop := s.Stays t ∧ t.mem = s.mem

/-- And while the device sleeps its power domains stay as they are. -/
def State.Holds (s t : State) : Prop := s.Rests t ∧ (s.asleep = true → t.reg PWR_DOMSTAT = s.reg PWR_DOMSTAT)

section Frames

variable {s t u : State}

theorem State.Stays.trans (h : s.Stays t) (h1 : t.Stays u) : s.Stays u := by
  obtain ⟨hmode, htrans, hasked⟩ := h
  obtain ⟨hmode1, htrans1, hasked1⟩ := h1
  exact ⟨hmode1.trans hmode, htrans1.trans htrans, hasked1.trans hasked⟩
theorem State.Rests.trans (h : s.Rests t) (h1 : t.Rests u) : s.Rests u := ⟨h.1.trans h1.1, h1.2.trans h.2⟩
theorem State.Stays.asleep (h : s.Stays t) : t.asleep = s.asleep := by rw [State.asleep, State.asleep, h.1]
theorem State.Spares.stays (h : s.Spares t) : s.Stays t := ⟨h.mode, h.transition, h.requests⟩
theorem State.Keeps.stays (h : s.Keeps t) : s.Stays t := h.spares.stays
theorem State.Keeps.rests (h : s.Keeps t) : s.Rests t := ⟨h.stays, h.memory⟩
theorem State.Keeps.holds (h : s.Keeps t) : s.Holds t := ⟨h.rests, fun _ => h.spares.domains⟩
theorem State.Holds.requests (h : s.Holds t) : asked t.modeq = asked s.modeq := h.1.1.2.2
theorem State.Holds.refl (s : State) : s.Holds s := (State.Keeps.refl s).holds
theorem State.Holds.trans (h : s.Holds t) (h1 : t.Holds u) : s.Holds u :=
  ⟨h.1.trans h1.1, fun hs => (h1.2 (h.1.1.asleep.trans hs)).trans (h.2 hs)⟩

variable {c : Prop} [Decidable c]

theorem State.Holds.ite (h : s.Holds t) (h1 : s.Holds u) : s.Holds (if c then t else u) := by
  split
  · exact h
  · exact h1
theorem State.Rests.ite (h : s.Rests t) (h1 : s.Rests u) : s.Rests (if c then t else u) := by
  split
  · exact h
  · exact h1
theorem State.Stays.ite (h : s.Stays t) (h1 : s.Stays u) : s.Stays (if c then t else u) := by
  split
  · exact h
  · exact h1

end Frames

theorem State.stays_foldl {β : Type} {op : State → β → State} (h : ∀ (t : State) (x : β), t.Stays (op t x)) (s : State) (l : List β) :
    s.Stays (l.foldl op s) := by
  induction l generalizing s with
  | nil => exact ⟨rfl, rfl, rfl⟩
  | cons x l ih => exact (h s x).trans (ih (op s x))
theorem State.rests_foldl {β : Type} {op : State → β → State} (h : ∀ (t : State) (x : β), t.Rests (op t x)) (s : State) (l : List β) :
    s.Rests (l.foldl op s) := by
  induction l generalizing s with
  | nil => exact (State.Keeps.refl s).rests
  | cons x l ih => exact (h s x).trans (ih (op s x))

section Reactions

variable (s : State)

theorem State.rests_setDom2 (d v : Nat) : s.Rests (s.setDom2 d v) :=
  ⟨⟨s.fld_setReg_ne SYS_MODE_CUR _ (show SYS_MODE ≠ PWR_DOMSTAT by decide), rfl, rfl⟩, rfl⟩
theorem State.rests_holdPower (b : Blk) : s.Rests (s.holdPower b) := by
  have hrange : s.Keeps (s.resetRange 0x41200000 0x41400000) := by simp [State.Keeps]
  exact .ite (hrange.rests.trans (State.rests_setDom2 _ 9 0)) (State.Keeps.refl s).rests
theorem State.rests_blkHold (b : Blk) : s.Rests (s.blkHold b) :=
  .ite (State.Keeps.refl s).rests (((State.keeps_blkReset s b).rests.trans (State.rests_holdPower _ b)).trans ⟨⟨rfl, rfl, rfl⟩, rfl⟩)
theorem State.rests_blkAct (src react : Nat) : s.Rests (s.blkAct src react) :=
  .ite (State.keeps_foldl (fun t b => State.keeps_blkAssert t b) s _).rests
    (.ite (State.rests_foldl (fun t b => t.rests_blkHold b) s _) (State.Keeps.refl s).rests)

theorem State.spares_blkStart (b : Blk) : s.Spares (s.blkStart b) := by
  cases b with
  | eng n => exact (State.Keeps.ite (.refl s) (.ite (.trans (s.keeps_setEng n _) (State.keeps_engStart _ n)) (s.keeps_setEng n _))).spares
  | can n => exact (State.keeps_canRestart s n).spares
  | lau u => exact State.spares_lauReset s u
  | nut => exact (State.keeps_nutResume s).spares
  | _ => exact .refl s
theorem State.stays_unhold : s.Stays s.unhold := by
  have hclear : s.Stays (s.setFcu { s.fcu with held := [] }) := ⟨rfl, rfl, rfl⟩
  refine hclear.trans (State.stays_foldl (fun t b => ?_) _ _)
  exact .ite (t.rests_setDom2 9 1).1 (t.spares_blkStart b).stays

/-- A request that a fault makes stands behind those that are commanded. -/
theorem State.holds_request (e : Nat × Nat × Nat) (he : commanded e = false) : s.Holds { s with modeq := s.modeq ++ [e] } :=
  State.Keeps.holds ⟨rfl, rfl, rfl, rfl, asked_append s.modeq e he, rfl⟩

/-- A reaction acts on its blocks' power outside sleep alone (R286). -/
theorem State.holds_reactBlocks (src react : Nat) : s.Holds
    (if s.asleep then s.setFcu { s.fcu with deferred := s.fcu.deferred ++ [(src, react)] } else s.blkAct src react) := by
  split
  · exact State.Keeps.holds ⟨rfl, rfl, rfl, rfl, rfl, rfl⟩
  · next hawake => exact ⟨s.rests_blkAct src react, fun hs => absurd hs hawake⟩

theorem State.holds_reaction (src react : Nat) : s.Holds (s.reaction src react) := by
  have hirq : s.Holds (if 1 ≤ react then s.setFlag FCU_STAT_IRQ true else s) :=
    (State.Keeps.ite (s.keeps_setFld FCU_STAT_IRQ _ (by decide)) (.refl s)).holds
  unfold State.reaction
  dsimp only
  generalize (if 1 ≤ react then s.setFlag FCU_STAT_IRQ true else s) = t at hirq ⊢
  have hact : t.Holds (if react = 2 ∨ react = 3 then (if t.asleep then t.setFcu { t.fcu with deferred := t.fcu.deferred ++ [(src, react)] }
      else t.blkAct src react) else t) := .ite (t.holds_reactBlocks src react) (.refl t)
  generalize (if react = 2 ∨ react = 3 then _ else t) = u at hact ⊢
  refine hirq.trans (hact.trans ?_)
  split
  · refine .trans ?_ (State.holds_request _ _ rfl)
    exact .ite (State.Keeps.holds ⟨rfl, rfl, rfl, rfl, rfl, rfl⟩) (.ite (State.Keeps.holds ⟨rfl, rfl, rfl, rfl, rfl, rfl⟩) (.refl u))
  · split
    · have hsaf := (State.keeps_safRequest u).holds
      exact hsaf.trans (.ite (.refl _) (State.holds_request _ _ rfl))
    · exact .refl u

theorem State.holds_openWin (recd : Option Nat) (src cls react : Nat) : s.Holds (s.openWin recd src cls react) :=
  .ite (.refl s) (State.Keeps.holds ⟨rfl, rfl, rfl, rfl, rfl, rfl⟩)

theorem State.keeps_irq : s.Keeps (s.setFlag FCU_STAT_IRQ true) := s.keeps_setFld FCU_STAT_IRQ _ (by decide)

/-- The record of an open window counts the fault that it hides. -/
theorem State.keeps_conseq (recd : Option Nat) (src : Nat) :
    s.Keeps (s.recDo recd (fun s r => (s.fldSat (FCU_REC_W0_CONSEQ r) 1).setFld (FCU_REC_W2_LASTCQ r) src)) :=
  s.keeps_recDo recd (fun r => by simp [State.Keeps])
/-- The record of an open window takes the higher class. -/
theorem State.keeps_escalate (recd : Option Nat) (src cls react : Nat) : s.Keeps (s.recDo recd (fun s r =>
    let s := ((s.setFlag (FCU_REC_W2_ESC r) true).setFld (FCU_REC_W2_ESCSRC r) src).setFld (FCU_REC_W2_ESCCLASS r) cls
    let s := (s.setFld (FCU_REC_W0_CLASS r) cls).setFld (FCU_REC_W0_REACT r) react
    (s.becomePending r).fixNext)) :=
  s.keeps_recDo recd (fun r => by simp [State.Keeps])

theorem State.holds_merge (w : Window) (src cls react : Nat) (masked : Bool) : s.Holds (s.merge w src cls react masked) := by
  have hrepeat : s.Keeps (s.recDo w.recd (fun s r => s.fldSat (FCU_REC_W0_REPEAT r) 1)) :=
    s.keeps_recDo w.recd (fun r => by simp [State.Keeps])
  have hconseq := s.keeps_conseq w.recd src
  unfold State.merge
  split
  · exact (hrepeat.trans (.ite (State.keeps_irq _) (.refl _))).holds
  · dsimp only
    generalize s.recDo w.recd (fun s r => (s.fldSat (FCU_REC_W0_CONSEQ r) 1).setFld (FCU_REC_W2_LASTCQ r) src) = t at hconseq ⊢
    refine hconseq.holds.trans (.ite (.refl t) ?_)
    have hup := t.keeps_escalate w.recd src cls (if decide ((w.inForce s).2 < react) then react else (w.inForce s).2)
    refine hup.holds.trans ?_
    generalize t.recDo w.recd _ = u
    have hwindow (x : FcuSt) : u.Holds ((u.setFlag FCU_STAT_IRQ true).setFcu x) :=
      u.keeps_irq.holds.trans (State.Keeps.holds ⟨rfl, rfl, rfl, rfl, rfl, rfl⟩)
    exact .ite ((hwindow _).trans (State.holds_reaction _ src react)) (hwindow _)

/-- A fault outside any open window repeats the newest record or opens a new one. -/
theorem State.holds_fault (s : State) (again : Option Nat) (src info cls react : Nat) (wiring : Bool) : s.Holds
    (match again with
    | some r => ((s.fldSat (FCU_REC_W0_REPEAT r) 1).openWin (some r) src cls react).reaction src react
    | none =>
      let n := s.newRec src info cls react wiring
      (n.1.openWin n.2 src cls react).reaction src react) := by
  cases again with
  | some r =>
    have hrepeat : s.Keeps (s.fldSat (FCU_REC_W0_REPEAT r) 1) := by simp [State.Keeps]
    exact (hrepeat.holds.trans (State.holds_openWin _ _ _ _ _)).trans (State.holds_reaction _ _ _)
  | none =>
    exact ((State.keeps_newRec s src info cls react wiring).holds.trans (State.holds_openWin _ _ _ _ _)).trans (State.holds_reaction _ _ _)

theorem State.holds_fcuTake (src info : Nat) (wiring : Bool) : s.Holds (s.fcuTake src info wiring) := by
  have hseen : s.Keeps (s.setBitAt (FCU_SEEN 0) src true) := by simp [State.Keeps]
  have hwired (t : State) : t.Keeps (if wiring then t.setBitAt (FCU_WIRE 0) src true else t) := .ite (by simp [State.Keeps]) (.refl t)
  have htold := (hseen.trans (hwired _)).trans (State.keeps_wake _ 1)
  unfold State.fcuTake
  refine .ite (.refl s) ?_
  dsimp only
  generalize State.wake _ 1 = t at htold ⊢
  refine htold.holds.trans (.ite ?_ ?_)
  · exact ((State.keeps_newRec t _ _ _ _ _).trans (State.keeps_fcuShow _)).holds
  · refine .trans ?_ (State.keeps_fcuShow _).holds
    cases t.fcu.windows with
    | cons w l => exact t.holds_merge w src _ _ _
    | nil => exact t.holds_fault _ src info _ _ wiring

theorem State.holds_fcuRaise (src info : Nat) (wiring : Bool) : s.Holds (s.fcuRaise src info wiring) :=
  .ite (.refl s) (s.holds_fcuTake src info wiring)

end Reactions

/-! ### The transitions that settling starts -/

/-- From `s` to `t` the commanded requests are the same, and the transition in progress is `n`. -/
def State.Starts (s t : State) (n : Nat) : Prop := asked t.modeq = asked s.modeq ∧ ∃ x, t.trans = some x ∧ x.num = n

theorem State.Starts.stays {s t u : State} {n : Nat} (h : s.Starts t n) (h1 : t.Stays u) : s.Starts u n :=
  ⟨h1.2.2.trans h.1, h1.2.1 ▸ h.2⟩
theorem State.Starts.after {s t u : State} {n : Nat} (h : t.Starts u n) (h1 : asked t.modeq = asked s.modeq) : s.Starts u n :=
  ⟨h.1.trans h1, h.2⟩

section Transitions

variable (s : State)

theorem State.starts_setTrans (n t c : Nat) : s.Starts (s.setTrans n t c) n := ⟨rfl, _, rfl, rfl⟩

/-- The channels and doorbells empty, no transaction open, the bank groups ready. -/
theorem State.stays_resetUnits : s.Stays ((List.range 12).foldl (fun s g => if s.sgOff g then s.sgPowerOn g else s.setSg g true false)
    ((List.range 21).foldl (fun s m => s.setTxn m TxnCh.idle)
    ((List.range 23).foldl (fun s k => s.setReg (MBX_DB k) 0) ((List.range 96).foldl (fun s k => s.chanFlush k) s)))) := by
  have hbell (t : State) (k : Nat) : t.Stays (t.setReg (MBX_DB k) 0) := State.Keeps.stays (by simp [State.Keeps])
  have hgroup (t : State) (g : Nat) : t.Stays (if t.sgOff g then t.sgPowerOn g else t.setSg g true false) :=
    .ite (State.keeps_sgPowerOn t g).stays (State.keeps_setSg t g true false).stays
  refine .trans ?_ (State.stays_foldl hgroup _ _)
  refine .trans ?_ (State.stays_foldl (fun t m => (State.keeps_setTxn t m TxnCh.idle).stays) _ _)
  refine .trans ?_ (State.stays_foldl hbell _ _)
  exact State.stays_foldl (fun t k => (State.keeps_chanFlush t k).stays) s _

/-- A warm reset shows its cause and disarms the collector. -/
theorem State.stays_resetShown (c : Nat) : s.Stays ((s.setCause c).setFlag FCU_CTRL_ARMED false).fcuShow.safWarm := by
  have hcause : s.Stays (s.setCause c) := ⟨s.fld_setReg_ne SYS_MODE_CUR _ (show SYS_MODE ≠ SYS_RSTCAUSE by decide), rfl, rfl⟩
  generalize s.setCause c = t at hcause ⊢
  have hkeeps : t.Keeps (t.setFlag FCU_CTRL_ARMED false).fcuShow.safWarm :=
    ((t.keeps_setFld FCU_CTRL_ARMED _ (by decide)).trans (State.keeps_fcuShow _)).trans (State.keeps_safWarm _)
  exact hcause.trans hkeeps.stays

theorem State.starts_warmReset (c : Nat) : s.Starts (s.warmReset c) 21 := by
  have hstart (t : State) (h : t.modeq = s.modeq) : s.Starts (((t.setReg PWR_DOMSTAT 0x15#32).phyClocks).setTrans 21 modeBOOT 8) 21 := by
    have hclocks : asked (t.setReg PWR_DOMSTAT 0x15#32).phyClocks.modeq = asked s.modeq :=
      (State.keeps_phyClocks (t.setReg PWR_DOMSTAT 0x15#32)).spares.requests.trans (congrArg asked h)
    exact (State.starts_setTrans _ 21 modeBOOT 8).after hclocks
  unfold State.warmReset
  dsimp only
  refine .stays ?_ (State.stays_resetShown _ c)
  refine .stays ?_ (State.stays_resetUnits _)
  exact hstart _ rfl

/-- The commanded requests outlast a transition's own action. -/
theorem State.starts_modeAction {t : State} {n k : Nat} (h : s.Starts t k) : s.Starts (t.modeAction n) k := by
  unfold State.modeAction
  split
  · exact h
  split
  · exact h
  split
  · exact h.stays (State.Stays.ite (State.keeps_lineSpeed t 0).stays (State.Keeps.refl t).stays)
  split
  · exact h
  split
  · exact h.stays t.stays_unhold
  split
  · exact h.stays (State.keeps_voteOpen t).stays
  · exact h

theorem State.starts_modeStart (n t c : Nat) : s.Starts (s.modeStart n t c) n := by
  unfold State.modeStart
  split
  · next hn =>
    subst hn
    exact (State.starts_warmReset _ t).after (State.spares_txnModeChange s).requests
  · exact State.starts_modeAction s ((s.starts_setTrans n t c).stays (State.spares_txnModeChange _).stays)

theorem State.asked_voteAbort (res blk rsn code : Nat) : asked (s.voteAbort res blk rsn code).modeq = asked s.modeq := by
  have hanswer (t : State) (o : Option Owed) (da db : Nat) (pl : List Byte) : asked ((t.raise 10).fwPay o code da db pl).modeq = asked t.modeq :=
    (State.keeps_fwPay (t.raise 10) o code da db pl).spares.requests
  have hcells (t : State) (p : Prop) [Decidable p] : asked (if p then t.nutResume else t).modeq = asked t.modeq :=
    (State.Keeps.ite (State.keeps_nutResume t) (.refl t)).spares.requests
  unfold State.voteAbort
  dsimp only
  rw [hanswer, hcells]
  split <;> rfl

theorem State.asked_modeRequest (n t c : Nat) : asked (s.modeRequest n t c).modeq = asked s.modeq := by
  unfold State.modeRequest
  split
  · split
    · exact (s.starts_modeStart n t c).1
    · rfl
  · split
    · rfl
    split
    · split
      · dsimp only
        split
        · exact (State.starts_modeStart _ n t c).1.trans (s.asked_voteAbort 4 0 0 0x8052)
        · exact s.asked_voteAbort 4 0 0 0x8052
      · rfl
    split
    · rfl
    split
    · exact (s.starts_modeStart n t c).1
    · rfl

end Transitions

/-! ### Settling -/

/-- What every round of settling keeps, settling keeps. -/
theorem State.settleN_induct {P : State → Prop}
    (hraise : ∀ (s : State) r l, s.raises = r :: l → P s → P ({ s with raises := l }.fcuRaise r.1 r.2.1 r.2.2))
    (hrequest : ∀ (s : State) m l, s.modeq = m :: l → P s → P ({ s with modeq := l }.modeRequest m.1 m.2.1 m.2.2))
    (n : Nat) {s : State} (h : P s) : P (State.settleN n s) := by
  induction n generalizing s with
  | zero => exact h
  | succ n ih =>
    unfold State.settleN
    split
    · next r l hr => exact ih (hraise s r l hr h)
    · split
      · next m l hm => exact ih (hrequest s m l hm h)
      · exact h

theorem State.keeps_resetDue (s : State) : s.Keeps s.resetDue := by
  unfold State.resetDue
  split
  · exact .ite ⟨rfl, rfl, rfl, rfl, asked_append s.modeq _ rfl, rfl⟩ (.refl s)
  · exact .refl s

end Sys2Proof.Machine

/-! The protocol instances' events: a refutation (R311, R369). -/

namespace Sys2Proof.Machine

open Sys2Proof

/-! ### A commanded request stays at the front until it is served -/

theorem asked_none_iff (q : List (Nat × Nat × Nat)) : asked q = ([], []) ↔ q.filter commanded = [] := by
  refine ⟨fun h => congrArg Prod.fst h, fun h => ?_⟩
  have hfront : q.takeWhile commanded = [] := by
    cases q with
    | nil => rfl
    | cons x t =>
      have hx : ¬ commanded x = true := fun hx => by simp [hx] at h
      simp [hx]
  rw [asked, h, hfront]

/-- The requests are `e` with none commanded after it, or none is commanded. -/
def FrontOrNone (e : Nat × Nat × Nat) (q : List (Nat × Nat × Nat)) : Prop := asked q = ([e], [e]) ∨ asked q = ([], [])

theorem FrontOrNone.tail {e m : Nat × Nat × Nat} {q : List (Nat × Nat × Nat)} (h : FrontOrNone e (m :: q)) : FrontOrNone e q := by
  refine .inr ((asked_none_iff q).mpr ?_)
  rcases h with hfront | hnone
  · by_cases hm : commanded m = true
    · simp only [asked, List.filter_cons_of_pos hm, Prod.mk.injEq, List.cons.injEq] at hfront
      exact hfront.1.2
    · simp [asked, hm] at hfront
  · have hall := (asked_none_iff _).mp hnone
    by_cases hm : commanded m = true
    · simp [hm] at hall
    · simpa [hm] using hall

theorem FrontOrNone.of_asked {e : Nat × Nat × Nat} {q q1 : List (Nat × Nat × Nat)} (h : FrontOrNone e q) (hasked : asked q1 = asked q) :
    FrontOrNone e q1 := by
  rw [FrontOrNone, hasked]
  exact h

/-- No round of settling puts a commanded request behind another. -/
theorem State.frontOrNone_settle {e : Nat × Nat × Nat} {s : State} (h : FrontOrNone e s.modeq) : FrontOrNone e s.settle.modeq := by
  have hdue : FrontOrNone e s.resetDue.modeq := h.of_asked s.keeps_resetDue.spares.requests
  have hsettled : FrontOrNone e (State.settleN 4096 s.resetDue).modeq := by
    refine State.settleN_induct (P := fun t => FrontOrNone e t.modeq) (fun t r l _ ht => ?_) (fun t m l hm ht => ?_) 4096 hdue
    · exact ht.of_asked (State.holds_fcuRaise { t with raises := l } r.1 r.2.1 r.2.2).requests
    · exact (hm ▸ ht).tail.of_asked (State.asked_modeRequest { t with modeq := l } m.1 m.2.1 m.2.2)
  exact hsettled.of_asked (State.keeps_fwDrain _).spares.requests

/-! ### The answer that wakes -/

/-- OPERATIONAL, in a vote, with protocol 2 in cyclic exchange, a transaction of channel 2 armed at it whose answer is owed, and settling all taken
up by raises that the collector does not take. -/
def lossRig : State :=
  let s := (Tests.rigIn modeOPERATIONAL).setInst 2 (some { Tests.instRig with st := 3 })
  let s := s.setTxn 2 { TxnCh.idle with armed := some ⟨1, 1, 2, 0, 0, false, [], false, some ⟨2, Tests.fwMsg 0x0203 []⟩, []⟩ }
  { s with pwr := { s.pwr with vote := some [] }, raises := List.replicate 4096 (512, 0, false) }

/-- What the lost exchange does in `lossRig`, before it settles: the answer wakes before transition 10 is asked for. -/
theorem lossRig_done : asked (lossRig.protLoss 2).modeq = ([(10, modeSAFEOP, 0x0B)], []) ∧
    (lossRig.protLoss 2).raises.length = 4097 ∧ ((lossRig.protLoss 2).raises.take 4096).all (· == (512, 0, false)) = true := by decide +kernel

theorem eq_ignored_append {l : List (Nat × Nat × Bool)} (hlen : 4096 ≤ l.length) (hall : (l.take 4096).all (· == (512, 0, false)) = true) :
    l = List.replicate 4096 (512, 0, false) ++ l.drop 4096 := by
  have htake : l.take 4096 = List.replicate 4096 (512, 0, false) :=
    List.eq_replicate_iff.mpr ⟨List.length_take_of_le hlen, fun r hr => by simpa using List.all_eq_true.mp hall r hr⟩
  rw [← htake, List.take_append_drop]

/-- Where ignored raises take up all of settling, it starts no transition and serves no request. -/
theorem State.keeps_settle_of_ignored (s : State) (l : List (Nat × Nat × Bool))
    (h : s.raises = List.replicate 4096 (512, 0, false) ++ l) : s.Keeps s.settle := by
  have hdrain := State.keeps_fwDrain { s.resetDue with raises := l }
  rw [State.settle, State.settleN_ignored_append _ _ l (s.resetDue_frame.2.trans h)]
  exact s.keeps_resetDue.trans hdrain

/-- Refutes O29: the answer that a lost exchange owes an armed transaction wakes the device in a vote (R311), so that the request of
transition 18 stands before that of transition 10. -/
theorem not_protocolInstanceEvents : ¬ Obligations.ProtocolInstanceEvents := by
  unfold Obligations.ProtocolInstanceEvents
  rintro ⟨-, hloss, -⟩
  obtain ⟨u, hu, -, hmodeq, -⟩ := hloss 2 { Tests.instRig with st := 3 } lossRig (by decide +kernel) (by decide +kernel) (by decide +kernel)
  have hsettled : (lossRig.protLoss 2).settle = u.settle := Host.Outcome.next.inj hu
  obtain ⟨hasked, hlen, hall⟩ := lossRig_done
  have hkeeps := State.keeps_settle_of_ignored _ _ (eq_ignored_append (by omega) hall)
  have hfront : FrontOrNone (10, modeSAFEOP, 0x0B) u.modeq := by
    rw [hmodeq]
    exact .inl (by decide +kernel)
  have hend := State.frontOrNone_settle hfront
  rw [← hsettled, FrontOrNone, hkeeps.spares.requests, hasked] at hend
  exact absurd hend (by decide)

end Sys2Proof.Machine

/-! The commit of a low-power mode: a refutation (R30, R286, R313). -/

namespace Sys2Proof.Machine

open Sys2Proof

/-! ### A sleeping device keeps its domains until a transition starts -/

/-- No commanded request waits, and a transition other than into sleep is in progress, or none is, the device sleeps and keeps Cardamom's
domain in retention. -/
def State.SleepsOn (s : State) : Prop := asked s.modeq = ([], []) ∧
  ((∃ x, s.trans = some x ∧ x.num ≠ 16 ∧ x.num ≠ 17) ∨ (s.trans = none ∧ s.asleep = true ∧ s.domSt 9 = 2))

theorem State.SleepsOn.of_holds {s t : State} (h : s.SleepsOn) (hholds : s.Holds t) : t.SleepsOn := by
  obtain ⟨hasked, hstate⟩ := h
  obtain ⟨⟨hstays, -⟩, hdom⟩ := hholds
  refine ⟨hstays.2.2.trans hasked, hstate.imp (fun hsome => hstays.2.1 ▸ hsome) ?_⟩
  rintro ⟨hnone, hasleep, hret⟩
  refine ⟨hstays.2.1.trans hnone, hstays.asleep.trans hasleep, ?_⟩
  rw [State.domSt, hdom hasleep]
  exact hret

/-- A request that a fault, a wake event or a reset makes starts its transition or leaves the one in progress. -/
theorem State.SleepsOn.modeRequest {s : State} (h : s.SleepsOn) {n : Nat} (hn : n ≠ 16 ∧ n ≠ 17) (t c : Nat) :
    (s.modeRequest n t c).SleepsOn := by
  refine ⟨(s.asked_modeRequest n t c).trans h.1, ?_⟩
  have hstart : ∃ x, (s.modeStart n t c).trans = some x ∧ x.num ≠ 16 ∧ x.num ≠ 17 := by
    obtain ⟨-, x, hx, hnum⟩ := s.starts_modeStart n t c
    exact ⟨x, hx, hnum ▸ hn⟩
  rcases h.2 with ⟨x, hx, h16, h17⟩ | ⟨hnone, hasleep⟩
  · left
    simp only [State.modeRequest, hx, h16, h17, false_or, false_and, if_false]
    split
    · exact ⟨x, hx, h16, h17⟩
    · split
      · exact hstart
      · exact ⟨x, rfl, h16, h17⟩
  · simp only [State.modeRequest, hnone]
    split
    · exact .inl hstart
    · exact .inr ⟨hnone, hasleep⟩

/-- Settling wakes a sleeping device by a transition alone. -/
theorem State.SleepsOn.settle {s : State} (h : s.SleepsOn) : s.settle.SleepsOn := by
  have hdue : s.resetDue.SleepsOn := h.of_holds s.keeps_resetDue.holds
  have hsettled : (State.settleN 4096 s.resetDue).SleepsOn := by
    refine State.settleN_induct (P := State.SleepsOn) (fun t r l _ ht => ?_) (fun t m l hm ht => ?_) 4096 hdue
    · exact State.SleepsOn.of_holds (s := { t with raises := l }) ht (State.holds_fcuRaise _ r.1 r.2.1 r.2.2)
    · obtain ⟨hasked, hstate⟩ := ht
      have hnone : (m :: l).filter commanded = [] := hm ▸ (asked_none_iff _).mp hasked
      have hfirst : ¬ commanded m = true := fun hc => by simp [hc] at hnone
      have hrest : asked l = ([], []) := (asked_none_iff l).mpr (by simpa [hfirst] using hnone)
      have hnum : m.1 ≠ 16 ∧ m.1 ≠ 17 := by
        refine ⟨fun h16 => hfirst ?_, fun h17 => hfirst ?_⟩
        · simp [commanded, h16]
        · simp [commanded, h17]
      exact State.SleepsOn.modeRequest (s := { t with modeq := l }) ⟨hrest, hstate⟩ hnum m.2.1 m.2.2
  exact hsettled.of_holds (State.keeps_fwDrain _).holds

theorem State.Spares.domSt {s t : State} (h : s.Spares t) (d : Nat) : t.domSt d = s.domSt d := by
  rw [State.domSt, State.domSt, h.domains]

/-! ### A fault forced by the settings that firmware asserts again -/

/-- PREOP, the vote for RETAIN committed, firmware to force a Cardamom fault of class 3 with reaction 3, and settling all taken up by raises
that the collector does not take. -/
def lowRig : State :=
  let s := Tests.rig.setReg (FCU_SRCCFG 176) 0x33#32
  { s with trans := some ⟨16, modeRETAIN, 3, 4⟩, fw := { FwSt.reset with running := true, cfg := [(FCU_FORCE 5, some 0x10000#32)] },
           pwr := { s.pwr with vote := some [], committed := true }, raises := List.replicate 4096 (512, 0, false) }

/-- What the commit does in `lowRig`, before it settles: the reaction has switched Cardamom's domain off. -/
theorem lowRig_done : lowRig.lowCommit.domSt 9 = 0 ∧ lowRig.lowCommit.trans = none ∧ lowRig.lowCommit.raises.length = 4096 ∧
    (lowRig.lowCommit.raises.take 4096).all (· == (512, 0, false)) = true := by decide +kernel

/-- Refutes O41: a fault that the settings asserted again force acts before the device sleeps, so a domain that was on at the commit may be
off after it (R286), not in retention. -/
theorem not_lowPowerCommands : ¬ Obligations.LowPowerCommands := by
  unfold Obligations.LowPowerCommands
  rintro ⟨-, -, -, -, -, -, -, -, -, -, -, -, -, -, -, -, -, -, hcommit, -⟩
  obtain ⟨u, hu, hmode, -, -, htrans, -, -, -, hmodeq, -, hdoms, -⟩ := hcommit ⟨16, modeRETAIN, 3, 4⟩ lowRig (by decide +kernel)
  have hsettled : lowRig.lowCommit.settle = u.settle := Host.Outcome.next.inj hu
  obtain ⟨hoff, hnone, hlen, hall⟩ := lowRig_done
  have hkeeps := State.keeps_settle_of_ignored _ _ (eq_ignored_append (by omega) hall)
  have hret : u.domSt 9 = 2 := hdoms 9 (by decide) (by decide +kernel)
  have hasleep : u.asleep = true := by rw [State.asleep, hmode]; rfl
  have hquiet : asked u.modeq = ([], []) := by rw [hmodeq]; decide +kernel
  obtain ⟨-, hstate⟩ := State.SleepsOn.settle (s := u) ⟨hquiet, .inr ⟨htrans, hasleep, hret⟩⟩
  rw [← hsettled, hkeeps.spares.transition, hnone, hkeeps.spares.domSt, hoff] at hstate
  simp at hstate

end Sys2Proof.Machine

/-! The loss of VIN: a refutation (R315, R320, R321). -/

namespace Sys2Proof.Machine

open Sys2Proof

/-! ### In HOLDUP settling writes no memory -/

/-- From HOLDUP no transition is listed (R26). -/
theorem listed_holdup (n : Nat) : listed n modeHOLDUP = false := by
  unfold listed
  split
  · rfl
  · refine (Option.any_eq_false _ _).mpr (fun e hfound => ?_)
    have hlisted : ∀ e ∈ [(6, [4, 7]), (7, [3]), (8, [4]), (9, [6]), (10, [5]), (11, [6, 5]), (12, [4, 6, 5, 8]), (13, [4, 6, 5]), (14, [8]),
        (15, [7]), (16, [4, 7]), (17, [4, 7]), ((18 : Nat), [(10 : Nat), 9])], e.2.contains modeHOLDUP = false := by decide
    exact hlisted e (List.mem_of_find?_eq_some hfound)

/-- A request of a transition changes nothing in HOLDUP outside any. -/
theorem State.modeRequest_holdup {s : State} (hmode : s.mode = modeHOLDUP) (htrans : s.trans = none) (n x c : Nat) : s.modeRequest n x c = s := by
  have hlisted : listed n s.mode = false := by rw [hmode, listed_holdup]
  simp [State.modeRequest, htrans, hlisted]

/-- The device is in HOLDUP with no transition, and its memories hold `m`. -/
def State.HeldUp (s : State) (m : List Host.Cell) : Prop := s.mode = modeHOLDUP ∧ s.trans = none ∧ s.mem = m

theorem State.HeldUp.of_keeps {s t : State} {m : List Host.Cell} (h : s.HeldUp m) (hkeeps : s.Keeps t) : t.HeldUp m := by
  obtain ⟨hmode, htrans, hmem⟩ := h
  exact ⟨hkeeps.spares.mode.trans hmode, hkeeps.spares.transition.trans htrans, hkeeps.memory.trans hmem⟩

theorem State.HeldUp.settle {s : State} {m : List Host.Cell} (h : s.HeldUp m) : s.settle.HeldUp m := by
  have hsettled : (State.settleN 4096 s.resetDue).HeldUp m := by
    refine State.settleN_induct (P := fun t => t.HeldUp m) (fun t r l _ ht => ?_) (fun t e l _ ht => ?_) 4096 (h.of_keeps s.keeps_resetDue)
    · obtain ⟨hmode, htrans, hmem⟩ := ht
      obtain ⟨⟨⟨hmode1, htrans1, -⟩, hmem1⟩, -⟩ := State.holds_fcuRaise { t with raises := l } r.1 r.2.1 r.2.2
      exact ⟨hmode1.trans hmode, htrans1.trans htrans, hmem1.trans hmem⟩
    · obtain ⟨hmode, htrans, hmem⟩ := ht
      have hstay := State.modeRequest_holdup (s := { t with modeq := l }) hmode htrans e.1 e.2.1 e.2.2
      rw [hstay]
      exact ⟨hmode, htrans, hmem⟩
  exact hsettled.of_keeps (State.keeps_fwDrain _)

/-! ### The bytes of a run written as a block -/

theorem storeGet_append_of_not_mem {α : Type} (d : Nat → α) {l : List (Nat × α)} (l1 : List (Nat × α)) {k : Nat} (h : ∀ e ∈ l, e.1 ≠ k) :
    storeGet d (l ++ l1) k = storeGet d l1 k := by
  induction l with
  | nil => rfl
  | cons e l ih =>
    have hne : k ≠ e.1 := (h e List.mem_cons_self).symm
    rw [List.cons_append, storeGet, if_neg hne]
    exact ih (fun x hx => h x (List.mem_cons_of_mem e hx))

theorem storeGet_of_not_mem {α : Type} (d : Nat → α) {l : List (Nat × α)} {k : Nat} (h : ∀ e ∈ l, e.1 ≠ k) : storeGet d l k = d k := by
  simpa using storeGet_append_of_not_mem d [] h

theorem le_of_mem_cellsFrom {l : List Byte} {a : Nat} {e : Host.Cell} (h : e ∈ cellsFrom a l) : a ≤ e.1 := by
  induction l generalizing a with
  | nil => cases h
  | cons b l ih =>
    rcases List.mem_append.mp h with hcell | hrest
    · unfold storeCell at hcell
      split at hcell
      · cases hcell
      · rw [List.mem_singleton.mp hcell]
    · exact Nat.le_of_succ_le (ih hrest)

/-- A run of cells, above which stand others, reads as its bytes. -/
theorem storeGet_cellsFrom (l : List Byte) (a : Nat) (m : List Host.Cell) (hm : ∀ e ∈ m, a + l.length ≤ e.1) {i : Nat} (hi : i < l.length) :
    storeGet memReset (cellsFrom a l ++ m) (a + i) = l[i] := by
  induction l generalizing a i with
  | nil => cases hi
  | cons b l ih =>
    have hm1 : ∀ e ∈ m, a + 1 + l.length ≤ e.1 := fun e he => by
      have := hm e he
      rw [List.length_cons] at this
      omega
    have habove : ∀ e ∈ cellsFrom (a + 1) l ++ m, e.1 ≠ a := fun e he => by
      rcases List.mem_append.mp he with hrest | hout
      · have := le_of_mem_cellsFrom hrest
        omega
      · have := hm1 e hout
        omega
    rw [cellsFrom, List.append_assoc]
    cases i with
    | zero =>
      unfold storeCell
      split
      · next hb => simpa [hb] using storeGet_of_not_mem memReset habove
      · simp [storeGet]
    | succ i =>
      have hcell : ∀ e ∈ storeCell memReset a b, e.1 ≠ a + (i + 1) := fun e he => by
        unfold storeCell at he
        split at he
        · cases he
        · rw [List.mem_singleton.mp he]
          simp
      rw [storeGet_append_of_not_mem memReset _ hcell, show a + (i + 1) = a + 1 + i by omega]
      exact ih (a + 1) hm1 (Nat.lt_of_succ_lt_succ hi)

theorem State.byte_setBlock (s : State) (a : Nat) (l : List Byte) {i : Nat} (hi : i < l.length) : (s.setBlock a l).byte (a + i) = l[i] := by
  have hbelow : ∀ e ∈ s.mem.filter (fun e => decide (e.1 < a)), e.1 ≠ a + i := fun e he => by
    have := of_decide_eq_true (List.mem_filter.mp he).2
    omega
  have habove : ∀ e ∈ s.mem.filter (fun e => decide (a + l.length ≤ e.1)), a + l.length ≤ e.1 := fun e he =>
    of_decide_eq_true (List.mem_filter.mp he).2
  rw [State.byte, State.setBlock, List.append_assoc, storeGet_append_of_not_mem memReset _ hbelow]
  exact storeGet_cellsFrom l a _ habove hi

/-- A word within a block reads as it stands there. -/
theorem State.mem32_setBlock (s : State) (a v : Nat) {p l : List Byte} (h : p ++ leBytes 4 v <+: l) :
    (s.setBlock a l).mem32 (a + p.length) = v % 2 ^ 32 := by
  obtain ⟨r, rfl⟩ := h
  have hbytes : (s.setBlock a (p ++ leBytes 4 v ++ r)).bytes (a + p.length) 4 = leBytes 4 v := by
    refine List.ext_getElem (by rw [State.length_bytes, length_leBytes]) (fun i h1 h2 => ?_)
    have hi : p.length + i < (p ++ leBytes 4 v ++ r).length := by
      simp only [List.length_append]
      omega
    have hbyte := s.byte_setBlock a (p ++ leBytes 4 v ++ r) hi
    simp only [State.bytes_eq, List.getElem_map, List.getElem_range]
    rw [Nat.add_assoc, hbyte, List.getElem_append_left (by simp only [List.length_append]; omega),
      List.getElem_append_right (Nat.le_add_right _ _)]
    simp
  rw [State.mem32, hbytes, ofLe_leBytes, show 256 ^ 4 = 2 ^ 32 by norm_num]

/-! ### The sequence number of a record -/

/-- What begins a field of a record begins the record as far as that field reaches, with what follows it. -/
theorem isPrefix_padTo {l m : List Byte} {n : Nat} (h : l <+: m) (hn : l.length ≤ n) (r : List Byte) : l <+: padTo n m ++ r :=
  (List.prefix_take_iff.mpr ⟨h.trans (List.prefix_append _ _), hn⟩).trans (List.prefix_append _ r)

/-- A record begins with its magic word and its sequence number (R320). -/
theorem State.isPrefix_flaskBody (s : State) (slot seq : Nat) (mode cyc : Word) (vh0 vh1 ns : Nat) (r : List Byte) :
    leBytes 4 flaskMagic ++ leBytes 4 seq <+: s.flaskBody slot seq mode cyc vh0 vh1 ns ++ r := by
  have hlen : (leBytes 4 flaskMagic ++ leBytes 4 seq).length = 8 := by simp [length_leBytes]
  unfold State.flaskBody
  dsimp only
  iterate 6 refine isPrefix_padTo ?_ (hlen.trans_le (by decide)) _
  rw [List.append_assoc (padTo 0x40 _)]
  refine isPrefix_padTo ?_ (hlen.trans_le (by decide)) _
  simp only [List.append_assoc]
  simp

/-- The sequence number that the record of the next slot takes: one above that of the last slot written. -/
def State.nextSeq (s : State) : Nat := ((s.lastSlot.map (fun j => s.mem32 (slotAt j + 4) + 1)).getD 1) % 2 ^ 32

theorem State.mem32_of_mem {s t : State} (h : t.mem = s.mem) (a : Nat) : t.mem32 a = s.mem32 a := by
  simp only [State.mem32, State.bytes_eq, State.byte_eq h]

/-- The record is one block; what else its write does leaves the memories. -/
theorem State.flaskWrite_mem {s : State} {i : Nat} (h : s.nextSlot = some i) (mode cyc : Word) (vh0 vh1 ns : Nat) : ∃ r : List Byte,
    (s.flaskWrite mode cyc vh0 vh1 ns).mem = (s.setBlock (slotAt i) (s.flaskBody i s.nextSeq mode cyc vh0 vh1 ns ++ r)).mem := by
  refine ⟨leBytes 4 (crc32 (s.flaskBody i s.nextSeq mode cyc vh0 vh1 ns)).toNat ++ [0, 0, 0, 0], ?_⟩
  rw [State.flaskWrite, h, ← List.append_assoc]
  dsimp only
  split <;> rfl

theorem State.mem32_flaskWrite {s : State} {i : Nat} (h : s.nextSlot = some i) (mode cyc : Word) (vh0 vh1 ns : Nat) :
    (s.flaskWrite mode cyc vh0 vh1 ns).mem32 (slotAt i + 4) = s.nextSeq := by
  obtain ⟨r, hmem⟩ := State.flaskWrite_mem h mode cyc vh0 vh1 ns
  have hword := s.mem32_setBlock (slotAt i) s.nextSeq (s.isPrefix_flaskBody i s.nextSeq mode cyc vh0 vh1 ns r)
  rw [State.mem32_of_mem hmem, ← length_leBytes 4 flaskMagic, hword]
  exact Nat.mod_mod _ _

/-! ### The trip, cut at the record -/

/-- What a trip does before it writes the record: the units that lose their supply stop, and the loop engine ends the evaluation in
progress (R320). -/
def State.tripUnits (s : State) (vh1 : Nat) : State :=
  let s := ((s.setFld PWR_HOLDSTAT_VHOLD vh1).setTrans 19 modeHOLDUP 7).assertSrc 8
  let s := (List.range 12).foldl (fun s d => if s.domSt d = 2 then s.setDom2 d 1 else s) s
  let s := if s.asleep then (if s.sgOff 0 then s else s.setSg 0 true false).clocksUp else s
  let s := [3, 4, 5, 6, 8, 10].foldl (fun s d => s.domainOff d) (s.setDom2 11 0)
  let s := (s.react 0x0F 0).loopPrepare.takeRaises 64
  { s with pwr := { s.pwr with capture := true } }

/-- The mode registers after a trip (R26, R320). -/
def State.enterHoldup (s : State) (prev : Nat) : State :=
  let s := { s.setMode modeHOLDUP 7 with modeq := [] }
  { s.setFld SYS_MODE_PREV prev with pwr := { s.pwr with late := [], holdEn := true } }

/-- What a trip does after it has written the record: the loop domain and the SRAM groups go off, and the mode is HOLDUP. -/
def State.tripClose (s : State) (prev : Nat) : State :=
  ((List.range 11).foldl (fun s g => s.sgPowerOff (g + 1)) ((s.domainOff 9).setDom2 7 0)).enterHoldup prev

/-- A trip outside sleep, any vote and BOOT. -/
theorem State.vinTrip_eq {s : State} (hlisted : listed 19 s.mode = true) (hawake : s.pwr.committed = false) (hvote : s.pwr.vote = none)
    (hboot : s.mode ≠ modeBOOT) (vh0 vh1 ns : Nat) : s.vinTrip vh0 vh1 ns =
      ((s.tripUnits vh1).flaskWrite (s.reg SYS_MODE) s.cyc0 vh0 vh1 ns).tripClose (s.setFld PWR_HOLDSTAT_VHOLD vh1).mode := by
  have hsave : (s.mode != modeBOOT) = true := by simpa using hboot
  simp only [State.vinTrip, hlisted, hawake, hvote, hsave, Bool.not_true, Bool.false_eq_true, Option.isSome_none, if_false, if_true]
  rfl

/-- A group of the SRAM that goes off loses the bytes of the SRAM alone. -/
theorem State.byte_sgPowerOff (s : State) {g a : Nat} (hg : g < 12) (ha : 0x30000000 ≤ a) : (s.sgPowerOff g).byte a = s.byte a := by
  have hkept := storeGet_filter memReset s.mem (fun x => decide (x < 0x20000000 + g * 0x100000) || decide (0x20100000 + g * 0x100000 ≤ x)) a
  have habove : 0x20100000 + g * 0x100000 ≤ a := by omega
  simp only [habove, decide_true, Bool.or_true, if_true] at hkept
  exact hkept

/-- The loop domain goes off without touching a memory. -/
theorem State.mem_domainOff_loop (s : State) : (s.domainOff 9).mem = s.mem := by
  unfold State.domainOff
  split
  · rfl
  · rfl

theorem State.byte_sgPowerOffs (s : State) {l : List Nat} (hl : ∀ g ∈ l, g < 11) {a : Nat} (ha : 0x30000000 ≤ a) :
    (l.foldl (fun s g => s.sgPowerOff (g + 1)) s).byte a = s.byte a := by
  induction l generalizing s with
  | nil => rfl
  | cons g l ih =>
    have hg : g + 1 < 12 := Nat.succ_lt_succ (hl g List.mem_cons_self)
    rw [List.foldl_cons, ih (s.sgPowerOff (g + 1)) (fun x hx => hl x (List.mem_cons_of_mem g hx)), s.byte_sgPowerOff hg ha]

theorem State.mem_enterHoldup (s : State) (prev : Nat) : (s.enterHoldup prev).mem = s.mem := rfl

theorem State.byte_tripClose (s : State) (prev : Nat) {a : Nat} (ha : 0x30000000 ≤ a) : (s.tripClose prev).byte a = s.byte a := by
  have hgroups : ∀ g ∈ List.range 11, g < 11 := fun g hg => List.mem_range.mp hg
  rw [State.tripClose, State.byte_eq (State.mem_enterHoldup _ prev), State.byte_sgPowerOffs _ hgroups ha, State.setDom2, State.byte_setReg,
    State.byte_eq s.mem_domainOff_loop]

/-- The closing of a trip leaves the words of MRAM. -/
theorem State.mem32_tripClose (s : State) (prev : Nat) {a : Nat} (ha : 0x30000000 ≤ a) : (s.tripClose prev).mem32 a = s.mem32 a := by
  simp only [State.mem32, State.bytes_eq]
  congr 1
  exact List.map_congr_left (fun i _ => s.byte_tripClose prev (Nat.le_add_right_of_le ha))

/-! ### The captured word -/

/-- OPERATIONAL, with context 5 in evaluation and the capture of its values at the word of the slot that the wear list names as the last
written: slot 16346, whose word of the sequence number is at 0x80008004 of Hamper. -/
def tripRig : State :=
  let s := ((Tests.loopRig.setReg MEM_STAT 0xFFF#32).setReg LOOP_STAT 0x80000000#32).setFlag (LOOP_CTX_CTRL_EN 5) true
  let s := (s.setFld LOOP_TSG_CTRL_CTX 9).setFld LOOP_CAP_CTRL_CTX 5
  let s := (s.setReg LOOP_CAP_BASE 0x80#32).setReg LOOP_CAP_LEN 0x100#32
  { s with
    loop := { s.loop with run := some (5, Tests.latch0, false), capOn := true }
    fcu := { s.fcu with cond := [(8, true)] }
    saf := { s.saf with latched := true }
    pwr := { s.pwr with wear := [(16346, 1)] } }

/-- The trip's evaluation end captures its values over the word from which the record's sequence number is counted. -/
theorem tripRig_units : (tripRig.tripUnits 0).nextSlot = some 27 ∧ (tripRig.tripUnits 0).nextSeq = 0xA0000001 := by decide +kernel

/-- Before the trip that word is 0. -/
theorem tripRig_seq : tripRig.nextSlot = some 27 ∧ tripRig.nextSeq = 1 := by decide +kernel

/-- The trip of `tripRig` leaves nothing to settle. -/
theorem tripRig_calm : (tripRig.vinTrip 0 0 0).Calm := by decide +kernel

theorem tripRig_word : (tripRig.vinTrip 0 0 0).mem32 (slotAt 27 + 4) = 0xA0000001 := by
  have hlisted : listed 19 tripRig.mode = true := by decide +kernel
  have hawake : tripRig.pwr.committed = false := by decide +kernel
  have hvote : tripRig.pwr.vote = none := by decide +kernel
  have hboot : tripRig.mode ≠ modeBOOT := by decide +kernel
  obtain ⟨hslot, hseq⟩ := tripRig_units
  rw [State.vinTrip_eq hlisted hawake hvote hboot, State.mem32_tripClose _ _ (by decide), State.mem32_flaskWrite hslot, hseq]

/-- Refutes O42: the record's sequence number counts from the word of the last slot as it stands after the trip has ended the loop's
evaluation, whose capture may write that word (R320). -/
theorem not_supplyLossCommands : ¬ Obligations.SupplyLossCommands := by
  unfold Obligations.SupplyLossCommands
  rintro ⟨-, -, htrip, -⟩
  obtain ⟨u, hu, hmode, -, -, -, htrans, -, -, -, -, -, -, -, -, hword, -⟩ :=
    htrip 0 0 0 27 tripRig (by decide +kernel) (by decide +kernel) tripRig_seq.1
  have hsettled : (tripRig.vinTrip 0 0 0).settle = u.settle := Host.Outcome.next.inj hu
  have hheld : u.HeldUp u.mem := ⟨hmode, htrans, rfl⟩
  obtain ⟨-, -, hmem⟩ := hheld.settle
  have hsame : (tripRig.vinTrip 0 0 0).mem32 (slotAt 27 + 4) = u.mem32 (slotAt 27 + 4) := by
    rw [← State.mem32_of_mem hmem, ← hsettled, State.settle_of_calm _ tripRig_calm]
  rw [tripRig_word, hword] at hsame
  exact absurd (hsame.trans tripRig_seq.2) (by decide)

end Sys2Proof.Machine

/-! The ports' modes and links: a refutation (R80, R81). -/

namespace Sys2Proof.Machine

open Sys2Proof

/-! ### Firmware's notices write no register of a port -/

section Notices

variable {a : Nat} (ha : 0x40800000 ≤ a ∧ a < 0x408C0000) (s : State)
include ha

theorem State.reg_port_wake (i : Nat) : (s.wake i).reg a = s.reg a := by
  unfold State.wake
  split
  · exact s.reg_setReg_ne _ (by simp only [PWR_WAKE]; omega)
  · rfl

theorem State.reg_port_showHead (m : List Byte) : (s.showHead 4 m).reg a = s.reg a := by
  refine List.foldlRecOn (motive := fun (t : State) => t.reg a = s.reg a) _ _ rfl (fun t ht w hw => ?_)
  have hlt := List.mem_range.mp hw
  exact (t.reg_setRegN_ne _ (by simp only [MBX_CH_HEAD]; omega)).trans ht

theorem State.reg_port_setChan (ms : List (List Byte)) : (s.setChan 4 ms).reg a = s.reg a := by
  have hhost : chanReceiver 4 = 0 := rfl
  have hcount : a ≠ (MBX_CH_STAT_COUNT 4).addr := by simp only [MBX_CH_STAT_COUNT, MBX_CH_STAT]; omega
  have hpend : a ≠ HOST_MBPEND 0 + 4 * (4 / 32) := by simp only [HOST_MBPEND]; omega
  unfold State.setChan State.setBitAt
  dsimp only
  rw [if_pos hhost, State.reg_setReg_ne _ _ hpend, State.reg_port_showHead ha, State.reg_setFld_ne _ _ _ hcount]
  exact State.reg_eq rfl a

theorem State.reg_port_chanPush (m : List Byte) : (s.chanPush 4 m).reg a = s.reg a := by
  have hsent : a ≠ MBX_CH_SENT 4 := by simp only [MBX_CH_SENT]; omega
  have hpush : (((s.setChan 4 (s.chan 4 ++ [stampMsg 4 m])).count (MBX_CH_SENT 4) 1).wake 0).reg a = s.reg a := by
    rw [State.reg_port_wake ha, State.reg_count_ne _ _ hsent, State.reg_port_setChan ha]
  unfold State.chanPush
  dsimp only
  generalize State.wake _ 0 = t at hpush ⊢
  split <;> exact hpush

theorem State.reg_port_fwDrainN (k : Nat) : (s.fwDrainN k).reg a = s.reg a := by
  induction k generalizing s with
  | zero => rfl
  | succ k ih =>
    unfold State.fwDrainN
    split
    · rfl
    · split
      · rfl
      · rw [ih, State.reg_port_chanPush ha]
        rfl

/-- Where ignored raises take up all of settling, the registers of the ports stay. -/
theorem State.reg_port_settle_of_ignored (l : List (Nat × Nat × Bool)) (h : s.raises = List.replicate 4096 (512, 0, false) ++ l) :
    s.settle.reg a = s.reg a := by
  have hdue : s.resetDue.reg a = s.reg a := by
    unfold State.resetDue
    split
    · split <;> rfl
    · rfl
  rw [State.settle, State.settleN_ignored_append _ _ l (s.resetDue_frame.2.trans h), State.fwDrain, State.reg_port_fwDrainN ha]
  exact hdue

end Notices

/-! ### A frame in fragments -/

/-- Port 1 with its link up, nothing in transmission and no express frame entering, while a preempted frame arrives in fragments (R80), and
settling all taken up by raises that the collector does not take. -/
def fragmentRig : State :=
  let s := Tests.rig.setFlag (MAC_STAT_LINK 1) true
  { s.setRx (rxKey 1 true) (some (s.ingrNew 1 0 0)) with raises := List.replicate 4096 (512, 0, false) }

/-- The loss of the link counts the frame that it cuts off in RX_SYMERR (R81), before it settles. -/
theorem fragmentRig_counts : (fragmentRig.inDom 7 (fun s => s.linkLost 1)).reg (macCnt 1 20) = 1 ∧
    (fragmentRig.inDom 7 (fun s => s.linkLost 1)).raises.length = 4097 ∧
    ((fragmentRig.inDom 7 (fun s => s.linkLost 1)).raises.take 4096).all (· == (512, 0, false)) = true := by decide +kernel

/-- Refutes O12: a link that goes down while a preempted frame arrives in fragments counts that frame in RX_SYMERR (R80, R81), which is not
among the registers that the statement lets change. -/
theorem not_macLinkCommands : ¬ Obligations.MacLinkCommands := by
  unfold Obligations.MacLinkCommands
  rintro ⟨-, -, -, -, -, -, hdown, -⟩
  obtain ⟨u, hu, ⟨hreg, -, -, hraises⟩, -⟩ := hdown 1 fragmentRig (by decide +kernel) (by decide +kernel) (by decide +kernel)
    (by decide +kernel) (by decide +kernel)
  have hsettled : (fragmentRig.inDom 7 (fun s => s.linkLost 1)).settle = u.settle := Host.Outcome.next.inj hu
  obtain ⟨hcount, hlen, hall⟩ := fragmentRig_counts
  have hport : 0x40800000 ≤ macCnt 1 20 ∧ macCnt 1 20 < 0x408C0000 := by decide
  have hkept : u.reg (macCnt 1 20) = 0 := (hreg (macCnt 1 20) (by decide)).trans (by decide +kernel)
  have hsame := congrArg (fun t => t.reg (macCnt 1 20)) hsettled
  rw [State.reg_port_settle_of_ignored hport _ _ (eq_ignored_append (by omega) hall), hcount,
    State.reg_port_settle_of_ignored hport u _ hraises, hkept] at hsame
  exact absurd hsame (by decide)

end Sys2Proof.Machine

/-! Proofs about the frames of the MACs (chapters 3 and 4): counters, holds, flow control and timestamps. -/

namespace Sys2Proof.Machine

open Sys2Proof

/-! ### Events inside a block -/

theorem State.inBlk_of_runs {s : State} {d : Nat} {b : Blk} (h : s.runs d b = true) (f : State → State) : s.inBlk d b f = f s := if_pos h
theorem State.inDom_of_on {s : State} {d : Nat} (h : s.domOn d = true) (f : State → State) : s.inDom d f = f s := if_pos h

/-! ### One bit of a register -/

theorem State.flag_eq_bitAt (s : State) (a : Nat) {k : Nat} (hk : k < 32) : s.flag ⟨a, k, k⟩ = s.bitAt a k := by
  have hword : k / 32 = 0 := Nat.div_eq_of_lt hk
  have hplace : k % 32 = k := Nat.mod_eq_of_lt hk
  simp [State.flag, State.fld, State.bitAt, State.regN, bits, hword, hplace, Nat.testBit, Nat.one_and_eq_mod_two, bne, beq_eq_decide]
theorem State.setBitAt_eq_setFlag (s : State) (a : Nat) {k : Nat} (hk : k < 32) (b : Bool) : s.setBitAt a k b = s.setFlag ⟨a, k, k⟩ b := by
  simp [State.setBitAt, State.setFlag, State.setFld, Nat.div_eq_of_lt hk, Nat.mod_eq_of_lt hk]
theorem State.bitAt_setBitAt (s : State) (a : Nat) {k c : Nat} (hk : k < 32) (hc : c < 32) (b : Bool) :
    (s.setBitAt a k b).bitAt a c = if c = k then b else s.bitAt a c := by
  rw [s.setBitAt_eq_setFlag a hk, ← State.flag_eq_bitAt _ a hc]
  split
  · next h => subst h; exact s.flag_setFlag_same ⟨a, c, c⟩ b rfl hc
  · next h => rw [s.flag_setFlag_apart ⟨a, c, c⟩ ⟨a, k, k⟩ b hk le_rfl (by simp; omega), s.flag_eq_bitAt a hc]
theorem State.only_setBitAt (s : State) (a : Nat) {k : Nat} (hk : k < 32) (b : Bool) : Only s (s.setBitAt a k b) [a] [] :=
  s.setBitAt_eq_setFlag a hk b ▸ s.only_setFlag ⟨a, k, k⟩ b

/-! ### What an operation on registers alone, or on one part of the state, leaves -/

section OnlyRegs

variable {s t : State}

theorem State.OnlyRegs.memory (h : s.OnlyRegs t) : t.mem = s.mem := h.elim fun _ h => h ▸ rfl
theorem State.OnlyRegs.queue (h : s.OnlyRegs t) : t.pending = s.pending := h.elim fun _ h => h ▸ rfl
theorem State.OnlyRegs.raised (h : s.OnlyRegs t) : t.raises = s.raises := h.elim fun _ h => h ▸ rfl
theorem State.OnlyRegs.outs (h : s.OnlyRegs t) : t.out = s.out := h.elim fun _ h => h ▸ rfl
theorem State.OnlyRegs.macs (h : s.OnlyRegs t) : t.mac = s.mac := h.elim fun _ h => h ▸ rfl
theorem State.OnlyRegs.switch (h : s.OnlyRegs t) : t.swx = s.swx := h.elim fun _ h => h ▸ rfl

theorem State.OnlyRegs.ite {c : Prop} [Decidable c] {u : State} (h : s.OnlyRegs t) (h1 : s.OnlyRegs u) : s.OnlyRegs (if c then t else u) := by
  split
  · exact h
  · exact h1

end OnlyRegs

/-! ### The counters of a MAC (R82, R83) -/

section Counters

variable (s : State) (p : Nat)

theorem State.onlyRegs_macSync : s.OnlyRegs (s.macSync p) := (s.onlyRegs_setFlag _ _).trans (State.onlyRegs_setFlag _ _ _)
theorem State.onlyRegs_macCount (i n : Nat) : s.OnlyRegs (s.macCount p i n) :=
  .ite (((s.onlyRegs_count _ _).trans (State.onlyRegs_setBitAt _ _ _ _)).trans (State.onlyRegs_macSync _ p)) (s.onlyRegs_count _ _)
theorem State.onlyRegs_ctlCount (base : Nat) : s.OnlyRegs (s.ctlCount p base) :=
  ((s.onlyRegs_macCount p _ _).trans (State.onlyRegs_macCount _ p _ _)).trans (State.onlyRegs_macCount _ p _ _)

theorem State.only_macSync : Only s (s.macSync p) [MAC_IRQ p] [] :=
  ((s.only_setFlag (MAC_IRQ_TSAVAIL p) _).trans (State.only_setFlag _ (MAC_IRQ_CNT p) _)).mono (by simp [MAC_IRQ_TSAVAIL, MAC_IRQ_CNT])

/-- The half-range flag of counter `i` is a bit of one of the port's two flag words. -/
theorem State.only_setHalf {i : Nat} (hi : i < 64) :
    Only s (s.setBitAt (MAC_CNTHALF p 0) i true) [MAC_CNTHALF p 0, MAC_CNTHALF p 1] [] := by
  have hword : MAC_CNTHALF p 0 + 4 * (i / 32) ∈ [MAC_CNTHALF p 0, MAC_CNTHALF p 1] := by
    simp only [MAC_CNTHALF, List.mem_cons, List.not_mem_nil, or_false]
    omega
  exact (s.only_setReg (MAC_CNTHALF p 0 + 4 * (i / 32)) _).mono (List.cons_subset.mpr ⟨hword, List.nil_subset _⟩)

theorem State.only_macCount {i : Nat} (hi : i < 64) (n : Nat) : Only s (s.macCount p i n) (macCntRegs p i) [] := by
  have hcount : Only s (s.count (macCnt p i) n) [macCnt p i] [] := s.only_setReg (macCnt p i) _
  unfold State.macCount
  dsimp only
  split
  · exact ((hcount.trans (State.only_setHalf _ p hi)).trans (State.only_macSync _ p)).mono (by simp [macCntRegs])
  · exact hcount.mono (by simp [macCntRegs])

theorem State.only_ctlCount {base : Nat} (hbase : base + 9 < 64) : Only s (s.ctlCount p base) (ctlCntRegs p base) [] :=
  (((s.only_macCount p (i := base) (by omega) 1).trans (State.only_macCount _ p (i := base + 7) (by omega) 64)).trans
    (State.only_macCount _ p hbase 1)).mono (by simp [macCntRegs, ctlCntRegs])

/-- A counter gains modulo its range (R82). -/
theorem State.regN_macCount_same {i : Nat} (hi : i < 64) (n : Nat) :
    (s.macCount p i n).regN (macCnt p i) = (s.regN (macCnt p i) + n) % 2 ^ 32 := by
  have hcount : (s.count (macCnt p i) n).regN (macCnt p i) = (s.regN (macCnt p i) + n) % 2 ^ 32 := by
    simp [State.count, State.regN, State.setRegN]
  unfold State.macCount
  dsimp only
  split
  · have hhalf : macCnt p i ∉ [MAC_CNTHALF p 0, MAC_CNTHALF p 1] := by simp [macCnt, MAC_CNTHALF]; omega
    have hirq : macCnt p i ∉ [MAC_IRQ p] := by simp [macCnt, MAC_IRQ]; omega
    rw [State.regN, (State.only_macSync _ p).1 _ hirq, (State.only_setHalf _ p hi).1 _ hhalf, ← State.regN, hcount]
  · exact hcount

/-- The settings and the state of a MAC, but for its interrupt flags. -/
def macSetting (a : Nat) : Prop := a % 0x10000 < 0x400 ∧ a % 0x10000 ≠ 0x18

theorem not_mem_macCntRegs {a i : Nat} (h : macSetting a) (hi : i < 64) : a ∉ macCntRegs p i := by
  simp only [macCntRegs, macCnt, MAC_CNTHALF, MAC_IRQ, List.mem_cons, List.not_mem_nil, or_false, not_or]
  obtain ⟨hlow, hirq⟩ := h
  omega
theorem State.reg_macCount {a i : Nat} (h : macSetting a) (hi : i < 64) (n : Nat) : (s.macCount p i n).reg a = s.reg a :=
  (s.only_macCount p hi n).1 a (not_mem_macCntRegs p h hi)
theorem State.reg_ctlCount {a base : Nat} (h : macSetting a) (hbase : base + 9 < 64) : (s.ctlCount p base).reg a = s.reg a := by
  simp only [State.ctlCount]
  rw [State.reg_macCount _ p h hbase, State.reg_macCount _ p h (by omega), State.reg_macCount _ p h (by omega)]
theorem macSetting_of_offset {o : Nat} (p : Nat) (h : o < 0x400) (h1 : o ≠ 0x18) : macSetting (0x40800000 + o + p * 0x10000) := by
  unfold macSetting; omega
theorem macSetting_stat : macSetting (MAC_STAT p) := macSetting_of_offset (o := 8) p (by decide) (by decide)
theorem macSetting_fccfg : macSetting (MAC_FCCFG p) := macSetting_of_offset (o := 0x40) p (by decide) (by decide)
theorem macSetting_fcstat : macSetting (MAC_FCSTAT p) := macSetting_of_offset (o := 0x4C) p (by decide) (by decide)
theorem State.fld_macCount {f : Fld} {i : Nat} (h : macSetting f.addr) (hi : i < 64) (n : Nat) : (s.macCount p i n).fld f = s.fld f := by
  rw [State.fld, s.reg_macCount p h hi n, State.fld]
theorem State.fld_ctlCount {f : Fld} {base : Nat} (h : macSetting f.addr) (hbase : base + 9 < 64) : (s.ctlCount p base).fld f = s.fld f := by
  rw [State.fld, s.reg_ctlCount p h hbase, State.fld]

end Counters

/-- An error between frames counts (R82). -/
theorem effect_frameReceive_idle (p : Fin 12) (e8 : Fin 8) (frag : Bool) (b : List Byte) (s : State) (hruns : s.runs 7 (.mac p) = true)
    (hon : s.flag (MAC_CTRL_RXEN p) = true) (hlink : s.flag (MAC_STAT_LINK p) = true) :
    Effect (.frameReceive p e8 b ⟨frag, .idle⟩) s (macCntRegs p 20) []
      (fun u => u.regN (macCnt p 20) = (s.regN (macCnt p 20) + 1) % 2 ^ 32) := by
  have heff : s.inBlk 7 (.mac p) (fun s => s.macRx p e8 frag b .idle) = s.macCount p 20 1 := by
    simp [State.inBlk_of_runs hruns, State.macRx, hon, hlink]
  exact effect_of_eq heff (s.only_macCount p (by decide) 1) (s.regN_macCount_same p (by decide) 1) rfl

/-! ### Holds (R74, R75) -/

/-- Hold `k` of port `p` with its quanta, as the registers show it. -/
def State.holdShown (s : State) (p k q : Nat) : State :=
  let t := (s.setMac p { s.macSt p with holds := storeSet (fun _ => 0) (s.macSt p).holds k q }).setBitAt (MAC_FCSTAT p) k (decide (q ≠ 0))
  if k = 8 then t.setFlag (MAC_STAT_RXPAUSED p) (decide (q ≠ 0)) else t

section Holds

variable (s : State) (p k q : Nat)

theorem State.macHold_eq : s.macHold p k q = if q ≠ 0 then (s.holdShown p k q).macCount p 50 1 else s.holdShown p k q := by
  by_cases hk : k = 8
  · subst hk
    simp [State.macHold, State.holdShown, State.setBitAt_eq_setFlag _ (MAC_FCSTAT p) (k := 8) (by decide), MAC_FCSTAT_PAUSED]
  · simp [State.macHold, State.holdShown, hk]

theorem State.only_setMac (x : MacSt) : Only s (s.setMac p x) [] [] := .of_eq rfl rfl rfl rfl

variable {k} in
theorem State.only_holdShown (hk : k < 9) : Only s (s.holdShown p k q) (MAC_FCSTAT p :: if k = 8 then [MAC_STAT p] else []) [] := by
  have hshown := (s.only_setMac p { s.macSt p with holds := storeSet (fun _ => 0) (s.macSt p).holds k q }).trans
    (State.only_setBitAt _ (MAC_FCSTAT p) (show k < 32 by omega) (decide (q ≠ 0)))
  unfold State.holdShown
  dsimp only
  split
  · exact hshown.trans (State.only_setFlag _ (MAC_STAT_RXPAUSED p) _)
  · exact hshown

theorem State.holds_holdShown : storeGet (fun _ => 0) ((s.holdShown p k q).macSt p).holds k = q := by
  have hstored : storeGet (fun _ => 0)
      ((s.setMac p { s.macSt p with holds := storeSet (fun _ => 0) (s.macSt p).holds k q }).macSt p).holds k = q := by simp
  unfold State.holdShown
  dsimp only
  split
  all_goals exact hstored

variable {k} in
theorem State.bitAt_holdShown (hk : k < 9) {c : Nat} (hc : c < 9) :
    (s.holdShown p k q).bitAt (MAC_FCSTAT p) c = if c = k then decide (q ≠ 0) else s.bitAt (MAC_FCSTAT p) c := by
  have hshown := State.bitAt_setBitAt (s.setMac p { s.macSt p with holds := storeSet (fun _ => 0) (s.macSt p).holds k q }) (MAC_FCSTAT p)
    (show k < 32 by omega) (show c < 32 by omega) (decide (q ≠ 0))
  unfold State.holdShown
  dsimp only
  split
  · have hne : MAC_FCSTAT p + 4 * (c / 32) ≠ (MAC_STAT_RXPAUSED p).addr := by simp [MAC_FCSTAT, MAC_STAT_RXPAUSED, MAC_STAT]; omega
    rw [State.bitAt, State.regN, State.reg_setFlag_ne _ _ _ hne]
    exact hshown
  · exact hshown

theorem State.rxPaused_holdShown : (s.holdShown p 8 q).flag (MAC_STAT_RXPAUSED p) = decide (q ≠ 0) :=
  State.flag_setFlag_same _ (MAC_STAT_RXPAUSED p) _ rfl (show 12 < 32 by decide)

variable {k} in
theorem State.only_macHold (hk : k < 9) :
    Only s (s.macHold p k q) ((MAC_FCSTAT p :: if k = 8 then [MAC_STAT p] else []) ++ macCntRegs p 50) [] := by
  have hshown := s.only_holdShown p q hk
  rw [State.macHold_eq]
  split
  · exact hshown.trans (State.only_macCount _ p (by decide) 1)
  · exact hshown.mono (List.subset_append_left _ _)

/-- What a hold shows stands beside its count. -/
theorem State.reg_macHold {a : Nat} (h : macSetting a) : (s.macHold p k q).reg a = (s.holdShown p k q).reg a := by
  rw [State.macHold_eq]
  split
  · exact State.reg_macCount _ p h (by decide) 1
  · rfl

variable {k} in
theorem State.bitAt_macHold (hk : k < 9) {c : Nat} (hc : c < 9) :
    (s.macHold p k q).bitAt (MAC_FCSTAT p) c = if c = k then decide (q ≠ 0) else s.bitAt (MAC_FCSTAT p) c := by
  have hword : MAC_FCSTAT p + 4 * (c / 32) = MAC_FCSTAT p := by omega
  rw [← s.bitAt_holdShown p q hk hc, State.bitAt, State.regN, hword, s.reg_macHold p k q (macSetting_fcstat p)]
  rw [State.bitAt, State.regN, hword]

theorem State.rxPaused_macHold : (s.macHold p 8 q).flag (MAC_STAT_RXPAUSED p) = decide (q ≠ 0) := by
  have hstat : (s.macHold p 8 q).reg (MAC_STAT_RXPAUSED p).addr = (s.holdShown p 8 q).reg (MAC_STAT_RXPAUSED p).addr :=
    s.reg_macHold p 8 q (macSetting_stat p)
  rw [State.flag, State.fld, hstat]
  exact s.rxPaused_holdShown p q

theorem State.holds_macHold : storeGet (fun _ => 0) ((s.macHold p k q).macSt p).holds k = q := by
  have hcounted : (s.macHold p k q).mac = (s.holdShown p k q).mac := by
    rw [State.macHold_eq]
    split
    · exact (State.onlyRegs_macCount _ p 50 1).macs
    · rfl
  rw [State.macSt, hcounted]
  exact s.holds_holdShown p k q

end Holds

/-- What a control frame does at a port that takes it. -/
theorem State.linkHeld_of_on {s : State} {p : Nat} (hruns : s.runs 7 (.mac p) = true) (hon : s.flag (MAC_CTRL_RXEN p) = true)
    (hlink : s.flag (MAC_STAT_LINK p) = true) (f : State → State) :
    s.inBlk 7 (.mac p) (fun s => s.linkHeld p (fun s => s.ctlFrame p f)) = f (s.ctlCount p 0) := by
  simp [State.inBlk_of_runs hruns, State.linkHeld, hon, hlink, State.ctlFrame]

theorem effect_pauseReceive (p : Fin 12) (q : BitVec 16) (s : State) (hruns : s.runs 7 (.mac p) = true)
    (hon : s.flag (MAC_CTRL_RXEN p) = true) (hlink : s.flag (MAC_STAT_LINK p) = true) (hmode : s.fld (MAC_FCCFG_MODE p) = 1)
    (hrx : s.flag (MAC_FCCFG_RXEN p) = true) :
    Effect (.pauseReceive p q) s (ctlCntRegs p 0 ++ macCntRegs p 11 ++ macCntRegs p 50 ++ [MAC_STAT p, MAC_FCSTAT p]) []
      (fun u => u.flag (MAC_FCSTAT_PAUSED p) = decide (q ≠ 0) ∧ u.flag (MAC_STAT_RXPAUSED p) = decide (q ≠ 0) ∧
        storeGet (fun _ => 0) (u.macSt p).holds 8 = q.toNat) := by
  let t := (s.ctlCount p 0).macCount p 11 1
  have hfld (f : Fld) (h : macSetting f.addr) : t.fld f = s.fld f := by
    rw [State.fld_macCount _ p h (by decide), State.fld_ctlCount _ p h (by decide)]
  have hmode1 : t.fld (MAC_FCCFG_MODE p) = 1 := (hfld _ (macSetting_fccfg p)).trans hmode
  have hrx1 : t.flag (MAC_FCCFG_RXEN p) = true := by rw [State.flag, hfld _ (macSetting_fccfg p)]; exact hrx
  have heff : s.inBlk 7 (.mac p) (fun s => s.linkHeld p (fun s => s.ctlFrame p (fun s => s.macPause p q.toNat))) = t.macHold p 8 q.toNat := by
    rw [State.linkHeld_of_on hruns hon hlink]
    exact if_pos ⟨hmode1, hrx1⟩
  have honly := ((s.only_ctlCount p (base := 0) (by decide)).trans (State.only_macCount _ p (i := 11) (by decide) 1)).trans
    (t.only_macHold p q.toNat (k := 8) (by decide))
  have hq : decide (q.toNat ≠ 0) = decide (q ≠ 0) := by simp [← BitVec.toNat_inj]
  refine effect_of_eq heff (honly.mono (by intro a; grind)) ⟨?_, ?_, t.holds_macHold p 8 q.toNat⟩ rfl
  · rw [MAC_FCSTAT_PAUSED, State.flag_eq_bitAt _ _ (by decide), t.bitAt_macHold p q.toNat (by decide) (by decide), if_pos rfl, hq]
  · rw [t.rxPaused_macHold p q.toNat, hq]

/-! ### A PFC frame acts class by class (R75) -/

section Pfc

variable (p vec : Nat) (qs : List Nat)

/-- The holds of the first `n` classes of a PFC frame. -/
def State.pfcHolds (s : State) (n : Nat) : State :=
  (List.range n).foldl (fun s c => if vec.testBit c then s.macHold p c (qs.getD c 0) else s) s

theorem State.pfcHolds_succ (s : State) (n : Nat) : s.pfcHolds p vec qs (n + 1) =
    if vec.testBit n then (s.pfcHolds p vec qs n).macHold p n (qs.getD n 0) else s.pfcHolds p vec qs n := by
  simp [State.pfcHolds, List.range_succ]

theorem State.only_pfcHolds (s : State) {n : Nat} (hn : n ≤ 8) : Only s (s.pfcHolds p vec qs n) (macCntRegs p 50 ++ [MAC_FCSTAT p]) [] := by
  induction n with
  | zero => exact Only.mono (.of_eq rfl rfl rfl rfl) (List.nil_subset _)
  | succ n ih =>
    rw [State.pfcHolds_succ]
    split
    · have hhold := State.only_macHold (s.pfcHolds p vec qs n) p (qs.getD n 0) (show n < 9 by omega)
      rw [if_neg (by omega)] at hhold
      exact ((ih (by omega)).trans hhold).mono (by intro a; simp; tauto)
    · exact ih (by omega)

theorem State.bitAt_pfcHolds (s : State) {n c : Nat} (hn : n ≤ 8) (hc : c < 8) : (s.pfcHolds p vec qs n).bitAt (MAC_FCSTAT p) c =
    if c < n ∧ vec.testBit c = true then decide (qs.getD c 0 ≠ 0) else s.bitAt (MAC_FCSTAT p) c := by
  induction n with
  | zero => simp [State.pfcHolds]
  | succ n ih =>
    have hn' := ih (by omega)
    rw [State.pfcHolds_succ]
    split
    · next hbit =>
      rw [State.bitAt_macHold _ p _ (by omega) (by omega), hn']
      by_cases hcn : c = n
      · subst hcn; simp [hbit]
      · simp [hcn, show c < n + 1 ↔ c < n by omega]
    · next hbit =>
      rw [hn']
      by_cases hcn : c = n
      · subst hcn; simp [hbit]
      · simp [show c < n + 1 ↔ c < n by omega]

end Pfc

theorem effect_pfcReceive (p : Fin 12) (vec : BitVec 16) (qs : List (BitVec 16)) (s : State) (hruns : s.runs 7 (.mac p) = true)
    (hon : s.flag (MAC_CTRL_RXEN p) = true) (hlink : s.flag (MAC_STAT_LINK p) = true) (hmode : s.fld (MAC_FCCFG_MODE p) = 2)
    (hrx : s.flag (MAC_FCCFG_RXEN p) = true) :
    Effect (.pfcReceive p vec qs) s (ctlCntRegs p 0 ++ macCntRegs p 12 ++ macCntRegs p 50 ++ [MAC_FCSTAT p]) []
      (fun u => ∀ c : Fin 8, u.bitAt (MAC_FCSTAT p) c =
        if vec.getLsbD c then decide (qs.getD c 0 ≠ 0) else s.bitAt (MAC_FCSTAT p) c) := by
  let t := (s.ctlCount p 0).macCount p 12 1
  let ns := qs.map (fun q => q.toNat)
  have hreg (a : Nat) (h : macSetting a) : t.reg a = s.reg a := by
    rw [State.reg_macCount _ p h (by decide), State.reg_ctlCount _ p h (by decide)]
  have hfld (f : Fld) (h : macSetting f.addr) : t.fld f = s.fld f := by rw [State.fld, hreg _ h, State.fld]
  have hmode1 : t.fld (MAC_FCCFG_MODE p) = 2 := (hfld _ (macSetting_fccfg p)).trans hmode
  have hrx1 : t.flag (MAC_FCCFG_RXEN p) = true := by rw [State.flag, hfld _ (macSetting_fccfg p)]; exact hrx
  have heff : s.inBlk 7 (.mac p) (fun s => s.linkHeld p (fun s => s.ctlFrame p (fun s => s.macPfc p vec.toNat ns))) =
      t.pfcHolds p vec.toNat ns 8 := by
    rw [State.linkHeld_of_on hruns hon hlink]
    exact if_pos ⟨hmode1, hrx1⟩
  have honly := ((s.only_ctlCount p (base := 0) (by decide)).trans (State.only_macCount _ p (i := 12) (by decide) 1)).trans
    (t.only_pfcHolds p vec.toNat ns (n := 8) le_rfl)
  refine effect_of_eq heff (honly.mono (by simp)) (fun c => ?_) rfl
  have hquanta : (decide (ns.getD c 0 ≠ 0)) = decide (qs.getD c 0 ≠ 0) := by
    have hq : ns.getD c 0 = (qs.getD c 0).toNat := List.getD_map qs 0 _
    rw [decide_eq_decide, hq, ne_eq, ne_eq, ← BitVec.toNat_inj]
    rfl
  have hword : MAC_FCSTAT p + 4 * (c.val / 32) = MAC_FCSTAT p := by omega
  have hkept : t.bitAt (MAC_FCSTAT p) c = s.bitAt (MAC_FCSTAT p) c := by
    rw [State.bitAt, State.regN, hword, hreg _ (macSetting_fcstat p), State.bitAt, State.regN, hword]
  rw [t.bitAt_pfcHolds p vec.toNat ns le_rfl c.isLt, hkept, hquanta]
  simp [BitVec.testBit_toNat]

theorem effect_pauseHoldExpiry (p : Fin 12) (k : Fin 9) (s : State) (hruns : s.runs 7 (.mac p) = true) :
    Effect (.pauseHoldExpiry p k) s [MAC_STAT p, MAC_FCSTAT p] [] (fun u => storeGet (fun _ => 0) (u.macSt p).holds k = 0 ∧
      u.bitAt (MAC_FCSTAT p) k = false ∧ (k = 8 → u.flag (MAC_STAT_RXPAUSED p) = false)) := by
  have heff : s.inBlk 7 (.mac p) (fun s => s.macHold p k 0) = s.holdShown p k 0 := by
    rw [State.inBlk_of_runs hruns, State.macHold_eq, if_neg (by decide)]
  refine effect_of_eq heff ((s.only_holdShown p 0 k.isLt).mono (by split <;> simp))
    ⟨s.holds_holdShown p k 0, ?_, ?_⟩ rfl
  · rw [s.bitAt_holdShown p 0 k.isLt k.isLt, if_pos rfl]
    rfl
  · rintro rfl
    exact s.rxPaused_holdShown p 0

/-! ### Register accesses that a command grants -/

/-- A granted write of a register of a MAC is the write its block makes of it. -/
theorem State.wordWrite_mac (s : State) (m : Master) {a : Nat} (v : Word) (h : s.grants m a v = true) (hlo : 0x40800000 ≤ a)
    (hhi : a < 0x40A00000) : ∃ r, s.wordWrite m a v = s.putMac m r a v := by
  have hslot : s.slotHolds a = false := by
    simp only [State.slotHolds, Bool.and_eq_false_iff, decide_eq_false_iff_not]
    exact .inl (.inl (by omega))
  obtain ⟨r, -, -, hw⟩ := s.regWrite_of_grants m a v h hslot
  have harr : s.arrives m a true = true := by
    simp only [State.grants, Bool.and_eq_true] at h
    exact h.1.1
  have hany : s.wordWrite m a v = s.anyWrite m a 4 v.toNat := by
    rw [State.anyWrite, if_neg (by omega), State.wordWrite]
  have hv : w32 v.toNat = v := by simp [w32]
  refine ⟨r, ?_⟩
  rw [hany, s.anyWrite_of_arrives m a _ harr, hv, hw]
  unfold State.putReg
  repeat rw [if_neg (by omega)]
  rw [if_pos hhi]

/-- A granted write of FCTX sends flow control for the classes and with the quanta it names (R76). -/
theorem State.wordWrite_fctx (s : State) (m : Master) (p : Fin 12) (v : Word) (h : s.grants m (MAC_FCTX p) v = true) :
    s.wordWrite m (MAC_FCTX p) v = s.macSendFc p (bits v 7 0) (bits v 31 16) := by
  obtain ⟨r, hr⟩ := s.wordWrite_mac m v h (by simp only [MAC_FCTX]; omega) (by simp only [MAC_FCTX]; omega)
  have hoffset : MAC_FCTX p % 0x10000 = 0x48 := by simp only [MAC_FCTX]; omega
  have hport : (MAC_FCTX p - 0x40800000) / 0x10000 = p := by simp only [MAC_FCTX]; omega
  rw [hr]
  unfold State.putMac
  simp only [hoffset, hport]

/-- A read that arrives at a register returns the word it reads, with what the read does (R10). -/
theorem State.busRead_of_reads (s : State) (m : Master) (a : Nat) (h : s.reads m a = true) : ∃ r, s.busRead m a 4 =
    { (s.readReg m r a).1 with rdata := BitVec.ofNat 64 (s.readReg m r a).2.toNat } := by
  simp only [State.reads, Bool.and_eq_true, bne_iff_ne, ne_eq] at h
  obtain ⟨harr, hhalf⟩ := h
  obtain ⟨hcard, hregs, halign, hwin, hheld, hbridge, hreach, hbarred⟩ := (s.arrives_iff m a false).mp harr
  cases hr : findReg a with
  | none => simp [halfAt, hr] at hhalf
  | some r =>
    have hread : s.regRead m a = s.readReg m r a := by simp [State.regRead, hcard, hr, hreach, hbarred]
    refine ⟨r, ?_⟩
    simp [State.busRead, hwin, State.accRead, hcard, hheld, hbridge, hregs, halign, hread]

/-! ### Low-power idle ends (R79, R82) -/

section LowPower

variable (s : State) (p : Nat)

theorem State.only_lpiTxSync : Only s (s.lpiTxSync p) (macCntRegs p 60) [] := by
  unfold State.lpiTxSync
  split
  · exact Only.mono (.of_eq rfl rfl rfl rfl) (List.nil_subset _)
  · exact (s.only_setMac p _).trans (State.only_macCount _ p (by decide) _)
theorem State.only_lpiLeave : Only s (s.lpiLeave p) (macCntRegs p 60 ++ [MAC_STAT p]) [] :=
  (s.only_lpiTxSync p).trans (State.only_setFlag _ (MAC_STAT_LPITX p) false)
theorem State.lpiTx_lpiLeave : (s.lpiLeave p).flag (MAC_STAT_LPITX p) = false :=
  State.flag_setFlag_same _ (MAC_STAT_LPITX p) false rfl (show 7 < 32 by decide)
theorem State.out_lpiLeave : (s.lpiLeave p).out = s.out := by
  show (s.lpiTxSync p).out = s.out
  unfold State.lpiTxSync
  split
  · rfl
  · exact (State.onlyRegs_macCount _ p 60 _).outs

end LowPower

/-! ### Flow control frames leave (R76) -/

/-- The registers that a flow control frame sent may change. -/
abbrev fcOutRegs (p : Nat) : List Nat := ctlCntRegs p 32 ++ macCntRegs p 43 ++ macCntRegs p 44 ++ macCntRegs p 60 ++ [MAC_STAT p]
/-- The flow control frame port `p` sends in its mode. -/
def State.fcFrame (s : State) (p cls quanta : Nat) : Out :=
  if s.fld (MAC_FCCFG_MODE p) = 2 then .mac p 2 (quanta + 65536 * cls) else .mac p 1 quanta

section FlowControl

variable (s : State) (p cls quanta : Nat)

theorem State.macFcOut_eq : s.macFcOut p cls quanta =
    (((s.lpiLeave p).emit (s.fcFrame p cls quanta)).ctlCount p 32).macCount p (if s.fld (MAC_FCCFG_MODE p) = 2 then 44 else 43) 1 := by
  by_cases hmode : s.fld (MAC_FCCFG_MODE p) = 2 <;> simp [State.macFcOut, State.fcFrame, hmode]

theorem fcCounter_lt (c : Prop) [Decidable c] : (if c then 44 else 43) < 64 := by split <;> decide

theorem State.only_macFcOut : Only s (s.macFcOut p cls quanta) (fcOutRegs p) [] := by
  have hemit : Only (s.lpiLeave p) ((s.lpiLeave p).emit (s.fcFrame p cls quanta)) [] [] := .of_eq rfl rfl rfl rfl
  have honly := (((s.only_lpiLeave p).trans hemit).trans (State.only_ctlCount _ p (base := 32) (by decide))).trans
    (State.only_macCount _ p (fcCounter_lt (s.fld (MAC_FCCFG_MODE p) = 2)) 1)
  rw [State.macFcOut_eq]
  exact honly.mono (by intro a; split <;> grind)

theorem State.out_macFcOut : (s.macFcOut p cls quanta).out = s.fcFrame p cls quanta :: s.out := by
  rw [State.macFcOut_eq, (State.onlyRegs_macCount _ p _ 1).outs, (State.onlyRegs_ctlCount _ p 32).outs, State.emit, s.out_lpiLeave p]

theorem State.lpiTx_macFcOut : (s.macFcOut p cls quanta).flag (MAC_STAT_LPITX p) = false := by
  rw [State.macFcOut_eq, State.flag, State.fld_macCount _ p (macSetting_stat p) (fcCounter_lt _),
    State.fld_ctlCount _ p (macSetting_stat p) (by decide)]
  exact s.lpiTx_lpiLeave p

/-- Flow control is sent at once from an idle output. -/
theorem State.macSendFc_of_sends (h : s.sendsFc p = true) : s.macSendFc p cls quanta = s.macFcOut p cls quanta := by
  simp only [State.sendsFc, Bool.and_eq_true, Option.isNone_iff_eq_none, State.outSt] at h
  obtain ⟨⟨hlink, hon⟩, hidle⟩ := h
  simp [State.macSendFc, hlink, hon, hidle]

end FlowControl

theorem effect_flowControlRepeat (p : Fin 12) (s : State) (hruns : s.runs 7 (.mac p) = true) (hgen : s.flag (MAC_FCCFG_GEN p) = true)
    (hsent : s.flag (MAC_FCSTAT_XOFFSENT p) = true) (hthr : s.fld (MAC_FCTHR_XON p) < s.fld (MAC_FCTHR_XOFF p))
    (hused : s.fld (MAC_FCTHR_XON p) ≤ s.macUsed p) (hsends : s.sendsFc p = true) :
    Effect (.flowControlRepeat p) s (fcOutRegs p) [] (fun u => u.flag (MAC_STAT_LPITX p) = false ∧
      u.out = (if s.fld (MAC_FCCFG_MODE p) = 2 then .mac p 2 (s.fld (MAC_FCCFG_TXQUANTA p) + 65536 * s.fld (MAC_FCCFG_PFCGEN p))
        else .mac p 1 (s.fld (MAC_FCCFG_TXQUANTA p))) :: s.out) := by
  have heff : s.inBlk 7 (.mac p) (fun s => s.macRepeat p) = s.macFcOut p (s.fld (MAC_FCCFG_PFCGEN p)) (s.fld (MAC_FCCFG_TXQUANTA p)) := by
    rw [State.inBlk_of_runs hruns, ← s.macSendFc_of_sends p _ _ hsends]
    simp [State.macRepeat, hgen, hsent, hthr, hused]
  exact effect_of_eq heff (s.only_macFcOut p _ _) ⟨s.lpiTx_macFcOut p _ _, s.out_macFcOut p _ _⟩ rfl

theorem effect_fctx_idle (m : Master) (p : Fin 12) (v : Word) (s : State) (h : s.grants m (MAC_FCTX p) v = true) (hsends : s.sendsFc p = true) :
    Effect (.fctx m p v) s (fcOutRegs p) [] (fun u => u.flag (MAC_STAT_LPITX p) = false ∧
      u.out = (if s.fld (MAC_FCCFG_MODE p) = 2 then .mac p 2 (bits v 31 16 + 65536 * bits v 7 0) else .mac p 1 (bits v 31 16)) :: s.out) :=
  effect_of_eq ((s.wordWrite_fctx m p v h).trans (s.macSendFc_of_sends p _ _ hsends)) (s.only_macFcOut p _ _)
    ⟨s.lpiTx_macFcOut p _ _, s.out_macFcOut p _ _⟩ rfl

theorem effect_fctx_sending (m : Master) (p : Fin 12) (v : Word) (s : State) (h : s.grants m (MAC_FCTX p) v = true)
    (hsending : s.flag (MAC_STAT_LINK p) = true ∧ s.flag (MAC_CTRL_TXEN p) = true ∧ (s.outSt p).tx.isSome = true) :
    Effect (.fctx m p v) s [] [] (fun u => u.out = s.out ∧ (u.macSt p).fcq = (s.macSt p).fcq ++ [(bits v 7 0, bits v 31 16)]) := by
  obtain ⟨hlink, hon, htx⟩ := hsending
  rw [State.outSt] at htx
  have hwait : s.macSendFc p (bits v 7 0) (bits v 31 16) =
      s.setMac p { s.macSt p with fcq := (s.macSt p).fcq ++ [(bits v 7 0, bits v 31 16)] } := by
    simp [State.macSendFc, hlink, hon, htx]
  exact effect_of_eq ((s.wordWrite_fctx m p v h).trans hwait) (s.only_setMac p _) ⟨rfl, by simp⟩ rfl

/-! ### The timestamp FIFO is read (R73) -/

theorem State.snap_setSnap (s : State) (m : Master) (a b : Nat) (v : Word) : (s.setSnap m a v).snap m b = if b = a then v else s.snap m b := by
  have hkey : snapKey m b = snapKey m a ↔ b = a := Nat.add_left_cancel_iff
  by_cases h : b = a
  · simp [State.snap, State.setSnap, h]
  · simp [State.snap, State.setSnap, storeGet_set, hkey, h]

theorem State.only_setSnap (s : State) (m : Master) (a : Nat) (v : Word) : Only s (s.setSnap m a v) [] [] := .of_eq rfl rfl rfl rfl
theorem State.only_rdata (s : State) (v : BitVec 64) : Only s { s with rdata := v } [] [] := .of_eq rfl rfl rfl rfl

theorem State.snap_rdata (s : State) (v : BitVec 64) (m : Master) (a : Nat) : State.snap { s with rdata := v } m a = s.snap m a := rfl

/-- A read of TSF_HDR brings no word up to date; it takes what the FIFO gives, with the seconds and the nanoseconds in the reader's snapshot. -/
theorem State.readReg_tsfHdr (s : State) (m : Master) (r : RegSpec) (p : Fin 12) {u : State} {h sec ns : Nat}
    (htake : s.tsfRead p = (u, some (h, sec, ns))) : s.readReg m r (MAC_TSF_HDR p) =
      ((u.setSnap m (MAC_TSF_SEC p) (w32 sec)).setSnap m (MAC_TSF_NS p) (w32 ns), w32 h) := by
  have hlo : 0x40800000 ≤ MAC_TSF_HDR p := by simp only [MAC_TSF_HDR]; omega
  have hhi : MAC_TSF_HDR p < 0x408C0000 := by simp only [MAC_TSF_HDR]; omega
  have hoffset : MAC_TSF_HDR p % 0x10000 = 0x30 := by simp only [MAC_TSF_HDR]; omega
  have hport : (MAC_TSF_HDR p - 0x40800000) / 0x10000 = p := by simp only [MAC_TSF_HDR]; omega
  have hsec : MAC_TSF_HDR p + 4 = MAC_TSF_SEC p := by simp only [MAC_TSF_HDR, MAC_TSF_SEC]; omega
  have hns : MAC_TSF_HDR p + 8 = MAC_TSF_NS p := by simp only [MAC_TSF_HDR, MAC_TSF_NS]; omega
  have hsync : s.syncReg (MAC_TSF_HDR p) = s := by
    have hstate : MAC_TSF_HDR p ≠ HOST_VSTATE := by simp only [HOST_VSTATE]; omega
    have hstat : MAC_TSF_HDR p ≠ PWR_HOLDSTAT := by simp only [PWR_HOLDSTAT]; omega
    unfold State.syncReg
    rw [if_neg hstate, if_neg hstat]
    repeat rw [if_neg (by omega)]
  have hcoef : isCoef (MAC_TSF_HDR p) = false := decide_eq_false (by omega)
  unfold State.readReg
  rw [hsync]
  dsimp only
  rw [if_neg (by omega), hcoef, if_neg (by decide), if_neg (by omega), if_pos ⟨hlo, hhi, hoffset⟩]
  simp only [hport, htake, hsec, hns]

/-- What a FIFO with an oldest entry gives, and what is left of it. -/
theorem State.tsfRead_cons (s : State) (p : Nat) {h sec ns : Nat} {t : List (Nat × Nat × Nat)} (htsf : (s.macSt p).tsf = (h, sec, ns) :: t) :
    ∃ u, s.tsfRead p = (u, some (2 ^ 31 + t.length * 2 ^ 26 + h, sec, ns)) ∧ Only s u [MAC_IRQ p] [] ∧ (u.macSt p).tsf = t ∧
      u.flag (MAC_IRQ_TSAVAIL p) = !t.isEmpty := by
  let taken := s.setMac p { s.macSt p with tsf := t }
  have htsf1 : (taken.macSt p).tsf = t := by simp [taken]
  refine ⟨taken.macSync p, by rw [State.tsfRead, htsf], (s.only_setMac p _).trans (taken.only_macSync p), ?_, ?_⟩
  · rw [State.macSt, (taken.onlyRegs_macSync p).macs]
    exact htsf1
  · simp only [State.macSync]
    rw [State.flag_setFlag_apart _ (MAC_IRQ_TSAVAIL p) (MAC_IRQ_CNT p) _ (show 1 < 32 by decide) le_rfl (.inr (.inr (show 1 < 2 by decide))),
      State.flag_setFlag_same _ (MAC_IRQ_TSAVAIL p) _ rfl (show 2 < 32 by decide), htsf1]

theorem effect_tsfHdrRead (m : Master) (p : Fin 12) (h sec ns : Nat) (t : List (Nat × Nat × Nat)) (s : State)
    (hreads : s.reads m (MAC_TSF_HDR p) = true) (htsf : (s.macSt p).tsf = (h, sec, ns) :: t) (hh : h < 2 ^ 26) (ht : t.length < 16) :
    Effect (.tsfHdrRead m p) s [MAC_IRQ p] [] (fun u => u.rdata = BitVec.ofNat 64 (2 ^ 31 + t.length * 2 ^ 26 + h) ∧
      u.snap m (MAC_TSF_SEC p) = w32 sec ∧ u.snap m (MAC_TSF_NS p) = w32 ns ∧
      (u.macSt p).tsf = t ∧ u.flag (MAC_IRQ_TSAVAIL p) = !t.isEmpty) := by
  obtain ⟨r, hr⟩ := s.busRead_of_reads m (MAC_TSF_HDR p) hreads
  obtain ⟨taken, htake, honly, htsf1, havail⟩ := s.tsfRead_cons p htsf
  have hbound : 2 ^ 31 + t.length * 2 ^ 26 + h < 2 ^ 32 := by omega
  generalize 2 ^ 31 + t.length * 2 ^ 26 + h = head at hbound htake ⊢
  let read := (taken.setSnap m (MAC_TSF_SEC p) (w32 sec)).setSnap m (MAC_TSF_NS p) (w32 ns)
  have heff : s.busRead m (MAC_TSF_HDR p) 4 = { read with rdata := BitVec.ofNat 64 head } := by
    have hword : (w32 head).toNat = head := by simpa [w32] using hbound
    rw [hr, s.readReg_tsfHdr m r p htake, hword]
  have hread : Only s { read with rdata := BitVec.ofNat 64 head } [MAC_IRQ p] [] :=
    ((honly.trans (State.only_setSnap _ m _ _)).trans (State.only_setSnap _ m _ _)).trans (read.only_rdata _)
  have hne : MAC_TSF_SEC p ≠ MAC_TSF_NS p := by unfold MAC_TSF_SEC MAC_TSF_NS; omega
  have hsec : read.snap m (MAC_TSF_SEC p) = w32 sec := by
    rw [State.snap_setSnap, if_neg hne, State.snap_setSnap, if_pos rfl]
  have hns : read.snap m (MAC_TSF_NS p) = w32 ns := (State.snap_setSnap _ m _ _ _).trans (if_pos rfl)
  exact effect_of_eq heff hread ⟨rfl, (read.snap_rdata _ _ _).trans hsec, (read.snap_rdata _ _ _).trans hns, htsf1, havail⟩ rfl

end Sys2Proof.Machine

/-! Proofs about the outputs of the MACs: launches, selection, the start of a frame (R70, R79, R100, R104). -/

namespace Sys2Proof.Machine

open Sys2Proof

/-! ### Queues and outputs (R88, R100) -/

section Parts

variable (s : State) (p c : Nat)

theorem State.only_setQ (x : QSt) : Only s (s.setQ p c x) [SWX_QSTAT p c] [] :=
  Only.trans (.of_eq rfl rfl rfl rfl) (State.only_setFld _ (SWX_QSTAT_FRAMES p c) _)
theorem State.qSt_setQ (x : QSt) : (s.setQ p c x).qSt p c = x := by simp [State.setQ, State.qSt]
theorem State.frames_setQ (x : QSt) : (s.setQ p c x).fld (SWX_QSTAT_FRAMES p c) = min 16383 x.q.length := by
  rw [State.setQ, State.fld_setFld_same _ (SWX_QSTAT_FRAMES p c) _ (show 31 < 32 by decide) (show 18 ≤ 31 by decide)]
  exact Nat.mod_eq_of_lt (Nat.lt_of_le_of_lt (Nat.min_le_left _ _) (show 16383 < 2 ^ (31 + 1 - 18) by decide))
theorem State.outSt_setOut (x : OutSt) : (s.setOut p x).outSt p = x := by simp [State.setOut, State.outSt]
theorem State.only_setOut (x : OutSt) : Only s (s.setOut p x) [] [] := .of_eq rfl rfl rfl rfl
theorem State.qSt_setOut (x : OutSt) (d : Nat) : (s.setOut p x).qSt d c = s.qSt d c := rfl

end Parts

/-- The launch of a head copy is reached (R104). -/
theorem effect_launchTimeDue (p : Fin 32) (c : Fin 8) (x : Copy) (t : List Copy) (s : State) (hdom : s.domOn 7 = true)
    (hq : (s.qSt p c).q = x :: t) (hdue : (x.ltMode = 1 ∨ x.ltMode = 2) ∧ 0 ≤ s.launchPast p x) :
    Effect (.launchTimeDue p c) s [SWX_QSTAT p c] [] (fun u => (u.qSt p c).q = { x with due := true } :: t) := by
  have heff : s.inDom 7 (fun s => s.launchDue p c) = s.setQ p c { s.qSt p c with q := { x with due := true } :: t } := by
    rw [State.inDom_of_on hdom, State.launchDue, hq]
    exact if_pos hdue
  exact effect_of_eq heff (s.only_setQ p c _) (by rw [State.qSt_setQ]) rfl

/-! ### The credits of an output are brought to this cycle (R101) -/

/-- `t` is `s` but for the credits of output `p`. -/
def State.Credited (p : Nat) (s t : State) : Prop :=
  ∃ (cr : List (Nat × Int)) (n : Nat), t = s.setOut p { s.outSt p with credit := cr, creditAt := n }

theorem State.credited_creditSync (s : State) (p : Nat) : State.Credited p s (s.creditSync p) := ⟨_, _, rfl⟩

section Credited

variable {p : Nat} {s t : State} (h : State.Credited p s t)
include h

theorem State.Credited.only : Only s t [] [] := by
  obtain ⟨cr, n, rfl⟩ := h
  exact .of_eq rfl rfl rfl rfl
theorem State.Credited.regs : t.regs = s.regs := by
  obtain ⟨cr, n, rfl⟩ := h
  rfl
theorem State.Credited.switch : t.swx.qs = s.swx.qs ∧ t.swx.frames = s.swx.frames ∧ t.swx.vlan = s.swx.vlan := by
  obtain ⟨cr, n, rfl⟩ := h
  exact ⟨rfl, rfl, rfl⟩
theorem State.Credited.beside : t.mac = s.mac ∧ t.out = s.out ∧ t.mem = s.mem ∧ t.raises = s.raises ∧ t.pending = s.pending := by
  obtain ⟨cr, n, rfl⟩ := h
  exact ⟨rfl, rfl, rfl, rfl, rfl⟩
theorem State.Credited.output : (t.outSt p).tx = (s.outSt p).tx ∧ (t.outSt p).pre = (s.outSt p).pre ∧ (t.outSt p).gOn = (s.outSt p).gOn := by
  obtain ⟨cr, n, rfl⟩ := h
  rw [State.outSt_setOut]
  exact ⟨rfl, rfl, rfl⟩
theorem State.Credited.qSt (d : Nat) : t.qSt p d = s.qSt p d := by rw [State.qSt, h.switch.1, State.qSt]
theorem State.Credited.fld (f : Fld) : t.fld f = s.fld f := State.fld_eq h.regs f
theorem State.Credited.flag (f : Fld) : t.flag f = s.flag f := State.flag_eq h.regs f
theorem State.Credited.gclOn : t.gclOn p = s.gclOn p := by rw [State.gclOn, h.flag, h.output.2.2, State.gclOn]
theorem State.Credited.outUp : t.outUp p = s.outUp p := by rw [State.outUp, h.flag, h.flag, State.outUp]
theorem State.Credited.outReady : t.outReady p = s.outReady p := by rw [State.outReady, h.outUp, h.flag, State.outReady]
/-- Where no class is shaped, credits open and close none. -/
theorem State.Credited.classOpen (hcbs : s.fld (SWX_PORTCFG_CBSEN p) = 0) (d : Nat) : t.classOpen p d = s.classOpen p d := by
  simp only [State.classOpen, State.gateOpen, State.preemptable, h.fld, h.flag, h.gclOn, hcbs, Nat.zero_testBit, Bool.not_false, Bool.true_or]
theorem State.Credited.copyAged (x : Copy) : t.copyAged p x = s.copyAged p x := by
  have hlimit : t.ageLimit p x.cls = s.ageLimit p x.cls := by simp only [State.ageLimit, h.fld]
  have hcyc : t.cyc0 = s.cyc0 := State.reg_eq h.regs _
  rw [State.copyAged, hlimit, hcyc, State.copyAged]

end Credited

/-! ### An output selects (R100) -/

section Select

variable (s : State) (p : Nat)

/-- A class with no copy, or one that may not send, is passed over, and nothing is discarded there. -/
theorem State.pickFrom_skips (ex : Bool) {k n : Nat} (hkn : k ≤ n)
    (hskip : ∀ d, k ≤ d → d < n → (s.qSt p d).q = [] ∨ s.classOpen p d = false) : s.pickFrom p ex n = s.pickFrom p ex k := by
  induction n, hkn using Nat.le_induction with
  | base => rfl
  | succ n hkn ih =>
    have hrest : s.pickFrom p ex n = s.pickFrom p ex k := ih (fun d h h1 => hskip d h (Nat.lt_succ_of_lt h1))
    rw [State.pickFrom]
    rcases hskip n hkn (Nat.lt_succ_self n) with hempty | hclosed
    · split
      · exact hrest
      · simp [hempty, State.headDrops, hrest]
    · simp [hclosed, hrest]

/-- An empty or closed output picks nothing. -/
theorem State.pickFrom_none (ex : Bool) (n : Nat) (hskip : ∀ d < n, (s.qSt p d).q = [] ∨ s.classOpen p d = false) :
    s.pickFrom p ex n = (s, none) := s.pickFrom_skips p ex (Nat.zero_le n) (fun d _ h => hskip d h)

section Head

variable {c : Nat} {x : Copy} {l : List Copy} (hp : p < 12) (hq : (s.qSt p c).q = x :: l) (hgcl : s.gclOn p = false)
  (haged : s.copyAged p x = false) (hlaunch : x.ltMode = 0 ∧ x.held = false)
include hq hgcl haged hlaunch

/-- A head copy that is not old and has no launch is not discarded where no gate list runs. -/
theorem State.headDrops_none (n : Nat) : s.headDrops p c n = s := by
  cases n with
  | zero => rfl
  | succ n => simp [State.headDrops, hq, haged, State.copyLate, hlaunch.1, State.longest, hgcl]

/-- It is picked where its class may send. -/
theorem State.pickFrom_head (hopen : s.classOpen p c = true) : s.pickFrom p false (c + 1) = (s, some c) := by
  have hready : s.headReady p c x (s.copyLen p x) = true := by
    simp [State.headReady, State.copyWaits, hlaunch, State.untilClose, hgcl]
  rw [State.pickFrom]
  simp [hopen, s.headDrops_none p hq hgcl haged hlaunch, hq, hready]

end Head

/-- A class that is not paused may send where no gate list runs, no class is shaped, and nothing holds. -/
theorem State.classOpen_of_free {c : Nat} (hpause : (s.fld (MAC_FCSTAT_CLASS p)).testBit c = false) (hgcl : s.gclOn p = false)
    (hcbs : s.fld (SWX_PORTCFG_CBSEN p) = 0) (hhold : s.flag (SWX_GCLSTAT_HOLD p) = false) : s.classOpen p c = true := by
  simp [State.classOpen, State.gateOpen, hpause, hgcl, hcbs, hhold]

end Select

theorem effect_transmissionSelect_none (p : Fin 12) (s : State) (hdom : s.domOn 7 = true) (hup : s.outUp p = true)
    (htx : (s.outSt p).tx = none) (hpre : (s.outSt p).pre = none) (hcbs : s.fld (SWX_PORTCFG_CBSEN p) = 0)
    (hskip : ∀ d : Fin 8, (s.qSt p d).q = [] ∨ s.classOpen p d = false) :
    Effect (.transmissionSelect ⟨p.val, by omega⟩) s [] [] (fun u => (u.outSt p).tx = none) := by
  have hcred := s.credited_creditSync p
  obtain ⟨htx1, hpre1, -⟩ := hcred.output
  have hnone : (s.creditSync p).pickFrom p false 8 = (s.creditSync p, none) :=
    State.pickFrom_none _ p false 8 (fun d hd => by rw [hcred.qSt, hcred.classOpen hcbs]; exact hskip ⟨d, hd⟩)
  have heff : s.inDom 7 (fun s => s.anySelect p.val) = s.creditSync p := by
    simp [State.inDom_of_on hdom, State.anySelect, State.outSelect, hcred.outUp, hup, htx1, htx, hpre1, hpre, hnone]
  exact effect_of_eq heff hcred.only (htx1.trans htx) rfl

/-! ### A frame starts (R70, R79, R100) -/

/-- A flag that takes the value it has leaves every register as it reads. -/
theorem State.reg_setFlag_self (s : State) (a : Nat) {k : Nat} (hk : k < 32) (b : Bool) (h : s.flag ⟨a, k, k⟩ = b) (j : Nat) :
    (s.setFlag ⟨a, k, k⟩ b).reg j = s.reg j := by
  have hbit : (s.reg a).getLsbD k = b := by
    rw [← h, State.flag_eq_bitAt _ _ hk, State.bitAt, State.regN, Nat.div_eq_of_lt hk, Nat.mod_eq_of_lt hk]
    rfl
  have hword : setBits (s.reg a) k k (bit b) = s.reg a := by
    refine BitVec.eq_of_getLsbD_eq fun i _ => ?_
    rw [getLsbD_setBits _ _ _ _ _ hk le_rfl]
    split
    · next hi =>
      obtain rfl : i = k := by omega
      rw [hbit]
      cases b <;> simp [bit]
    · rfl
  rw [State.setFlag, State.setFld, hword, State.reg_setReg_self]

theorem State.lpiLeave_of_awake {s : State} {p : Nat} (h : s.flag (MAC_STAT_LPITX p) = false) :
    s.lpiLeave p = s.setFlag (MAC_STAT_LPITX p) false := by simp [State.lpiLeave, State.lpiTxSync, h]

/-- The transmission of copy `x` that starts in this cycle. -/
def State.newTx (s : State) (x : Copy) : Tx := ⟨x, s.time.now, false, 0, [s.domAt8 0 0, s.domAt8 1 0, s.domAt8 2 0, s.domAt8 3 0]⟩

/-- A copy's timestamps come from the time registers and the time spine. -/
theorem State.newTx_eq {s t : State} (hreg : ∀ a < 0x40500000, t.reg a = s.reg a) (htime : t.time = s.time) (x : Copy) :
    t.newTx x = s.newTx x := by
  have hdom (d : Nat) (hd : d < 4) : t.domAt8 d 0 = s.domAt8 d 0 := by
    simp only [State.domAt8, State.pair, State.regN, State.fld, State.domFrac, htime]
    rw [hreg (TIME_DOM_SEC_LO d) (by unfold TIME_DOM_SEC_LO; omega), hreg (TIME_DOM_SEC_LO d + 4) (by unfold TIME_DOM_SEC_LO; omega),
      hreg (TIME_DOM_NS_NS d).addr (by simp only [TIME_DOM_NS_NS, TIME_DOM_NS]; omega)]
  simp only [State.newTx, htime, hdom 0 (by decide), hdom 1 (by decide), hdom 2 (by decide), hdom 3 (by decide)]

/-- At an output whose line is awake a frame starts, and no register shows it. -/
theorem State.startTx_awake (s : State) (p : Nat) (x : Copy) (hawake : s.flag (MAC_STAT_LPITX p) = false) :
    Only s (s.startTx p x) [] [] ∧ ((s.startTx p x).outSt p).tx = some (s.newTx x) ∧ ∀ c, (s.startTx p x).qSt p c = s.qSt p c := by
  have hreg (j : Nat) : (s.setFlag (MAC_STAT_LPITX p) false).reg j = s.reg j := s.reg_setFlag_self (MAC_STAT p) (by decide) false hawake j
  have hclock : (s.setFlag (MAC_STAT_LPITX p) false).newTx x = s.newTx x := State.newTx_eq (fun j _ => hreg j) rfl x
  have hawaken : Only s (s.setFlag (MAC_STAT_LPITX p) false) [] [] := ⟨fun j _ => hreg j, fun _ => rfl, rfl, (List.append_nil _).symm⟩
  have hstart : s.startTx p x = (s.setFlag (MAC_STAT_LPITX p) false).setOut p { (s.setFlag (MAC_STAT_LPITX p) false).outSt p with
      tx := some ((s.setFlag (MAC_STAT_LPITX p) false).newTx x) } := by
    simp only [State.startTx, State.lpiLeave_of_awake hawake]
    rfl
  rw [hstart]
  refine ⟨hawaken.trans (State.only_setOut _ p _), by rw [State.outSt_setOut, hclock], fun c => ?_⟩
  rw [State.qSt_setOut, State.qSt, State.setFlag_swx, State.qSt]

/-- The head copy of a class starts at an output whose line is awake. -/
theorem State.startHead_awake (s : State) (p c : Nat) {x : Copy} {l : List Copy} (hq : (s.qSt p c).q = x :: l)
    (hport : MAC_STAT p ≠ SWX_QSTAT p c) (hswx : 0x40500000 ≤ SWX_QSTAT p c) (hawake : s.flag (MAC_STAT_LPITX p) = false) :
    Only s (s.startHead p c) [SWX_QSTAT p c] [] ∧ ((s.startHead p c).outSt p).tx = some (s.newTx x) ∧ ((s.startHead p c).qSt p c).q = l ∧
      (s.startHead p c).fld (SWX_QSTAT_FRAMES p c) = min 16383 l.length := by
  have hstart : s.startHead p c = (s.setQ p c { s.qSt p c with q := l }).startTx p x := by
    have htake : s.takeHead p c = (s.setQ p c { s.qSt p c with q := l }, some x) := by rw [State.takeHead, hq]
    simp only [State.startHead, htake]
  have htaken : Only s (s.setQ p c { s.qSt p c with q := l }) [SWX_QSTAT p c] [] := s.only_setQ p c _
  have hawake1 : (s.setQ p c { s.qSt p c with q := l }).flag (MAC_STAT_LPITX p) = false := by
    have hkept : (s.setQ p c { s.qSt p c with q := l }).reg (MAC_STAT_LPITX p).addr = s.reg (MAC_STAT_LPITX p).addr :=
      htaken.1 _ (List.mem_singleton.not.mpr hport)
    rw [State.flag, State.fld, hkept]
    exact hawake
  have hclock : (s.setQ p c { s.qSt p c with q := l }).newTx x = s.newTx x :=
    State.newTx_eq (fun j hj => htaken.1 j (by simp only [List.mem_singleton]; omega)) rfl x
  obtain ⟨honly, htx, hqs⟩ := State.startTx_awake _ p x hawake1
  have hshown (f : Fld) : ((s.setQ p c { s.qSt p c with q := l }).startTx p x).fld f = (s.setQ p c { s.qSt p c with q := l }).fld f := by
    rw [State.fld, honly.1 _ List.not_mem_nil, State.fld]
  rw [hstart]
  exact ⟨htaken.quiet honly, by rw [htx, hclock], by rw [hqs, State.qSt_setQ], by rw [hshown, State.frames_setQ]⟩

theorem effect_transmissionSelect_head (p : Fin 12) (c : Fin 8) (x : Copy) (l : List Copy) (s : State) (hdom : s.domOn 7 = true)
    (hready : s.outReady p = true) (htx : (s.outSt p).tx = none) (hpre : (s.outSt p).pre = none) (hq : (s.qSt p c).q = x :: l)
    (hskip : ∀ d : Fin 8, c < d → (s.qSt p d).q = [] ∨ s.classOpen p d = false) (hcbs : s.fld (SWX_PORTCFG_CBSEN p) = 0)
    (hfree : s.gclOn p = false ∧ s.flag (SWX_GCLSTAT_HOLD p) = false) (hpause : (s.fld (MAC_FCSTAT_CLASS p)).testBit c = false)
    (haged : s.copyAged p x = false) (hlaunch : x.ltMode = 0 ∧ x.held = false) (hawake : s.flag (MAC_STAT_LPITX p) = false) :
    Effect (.transmissionSelect ⟨p.val, by omega⟩) s [SWX_QSTAT p c] [] (fun u =>
      (u.outSt p).tx = some ⟨x, s.time.now, false, 0, [s.domAt8 0 0, s.domAt8 1 0, s.domAt8 2 0, s.domAt8 3 0]⟩ ∧
      (u.qSt p c).q = l ∧ u.fld (SWX_QSTAT_FRAMES p c) = min 16383 l.length) := by
  obtain ⟨hgcl, hhold⟩ := hfree
  let t := s.creditSync p
  have hcred : State.Credited p s t := s.credited_creditSync p
  obtain ⟨htx1, hpre1, -⟩ := hcred.output
  have hup : s.outUp p = true := by
    simp only [State.outReady, Bool.and_eq_true] at hready
    exact hready.1
  have hq1 : (t.qSt p c).q = x :: l := by rw [hcred.qSt, hq]
  have hopen : t.classOpen p c = true := by rw [hcred.classOpen hcbs, s.classOpen_of_free p hpause hgcl hcbs hhold]
  have hpick : t.pickFrom p false 8 = (t, some c.val) := by
    rw [t.pickFrom_skips p false (k := c + 1) c.isLt (fun d hcd hd => by
      rw [hcred.qSt, hcred.classOpen hcbs]
      exact hskip ⟨d, hd⟩ (Fin.lt_def.mpr hcd))]
    exact t.pickFrom_head p hq1 (hcred.gclOn.trans hgcl) ((hcred.copyAged x).trans haged) hlaunch hopen
  have heff : s.inDom 7 (fun s => s.anySelect p.val) = t.startHead p c := by
    simp [State.inDom_of_on hdom, State.anySelect, State.outSelect, t, hcred.outUp, hup, hcred.outReady, hready, htx1, htx, hpre1, hpre, hpick]
  obtain ⟨honly, hstarted, hrest, hframes⟩ := t.startHead_awake p c hq1 (by unfold MAC_STAT SWX_QSTAT; omega) (by unfold SWX_QSTAT; omega)
    ((hcred.flag _).trans hawake)
  have htime : t.newTx x = s.newTx x := State.newTx_eq (fun j _ => State.reg_eq hcred.regs j) rfl x
  exact effect_of_eq heff (hcred.only.trans honly) ⟨by rw [hstarted, htime]; rfl, hrest, hframes⟩ rfl

end Sys2Proof.Machine

/-! Proofs about the end of a transmission (R67, R72, R82, R84). -/

namespace Sys2Proof.Machine

open Sys2Proof

/-! ### What the accounts of a copy leave alone -/

/-- From `s` to `t` the outputs, the MACs, the interfaces, memory, the raises and the queue of commands are the same. -/
structure State.Silent (s t : State) : Prop where
  outs : t.swx.outs = s.swx.outs
  macs : t.mac = s.mac
  sent : t.out = s.out
  memory : t.mem = s.mem
  raised : t.raises = s.raises
  queue : t.pending = s.pending

theorem State.Silent.refl (s : State) : s.Silent s := ⟨rfl, rfl, rfl, rfl, rfl, rfl⟩
theorem State.Silent.trans {s t u : State} (h : s.Silent t) (h1 : t.Silent u) : s.Silent u :=
  ⟨h1.outs.trans h.outs, h1.macs.trans h.macs, h1.sent.trans h.sent, h1.memory.trans h.memory, h1.raised.trans h.raised, h1.queue.trans h.queue⟩
theorem State.Silent.ite {c : Prop} [Decidable c] {s t u : State} (h : s.Silent t) (h1 : s.Silent u) : s.Silent (if c then t else u) := by
  split
  · exact h
  · exact h1
theorem State.OnlyRegs.silent {s t : State} (h : s.OnlyRegs t) : s.Silent t :=
  ⟨congrArg SwxSt.outs h.switch, h.macs, h.outs, h.memory, h.raised, h.queue⟩

section Silent

variable (s : State)

theorem State.silent_setQ (p c : Nat) (x : QSt) : s.Silent (s.setQ p c x) := ⟨rfl, rfl, rfl, rfl, rfl, rfl⟩
theorem State.silent_setRsv (f p n : Nat) : s.Silent (s.setRsv f p n) := ⟨rfl, rfl, rfl, rfl, rfl, rfl⟩
theorem State.silent_setFrm (k : Nat) (x : Option Frm) : s.Silent (s.setFrm k x) := ⟨rfl, rfl, rfl, rfl, rfl, rfl⟩
theorem State.silent_setFree (n : Nat) : s.Silent (s.setFree n) :=
  .ite ((s.onlyRegs_setFld _ n).trans (State.onlyRegs_setFld _ _ n)).silent (s.onlyRegs_setFld _ n).silent
theorem State.silent_recharge (p c : Nat) (fc : Option Nat) (a old new : Nat) : s.Silent (s.recharge p c fc a old new) := by
  have hcells : s.Silent (s.setFld (SWX_QSTAT_CELLS p c) (s.fld (SWX_QSTAT_CELLS p c) - old + new)) := (s.onlyRegs_setFld _ _).silent
  unfold State.recharge
  dsimp only
  split
  · exact hcells.trans (State.silent_setRsv _ _ p _)
  · exact hcells.trans (State.silent_setQ _ p c _)
  · exact hcells.trans (State.silent_setQ _ p c _)
theorem State.silent_dropRef (k : Nat) : s.Silent (s.dropRef k) := by
  unfold State.dropRef
  split
  · exact .refl s
  · exact .ite ((s.silent_setFrm k none).trans (State.silent_setFree _ _)) (s.silent_setFrm k _)
theorem State.silent_copyFree (p : Nat) (x : Copy) : s.Silent (s.copyFree p x) :=
  ((s.silent_recharge p x.cls x.fc x.acct x.n 0).trans (State.onlyRegs_setFld _ BUF_DESC_FREE _).silent).trans (State.silent_dropRef _ x.frm)

end Silent

/-! ### The end of a transmission (R67, R72, R82, R84) -/

theorem State.onlyRegs_macCountFrame (s : State) (p base : Nat) (f : List Byte) (ptp : Bool) : s.OnlyRegs (s.macCountFrame p base f ptp) := by
  have hlengths (b n : Nat) := (s.onlyRegs_macCount p b 1).trans (State.onlyRegs_macCount (s.macCount p b 1) p n f.length)
  have haddress (b n d : Nat) := (hlengths b n).trans (State.onlyRegs_macCount _ p d 1)
  unfold State.macCountFrame
  refine .trans (t := ite _ _ _) ?_ (.ite (State.onlyRegs_macCount _ p _ 1) (State.onlyRegs_refl _))
  exact (haddress _ _ _).trans (.ite (State.onlyRegs_macCount _ p _ 1) (State.onlyRegs_refl _))

/-- With no flow control waiting, a frame that leaves takes its copy with it and nothing follows. -/
theorem State.frameLeaves {s t : State} (p : Nat) (b : List Byte) (x : Copy) (h : s.Silent t) (hfcq : (s.macSt p).fcq = []) :
    let u := ((t.emit (.frame p b)).copyFree p x).fcFlush p
    u.swx.outs = s.swx.outs ∧ u.out = .frame p b :: s.out ∧ u.mem = s.mem ∧ u.raises = s.raises ∧ u.pending = s.pending := by
  have hfree := (t.emit (.frame p b)).silent_copyFree p x
  generalize (t.emit (.frame p b)).copyFree p x = v at hfree ⊢
  have hidle : (v.macSt p).fcq = [] := by
    rw [State.macSt, hfree.macs, State.emit_mac, h.macs]
    exact hfcq
  simp only [State.fcFlush, hidle, List.foldl_nil, State.setMac_out, State.setMac_mem, State.setMac_raises, State.setMac_pending]
  exact ⟨hfree.outs.trans h.outs, by rw [hfree.sent, State.emit, h.sent], hfree.memory.trans h.memory, hfree.raised.trans h.raised,
    hfree.queue.trans h.queue⟩

theorem State.shape_eq {s t : State} (h : t.swx.vlan = s.swx.vlan) (p : Nat) (x : Copy) (f : List Byte) : t.shape p x f = s.shape p x f := by
  have hvlan : t.vlanOf x.vid = s.vlanOf x.vid := by rw [State.vlanOf, h, State.vlanOf]
  unfold State.shape
  rw [hvlan]

/-- What a PTP event message is depends on the settings of the port. -/
theorem State.macPtp_eq {s t : State} (h : ∀ a, macSetting a → t.reg a = s.reg a) (p : Nat) (f : List Byte) : t.macPtp p f = s.macPtp p f := by
  have hcfg (g : Fld) (hg : g.addr = MAC_TSCFG p) : t.fld g = s.fld g := by
    have hreg : t.reg (MAC_TSCFG p) = s.reg (MAC_TSCFG p) := h _ (macSetting_of_offset (o := 0x20) p (by decide) (by decide))
    rw [State.fld, hg, hreg, State.fld, hg]
  have hdom : t.regN (MAC_PTPDOM p) = s.regN (MAC_PTPDOM p) := by
    have hreg : t.reg (MAC_PTPDOM p) = s.reg (MAC_PTPDOM p) := h _ (macSetting_of_offset (o := 0x24) p (by decide) (by decide))
    rw [State.regN, hreg, State.regN]
  simp only [State.macPtp, State.flag, hcfg (MAC_TSCFG_L2 p) rfl, hcfg (MAC_TSCFG_UDP4 p) rfl, hcfg (MAC_TSCFG_UDP6 p) rfl,
    hcfg (MAC_TSCFG_DOMEN p) rfl, hdom]


/-- A command whose own effect, as `exec` gives it, is `u`. -/
theorem leaves_of_eq {c : Instr} {s t u : State} {P : State → Prop} (heff : t = u) (hp : P u) (hexec : Machine.exec c s = .next t.settle) :
    Leaves c s P := ⟨u, heff ▸ hexec, hp⟩

theorem State.ptpOut_none {s : State} {p : Nat} {f : List Byte} (h : s.macPtp p f = none) (x : Copy) (tout : List Nat) :
    s.ptpOut p x f tout = (f, none) := by rw [State.ptpOut, h]

/-- What the end of a transmission leaves at output `p`, beside the accounts of its copy. -/
theorem State.txEnd_ended {s : State} {p : Nat} {t : Tx} {f : Machine.Frm} (e8 : Nat) (htx : (s.outSt p).tx = some t)
    (hfrm : s.frm t.copy.frm = some f) (hended : f.ended = true) (hptp : s.macPtp p (s.shape p t.copy f.data) = none) :
    ∃ v : State, ((s.creditSync p).setOut p { (s.creditSync p).outSt p with tx := none }).Silent v ∧ s.txEnd p e8 =
      ((v.emit (.frame p (if t.stomp || f.failed then withBadFcs (s.shape p t.copy f.data) else withFcs (s.shape p t.copy f.data)))).copyFree
        p t.copy).fcFlush p := by
  have hcred := s.credited_creditSync p
  obtain ⟨-, hframes, hvlan⟩ := hcred.switch
  have htx1 : ((s.creditSync p).outSt p).tx = some t := hcred.output.1.trans htx
  have hfrm1 : (s.creditSync p).frm t.copy.frm = some f := by rw [State.frm, hframes]; exact hfrm
  have hsettings (a : Nat) (_ : macSetting a) :
      ((s.creditSync p).setOut p { (s.creditSync p).outSt p with tx := none }).reg a = s.reg a := State.reg_eq hcred.regs a
  have hshape : ((s.creditSync p).setOut p { (s.creditSync p).outSt p with tx := none }).shape p t.copy f.data = s.shape p t.copy f.data :=
    State.shape_eq hvlan p t.copy f.data
  simp only [State.txEnd, htx1, hfrm1, hended, Bool.not_true, Bool.false_eq_true, if_false]
  generalize (s.creditSync p).setOut p _ = idle at hshape hsettings ⊢
  generalize hfrags : (if 0 < t.frags then idle.macCount p 52 1 else idle) = frags
  have honly : idle.OnlyRegs frags := hfrags ▸ .ite (idle.onlyRegs_macCount p 52 1) idle.onlyRegs_refl
  have hkept (a : Nat) (h : macSetting a) : frags.reg a = s.reg a := by
    rw [← hsettings a h, ← hfrags]
    split
    · exact idle.reg_macCount p h (by decide) 1
    · rfl
  rw [hshape]
  split
  · exact ⟨_, (honly.trans (frags.onlyRegs_macCount p 47 1)).silent, rfl⟩
  · have hptp1 : frags.macPtp p (s.shape p t.copy f.data) = none := (State.macPtp_eq hkept p _).trans hptp
    rw [State.ptpOut_none hptp1, hptp1]
    exact ⟨_, ((honly.trans (frags.onlyRegs_macCountFrame p 32 _ false)).trans (State.onlyRegs_count _ _ 1)).silent, rfl⟩

theorem leaves_transmissionEnd (p : Fin 12) (e8 : Fin 8) (t : Tx) (f : Machine.Frm) (s : State) (hdom : s.domOn 7 = true)
    (htx : (s.outSt p).tx = some t) (hfrm : s.frm t.copy.frm = some f) (hended : f.ended = true)
    (hptp : s.macPtp p (s.shape p t.copy f.data) = none) (hfcq : (s.macSt p).fcq = []) :
    Leaves (.transmissionEnd p e8) s (fun u => (u.outSt p).tx = none ∧
      u.out = .frame p (if t.stomp || f.failed then withBadFcs (s.shape p t.copy f.data) else withFcs (s.shape p t.copy f.data)) :: s.out ∧
      u.mem = s.mem ∧ u.raises = s.raises ∧ u.pending = s.pending) := by
  obtain ⟨hmac, hout, hmem, hraises, hpending⟩ := (s.credited_creditSync p).beside
  obtain ⟨v, hsilent, hend⟩ := State.txEnd_ended e8.val htx hfrm hended hptp
  have hfcq1 : (((s.creditSync p).setOut p { (s.creditSync p).outSt p with tx := none }).macSt p).fcq = [] := by
    rw [← hfcq, State.macSt, State.macSt, ← hmac]
    rfl
  obtain ⟨houts1, hout1, hmem1, hraises1, hpending1⟩ := State.frameLeaves p _ t.copy hsilent hfcq1
  refine leaves_of_eq ((State.inDom_of_on hdom _).trans hend) ⟨?_, hout1.trans (congrArg _ hout), hmem1.trans hmem, hraises1.trans hraises,
    hpending1.trans hpending⟩ rfl
  rw [State.outSt, houts1]
  exact congrArg OutSt.tx (State.outSt_setOut (s.creditSync p) p _)

end Sys2Proof.Machine

/-! Proofs about the end of a frame that enters: one below 64 bytes, and one that passes every check (R65, R82). -/

namespace Sys2Proof.Machine

open Sys2Proof

/-! ### A frame shorter than 64 bytes reaches no staging cell and no output (R65) -/

/-- `t` is `s` but for the frames entering. -/
def State.RxOnly (s t : State) : Prop := ∃ r, t = { s with swx := { s.swx with rx := r } }

theorem State.RxOnly.refl (s : State) : s.RxOnly s := ⟨s.swx.rx, rfl⟩
theorem State.RxOnly.trans {s t u : State} (h : s.RxOnly t) (h1 : t.RxOnly u) : s.RxOnly u := by
  obtain ⟨r, rfl⟩ := h
  obtain ⟨r1, rfl⟩ := h1
  exact ⟨r1, rfl⟩
theorem State.rxOnly_setRx (s : State) (k : Nat) (g : Option Ingr) : s.RxOnly (s.setRx k g) := ⟨_, rfl⟩
theorem State.rxOf_setRx (s : State) (k : Nat) (g : Option Ingr) : (s.setRx k g).rxOf k = g := by simp [State.rxOf, State.setRx]

/-- Frame `g` at port `p` holds the bytes `b`, no cell, no copy and no meter, and has not passed byte 64. -/
structure Ingr.Fresh (p : Nat) (b : List Byte) (g : Ingr) : Prop where
  port : g.port = p
  data : g.data = b
  staged : g.staged = false
  nobuf : g.nobuf = false
  proto : g.proto = none
  meter : g.meter = none
  used : g.used = 0
  lent : g.lent = 0

/-- `t` is `s` but for a fresh frame with the bytes `b` that enters from source `k` at port `p`. -/
def State.Enters (k p : Nat) (b : List Byte) (s t : State) : Prop := s.RxOnly t ∧ ∃ g, t.rxOf k = some g ∧ g.Fresh p b

theorem State.ringBack_fresh (s : State) {p : Nat} {b : List Byte} {g : Ingr} (h : g.Fresh p b) : s.ringBack g = s := by
  simp [State.ringBack, h.used, h.lent]

theorem State.enters_setRx {k p : Nat} {b : List Byte} {s t : State} {g : Ingr} (hrx : s.RxOnly t) (h : g.Fresh p b) :
    State.Enters k p b s (t.setRx k (some g)) := ⟨hrx.trans (t.rxOnly_setRx k _), g, t.rxOf_setRx k _, h⟩

section Enters

variable {k p : Nat} {b : List Byte} {s t : State} (h : State.Enters k p b s t)
include h

theorem State.Enters.bytes (c : List Byte) : State.Enters k p (b ++ c) s (t.ingrBytes k c) := by
  obtain ⟨hrx, g, hg, hf⟩ := h
  have hbytes : t.ingrBytes k c = t.setRx k (some { g with data := b ++ c }) := by simp [State.ingrBytes, hg, hf.staged, hf.data]
  rw [hbytes]
  exact State.enters_setRx hrx { hf with data := rfl }

theorem State.Enters.at64 (hb : b.length < 64) : t.macAt64 k = t := by
  obtain ⟨-, g, hg, hf⟩ := h
  simp [State.macAt64, hg, hf.data, hb]

/-- A fresh frame that fails gives nothing back. -/
theorem State.Enters.fails (n : Nat) : State.Enters k p b s (t.ingrFail k n) := by
  obtain ⟨hrx, g, hg, hf⟩ := h
  cases hfail : g.fail with
  | true =>
    have hsame : t.ingrFail k n = t := by simp [State.ingrFail, hg, hfail]
    rw [hsame]
    exact ⟨hrx, g, hg, hf⟩
  | false =>
    have hset : t.ingrFail k n = t.setRx k (some { g with fail := true, used := 0, lent := 0, chain := [] }) := by
      simp [State.ingrFail, hg, hfail, hf.proto, t.ringBack_fresh hf]
    rw [hset]
    exact State.enters_setRx hrx { hf with used := rfl, lent := rfl }

theorem State.Enters.sdu : t.sduCheck k = t := by
  obtain ⟨-, g, hg, hf⟩ := h
  simp [State.sduCheck, hg, hf.proto]

theorem State.Enters.checks : State.Enters k p b s (t.ingrChecks k) := by
  obtain ⟨-, g, hg, hf⟩ := id h
  have hfails (c : Prop) [Decidable c] {u : State} (hu : State.Enters k p b s u) (n : Nat) :
      State.Enters k p b s (if c then u.ingrFail k n else u) := by
    split
    · exact hu.fails n
    · exact hu
  simp only [State.ingrChecks, hg, hf.nobuf, Bool.false_eq_true, if_false]
  rw [(hfails _ h _).sdu]
  exact hfails _ (hfails _ h _) _

/-- A fresh frame that is over is forgotten. -/
theorem State.Enters.gone : s.RxOnly (t.ingrGone k) ∧ (t.ingrGone k).rxOf k = none := by
  obtain ⟨hrx, g, hg, hf⟩ := h
  have hset : t.ingrGone k = t.setRx k none := by simp [State.ingrGone, hg, hf.meter, t.ringBack_fresh hf]
  rw [hset]
  exact ⟨hrx.trans (t.rxOnly_setRx k none), t.rxOf_setRx k none⟩

end Enters

/-- Fewer than 64 bytes that start a frame wait for its end. -/
theorem State.enters_macTake (s : State) (p e8 : Nat) (frag : Bool) (b : List Byte) (hnew : s.rxOf (rxKey p frag) = none)
    (hb : b.length < 64) : State.Enters (rxKey p frag) p b s (s.macTake p e8 frag b) := by
  let g := s.ingrNew p e8 (sgn 16 (s.fld (MAC_TSINLAT_LAT p)))
  have hstart : State.Enters (rxKey p frag) p [] s (s.setRx (rxKey p frag) (some g)) :=
    State.enters_setRx (.refl s) ⟨rfl, rfl, rfl, rfl, rfl, rfl, rfl, rfl⟩
  have hlen : (((s.setRx (rxKey p frag) (some g)).rxOf (rxKey p frag)).map (fun g => g.data.length)).getD 0 = 0 := by
    rw [State.rxOf_setRx]
    rfl
  have hwhole := hstart.bytes (b.take 64)
  rw [List.nil_append, List.take_of_length_le (by omega)] at hwhole
  have hend := hwhole.bytes (b.drop 64)
  rw [List.drop_of_length_le (by omega), List.append_nil] at hend
  have htake : s.macTake p e8 frag b =
      (((s.setRx (rxKey p frag) (some g)).ingrBytes (rxKey p frag) b).ingrBytes (rxKey p frag) []).ingrChecks (rxKey p frag) := by
    simp only [State.macTake, hnew, g, hlen, Nat.sub_zero, List.take_of_length_le (show b.length ≤ 64 by omega),
      List.drop_of_length_le (show b.length ≤ 64 by omega), hwhole.at64 hb]
  rw [htake]
  exact hend.checks

/-! ### The end of a frame (R65) -/

theorem State.inBlk_macRx {s : State} {p : Nat} (hruns : s.runs 7 (.mac p) = true) (hon : s.flag (MAC_CTRL_RXEN p) = true)
    (hlink : s.flag (MAC_STAT_LINK p) = true) (e8 : Nat) (frag : Bool) (b : List Byte) (n : Nat) :
    s.inBlk 7 (.mac p) (fun s => s.macRx p e8 frag b (.endOk n)) = (s.macTake p e8 frag b).macEnd (rxKey p frag) n false false := by
  simp [State.inBlk_of_runs hruns, State.macRx, hon, hlink]

/-- The checks of a frame depend on the settings of its port. -/
theorem State.macCheck_eq {s t : State} {p : Nat} (h : t.fld (MAC_MAXLEN_MAXLEN p) = s.fld (MAC_MAXLEN_MAXLEN p)) (g : Ingr) (err asm : Bool) :
    t.macCheck p g err asm = s.macCheck p g err asm := by simp only [State.macCheck, h]

/-- A frame that fails check `c` at its end. -/
theorem State.macEnd_fails {t : State} {k : Nat} {g : Ingr} {c : Nat} (hg : t.rxOf k = some g) (hc : t.macCheck g.port g false false = some c) :
    t.macEnd k 0 false false = (if 128 < g.data.length then
      ((t.macCount g.port c 1).ingrFail k g.data.length).macCount g.port 24 (g.data.length - 128)
      else (t.macCount g.port c 1).ingrFail k g.data.length).ingrGone k := by
  simp [State.macEnd, hg, hc]

theorem leaves_frameReceive_short (p : Fin 12) (e8 : Fin 8) (frag : Bool) (b : List Byte) (s : State) (hruns : s.runs 7 (.mac p) = true)
    (hon : s.flag (MAC_CTRL_RXEN p) = true) (hlink : s.flag (MAC_STAT_LINK p) = true) (hnew : s.rxOf (rxKey p frag) = none)
    (hb : b.length < 64) (hgood : fcsGood b = true) :
    Leaves (.frameReceive p e8 b ⟨frag, .endOk 0⟩) s (fun u => u.regN (macCnt p 16) = (s.regN (macCnt p 16) + 1) % 2 ^ 32 ∧
      u.rxOf (rxKey p frag) = none ∧ u.swx.qs = s.swx.qs ∧ u.raises = s.raises ∧ u.mem = s.mem) := by
  obtain ⟨⟨r, ht⟩, g, hg, hf⟩ := s.enters_macTake p e8 frag b hnew hb
  have heff := State.inBlk_macRx hruns hon hlink e8 frag b 0
  generalize s.macTake p e8 frag b = t at ht hg heff
  have hcheck : t.macCheck g.port g false false = some 16 := by simp [State.macCheck, hf.data, hb, hgood]
  have honly := t.onlyRegs_macCount p 16 1
  have hcounted : State.Enters (rxKey p frag) p b (t.macCount p 16 1) (t.macCount p 16 1) :=
    ⟨.refl _, g, by rw [State.rxOf, honly.switch]; exact hg, hf⟩
  obtain ⟨⟨r1, hu⟩, hnone⟩ := (hcounted.fails b.length).gone
  rw [State.macEnd_fails hg hcheck, if_neg (by rw [hf.data]; omega), hf.port, hf.data] at heff
  refine leaves_of_eq heff ⟨?_, hnone, ?_, ?_, ?_⟩ rfl
  · have hcount : (t.macCount p 16 1).regN (macCnt p 16) = (t.regN (macCnt p 16) + 1) % 2 ^ 32 := t.regN_macCount_same p (by decide) 1
    have hstart : t.regN (macCnt p 16) = s.regN (macCnt p 16) := by rw [ht]; rfl
    rw [← hstart, ← hcount, hu]
    rfl
  · rw [hu]
    show (t.macCount p 16 1).swx.qs = s.swx.qs
    rw [honly.switch, ht]
  · rw [hu]
    show (t.macCount p 16 1).raises = s.raises
    rw [honly.raised, ht]
  · rw [hu]
    show (t.macCount p 16 1).mem = s.mem
    rw [honly.memory, ht]

/-- The fragments of a reassembled frame count whatever the checks say (R82). -/
def State.fragsCounted (s : State) (p n : Nat) : State := if 0 < n then (s.macCount p 53 n).macCount p 54 1 else s

/-- A frame that passes every check counts as received, and acts or goes on to the outputs. -/
theorem State.macEnd_passes {t : State} {k n : Nat} {g : Ingr} (hg : t.rxOf k = some g)
    (hpass : (t.fragsCounted g.port n).macCheck g.port g false false = none) :
    t.macEnd k n false false =
      let w := (t.fragsCounted g.port n).macCountFrame g.port 0 g.data ((t.fragsCounted g.port n).macPtp g.port g.data).isSome
      if g.ctl then (w.ingrGone k).macControl g.port g.data else w.ingrDone k := by
  cases n with
  | zero =>
    have hnone : t.fragsCounted g.port 0 = t := rfl
    rw [hnone] at hpass ⊢
    simp [State.macEnd, hg, hpass]
  | succ n =>
    have hfrags : t.fragsCounted g.port (n + 1) = (t.macCount g.port 53 (n + 1)).macCount g.port 54 1 := if_pos (Nat.succ_pos n)
    rw [hfrags] at hpass ⊢
    simp [State.macEnd, hg, hpass]

theorem yields_frameReceive_good (p : Fin 12) (e8 : Fin 8) (frag : Bool) (b : List Byte) (n : Nat) (g : Ingr) (t s : State)
    (hruns : s.runs 7 (.mac p) = true) (hon : s.flag (MAC_CTRL_RXEN p) = true) (hlink : s.flag (MAC_STAT_LINK p) = true)
    (ht : t = s.macTake p e8 frag b) (hg : t.rxOf (rxKey p frag) = some g ∧ g.port = p.val) (hgood : t.macCheck p g false false = none) :
    Yields (.frameReceive p e8 b ⟨frag, .endOk n⟩) s
      ((fun (w : State) => if g.ctl then (w.ingrGone (rxKey p frag)).macControl p g.data else w.ingrDone (rxKey p frag))
        ((fun (w : State) => w.macCountFrame p 0 g.data (w.macPtp p g.data).isSome)
          (if 0 < n then (t.macCount p 53 n).macCount p 54 1 else t))) := by
  obtain ⟨hrx, hport⟩ := hg
  have hset : macSetting (MAC_MAXLEN_MAXLEN p).addr := macSetting_of_offset (o := 0x14) p (by decide) (by decide)
  have hmax : (t.fragsCounted p n).fld (MAC_MAXLEN_MAXLEN p) = t.fld (MAC_MAXLEN_MAXLEN p) := by
    unfold State.fragsCounted
    split
    · rw [State.fld_macCount _ p hset (by decide), State.fld_macCount _ p hset (by decide)]
    · rfl
  have hpass : (t.fragsCounted g.port n).macCheck g.port g false false = none := by
    rw [hport, State.macCheck_eq hmax, hgood]
  have hend := State.macEnd_passes hrx hpass
  rw [ht, ← State.inBlk_macRx hruns hon hlink e8 frag b n, ← ht, hport] at hend
  exact congrArg (fun u : State => Host.Outcome.next u.settle) hend

end Sys2Proof.Machine

/-! What a frame that enters leaves alone: the counters of received frames, and the queue of commands (R82). -/

namespace Sys2Proof.Machine

open Sys2Proof

/-! ### The frame -/

/-- A counter of what a MAC receives: one of the first 32 of a port. -/
def rxCounter (a : Nat) : Bool := decide (0x40800000 ≤ a ∧ a < 0x408C0000 ∧ 0x400 ≤ a % 0x10000 ∧ a % 0x10000 < 0x480)
theorem rxCounter_eq_false (a : Nat) :
    rxCounter a = false ↔ a < 0x40800000 ∨ 0x408C0000 ≤ a ∨ a % 0x10000 < 0x400 ∨ 0x480 ≤ a % 0x10000 := by
  rw [rxCounter, decide_eq_false_iff_not]
  omega
/-- The counters of what the MACs receive among the registers. -/
def rxCounts (regs : List (Nat × Word)) (a : Nat) : Word := if rxCounter a then storeGet regReset regs a else 0

/-- From `s` to `t` no counter of received frames changes, and no command is queued. -/
abbrev State.Hears (s t : State) : Prop := rxCounts t.regs = rxCounts s.regs ∧ t.pending = s.pending

theorem State.Hears.refl (s : State) : s.Hears s := ⟨rfl, rfl⟩
theorem State.Hears.trans {s t u : State} (h : s.Hears t) (h1 : t.Hears u) : s.Hears u := ⟨h1.1.trans h.1, h1.2.trans h.2⟩
theorem State.Hears.ite {c : Prop} [Decidable c] {s t u : State} (h : s.Hears t) (h1 : s.Hears u) : s.Hears (if c then t else u) := by
  split
  · exact h
  · exact h1
theorem State.Hears.reg {s t : State} (h : s.Hears t) {a : Nat} (ha : rxCounter a = true) : t.reg a = s.reg a := by
  simpa [rxCounts, ha, State.reg] using congrFun h.1 a

theorem State.hears_foldl {β : Type} {op : State → β → State} (h : ∀ (t : State) (x : β), t.Hears (op t x)) (s : State) (l : List β) :
    s.Hears (l.foldl op s) := by
  induction l generalizing s with
  | nil => exact .refl s
  | cons x t ih => exact (h s x).trans (ih (op s x))

/-- A branch of the model keeps what both its sides keep. -/
theorem State.heard_ite (c : Prop) [Decidable c] (t u : State) :
    rxCounts (if c then t else u).regs = (if c then rxCounts t.regs else rxCounts u.regs) ∧
    (if c then t else u).pending = (if c then t.pending else u.pending) := by
  split <;> exact ⟨rfl, rfl⟩

/-! ### Registers beside the counters of received frames -/

section Registers

variable (s : State)

@[simp] theorem State.rxCounts_setReg {a : Nat} (v : Word) (h : rxCounter a = false) : rxCounts (s.setReg a v).regs = rxCounts s.regs := by
  funext b
  unfold rxCounts
  split
  · next hb =>
    have hne : b ≠ a := fun hab => by simp [hab, h] at hb
    exact s.reg_setReg_ne v hne
  · rfl
@[simp] theorem State.rxCounts_setFld (f : Fld) (n : Nat) (h : rxCounter f.addr = false) : rxCounts (s.setFld f n).regs = rxCounts s.regs :=
  s.rxCounts_setReg _ h
@[simp] theorem State.rxCounts_setFlag (f : Fld) (b : Bool) (h : rxCounter f.addr = false) : rxCounts (s.setFlag f b).regs = rxCounts s.regs :=
  s.rxCounts_setReg _ h
@[simp] theorem State.rxCounts_count {a : Nat} (n : Nat) (h : rxCounter a = false) : rxCounts (s.count a n).regs = rxCounts s.regs :=
  s.rxCounts_setReg _ h

end Registers

@[simp] theorem mac_beside (p : Nat) : rxCounter (MAC_IRQ_TSAVAIL p).addr = false ∧ rxCounter (MAC_IRQ_CNT p).addr = false ∧
    rxCounter (MAC_STAT_LPITX p).addr = false ∧ rxCounter (MAC_FCSTAT_XOFFSENT p).addr = false := by
  simp only [rxCounter_eq_false, MAC_IRQ_TSAVAIL, MAC_IRQ_CNT, MAC_STAT_LPITX, MAC_FCSTAT_XOFFSENT, MAC_IRQ, MAC_STAT, MAC_FCSTAT]
  omega
@[simp] theorem buf_beside : rxCounter BUF_FREE_CELLS.addr = false ∧ rxCounter BUF_LOW_CELLS.addr = false ∧
    rxCounter BUF_DESC_FREE.addr = false ∧ rxCounter BUF_STAT_DESCEMPTY.addr = false := by decide
@[simp] theorem swx_beside (p i : Nat) : rxCounter (SWX_QSTAT_FRAMES p i).addr = false ∧ rxCounter (SWX_QSTAT_CELLS p i).addr = false ∧
    rxCounter (SWX_CNT p i) = false ∧ rxCounter (SWX_FC_CNT p i) = false := by
  simp only [rxCounter_eq_false, SWX_QSTAT_FRAMES, SWX_QSTAT_CELLS, SWX_QSTAT, SWX_CNT, SWX_FC_CNT]
  omega
@[simp] theorem ctx_beside (f : Nat) : rxCounter (SWX_FC_STAT_SEQ f).addr = false ∧ rxCounter (SWX_FC_STAT_BLOCKED f).addr = false := by
  simp only [rxCounter_eq_false, SWX_FC_STAT_SEQ, SWX_FC_STAT_BLOCKED, SWX_FC_STAT]
  omega

/-! ### The operations of a frame that enters -/

section Operations

variable (s : State) (p : Nat)

@[simp] theorem State.hears_setMac (x : MacSt) : s.Hears (s.setMac p x) := ⟨rfl, rfl⟩
@[simp] theorem State.hears_macSync : s.Hears (s.macSync p) := by simp [State.Hears, State.macSync]
/-- The counters from 32 on count what a MAC sends, and the rest of its events. -/
@[simp] theorem State.hears_macCount (i n : Nat) (hi : 32 ≤ i ∧ i < 64) : s.Hears (s.macCount p i n) := by
  have hcnt : rxCounter (macCnt p i) = false := by simp only [rxCounter_eq_false, macCnt]; omega
  have hhalf : rxCounter (MAC_CNTHALF p 0 + 4 * (i / 32)) = false := by simp only [rxCounter_eq_false, MAC_CNTHALF]; omega
  have hcount : s.Hears (s.count (macCnt p i) n) := by simp [State.Hears, hcnt]
  have hset (t : State) : t.Hears (t.setBitAt (MAC_CNTHALF p 0) i true) := ⟨t.rxCounts_setReg _ hhalf, rfl⟩
  exact .ite ((hcount.trans (hset _)).trans (State.hears_macSync _ p)) hcount
@[simp] theorem State.hears_lpiTxSync : s.Hears (s.lpiTxSync p) := by simp [State.Hears, State.heard_ite, State.lpiTxSync]
@[simp] theorem State.hears_lpiLeave : s.Hears (s.lpiLeave p) := by simp [State.Hears, State.lpiLeave]

@[simp] theorem State.hears_ctlCount : s.Hears (s.ctlCount p 32) := by simp [State.Hears, State.ctlCount]
@[simp] theorem State.hears_macFcOut (cls quanta : Nat) : s.Hears (s.macFcOut p cls quanta) := by
  have hcounter (c : Prop) [Decidable c] : 32 ≤ (if c then 44 else 43) ∧ (if c then 44 else 43) < 64 := by split <;> decide
  rw [State.macFcOut_eq]
  simp [State.Hears, hcounter]
@[simp] theorem State.hears_macSendFc (cls quanta : Nat) : s.Hears (s.macSendFc p cls quanta) := by
  simp [State.Hears, State.heard_ite, State.macSendFc]
@[simp] theorem State.hears_macGen : s.Hears (s.macGen p) := by simp [State.Hears, State.heard_ite, State.macGen]
@[simp] theorem State.hears_setRingFree (n : Nat) : s.Hears (s.setRingFree p n) := by simp [State.Hears, State.setRingFree]
@[simp] theorem State.hears_setRing (n : Nat) : s.Hears (s.setRing p n) := by simp [State.Hears, State.heard_ite, State.setRing]
@[simp] theorem State.hears_setFree (n : Nat) : s.Hears (s.setFree n) := by simp [State.Hears, State.heard_ite, State.setFree]
@[simp] theorem State.hears_swxCount (i : Nat) : s.Hears (s.swxCount p i) := by simp [State.Hears, State.swxCount]

/-! #### Queues, copies and frames -/

@[simp] theorem State.hears_setFcSt (f : Nat) (x : FcSt) : s.Hears (s.setFcSt f x) := ⟨rfl, rfl⟩
@[simp] theorem State.hears_setRsv (f n : Nat) : s.Hears (s.setRsv f p n) := ⟨rfl, rfl⟩
@[simp] theorem State.hears_setOut (x : OutSt) : s.Hears (s.setOut p x) := ⟨rfl, rfl⟩
@[simp] theorem State.hears_setFrm (k : Nat) (x : Option Frm) : s.Hears (s.setFrm k x) := ⟨rfl, rfl⟩
@[simp] theorem State.hears_setRx (k : Nat) (g : Option Ingr) : s.Hears (s.setRx k g) := ⟨rfl, rfl⟩
@[simp] theorem State.hears_setSent (l : List Copy) : s.Hears (s.setSent p l) := ⟨rfl, rfl⟩
@[simp] theorem State.hears_setQ (c : Nat) (x : QSt) : s.Hears (s.setQ p c x) := by simp [State.Hears, State.setQ]
@[simp] theorem State.hears_creditSync : s.Hears (s.creditSync p) := by simp [State.Hears, State.creditSync]
@[simp] theorem State.hears_recharge (c : Nat) (fc : Option Nat) (a old new : Nat) : s.Hears (s.recharge p c fc a old new) := by
  unfold State.recharge
  split <;> simp [State.Hears]
@[simp] theorem State.hears_copySent (x : Copy) : s.Hears (s.copySent p x) := by simp [State.Hears, State.copySent]
@[simp] theorem State.hears_dropRef (k : Nat) : s.Hears (s.dropRef k) := by
  unfold State.dropRef
  split <;> simp [State.Hears, State.heard_ite]
@[simp] theorem State.hears_copyFree (x : Copy) : s.Hears (s.copyFree p x) := by simp [State.Hears, State.copyFree]
@[simp] theorem State.hears_mapCopies (cls key : Nat) (f : Copy → Copy) : s.Hears (s.mapCopies p cls key f) := by
  simp [State.Hears, State.mapCopies]
@[simp] theorem State.hears_settleCopy (cls key n : Nat) : s.Hears (s.settleCopy p cls key n) := by
  unfold State.settleCopy
  split <;> simp [State.Hears]
@[simp] theorem State.hears_sentOver (key : Nat) : s.Hears (s.sentOver p key) := by
  unfold State.sentOver
  split <;> simp [State.Hears]
@[simp] theorem State.hears_bucketPay (f n : Nat) : s.Hears (s.bucketPay f n) := by simp [State.Hears, State.bucketPay]
@[simp] theorem State.hears_ringBack (g : Ingr) : s.Hears (s.ringBack g) := by simp [State.Hears, State.heard_ite, State.ringBack]
@[simp] theorem State.hears_ingrGone (k : Nat) : s.Hears (s.ingrGone k) := by
  unfold State.ingrGone
  dsimp only
  repeat' split
  all_goals simp [State.Hears]
@[simp] theorem State.hears_ingrFail (k n : Nat) : s.Hears (s.ingrFail k n) := by
  unfold State.ingrFail
  dsimp only
  repeat' split
  all_goals simp [State.Hears, State.heard_ite, State.hears_foldl]

/-! #### An output picks and starts a copy -/

@[simp] theorem State.hears_dropHead (c : Nat) {k : State → State} (h : ∀ t : State, t.Hears (k t)) : s.Hears (s.dropHead p c k) := by
  unfold State.dropHead
  split
  · exact .refl s
  · exact .trans (by simp [State.Hears]) (h _)
@[simp] theorem State.hears_headDrops (c n : Nat) : s.Hears (s.headDrops p c n) := by
  induction n generalizing s with
  | zero => exact .refl s
  | succ n ih =>
    have hdrop (k : State → State) (h : ∀ t : State, t.Hears (k t)) : s.Hears ((s.dropHead p c k).headDrops p c n) :=
      (s.hears_dropHead p c h).trans (ih _)
    rw [State.headDrops]
    split
    · exact .refl s
    · exact .ite (hdrop _ (fun t => t.hears_swxCount p 2)) (.ite (hdrop _ (fun t => t.hears_macCount p 48 1 (by decide)))
        (.ite (hdrop _ (fun t => t.hears_swxCount p 6)) (.refl s)))
@[simp] theorem State.hears_pickFrom (ex : Bool) (n : Nat) : s.Hears (s.pickFrom p ex n).1 := by
  induction n generalizing s with
  | zero => exact .refl s
  | succ c ih =>
    have hdrops := s.hears_headDrops p c (s.qSt p c).q.length
    rw [State.pickFrom]
    dsimp only
    repeat' split
    · exact ih s
    · exact hdrops.trans (ih _)
    · exact hdrops
    · exact hdrops.trans (ih _)
@[simp] theorem State.hears_startTx (x : Copy) : s.Hears (s.startTx p x) := by simp [State.Hears, State.startTx]
@[simp] theorem State.hears_takeHead (c : Nat) : s.Hears (s.takeHead p c).1 := by
  unfold State.takeHead
  split
  · exact .refl s
  · exact s.hears_setQ p c _
@[simp] theorem State.hears_startHead (c : Nat) : s.Hears (s.startHead p c) := by
  unfold State.startHead
  dsimp only
  split <;> simp [State.Hears]

/-! #### Stages 2 to 6 (R89) -/

@[simp] theorem State.hears_cbRecover (f q : Nat) : s.Hears (s.cbRecover f q).1 := by
  unfold State.cbRecover
  dsimp only
  repeat' split
  all_goals simp [State.Hears]
@[simp] theorem State.hears_fcStages (f : Nat) (d : List Byte) : s.Hears (s.fcStages f d).1 := by
  unfold State.fcStages
  dsimp only
  repeat' split
  all_goals simp [State.Hears]
@[simp] theorem State.hears_offer (get : Nat → Word) (x : Copy) (n : Nat) : s.Hears (s.offer get p x n).1 := by
  unfold State.offer
  dsimp only
  repeat' split
  all_goals simp [State.Hears, State.refuse]

theorem State.hears_cutPick {x : Copy} {t : State} (h : s.cutPick p x = some t) : s.Hears t := by
  unfold State.cutPick at h
  dsimp only at h
  split at h
  · exact Option.some.inj h ▸ s.hears_pickFrom p _ 8
  · cases h

/-- One output of the offer at byte 64. -/
theorem State.hears_offerEarly (get : Nat → Word) (g : Ingr) (x : Copy) (ds : List Nat) : s.Hears (s.offerEarly get g x ds).1 := by
  unfold State.offerEarly
  refine List.foldlRecOn (motive := fun (a : State × List Nat × List Nat) => s.Hears a.1) ds _ (.refl s) (fun a ha d _ => ?_)
  have hcredit : s.Hears (if d < 12 then a.1.creditSync d else a.1) := ha.trans (.ite (a.1.hears_creditSync d) (.refl a.1))
  generalize (if d < 12 then a.1.creditSync d else a.1) = t at hcredit
  dsimp only
  split
  · exact hcredit.trans (t.hears_offer d get x _)
  · split
    · split
      · next u _ hu =>
        exact hcredit.trans ((t.hears_offer d get _ _).trans ((State.hears_cutPick _ d hu).trans (u.hears_startHead d _)))
      · exact hcredit
    · exact hcredit
/-- Stages 2 to 4 of a frame with a context or without. -/
theorem State.hears_context (fc : Option Nat) (f : List Byte) :
    s.Hears (match fc with
      | some c => s.fcStages c f
      | none => (s, true, none, false)).1 := by
  cases fc with
  | none => exact .refl s
  | some c => exact s.hears_fcStages c f
@[simp] theorem State.hears_stage (k : Nat) (whole : List Byte) : s.Hears (s.stage k whole) := by
  unfold State.stage
  split
  · exact .refl s
  · extract_lets f vid pcp named fc set get r t meter cls hash lt mask ds ptp key cb x made switch next early
    have hstages : s.Hears t := s.hears_context fc f
    have hnext : s.Hears next := hstages.trans ⟨rfl, rfl⟩
    refine .ite (hstages.trans ?_) ((hnext.trans (next.hears_offerEarly get _ x ds)).trans (State.hears_setRx _ k _))
    simp [State.Hears]

/-! #### Cells -/

theorem State.hears_lendCell {used : Nat} {r : State × Bool} (h : s.lendCell p used = some r) : s.Hears r.1 := by
  unfold State.lendCell at h
  split at h
  · exact Option.some.inj h ▸ s.hears_setRing p _
  · split at h
    · exact Option.some.inj h ▸ s.hears_setFree _
    · cases h
theorem State.hears_takeCells (k n : Nat) : s.Hears (State.takeCells k n s).1 := by
  induction n generalizing s with
  | zero => exact .refl s
  | succ n ih =>
    rw [State.takeCells]
    split
    · exact .refl s
    · split
      · exact .refl s
      · next t own h => exact (s.hears_lendCell _ h).trans (State.Hears.trans ⟨rfl, rfl⟩ (ih _))
theorem State.hears_cellPut (chain : List Nat) (i : Nat) (l : List Byte) : s.Hears (s.cellPut chain i l) := by
  induction l generalizing s i with
  | nil => exact .refl s
  | cons b l ih =>
    have hput (u : State) (h : s.Hears u) : s.Hears (u.cellPut chain (i + 1) l) := h.trans (ih u (i + 1))
    rw [State.cellPut]
    split
    · exact hput _ ⟨rfl, rfl⟩
    · exact hput s (.refl s)
@[simp] theorem State.hears_ingrCells (k i : Nat) : s.Hears (s.ingrCells k i) := by
  unfold State.ingrCells
  split
  · exact .refl s
  · have htake (n : Nat) := s.hears_takeCells k n
    dsimp only
    split
    · exact htake _
    · exact (htake _).trans (State.Hears.trans ⟨rfl, rfl⟩ (State.hears_cellPut _ _ _ _))

/-! #### Bytes arrive -/

@[simp] theorem State.hears_frmSync (k : Nat) : s.Hears (s.frmSync k) := by
  unfold State.frmSync
  repeat' split
  all_goals simp [State.Hears]
@[simp] theorem State.hears_ptpSync (k : Nat) : s.Hears (s.ptpSync k) := by
  unfold State.ptpSync
  dsimp only
  repeat' split
  all_goals simp [State.Hears, State.hears_foldl]
@[simp] theorem State.hears_ingrBytes (k : Nat) (b : List Byte) : s.Hears (s.ingrBytes k b) := by
  unfold State.ingrBytes
  split
  · exact .refl s
  · simp [State.Hears, State.heard_ite]
@[simp] theorem State.hears_sduCheck (k : Nat) : s.Hears (s.sduCheck k) := by
  unfold State.sduCheck
  dsimp only
  repeat' split
  all_goals simp [State.Hears]
@[simp] theorem State.hears_ingrChecks (k : Nat) : s.Hears (s.ingrChecks k) := by
  unfold State.ingrChecks
  split
  · exact .refl s
  · simp [State.Hears, State.heard_ite]
@[simp] theorem State.hears_macAt64 (k : Nat) : s.Hears (s.macAt64 k) := by
  unfold State.macAt64
  dsimp only
  repeat' split
  all_goals simp [State.Hears]
theorem State.hears_macTake (e8 : Nat) (frag : Bool) (b : List Byte) : s.Hears (s.macTake p e8 frag b) := by
  have hpiece (t : State) (k n : Nat) : t.Hears ((((t.ingrBytes k (b.take n)).macAt64 k).ingrBytes k (b.drop n)).ingrChecks k) := by
    simp [State.Hears]
  unfold State.macTake
  dsimp only
  split
  · exact hpiece s _ _
  · exact (s.hears_setRx _ _).trans (hpiece _ _ _)

end Operations

/-! ### A frame that fails a check (R65) -/

theorem State.rxOf_ingrGone (s : State) (k : Nat) : (s.ingrGone k).rxOf k = none := by
  unfold State.ingrGone
  split
  · next h => exact h
  · exact State.rxOf_setRx _ k none

/-- The counter of the first check of R65 that a whole frame without errors fails, where it fails one. -/
def State.failCounter (s : State) (p : Nat) (g : Ingr) : Nat :=
  if g.data.length < 64 then (if fcsGood g.data then 16 else 17) else if g.filt then 22
  else if s.fld (MAC_MAXLEN_MAXLEN p) < g.data.length then (if fcsGood g.data then 18 else 19) else if fcsGood g.data then 21 else 15

theorem State.failCounter_mem (s : State) (p : Nat) (g : Ingr) : s.failCounter p g ∈ [15, 16, 17, 18, 19, 21, 22] := by
  unfold State.failCounter
  repeat' split
  all_goals simp

theorem State.macCheck_failCounter (s : State) (p : Nat) (g : Ingr) (h : s.failCounter p g ≠ 21 ∨ g.nobuf = true) :
    s.macCheck p g false false = some (s.failCounter p g) := by
  unfold State.failCounter at h ⊢
  unfold State.macCheck
  dsimp only
  by_cases hshort : g.data.length < 64
  · rw [if_pos hshort, if_pos hshort]
    split <;> rfl
  · by_cases hfilt : g.filt = true
    · simp [hshort, hfilt]
    · by_cases hlong : s.fld (MAC_MAXLEN_MAXLEN p) < g.data.length
      · simp [hshort, hfilt, hlong, apply_ite some]
      · by_cases hgood : fcsGood g.data = true
        · have hnobuf : g.nobuf = true := by simpa [hshort, hfilt, hlong, hgood] using h
          simp [hshort, hfilt, hlong, hgood, hnobuf]
        · simp [hshort, hfilt, hlong, hgood]

theorem leaves_frameReceive_fails (p : Fin 12) (e8 : Fin 8) (frag : Bool) (b : List Byte) (g : Ingr) (c : Nat) (t s : State)
    (hruns : s.runs 7 (.mac p) = true) (hon : s.flag (MAC_CTRL_RXEN p) = true) (hlink : s.flag (MAC_STAT_LINK p) = true)
    (ht : t = s.macTake p e8 frag b) (hg : t.rxOf (rxKey p frag) = some g ∧ g.port = p.val) (hc : c = t.failCounter p g)
    (hfail : c ≠ 21 ∨ g.nobuf = true) :
    Leaves (.frameReceive p e8 b ⟨frag, .endOk 0⟩) s (fun u => u.regN (macCnt p c) = (t.regN (macCnt p c) + 1) % 2 ^ 32 ∧
      u.rxOf (rxKey p frag) = none ∧ u.pending = s.pending) := by
  obtain ⟨hrx, hport⟩ := hg
  have hcheck : t.macCheck g.port g false false = some c := by
    rw [hport, hc]
    exact t.macCheck_failCounter p g (hc ▸ hfail)
  have hcounter : c < 32 ∧ c ≠ 24 := by
    have hmem := t.failCounter_mem p g
    rw [← hc] at hmem
    fin_cases hmem <;> decide
  obtain ⟨hlt, hne⟩ := hcounter
  have heff := State.inBlk_macRx hruns hon hlink e8 frag b 0
  rw [← ht, State.macEnd_fails hrx hcheck, hport] at heff
  have hheard : rxCounter (macCnt p c) = true := decide_eq_true (by unfold macCnt; omega)
  have hcount : (t.macCount p c 1).regN (macCnt p c) = (t.regN (macCnt p c) + 1) % 2 ^ 32 := t.regN_macCount_same p (by omega) 1
  have hqueue : (t.macCount p c 1).pending = s.pending := by
    rw [(t.onlyRegs_macCount p c 1).queue, ht]
    exact (s.hears_macTake p e8 frag b).2
  have hfails := (t.macCount p c 1).hears_ingrFail (rxKey p frag) g.data.length
  generalize (t.macCount p c 1).ingrFail (rxKey p frag) g.data.length = v at heff hfails
  -- A long frame counts its length beyond 128 in a counter of its own.
  have hlong : (if 128 < g.data.length then v.macCount p 24 (g.data.length - 128) else v).reg (macCnt p c) = v.reg (macCnt p c) ∧
      (if 128 < g.data.length then v.macCount p 24 (g.data.length - 128) else v).pending = v.pending := by
    have hother : macCnt p c ∉ macCntRegs p 24 := by
      simp only [macCntRegs, macCnt, MAC_CNTHALF, MAC_IRQ, List.mem_cons, List.not_mem_nil, or_false, not_or]
      omega
    split
    · exact ⟨(v.only_macCount p (by decide) _).1 _ hother, (v.onlyRegs_macCount p 24 _).queue⟩
    · exact ⟨rfl, rfl⟩
  generalize (if 128 < g.data.length then v.macCount p 24 (g.data.length - 128) else v) = w at heff hlong
  obtain ⟨hreg, hpending⟩ := hlong
  have hgone := w.hears_ingrGone (rxKey p frag)
  refine leaves_of_eq heff ⟨?_, w.rxOf_ingrGone _, ?_⟩ rfl
  · rw [State.regN, hgone.reg hheard, hreg, hfails.reg hheard]
    exact hcount
  · rw [hgone.2, hpending, hfails.2, hqueue]

/-! ### The statement about frames -/

/-- Settles O13, clause by clause; the last clauses are `exec` unfolded. -/
theorem frameCommands : Obligations.FrameCommands := by
  unfold Obligations.FrameCommands
  refine ⟨effect_frameReceive_idle, leaves_frameReceive_short, yields_frameReceive_good, leaves_frameReceive_fails, effect_pauseReceive,
    fun p vec qs s hruns hon hlink hmode hrx _ => effect_pfcReceive p vec qs s hruns hon hlink hmode hrx, effect_pauseHoldExpiry,
    effect_flowControlRepeat, effect_fctx_idle, effect_fctx_sending, effect_tsfHdrRead, effect_transmissionSelect_head,
    effect_transmissionSelect_none, effect_launchTimeDue, leaves_transmissionEnd, ?_⟩
  exact ⟨fun _ _ _ _ _ => rfl, fun _ _ _ => rfl, fun _ _ _ _ => rfl, fun _ _ _ => rfl, fun _ _ => rfl, fun _ _ _ _ => rfl, fun _ _ _ => rfl,
    fun _ _ => rfl, fun _ _ _ => rfl, fun _ _ _ => rfl⟩

end Sys2Proof.Machine

/-! Effects that the settled state still shows: raises that the collector ignores take up all of settling, and channel 4 takes no notice (R278,
R337, R349). -/

namespace Sys2Proof.Machine

open Sys2Proof

/-! ### Settling that has time for ignored raises alone -/

/-- More raises wait in `s` than it settles in one go, the collector takes none of them, and channel 4 is closed. -/
def State.Stuck (s : State) : Prop :=
  (∃ l, s.raises = List.replicate 4096 (512, 0, false) ++ l) ∧ s.flag (MBX_CH_CFG_EN 4) = false

theorem State.stuck_of_check {s : State} (h : 4096 ≤ s.raises.length ∧ (s.raises.take 4096).all (· == (512, 0, false)) = true ∧
    s.flag (MBX_CH_CFG_EN 4) = false) : s.Stuck := ⟨⟨_, eq_ignored_append h.1 h.2.1⟩, h.2.2⟩

theorem State.resetDue_eq (s : State) : ∃ q y, s.resetDue = { s with modeq := q, sys := y } := by
  unfold State.resetDue
  split
  · split
    · exact ⟨_, _, rfl⟩
    · exact ⟨s.modeq, s.sys, rfl⟩
  · exact ⟨s.modeq, s.sys, rfl⟩

theorem State.chanFull_of_closed {s : State} {c : Nat} (h : s.flag (MBX_CH_CFG_EN c) = false) : s.chanFull c = true := by
  simp [State.chanFull, h]

theorem State.fwDrain_of_full {s : State} (h : s.chanFull 4 = true) : s.fwDrain = s := by
  unfold State.fwDrain State.fwDrainN
  split
  · rfl
  · exact if_pos h

theorem State.settle_of_stuck {s : State} (h : s.Stuck) : ∃ l q y, s.settle = { s with raises := l, modeq := q, sys := y } := by
  obtain ⟨⟨l, hraises⟩, hclosed⟩ := h
  obtain ⟨q, y, hdue⟩ := s.resetDue_eq
  have hfull : State.chanFull { s with raises := l, modeq := q, sys := y } 4 = true := State.chanFull_of_closed hclosed
  refine ⟨l, q, y, ?_⟩
  rw [State.settle, State.settleN_ignored_append _ _ l (s.resetDue_frame.2.trans hraises), hdue]
  exact State.fwDrain_of_full hfull

/-- A state that a statement gives for the effect of a command has the registers and the engines of the effect `v` itself. -/
theorem Effect.same_of_stuck {c : Instr} {s v : State} {chg : List Nat} {P : State → Prop} (heff : Effect c s chg [] P) (hs : s.Stuck)
    (hv : v.Stuck) (hchg : MBX_CH_CFG 4 ∉ chg) (hexec : Machine.exec c s = .next v.settle) : ∃ u, P u ∧ u.regs = v.regs ∧ u.eng = v.eng := by
  obtain ⟨u, hu, ⟨hreg, -, -, hraises⟩, hP⟩ := heff
  obtain ⟨⟨l, hl⟩, hclosed⟩ := hs
  have hflag : u.flag (MBX_CH_CFG_EN 4) = s.flag (MBX_CH_CFG_EN 4) := by
    simp only [State.flag, State.fld, MBX_CH_CFG_EN]
    rw [hreg _ hchg]
  have hustuck : u.Stuck := ⟨⟨l, by rw [hraises, List.append_nil, hl]⟩, hflag.trans hclosed⟩
  have hsettled : u.settle = v.settle := Host.Outcome.next.inj (hu.symm.trans hexec)
  obtain ⟨_, _, _, huset⟩ := State.settle_of_stuck hustuck
  obtain ⟨_, _, _, hvset⟩ := State.settle_of_stuck hv
  rw [huset, hvset] at hsettled
  exact ⟨u, hP, (congrArg State.regs hsettled :), (congrArg State.eng hsettled :)⟩

/-- PREOP, with every domain on and channel 4 closed, and settling all taken up by raises that the collector does not take. -/
def stuckRig : State := { Tests.rig.setFlag (MBX_CH_CFG_EN 4) false with raises := List.replicate 4096 (512, 0, false) }

end Sys2Proof.Machine

/-! Hamper's software region: a refutation (R84, R306). -/

namespace Sys2Proof.Machine

open Sys2Proof

/-- No software region yet, and row 0 of Hamper retired, so that its 8 cells are not in the pool (R306). -/
def retiredRig : State :=
  { stuckRig.setFld BUF_FREE_CELLS (262144 - 8) with pwr := { stuckRig.pwr with retired := [0] } }
/-- What a write of one unit to BUF_SWCELLS does in `retiredRig`, before it settles. -/
def retiredDone : State := retiredRig.wordWrite .host BUF_SWCELLS 1

theorem stuck_retired : retiredRig.Stuck ∧ retiredDone.Stuck :=
  ⟨State.stuck_of_check (by decide +kernel), State.stuck_of_check (by decide +kernel)⟩

/-- The unit's 1,024 cells are in the region, the retired ones among them, and the pool holds the rest. -/
theorem retiredDone_cells : retiredDone.fld BUF_FREE_CELLS + 1024 * retiredDone.fld BUF_SWCELLS_UNITS = 262144 := by decide +kernel

/-- Refutes O14: a unit of the software region that holds a retired row takes 8 cells fewer from the pool than it has (R84, R306), so the cells
of the pool and of the region do not sum to what they were. -/
theorem not_switchCommands : ¬ Obligations.SwitchCommands := by
  unfold Obligations.SwitchCommands
  rintro ⟨hcells, -⟩
  have heff := hcells .host 1 retiredRig (by decide +kernel) (by decide +kernel) (by decide +kernel) (by decide +kernel) (by decide +kernel)
    (by decide +kernel) (by decide +kernel)
  obtain ⟨u, ⟨-, hsum⟩, hregs, -⟩ := heff.same_of_stuck stuck_retired.1 stuck_retired.2 (by decide) rfl
  rw [State.fld_eq hregs, State.fld_eq hregs, retiredDone_cells] at hsum
  exact absurd hsum (by decide +kernel)

end Sys2Proof.Machine

/-! A thread's own port registers: a refutation (R121). -/

namespace Sys2Proof.Machine

open Sys2Proof

/-- A window that is not forwarded, though it counts a beat. -/
def countedWin : Win := ⟨Tests.aCopy, [], false, 1, false, false, none⟩
/-- Thread 1 of engine 2 runs with that window. -/
def countedRig : State :=
  let s := (stuckRig.setFlag (ENG_CTRL_RUN 2) true).setThr 2 1 { Thr.reset with run := true }
  (s.setFrm 0 (some ⟨Tests.rxFrame, true, false, 1, 1, [], 0⟩)).setWin 2 1 countedWin
/-- What FWD does in `countedRig`, before it settles. -/
def countedDone : State := countedRig.portAccess 2 1 0x310 (some 1)

theorem stuck_counted : countedRig.Stuck ∧ countedDone.Stuck :=
  ⟨State.stuck_of_check (by decide +kernel), State.stuck_of_check (by decide +kernel)⟩

theorem countedDone_win : (countedDone.thr 2 1).win = some { countedWin with fwd := true, beats := 0 } := by decide +kernel

theorem State.thr_eq {s t : State} (h : t.eng = s.eng) (n k : Nat) : t.thr n k = s.thr n k := by simp only [State.thr, State.engSt, h]

/-- Refutes O17: a forward starts at beat 0 (R121) whatever the window has counted, and the statement, which has no hypothesis on the count,
keeps it. -/
theorem not_enginePortCommands : ¬ Obligations.EnginePortCommands := by
  unfold Obligations.EnginePortCommands
  rintro ⟨-, -, hfwd, -⟩
  have heff := hfwd 2 1 countedWin countedRig (by decide +kernel) (by decide +kernel) rfl (by decide +kernel)
  obtain ⟨u, hwin, -, heng⟩ := heff.same_of_stuck stuck_counted.1 stuck_counted.2 (by decide) rfl
  rw [State.thr_eq heng] at hwin
  exact absurd (countedDone_win.symm.trans hwin) (by decide)

end Sys2Proof.Machine

/-! Firmware's NET commands: a refutation (R165, R364). -/

namespace Sys2Proof.Machine

open Sys2Proof

/-- A PROFINET device without IRT, which exchanges in RT every 250 µs (R165). -/
def rtInst : InstSt := { Tests.instRig with cfg := { Tests.instRig.cfg with cycle := 0, rt := 250000 } }
/-- PREOP, with the device as instance 0 and INST_STATUS for it in the host's channel 1. -/
def rtRig : State := (Tests.fwRig 1 (Tests.fwMsg 0x0403 [0])).setInst 0 (some rtInst)
/-- What INST_STATUS does in `rtRig`, before it settles. -/
def rtDone : State := rtRig.fwServe 1 0x0403 true false anyMode (fixLen 1) State.cmdInstStatus

/-- The cycle stands at offset 4 of the payload, in word 5 of the answer. -/
theorem rtDone_cycle : (rtDone.chan (retChan 1)).map (msgWord · 5) = [250000] := by decide +kernel

/-- Refutes O50: the cycle that INST_STATUS answers for a PROFINET device without IRT is its RT cycle (R165, R364), and not the 0 that its
configuration holds for the IRT cycle. -/
theorem not_networkMessages : ¬ Obligations.NetworkMessages := by
  unfold Obligations.NetworkMessages
  rintro ⟨-, -, -, -, -, -, -, -, -, -, hstatus, -⟩
  obtain ⟨-, hanswer⟩ := (hstatus 1 (Tests.fwMsg 0x0403 [0]) 0 rtInst rtRig (by decide +kernel)).of_calm (v := rtDone) (by decide)
    (by decide +kernel) rfl (by decide +kernel)
  have hcycle := rtDone_cycle.symm.trans (congrArg (List.map (msgWord · 5)) hanswer)
  exact absurd hcycle (by decide +kernel)

end Sys2Proof.Machine

/-! The reset of an engine: a refutation (R114, R134). -/

namespace Sys2Proof.Machine

open Sys2Proof

/-- A register outside those that a command's effect changes reads in the effect as before. -/
theorem Effect.reg_unchanged {c : Instr} {s : State} {chg : List Nat} {new : List (Nat × Nat × Bool)} {P : State → Prop} {a : Nat}
    (h : Effect c s chg new P) (ha : a ∉ chg) : Effect c s chg new (fun u => u.reg a = s.reg a) := by
  obtain ⟨u, hu, honly, -⟩ := h
  exact ⟨u, hu, honly, honly.1 a ha⟩

/-- Thread 1 of engine 3 has been stalled for two slots. -/
def stalledRig : State :=
  { stuckRig.setThr 3 1 { Thr.reset with run := true, stall := some (.port 0x420 (some 0)) } with time := { stuckRig.time with now := 10 } }
/-- What a reset of engine 3 does in `stalledRig`, before it settles. -/
def stalledDone : State := stalledRig.fieldWrite (.core 0) (ENG_CTRL_RST 3) 1

theorem stuck_stalled : stalledRig.Stuck ∧ stalledDone.Stuck :=
  ⟨State.stuck_of_check (by decide +kernel), State.stuck_of_check (by decide +kernel)⟩

/-- The reset counts the two slots. -/
theorem stalledDone_count : stalledRig.reg (ENG_CNT 3 2) = 0 ∧ stalledDone.reg (ENG_CNT 3 2) = 2 := by decide +kernel

/-- Refutes O15: the reset of an engine ends the stalls of its threads, and the slots that they have lost are counted in CNT[2] (R114), which is
not among the registers that the statement lets change. -/
theorem not_engineControl : ¬ Obligations.EngineControl := by
  unfold Obligations.EngineControl
  rintro ⟨-, -, -, -, -, hreset, -⟩
  have heff := hreset (.core 0) 3 stalledRig (by decide +kernel) (by decide +kernel) (by decide +kernel)
  obtain ⟨u, hkept, hregs, -⟩ := (heff.reg_unchanged (a := ENG_CNT 3 2) (by decide)).same_of_stuck stuck_stalled.1 stuck_stalled.2 (by decide) rfl
  obtain ⟨hbefore, hafter⟩ := stalledDone_count
  rw [State.reg_eq hregs, hafter, hbefore] at hkept
  exact absurd hkept (by decide)

end Sys2Proof.Machine

/-! The Dispatcher: a refutation (R86, R94, R118, R127). -/

namespace Sys2Proof.Machine

open Sys2Proof

/-! ### Settling in OFF, in transition 1 -/

/-- OFF, in transition 1, with level `l` of cluster `k` empty. -/
def State.OffEmpty (k l : Nat) (s : State) : Prop := s.mode = modeOFF ∧ s.trans = some ⟨1, modeBOOT, 0, modeOFF⟩ ∧ s.level k l = []

/-- No request starts transition 1 (R26). -/
theorem listed_one (m : Nat) : listed 1 m = false := rfl

/-- In OFF the collector takes no raise (R294). -/
theorem State.fcuRaise_off {s : State} (h : s.mode = modeOFF) (src info : Nat) (wiring : Bool) : s.fcuRaise src info wiring = s := by
  unfold State.fcuRaise State.fcuTake
  rw [if_pos h, ite_self]

section OffEmpty

variable {k l : Nat} {s : State}

/-- A raise leaves OFF with the level empty where it was so before it. -/
theorem State.OffEmpty.of_fcuRaise {src info : Nat} {wiring : Bool} (h : (s.fcuRaise src info wiring).OffEmpty k l) : s.OffEmpty k l := by
  obtain ⟨⟨⟨hmode, -, -⟩, -⟩, -⟩ := s.holds_fcuRaise src info wiring
  rwa [State.fcuRaise_off (hmode.symm.trans h.1)] at h

/-- A vote that is given up leaves no transition. -/
theorem State.trans_voteAbort (res blk rsn code : Nat) : (s.voteAbort res blk rsn code).trans = none := by
  have hanswer (t : State) (o : Option Owed) (da db : Nat) (pl : List Byte) : ((t.raise 10).fwPay o code da db pl).trans = t.trans :=
    (State.keeps_fwPay (t.raise 10) o code da db pl).spares.transition
  have hcells (t : State) (p : Prop) [Decidable p] : (if p then t.nutResume else t).trans = t.trans :=
    (State.Keeps.ite (State.keeps_nutResume t) (.refl t)).spares.transition
  unfold State.voteAbort
  dsimp only
  rw [hanswer, hcells]
  split <;> rfl

/-- A listed request starts another transition than 1. -/
theorem State.not_offEmpty_modeStart {n t c : Nat} {u : State} (hn : listed n s.mode = true) : ¬ (u.modeStart n t c).OffEmpty k l := by
  rintro ⟨-, htrans, -⟩
  obtain ⟨-, x, hx, hnum⟩ := u.starts_modeStart n t c
  rw [htrans] at hx
  obtain rfl : 1 = n := by rw [← hnum, ← Option.some.inj hx]
  rw [listed_one] at hn
  exact absurd hn (by decide)

/-- So does a request of a transition. -/
theorem State.OffEmpty.of_modeRequest {n t c : Nat} (h : (s.modeRequest n t c).OffEmpty k l) : s.OffEmpty k l := by
  unfold State.modeRequest at h
  split at h
  · split at h
    · next hn => exact absurd h (State.not_offEmpty_modeStart hn)
    · exact h
  · split at h
    · exact h
    split at h
    · split at h
      · dsimp only at h
        split at h
        · next hn => exact absurd h (State.not_offEmpty_modeStart hn)
        · exact nomatch (State.trans_voteAbort 4 0 0 0x8052).symm.trans h.2.1
      · exact h
    split at h
    · exact h
    split at h
    · next hn => exact absurd h (State.not_offEmpty_modeStart hn.2)
    · exact h

/-- Settling leaves OFF, in transition 1, with the level empty only where it found it so. -/
theorem State.OffEmpty.of_settle (h : s.settle.OffEmpty k l) : s.OffEmpty k l := by
  obtain ⟨_, _, _, _, _, _, hdrain⟩ := (State.settleN 4096 s.resetDue).fwDrain_frame
  have hkept := (State.keeps_fwDrain (State.settleN 4096 s.resetDue)).spares
  have hsettled : (State.settleN 4096 s.resetDue).OffEmpty k l := by
    obtain ⟨hmode, htrans, hlevel⟩ := h
    refine ⟨hkept.mode.symm.trans hmode, hkept.transition.symm.trans htrans, ?_⟩
    rw [State.settle, hdrain] at hlevel
    exact hlevel
  have hdue : s.resetDue.OffEmpty k l := by
    by_contra hnot
    refine State.settleN_induct (P := fun t => ¬ t.OffEmpty k l) (fun t r q _ ht ht1 => ht ?_) (fun t m q _ ht ht1 => ht ?_) 4096 hnot hsettled
    · exact State.OffEmpty.of_fcuRaise (s := { t with raises := q }) ht1
    · exact State.OffEmpty.of_modeRequest (s := { t with modeq := q }) ht1
  obtain ⟨q, y, heq⟩ := s.resetDue_eq
  rw [heq] at hdue
  exact hdue

end OffEmpty

/-! ### A copy with a class beyond 7 -/

/-- A copy in class 1830616 for engine 1, charged with one cell: the word of that class's queue of output 13 has the address of CLCFG. -/
def farCopy : Copy := { Tests.aCopy with cls := 1830616, n := 1, uses := true }

theorem farCopy_word : SWX_QSTAT 13 farCopy.cls = DISP_CLCFG := by decide

/-- OFF, in transition 1, engines 0 and 1 in one cluster with room at level 0, the copy at the head of the output of engine 1. -/
def farRig : State :=
  let s := ((Tests.rigIn modeOFF).setReg DISP_CLCFG 1).setFld (DISP_CAP_CAP 0 0) 4
  let s := (s.setFld BUF_DESC_FREE 100).setQ 13 7 { QSt.reset with q := [farCopy] }
  { s with trans := some ⟨1, modeBOOT, 0, modeOFF⟩ }
/-- What the output does in `farRig`, before it settles. -/
def farDone : State := farRig.inDom 7 (fun s => s.engineSend 1)

/-- The charge that ends parts the engines, so that the item does not enter the level of the cluster in which the copy was sent. -/
theorem farDone_empty : farDone.Calm ∧ farDone.OffEmpty (farRig.clusterOf 1) (farRig.srcItem 1 0 0 0 true).level := by
  refine ⟨by decide +kernel, ?_, ?_, ?_⟩ <;> decide +kernel

/-- Refutes O16: the statement has no hypothesis on the class of the copy, whose charge ends at the queue word of that class (R94); the word of
a class beyond 7 may be that of another register, here CLCFG. -/
theorem not_dispatcherCommands : ¬ Obligations.DispatcherCommands := by
  unfold Obligations.DispatcherCommands
  rintro ⟨-, hsend, -⟩
  obtain ⟨u, hu, -, -, -, hlevel, -⟩ := hsend 1 farCopy farRig (by decide +kernel) (by decide +kernel) (by decide +kernel) (by decide +kernel)
    (by decide +kernel) (by decide +kernel) (by decide +kernel) rfl (by decide +kernel) (by decide +kernel)
  obtain ⟨hcalm, hempty⟩ := farDone_empty
  have hsettled : farDone.settle = u.settle := Host.Outcome.next.inj hu
  rw [State.settle_of_calm _ hcalm] at hsettled
  obtain ⟨-, -, hnone⟩ := State.OffEmpty.of_settle (hsettled ▸ hempty)
  exact List.append_ne_nil_of_right_ne_nil _ (List.cons_ne_nil _ _) (hlevel.symm.trans hnone)

end Sys2Proof.Machine

/-! How a thread of an engine runs an instruction: the thread and what stands beside it, fetching, the loads that land, the ends of an
instruction (R138, R150 to R157). -/

namespace Sys2Proof.Machine

open Sys2Proof

/-! ### Setting a thread -/

section Threads

variable (s : State) (e t : Nat) (x : Thr)

@[simp] theorem State.thr_setThr_same : (s.setThr e t x).thr e t = x := by simp [State.thr_setThr]

theorem State.reg_setThr_ne {a : Nat} (h : a ≠ ENG_STAT e) : (s.setThr e t x).reg a = s.reg a := by
  unfold State.setThr
  dsimp only
  rw [State.reg_setFlag_ne _ _ _ h, State.reg_setFld_ne _ _ _ h]
  rfl

theorem State.engSt_setThr (n : Nat) : (s.setThr e t x).engSt n =
    if n = e then { s.engSt e with thr := storeSet (fun _ => Thr.reset) (s.engSt e).thr t x } else s.engSt n := storeGet_set ..

/-- Beside its threads an engine is as it was. -/
theorem State.engSt_setThr_unthreaded (n : Nat) : { (s.setThr e t x).engSt n with thr := [] } = { s.engSt n with thr := [] } := by
  rw [s.engSt_setThr]
  split
  · next h => rw [h]
  · rfl

theorem State.dByte_setThr (n a : Nat) : (s.setThr e t x).dByte n a = s.dByte n a := by
  have hmem := congrArg EngSt.dmem (s.engSt_setThr_unthreaded e t x n)
  exact congrArg (storeGet (fun _ => 0) · a) hmem

theorem State.only_setThr : Only s (s.setThr e t x) [ENG_STAT e] [] :=
  ⟨fun _ ha => s.reg_setThr_ne e t x (by simpa using ha), fun _ => rfl, rfl, (List.append_nil _).symm⟩

end Threads

/-- From `s` to `u` only thread `t` of engine `e` and the engine's status register differ. -/
def State.ThrOnly (e t : Nat) (s u : State) : Prop :=
  { u with eng := s.eng, regs := s.regs } = s ∧ (∀ a, a ≠ ENG_STAT e → u.reg a = s.reg a) ∧
    (∀ e' t', (e' ≠ e ∨ t' ≠ t) → u.thr e' t' = s.thr e' t') ∧ ∀ n, { u.engSt n with thr := [] } = { s.engSt n with thr := [] }

theorem State.thrOnly_setThr (s : State) (e t : Nat) (x : Thr) : s.ThrOnly e t (s.setThr e t x) := by
  refine ⟨rfl, fun a ha => s.reg_setThr_ne e t x ha, fun e' t' h => ?_, s.engSt_setThr_unthreaded e t x⟩
  have hother : ¬ (e' = e ∧ t' = t) := fun ⟨he, ht⟩ => h.elim (· he) (· ht)
  rw [s.thr_setThr, if_neg hother]

theorem State.ThrOnly.setThr {s u : State} {e t : Nat} (h : s.ThrOnly e t u) (x : Thr) : s.ThrOnly e t (u.setThr e t x) := by
  obtain ⟨hframe, hreg, hthr, heng⟩ := h
  obtain ⟨-, hreg1, hthr1, heng1⟩ := u.thrOnly_setThr e t x
  exact ⟨hframe, fun a ha => (hreg1 a ha).trans (hreg a ha), fun e' t' hne => (hthr1 e' t' hne).trans (hthr e' t' hne),
    fun n => (heng1 n).trans (heng n)⟩

/-- A command whose own effect gives the thread `x` and leaves the rest. -/
theorem Thread.of_thrOnly {c : Instr} {s u : State} {e t : Nat} {x : Thr} (hexec : Machine.exec c s = .next u.settle)
    (h : s.ThrOnly e t u) (hx : u.thr e t = x) : Thread c s e t x := by
  obtain ⟨hframe, hreg, hthr, heng⟩ := h
  refine ⟨u, hexec, hframe, hreg, hx, hthr, fun n => ?_, fun n a => ?_, fun n a => ?_⟩
  · exact congrArg (fun y : EngSt => { y with dmem := [], imem := [] }) (heng n)
  · have hmem : u.dByte n a = s.dByte n a := (congrArg (fun y : EngSt => storeGet (fun _ => 0) y.dmem a) (heng n) :)
    rw [hmem]
    split
    · next h => rw [h]
    · rfl
  · have hmem : u.iWord n a = s.iWord n a := (congrArg (fun y : EngSt => storeGet (fun _ => 0) y.imem a) (heng n) :)
    rw [hmem]
    split
    · next h => rw [h]
    · rfl

/-! ### Registers and loads (R135, R150) -/

/-- What a thread holds beside its registers, its temporaries and its loads in flight. -/
def Thr.control (x : Thr) : Thr := { x with regs := [], temps := [], loads := [] }

section Control

variable (x : Thr) (i : Nat) (v : Word)

@[simp] theorem Thr.control_setG : (x.setG i v).control = x.control := by
  unfold Thr.setG
  split
  · rfl
  · split
    · rfl
    · rfl

@[simp] theorem Thr.control_tickLoads : x.tickLoads.control = x.control := by
  unfold Thr.tickLoads
  exact List.foldlRecOn (motive := fun (y : Thr) => y.control = x.control) _ _ rfl
    (fun y hy l _ => (y.control_setG l.2.1 l.2.2).trans hy)

@[simp] theorem Thr.setG_run : (x.setG i v).run = x.run := (congrArg Thr.run (x.control_setG i v) :)
@[simp] theorem Thr.setG_rep : (x.setG i v).rep = x.rep := (congrArg Thr.rep (x.control_setG i v) :)
@[simp] theorem Thr.setG_pc : (x.setG i v).pc = x.pc := (congrArg Thr.pc (x.control_setG i v) :)
@[simp] theorem Thr.setG_rc : (x.setG i v).rc = x.rc := (congrArg Thr.rc (x.control_setG i v) :)
@[simp] theorem Thr.setG_rcNext : (x.setG i v).rcNext = x.rcNext := (congrArg Thr.rcNext (x.control_setG i v) :)
@[simp] theorem Thr.tickLoads_run : x.tickLoads.run = x.run := (congrArg Thr.run x.control_tickLoads :)
@[simp] theorem Thr.tickLoads_rep : x.tickLoads.rep = x.rep := (congrArg Thr.rep x.control_tickLoads :)
@[simp] theorem Thr.tickLoads_pc : x.tickLoads.pc = x.pc := (congrArg Thr.pc x.control_tickLoads :)
@[simp] theorem Thr.tickLoads_win : x.tickLoads.win = x.win := (congrArg Thr.win x.control_tickLoads :)

end Control

/-! ### Numbers as words (R138) -/

theorem w32_uns (z : Int) : w32 (uns 32 z) = BitVec.ofInt 32 z := by
  rw [w32, uns, ← BitVec.toNat_ofInt, BitVec.ofNat_toNat, BitVec.setWidth_eq]

/-- The sum of a register and a number, in 32-bit arithmetic. -/
theorem w32_uns_add (a : Word) (z : Int) : w32 (uns 32 (a.toNat + z)) = a + w32 (uns 32 z) := by
  rw [w32_uns, w32_uns, BitVec.ofInt_add, BitVec.ofInt_natCast, BitVec.ofNat_toNat, BitVec.setWidth_eq]
theorem w32_uns_mul (a : Word) (z : Int) : w32 (uns 32 (a.toNat * z)) = a * w32 (uns 32 z) := by
  rw [w32_uns, w32_uns, BitVec.ofInt_mul, BitVec.ofInt_natCast, BitVec.ofNat_toNat, BitVec.setWidth_eq]

theorem simm_eq_toInt (w : Word) : simm w = (w.extractLsb' 0 16).toInt := by
  have hbits : bits w 15 0 = (w.extractLsb' 0 16).toNat := rfl
  rw [simm, hbits, BitVec.toInt_eq_toNat_cond, sgn, Nat.mod_eq_of_lt (w.extractLsb' 0 16).isLt]
  split
  · rw [if_pos (by omega)]
  · rw [if_neg (by omega)]

theorem w32_simm (w : Word) : w32 (uns 32 (simm w)) = insSx w := by
  rw [w32_uns, simm_eq_toInt]
  rfl

theorem w32_add_simm (a w : Word) : w32 (uns 32 (a.toNat + simm w)) = a + insSx w := by rw [w32_uns_add, w32_simm]

/-- The address of a data or port instruction. -/
theorem State.toNat_ea (s : State) (e t : Nat) (w : Word) : (s.ea e t w).toNat = (s.thr e t).addr w := by
  have hlt : (s.thr e t).addr w < 2 ^ 32 := (BitVec.ofInt 32 (((s.thr e t).g (bits w 20 16)).toNat + simm w)).isLt
  have hword : s.ea e t w = w32 ((s.thr e t).addr w) := (w32_add_simm ((s.thr e t).g (bits w 20 16)) w).symm
  rw [hword, w32, BitVec.toNat_ofNat, Nat.mod_eq_of_lt hlt]

/-! ### What a thread executes next (R141, R152, R153) -/

theorem insKey_wide {w : Word} {op : Nat} (h : bits w 31 26 = op) (hlo : 8 ≤ op) (hhi : op ≤ 0x2B) : insKey w = 64 * op := by
  have h0 : op ≠ 0 := by omega
  have h12 : ¬ (op = 1 ∨ op = 2) := by omega
  have h3 : op ≠ 3 := by omega
  have h4 : op ≠ 4 := by omega
  simp [insKey, insOp, h, h0, h12, h3, h4, hlo, hhi]

theorem State.run_of_canIssue {s : State} {e t : Nat} (h : s.canIssue e t = true) : (s.thr e t).run = true := by
  simp only [State.canIssue, Bool.and_eq_true] at h
  exact h.1.1.2

/-- The word `w` is what the thread runs, latched for its repetitions where it repeats. -/
def State.Runs (s : State) (e t : Nat) (w : Word) : Prop :=
  ∀ (key : Nat) (run : State → Word → State), insKey w = key → s.issueWith e t key false run = run s w

theorem State.runs_of_fetches {s : State} {e t : Nat} {w : Word} (h : s.fetches e t w = true) : s.Runs e t w := by
  simp only [State.fetches, Bool.and_eq_true, Option.isNone_iff_eq_none, decide_eq_true_eq, beq_iff_eq] at h
  obtain ⟨⟨⟨hcan, hrep⟩, hpc⟩, hword⟩ := h
  intro key run hkey
  have hfetch : s.fetchWord e t = w := by simpa [State.fetchWord, hrep] using hword
  simp [State.issueWith, hcan, hrep, hpc, hfetch, hkey]

theorem State.runs_of_rep {s : State} {e t k : Nat} {w : Word} (hcan : s.canIssue e t = true) (hrep : (s.thr e t).rep = some (k, some w)) :
    s.Runs e t w := by
  intro key run hkey
  have hfetch : s.fetchWord e t = w := by simp [State.fetchWord, hrep]
  simp [State.issueWith, hcan, hrep, hfetch, hkey]

theorem State.Runs.issue {s : State} {e t : Nat} {w : Word} (h : s.Runs e t w) {key : Nat} (hkey : insKey w = key) (act : Act) :
    s.issue e t .none_ key act = s.runWord e t false false w act := h key _ hkey

/-- The word is latched already, or nothing repeats. -/
theorem Thr.latch_eq {x : Thr} {w : Word} (h : ∀ r, x.rep = some r → r.2 = some w) : x.latch w = x := by
  unfold Thr.latch
  cases hrep : x.rep with
  | none => rw [Option.map_none, ← hrep]
  | some r => rw [Option.map_some, ← h r hrep, ← hrep]

theorem State.rep_of_fetches {s : State} {e t : Nat} {w : Word} (h : s.fetches e t w = true) : (s.thr e t).rep = none := by
  simp only [State.fetches, Bool.and_eq_true, Option.isNone_iff_eq_none] at h
  exact h.1.1.2
theorem State.canIssue_of_fetches {s : State} {e t : Nat} {w : Word} (h : s.fetches e t w = true) : s.canIssue e t = true := by
  simp only [State.fetches, Bool.and_eq_true] at h
  exact h.1.1.1

/-! ### The ends of an instruction (R150, R153 to R156) -/

section Ends

variable {s s1 : State} {e t : Nat} {w : Word} {act : Act} {bad again : Bool}

theorem State.runWord_next (hlatch : (s.thr e t).latch w = s.thr e t)
    (hact : act e t bad again (s.setThr e t (s.thr e t).tickLoads) w = .next s1) : s.runWord e t bad again w act = s1.retire e t := by
  simp only [State.runWord, hlatch, hact]
theorem State.runWord_stall {bridge : Bool} (hlatch : (s.thr e t).latch w = s.thr e t)
    (hact : act e t bad again (s.setThr e t (s.thr e t).tickLoads) w = .stall s1 bridge) : s.runWord e t bad again w act =
      s1.setThr e t { s.thr e t with stall := some (.instr w bridge), since := s.time.now, win := (s1.thr e t).win } := by
  simp only [State.runWord, hlatch, hact]
theorem State.runWord_trap {c : Nat} {v : Word} (hc : c ≠ 8) (hlatch : (s.thr e t).latch w = s.thr e t)
    (hact : act e t bad again (s.setThr e t (s.thr e t).tickLoads) w = .trap c v) :
    s.runWord e t bad again w act = (s.setThr e t (s.thr e t)).trapAt e t c v (s.thr e t).pc none := by
  simp only [State.runWord, hlatch, hact, if_neg hc]

/-- Outside a repetition the next instruction follows. -/
theorem State.retire_goes (hrun : (s.thr e t).run = true) (hrep : (s.thr e t).rep = none) :
    s.retire e t = s.setThr e t ((s.thr e t).goes ((s.thr e t).pc + 1)) := by
  simp [State.retire, hrun, hrep, Thr.goes]
/-- In a repetition with runs to go the same instruction follows. -/
theorem State.retire_repeats {k : Nat} (hrun : (s.thr e t).run = true) (hrep : (s.thr e t).rep = some (k, some w)) (hk : 2 ≤ k) :
    s.retire e t = s.setThr e t { s.thr e t with rep := some (k - 1, some w), uop := none } := by
  have hmore : ¬ k ≤ 1 := by omega
  simp [State.retire, hrun, hrep, hmore]
/-- After the last run the next instruction follows, and rc takes the value that waited for it. -/
theorem State.retire_last (hrun : (s.thr e t).run = true) (hrep : (s.thr e t).rep = some (1, some w)) :
    s.retire e t = s.setThr e t { s.thr e t with
      pc := (s.thr e t).pc + 1, rep := none, rc := (s.thr e t).rcNext.getD (s.thr e t).rc, rcNext := none, uop := none } := by
  simp [State.retire, hrun, hrep]

/-- A trap outside handler state that is no lost word and in no custom instruction. -/
theorem State.trapAt_eq {c epc : Nat} {v : Word} (hc : c ≠ 9) (hhandler : (s.thr e t).handler = false) :
    s.trapAt e t c v epc none = s.setThr e t { (s.thr e t).trapped c epc v with
      ecause := w32 (c + 256 * bit (s.thr e t).rep.isSome), erc := ((s.thr e t).rep.map (fun r => w32 r.1)).getD (s.thr e t).erc } := by
  simp [State.trapAt, hc, hhandler, Thr.trapped]

end Ends

end Sys2Proof.Machine

/-! Proofs about the port instructions (R116, R138, R139, R147, R151). -/

namespace Sys2Proof.Machine

open Sys2Proof

/-! ### A port access that completes, and one that stalls -/

section Ports

variable {s s1 : State} {e t k rd : Nat} {a v : Word} {again : Bool} {post : State → State}

theorem inAt_next (ha : a.toNat ≤ 4095) (h : s.portRead e t a.toNat k again = (s1, some v)) :
    inAt e t k again s a rd post = .next (post (s1.loadG e t rd v)) := by
  simp only [inAt, Nat.not_lt.mpr ha, if_false, h]
theorem inAt_stall (ha : a.toNat ≤ 4095) (h : s.portRead e t a.toNat k again = (s1, none)) :
    inAt e t k again s a rd post = .stall s1 (a.toNat == 0x604) := by
  simp only [inAt, Nat.not_lt.mpr ha, if_false, h]
theorem outAt_next (ha : a.toNat ≤ 4095) (h : s.portWrite e t a.toNat k v again = (s1, true)) :
    outAt e t k again s a v post = .next (post s1) := by
  simp only [outAt, Nat.not_lt.mpr ha, if_false, h, if_true]

end Ports

@[simp] theorem State.thr_loadG (s : State) (e t i : Nat) (v : Word) : (s.loadG e t i v).thr e t = (s.thr e t).awaits i v := State.thr_setThr_same ..
@[simp] theorem State.thr_setG (s : State) (e t i : Nat) (v : Word) : (s.setG e t i v).thr e t = (s.thr e t).setG i v := State.thr_setThr_same ..

/-! ### Instructions that complete (R138) -/

section Complete

variable {s s1 : State} {e t key : Nat} {w : Word} {act : Act} {c : Instr}
  (hexec : Machine.exec c s = done (s.issue e t .none_ key act)) (hf : s.fetches e t w = true) (hkey : insKey w = key)
include hexec hf hkey

/-- What a fetched instruction leaves where its thread still runs and repeats nothing. -/
theorem leaves_of_next {P : State → Prop} {x : Thr} (hact : act e t false false (s.setThr e t (s.thr e t).tickLoads) w = .next s1)
    (hx : s1.thr e t = x) (hrun : x.run = true) (hrep : x.rep = none) (hP : P (s1.setThr e t (x.goes (x.pc + 1)))) : Leaves c s P := by
  subst hx
  have hlatch : (s.thr e t).latch w = s.thr e t := Thr.latch_eq (by simp [State.rep_of_fetches hf])
  refine ⟨_, ?_, hP⟩
  rw [hexec, (State.runs_of_fetches hf).issue hkey, State.runWord_next hlatch hact, State.retire_goes hrun hrep]
  rfl

end Complete

/-- A port read with a displacement. -/
theorem portIn_of_issue {c : Fin 16 → Fin 4 → EccAt → Instr} {op k : Nat} (hlo : 8 ≤ op) (hhi : op ≤ 0x2B)
    (hexec : ∀ e t s, Machine.exec (c e t .none_) s = done (s.issue e t .none_ (64 * op) (inP k))) : PortIn c op k := by
  intro e t w s s1 v hf hop s0 a ha hread hrun hrep
  have hea : (s0.ea e t w).toNat = a := s0.toNat_ea e t w
  have hact : inP k e t false false s0 w = .next (s1.loadG e t (insRd w) v) := inAt_next (hea ▸ ha) (hea ▸ hread)
  refine leaves_of_next (hexec e t s) hf (insKey_wide hop hlo hhi) hact (s1.thr_loadG ..) hrun hrep ⟨State.thr_setThr_same .., rfl, rfl, ?_, ?_⟩
  · exact fun b hb => ((s1.loadG e t _ v).reg_setThr_ne e t _ hb).trans (s1.reg_setThr_ne e t _ hb)
  · exact fun b => ((s1.loadG e t _ v).dByte_setThr e t _ e b).trans (s1.dByte_setThr e t _ e b)

/-- A port write with a displacement. -/
theorem portOut_of_issue {c : Fin 16 → Fin 4 → EccAt → Instr} {op k : Nat} (hlo : 8 ≤ op) (hhi : op ≤ 0x2B)
    (hexec : ∀ e t s, Machine.exec (c e t .none_) s = done (s.issue e t .none_ (64 * op) (outP k))) : PortOut c op k := by
  intro e t w s s1 hf hop s0 a ha hwrite hrun hrep
  have hea : (s0.ea e t w).toNat = a := s0.toNat_ea e t w
  have hact : outP k e t false false s0 w = .next s1 := outAt_next (hea ▸ ha) (hea ▸ hwrite)
  exact leaves_of_next (hexec e t s) hf (insKey_wide hop hlo hhi) hact rfl hrun hrep
    ⟨State.thr_setThr_same .., rfl, rfl, fun b hb => s1.reg_setThr_ne e t _ hb, fun b => s1.dByte_setThr e t _ e b⟩

section PostIncrement

variable {e : Fin 16} {t : Fin 4} {w : Word} {x : Thr} {s s1 : State} (hf : s.fetches e t w = true) (hx : x = (s.thr e t).tickLoads)
  (ha : (x.g (bits w 20 16)).toNat ≤ 4095) (hrun : (s1.thr e t).run = true) (hrep : (s1.thr e t).rep = none)
include hf hx ha hrun hrep

/-- INP reads at ra and advances it. -/
theorem leaves_inp {v : Word} (hop : bits w 31 26 = 0x2A)
    (hread : (s.setThr e t x).portRead e t (x.g (bits w 20 16)).toNat 4 false = (s1, some v)) :
    Leaves (.inp e t .none_) s (fun u => u.thr e t = (((s1.thr e t).awaits (bits w 25 21) v).setG (bits w 20 16)
      (w32 (uns 32 ((x.g (bits w 20 16)).toNat + simm w)))).goes ((s1.thr e t).pc + 1) ∧ u.raises = s1.raises) := by
  have hra : (s.setThr e t x).g e t (insRa w) = x.g (bits w 20 16) := congrArg (Thr.g · _) (s.thr_setThr_same e t x)
  have hact : inPost e t false false (s.setThr e t x) w =
      .next ((s1.loadG e t (insRd w) v).setG e t (insRa w) (x.g (bits w 20 16) + insSx w)) := by
    unfold inPost
    dsimp only
    rw [hra]
    exact inAt_next ha hread
  subst hx
  refine leaves_of_next rfl hf (insKey_wide hop (by decide) (by decide)) hact (by rw [State.thr_setG, State.thr_loadG]) ?_ ?_ ⟨?_, rfl⟩
  · rw [Thr.setG_run]
    exact hrun
  · rw [Thr.setG_rep]
    exact hrep
  · rw [State.thr_setThr_same, w32_add_simm, Thr.setG_pc]
    rfl

/-- OUTP writes at ra and advances it. -/
theorem leaves_outp (hop : bits w 31 26 = 0x2B)
    (hwrite : (s.setThr e t x).portWrite e t (x.g (bits w 20 16)).toNat 4 (x.g (bits w 25 21)) false = (s1, true)) :
    Leaves (.outp e t .none_) s (fun u => u.thr e t = ((s1.thr e t).setG (bits w 20 16)
      (w32 (uns 32 ((x.g (bits w 20 16)).toNat + simm w)))).goes ((s1.thr e t).pc + 1) ∧ u.raises = s1.raises) := by
  have hreg (i : Nat) : (s.setThr e t x).g e t i = x.g i := congrArg (Thr.g · i) (s.thr_setThr_same e t x)
  have hact : outPost e t false false (s.setThr e t x) w = .next (s1.setG e t (insRa w) (x.g (bits w 20 16) + insSx w)) := by
    unfold outPost
    dsimp only
    rw [hreg, hreg]
    exact outAt_next ha hwrite
  subst hx
  refine leaves_of_next rfl hf (insKey_wide hop (by decide) (by decide)) hact (State.thr_setG ..) ?_ ?_ ⟨?_, rfl⟩
  · rw [Thr.setG_run, hrun]
  · rw [Thr.setG_rep, hrep]
  · rw [State.thr_setThr_same, w32_add_simm, Thr.setG_pc]

end PostIncrement

/-! ### The bridge (R117, R151) -/

/-- A read of BRDATA waits for the bridge. -/
theorem thread_inC_bridge (e : Fin 16) (t : Fin 4) (w : Word) (s : State) (hf : s.fetches e t w = true) (hop : bits w 31 26 = 0x1C)
    (haddr : (s.thr e t).tickLoads.addr w = 0x604) :
    Thread (.inC e t .none_) s e t { s.thr e t with stall := some (.instr w true), since := s.time.now } := by
  have hlatch : (s.thr e t).latch w = s.thr e t := Thr.latch_eq (by simp [State.rep_of_fetches hf])
  have hea : ((s.setThr e t (s.thr e t).tickLoads).ea e t w).toNat = 0x604 := by rw [State.toNat_ea, State.thr_setThr_same, haddr]
  have hact : inP 4 e t false false (s.setThr e t (s.thr e t).tickLoads) w = .stall (s.setThr e t (s.thr e t).tickLoads) true := by
    have hread : (s.setThr e t (s.thr e t).tickLoads).portRead e t 0x604 4 false = (s.setThr e t (s.thr e t).tickLoads, none) := rfl
    have hstall := inAt_stall (rd := insRd w) (post := fun s => s) (hea ▸ by decide) (hea ▸ hread)
    rw [hea] at hstall
    exact hstall
  have hrun : s.issue e t .none_ (64 * 0x1C) (inP 4) = (s.setThr e t (s.thr e t).tickLoads).setThr e t
      { s.thr e t with stall := some (.instr w true), since := s.time.now } := by
    rw [(State.runs_of_fetches hf).issue (insKey_wide hop (by decide) (by decide)), State.runWord_stall hlatch hact, State.thr_setThr_same,
      Thr.tickLoads_win]
  exact .of_thrOnly (congrArg done hrun) ((s.thrOnly_setThr e t _).setThr _) (State.thr_setThr_same ..)

/-! ### The transmit header (R123) -/

section Header

variable (s : State) (e t : Nat) {a : Nat} (hlo : 0x200 ≤ a) (hhi : a < 0x300) (halign : a % 4 = 0)
include hlo hhi halign

theorem State.portRead_header (again : Bool) : s.portRead e t a 4 again =
    (s, some (w32 (ofLe ((List.range 4).map (fun i => storeGet (fun _ => 0) (s.thr e t).hdr (a - 0x200 + i)))))) := by
  unfold State.portRead
  rw [if_neg (by omega), if_neg (by omega), if_pos hhi]

/-- A write of the header puts the word's bytes in it, lowest first. -/
theorem State.portWrite_header (v : Word) (again : Bool) : ∃ x, s.portWrite e t a 4 v again = (s.setThr e t x, true) ∧
    x.run = (s.thr e t).run ∧ x.rep = (s.thr e t).rep ∧
    (List.range 4).map (fun i => storeGet (fun _ => 0) x.hdr (a - 0x200 + i)) = leBytes 4 v.toNat := by
  unfold State.portWrite
  rw [if_neg (by omega), if_neg (by omega), if_pos hhi]
  refine ⟨_, rfl, rfl, rfl, ?_⟩
  simp [leBytes, List.zipIdx, storeGet_set, List.range_succ]

end Header

/-- A written header reads back. -/
theorem leaves_out_header {e : Fin 16} {t : Fin 4} {w : Word} {x : Thr} {s : State} (hf : s.fetches e t w = true) (hop : bits w 31 26 = 0x1F)
    (hx : x = (s.thr e t).tickLoads) (ha : 0x200 ≤ x.addr w ∧ x.addr w < 0x300 ∧ x.addr w % 4 = 0) :
    Leaves (.out e t .none_) s
      (fun u => (u.portRead e t (x.addr w) 4 false).2 = some (x.g (bits w 25 21)) ∧ u.raises = s.raises) := by
  subst hx
  obtain ⟨hlo, hhi, halign⟩ := ha
  set x := (s.thr e t).tickLoads
  have hthr : (s.setThr e t x).thr e t = x := s.thr_setThr_same ..
  have hea : ((s.setThr e t x).ea e t w).toNat = x.addr w := by rw [State.toNat_ea, hthr]
  obtain ⟨y, hwrite, hrun, hrep, hbytes⟩ := (s.setThr e t x).portWrite_header e t hlo hhi halign ((s.setThr e t x).g e t (insRd w)) false
  have hact : outP 4 e t false false (s.setThr e t x) w = .next ((s.setThr e t x).setThr e t y) :=
    outAt_next (by omega) (hea ▸ hwrite)
  have hyrun : y.run = true := by
    rw [hthr, Thr.tickLoads_run, State.run_of_canIssue (State.canIssue_of_fetches hf)] at hrun
    exact hrun
  have hyrep : y.rep = none := by rw [hrep, hthr, Thr.tickLoads_rep, State.rep_of_fetches hf]
  refine leaves_of_next rfl hf (insKey_wide hop (by decide) (by decide)) hact (State.thr_setThr_same ..) hyrun hyrep ⟨?_, rfl⟩
  have hword : (s.setThr e t x).g e t (insRd w) = x.g (bits w 25 21) := congrArg (Thr.g · _) hthr
  rw [State.portRead_header _ e t hlo hhi halign, State.thr_setThr_same]
  change some (w32 (ofLe ((List.range 4).map (fun i => storeGet (fun _ => 0) y.hdr (x.addr w - 0x200 + i))))) = _
  rw [hbytes, ofLe_leBytes, hword, show 256 ^ 4 = 2 ^ 32 by norm_num, Nat.mod_eq_of_lt (x.g (bits w 25 21)).isLt, w32,
    BitVec.ofNat_toNat, BitVec.setWidth_eq]

/-- Settles O22, from what a completed and a stalled port access leave and from the two accesses of the header. -/
theorem portInstructions : Obligations.PortInstructions := by
  unfold Obligations.PortInstructions
  refine ⟨portIn_of_issue (by decide) (by decide) fun _ _ _ => rfl, portIn_of_issue (by decide) (by decide) fun _ _ _ => rfl,
    portIn_of_issue (by decide) (by decide) fun _ _ _ => rfl, portOut_of_issue (by decide) (by decide) fun _ _ _ => rfl,
    portOut_of_issue (by decide) (by decide) fun _ _ _ => rfl, portOut_of_issue (by decide) (by decide) fun _ _ _ => rfl,
    ?inp, ?outp, ?bridge, ?header, fun _ _ _ _ => rfl, fun _ _ _ _ => rfl, fun _ _ _ _ => rfl, fun _ _ _ _ => rfl,
    fun _ _ _ _ => rfl, fun _ _ _ _ => rfl, fun _ _ _ _ => rfl, fun _ _ _ _ => rfl⟩
  case inp =>
    intro e t w v x s s1 hf hop hx ha hread ⟨hrun, hrep⟩
    exact leaves_inp hf hx ha hrun hrep hop hread
  case outp =>
    intro e t w x s s1 hf hop hx ha hwrite ⟨hrun, hrep⟩
    exact leaves_outp hf hx ha hrun hrep hop hwrite
  case bridge =>
    intro e t w x s hf hop hx haddr
    exact thread_inC_bridge e t w s hf hop (hx ▸ haddr)
  case header =>
    intro e t w x s hf hop hx ha
    exact leaves_out_header hf hop hx ha

end Sys2Proof.Machine

/-! Proofs about repetition, custom instructions and the end of a stall (R114, R151, R153, R154, R156, R160 to R163). -/

namespace Sys2Proof.Machine

open Sys2Proof

/-! ### Repetition (R153, R154, R156) -/

section Repetition

variable {s : State} {e : Fin 16} {t : Fin 4} {w : Word} {k key : Nat} {act : Act} {c : Instr} {y : Thr}
  (hexec : Machine.exec c s = done (s.issue e t .none_ key act)) (hcan : s.canIssue e t = true)
  (hrep : (s.thr e t).rep = some (k, some w)) (hkey : insKey w = key)
include hexec hcan hrep hkey

/-- A repeated instruction that makes its thread `y` leaves what its retirement makes of `y`. -/
theorem thread_of_rep {z : Thr}
    (hact : act e t false false (s.setThr e t (s.thr e t).tickLoads) w = .next ((s.setThr e t (s.thr e t).tickLoads).setThr e t y))
    (hretire : ∀ u : State, u.thr e t = y → u.retire e t = u.setThr e t z) : Thread c s e t z := by
  have hlatch : (s.thr e t).latch w = s.thr e t := Thr.latch_eq (by simp [hrep])
  have hrun : s.issue e t .none_ key act = ((s.setThr e t (s.thr e t).tickLoads).setThr e t y).setThr e t z := by
    rw [(State.runs_of_rep hcan hrep).issue hkey, State.runWord_next hlatch hact, hretire _ (State.thr_setThr_same ..)]
  rw [hrun] at hexec
  exact .of_thrOnly hexec (((s.thrOnly_setThr e t _).setThr y).setThr z) (State.thr_setThr_same ..)

/-- With runs to go a repeated instruction that completes stays at its index. -/
theorem thread_of_repeats (hk : 2 ≤ k)
    (hact : act e t false false (s.setThr e t (s.thr e t).tickLoads) w = .next ((s.setThr e t (s.thr e t).tickLoads).setThr e t y))
    (hrun : y.run = (s.thr e t).run) (hy : y.rep = (s.thr e t).rep) :
    Thread c s e t { y with rep := some (k - 1, some w), uop := none } := by
  refine thread_of_rep hexec hcan hrep hkey hact fun u hu => ?_
  subst hu
  exact State.retire_repeats (hrun.trans (State.run_of_canIssue hcan)) (hy.trans hrep) hk

/-- After the last run the program counter moves on, and rc takes the value that waited for it. -/
theorem thread_of_last (hk : k = 1)
    (hact : act e t false false (s.setThr e t (s.thr e t).tickLoads) w = .next ((s.setThr e t (s.thr e t).tickLoads).setThr e t y))
    (hrun : y.run = (s.thr e t).run) (hy : y.rep = (s.thr e t).rep) :
    Thread c s e t { y with pc := y.pc + 1, rep := none, rc := y.rcNext.getD y.rc, rcNext := none, uop := none } := by
  refine thread_of_rep hexec hcan hrep hkey hact fun u hu => ?_
  subst hu hk
  exact State.retire_last (hrun.trans (State.run_of_canIssue hcan)) (hy.trans hrep)

/-- A trap in a repetition leaves the runs to go in erc and REP in ecause. -/
theorem thread_of_rep_trap {cause : Nat} {v : Word} (hcause : cause < 8) (hhandler : (s.thr e t).handler = false)
    (hact : act e t false false (s.setThr e t (s.thr e t).tickLoads) w = .trap cause v) :
    Thread c s e t { (s.thr e t).trapped cause (s.thr e t).pc v with ecause := w32 (cause + 256), erc := w32 k } := by
  have hlatch : (s.thr e t).latch w = s.thr e t := Thr.latch_eq (by simp [hrep])
  have hthr : (s.setThr e t (s.thr e t)).thr e t = s.thr e t := s.thr_setThr_same ..
  rw [(State.runs_of_rep hcan hrep).issue hkey, State.runWord_trap (by omega) hlatch hact,
    State.trapAt_eq (by omega) (by rw [hthr, hhandler])] at hexec
  refine .of_thrOnly hexec ((s.thrOnly_setThr e t _).setThr _) ?_
  rw [State.thr_setThr_same, hthr, hrep]
  rfl

end Repetition

/-- ADDI in a thread whose loads of this slot have landed. -/
theorem aluI_addi (s : State) (e t : Nat) (bad again : Bool) (w : Word) {x : Thr} : aluI (fun a w => a + insSx w) e t bad again (s.setThr e t x) w =
    .next ((s.setThr e t x).setThr e t (x.setG (bits w 25 21) (w32 (uns 32 ((x.g (bits w 20 16)).toNat + simm w))))) := by
  rw [w32_add_simm]
  simp only [aluI, State.setG, State.g, State.thr_setThr_same]

/-- MTS to rc in a repetition. -/
theorem mts_rc_rep (s : State) (e t : Nat) (bad again : Bool) (w : Word) {x : Thr} (hrep : x.rep.isSome = true) (hrd : bits w 25 21 = 0) :
    mts e t bad again (s.setThr e t x) w = .next ((s.setThr e t x).setThr e t { x with rcNext := some (x.g (bits w 20 16)) }) := by
  simp only [mts, State.g, State.thr_setThr_same, insRd, hrd, Thr.setSpecial, hrep, if_true]

/-- A load at an address that is not a multiple of its size traps. -/
theorem loadD_misaligned (s : State) (e t k : Nat) (sx bad again : Bool) (w : Word) (h : (s.thr e t).addr w % k ≠ 0) :
    loadD k sx e t bad again s w = .trap 4 (w32 ((s.thr e t).addr w)) := by
  have htrap : dTrap (s.ea e t w).toNat k = some 4 := by rw [State.toNat_ea, dTrap, if_pos h]
  have haddr : w32 ((s.thr e t).addr w) = s.ea e t w := by rw [← State.toNat_ea, w32, BitVec.ofNat_toNat, BitVec.setWidth_eq]
  simp only [loadD, htrap, haddr]

/-! ### Custom instructions (R160 to R162) -/

theorem getLsbD_of_bits_eq_one {w : Word} {k : Nat} (h : bits w k k = 1) : w.getLsbD k = true := by
  have hshift : w.toNat >>> k % 2 = 1 := by simpa [bits] using h
  simp [BitVec.getLsbD, Nat.testBit_eq_decide_div_mod_eq, ← Nat.shiftRight_eq_div_pow, hshift]

/-- A valid custom instruction starts at its first micro-op, with its temporaries 0. -/
theorem State.custom_starts {s : State} {e t : Nat} {w i : Word} {um : Option (Fin 16 × Bool)} {again : Bool}
    (hlatch : (s.thr e t).latch w = s.thr e t) (huop : (s.thr e t).uop = none)
    (hi : i = storeGet (fun _ => 0) (s.engSt e).table (bits w 25 21)) (hvalid : i.getLsbD 13 = true)
    (hfits : bits i 8 0 + bits i 12 9 ≤ 511) : s.custom e t w um again =
      microRun e t w (bits i 8 0) (bits i 12 9) um 17 (s.setThr e t { s.thr e t with temps := [] }) 0 false again := by
  subst hi
  unfold State.custom
  simp only [hlatch, huop, hvalid, Nat.not_lt.mpr hfits, Bool.not_true, Bool.false_eq_true, or_self, if_false]

section MicroOps

variable {s s1 : State} {e t start last f j : Nat} {w u : Word} {um : Option (Fin 16 × Bool)}

/-- A micro-op that goes on is followed by the next one. -/
theorem microRun_next (hj : j ≤ last) (hu : u = storeGet (fun _ => 0) (s.engSt e).ucode (start + j))
    (hop : microOp (s.setThr e t (s.thr e t).tickLoads) e t w u false false = .next s1 false) (hrun : (s1.thr e t).run = true) :
    microRun e t w start last none (f + 1) s j false false = microRun e t w start last none f s1 (j + 1) false false := by
  have hwhole : ((none : Option (Nat × Bool)) == some (j, true)) = false := rfl
  rw [microRun]
  simp only [Nat.not_lt.mpr hj, if_false, Option.map_none, reduceCtorEq, ← hu, hwhole, Bool.false_eq_true, hop, hrun, if_true]
/-- After the last micro-op the instruction is complete. -/
theorem microRun_complete (hj : last < j) : microRun e t w start last um (f + 1) s j false false = s.retire e t := by
  rw [microRun, if_pos hj]

end MicroOps

/-- A UADD or UMUL with a constant writes the register its selector names. -/
theorem microOp_const {s : State} {e t : Nat} {w u : Word} {x : Thr} {bad again : Bool} (hop : bits u 31 27 = 0 ∨ bits u 31 27 = 0x0B)
    (hconst : u.getLsbD 14 = true) : microOp (s.setThr e t x) e t w u bad again = .next ((s.setThr e t x).setThr e t
      (x.setSel w (bits u 26 23) (w32 (uns 32 (if bits u 31 27 = 0 then ((x.sel w (bits u 22 19)).toNat : Int) + sgn 14 (bits u 13 0)
        else ((x.sel w (bits u 22 19)).toNat : Int) * sgn 14 (bits u 13 0)))))) false := by
  rcases hop with hadd | hmul
  · simp only [microOp, hadd, hconst, State.thr_setThr_same, if_true, uAlu, w32_uns_add]
  · simp only [microOp, hmul, hconst, State.thr_setThr_same, if_true, uAlu, w32_uns_mul, Nat.reduceEqDiff, if_false]

/-- The general register that selector 1, 2 or 3 names. -/
def selGeneral (w : Word) (i : Nat) : Nat := if i = 1 then bits w 20 16 else if i = 2 then bits w 15 11 else bits w 10 6

theorem selReg_general {w : Word} {i : Nat} (hlo : 1 ≤ i) (hhi : i ≤ 3) : selReg w i = some (selGeneral w i) := by
  interval_cases i <;> rfl
theorem Thr.sel_general {x : Thr} {w : Word} {i : Nat} (hlo : 1 ≤ i) (hhi : i ≤ 3) : x.sel w i = x.g (selGeneral w i) := by
  interval_cases i <;> rfl
theorem Thr.setSel_general {x : Thr} {w v : Word} {i : Nat} (hlo : 1 ≤ i) (hhi : i ≤ 3) : x.setSel w i v = x.setG (selGeneral w i) v := by
  rw [Thr.setSel, selReg_general hlo hhi]

theorem insKey_custom {w : Word} (h : bits w 31 26 = 0x3E) : insKey w = 64 * 62 := by simp [insKey, insOp, h]

/-- A custom instruction of one micro-op that leaves the thread `y` goes on at the next index. -/
theorem thread_custom_single {e : Fin 16} {t : Fin 4} {w i : Word} {x y : Thr} {s : State} (hf : s.fetches e t w = true)
    (hop : bits w 31 26 = 0x3E) (huop : (s.thr e t).uop = none) (hi : i = storeGet (fun _ => 0) (s.engSt e).table (bits w 25 21))
    (hvalid : bits i 13 13 = 1) (hone : bits i 12 9 = 0) (hx : x = { s.thr e t with temps := [] }.tickLoads)
    (hmicro : ∀ s1 : State, microOp (s1.setThr e t x) e t w (storeGet (fun _ => 0) (s.engSt e).ucode (bits i 8 0)) false false =
      .next ((s1.setThr e t x).setThr e t y) false)
    (hrun : y.run = x.run) (hrep : y.rep = x.rep) : Thread (.customInstruction e t false none) s e t (y.goes (y.pc + 1)) := by
  have hfits : bits i 8 0 + bits i 12 9 ≤ 511 := by
    have hlt := bits_lt i 8 0
    omega
  set s0 := s.setThr e t { s.thr e t with temps := [] } with hs0
  have hticked : (s0.thr e t).tickLoads = x := by rw [hs0, State.thr_setThr_same, hx]
  have hucode : (s0.engSt e).ucode = (s.engSt e).ucode := (congrArg EngSt.ucode (s.engSt_setThr_unthreaded e t _ e) :)
  have hyrun : y.run = true := by
    rw [hrun, hx, Thr.tickLoads_run]
    exact State.run_of_canIssue (State.canIssue_of_fetches hf)
  have hyrep : y.rep = none := by
    rw [hrep, hx, Thr.tickLoads_rep]
    exact State.rep_of_fetches hf
  have hlatch : (s.thr e t).latch w = s.thr e t := Thr.latch_eq (by simp [State.rep_of_fetches hf])
  have hcustom : s.custom e t w none false = ((s0.setThr e t x).setThr e t y).setThr e t (y.goes (y.pc + 1)) := by
    have hy : ((s0.setThr e t x).setThr e t y).thr e t = y := State.thr_setThr_same ..
    rw [State.custom_starts hlatch huop hi (getLsbD_of_bits_eq_one hvalid) hfits, hone,
      microRun_next (Nat.zero_le 0) rfl (s1 := (s0.setThr e t x).setThr e t y) (by rw [hticked, hucode]; exact hmicro s0) (by rw [hy, hyrun]),
      microRun_complete (by decide), State.retire_goes (by rw [hy, hyrun]) (by rw [hy, hyrep]), hy]
  have hissue : s.issueWith e t (64 * 62) false (fun s w => s.custom e t w none false) =
      ((s0.setThr e t x).setThr e t y).setThr e t (y.goes (y.pc + 1)) :=
    (State.runs_of_fetches hf (64 * 62) _ (insKey_custom hop)).trans hcustom
  exact .of_thrOnly (congrArg done hissue) ((((s.thrOnly_setThr e t _).setThr x).setThr y).setThr _) (State.thr_setThr_same ..)

/-! ### The end of a stall (R114, R151) -/

theorem satAdd_eq_min (top a b : Nat) : satAdd top a b = min top (a + b) := by
  unfold satAdd
  split <;> omega

theorem State.regN_countSat_same (s : State) (a n : Nat) : (s.countSat a n).regN a = min 0xFFFFFFFF (s.regN a + n) := by
  rw [State.regN, State.countSat, State.reg_setRegN_same, satAdd_eq_min, w32, BitVec.toNat_ofNat, Nat.mod_eq_of_lt (by omega)]

section StallOver

variable {s : State} {e t : Nat} (h : (s.thr e t).stall.isSome = true)
include h

theorem State.stallSync_eq : s.stallSync e t = (s.countSat (ENG_CNT e 2) ((s.time.now - (s.thr e t).since) / 5)).setThr e t
    { s.thr e t with since := (s.thr e t).since + 5 * ((s.time.now - (s.thr e t).since) / 5) } := by
  have hsome : ¬ (s.thr e t).stall.isNone = true := by simpa using Option.isSome_iff_ne_none.mp h
  rw [State.stallSync, if_neg hsome]

theorem State.thr_stallOver : (s.stallOver e t).thr e t =
    { s.thr e t with since := (s.thr e t).since + 5 * ((s.time.now - (s.thr e t).since) / 5), stall := none } := by
  rw [State.stallOver, State.stallSync_eq h, State.thr_setThr_same, State.thr_setThr_same]

/-- The end of a stall changes the engine's count of lost slots and its status alone. -/
theorem State.only_stallOver : Only s (s.stallOver e t) [ENG_CNT e 2, ENG_STAT e] [] := by
  rw [State.stallOver, State.stallSync_eq h]
  exact ((((s.only_setReg (ENG_CNT e 2) _).quiet (State.only_setThr ..)).quiet (State.only_setThr ..)).mono (by simp))

theorem State.disp_stallOver : (s.stallOver e t).disp = s.disp := by
  rw [State.stallOver, State.stallSync_eq h]
  rfl

/-- The slots lost to the stall are counted. -/
theorem State.regN_stallOver : (s.stallOver e t).regN (ENG_CNT e 2) =
    min 0xFFFFFFFF (s.regN (ENG_CNT e 2) + (s.time.now - (s.thr e t).since) / 5) := by
  have hne : ENG_CNT e 2 ≠ ENG_STAT e := by
    simp only [ENG_CNT, ENG_STAT]
    omega
  rw [State.stallOver, State.stallSync_eq h, State.regN, State.reg_setThr_ne _ _ _ _ hne, State.reg_setThr_ne _ _ _ _ hne]
  exact s.regN_countSat_same _ _

end StallOver

section Post

variable (s : State) (x : Item)

theorem State.only_enqueue : Only s (s.enqueue x) [DISP_CAP (s.clusterOf x.cluster) x.level, DISP_STAT] [] :=
  (((Only.of_eq rfl rfl rfl rfl : Only s _ [] []).quiet (State.only_setFld _ (DISP_CAP_OCC _ _) _)).quiet (State.only_setFld _ DISP_STAT_OCC _))

theorem State.level_enqueue : (s.enqueue x).level (s.clusterOf x.cluster) x.level =
    s.level (s.clusterOf x.cluster) x.level ++ [{ x with stamp := s.cyc0.toNat }] := by
  have hlevels : (s.enqueue x).disp.levels = storeSet (fun _ => []) s.disp.levels (s.clusterOf x.cluster * 8 + x.level)
    (s.level (s.clusterOf x.cluster) x.level ++ [{ x with stamp := s.cyc0.toNat }]) := rfl
  rw [State.level, hlevels, storeGet_set, if_pos rfl]

end Post

/-- POSTGO with room in its level posts its item and answers 0. -/
theorem State.portWrite_postGo {s : State} {e t : Nat} (v : Word) (again : Bool) (hroom : s.itemRoom (s.postItem e t) = true) :
    s.portWrite e t 0x420 4 v again = ((s.enqueue (s.postItem e t)).setPort e t 0x428 0, true) := by
  have hpost : s.portWrite e t 0x420 4 v again = s.postGo e t again := rfl
  rw [hpost, State.postGo, if_pos hroom]

section StalledPost

variable {s : State} {e t : Nat} {v : Word} (hstall : (s.thr e t).stall = some (.port 0x420 (some v)))
include hstall

/-- The end of a stall leaves the registers outside the engines'. -/
theorem State.reg_stallOver_outside {a : Nat} (he : e < 16) (ha : a < 0x41000000 ∨ 0x41100000 ≤ a) : (s.stallOver e t).reg a = s.reg a := by
  refine (State.only_stallOver (by simp [hstall])).1 a ?_
  simp only [ENG_CNT, ENG_STAT, List.mem_cons, List.not_mem_nil, or_false]
  omega

theorem State.postItem_stallOver : (s.stallOver e t).postItem e t = s.postItem e t := by
  simp only [State.postItem, State.port, State.thr_stallOver (s := s) (e := e) (t := t) (by simp [hstall])]

theorem State.clusterOf_stallOver (he : e < 16) (n : Nat) : (s.stallOver e t).clusterOf n = s.clusterOf n := by
  rw [State.clusterOf, State.regN, State.reg_stallOver_outside hstall he (.inr (by decide)), State.clusterOf, State.regN]

theorem State.level_stallOver (k l : Nat) : (s.stallOver e t).level k l = s.level k l := by
  rw [State.level, State.disp_stallOver (by simp [hstall]), State.level]

theorem State.itemRoom_stallOver (he : e < 16) (x : Item) : (s.stallOver e t).itemRoom x = s.itemRoom x := by
  have hcap (k l : Nat) : (s.stallOver e t).fld (DISP_CAP_CAP k l) = s.fld (DISP_CAP_CAP k l) := by
    have hreg := State.reg_stallOver_outside (a := DISP_CAP k l) hstall he (.inr (by simp only [DISP_CAP]; omega))
    exact congrArg (bits · 12 0) hreg
  simp only [State.itemRoom, State.hasRoom, State.clusterOf_stallOver hstall he, State.level_stallOver hstall, hcap]

/-- A stalled POSTGO whose level has room completes. -/
theorem State.stallEnd_postGo (he : e < 16) (hlive : s.engLive e = true) (hrun : (s.thr e t).run = true) (hdead : (s.thr e t).dead = false)
    (hroom : s.itemRoom (s.postItem e t) = true) :
    s.stallEnd e t none = ((s.stallOver e t).enqueue (s.postItem e t)).setPort e t 0x428 0 := by
  have hitem := State.postItem_stallOver hstall
  have hwrite : (s.stallOver e t).portWrite e t 0x420 4 v true = (((s.stallOver e t).enqueue (s.postItem e t)).setPort e t 0x428 0, true) := by
    rw [State.portWrite_postGo v true (by rw [hitem, State.itemRoom_stallOver hstall he, hroom]), hitem]
  simp only [State.stallEnd, hlive, hrun, hdead, hstall, State.portRetry, hwrite, Bool.not_true, Bool.or_self, Bool.false_eq_true, if_false,
    if_true]

end StalledPost

/-- The stall of a POSTGO whose level has room ends, and its item is posted. -/
theorem effect_stallEnd_postGo {e : Fin 16} {t : Fin 4} {v : Word} {s : State} (hlive : s.engLive e = true) (hrun : (s.thr e t).run = true)
    (hdead : (s.thr e t).dead = false) (hstall : (s.thr e t).stall = some (.port 0x420 (some v)))
    (hroom : s.itemRoom (s.postItem e t) = true) :
    Effect (.threadStallEnd e t none) s
      [ENG_CNT e 2, DISP_CAP (s.clusterOf (s.postItem e t).cluster) (s.postItem e t).level, DISP_STAT, ENG_STAT e] []
      (fun u => (u.thr e t).stall = none ∧ u.port e t 0x428 = 0 ∧
        u.regN (ENG_CNT e 2) = min 0xFFFFFFFF (s.regN (ENG_CNT e 2) + (s.time.now - (s.thr e t).since) / 5) ∧
        u.level (s.clusterOf (s.postItem e t).cluster) (s.postItem e t).level =
          s.level (s.clusterOf (s.postItem e t).cluster) (s.postItem e t).level ++ [{ s.postItem e t with stamp := s.cyc0.toNat }]) := by
  have hsome : (s.thr e t).stall.isSome = true := by simp [hstall]
  set x := s.postItem e t with hx
  have hcluster := State.clusterOf_stallOver hstall e.isLt x.cluster
  have hitem := (s.stallOver e t).only_enqueue x
  rw [hcluster] at hitem
  have hport := ((s.stallOver e t).enqueue x).only_setThr e t
    { ((s.stallOver e t).enqueue x).thr e t with port := storeSet (fun _ => 0) (((s.stallOver e t).enqueue x).thr e t).port 0x428 0 }
  refine effect_of_eq (State.stallEnd_postGo hstall e.isLt hlive hrun hdead hroom)
    ((((State.only_stallOver hsome).quiet hitem).quiet hport).mono (by simp)) ⟨?stall, ?answer, ?lost, ?level⟩ rfl
  case stall =>
    rw [State.setPort, State.thr_setThr_same]
    exact congrArg Thr.stall (State.thr_stallOver hsome)
  case answer =>
    rw [State.port, State.setPort, State.thr_setThr_same]
    simp
  case lost =>
    have hcnt : ENG_CNT e 2 ≠ ENG_STAT e := by
      simp only [ENG_CNT, ENG_STAT]
      omega
    have hdisp : ENG_CNT e 2 ∉ [DISP_CAP (s.clusterOf x.cluster) x.level, DISP_STAT] := by
      simp only [ENG_CNT, DISP_CAP, DISP_STAT, List.mem_cons, List.not_mem_nil, or_false]
      omega
    rw [← State.regN_stallOver hsome, State.regN, State.setPort, State.reg_setThr_ne _ _ _ _ hcnt, hitem.1 _ hdisp, State.regN]
  case level =>
    have hlevel := (s.stallOver e t).level_enqueue x
    rw [hcluster, State.level_stallOver hstall, State.cyc0, State.reg_stallOver_outside hstall e.isLt (.inl (by decide))] at hlevel
    exact hlevel

/-- Settles O26, from how a repeated instruction ends, what one micro-op makes of its thread and what the end of a stall does. -/
theorem repetitionCustomAndStall : Obligations.RepetitionCustomAndStall := by
  unfold Obligations.RepetitionCustomAndStall
  refine ⟨?repeats, ?last, ?mts, ?trap, ?custom, ?stall, fun _ _ _ _ => rfl⟩
  case repeats =>
    intro e t w k x s hcan hrep hk hop hx
    subst hx
    exact thread_of_repeats rfl hcan hrep (insKey_wide hop (by decide) (by decide)) hk (aluI_addi ..) (by simp) (by simp)
  case last =>
    intro e t w x s hcan hrep hop hx
    subst hx
    simpa using thread_of_last rfl hcan hrep (insKey_wide hop (by decide) (by decide)) rfl (aluI_addi ..) (by simp) (by simp)
  case mts =>
    intro e t w k x s hcan hrep hk ⟨hop, hfn, hrd⟩ hx
    subst hx
    have hkey : insKey w = 257 := by simp [insKey, insOp, hop, hfn]
    exact thread_of_repeats rfl hcan hrep hkey hk (mts_rc_rep s e t false false w (by simp [hrep]) hrd) (by simp) (by simp)
  case trap =>
    intro e t w k s hcan hrep hop haddr hhandler
    refine thread_of_rep_trap rfl hcan hrep (insKey_wide hop (by decide) (by decide)) (by decide) hhandler ?_
    have hthr := s.thr_setThr_same e t (s.thr e t).tickLoads
    have htrap := loadD_misaligned (s.setThr e t (s.thr e t).tickLoads) e t 4 false false false w (by rw [hthr]; exact haddr)
    rwa [hthr] at htrap
  case custom =>
    intro e t w i m v r x s hf ⟨hop, huop⟩ hi ⟨hvalid, hone⟩ hm hmicro ⟨hconst, hlo, hhi, hdst⟩ hr hx hv
    have hr' : r = selGeneral w (bits m 26 23) := hr
    have hstep (s1 : State) : microOp (s1.setThr e t x) e t w m false false = .next ((s1.setThr e t x).setThr e t (x.setG r v)) false := by
      rw [microOp_const hmicro (getLsbD_of_bits_eq_one hconst), hdst, Thr.setSel_general hlo hhi, Thr.sel_general hlo hhi, ← hr', hv]
    have hthread := thread_custom_single hf hop huop hi hvalid hone hx (by rwa [← hm]) (x.setG_run r v) (x.setG_rep r v)
    rwa [Thr.setG_pc] at hthread
  case stall =>
    intro e t v s ⟨hlive, hrun, hdead⟩ hstall hroom
    exact effect_stallEnd_postGo hlive hrun hdead hstall hroom

end Sys2Proof.Machine
